-- ==== Sys2Proof/Word.lean ====
section
/-!
DEFINITION. Words, bytes, leaf names and the plainest helpers over them (R6, R8, R13).
-/
namespace Sys2Proof

/-- A register word: every register is 32 bits wide (R8). -/
abbrev Word := BitVec 32

/-- A byte of DRAM, of flash or of a frame. -/
abbrev Byte := BitVec 8

/-- The bits of an IEEE 754 binary32 value. -/
abbrev F32 := BitVec 32

/-- The bits of an IEEE 754 binary64 value. -/
abbrev F64 := BitVec 64

/-- The two independent halves of the device (R15, R16). -/
inductive LeafId where
  | A
  | B
  deriving DecidableEq, Repr

/-- The other leaf of the pair. -/
def LeafId.other : LeafId → LeafId
  | .A => .B
  | .B => .A

/-- LEAF_ID.LEAF: 0 for Leaf A, 1 for Leaf B. -/
def LeafId.toNat : LeafId → Nat
  | .A => 0
  | .B => 1

/-- Field [hi:lo] of a number, both ends included (R6). -/
def bitsOf (w hi lo : Nat) : Nat := (w >>> lo) % 2 ^ (hi + 1 - lo)

/-- Bit i of a number. -/
def bitOf (w i : Nat) : Bool := w.testBit i

/-- `w` with field [hi:lo] replaced by `v` (R6). -/
def setBits (w hi lo v : Nat) : Nat :=
  (w >>> (hi + 1)) <<< (hi + 1) + ((v % 2 ^ (hi + 1 - lo)) <<< lo) + w % 2 ^ lo

/-- 1 for true, 0 for false. -/
def b2n (b : Bool) : Nat := if b then 1 else 0

/-- The signed value of the low n bits (two's complement). -/
def signedOf (n w : Nat) : Int :=
  let v := w % 2 ^ n
  if v < 2 ^ (n - 1) then (v : Int) else (v : Int) - (2 ^ n : Nat)

/-- The n-bit two's-complement pattern of an integer. -/
def patternOf (n : Nat) (i : Int) : Nat := (i % (2 ^ n : Nat)).toNat

/-- `v` held between `lo` and `hi`. -/
def clampNat (lo hi v : Nat) : Nat := if v < lo then lo else if hi < v then hi else v

/-- `v` held between `lo` and `hi`. -/
def clampInt (lo hi v : Int) : Int := if v < lo then lo else if hi < v then hi else v

/-- A counter that saturates at `top`. -/
def satInc (top v : Nat) : Nat := if v < top then v + 1 else top

/-- The number of a little-endian byte list (R6). -/
def leNat : List Byte → Nat
  | [] => 0
  | b :: t => b.toNat + 256 * leNat t

/-- The number of a big-endian byte list. -/
def beNat (bs : List Byte) : Nat := leNat bs.reverse

/-- `n` little-endian bytes of a number (R6). -/
def leBytes : Nat → Nat → List Byte
  | 0, _ => []
  | n + 1, v => BitVec.ofNat 8 v :: leBytes n (v / 256)

/-- `n` big-endian bytes of a number. -/
def beBytes (n v : Nat) : List Byte := (leBytes n v).reverse

/-- `n` bytes of a list from byte `ofs`; a byte past the end reads 0. -/
def sliceBytes (bs : List Byte) (ofs n : Nat) : List Byte :=
  let t := (bs.drop ofs).take n
  t ++ List.replicate (n - t.length) 0

/-- The little-endian number in `n` bytes from byte `ofs`. -/
def leAt (bs : List Byte) (ofs n : Nat) : Nat := leNat (sliceBytes bs ofs n)

/-- The big-endian number in `n` bytes from byte `ofs`. -/
def beAt (bs : List Byte) (ofs n : Nat) : Nat := beNat (sliceBytes bs ofs n)

/-- `bs` with the bytes of `v` written from `ofs` on (the length stays). -/
def putBytes (bs : List Byte) (ofs : Nat) (v : List Byte) : List Byte :=
  bs.take ofs ++ (v.take (bs.length - ofs)) ++ bs.drop (ofs + v.length)

/-- `bs` cut, or filled with zeros, to `n` bytes. -/
def padTo (n : Nat) (bs : List Byte) : List Byte :=
  bs.take n ++ List.replicate (n - bs.length) 0

/-- The list cut into pieces of `n`; `fuel` bounds the number of pieces. -/
def chunksFuel {α : Type} (n : Nat) : Nat → List α → List (List α)
  | 0, _ => []
  | _ + 1, [] => []
  | fuel + 1, l => l.take n :: chunksFuel n fuel (l.drop n)

/-- The list cut into pieces of `n` (n at least 1). -/
def chunks {α : Type} (n : Nat) (l : List α) : List (List α) := chunksFuel n l.length l

/-- Element i replaced; the list stays as it is when i is past its end. -/
def setAt {α : Type} : List α → Nat → α → List α
  | [], _, _ => []
  | _ :: t, 0, v => v :: t
  | h :: t, i + 1, v => h :: setAt t i v

/-- Element i changed by f. -/
def modAt {α : Type} : List α → Nat → (α → α) → List α
  | [], _, _ => []
  | h :: t, 0, f => f h :: t
  | h :: t, i + 1, f => h :: modAt t i f

/-! Sparse tables: a list of keys and values with strictly rising keys and no entry equal to what an unlisted
key reads as. Registers and memories are both held this way. -/

/-- What key `a` reads as. -/
def sparseGet {α : Type} (d : Nat → α) : List (Nat × α) → Nat → α
  | [], a => d a
  | (k, v) :: t, a => if k = a then v else sparseGet d t a

/-- The table without key `a`. -/
def sparseDel {α : Type} (a : Nat) : List (Nat × α) → List (Nat × α)
  | [] => []
  | (k, w) :: t => if k = a then sparseDel a t else (k, w) :: sparseDel a t

/-- The table with an entry for key `a`, keys rising. -/
def sparseIns {α : Type} (a : Nat) (v : α) : List (Nat × α) → List (Nat × α)
  | [] => [(a, v)]
  | (k, w) :: t =>
    if k < a then (k, w) :: sparseIns a v t else if k = a then (a, v) :: t else (a, v) :: (k, w) :: t

/-- The table with key `a` made to read as `v`, in canonical form: an entry equal to the default is removed. -/
def sparseSet {α : Type} [DecidableEq α] (d : Nat → α) (a : Nat) (v : α) (m : List (Nat × α)) : List (Nat × α) :=
  if v = d a then sparseDel a m else sparseIns a v m

/-- Strictly rising keys, the first above `lo`, and no entry equal to the default. -/
def sparseWfFrom {α : Type} [DecidableEq α] (d : Nat → α) : Nat → List (Nat × α) → Bool
  | _, [] => true
  | lo, (k, v) :: t => decide (lo ≤ k) && !decide (v = d k) && sparseWfFrom d (k + 1) t

/-- The canonical form of a sparse table. -/
def sparseWf {α : Type} [DecidableEq α] (d : Nat → α) (m : List (Nat × α)) : Bool := sparseWfFrom d 0 m

/-! Association lists with distinct, rising Nat keys, for structured tables (contexts, stages, jobs). -/

/-- The entry of key k, if there is one. -/
def alGet {α : Type} : List (Nat × α) → Nat → Option α
  | [], _ => none
  | (k, v) :: t, a => if k = a then some v else alGet t a

/-- The list with key a given value v, keys rising. -/
def alSet {α : Type} (a : Nat) (v : α) : List (Nat × α) → List (Nat × α)
  | [] => [(a, v)]
  | (k, w) :: t => if k < a then (k, w) :: alSet a v t else if k = a then (a, v) :: t else (a, v) :: (k, w) :: t

/-- The list without key a. -/
def alDel {α : Type} (a : Nat) : List (Nat × α) → List (Nat × α)
  | [] => []
  | (k, w) :: t => if k = a then t else (k, w) :: alDel a t

end Sys2Proof
end

