-- ==== Sys2Proof/Syntax.lean ====
section
/-!
DEFINITION. The commands: one constructor per row of spec/opcode_table.json, with its operands.
-/
namespace Sys2Proof

/-- A supply rail with an undervoltage detector (R512, R549). -/
inductive Rail where
  | vddCore (l : LeafId)
  | vddIo18
  | vddSram
  | vddqDram
  | vccFlash
  | vccqFlash
  | vddPhy
  deriving DecidableEq, Repr

/-- A host configuration write that changes a function's state (R489, R504, R505). -/
inductive PcieCfg where
  | pmcsr (d3hot : Bool)
  | pmeEn (on : Bool)
  | pmeStatusClear
  | busMaster (on : Bool)
  | msixEnable (on : Bool)
  | functionMask (on : Bool)
  | vectorMask (vec : Nat) (on : Bool)
  | requesterId (rid : Nat)
  | apertureLog2 (n : Nat)
  deriving DecidableEq, Repr

/-- A register of a general trigger that TRIGGER_REPROGRAM writes (R76). -/
inductive TrigReg where
  | startLo
  | startHi
  | startFrac
  | period
  | width
  deriving DecidableEq, Repr

/-- An output whose pulse ends (R74, R103, R439). -/
inductive Pin where
  | gtrig (l : LeafId) (n : Nat)
  | tickOut (l : LeafId)
  | barrierOut
  deriving DecidableEq, Repr

/-- What the media answers to a flash codeword read (R203, R204): the read level at which the primary codeword is
correct, or none; and the same for the mirror copy. -/
structure ReadOutcome where
  primary : Option Nat
  mirror : Option Nat
  deriving DecidableEq, Repr

/-- What a DRAM word read finds (R206). -/
inductive WordOutcome where
  | clean
  | corrected
  | uncorrectable
  deriving DecidableEq, Repr

/-- Whether a page program or block erase of a flash write succeeds (R214, R217). -/
structure WriteOutcome where
  failed : Bool
  spareLeft : Bool
  deriving DecidableEq, Repr

/-- A host access to a byte window: a read of `n` bytes or a write of bytes (R491, R493). -/
inductive HostAccess where
  | read (n : Nat)
  | write (bytes : List Byte)
  deriving DecidableEq, Repr

/-- How a boot phase ends (R513 to R519). -/
inductive BootOutcome where
  | ok
  | lockstepMismatch
  | dramTrain
  | mbist
  | lbist
  | initFailed
  deriving DecidableEq, Repr

/-- A link whose state changes: an A-PHY receiver with the gear it reached, or a switch port (R230). -/
inductive LinkId where
  | camera (n gear : Nat)
  | port (p : Nat)
  deriving DecidableEq, Repr

/-- A CSI-2 packet from an A-PHY receiver (R231): a frame start or end of a virtual channel, a long packet with its data
type, whether its CRC is right, and its payload, or another short packet. -/
inductive CsiPacket where
  | frameStart (vc : Nat)
  | frameEnd (vc : Nat)
  | long (vc dt : Nat) (crcOk : Bool) (payload : List Byte)
  | other
  deriving DecidableEq, Repr

/-- A CAN FD frame (R240, R241): extended identifier or not, identifier, data, and whether it arrived without error. -/
structure CanFrame where
  ide : Bool
  id : Nat
  data : List Byte
  ok : Bool
  deriving DecidableEq, Repr

/-- The commands of the device: one constructor per row of spec/opcode_table.json. `l` is the leaf, `c` the local count
of that leaf at which an event occurs (`c8` in 1/8 counts, R64, R66), `w` the word a register write carries. -/
inductive Instr where
  /-- POWER_ON (R509): VDD_IO18 rises through its threshold and everything except fuses and flash is reinitialised,
  followed by a hinge reset. -/
  | powerOn
  /-- RESET_N_LOW (R556): RESET_N is held low for 50 samples of the auxiliary clock and causes a hinge reset that
  lasts until RESET_N has been high for 1 ms. -/
  | resetNLow
  /-- RAIL_UNDERVOLTAGE (R549): A rail stays under its undervoltage threshold for 500 ns and resets the block it
  powers: a leaf reset for VDD_CORE_x, otherwise a hinge reset. -/
  | railUndervoltage (rail : Rail)
  /-- RST_A (R23): Writing RST_A in HINGE_LEAF_CTRL resets Leaf A; the request is ignored if the leaf is already in
  reset. -/
  | rstA (w : Word)
  /-- RST_B (R23): Writing RST_B in HINGE_LEAF_CTRL resets Leaf B; the request is ignored if the leaf is already in
  reset. -/
  | rstB (w : Word)
  /-- LOCKSTEP (R19): The two leaf-controller cores disagree and the leaf is reset as a RESET fault. -/
  | lockstep (l : LeafId)
  /-- WATCHDOG (R529): Watchdog servicing lapses in S0 for FLT_WDT.MS and the leaf is reset with cause 0x3. -/
  | watchdog (l : LeafId) (c : Nat)
  /-- PERST_N_ASSERT (R489): PERST_N goes low and resets the PCIe link and the state of both functions, while both
  leaves keep running. -/
  | perstNAssert
  /-- PERST_N_RELEASE (R505): PERST_N is released and the link trains; a held message can then proceed once WAKE_N has
  ended. -/
  | perstNRelease
  /-- FLR (R489): A function level reset resets one function's configuration space, and held messages stay held. -/
  | flr (fn : Nat)
  /-- PCIE_CONFIG_WRITE (R505): A host configuration write, such as PMCSR or MSI-X Enable, changes the function state
  and can release held messages. -/
  | pcieConfigWrite (fn : Nat) (op : PcieCfg)
  /-- LINK_STATE_CHANGE (R504): The PCIe link changes state, for example leaving L1 or reaching L0, and held messages
  are delivered once their row's condition ends. -/
  | linkStateChange (speed width lstate : Nat)
  /-- HINGE_MODE_WRITE (R24): The first write sets MODE and LOCKED; a later write only clears LATE_WR or sets it, and
  LOCKED releases held STARTs. -/
  | hingeModeWrite (w : Word)
  /-- STAMP_TO_HINGE (R29): A leaf's arrival stamp reaches the hinge, which pairs it by source and sequence number and
  returns the earlier stamp to both leaves. -/
  | stampToHinge (l : LeafId)
  /-- STAMP_UNPAIRED (R30): PAIR_WIN expires without a partner stamp, so the leaf uses its own stamp and an UNPAIRED
  fault is raised. -/
  | stampUnpaired (l : LeafId) (src seq : Nat)
  /-- DIGEST_TO_HINGE (R34): A leaf's stage or configuration digest reaches the hinge and is compared with its
  partner, raising DIGEST or CONFIG faults. -/
  | digestToHinge (l : LeafId)
  /-- DIGEST_MISSING (R34): One tick period after commit only one digest of a pair has arrived, and a MISSING fault is
  raised. -/
  | digestMissing (l : LeafId) (tick : Nat) (id : Option Nat)
  /-- REARM (R36): Writing REARM while SINGLE is 1 restarts comparison at the next boundary at which both leaves are
  ticking. -/
  | rearm (w : Word)
  /-- AGREE_FAULT_CLEAR (R39): Software clears HINGE_AGREE_STAT.FAULT, which re-arms the log and releases SAFE_N
  unless another cause holds it. -/
  | agreeFaultClear (w : Word)
  /-- REGISTER_WRITE (R10): A write to a register that has no row of its own sets its fields by access type, or is
  ignored with a refusal flag where the manual says so. -/
  | registerWrite (addr : Nat) (w : Word)
  /-- RATE (R50): Writing the RATE bit of TIME_Dd_COMMIT re-origins the domain clock and applies the new rate, or
  refuses the commit. -/
  | domRate (l : LeafId) (d : Nat)
  /-- STEP (R51): Writing the STEP bit of TIME_Dd_COMMIT applies a signed step to the domain clock, through the
  bridging offset if the domain is followed while ticking. -/
  | domStep (l : LeafId) (d : Nat)
  /-- SET (R51): Writing the SET bit of TIME_Dd_COMMIT sets the domain time, unless the domain is followed while
  ticking. -/
  | domSet (l : LeafId) (d : Nat)
  /-- BRIDGE_SLEW_END (R54): The bridging offset slews down to exactly 0 and SLEWING clears. -/
  | bridgeSlewEnd (l : LeafId) (c : Nat)
  /-- VT_SEL_WRITE (R58): Writing TIME_VT_CTRL.SEL requests a switch of vehicle time to the other domain, which is
  refused if that domain is unhealthy or B is out of range. -/
  | vtSelWrite (l : LeafId) (w : Word)
  /-- VT_AUTO_SWITCH (R57): AUTO is set, the followed domain is unhealthy and the other is healthy, so vehicle time
  switches domains continuously through a new B. -/
  | vtAutoSwitch (l : LeafId) (c : Nat)
  /-- SYNC_RECEIVED (R59): A gPTP Sync frame arrives; on the slave port it is measured, tested for path suspicion and
  relayed, otherwise it is dropped. -/
  | syncReceived (l : LeafId) (port c8 : Nat) (frame : List Byte) (egress : List (Nat × Nat))
  /-- FOLLOW_UP_RECEIVED (R70): A Follow_Up is corrected and relayed if a matching Sync arrived within 100 ms,
  otherwise it is dropped. -/
  | followUpReceived (l : LeafId) (port c8 : Nat) (frame : List Byte)
  /-- PDELAY_MESSAGE_RECEIVED (R59): A peer-delay message is answered by the responder or completes an initiator
  measurement of link delay and rate ratio. -/
  | pdelayMessageReceived (l : LeafId) (port c8 : Nat) (frame : List Byte) (egress8 : Nat)
  /-- PDELAY_INITIATE (R59): The hardware peer-delay initiator sends its periodic request on an external port. -/
  | pdelayInitiate (l : LeafId) (port egress8 : Nat)
  /-- SYNC_TIMEOUT (R56): No Sync is accepted for SYNC_TIMEOUT ms and the domain becomes LOST. -/
  | syncTimeout (l : LeafId) (d c : Nat)
  /-- PATH_SUSPECT_CLEAR (R62): Software clears PATH_SUSPECT, which returns the domain to service unless a new
  detection falls in the same cycle. -/
  | pathSuspectClear (l : LeafId) (d : Nat) (w : Word)
  /-- PPS_EDGE (R77): A selected PPS edge of at least 100 ns captures the local count and vehicle time, counting
  overwrites. -/
  | ppsEdge (l : LeafId) (falling : Bool) (c8 widthNs : Nat)
  /-- CAP (R79): Writing TIME_CAPTURE.CAP latches the local count, vehicle time, D0 and D1 at one count. -/
  | cap (l : LeafId)
  /-- TRIGGER_ARM (R74): Writing ARM arms a general trigger in single or periodic mode, skipping instants already
  past. -/
  | triggerArm (l : LeafId) (n : Nat) (w : Word)
  /-- TRIGGER_DISARM (R74): Writing DISARM disarms the trigger after any pulse in progress. -/
  | triggerDisarm (l : LeafId) (n : Nat) (w : Word)
  /-- TRIGGER_PULSE (R74): An armed trigger's instant is reached and its pulse of WIDTH ns is driven. -/
  | triggerPulse (l : LeafId) (n c : Nat)
  /-- TRIGGER_REPROGRAM (R76): Writing START, PERIOD or WIDTH of an armed trigger reschedules its following pulses. -/
  | triggerReprogram (l : LeafId) (n : Nat) (r : TrigReg) (w : Word)
  /-- FRAME_RECEIVED (R68): An Ethernet frame arrives at a switch port and is checked, learned, forwarded or dropped. -/
  | frameReceived (l : LeafId) (port c8 : Nat) (frame : List Byte) (fcsOk : Bool)
  /-- FRAME_TRANSMIT (R71): A queued frame starts transmission when its class's gate is open for long enough to
  complete it. -/
  | frameTransmit (l : LeafId) (port c : Nat)
  /-- FDB_AGE_OUT (R69): A learned forwarding entry reaches AGE_S seconds without traffic and is removed. -/
  | fdbAgeOut (l : LeafId) (index c : Nat)
  /-- FDB_READ (R69): SW_FDB_CMD OP 0 reads the forwarding entry at INDEX. -/
  | fdbRead (l : LeafId) (w : Word)
  /-- FDB_WRITE_STATIC (R69): SW_FDB_CMD OP 1 inserts a static entry, which is refused with FULL if the set is full. -/
  | fdbWriteStatic (l : LeafId) (w : Word)
  /-- FDB_DELETE (R69): SW_FDB_CMD OP 2 deletes a forwarding entry. -/
  | fdbDelete (l : LeafId) (w : Word)
  /-- FDB_FLUSH_LEARNED (R69): SW_FDB_CMD OP 3 flushes the learned entries. -/
  | fdbFlushLearned (l : LeafId) (w : Word)
  /-- QBV_GATE_EVENT (R71): A gate-control-list interval boundary is reached in vehicle time and the gate states
  change. -/
  | qbvGateEvent (l : LeafId) (port c : Nat)
  /-- QBV_CHANGE (R72): Writing CHANGE schedules the admin gate list, or rejects it with CFG_ERR when the intervals do
  not sum to the cycle. -/
  | qbvChange (l : LeafId) (port : Nat) (w : Word)
  /-- QBV_CONFIG_TAKE_EFFECT (R72): At the qualifying cycle start the admin list, base time and cycle become
  operational. -/
  | qbvConfigTakeEffect (l : LeafId) (port c : Nat)
  /-- START (R86): Writing TICK_CTRL.START schedules the first boundary, or is held, waits for a barrier or is
  refused. -/
  | start (l : LeafId) (w : Word)
  /-- HALT (R90): Writing TICK_CTRL.HALT stops the leaf at the next boundary, which becomes the halting boundary. -/
  | halt (l : LeafId) (w : Word)
  /-- BARRIER_IN_EDGE (R438): A BARRIER_IN pulse of at least 100 ns is counted and gives V to every leaf waiting with
  BARRIER set. -/
  | barrierInEdge (ca cb : Nat)
  /-- TICK_BOUNDARY (R96): At a tick boundary of a ticking leaf the leaf controller runs steps 1 to 10: cut-off,
  credit check, blind decision, commit, records, snapshot, updates, latch, selection and arming. -/
  | tickBoundary (l : LeafId) (c : Nat)
  /-- BOUND_LATE (R97): A boundary phase runs past 240,000 ns, which sets BOUND_LATE and raises a leaf fault. -/
  | boundLate (l : LeafId) (c : Nat)
  /-- SUB_TICK_BOUNDARY (R83): A sub-tick boundary falls in vehicle time and advances the sub-tick index. -/
  | subTickBoundary (l : LeafId) (c : Nat)
  /-- LOAD (R126): LEAF_GLZ_CMD.LOAD latches the image registers and starts staging and checking a whole image. -/
  | load (l : LeafId) (w : Word)
  /-- GLAZE_CHECKS_DONE (R128): The staged image's checks end: on failure the status and FAILPOS are set, otherwise
  the load commits and the leaf becomes GLAZED. -/
  | glazeChecksDone (l : LeafId) (reads : List ReadOutcome)
  /-- UPDATE (R130): LEAF_GLZ_CMD.UPDATE starts staging and verifying a variant-only image. -/
  | update (l : LeafId) (w : Word)
  /-- UPDATE_VERIFIED (R132): Verification of an update ends: it applies at once if not ticking, becomes PENDING, or
  is refused. -/
  | updateVerified (l : LeafId)
  /-- CANCEL (R132): LEAF_GLZ_CMD.CANCEL discards a PENDING update with DETAIL CANCELLED. -/
  | cancel (l : LeafId) (w : Word)
  /-- KEY_UNLOCK (R125): Writing LEAF_GLZ_KUNLOCK arms an unlock value that the next KCTL write consumes. -/
  | keyUnlock (l : LeafId) (w : Word)
  /-- PROG1 (R125): LEAF_GLZ_KCTL.PROG1 with the right unlock programs key slot 1 from KPROG, or is refused. -/
  | prog1 (l : LeafId) (w : Word)
  /-- REVOKE0 (R125): LEAF_GLZ_KCTL.REVOKE0 with the revoke unlock revokes key slot 0. -/
  | revoke0 (l : LeafId) (w : Word)
  /-- REVOKE1 (R125): LEAF_GLZ_KCTL.REVOKE1 with the revoke unlock revokes key slot 1. -/
  | revoke1 (l : LeafId) (w : Word)
  /-- FUSE_OPERATION_DONE (R125): A key fuse operation completes and FUSE_BUSY clears. -/
  | fuseOperationDone (l : LeafId)
  /-- STAGE_FIRE (R162): An armed stage whose inputs hold tokens and whose output routes hold credits consumes one
  token per input and emits its outputs. -/
  | stageFire (l : LeafId) (stage : Nat) (emit : List (Nat × Nat))
  /-- TOKEN_ARRIVAL (R171): A token reaches its consumer's input buffer after its hops. -/
  | tokenArrival (l : LeafId) (route : Nat) (crcBad : List Nat)
  /-- CREDIT_RETURN (R168): A returned route credit reaches the producer and becomes usable. -/
  | creditReturn (l : LeafId) (route : Nat) (crcBad : List Nat)
  /-- GRANULE_FETCH_DONE (R200): A DRAM cache granule fetch from flash completes and its waiting readers proceed. -/
  | granuleFetchDone (l : LeafId) (obj granule : Nat) (reads : List ReadOutcome)
  /-- FLASH_READ_DONE (R203): A flash codeword read completes, retrying up to level 8, falling back to the mirror, or
  poisoning the object. -/
  | flashReadDone (l : LeafId) (addr : Nat) (read : ReadOutcome)
  /-- DRAM_SCRUB_PASS (R206): The patrol scrub reads and corrects the next DRAM words in its SCRUB_H period. -/
  | dramScrubPass (l : LeafId) (addr : Nat) (out : WordOutcome)
  /-- DRAM_REPAIR_DONE (R206): The refill of a poisoned RESIDENT_DRAM region from flash completes, and its poison is
  cleared at the next step 7. -/
  | dramRepairDone (l : LeafId) (obj : Nat) (read : ReadOutcome)
  /-- REWRITE (R212): MEM_RW_CTRL.REWRITE rewrites an object's flash copies from DRAM, or is refused. -/
  | rewrite (l : LeafId) (w : Word)
  /-- WRITEBACK (R213): MEM_RW_CTRL.WRITEBACK copies a WRITABLE object's committed copy to flash page by page. -/
  | writeback (l : LeafId) (w : Word)
  /-- MEM_RW_DONE (R214): A rewrite or writeback completes with status OK, INVALID or POISON and raises RW_DONE. -/
  | memRwDone (l : LeafId) (writes : List WriteOutcome)
  /-- FLASH_REFRESH (R215): A block reaching its age, read count or retry trigger is rewritten to a fresh block in the
  background. -/
  | flashRefresh (l : LeafId) (addr : Nat) (lost : Bool)
  /-- SOURCE_ENABLE (R225): Writing ENABLE 1 moves a sensor source from OFF to DOWN, or is refused for an unsuitable
  OBJ. -/
  | sourceEnable (l : LeafId) (src : Nat) (w : Word)
  /-- SOURCE_DISABLE (R225): Writing ENABLE 0 moves a sensor source to OFF. -/
  | sourceDisable (l : LeafId) (src : Nat) (w : Word)
  /-- SOURCE_LINK_LOST (R225): A receiver loses lock, a port link goes down or a CAN controller goes bus-off, and the
  source goes DOWN. -/
  | sourceLinkLost (l : LeafId) (src c : Nat)
  /-- SOURCE_ITEM_TIMEOUT (R225): No well-formed item arrives for 3 × WIN and the source goes DOWN. -/
  | sourceItemTimeout (l : LeafId) (src c : Nat)
  /-- CAMERA_PACKET (R231): A CSI-2 short or long packet arrives from an A-PHY receiver and is stamped, stored, marked
  invalid or ignored. -/
  | cameraPacket (l : LeafId) (cam c8 : Nat) (p : CsiPacket)
  /-- CAMERA_FRAME_DUE (R232): A frame's due instant is reached: it becomes presentable, supersedes an earlier one, or
  is discarded as LATE. -/
  | cameraFrameDue (l : LeafId) (cam c : Nat)
  /-- EXPOSURE_TRIGGER (R234): A trigger sending time is reached and a GPIO back-channel message is sent, or the
  instant is skipped. -/
  | exposureTrigger (l : LeafId) (cam c : Nat)
  /-- I2C_GO (R230): Writing SNS_CAMn_I2C.GO starts one I2C transaction to the link partner. -/
  | i2cGo (l : LeafId) (cam : Nat) (w : Word)
  /-- I2C_DONE (R230): The I2C transaction completes, with BUSY cleared, NACK set and the read data stored. -/
  | i2cDone (l : LeafId) (cam : Nat) (nack : Bool) (data : Nat)
  /-- LIDAR_DATAGRAM (R235): A UDP datagram through P5 is matched to a template and turned into point records, or
  passed to the host. -/
  | lidarDatagram (l : LeafId)
  /-- IMU_DATA_READY (R238): A data-ready edge is stamped and starts an SPI transaction, or is counted as an overrun. -/
  | imuDataReady (l : LeafId) (port c8 : Nat)
  /-- SPI_TRANSACTION_DONE (R238): The SPI transaction, or a listener capture, ends and its fields are converted and
  written to filter channels. -/
  | spiTransactionDone (l : LeafId) (port : Nat) (miso : List Byte)
  /-- CAN_FRAME_RECEIVED (R241): A CAN FD frame is matched against the 64 template entries and each match extracts one
  signal. -/
  | canFrameReceived (l : LeafId) (ctrl c8 : Nat) (f : CanFrame)
  /-- CAN_BUS_RECOVERY (R240): A bus-off controller completes ISO recovery and returns to error-active. -/
  | canBusRecovery (l : LeafId) (ctrl c : Nat)
  /-- UART_MESSAGE (R242): A framed UART message, or a malformed one, is taken whole. -/
  | uartMessage (l : LeafId) (c8 : Nat) (msg : List Byte) (ok : Bool)
  /-- UART_TX (R242): Writing SNS_UART_TX queues one byte, or sets TX_OVF when the FIFO is full. -/
  | uartTx (l : LeafId) (w : Word)
  /-- UART_BYTE_SENT (R242): The UART finishes sending a byte from its transmit FIFO. -/
  | uartByteSent (l : LeafId) (c : Nat)
  /-- FILT_CHANNEL_ENABLE (R253): Writing a channel's ENABLE to 1 clears all its state, or refuses an invalid program. -/
  | filtChannelEnable (l : LeafId) (ch : Nat) (w : Word)
  /-- FILT_SYNC_EDGE (R255): An accepted FILT_SYNC pin edge makes a decimator phase reset of every SYNC_EN channel. -/
  | filtSyncEdge (l : LeafId) (c8 : Nat)
  /-- FILT_SYNC_TICK_RESET (R255): The boundary of an armed FILT_SYNC_TICK is reached and a phase reset is made. -/
  | filtSyncTickReset (l : LeafId) (c : Nat)
  /-- FILT_SYNC_ARM (R255): FILT_SYNC_CTRL.ARM arms a phase reset for FILT_SYNC_TICK, or is refused. -/
  | filtSyncArm (l : LeafId) (w : Word)
  /-- FILT_SYNC_CANCEL (R255): FILT_SYNC_CTRL.CANCEL disarms the pending phase reset. -/
  | filtSyncCancel (l : LeafId) (w : Word)
  /-- EGO_PROPAGATION (R260): HOLD_US after a sub-tick ends, ego-motion integrates the window's IMU samples, checks
  wheel slip and propagates covariance. -/
  | egoPropagation (l : LeafId) (c : Nat)
  /-- EGO_RESET (R266): EGO_CTRL.RESET loads the state from EGO_INIT at the next propagation. -/
  | egoReset (l : LeafId) (w : Word)
  /-- VISION_JOB_START (R274): A ready vision job starts at arming or after its predecessors complete, or is skipped. -/
  | visionJobStart (l : LeafId) (e job : Nat)
  /-- VISION_JOB_COMPLETE (R274): A vision job completes, swapping its surface copies or ending with an engine error. -/
  | visionJobComplete (l : LeafId) (e job : Nat) (ue : Bool)
  /-- VISION_ENGINE_RESET (R298): VIS_ENGe_CTRL.RESET abandons the engine's jobs and settles their tokens. -/
  | visionEngineReset (l : LeafId) (e : Nat) (w : Word)
  /-- VISION_RESET_DONE (R298): RST_BUSY of the engine clears after the single-engine reset. -/
  | visionResetDone (l : LeafId) (e : Nat)
  /-- PROJECTION_JOB (R304): A projection job starts on its first point token and projects each point into its
  cameras. -/
  | projectionJob (l : LeafId) (job : Nat)
  /-- FUSION_GRID_UPDATE (R313): Once every evidence input and the track input have delivered END, the grid is
  combined and the tracks are updated. -/
  | fusionGridUpdate (l : LeafId)
  /-- DR_TIMER_EXPIRY (R324): The dead-reckoning interval of DR_MS since T3 runs out and the raw step rises to 4. -/
  | drTimerExpiry (l : LeafId) (c : Nat)
  /-- FUS_TBL_COMMIT (R307): FUS_TBL_CMD.COMMIT loads the staged alignment tables at the next step 7, or at once if
  not ticking. -/
  | fusTblCommit (l : LeafId) (w : Word)
  /-- FUS_DEMOTE_CLEAR (R316): Software clears a demoted source's bit and restores it, unless a demotion falls in the
  same cycle. -/
  | fusDemoteClear (l : LeafId) (n : Nat) (w : Word)
  /-- FUS_TRK_NEXT_WRITE (R317): A write to FUS_TRK_NEXT takes effect only if its value is greater than the current
  one. -/
  | fusTrkNextWrite (l : LeafId) (w : Word)
  /-- BLIND_START (R334): A speculable stage, finished for tick k with the prediction latched and speculation enabled,
  starts blind work for tick k + 1. -/
  | blindStart (l : LeafId) (stage : Nat)
  /-- SPEC_DECISION (R338): Once the confirmed pose is available and step 3 has begun, the gate is judged and each
  blind stage is confirmed or squashed. -/
  | specDecision (l : LeafId) (c : Nat)
  /-- LOOP_VERIFICATION_DONE (R360): The RANSAC verification of a loop candidate completes after step 10. -/
  | loopVerificationDone (l : LeafId) (cand : Nat)
  /-- GO (R364): MAP_LMK_RD_IDX.GO copies the committed landmark entry SLOT into MAP_LMK_RD_DATA. -/
  | lmkGo (l : LeafId) (w : Word)
  /-- LMK_READ_DONE (R364): The landmark copy completes and BUSY clears. -/
  | lmkReadDone (l : LeafId) (ue : Bool)
  /-- QUERY_ADMIT (R388): A waiting stage row or host query is admitted to a free context with its snapshot sequence
  number. -/
  | queryAdmit (l : LeafId) (ctx : Nat)
  /-- WALK_READ_DONE (R372): A node or descriptor codeword read of a query completes and the walk or re-rank proceeds. -/
  | walkReadDone (l : LeafId) (ctx : Nat) (read : ReadOutcome)
  /-- QUERY_COMPLETE (R373): A query ends and its result block is formed; a host query's block and record are written. -/
  | queryComplete (l : LeafId) (ctx : Nat)
  /-- QUERY_DEADLINE (R380): A host query is still running DEADLINE_US after admission and is abandoned with TIMEOUT. -/
  | queryDeadline (l : LeafId) (ctx c : Nat)
  /-- SIDE_INSERT (R384): SRCH_SIDE_CMD OP 1 inserts a side-list item with a new ID and sequence number, or is
  refused. -/
  | sideInsert (l : LeafId) (w : Word)
  /-- SIDE_DELETE (R384): SRCH_SIDE_CMD OP 2 adds a delete tombstone for a visible item, or is refused. -/
  | sideDelete (l : LeafId) (w : Word)
  /-- SIDE_CMD_DONE (R384): The side-list command completes with a status and raises SIDE_DONE. -/
  | sideCmdDone (l : LeafId)
  /-- MERGE_GO (R386): SRCH_MRG_CTRL.GO starts merging an index slot and its side list into a new index. -/
  | mergeGo (l : LeafId) (w : Word)
  /-- MERGE_ABORT (R387): SRCH_MRG_CTRL.ABORT abandons the merge. -/
  | mergeAbort (l : LeafId) (w : Word)
  /-- MERGE_DONE (R386): The merge completes and sets DONE with a status. -/
  | mergeDone (l : LeafId) (readable : Bool)
  /-- SWAP (R387): SRCH_IDXx_CTRL.SWAP after DONE switches the slot to the merged index at the next step 7, or at
  once. -/
  | swap (l : LeafId) (x : Nat) (w : Word)
  /-- SRCH_FW_GO (R391): SRCH_FW_CTRL.GO writes LEN bytes from DRAM to flash, or is refused. -/
  | srchFwGo (l : LeafId) (w : Word)
  /-- SRCH_FW_DONE (R391): The flash write completes with OK or POISON. -/
  | srchFwDone (l : LeafId) (writes : List WriteOutcome)
  /-- ATTACH (R392): SRCH_IDXx_CTRL.ATTACH reads and checks an index header. -/
  | attach (l : LeafId) (x : Nat) (w : Word)
  /-- ATTACH_DONE (R392): Attachment completes with OK, INVALID or POISON, and SEQ and NEXT are set on success. -/
  | attachDone (l : LeafId) (x : Nat) (read : ReadOutcome)
  /-- DETACH (R392): SRCH_IDXx_CTRL.DETACH stops admissions, and the slot detaches when its last query ends. -/
  | detach (l : LeafId) (x : Nat) (w : Word)
  /-- SOLVER_JOB_START (R401): An armed solver job whose inputs are present starts on the lanes by priority. -/
  | solverJobStart (l : LeafId) (job : Nat)
  /-- SOLVER_JOB_COMPLETE (R405): A solver job finishes and writes its result with status OK, PIVOT_CLAMPED, NONFINITE
  or INVALID. -/
  | solverJobComplete (l : LeafId) (job : Nat) (ue : Bool)
  /-- GRAPH_REQ (R415): SOLV_CTRL.GRAPH_REQ requests a pose-graph solve at the next step 10. -/
  | graphReq (l : LeafId) (w : Word)
  /-- ASSIGN_START (R420): The assignment unit starts when the cost matrix's END arrives. -/
  | assignStart (l : LeafId)
  /-- ASSIGN_COMPLETE (R419): The assignment finishes and sends its vector on output port 8. -/
  | assignComplete (l : LeafId)
  /-- SOLVER_RESET (R422): SOLV_CTRL.RESET abandons the solver and assignment jobs, which commit fallbacks at the next
  boundary. -/
  | solverReset (l : LeafId) (w : Word)
  /-- SOLVER_RESET_DONE (R422): RST_BUSY of the solver clears after its reset. -/
  | solverResetDone (l : LeafId)
  /-- GO_RD (R431): LEAF_RNG_CIDX.GO_RD copies a stage's random counter into CVAL. -/
  | clutchRead (l : LeafId) (w : Word)
  /-- GO_WR (R431): LEAF_RNG_CIDX.GO_WR writes CVAL into a stage's counter, and is refused while ticking. -/
  | clutchWrite (l : LeafId) (w : Word)
  /-- FIRE (R439): HINGE_BAR_CTRL.FIRE schedules a BARRIER_OUT pulse in the middle of a tick of the SRC leaf. -/
  | barFire (w : Word)
  /-- BARRIER_CANCEL (R440): HINGE_BAR_CTRL.CANCEL withdraws a pending barrier pulse. -/
  | barrierCancel (w : Word)
  /-- BARRIER_OUT_PULSE (R439): The scheduled barrier instant is reached and the pulse is driven on BARRIER_OUT. -/
  | barrierOutPulse (c : Nat)
  /-- OP_EVALUATION (R444): Every 10 ms while not ticking, the effective operating point and the cap ceilings are
  evaluated. -/
  | opEvaluation (l : LeafId) (c : Nat)
  /-- RAIL_SETTLED (R445): AVSBus reports VDone for a raised set point, and the clock is raised at the next
  evaluation. -/
  | railSettled (l : LeafId)
  /-- VRAIL (R445): A rail has not settled within 1 ms, so the leaf stays at the lower point and logs VRAIL. -/
  | vrail (l : LeafId) (c : Nat)
  /-- PEAK_EVALUATION (R453): Every 0.5 µs the 1 ms energy window is projected and the stretch level moves. -/
  | peakEvaluation (l : LeafId) (c : Nat)
  /-- TEMP_SAMPLE (R455): Every 100 µs the junction sensors are read, feeding Tj and region-skew checks. -/
  | tempSample (l : LeafId) (c : Nat) (temps : List Nat)
  /-- TRIP_CLEAR (R457): PWR_TRIP.CLEAR returns a tripped leaf from FAULT when every sensor is below LIMIT, or is
  refused. -/
  | tripClear (l : LeafId) (w : Word)
  /-- COOLANT_WRITE (R458): A write to PWR_COOL_IN or PWR_COOL_BUDGET updates the coolant data and restarts the
  staleness timer. -/
  | coolantWrite (l : LeafId) (budget : Bool) (w : Word)
  /-- COOL_STALE (R458): Neither coolant register has been written for TIMEOUT_MS and the stale share applies. -/
  | coolStale (l : LeafId) (c : Nat)
  /-- REGION_SKEW (R460): A crossing limit is not restored within 1 ms, so leaf fault REGION_SKEW is raised. -/
  | regionSkew (l : LeafId) (c : Nat)
  /-- SLEEP_REQ (R464): PWR_SLEEP_CTRL.REQ chooses a sleep state and begins entry, or is refused. -/
  | sleepReq (l : LeafId) (w : Word)
  /-- SLEEP_ENTRY_DONE (R467): Sleep entry passes its commit point and completes, so the leaf is in its sleep state. -/
  | sleepEntryDone (l : LeafId) (c : Nat)
  /-- WAKE (R466): PWR_SLEEP_CTRL.WAKE wakes the leaf with source HOST, or aborts an entry before its commit point. -/
  | wake (l : LeafId) (w : Word)
  /-- WAKE_ALARM (R466): PWR_WAKE_AT is reached and wakes the leaf as source ALARM. -/
  | wakeAlarm (l : LeafId) (c : Nat)
  /-- WAKE_EVENT_TIMER (R465): The self-scheduled wake time before a known event arrives, and the leaf wakes as source
  EVENT. -/
  | wakeEventTimer (l : LeafId) (c : Nat)
  /-- CAN_BUS_WAKE (R466): A dominant CAN level lasting 5 µs wakes the leaf from S1 or S2. -/
  | canBusWake (l : LeafId) (ctrl c : Nat)
  /-- WKUP_EDGE (R479): A WKUP edge sets its wake latch, which wakes the leaf if enabled and raises interrupt source
  0x050 + n. -/
  | wkupEdge (l : LeafId) (n : Nat) (falling : Bool) (c : Nat)
  /-- WAKE_COMPLETE (R463): The leaf completes its wake and answers in its state from before sleep, re-glazing after
  S3. -/
  | wakeComplete (l : LeafId) (c : Nat)
  /-- IRQ_EOI (R475): A write to IRQ_EOI completes a source, re-samples level sources and pops the host stack. -/
  | irqEoi (l : LeafId) (w : Word)
  /-- IRQ_PEND_WRITE (R476): A write to IRQ_PENDw sets and clears pending bits, counting the hardware sets it loses. -/
  | irqPendWrite (l : LeafId) (n : Nat) (w : Word)
  /-- IRQ_MASK_WRITE (R474): Clearing MASK of a pending, inactive source counts as an event towards the vector
  accumulator. -/
  | irqMaskWrite (l : LeafId) (n : Nat) (w : Word)
  /-- IRQ_TGT_WRITE (R472): A write to IRQ_TGTs takes effect only while the source is masked and inactive, and is
  otherwise refused. -/
  | irqTgtWrite (l : LeafId) (src : Nat) (w : Word)
  /-- IRQ_COALESCE_TIMEOUT (R474): TIME_US elapses since the first counted event and the vector's message falls due. -/
  | irqCoalesceTimeout (l : LeafId) (v c : Nat)
  /-- SNAP (R483): CNT_CTRL.SNAP takes an on-demand counter snapshot, or is refused while BUSY. -/
  | snap (l : LeafId) (w : Word)
  /-- SNAPSHOT_DONE (R483): All shadows of a snapshot are written and BUSY clears. -/
  | snapshotDone (l : LeafId) (c : Nat)
  /-- SQ_DOORBELL (R499): A write of the submission tail doorbell advances the tail, or is refused with DB_ERR. -/
  | sqDoorbell (l : LeafId) (q : Nat) (w : Word)
  /-- CQ_DOORBELL (R498): A write of the completion head doorbell frees completion slots, or is refused. -/
  | cqDoorbell (l : LeafId) (q : Nat) (w : Word)
  /-- COMMAND_FETCH (R496): A leaf fetches a submission entry when an unreserved completion slot exists, and reserves
  that slot. -/
  | commandFetch (l : LeafId) (q : Nat) (entry : List Byte)
  /-- NOP (R495): Command 0x00 completes OK. -/
  | nop (l : LeafId) (q tag : Nat)
  /-- SEARCH (R379): Command 0x01 submits a place-search query record for admission. -/
  | search (l : LeafId) (q tag : Nat)
  /-- COPY_IN (R495): Command 0x02 copies host memory into leaf DRAM. -/
  | copyIn (l : LeafId) (q tag : Nat)
  /-- COPY_OUT (R495): Command 0x03 copies leaf DRAM to host memory. -/
  | copyOut (l : LeafId) (q tag : Nat)
  /-- ABORT (R495): Command 0x04 ends a named SEARCH or COPY with SQUASHED, or completes INVALID. -/
  | abort (l : LeafId) (q tag : Nat)
  /-- COPY_DONE (R500): A COPY finishes and its completion record is placed. -/
  | copyDone (l : LeafId) (q tag : Nat) (data : List Byte) (hostErr poison : Bool)
  /-- QUEUE_ENABLE (R494): Writing LEAF_Qq_CFG.EN to 1 starts the pair with heads and tails at 0 and phase 1. -/
  | queueEnable (l : LeafId) (q : Nat) (w : Word)
  /-- QUEUE_DISABLE (R499): Writing EN to 0 stops fetching and squashes the pair's fetched commands. -/
  | queueDisable (l : LeafId) (q : Nat) (w : Word)
  /-- HOLD_DRAIN (R497): A held completion record moves to its queue, marked HELD, once the queue can take it. -/
  | holdDrain (l : LeafId)
  /-- CQ_COALESCE_TIMEOUT (R503): TIME_US elapses since the group's first counted record and its message falls due. -/
  | cqCoalesceTimeout (g c : Nat)
  /-- APERTURE_ACCESS (R491): A PF0 access through the DRAM aperture reaches Leaf A or B DRAM, or is refused as a
  violation. -/
  | apertureAccess (o : Nat) (acc : HostAccess) (out : WordOutcome)
  /-- PF1_WINDOW_ACCESS (R493): A PF1 access reaches a window doorbell or status copy, or is refused. -/
  | pf1WindowAccess (o : Nat) (acc : HostAccess)
  /-- VIOL_LOG_CLEAR (R506): Software clears HINGE_VIOL_STAT.VALID, which re-arms the violation log. -/
  | violLogClear (w : Word)
  /-- BOOT_PHASE_DONE (R513): A boot phase completes and the next begins; the leaf reaches IDLE, FAULT, host wait or
  failure. -/
  | bootPhaseDone (l : LeafId) (c us : Nat) (out : BootOutcome)
  /-- GO_A (R520): HINGE_HBOOT_CTRL.GO_A fetches host firmware for Leaf A in host wait. -/
  | goA (w : Word)
  /-- GO_B (R520): HINGE_HBOOT_CTRL.GO_B fetches host firmware for Leaf B in host wait. -/
  | goB (w : Word)
  /-- HOST_BOOT_FETCH_DONE (R520): The host firmware fetch ends and the image is authenticated or returns the leaf to
  host wait. -/
  | hostBootFetchDone (l : LeafId) (hostErr : Bool) (image : List Byte)
  /-- FWU_GO (R521): LEAF_FWU_CTRL.GO authenticates a firmware image and writes it to one copy, or is refused. -/
  | fwuGo (l : LeafId) (w : Word)
  /-- FWU_DONE (R524): The firmware update finishes with a status and raises FWU_DONE. -/
  | fwuDone (l : LeafId) (ok : Bool)
  /-- CLEAR (R526): FLT_CTRL.CLEAR leaves FAULT where Table 21.2 allows, or is refused. -/
  | faultClear (l : LeafId) (w : Word)
  /-- CLOCK (R552): The clock monitor finds a reference clock or PLL beyond ±2% of the RC oscillator. -/
  | clockFault (l : LeafId) (c : Nat)
  /-- CFG_PARITY_SCAN (R530): The periodic 1 ms parity scan of configuration registers finds an error and raises
  CFG_PARITY. -/
  | cfgParityScan (l : LeafId) (c : Nat) (block : Option Nat)
  /-- DRAM_CHAN (R527): A DRAM channel answers no request for 100 µs and raises a STOP fault. -/
  | dramChan (l : LeafId) (chan c : Nat)
  /-- HINGE_HEARTBEAT (R531): A hinge heartbeat reaches the leaf and ends any HINGE_LOST condition. -/
  | hingeHeartbeat (l : LeafId) (c : Nat)
  /-- HINGE_LOST (R531): No heartbeat arrives for 1 ms, so HINGE_LOST is logged and SAFE_N is optionally asserted. -/
  | hingeLost (l : LeafId) (c : Nat)
  /-- FLT_INJ_KEY_WRITE (R537): Writing FLT_INJ_KEY arms the key that the next FLT_INJ write consumes. -/
  | fltInjKeyWrite (l : LeafId) (w : Word)
  /-- INJECT_CREDIT_SUM (R537): FLT_INJ.GO with KIND 1 injects a credit-sum mismatch on a route. -/
  | injectCreditSum (l : LeafId) (w : Word)
  /-- INJECT_SRAM_ERROR (R537): FLT_INJ.GO with KIND 2 injects a correctable and an uncorrectable SRAM word in a pane. -/
  | injectSramError (l : LeafId) (w : Word)
  /-- INJECT_DIGEST_BIT (R537): FLT_INJ.GO with KIND 3 corrupts one bit of a stage digest sent to the hinge. -/
  | injectDigestBit (l : LeafId) (w : Word)
  /-- INJECT_LINK_CRC (R537): FLT_INJ.GO with KIND 4 injects a LINK_CRC failure on a link. -/
  | injectLinkCrc (l : LeafId) (w : Word)
  /-- INJECT_CFG_PARITY (R537): FLT_INJ.GO with KIND 5 injects a parity error in a block's configuration register. -/
  | injectCfgParity (l : LeafId) (w : Word)
  /-- LIFETIME_RECORD_WRITE (R539): Every hour of S0 or S1 and at S3 entry the lifetime counters are written to the
  boot partition. -/
  | lifetimeRecordWrite (l : LeafId) (c : Nat)
  /-- RESET_N_RELEASE (R556): RESET_N has been high for 1 ms, the hinge reset ends and the boot of R513 begins, with
  configuration answers 2 ms after release. -/
  | resetNRelease
  /-- REGISTER_READ (R476): A PF0 register read with behaviour of its own: it resets an IRQ_PENDw set-since-read mask,
  re-arms the TIME_PPS_VT_LO overwrite check, counts a drop on a down leaf's window and wakes a sleeping leaf as
  source ACCESS. -/
  | registerRead (addr : Nat)
  /-- DRAM_READ_DONE (R206): A DRAM read by a stage or engine over the memory plane completes, correcting a
  correctable word or finding an uncorrectable one that is handled under Table 7.4. -/
  | dramReadDone (l : LeafId) (addr : Nat) (out : WordOutcome)
  /-- VOLTAGE_CHECK (R460): Every 10 µs the core-to-SRAM voltage difference is checked, and beyond 200 mV REGION_SKEW
  becomes active and throttles the region on the higher rail. -/
  | voltageCheck (l : LeafId) (c coreMv sramMv : Nat)
  /-- PULSE_END (R74): WIDTH elapses after a pulse started on GTRIG, TICK_OUT or BARRIER_OUT, and the pin returns to
  its inactive level, ending the pulse in progress. -/
  | pulseEnd (pin : Pin) (c : Nat)
  /-- LINK_UP (R230): An A-PHY receiver gains lock, or a switch port link comes up, setting SNS_CAMn_STAT.LOCK and
  GEAR so that packets can flow again. -/
  | linkUp (l : LeafId) (link : LinkId)
  deriving DecidableEq, Repr

end Sys2Proof
end

