-- ==== Sys2Proof/Machine/Digest.lean ====
section
/-!
DEFINITION. Digests, random draws and signatures: crc64 (R432), draw (R428), SHA-256 (R124) and ECDSA over P-256 with
SHA-256 (R123, R124, FIPS 186-5).
-/
namespace Sys2Proof.Machine

/-! ## CRC-64 (R432) -/

/-- One bit of crc64. -/
def crcBit (c : Nat) : Nat := if c % 2 = 1 then (c / 2) ^^^ 0xC96C5795D7870F42 else c / 2

/-- One byte of crc64. -/
def crcByte (c : Nat) (b : Byte) : Nat := Nat.repeat crcBit 8 (c ^^^ b.toNat)

/-- crc64 of bytes (R432). -/
def crc64 (bs : List Byte) : Nat := bs.foldl crcByte (2 ^ 64 - 1) ^^^ (2 ^ 64 - 1)

/-! ## Random draws (R428) -/

/-- A number modulo 2^64. -/
def u64 (n : Nat) : Nat := n % 2 ^ 64

/-- A left rotation of 64 bits (R428). -/
def rotl64 (x r : Nat) : Nat := u64 (x <<< r) ||| (x >>> (64 - r))

/-- fold of R428. -/
def fold64 (x : Nat) : Nat :=
  let a := u64 ((x ^^^ (x >>> 29)) * 0x5C2E91A73D84F6B3)
  let b := u64 ((a ^^^ (a >>> 31)) * 0x8B47E21CD6950A3F)
  b ^^^ (b >>> 30)

/-- The rounds of draw. -/
def drawRounds : Nat → Nat → Nat → Nat
  | 0, x, _ => x
  | n + 1, x, k => drawRounds n (fold64 (u64 (x + k))) (u64 (rotl64 k 23 + 0x3F6DA5B291C87E4D))

/-- draw(seed, stream, ctr) of R428. -/
def draw (seed stream ctr : Nat) : Nat :=
  drawRounds 4 (u64 ctr) (fold64 (seed ^^^ u64 (stream * 0x9E3779B97F4A7C15)))

/-! ## SHA-256 (FIPS 180-4) -/

/-- The first n primes' test: p has no divisor among the smaller primes. -/
def primesFrom : Nat → Nat → List Nat → List Nat
  | 0, _, acc => acc
  | fuel + 1, p, acc => primesFrom fuel (p + 1) (if acc.all fun q => p % q != 0 then acc ++ [p] else acc)

/-- The first 64 primes. -/
def primes64 : List Nat := primesFrom 310 2 []

/-- The integer k-th root of n, bit by bit from bit b down. -/
def rootBits (k n : Nat) : Nat → Nat → Nat
  | 0, r => r
  | b + 1, r => let t := r + 2 ^ b; rootBits k n b (if t ^ k ≤ n then t else r)

/-- The first 32 bits of the fraction of the square root of p. -/
def sqrtFrac (p : Nat) : Nat := rootBits 2 (p * 2 ^ 64) 40 0 % 2 ^ 32

/-- The first 32 bits of the fraction of the cube root of p. -/
def cbrtFrac (p : Nat) : Nat := rootBits 3 (p * 2 ^ 96) 40 0 % 2 ^ 32

/-- The round constants of SHA-256. -/
def shaK : List Nat := primes64.map cbrtFrac

/-- The initial hash of SHA-256. -/
def shaInit : List Nat := (primes64.take 8).map sqrtFrac

/-- A number modulo 2^32. -/
def u32 (n : Nat) : Nat := n % 2 ^ 32

/-- A right rotation of 32 bits. -/
def rotr32 (x r : Nat) : Nat := (x >>> r) ||| u32 (x <<< (32 - r))

/-- One more word of the message schedule; the schedule is kept newest first. -/
def shaNextW (w : List Nat) : Nat :=
  let a := w.getD 14 0
  let b := w.getD 1 0
  let s0 := rotr32 a 7 ^^^ rotr32 a 18 ^^^ (a >>> 3)
  let s1 := rotr32 b 17 ^^^ rotr32 b 19 ^^^ (b >>> 10)
  u32 (w.getD 15 0 + s0 + w.getD 6 0 + s1)

/-- The message schedule extended by n words, newest first. -/
def shaSchedule : Nat → List Nat → List Nat
  | 0, w => w
  | n + 1, w => shaSchedule n (shaNextW w :: w)

/-- The working variables of SHA-256. -/
structure Sha where
  a : Nat
  b : Nat
  c : Nat
  d : Nat
  e : Nat
  f : Nat
  g : Nat
  h : Nat
  deriving DecidableEq, Repr

/-- One round. -/
def shaRound (s : Sha) (kw : Nat × Nat) : Sha :=
  let s1 := rotr32 s.e 6 ^^^ rotr32 s.e 11 ^^^ rotr32 s.e 25
  let ch := (s.e &&& s.f) ^^^ ((2 ^ 32 - 1 - s.e) &&& s.g)
  let t1 := s.h + s1 + ch + kw.1 + kw.2
  let s0 := rotr32 s.a 2 ^^^ rotr32 s.a 13 ^^^ rotr32 s.a 22
  let mj := (s.a &&& s.b) ^^^ (s.a &&& s.c) ^^^ (s.b &&& s.c)
  { a := u32 (t1 + s0 + mj), b := s.a, c := s.b, d := s.c, e := u32 (s.d + t1), f := s.e, g := s.f, h := s.g }

/-- One 64-byte block. -/
def shaBlock (k : List Nat) (s : Sha) (blk : List Byte) : Sha :=
  let w0 := ((List.range 16).map fun i => beAt blk (4 * i) 4).reverse
  let w := (shaSchedule 48 w0).reverse
  let t := (k.zip w).foldl shaRound s
  { a := u32 (s.a + t.a), b := u32 (s.b + t.b), c := u32 (s.c + t.c), d := u32 (s.d + t.d),
    e := u32 (s.e + t.e), f := u32 (s.f + t.f), g := u32 (s.g + t.g), h := u32 (s.h + t.h) }

/-- The message padded to whole blocks. -/
def shaPad (m : List Byte) : List Byte :=
  m ++ [0x80] ++ List.replicate ((119 - m.length % 64) % 64) 0 ++ beBytes 8 (8 * m.length)

/-- SHA-256 of bytes, as a number (its bytes big-endian). -/
def sha256 (m : List Byte) : Nat :=
  let i := shaInit
  let s0 : Sha := { a := i.getD 0 0, b := i.getD 1 0, c := i.getD 2 0, d := i.getD 3 0, e := i.getD 4 0, f := i.getD 5 0,
                    g := i.getD 6 0, h := i.getD 7 0 }
  let s := (chunks 64 (shaPad m)).foldl (shaBlock shaK) s0
  [s.a, s.b, s.c, s.d, s.e, s.f, s.g, s.h].foldl (fun acc x => acc * 2 ^ 32 + x) 0

/-! ## P-256 (FIPS 186-5) -/

/-- The field prime. -/
def p256P : Nat := 2 ^ 256 - 2 ^ 224 + 2 ^ 192 + 2 ^ 96 - 1
/-- The group order. -/
def p256N : Nat := 0xFFFFFFFF00000000FFFFFFFFFFFFFFFFBCE6FAADA7179E84F3B9CAC2FC632551
/-- The curve coefficient b. -/
def p256B : Nat := 0x5AC635D8AA3A93E7B3EBBD55769886BC651D06B0CC53B0F63BCE3C3E27D2604B
/-- The base point. -/
def p256G : Nat × Nat :=
  (0x6B17D1F2E12C4247F8BCE6E563A440F277037D812DEB33A0F4A13945D898C296,
   0x4FE342E2FE1A7F9B8EE7EB4A7C0F9E162BCE33576B315ECECBB6406837BF51F5)

/-- b^e modulo m, over the low n bits of e from the top down. -/
def powModBits (b e m : Nat) : Nat → Nat → Nat
  | 0, acc => acc
  | n + 1, acc => powModBits b e m n (let q := acc * acc % m; if bitOf e n then q * b % m else q)

/-- The inverse of a modulo the prime m. -/
def invMod (a m : Nat) : Nat := powModBits (a % m) (m - 2) m 256 1

/-- A subtraction modulo the field prime. -/
def subP (a b : Nat) : Nat := (a + p256P - b % p256P) % p256P

/-- The sum of two points; none is the point at infinity. -/
def ecAdd (p q : Option (Nat × Nat)) : Option (Nat × Nat) :=
  match p, q with
  | none, _ => q
  | _, none => p
  | some (x1, y1), some (x2, y2) =>
    if x1 = x2 ∧ (y1 + y2) % p256P = 0 then none
    else
      let s := if x1 = x2 then (3 * x1 * x1 + p256P - 3) * invMod (2 * y1) p256P % p256P
        else subP y2 y1 * invMod (subP x2 x1) p256P % p256P
      let x3 := subP (subP (s * s) x1) x2
      some (x3, subP (s * subP x1 x3) y1)

/-- k times a point, over the low n bits of k from the top down. -/
def ecMulBits (p : Option (Nat × Nat)) (k : Nat) : Nat → Option (Nat × Nat) → Option (Nat × Nat)
  | 0, acc => acc
  | n + 1, acc => ecMulBits p k n (let d := ecAdd acc acc; if bitOf k n then ecAdd d p else d)

/-- The point lies on the curve. -/
def onCurve (x y : Nat) : Bool :=
  decide (x < p256P) && decide (y < p256P)
    && (y * y % p256P == (x * x * x + (p256P - 3) * x + p256B) % p256P)

/-- (r, s) verifies over the message with public key (x, y) (FIPS 186-5, ECDSA over P-256 with SHA-256). -/
def ecdsaVerify (m : List Byte) (x y r s : Nat) : Bool :=
  if decide (r = 0) || decide (p256N ≤ r) || decide (s = 0) || decide (p256N ≤ s) || !onCurve x y then false
  else
    let w := invMod s p256N
    let u1 := sha256 m * w % p256N
    let u2 := r * w % p256N
    match ecAdd (ecMulBits (some p256G) u1 256 none) (ecMulBits (some (x, y)) u2 256 none) with
    | none => false
    | some (px, _) => px % p256N == r

end Sys2Proof.Machine
end

