-- ==== Sys2Proof/Config.lean ====
section
/-!
DEFINITION. What the spec leaves open: constants without a body. Nothing can evaluate one, so a claim holds whatever
its value is. Each is named in a row of notes/assumptions.
-/
namespace Sys2Proof.Config

/-- R69: the set of the forwarding table (taken modulo 1,024) that the device's hash gives a MAC address and a VID.
DESIGN CHOICE (free value): the spec does not give the hash. -/
opaque fdbHash : Nat → Nat → Nat

/-- R69: whether port `p` belongs to VLAN `vid`. DESIGN CHOICE (free value): the spec names no membership register. -/
opaque vlanMember : Nat → Nat → Bool

/-- R67, R81: whether the 802.1Qci tables, read as words, pass a frame of MAC destination, VID and PCP.
DESIGN CHOICE (free value): the spec does not lay the tables out. -/
opaque qciPasses : List (Nat × Nat) → Nat → Nat → Nat → Bool

/-- R68: the limit, in bytes, of the queue of port and class. DESIGN CHOICE (free value): the spec gives none. -/
opaque queueLimit : Nat → Nat → Nat

/-- The values that the spec gives a register or a record without a rule for the number (durations, energies that depend on
coefficients the spec does not give, analogue measurements): one for each draw. DESIGN CHOICE (free value). -/
opaque freeValue : Nat → Nat

/-- R155: the order in which the partials of an output of a split reduction arrive in fast mode, as a code, by draw and
output. DESIGN CHOICE (free value). -/
opaque splitOrder : Nat → Nat → Nat

/-- R150: where in a 2:4 operand of a format and a number of stored elements the metadata and the scales start. DESIGN CHOICE
(free value): the spec does not place them. -/
opaque sparseLayout : Nat → Nat → Nat × Nat

/-- Table 6.7, ATTENTION: whether a mask bit of 1 masks the key. DESIGN CHOICE (free value): the spec gives no polarity. -/
opaque maskBitMasks : Bool

/-- R331: byte `ofs` of the pose object past its 96-byte record, as served to a stage. DESIGN CHOICE (free value): the spec gives the
record alone. -/
opaque poseTail : Nat → Nat

/-- R378: the flash reads that an exact scan of an index of N items over (first, count) reports. DESIGN CHOICE (free value): the spec
does not say how many codeword reads a scan makes. -/
opaque scanReads : Nat → Nat → Nat → Nat

/-- Table 15.4: the cost that the header of a solver result of a kind carries where no Levenberg-Marquardt loop gave one. DESIGN
CHOICE (free value): the spec states none. -/
opaque noCost : Nat → Nat

/-- Table 15.5: the unobservable states that an EGO_UPDATE result reports when rows of S are clamped, by the bitmap of the rows.
DESIGN CHOICE (free value): the spec names no state for a clamped row. -/
opaque egoUnobs : Nat → Nat

/-- R397: the bytes that the factor of fronts, each given as its eliminated and its total dimensions, takes in the scratch object.
DESIGN CHOICE (free value): the spec does not give the layout. -/
opaque factorBytes : List (Nat × Nat) → Nat

/-- R460, Table 17.3: whether two junction sensors lie in adjacent regions. DESIGN CHOICE (free value): the spec gives no adjacency. -/
opaque adjacent : Nat → Nat → Bool

/-- R482: word j (0 to 3) of the descriptor of counter i of a class: name, instance number and unit. DESIGN CHOICE (free value): the
spec lists neither names nor the counters of each class. -/
opaque counterDesc : Nat → Nat → Nat → Nat

end Sys2Proof.Config
end

