-- ==== Sys2Proof/Machine/RegTable.lean ====
section
/-!
DEFINITION. The register tables of the spec as data: one row per register or register array, its address within the
leaf window (block offset of Table 1.7 plus register offset) or within the PF0 view for the hinge (Tables 1.6, 1.8),
its fields with access type and reset value (Table 0.4, R10, R12). A reset of F (fuses) is written 0 here and loaded by
the reset operation.
-/
namespace Sys2Proof.Machine

/-- The access types of Table 0.4 (R10). -/
inductive Access where
  | RW
  | RO
  | WO
  | W1C
  | RWH
  | WS
  deriving DecidableEq, Repr

/-- One field of a register: bits [hi:lo], access, reset value and what the reset value grows by with the array index
(PANE_ID.LOGICAL, TIME_Dd_CFG.DOMAIN_NUM). -/
structure RegField where
  name : String
  hi : Nat
  lo : Nat
  acc : Access
  reset : Nat
  perIdx : Nat := 0
  deriving DecidableEq, Repr

/-- A register or a register array: element (i, j) lies at addr + i * s1 + j * s2 for i < n1, j < n2. -/
structure RegRow where
  name : String
  addr : Nat
  n1 : Nat
  s1 : Nat
  n2 : Nat
  s2 : Nat
  fields : List RegField
  deriving DecidableEq, Repr

/-- A named field of one register: its address and its bits. -/
structure FieldRef where
  addr : Nat
  hi : Nat
  lo : Nat
  deriving DecidableEq, Repr

/-- Registers of the leaf block, part 0. -/
def leafRows0 : List RegRow := [
  ⟨"LEAF_ID", 0x0, 1, 0x0, 1, 0x0, [⟨"FAMILY", 31, 24, .RO, 0x94, 0⟩, ⟨"STEP_LETTER", 23, 16, .RO, 0x41, 0⟩, ⟨"STEP_DIGIT", 15, 12, .RO, 0x1, 0⟩, ⟨"PANES", 7, 1, .RO, 0, 0⟩, ⟨"LEAF", 0, 0, .RO, 0, 0⟩]⟩,
  ⟨"LEAF_UID_LO", 0x4, 1, 0x0, 1, 0x0, [⟨"UID", 31, 0, .RO, 0, 0⟩]⟩,
  ⟨"LEAF_UID_HI", 0x8, 1, 0x0, 1, 0x0, [⟨"UID", 31, 0, .RO, 0, 0⟩]⟩,
  ⟨"LEAF_FW_VER", 0xC, 1, 0x0, 1, 0x0, [⟨"MAJOR", 31, 24, .RO, 0x0, 0⟩, ⟨"MINOR", 23, 16, .RO, 0x0, 0⟩, ⟨"BUILD", 15, 0, .RO, 0x0, 0⟩]⟩,
  ⟨"LEAF_STATUS", 0x10, 1, 0x0, 1, 0x0, [⟨"WAIT_MODE", 15, 15, .RO, 0x0, 0⟩, ⟨"MIRROR", 14, 14, .RO, 0x0, 0⟩, ⟨"STATE", 3, 0, .RO, 0x1, 0⟩]⟩,
  ⟨"LEAF_GLZ_ADDR_LO", 0x100, 1, 0x0, 1, 0x0, [⟨"ADDR", 31, 6, .RW, 0x0, 0⟩]⟩,
  ⟨"LEAF_GLZ_ADDR_HI", 0x104, 1, 0x0, 1, 0x0, [⟨"ADDR", 31, 0, .RW, 0x0, 0⟩]⟩,
  ⟨"LEAF_GLZ_LEN", 0x108, 1, 0x0, 1, 0x0, [⟨"LEN", 26, 0, .RW, 0x0, 0⟩]⟩,
  ⟨"LEAF_GLZ_BIND_LO", 0x10C, 1, 0x0, 1, 0x0, [⟨"ADDR", 31, 3, .RW, 0x0, 0⟩]⟩,
  ⟨"LEAF_GLZ_BIND_HI", 0x110, 1, 0x0, 1, 0x0, [⟨"ADDR", 31, 0, .RW, 0x0, 0⟩]⟩,
  ⟨"LEAF_GLZ_BIND_CNT", 0x114, 1, 0x0, 1, 0x0, [⟨"CNT", 12, 0, .RW, 0x0, 0⟩]⟩,
  ⟨"LEAF_GLZ_TARGET_LO", 0x118, 1, 0x0, 1, 0x0, [⟨"TICK", 31, 0, .RW, 0x0, 0⟩]⟩,
  ⟨"LEAF_GLZ_TARGET_HI", 0x11C, 1, 0x0, 1, 0x0, [⟨"TICK", 31, 0, .RW, 0x0, 0⟩]⟩,
  ⟨"LEAF_GLZ_CMD", 0x120, 1, 0x0, 1, 0x0, [⟨"LOAD", 31, 31, .WS, 0x0, 0⟩, ⟨"UPDATE", 30, 30, .WS, 0x0, 0⟩, ⟨"CANCEL", 29, 29, .WS, 0x0, 0⟩]⟩,
  ⟨"LEAF_GLZ_STAT", 0x124, 1, 0x0, 1, 0x0, [⟨"BUSY", 31, 31, .RO, 0x0, 0⟩, ⟨"PENDING", 30, 30, .RO, 0x0, 0⟩, ⟨"DONE", 29, 29, .W1C, 0x0, 0⟩, ⟨"LAST_UPD", 28, 28, .RO, 0x0, 0⟩, ⟨"CMD_REFUSED", 27, 27, .W1C, 0x0, 0⟩, ⟨"STATUS", 23, 16, .RO, 0x0, 0⟩, ⟨"DETAIL", 15, 8, .RO, 0x0, 0⟩]⟩,
  ⟨"LEAF_GLZ_FAILPOS", 0x128, 1, 0x0, 1, 0x0, [⟨"POS", 31, 0, .RO, 0x0, 0⟩]⟩,
  ⟨"LEAF_GLZ_INFO", 0x12C, 1, 0x0, 1, 0x0, [⟨"NPIPE", 15, 8, .RO, 0x0, 0⟩, ⟨"L", 6, 0, .RO, 0x0, 0⟩]⟩,
  ⟨"LEAF_GLZ_HASH", 0x130, 8, 0x4, 1, 0x0, [⟨"HASH", 31, 0, .RO, 0x0, 0⟩]⟩,
  ⟨"LEAF_GLZ_UHASH", 0x150, 8, 0x4, 1, 0x0, [⟨"HASH", 31, 0, .RO, 0x0, 0⟩]⟩,
  ⟨"LEAF_GLZ_BUILD_LO", 0x170, 1, 0x0, 1, 0x0, [⟨"ID", 31, 0, .RO, 0x0, 0⟩]⟩]

/-- Registers of the leaf block, part 1. -/
def leafRows1 : List RegRow := [
  ⟨"LEAF_GLZ_BUILD_HI", 0x174, 1, 0x0, 1, 0x0, [⟨"ID", 31, 0, .RO, 0x0, 0⟩]⟩,
  ⟨"LEAF_GLZ_KCTL", 0x180, 1, 0x0, 1, 0x0, [⟨"PROG1", 31, 31, .WS, 0x0, 0⟩, ⟨"REVOKE1", 30, 30, .WS, 0x0, 0⟩, ⟨"REVOKE0", 29, 29, .WS, 0x0, 0⟩, ⟨"KEY_REFUSED", 8, 8, .W1C, 0x0, 0⟩, ⟨"FUSE_BUSY", 7, 7, .RO, 0x0, 0⟩, ⟨"REVOKED1", 3, 3, .RO, 0, 0⟩, ⟨"REVOKED0", 2, 2, .RO, 0, 0⟩, ⟨"PRESENT1", 1, 1, .RO, 0, 0⟩, ⟨"PRESENT0", 0, 0, .RO, 0, 0⟩]⟩,
  ⟨"LEAF_GLZ_KUNLOCK", 0x184, 1, 0x0, 1, 0x0, [⟨"KEY", 31, 0, .WO, 0x0, 0⟩]⟩,
  ⟨"LEAF_GLZ_KPROG", 0x190, 8, 0x4, 1, 0x0, [⟨"HASH", 31, 0, .WO, 0x0, 0⟩]⟩,
  ⟨"LEAF_GLZ_KHASH0", 0x1C0, 8, 0x4, 1, 0x0, [⟨"HASH", 31, 0, .RO, 0, 0⟩]⟩,
  ⟨"LEAF_GLZ_KHASH1", 0x1E0, 8, 0x4, 1, 0x0, [⟨"HASH", 31, 0, .RO, 0, 0⟩]⟩,
  ⟨"LEAF_PMAP", 0x200, 16, 0x4, 1, 0x0, [⟨"MAP", 31, 0, .RO, 0, 0⟩]⟩,
  ⟨"LEAF_FWU_SRC_LO", 0x300, 1, 0x0, 1, 0x0, [⟨"SRC", 31, 6, .RW, 0x0, 0⟩]⟩,
  ⟨"LEAF_FWU_SRC_HI", 0x304, 1, 0x0, 1, 0x0, [⟨"SRC", 31, 0, .RW, 0x0, 0⟩]⟩,
  ⟨"LEAF_FWU_LEN", 0x308, 1, 0x0, 1, 0x0, [⟨"LEN", 25, 0, .RW, 0x0, 0⟩]⟩,
  ⟨"LEAF_FWU_CTRL", 0x30C, 1, 0x0, 1, 0x0, [⟨"GO", 31, 31, .WS, 0x0, 0⟩, ⟨"COPY", 0, 0, .RW, 0x0, 0⟩]⟩,
  ⟨"LEAF_FWU_STAT", 0x310, 1, 0x0, 1, 0x0, [⟨"BUSY", 31, 31, .RO, 0x0, 0⟩, ⟨"DONE", 30, 30, .W1C, 0x0, 0⟩, ⟨"STATUS", 23, 16, .RO, 0x0, 0⟩]⟩,
  ⟨"LEAF_SEED_LO", 0x400, 1, 0x0, 1, 0x0, [⟨"SEED", 31, 0, .RW, 0x0, 0⟩]⟩,
  ⟨"LEAF_SEED_HI", 0x404, 1, 0x0, 1, 0x0, [⟨"SEED", 31, 0, .RW, 0x0, 0⟩]⟩,
  ⟨"LEAF_RNG_OBJ", 0x408, 1, 0x0, 1, 0x0, [⟨"OBJ", 11, 0, .RW, 0xFFF, 0⟩]⟩,
  ⟨"LEAF_RNG_CIDX", 0x40C, 1, 0x0, 1, 0x0, [⟨"GO_RD", 31, 31, .WS, 0x0, 0⟩, ⟨"GO_WR", 30, 30, .WS, 0x0, 0⟩, ⟨"STAGE", 15, 0, .RW, 0x0, 0⟩]⟩,
  ⟨"LEAF_RNG_CVAL_LO", 0x410, 1, 0x0, 1, 0x0, [⟨"CTR", 31, 0, .RWH, 0x0, 0⟩]⟩,
  ⟨"LEAF_RNG_CVAL_HI", 0x414, 1, 0x0, 1, 0x0, [⟨"CTR", 31, 0, .RWH, 0x0, 0⟩]⟩,
  ⟨"LEAF_DIG_BASE_LO", 0x420, 1, 0x0, 1, 0x0, [⟨"BASE", 31, 6, .RW, 0x0, 0⟩]⟩,
  ⟨"LEAF_DIG_BASE_HI", 0x424, 1, 0x0, 1, 0x0, [⟨"BASE", 31, 0, .RW, 0x0, 0⟩]⟩]

/-- Registers of the leaf block, part 2. -/
def leafRows2 : List RegRow := [
  ⟨"LEAF_DIG_SIZE", 0x428, 1, 0x0, 1, 0x0, [⟨"SLOTS", 16, 0, .RW, 0x0, 0⟩]⟩,
  ⟨"LEAF_DIG_WR", 0x42C, 1, 0x0, 1, 0x0, [⟨"WR", 16, 0, .RO, 0x0, 0⟩]⟩,
  ⟨"LEAF_DIG_RD", 0x430, 1, 0x0, 1, 0x0, [⟨"RD", 16, 0, .RW, 0x0, 0⟩]⟩,
  ⟨"LEAF_DIG_DROP", 0x434, 1, 0x0, 1, 0x0, [⟨"COUNT", 31, 0, .RO, 0x0, 0⟩]⟩,
  ⟨"LEAF_DET_STAT", 0x438, 1, 0x0, 1, 0x0, [⟨"DIG_DROP", 2, 2, .W1C, 0x0, 0⟩, ⟨"CFG_REFUSED", 1, 1, .W1C, 0x0, 0⟩]⟩,
  ⟨"LEAF_PIPE_CQ", 0xE00, 64, 0x4, 1, 0x0, [⟨"EN", 31, 31, .RW, 0x0, 0⟩, ⟨"CQ", 5, 0, .RW, 0x0, 0⟩]⟩,
  ⟨"LEAF_CQ_HOLD", 0xF00, 1, 0x0, 1, 0x0, [⟨"COUNT", 16, 0, .RO, 0x0, 0⟩]⟩,
  ⟨"LEAF_CQ_HOLD_DROP", 0xF04, 1, 0x0, 1, 0x0, [⟨"COUNT", 31, 0, .RO, 0x0, 0⟩]⟩,
  ⟨"LEAF_Q_SQB_LO", 0x1000, 64, 0x20, 1, 0x0, [⟨"BASE", 31, 6, .RW, 0x0, 0⟩]⟩,
  ⟨"LEAF_Q_SQB_HI", 0x1004, 64, 0x20, 1, 0x0, [⟨"BASE", 31, 0, .RW, 0x0, 0⟩]⟩,
  ⟨"LEAF_Q_CQB_LO", 0x1008, 64, 0x20, 1, 0x0, [⟨"BASE", 31, 6, .RW, 0x0, 0⟩]⟩,
  ⟨"LEAF_Q_CQB_HI", 0x100C, 64, 0x20, 1, 0x0, [⟨"BASE", 31, 0, .RW, 0x0, 0⟩]⟩,
  ⟨"LEAF_Q_CFG", 0x1010, 64, 0x20, 1, 0x0, [⟨"EN", 31, 31, .RW, 0x0, 0⟩, ⟨"IEN", 30, 30, .RW, 0x0, 0⟩, ⟨"SQ_LOC", 29, 29, .RW, 0x0, 0⟩, ⟨"CQ_LOC", 28, 28, .RW, 0x0, 0⟩, ⟨"BUSY", 27, 27, .RO, 0x0, 0⟩, ⟨"CQ_LOG2", 11, 8, .RW, 0x1, 0⟩, ⟨"SQ_LOG2", 3, 0, .RW, 0x1, 0⟩]⟩,
  ⟨"LEAF_Q_SQDB", 0x1014, 64, 0x20, 1, 0x0, [⟨"TAIL", 11, 0, .RW, 0x0, 0⟩]⟩,
  ⟨"LEAF_Q_CQDB", 0x1018, 64, 0x20, 1, 0x0, [⟨"HEAD", 11, 0, .RW, 0x0, 0⟩]⟩,
  ⟨"LEAF_Q_STAT", 0x101C, 64, 0x20, 1, 0x0, [⟨"DB_ERR", 31, 31, .W1C, 0x0, 0⟩, ⟨"CQ_FULL", 30, 30, .RO, 0x0, 0⟩, ⟨"PHASE", 29, 29, .RO, 0x1, 0⟩, ⟨"CQ_TAIL", 27, 16, .RO, 0x0, 0⟩, ⟨"SQ_HEAD", 11, 0, .RO, 0x0, 0⟩]⟩]

/-- Registers of the leaf block. -/
def leafRows : List RegRow := leafRows0 ++ leafRows1 ++ leafRows2

/-- Registers of the tick block, part 0. -/
def tickRows0 : List RegRow := [
  ⟨"TICK_CTRL", 0x100000, 1, 0x0, 1, 0x0, [⟨"START", 31, 31, .WS, 0x0, 0⟩, ⟨"HALT", 30, 30, .WS, 0x0, 0⟩, ⟨"BARRIER", 1, 1, .RW, 0x0, 0⟩]⟩,
  ⟨"TICK_CFG", 0x100004, 1, 0x0, 1, 0x0, [⟨"LOCKED", 31, 31, .RW, 0x0, 0⟩, ⟨"SUB_RATIO", 25, 16, .RW, 0xA, 0⟩, ⟨"OVR_LIMIT", 15, 8, .RW, 0x0, 0⟩]⟩,
  ⟨"TICK_PERIOD", 0x100008, 1, 0x0, 1, 0x0, [⟨"PERIOD", 31, 0, .RW, 0x989680, 0⟩]⟩,
  ⟨"TICK_START_LO", 0x10000C, 1, 0x0, 1, 0x0, [⟨"START_AT", 31, 0, .RW, 0x0, 0⟩]⟩,
  ⟨"TICK_START_HI", 0x100010, 1, 0x0, 1, 0x0, [⟨"START_AT", 31, 0, .RW, 0x0, 0⟩]⟩,
  ⟨"TICK_STAT", 0x100014, 1, 0x0, 1, 0x0, [⟨"BOUND_LATE", 8, 8, .W1C, 0x0, 0⟩, ⟨"REPORT_DROP", 7, 7, .W1C, 0x0, 0⟩, ⟨"PIN_OVER", 6, 6, .RO, 0x0, 0⟩, ⟨"FLOOR_OVER", 5, 5, .RO, 0x0, 0⟩, ⟨"CMD_REFUSED", 4, 4, .W1C, 0x0, 0⟩, ⟨"CFG_REFUSED", 3, 3, .W1C, 0x0, 0⟩, ⟨"BARRIER_WAIT", 2, 2, .RO, 0x0, 0⟩, ⟨"START_PEND", 1, 1, .RO, 0x0, 0⟩, ⟨"RUNNING", 0, 0, .RO, 0x0, 0⟩]⟩,
  ⟨"TICK_NUM_LO", 0x100018, 1, 0x0, 1, 0x0, [⟨"NUM", 31, 0, .RO, 0x0, 0⟩]⟩,
  ⟨"TICK_NUM_HI", 0x10001C, 1, 0x0, 1, 0x0, [⟨"NUM", 31, 0, .RO, 0x0, 0⟩]⟩,
  ⟨"TICK_SUBIDX", 0x100020, 1, 0x0, 1, 0x0, [⟨"IDX", 9, 0, .RO, 0x0, 0⟩]⟩,
  ⟨"TICK_PTICK", 0x100024, 1, 0x0, 1, 0x0, [⟨"P", 31, 0, .RO, 0x0, 0⟩]⟩,
  ⟨"TICK_FIXED", 0x100028, 1, 0x0, 1, 0x0, [⟨"E", 31, 0, .RO, 0x0, 0⟩]⟩,
  ⟨"TICK_BUDGET", 0x10002C, 1, 0x0, 1, 0x0, [⟨"E", 31, 0, .RO, 0x0, 0⟩]⟩,
  ⟨"TICK_OP", 0x100030, 1, 0x0, 1, 0x0, [⟨"OP", 2, 0, .RO, 0x0, 0⟩]⟩,
  ⟨"TICK_OUT_CFG", 0x100034, 1, 0x0, 1, 0x0, [⟨"WIDTH", 31, 16, .RW, 0x3E8, 0⟩, ⟨"POL", 2, 2, .RW, 0x0, 0⟩, ⟨"MODE", 1, 0, .RW, 0x1, 0⟩]⟩,
  ⟨"TICK_BOUND_LAST", 0x100038, 1, 0x0, 1, 0x0, [⟨"NS", 31, 0, .RO, 0x0, 0⟩]⟩,
  ⟨"TICK_BOUND_MAX", 0x10003C, 1, 0x0, 1, 0x0, [⟨"NS", 31, 0, .RWH, 0x0, 0⟩]⟩,
  ⟨"TICK_OVR_CNT", 0x100040, 1, 0x0, 1, 0x0, [⟨"COUNT", 31, 0, .RO, 0x0, 0⟩]⟩,
  ⟨"TICK_RPT_BASE_LO", 0x100050, 1, 0x0, 1, 0x0, [⟨"BASE", 31, 6, .RW, 0x0, 0⟩]⟩,
  ⟨"TICK_RPT_BASE_HI", 0x100054, 1, 0x0, 1, 0x0, [⟨"BASE", 31, 0, .RW, 0x0, 0⟩]⟩,
  ⟨"TICK_RPT_SIZE", 0x100058, 1, 0x0, 1, 0x0, [⟨"SLOTS", 12, 0, .RW, 0x0, 0⟩]⟩]

/-- Registers of the tick block, part 1. -/
def tickRows1 : List RegRow := [
  ⟨"TICK_RPT_WR", 0x10005C, 1, 0x0, 1, 0x0, [⟨"WR", 12, 0, .RO, 0x0, 0⟩]⟩,
  ⟨"TICK_RPT_RD", 0x100060, 1, 0x0, 1, 0x0, [⟨"RD", 12, 0, .RW, 0x0, 0⟩]⟩,
  ⟨"TICK_RPT_DROP", 0x100064, 1, 0x0, 1, 0x0, [⟨"COUNT", 31, 0, .RO, 0x0, 0⟩]⟩,
  ⟨"TICK_PIPE_CFG", 0x101000, 64, 0x10, 1, 0x0, [⟨"PRIO", 19, 16, .RW, 0x0, 0⟩, ⟨"FLOOR", 10, 8, .RW, 0x7, 0⟩, ⟨"PIN", 2, 0, .RW, 0x0, 0⟩]⟩,
  ⟨"TICK_PIPE_STAT", 0x101004, 64, 0x10, 1, 0x0, [⟨"LONG", 31, 31, .RO, 0x0, 0⟩, ⟨"CLAMPED", 30, 30, .RO, 0x0, 0⟩, ⟨"VARIANT", 26, 24, .RO, 0x0, 0⟩, ⟨"NVAR", 19, 16, .RO, 0x0, 0⟩, ⟨"OVR_RUN", 15, 0, .RO, 0x0, 0⟩]⟩,
  ⟨"TICK_PIPE_EST", 0x101008, 64, 0x10, 1, 0x0, [⟨"E", 31, 0, .RO, 0x0, 0⟩]⟩,
  ⟨"TICK_PIPE_OVR", 0x10100C, 64, 0x10, 1, 0x0, [⟨"COUNT", 31, 0, .RO, 0x0, 0⟩]⟩]

/-- Registers of the tick block. -/
def tickRows : List RegRow := tickRows0 ++ tickRows1

/-- Registers of the time block, part 0. -/
def timeRows0 : List RegRow := [
  ⟨"TIME_CAPTURE", 0x200000, 1, 0x0, 1, 0x0, [⟨"CAP", 0, 0, .WS, 0x0, 0⟩]⟩,
  ⟨"TIME_CAP_CNT_LO", 0x200004, 1, 0x0, 1, 0x0, [⟨"CNT", 31, 0, .RO, 0x0, 0⟩]⟩,
  ⟨"TIME_CAP_CNT_HI", 0x200008, 1, 0x0, 1, 0x0, [⟨"CNT", 31, 0, .RO, 0x0, 0⟩]⟩,
  ⟨"TIME_CAP_VT_LO", 0x20000C, 1, 0x0, 1, 0x0, [⟨"VT", 31, 0, .RO, 0x0, 0⟩]⟩,
  ⟨"TIME_CAP_VT_HI", 0x200010, 1, 0x0, 1, 0x0, [⟨"VT", 31, 0, .RO, 0x0, 0⟩]⟩,
  ⟨"TIME_CAP_VT_FRAC", 0x200014, 1, 0x0, 1, 0x0, [⟨"VT", 15, 0, .RO, 0x0, 0⟩]⟩,
  ⟨"TIME_CAP_D0_LO", 0x200018, 1, 0x0, 1, 0x0, [⟨"D0", 31, 0, .RO, 0x0, 0⟩]⟩,
  ⟨"TIME_CAP_D0_HI", 0x20001C, 1, 0x0, 1, 0x0, [⟨"D0", 31, 0, .RO, 0x0, 0⟩]⟩,
  ⟨"TIME_CAP_D0_FRAC", 0x200020, 1, 0x0, 1, 0x0, [⟨"D0", 15, 0, .RO, 0x0, 0⟩]⟩,
  ⟨"TIME_CAP_D1_LO", 0x200024, 1, 0x0, 1, 0x0, [⟨"D1", 31, 0, .RO, 0x0, 0⟩]⟩,
  ⟨"TIME_CAP_D1_HI", 0x200028, 1, 0x0, 1, 0x0, [⟨"D1", 31, 0, .RO, 0x0, 0⟩]⟩,
  ⟨"TIME_CAP_D1_FRAC", 0x20002C, 1, 0x0, 1, 0x0, [⟨"D1", 15, 0, .RO, 0x0, 0⟩]⟩,
  ⟨"TIME_VT_CTRL", 0x200040, 1, 0x0, 1, 0x0, [⟨"SLEW_PPM", 15, 8, .RW, 0x32, 0⟩, ⟨"AUTO", 1, 1, .RW, 0x1, 0⟩, ⟨"SEL", 0, 0, .RWH, 0x0, 0⟩]⟩,
  ⟨"TIME_VT_STAT", 0x200044, 1, 0x0, 1, 0x0, [⟨"SEL_REFUSED", 5, 5, .W1C, 0x0, 0⟩, ⟨"SWITCHED", 3, 3, .W1C, 0x0, 0⟩, ⟨"HOLDOVER", 2, 2, .RO, 0x0, 0⟩, ⟨"SLEWING", 1, 1, .RO, 0x0, 0⟩, ⟨"FOLLOW", 0, 0, .RO, 0x0, 0⟩]⟩,
  ⟨"TIME_BRIDGE_LO", 0x200048, 1, 0x0, 1, 0x0, [⟨"B", 31, 0, .RO, 0x0, 0⟩]⟩,
  ⟨"TIME_BRIDGE_HI", 0x20004C, 1, 0x0, 1, 0x0, [⟨"B", 31, 0, .RO, 0x0, 0⟩]⟩,
  ⟨"TIME_SWITCH_CNT", 0x200050, 1, 0x0, 1, 0x0, [⟨"COUNT", 31, 0, .RO, 0x0, 0⟩]⟩,
  ⟨"TIME_D_CFG", 0x200100, 2, 0x80, 1, 0x0, [⟨"ENABLE", 31, 31, .RW, 0x1, 0⟩, ⟨"SLAVE_PORT", 19, 16, .RW, 0x0, 0⟩, ⟨"DOMAIN_NUM", 15, 8, .RW, 0, 1⟩]⟩,
  ⟨"TIME_D_RATE_LO", 0x200104, 2, 0x80, 1, 0x0, [⟨"RATE", 31, 0, .RW, 0xAE147AE1, 0⟩]⟩,
  ⟨"TIME_D_RATE_HI", 0x200108, 2, 0x80, 1, 0x0, [⟨"RATE", 15, 0, .RW, 0x147, 0⟩]⟩]

/-- Registers of the time block, part 1. -/
def timeRows1 : List RegRow := [
  ⟨"TIME_D_OFS_LO", 0x20010C, 2, 0x80, 1, 0x0, [⟨"OFS", 31, 0, .RW, 0x0, 0⟩]⟩,
  ⟨"TIME_D_OFS_HI", 0x200110, 2, 0x80, 1, 0x0, [⟨"OFS", 31, 0, .RW, 0x0, 0⟩]⟩,
  ⟨"TIME_D_OFS_FRAC", 0x200114, 2, 0x80, 1, 0x0, [⟨"OFS", 15, 0, .RW, 0x0, 0⟩]⟩,
  ⟨"TIME_D_COMMIT", 0x200118, 2, 0x80, 1, 0x0, [⟨"SET", 2, 2, .WS, 0x0, 0⟩, ⟨"STEP", 1, 1, .WS, 0x0, 0⟩, ⟨"RATE", 0, 0, .WS, 0x0, 0⟩]⟩,
  ⟨"TIME_D_STAT", 0x20011C, 2, 0x80, 1, 0x0, [⟨"REFUSED", 6, 6, .W1C, 0x0, 0⟩, ⟨"HEALTHY", 5, 5, .RO, 0x0, 0⟩, ⟨"QUAL", 4, 4, .RW, 0x0, 0⟩, ⟨"LOST", 3, 3, .RO, 0x0, 0⟩, ⟨"PATH_SUSPECT", 2, 2, .W1C, 0x0, 0⟩, ⟨"OFS_JUMP", 1, 1, .RO, 0x0, 0⟩]⟩,
  ⟨"TIME_D_GATE", 0x200120, 2, 0x80, 1, 0x0, [⟨"PD_STEP", 31, 16, .RW, 0xC8, 0⟩, ⟨"OFS_GATE", 15, 0, .RW, 0x64, 0⟩]⟩,
  ⟨"TIME_D_TIMEOUT", 0x200124, 2, 0x80, 1, 0x0, [⟨"SYNC_TIMEOUT", 15, 0, .RW, 0x177, 0⟩]⟩,
  ⟨"TIME_D_MEAS_OFS_LO", 0x200128, 2, 0x80, 1, 0x0, [⟨"OFS", 31, 0, .RO, 0x0, 0⟩]⟩,
  ⟨"TIME_D_MEAS_OFS_HI", 0x20012C, 2, 0x80, 1, 0x0, [⟨"OFS", 31, 0, .RO, 0x0, 0⟩]⟩,
  ⟨"TIME_D_MEAS_PD", 0x200130, 2, 0x80, 1, 0x0, [⟨"PD", 31, 0, .RO, 0x0, 0⟩]⟩,
  ⟨"TIME_D_MEAS_RR", 0x200134, 2, 0x80, 1, 0x0, [⟨"RR", 31, 0, .RO, 0x0, 0⟩]⟩,
  ⟨"TIME_D_MEAS_SEQ", 0x200138, 2, 0x80, 1, 0x0, [⟨"SEQ_ID", 31, 16, .RO, 0x0, 0⟩, ⟨"ACCEPTED", 15, 0, .RO, 0x0, 0⟩]⟩,
  ⟨"TIME_D_PD_REF", 0x20013C, 2, 0x80, 1, 0x0, [⟨"PD_REF", 31, 0, .RO, 0x0, 0⟩]⟩,
  ⟨"TIME_D_SUSPECT_CNT", 0x200140, 2, 0x80, 1, 0x0, [⟨"COUNT", 31, 0, .RO, 0x0, 0⟩]⟩,
  ⟨"TIME_PPS_CFG", 0x200200, 1, 0x0, 1, 0x0, [⟨"EDGE", 1, 1, .RW, 0x0, 0⟩, ⟨"ENABLE", 0, 0, .RW, 0x0, 0⟩]⟩,
  ⟨"TIME_PPS_CNT_LO", 0x200204, 1, 0x0, 1, 0x0, [⟨"CNT", 31, 0, .RO, 0x0, 0⟩]⟩,
  ⟨"TIME_PPS_CNT_HI", 0x200208, 1, 0x0, 1, 0x0, [⟨"CNT", 31, 0, .RO, 0x0, 0⟩]⟩,
  ⟨"TIME_PPS_VT_LO", 0x20020C, 1, 0x0, 1, 0x0, [⟨"VT", 31, 0, .RO, 0x0, 0⟩]⟩,
  ⟨"TIME_PPS_VT_HI", 0x200210, 1, 0x0, 1, 0x0, [⟨"VT", 31, 0, .RO, 0x0, 0⟩]⟩,
  ⟨"TIME_PPS_VT_FRAC", 0x200214, 1, 0x0, 1, 0x0, [⟨"VT", 15, 0, .RO, 0x0, 0⟩]⟩]

/-- Registers of the time block, part 2. -/
def timeRows2 : List RegRow := [
  ⟨"TIME_PPS_SEQ", 0x200218, 1, 0x0, 1, 0x0, [⟨"OVW", 31, 16, .RO, 0x0, 0⟩, ⟨"COUNT", 15, 0, .RO, 0x0, 0⟩]⟩,
  ⟨"TIME_TRIG_CTRL", 0x200400, 16, 0x20, 1, 0x0, [⟨"ARM", 31, 31, .WS, 0x0, 0⟩, ⟨"DISARM", 30, 30, .WS, 0x0, 0⟩, ⟨"ARMED", 3, 3, .RO, 0x0, 0⟩, ⟨"POL", 2, 2, .RW, 0x0, 0⟩, ⟨"MODE", 1, 1, .RW, 0x0, 0⟩]⟩,
  ⟨"TIME_TRIG_START_LO", 0x200404, 16, 0x20, 1, 0x0, [⟨"START", 31, 0, .RW, 0x0, 0⟩]⟩,
  ⟨"TIME_TRIG_START_HI", 0x200408, 16, 0x20, 1, 0x0, [⟨"START", 31, 0, .RW, 0x0, 0⟩]⟩,
  ⟨"TIME_TRIG_START_FRAC", 0x20040C, 16, 0x20, 1, 0x0, [⟨"START", 15, 0, .RW, 0x0, 0⟩]⟩,
  ⟨"TIME_TRIG_PERIOD", 0x200410, 16, 0x20, 1, 0x0, [⟨"PERIOD", 31, 0, .RW, 0x0, 0⟩]⟩,
  ⟨"TIME_TRIG_WIDTH", 0x200414, 16, 0x20, 1, 0x0, [⟨"WIDTH", 31, 0, .RW, 0x8, 0⟩]⟩,
  ⟨"TIME_TRIG_STAT", 0x200418, 16, 0x20, 1, 0x0, [⟨"MISS_CNT", 15, 8, .RO, 0x0, 0⟩, ⟨"MISSED", 0, 0, .W1C, 0x0, 0⟩]⟩]

/-- Registers of the time block. -/
def timeRows : List RegRow := timeRows0 ++ timeRows1 ++ timeRows2

/-- Registers of the sw block. -/
def swRows : List RegRow := [
  ⟨"SW_CTRL", 0x300000, 1, 0x0, 1, 0x0, [⟨"FWD_EN", 31, 31, .RW, 0x0, 0⟩, ⟨"LEARN", 16, 16, .RW, 0x1, 0⟩, ⟨"AGE_S", 15, 0, .RW, 0x12C, 0⟩]⟩,
  ⟨"SW_FDB_CMD", 0x300010, 1, 0x0, 1, 0x0, [⟨"GO", 31, 31, .WS, 0x0, 0⟩, ⟨"OP", 30, 29, .RW, 0x0, 0⟩, ⟨"FULL", 28, 28, .RO, 0x0, 0⟩, ⟨"BUSY", 27, 27, .RO, 0x0, 0⟩, ⟨"INDEX", 11, 0, .RW, 0x0, 0⟩]⟩,
  ⟨"SW_FDB_MAC_LO", 0x300014, 1, 0x0, 1, 0x0, [⟨"MAC", 31, 0, .RW, 0x0, 0⟩]⟩,
  ⟨"SW_FDB_MAC_HI", 0x300018, 1, 0x0, 1, 0x0, [⟨"VALID", 31, 31, .RW, 0x0, 0⟩, ⟨"STATIC", 30, 30, .RW, 0x0, 0⟩, ⟨"PORTS", 29, 24, .RW, 0x0, 0⟩, ⟨"VID", 23, 12, .RW, 0x0, 0⟩]⟩,
  ⟨"SW_FDB_MAC_HI2", 0x30001C, 1, 0x0, 1, 0x0, [⟨"MAC", 15, 0, .RW, 0x0, 0⟩]⟩,
  ⟨"SW_P_CFG", 0x301000, 6, 0x100, 1, 0x0, [⟨"EN", 31, 31, .RW, 0x0, 0⟩, ⟨"MASTER_D1", 30, 30, .RW, 0x0, 0⟩, ⟨"MASTER_D0", 29, 29, .RW, 0x0, 0⟩, ⟨"SPEED", 25, 24, .RW, 0x2, 0⟩, ⟨"PVID", 23, 12, .RW, 0x1, 0⟩, ⟨"DEF_PCP", 11, 9, .RW, 0x0, 0⟩]⟩,
  ⟨"SW_P_ASYM", 0x301004, 6, 0x100, 1, 0x0, [⟨"EGR_ASYM", 31, 16, .RW, 0x0, 0⟩, ⟨"ING_ASYM", 15, 0, .RW, 0x0, 0⟩]⟩,
  ⟨"SW_P_PCP_MAP", 0x301008, 6, 0x100, 1, 0x0, [⟨"MAP", 23, 0, .RW, 0xFAC688, 0⟩]⟩,
  ⟨"SW_P_QBV_CTRL", 0x30100C, 6, 0x100, 1, 0x0, [⟨"CHANGE", 31, 31, .WS, 0x0, 0⟩, ⟨"GATE_EN", 30, 30, .RW, 0x0, 0⟩, ⟨"LIST_LEN", 8, 0, .RW, 0x0, 0⟩]⟩,
  ⟨"SW_P_QBV_BASE_LO", 0x301010, 6, 0x100, 1, 0x0, [⟨"BASE", 31, 0, .RW, 0x0, 0⟩]⟩,
  ⟨"SW_P_QBV_BASE_HI", 0x301014, 6, 0x100, 1, 0x0, [⟨"BASE", 31, 0, .RW, 0x0, 0⟩]⟩,
  ⟨"SW_P_QBV_CYCLE", 0x301018, 6, 0x100, 1, 0x0, [⟨"CYCLE", 31, 0, .RW, 0x989680, 0⟩]⟩,
  ⟨"SW_P_QBV_STAT", 0x30101C, 6, 0x100, 1, 0x0, [⟨"CFG_PENDING", 1, 1, .RO, 0x0, 0⟩, ⟨"CFG_ERR", 0, 0, .W1C, 0x0, 0⟩]⟩,
  ⟨"SW_P_CBS_TC", 0x301040, 6, 0x100, 8, 0x4, [⟨"IDLE_SLOPE", 31, 0, .RW, 0x0, 0⟩]⟩,
  ⟨"SW_GCL_STATES", 0x308000, 6, 0x800, 256, 0x8, [⟨"GATES", 7, 0, .RW, 0x0, 0⟩]⟩,
  ⟨"SW_GCL_INTERVAL", 0x308004, 6, 0x800, 256, 0x8, [⟨"NS", 31, 0, .RW, 0x0, 0⟩]⟩,
  ⟨"SW_QCI", 0x30C000, 4096, 0x4, 1, 0x0, [⟨"WORD", 31, 0, .RW, 0x0, 0⟩]⟩]

/-- Registers of the irq block. -/
def irqRows : List RegRow := [
  ⟨"IRQ_PEND", 0x400000, 16, 0x4, 1, 0x0, [⟨"PEND", 31, 0, .RWH, 0x0, 0⟩]⟩,
  ⟨"IRQ_RAW", 0x400040, 16, 0x4, 1, 0x0, [⟨"RAW", 31, 0, .W1C, 0x0, 0⟩]⟩,
  ⟨"IRQ_MASK", 0x400080, 16, 0x4, 1, 0x0, [⟨"MASK", 31, 0, .RW, 0xFFFFFFFF, 0⟩]⟩,
  ⟨"IRQ_ACT", 0x4000C0, 16, 0x4, 1, 0x0, [⟨"ACT", 31, 0, .RO, 0x0, 0⟩]⟩,
  ⟨"IRQ_EOI", 0x400100, 1, 0x0, 1, 0x0, [⟨"SRC", 8, 0, .WO, 0x0, 0⟩]⟩,
  ⟨"IRQ_RPRI", 0x400104, 1, 0x0, 1, 0x0, [⟨"EMPTY", 31, 31, .RO, 0x1, 0⟩, ⟨"DEPTH", 27, 24, .RO, 0x0, 0⟩, ⟨"TOP_VEC", 21, 16, .RO, 0x0, 0⟩, ⟨"TOP_PRIO", 3, 0, .RO, 0x0, 0⟩]⟩,
  ⟨"IRQ_LOST_SET", 0x400108, 1, 0x0, 1, 0x0, [⟨"COUNT", 31, 0, .RO, 0x0, 0⟩]⟩,
  ⟨"IRQ_BAD_EOI", 0x40010C, 1, 0x0, 1, 0x0, [⟨"COUNT", 31, 0, .RO, 0x0, 0⟩]⟩,
  ⟨"IRQ_CFG", 0x400110, 1, 0x0, 1, 0x0, [⟨"BYPASS", 3, 0, .RW, 0xF, 0⟩]⟩,
  ⟨"IRQ_STAT", 0x400114, 1, 0x0, 1, 0x0, [⟨"STACK_FULL", 1, 1, .RO, 0x0, 0⟩, ⟨"CFG_REFUSED", 0, 0, .W1C, 0x0, 0⟩]⟩,
  ⟨"IRQ_MSG_CNT", 0x400118, 1, 0x0, 1, 0x0, [⟨"COUNT", 31, 0, .RO, 0x0, 0⟩]⟩,
  ⟨"IRQ_TGT", 0x400800, 512, 0x4, 1, 0x0, [⟨"LINE", 31, 31, .RW, 0x0, 0⟩, ⟨"LEVEL", 29, 29, .RO, 0, 0⟩, ⟨"TARGET", 21, 16, .RW, 0x0, 0⟩, ⟨"PRIO", 3, 0, .RW, 0x0, 0⟩]⟩,
  ⟨"IRQ_VEC_COAL", 0x401000, 64, 0x8, 1, 0x0, [⟨"COUNT", 31, 24, .RW, 0x1, 0⟩, ⟨"TIME_US", 15, 0, .RW, 0x0, 0⟩]⟩,
  ⟨"IRQ_VEC_STAT", 0x401004, 64, 0x8, 1, 0x0, [⟨"WAIT", 31, 31, .RO, 0x0, 0⟩, ⟨"ACC", 7, 0, .RO, 0x0, 0⟩]⟩]

/-- Registers of the pwr block, part 0. -/
def pwrRows0 : List RegRow := [
  ⟨"PWR_OP", 0x500000, 1, 0x0, 1, 0x0, [⟨"CEIL_HOST", 18, 16, .RW, 0x7, 0⟩, ⟨"EFF", 10, 8, .RO, 0x7, 0⟩, ⟨"REQ", 2, 0, .RW, 0x7, 0⟩]⟩,
  ⟨"PWR_CAP", 0x500004, 1, 0x0, 1, 0x0, [⟨"WINDOW_S", 27, 24, .RW, 0x4, 0⟩, ⟨"SHARE_MW", 16, 0, .RW, 0xFDE8, 0⟩]⟩,
  ⟨"PWR_STAT", 0x500008, 1, 0x0, 1, 0x0, [⟨"CEIL", 18, 16, .RO, 0x7, 0⟩, ⟨"STRETCH", 14, 12, .RO, 0x0, 0⟩, ⟨"COOL_HOT", 10, 10, .RO, 0x0, 0⟩, ⟨"COOL_STALE", 9, 9, .RO, 0x0, 0⟩, ⟨"PANE_GATE", 8, 8, .RO, 0x0, 0⟩, ⟨"ACTIVE", 6, 0, .RO, 0x0, 0⟩]⟩,
  ⟨"PWR_THR_EV", 0x50000C, 1, 0x0, 1, 0x0, [⟨"EV", 6, 0, .W1C, 0x0, 0⟩]⟩,
  ⟨"PWR_EWIN_LO", 0x500010, 1, 0x0, 1, 0x0, [⟨"UJ", 31, 0, .RO, 0x0, 0⟩]⟩,
  ⟨"PWR_EWIN_HI", 0x500014, 1, 0x0, 1, 0x0, [⟨"UJ", 31, 0, .RO, 0x0, 0⟩]⟩,
  ⟨"PWR_EUNATT", 0x500018, 1, 0x0, 1, 0x0, [⟨"UJ", 31, 0, .RO, 0x0, 0⟩]⟩,
  ⟨"PWR_THR_US_LO", 0x500020, 7, 0x8, 1, 0x0, [⟨"US", 31, 0, .RO, 0x0, 0⟩]⟩,
  ⟨"PWR_THR_US_HI", 0x500024, 7, 0x8, 1, 0x0, [⟨"US", 31, 0, .RO, 0x0, 0⟩]⟩,
  ⟨"PWR_TEMP_CFG", 0x500080, 1, 0x0, 1, 0x0, [⟨"LIMIT", 23, 16, .RW, 0x6E, 0⟩, ⟨"HYST", 7, 0, .RW, 0x5, 0⟩]⟩,
  ⟨"PWR_TJ", 0x500084, 1, 0x0, 1, 0x0, [⟨"MIN", 31, 16, .RO, 0x0, 0⟩, ⟨"MAX", 15, 0, .RO, 0x0, 0⟩]⟩,
  ⟨"PWR_TRIP", 0x500088, 1, 0x0, 1, 0x0, [⟨"CLEAR", 31, 31, .WS, 0x0, 0⟩, ⟨"REFUSED", 9, 9, .W1C, 0x0, 0⟩, ⟨"TRIPPED", 8, 8, .RO, 0x0, 0⟩, ⟨"SENSOR", 3, 0, .RO, 0x0, 0⟩]⟩,
  ⟨"PWR_TSENS", 0x5000A0, 16, 0x4, 1, 0x0, [⟨"T", 15, 0, .RO, 0x0, 0⟩]⟩,
  ⟨"PWR_COOL_IN", 0x5000E0, 1, 0x0, 1, 0x0, [⟨"T", 15, 0, .RW, 0x0, 0⟩]⟩,
  ⟨"PWR_COOL_BUDGET", 0x5000E4, 1, 0x0, 1, 0x0, [⟨"MW", 16, 0, .RW, 0x14244, 0⟩]⟩,
  ⟨"PWR_COOL_CFG", 0x5000E8, 1, 0x0, 1, 0x0, [⟨"TIMEOUT_MS", 31, 16, .RW, 0x3E8, 0⟩, ⟨"INLET_MAX", 15, 8, .RW, 0x41, 0⟩]⟩,
  ⟨"PWR_COOL_STALE", 0x5000EC, 1, 0x0, 1, 0x0, [⟨"MW", 16, 0, .RW, 0x4E20, 0⟩]⟩,
  ⟨"PWR_SKEW_STAT", 0x5000F0, 1, 0x0, 1, 0x0, [⟨"ACTIVE", 3, 0, .RO, 0x0, 0⟩]⟩,
  ⟨"PWR_SKEW_CNT", 0x5000F4, 1, 0x0, 1, 0x0, [⟨"COUNT", 31, 0, .RO, 0x0, 0⟩]⟩,
  ⟨"PWR_SLEEP_CTRL", 0x500100, 1, 0x0, 1, 0x0, [⟨"REQ", 31, 31, .WS, 0x0, 0⟩, ⟨"WAKE", 30, 30, .WS, 0x0, 0⟩]⟩]

/-- Registers of the pwr block, part 1. -/
def pwrRows1 : List RegRow := [
  ⟨"PWR_SLEEP_CFG", 0x500104, 1, 0x0, 1, 0x0, [⟨"MARGIN_US", 31, 16, .RW, 0x3E8, 0⟩, ⟨"ALARM_EN", 4, 4, .RW, 0x0, 0⟩, ⟨"MAX_STATE", 1, 0, .RW, 0x2, 0⟩]⟩,
  ⟨"PWR_WAKE_AT_LO", 0x500108, 1, 0x0, 1, 0x0, [⟨"VT", 31, 0, .RW, 0x0, 0⟩]⟩,
  ⟨"PWR_WAKE_AT_HI", 0x50010C, 1, 0x0, 1, 0x0, [⟨"VT", 31, 0, .RW, 0x0, 0⟩]⟩,
  ⟨"PWR_SLEEP_STAT", 0x500110, 1, 0x0, 1, 0x0, [⟨"STATE", 31, 30, .RO, 0x0, 0⟩, ⟨"LAST", 29, 28, .RO, 0x0, 0⟩, ⟨"REFUSED", 24, 24, .W1C, 0x0, 0⟩, ⟨"ABORT", 16, 16, .W1C, 0x0, 0⟩, ⟨"ABORT_SRC", 15, 12, .RO, 0x0, 0⟩, ⟨"WAKE_SRC", 11, 8, .RO, 0x0, 0⟩]⟩,
  ⟨"PWR_WAKE_CFG", 0x500114, 1, 0x0, 1, 0x0, [⟨"FRAME_EN", 10, 10, .RW, 0x0, 0⟩, ⟨"CAN_EN", 9, 8, .RW, 0x0, 0⟩, ⟨"POL", 7, 4, .RW, 0x0, 0⟩, ⟨"EN", 3, 0, .RW, 0x0, 0⟩]⟩,
  ⟨"PWR_WAKE_PEND", 0x500118, 1, 0x0, 1, 0x0, [⟨"PEND", 10, 0, .W1C, 0x0, 0⟩]⟩]

/-- Registers of the pwr block. -/
def pwrRows : List RegRow := pwrRows0 ++ pwrRows1

/-- Registers of the mem block, part 0. -/
def memRows0 : List RegRow := [
  ⟨"MEM_CACHE_BASE_LO", 0x600000, 1, 0x0, 1, 0x0, [⟨"BASE", 31, 21, .RW, 0x0, 0⟩]⟩,
  ⟨"MEM_CACHE_BASE_HI", 0x600004, 1, 0x0, 1, 0x0, [⟨"BASE", 3, 0, .RW, 0x0, 0⟩]⟩,
  ⟨"MEM_CACHE_SIZE", 0x600008, 1, 0x0, 1, 0x0, [⟨"GRANULES", 14, 0, .RW, 0x0, 0⟩]⟩,
  ⟨"MEM_CACHE_STAT", 0x60000C, 1, 0x0, 1, 0x0, [⟨"VALID", 14, 0, .RO, 0x0, 0⟩]⟩,
  ⟨"MEM_DRAM_CFG", 0x600010, 1, 0x0, 1, 0x0, [⟨"SCRUB_EN", 8, 8, .RW, 0x1, 0⟩, ⟨"SCRUB_H", 7, 0, .RW, 0xC, 0⟩]⟩,
  ⟨"MEM_FLASH_CFG", 0x600014, 1, 0x0, 1, 0x0, [⟨"REFRESH_DAYS", 24, 16, .RW, 0xB4, 0⟩, ⟨"BG_SHARE", 4, 0, .RW, 0x5, 0⟩]⟩,
  ⟨"MEM_STAT", 0x600018, 1, 0x0, 1, 0x0, [⟨"ELOG_OVF", 3, 3, .W1C, 0x0, 0⟩, ⟨"CFG_REFUSED", 2, 2, .W1C, 0x0, 0⟩, ⟨"POISON_ANY", 0, 0, .RO, 0x0, 0⟩]⟩,
  ⟨"MEM_POISON_PIPE_LO", 0x60001C, 1, 0x0, 1, 0x0, [⟨"PIPE", 31, 0, .RO, 0x0, 0⟩]⟩,
  ⟨"MEM_POISON_PIPE_HI", 0x600020, 1, 0x0, 1, 0x0, [⟨"PIPE", 31, 0, .RO, 0x0, 0⟩]⟩,
  ⟨"MEM_POISON_CNT", 0x600024, 1, 0x0, 1, 0x0, [⟨"COUNT", 31, 0, .RO, 0x0, 0⟩]⟩,
  ⟨"MEM_RW_OBJ", 0x600030, 1, 0x0, 1, 0x0, [⟨"OBJ", 11, 0, .RW, 0x0, 0⟩]⟩,
  ⟨"MEM_RW_SRC_LO", 0x600034, 1, 0x0, 1, 0x0, [⟨"SRC", 31, 6, .RW, 0x0, 0⟩]⟩,
  ⟨"MEM_RW_SRC_HI", 0x600038, 1, 0x0, 1, 0x0, [⟨"SRC", 31, 0, .RW, 0x0, 0⟩]⟩,
  ⟨"MEM_RW_CTRL", 0x60003C, 1, 0x0, 1, 0x0, [⟨"REWRITE", 31, 31, .WS, 0x0, 0⟩, ⟨"WRITEBACK", 30, 30, .WS, 0x0, 0⟩]⟩,
  ⟨"MEM_RW_STAT", 0x600040, 1, 0x0, 1, 0x0, [⟨"BUSY", 31, 31, .RO, 0x0, 0⟩, ⟨"DONE", 30, 30, .W1C, 0x0, 0⟩, ⟨"MIXED", 29, 29, .RO, 0x0, 0⟩, ⟨"REFUSED", 28, 28, .W1C, 0x0, 0⟩, ⟨"STATUS", 23, 16, .RO, 0x0, 0⟩]⟩,
  ⟨"MEM_ELOG_HEAD", 0x600050, 1, 0x0, 1, 0x0, [⟨"HEAD", 5, 0, .RO, 0x0, 0⟩]⟩,
  ⟨"MEM_ELOG_TAIL", 0x600054, 1, 0x0, 1, 0x0, [⟨"TAIL", 5, 0, .RW, 0x0, 0⟩]⟩,
  ⟨"MEM_ELOG_DROP", 0x600058, 1, 0x0, 1, 0x0, [⟨"COUNT", 31, 0, .RO, 0x0, 0⟩]⟩,
  ⟨"MEM_FLASH_WEAR", 0x600060, 8, 0x4, 1, 0x0, [⟨"RO", 31, 31, .RO, 0x0, 0⟩, ⟨"BADBLK", 23, 8, .RO, 0, 0⟩, ⟨"WEAR", 7, 0, .RO, 0, 0⟩]⟩,
  ⟨"MEM_POISON_MAP", 0x600100, 128, 0x4, 1, 0x0, [⟨"MAP", 31, 0, .RO, 0x0, 0⟩]⟩]

/-- Registers of the mem block, part 1. -/
def memRows1 : List RegRow := [
  ⟨"MEM_WHALF", 0x600300, 128, 0x4, 1, 0x0, [⟨"HALF", 31, 0, .RO, 0x0, 0⟩]⟩,
  ⟨"MEM_ELOG", 0x601000, 64, 0x20, 8, 0x4, [⟨"RECORD", 31, 0, .RO, 0x0, 0⟩]⟩]

/-- Registers of the mem block. -/
def memRows : List RegRow := memRows0 ++ memRows1

/-- Registers of the sns block, part 0. -/
def snsRows0 : List RegRow := [
  ⟨"SNS_STAT", 0x700000, 1, 0x0, 1, 0x0, [⟨"CFG_REFUSED", 0, 0, .W1C, 0x0, 0⟩]⟩,
  ⟨"SNS_SRC_CFG", 0x701000, 128, 0x40, 1, 0x0, [⟨"ENABLE", 31, 31, .RW, 0x0, 0⟩, ⟨"TIME_SRC", 29, 28, .RW, 0x0, 0⟩, ⟨"DOMAIN", 24, 24, .RW, 0x0, 0⟩, ⟨"OBJ", 11, 0, .RW, 0xFFF, 0⟩]⟩,
  ⟨"SNS_SRC_WIN", 0x701004, 128, 0x40, 1, 0x0, [⟨"NS", 31, 0, .RW, 0x5F5E100, 0⟩]⟩,
  ⟨"SNS_SRC_LAT", 0x701008, 128, 0x40, 1, 0x0, [⟨"NS", 31, 0, .RW, 0x0, 0⟩]⟩,
  ⟨"SNS_SRC_STAT", 0x70100C, 128, 0x40, 1, 0x0, [⟨"STATE", 31, 29, .RO, 0x0, 0⟩, ⟨"DESYNC_EV", 9, 9, .W1C, 0x0, 0⟩, ⟨"DOWN_EV", 8, 8, .W1C, 0x0, 0⟩, ⟨"GOOD", 1, 0, .RO, 0x0, 0⟩]⟩,
  ⟨"SNS_SRC_TFIELD", 0x701010, 128, 0x40, 1, 0x0, [⟨"FMT", 21, 20, .RW, 0x0, 0⟩, ⟨"BE", 16, 16, .RW, 0x1, 0⟩, ⟨"OFS", 15, 0, .RW, 0x0, 0⟩]⟩,
  ⟨"SNS_SRC_T0_LO", 0x701014, 128, 0x40, 1, 0x0, [⟨"T0", 31, 0, .RW, 0x0, 0⟩]⟩,
  ⟨"SNS_SRC_T0_HI", 0x701018, 128, 0x40, 1, 0x0, [⟨"T0", 31, 0, .RW, 0x0, 0⟩]⟩,
  ⟨"SNS_SRC_C0_LO", 0x70101C, 128, 0x40, 1, 0x0, [⟨"C0", 31, 0, .RW, 0x0, 0⟩]⟩,
  ⟨"SNS_SRC_C0_HI", 0x701020, 128, 0x40, 1, 0x0, [⟨"C0", 31, 0, .RW, 0x0, 0⟩]⟩,
  ⟨"SNS_SRC_RATE_LO", 0x701024, 128, 0x40, 1, 0x0, [⟨"RATE", 31, 0, .RW, 0x0, 0⟩]⟩,
  ⟨"SNS_SRC_RATE_HI", 0x701028, 128, 0x40, 1, 0x0, [⟨"RATE", 15, 0, .RW, 0x0, 0⟩]⟩,
  ⟨"SNS_LID_CFG", 0x703000, 8, 0x80, 1, 0x0, [⟨"PORTS", 28, 24, .RW, 0x0, 0⟩, ⟨"SRCIP_EN", 20, 20, .RW, 0x0, 0⟩, ⟨"COORD", 16, 16, .RW, 0x0, 0⟩, ⟨"DPORT", 15, 0, .RW, 0x0, 0⟩]⟩,
  ⟨"SNS_LID_SRCIP", 0x703004, 8, 0x80, 1, 0x0, [⟨"IP", 31, 0, .RW, 0x0, 0⟩]⟩,
  ⟨"SNS_LID_LAYOUT", 0x703008, 8, 0x80, 1, 0x0, [⟨"HDR_BYTES", 31, 16, .RW, 0x0, 0⟩, ⟨"STRIDE", 15, 8, .RW, 0x10, 0⟩]⟩,
  ⟨"SNS_LID_NPTS", 0x70300C, 8, 0x80, 1, 0x0, [⟨"NPTS", 10, 0, .RW, 0x0, 0⟩]⟩,
  ⟨"SNS_LID_F", 0x703010, 8, 0x80, 6, 0x4, [⟨"PRESENT", 20, 20, .RW, 0x0, 0⟩, ⟨"BE", 19, 19, .RW, 0x0, 0⟩, ⟨"SIGNED", 18, 18, .RW, 0x0, 0⟩, ⟨"WIDTH", 17, 16, .RW, 0x0, 0⟩, ⟨"OFS", 7, 0, .RW, 0x0, 0⟩]⟩,
  ⟨"SNS_LID_SCALE", 0x703028, 8, 0x80, 3, 0x4, [⟨"SCALE", 31, 0, .RW, 0x3A83126F, 0⟩]⟩,
  ⟨"SNS_LID_PT_STEP", 0x703034, 8, 0x80, 1, 0x0, [⟨"NS", 31, 0, .RW, 0x0, 0⟩]⟩,
  ⟨"SNS_LID_ELEV", 0x703400, 8, 0x200, 128, 0x4, [⟨"F32", 31, 0, .RW, 0x0, 0⟩]⟩]

/-- Registers of the sns block, part 1. -/
def snsRows1 : List RegRow := [
  ⟨"SNS_CANE_W0", 0x704800, 64, 0x10, 1, 0x0, [⟨"VALID", 31, 31, .RW, 0x0, 0⟩, ⟨"CTRL", 30, 30, .RW, 0x0, 0⟩, ⟨"IDE", 29, 29, .RW, 0x0, 0⟩, ⟨"ID", 28, 0, .RW, 0x0, 0⟩]⟩,
  ⟨"SNS_CANE_W1", 0x704804, 64, 0x10, 1, 0x0, [⟨"MASK", 28, 0, .RW, 0x1FFFFFFF, 0⟩]⟩,
  ⟨"SNS_CANE_W2", 0x704808, 64, 0x10, 1, 0x0, [⟨"SIGNED", 20, 20, .RW, 0x0, 0⟩, ⟨"MOT", 19, 19, .RW, 0x0, 0⟩, ⟨"LEN", 18, 14, .RW, 0x0, 0⟩, ⟨"START", 13, 5, .RW, 0x0, 0⟩, ⟨"CHAN", 4, 0, .RW, 0x0, 0⟩]⟩,
  ⟨"SNS_SPI_CFG", 0x704C00, 2, 0x40, 1, 0x0, [⟨"LISTEN", 31, 31, .RW, 0x0, 0⟩, ⟨"MODE", 29, 28, .RW, 0x0, 0⟩, ⟨"DRDY_POL", 27, 27, .RW, 0x0, 0⟩, ⟨"DIV", 23, 16, .RW, 0x9, 0⟩, ⟨"CMD_LEN", 11, 8, .RW, 0x0, 0⟩, ⟨"RD_LEN", 5, 0, .RW, 0x0, 0⟩]⟩,
  ⟨"SNS_SPI_CMD", 0x704C04, 2, 0x40, 2, 0x4, [⟨"CMD", 31, 0, .RW, 0x0, 0⟩]⟩,
  ⟨"SNS_SPI_FLD", 0x704C10, 2, 0x40, 7, 0x4, [⟨"EN", 15, 15, .RW, 0x0, 0⟩, ⟨"W32", 14, 14, .RW, 0x0, 0⟩, ⟨"SIGNED", 13, 13, .RW, 0x0, 0⟩, ⟨"BE", 12, 12, .RW, 0x1, 0⟩, ⟨"OFS", 10, 5, .RW, 0x0, 0⟩, ⟨"CHAN", 4, 0, .RW, 0x0, 0⟩]⟩,
  ⟨"SNS_CANC_CFG", 0x704C80, 2, 0x4, 1, 0x0, [⟨"SILENT", 31, 31, .RW, 0x0, 0⟩, ⟨"NOM", 30, 16, .RW, 0x0, 0⟩, ⟨"DATA", 15, 0, .RW, 0x0, 0⟩]⟩,
  ⟨"SNS_CAM_CFG", 0x705000, 6, 0x40, 1, 0x0, [⟨"MAXBAD", 31, 24, .RW, 0x0, 0⟩, ⟨"VC", 19, 16, .RW, 0x0, 0⟩, ⟨"DT", 13, 8, .RW, 0x2C, 0⟩, ⟨"GEAR", 3, 0, .RW, 0x5, 0⟩]⟩,
  ⟨"SNS_CAM_SIZE", 0x705004, 6, 0x40, 1, 0x0, [⟨"HEIGHT", 27, 16, .RW, 0x870, 0⟩, ⟨"WIDTH", 12, 0, .RW, 0xF00, 0⟩]⟩,
  ⟨"SNS_CAM_READOUT", 0x705008, 6, 0x40, 1, 0x0, [⟨"NS", 31, 0, .RW, 0x1C9C380, 0⟩]⟩,
  ⟨"SNS_CAM_BUF_LO", 0x70500C, 6, 0x40, 1, 0x0, [⟨"BASE", 31, 21, .RW, 0x0, 0⟩]⟩,
  ⟨"SNS_CAM_BUF_HI", 0x705010, 6, 0x40, 1, 0x0, [⟨"BASE", 31, 0, .RW, 0x0, 0⟩]⟩,
  ⟨"SNS_CAM_TRIG", 0x705014, 6, 0x40, 1, 0x0, [⟨"EN", 31, 31, .RW, 0x0, 0⟩, ⟨"MODE", 30, 30, .RW, 0x0, 0⟩, ⟨"DIV", 15, 8, .RW, 0x1, 0⟩, ⟨"PHASE", 7, 0, .RW, 0x0, 0⟩]⟩,
  ⟨"SNS_CAM_TOFS", 0x705018, 6, 0x40, 1, 0x0, [⟨"NS", 31, 0, .RW, 0x0, 0⟩]⟩,
  ⟨"SNS_CAM_TPER", 0x70501C, 6, 0x40, 1, 0x0, [⟨"NS", 31, 0, .RW, 0x1FCA055, 0⟩]⟩,
  ⟨"SNS_CAM_TLEAD", 0x705020, 6, 0x40, 1, 0x0, [⟨"NS", 15, 0, .RW, 0x0, 0⟩]⟩,
  ⟨"SNS_CAM_STAT", 0x705024, 6, 0x40, 1, 0x0, [⟨"LOCK", 31, 31, .RO, 0x0, 0⟩, ⟨"GEAR", 27, 24, .RO, 0x0, 0⟩, ⟨"CUR", 17, 16, .RO, 0x0, 0⟩, ⟨"MISS_CNT", 15, 8, .RO, 0x0, 0⟩]⟩,
  ⟨"SNS_CAM_I2C", 0x705028, 6, 0x40, 1, 0x0, [⟨"GO", 31, 31, .WS, 0x0, 0⟩, ⟨"BUSY", 30, 30, .RO, 0x0, 0⟩, ⟨"NACK", 29, 29, .RO, 0x0, 0⟩, ⟨"RD", 28, 28, .RW, 0x0, 0⟩, ⟨"ADDR", 26, 20, .RW, 0x0, 0⟩, ⟨"REG", 19, 8, .RW, 0x0, 0⟩, ⟨"DATA", 7, 0, .RWH, 0x0, 0⟩]⟩,
  ⟨"SNS_UART_CFG", 0x705400, 1, 0x0, 1, 0x0, [⟨"BAUD", 31, 12, .RW, 0x1C200, 0⟩, ⟨"PARITY", 9, 8, .RW, 0x0, 0⟩, ⟨"FRAME", 0, 0, .RW, 0x0, 0⟩]⟩,
  ⟨"SNS_UART_FRM", 0x705404, 1, 0x0, 1, 0x0, [⟨"SYNC", 31, 16, .RW, 0x0, 0⟩, ⟨"LEN_OFS", 15, 8, .RW, 0x0, 0⟩, ⟨"LEN_ADD", 7, 0, .RW, 0x0, 0⟩]⟩]

/-- Registers of the sns block, part 2. -/
def snsRows2 : List RegRow := [
  ⟨"SNS_UART_TX", 0x705408, 1, 0x0, 1, 0x0, [⟨"TX_OVF", 8, 8, .W1C, 0x0, 0⟩, ⟨"DATA", 7, 0, .WO, 0x0, 0⟩]⟩]

/-- Registers of the sns block. -/
def snsRows : List RegRow := snsRows0 ++ snsRows1 ++ snsRows2

/-- Registers of the filt block, part 0. -/
def filtRows0 : List RegRow := [
  ⟨"FILT_SYNC_CTRL", 0x800000, 1, 0x0, 1, 0x0, [⟨"ARM", 31, 31, .WS, 0x0, 0⟩, ⟨"CANCEL", 30, 30, .WS, 0x0, 0⟩, ⟨"PIN_POL", 9, 9, .RW, 0x0, 0⟩, ⟨"PIN_EN", 8, 8, .RW, 0x0, 0⟩, ⟨"PENDING", 1, 1, .RO, 0x0, 0⟩, ⟨"REFUSED", 0, 0, .W1C, 0x0, 0⟩]⟩,
  ⟨"FILT_SYNC_TICK_LO", 0x800004, 1, 0x0, 1, 0x0, [⟨"TICK", 31, 0, .RW, 0x0, 0⟩]⟩,
  ⟨"FILT_SYNC_TICK_HI", 0x800008, 1, 0x0, 1, 0x0, [⟨"TICK", 31, 0, .RW, 0x0, 0⟩]⟩,
  ⟨"FILT_SYNC_LAST_LO", 0x80000C, 1, 0x0, 1, 0x0, [⟨"VT", 31, 0, .RO, 0x0, 0⟩]⟩,
  ⟨"FILT_SYNC_LAST_HI", 0x800010, 1, 0x0, 1, 0x0, [⟨"VT", 31, 0, .RO, 0x0, 0⟩]⟩,
  ⟨"FILT_SYNC_LAST_FRAC", 0x800014, 1, 0x0, 1, 0x0, [⟨"VT", 15, 0, .RO, 0x0, 0⟩]⟩,
  ⟨"FILT_SYNC_CNT", 0x800018, 1, 0x0, 1, 0x0, [⟨"COUNT", 31, 0, .RO, 0x0, 0⟩]⟩,
  ⟨"FILT_STAT", 0x80001C, 1, 0x0, 1, 0x0, [⟨"CFG_REFUSED", 0, 0, .W1C, 0x0, 0⟩]⟩,
  ⟨"FILT_CH_CFG", 0x801000, 32, 0x100, 1, 0x0, [⟨"ENABLE", 31, 31, .RW, 0x0, 0⟩, ⟨"MODE", 30, 30, .RW, 0x0, 0⟩, ⟨"FS_IN", 29, 28, .RW, 0x2, 0⟩, ⟨"PRESET", 25, 24, .RW, 0x0, 0⟩, ⟨"OBJ_PATH", 20, 20, .RW, 0x0, 0⟩, ⟨"SYNC_EN", 19, 19, .RW, 0x1, 0⟩, ⟨"OBJ", 11, 0, .RW, 0xFFF, 0⟩]⟩,
  ⟨"FILT_CH_MPPROG", 0x801004, 32, 0x100, 1, 0x0, [⟨"KIND", 23, 0, .RW, 0x0, 0⟩]⟩,
  ⟨"FILT_CH_THR_LEVEL", 0x801008, 32, 0x100, 2, 0x8, [⟨"LEVEL", 31, 0, .RW, 0x7FFFFFFF, 0⟩]⟩,
  ⟨"FILT_CH_THR_HYST", 0x80100C, 32, 0x100, 2, 0x8, [⟨"HYST", 31, 0, .RW, 0x0, 0⟩]⟩,
  ⟨"FILT_CH_THR_CFG", 0x801018, 32, 0x100, 1, 0x0, [⟨"EN0", 4, 4, .RW, 0x0, 0⟩, ⟨"EN1", 12, 12, .RW, 0x0, 0⟩, ⟨"PATH0", 3, 3, .RW, 0x0, 0⟩, ⟨"PATH1", 11, 11, .RW, 0x0, 0⟩, ⟨"GATE0", 2, 2, .RW, 0x1, 0⟩, ⟨"GATE1", 10, 10, .RW, 0x1, 0⟩, ⟨"FALL0", 1, 1, .RW, 0x0, 0⟩, ⟨"FALL1", 9, 9, .RW, 0x0, 0⟩, ⟨"RISE0", 0, 0, .RW, 0x0, 0⟩, ⟨"RISE1", 8, 8, .RW, 0x0, 0⟩]⟩,
  ⟨"FILT_CH_STEP", 0x80101C, 32, 0x100, 1, 0x0, [⟨"THR", 31, 0, .RW, 0x0, 0⟩]⟩,
  ⟨"FILT_CH_STAT", 0x801020, 32, 0x100, 1, 0x0, [⟨"SETTLED", 31, 31, .RO, 0x0, 0⟩, ⟨"COARSE_VALID", 30, 30, .RO, 0x0, 0⟩, ⟨"ABOVE1", 29, 29, .RO, 0x0, 0⟩, ⟨"ABOVE0", 28, 28, .RO, 0x0, 0⟩, ⟨"PHASE_LOST", 8, 8, .RO, 0x0, 0⟩, ⟨"SAT", 3, 3, .W1C, 0x0, 0⟩, ⟨"STEP_EV", 2, 2, .W1C, 0x0, 0⟩, ⟨"THR1_EV", 1, 1, .W1C, 0x0, 0⟩, ⟨"THR0_EV", 0, 0, .W1C, 0x0, 0⟩]⟩,
  ⟨"FILT_CH_MPOUT", 0x801024, 32, 0x100, 1, 0x0, [⟨"Y", 31, 0, .RO, 0x0, 0⟩]⟩,
  ⟨"FILT_CH_LPOUT", 0x801028, 32, 0x100, 1, 0x0, [⟨"Y", 31, 0, .RO, 0x0, 0⟩]⟩,
  ⟨"FILT_CH_COARSE", 0x80102C, 32, 0x100, 1, 0x0, [⟨"Y", 31, 0, .RO, 0x0, 0⟩]⟩,
  ⟨"FILT_CH_SCNT", 0x801030, 32, 0x100, 1, 0x0, [⟨"COUNT", 31, 0, .RO, 0x0, 0⟩]⟩,
  ⟨"FILT_CH_SOS_B0", 0x801040, 32, 0x100, 8, 0x18, [⟨"COEF", 23, 0, .RW, 0x0, 0⟩]⟩]

/-- Registers of the filt block, part 1. -/
def filtRows1 : List RegRow := [
  ⟨"FILT_CH_SOS_B1", 0x801044, 32, 0x100, 8, 0x18, [⟨"COEF", 23, 0, .RW, 0x0, 0⟩]⟩,
  ⟨"FILT_CH_SOS_B2", 0x801048, 32, 0x100, 8, 0x18, [⟨"COEF", 23, 0, .RW, 0x0, 0⟩]⟩,
  ⟨"FILT_CH_SOS_A1", 0x80104C, 32, 0x100, 8, 0x18, [⟨"COEF", 23, 0, .RW, 0x0, 0⟩]⟩,
  ⟨"FILT_CH_SOS_A2", 0x801050, 32, 0x100, 8, 0x18, [⟨"COEF", 23, 0, .RW, 0x0, 0⟩]⟩,
  ⟨"FILT_CH_SOS_SHIFT", 0x801054, 32, 0x100, 8, 0x18, [⟨"SHIFT", 3, 0, .RW, 0x0, 0⟩]⟩]

/-- Registers of the filt block. -/
def filtRows : List RegRow := filtRows0 ++ filtRows1

/-- Registers of the ego block, part 0. -/
def egoRows0 : List RegRow := [
  ⟨"EGO_CTRL", 0x900000, 1, 0x0, 1, 0x0, [⟨"RESET", 31, 31, .WS, 0x0, 0⟩, ⟨"ENABLE", 0, 0, .RW, 0x0, 0⟩]⟩,
  ⟨"EGO_CFG", 0x900004, 1, 0x0, 1, 0x0, [⟨"HOLD_US", 31, 16, .RW, 0x64, 0⟩, ⟨"PRED_SUB", 9, 0, .RW, 0x2, 0⟩]⟩,
  ⟨"EGO_IMU_CH", 0x900008, 1, 0x0, 1, 0x0, [⟨"CH", 29, 0, .RW, 0x0, 0⟩]⟩,
  ⟨"EGO_WHL_CH", 0x90000C, 1, 0x0, 1, 0x0, [⟨"WHL_EN", 23, 20, .RW, 0x0, 0⟩, ⟨"CH", 19, 0, .RW, 0x0, 0⟩]⟩,
  ⟨"EGO_IMU_PER", 0x900010, 1, 0x0, 1, 0x0, [⟨"NS", 31, 0, .RW, 0x7A12, 0⟩]⟩,
  ⟨"EGO_WHL_AGE", 0x900014, 1, 0x0, 1, 0x0, [⟨"US", 31, 0, .RW, 0x61A8, 0⟩]⟩,
  ⟨"EGO_SLIP", 0x900018, 1, 0x0, 1, 0x0, [⟨"ABS", 31, 16, .RW, 0x1F4, 0⟩, ⟨"REL", 15, 0, .RW, 0x32, 0⟩]⟩,
  ⟨"EGO_STAT", 0x90001C, 1, 0x0, 1, 0x0, [⟨"RUNNING", 31, 31, .RO, 0x0, 0⟩, ⟨"CORR", 5, 4, .RO, 0x0, 0⟩, ⟨"SLIP", 2, 2, .W1C, 0x0, 0⟩, ⟨"LATE", 1, 1, .W1C, 0x0, 0⟩, ⟨"NO_IMU", 0, 0, .W1C, 0x0, 0⟩]⟩,
  ⟨"EGO_GSCALE", 0x900020, 2, 0x4, 1, 0x0, [⟨"F64", 31, 0, .RW, 0x0, 0⟩]⟩,
  ⟨"EGO_ASCALE", 0x900028, 2, 0x4, 1, 0x0, [⟨"F64", 31, 0, .RW, 0x0, 0⟩]⟩,
  ⟨"EGO_WSCALE", 0x900030, 4, 0x8, 2, 0x4, [⟨"F64", 31, 0, .RW, 0x0, 0⟩]⟩,
  ⟨"EGO_LEVER", 0x900050, 3, 0x8, 2, 0x4, [⟨"F64", 31, 0, .RW, 0x0, 0⟩]⟩,
  ⟨"EGO_GNOISE", 0x900068, 2, 0x4, 1, 0x0, [⟨"F64", 31, 0, .RW, 0x0, 0⟩]⟩,
  ⟨"EGO_ANOISE", 0x900070, 2, 0x4, 1, 0x0, [⟨"F64", 31, 0, .RW, 0x0, 0⟩]⟩,
  ⟨"EGO_GWALK", 0x900078, 2, 0x4, 1, 0x0, [⟨"F64", 31, 0, .RW, 0x0, 0⟩]⟩,
  ⟨"EGO_AWALK", 0x900080, 2, 0x4, 1, 0x0, [⟨"F64", 31, 0, .RW, 0x0, 0⟩]⟩,
  ⟨"EGO_GRAV_LO", 0x900088, 1, 0x0, 1, 0x0, [⟨"F64", 31, 0, .RW, 0x3A92A305, 0⟩]⟩,
  ⟨"EGO_GRAV_HI", 0x90008C, 1, 0x0, 1, 0x0, [⟨"F64", 31, 0, .RW, 0x40239D01, 0⟩]⟩,
  ⟨"EGO_SLIP_CNT", 0x900090, 1, 0x0, 1, 0x0, [⟨"COUNT", 31, 0, .RO, 0x0, 0⟩]⟩,
  ⟨"EGO_LATE_CNT", 0x900094, 1, 0x0, 1, 0x0, [⟨"COUNT", 31, 0, .RO, 0x0, 0⟩]⟩]

/-- Registers of the ego block, part 1. -/
def egoRows1 : List RegRow := [
  ⟨"EGO_NOIMU_CNT", 0x900098, 1, 0x0, 1, 0x0, [⟨"COUNT", 31, 0, .RO, 0x0, 0⟩]⟩,
  ⟨"EGO_INIT", 0x900100, 16, 0x8, 2, 0x4, [⟨"F64", 31, 0, .RW, 0x0, 0⟩]⟩,
  ⟨"EGO_INITP", 0x900180, 15, 0x8, 2, 0x4, [⟨"F64", 31, 0, .RW, 0x0, 0⟩]⟩,
  ⟨"EGO_NOM", 0x900200, 16, 0x8, 2, 0x4, [⟨"F64", 31, 0, .RO, 0x0, 0⟩]⟩,
  ⟨"EGO_PRED", 0x900280, 7, 0x8, 2, 0x4, [⟨"F64", 31, 0, .RO, 0x0, 0⟩]⟩,
  ⟨"EGO_PRED_TICK", 0x9002B8, 2, 0x4, 1, 0x0, [⟨"TICK", 31, 0, .RO, 0x0, 0⟩]⟩]

/-- Registers of the ego block. -/
def egoRows : List RegRow := egoRows0 ++ egoRows1

/-- Registers of the vis block. -/
def visRows : List RegRow := [
  ⟨"VIS_CLK", 0xA00000, 1, 0x0, 1, 0x0, [⟨"MHZ", 9, 0, .RO, 0x0, 0⟩]⟩,
  ⟨"VIS_ENG_CTRL", 0xA01000, 7, 0x100, 1, 0x0, [⟨"RESET", 31, 31, .WS, 0x0, 0⟩]⟩,
  ⟨"VIS_ENG_STAT", 0xA01004, 7, 0x100, 1, 0x0, [⟨"BUSY", 31, 31, .RO, 0x0, 0⟩, ⟨"RST_BUSY", 30, 30, .RO, 0x0, 0⟩, ⟨"JOB", 27, 24, .RO, 0x0, 0⟩, ⟨"ERR", 16, 16, .W1C, 0x0, 0⟩, ⟨"ERR_CODE", 15, 8, .RO, 0x0, 0⟩, ⟨"ERR_JOB", 3, 0, .RO, 0x0, 0⟩]⟩,
  ⟨"VIS_ENG_ARMED", 0xA01008, 7, 0x100, 1, 0x0, [⟨"JOBS", 15, 0, .RO, 0x0, 0⟩]⟩,
  ⟨"VIS_ENG_DONE", 0xA0100C, 7, 0x100, 1, 0x0, [⟨"JOBS", 15, 0, .RO, 0x0, 0⟩]⟩,
  ⟨"VIS_ENG_LASTJ", 0xA01010, 7, 0x100, 1, 0x0, [⟨"NS", 31, 0, .RO, 0x0, 0⟩]⟩,
  ⟨"VIS_ENG_SKIP", 0xA01014, 7, 0x100, 1, 0x0, [⟨"COUNT", 31, 0, .RO, 0x0, 0⟩]⟩,
  ⟨"VIS_ENG_ERRCNT", 0xA01018, 7, 0x100, 1, 0x0, [⟨"COUNT", 31, 0, .RO, 0x0, 0⟩]⟩,
  ⟨"VIS_ENG_CUT", 0xA0101C, 7, 0x100, 1, 0x0, [⟨"COUNT", 31, 0, .RO, 0x0, 0⟩]⟩]

/-- Registers of the fus block, part 0. -/
def fusRows0 : List RegRow := [
  ⟨"FUS_DS_CFG", 0xB00000, 1, 0x0, 1, 0x0, [⟨"HOLD", 31, 24, .RW, 0x14, 0⟩, ⟨"DEMOTE_N", 23, 16, .RW, 0x5, 0⟩, ⟨"LOC_TICKS", 15, 8, .RW, 0xA, 0⟩, ⟨"CAM_MODAL", 7, 4, .RW, 0x3, 0⟩]⟩,
  ⟨"FUS_DS_DR", 0xB00004, 1, 0x0, 1, 0x0, [⟨"DR_MS", 31, 0, .RW, 0x7D0, 0⟩]⟩,
  ⟨"FUS_DS_CTRL", 0xB00008, 1, 0x0, 1, 0x0, [⟨"FORCE4", 1, 1, .RW, 0x0, 0⟩, ⟨"SUSPEND", 0, 0, .RW, 0x0, 0⟩]⟩,
  ⟨"FUS_DS_STAT", 0xB0000C, 1, 0x0, 1, 0x0, [⟨"STEP", 31, 29, .RO, 0x0, 0⟩, ⟨"RAW", 26, 24, .RO, 0x0, 0⟩, ⟨"DR_RUN", 16, 16, .RO, 0x0, 0⟩, ⟨"SAFE", 8, 8, .RO, 0x0, 0⟩, ⟨"LOC_SUSP", 3, 3, .RO, 0x0, 0⟩, ⟨"DS_UP", 2, 2, .W1C, 0x0, 0⟩, ⟨"DEMOTE_EV", 1, 1, .W1C, 0x0, 0⟩, ⟨"RESTORE_EV", 0, 0, .W1C, 0x0, 0⟩]⟩,
  ⟨"FUS_DS_DRLEFT", 0xB00010, 1, 0x0, 1, 0x0, [⟨"MS", 31, 0, .RO, 0x0, 0⟩]⟩,
  ⟨"FUS_MON", 0xB00020, 4, 0x4, 1, 0x0, [⟨"MON", 31, 0, .RW, 0x0, 0⟩]⟩,
  ⟨"FUS_LOST", 0xB00030, 4, 0x4, 1, 0x0, [⟨"LOST", 31, 0, .RO, 0x0, 0⟩]⟩,
  ⟨"FUS_DEMOTE", 0xB00040, 4, 0x4, 1, 0x0, [⟨"DEM", 31, 0, .W1C, 0x0, 0⟩]⟩,
  ⟨"FUS_DEMOTE_CFG", 0xB00050, 1, 0x0, 1, 0x0, [⟨"DIS_CELLS", 31, 16, .RW, 0x100, 0⟩, ⟨"RESTORE", 15, 0, .RW, 0x64, 0⟩]⟩,
  ⟨"FUS_GRID_CFG", 0xB00054, 1, 0x0, 1, 0x0, [⟨"CAP2", 12, 8, .RW, 0x14, 0⟩, ⟨"CONF_MIN", 4, 0, .RW, 0x10, 0⟩]⟩,
  ⟨"FUS_GRID_STAT", 0xB00058, 1, 0x0, 1, 0x0, [⟨"CONTESTED", 31, 0, .RO, 0x0, 0⟩]⟩,
  ⟨"FUS_THRACT", 0xB00060, 4, 0x4, 1, 0x0, [⟨"ACT", 31, 0, .RW, 0x0, 0⟩]⟩,
  ⟨"FUS_TRK_NEXT", 0xB00080, 1, 0x0, 1, 0x0, [⟨"ID", 31, 0, .RWH, 0x1, 0⟩]⟩,
  ⟨"FUS_TRK_STAT", 0xB00084, 1, 0x0, 1, 0x0, [⟨"EXHAUSTED", 31, 31, .RO, 0x0, 0⟩, ⟨"NEXT_REFUSED", 30, 30, .W1C, 0x0, 0⟩, ⟨"LIVE", 11, 0, .RO, 0x0, 0⟩]⟩,
  ⟨"FUS_TRK_CFG", 0xB00088, 1, 0x0, 1, 0x0, [⟨"BIRTH", 31, 24, .RW, 0x80, 0⟩, ⟨"DEATH", 23, 16, .RW, 0x40, 0⟩, ⟨"MAX_MISS", 15, 8, .RW, 0xA, 0⟩]⟩,
  ⟨"FUS_TRK_FULL", 0xB0008C, 1, 0x0, 1, 0x0, [⟨"COUNT", 31, 0, .RO, 0x0, 0⟩]⟩,
  ⟨"FUS_CAL_EN", 0xB00100, 1, 0x0, 1, 0x0, [⟨"LIDAR", 15, 8, .RW, 0x0, 0⟩, ⟨"CAM", 5, 0, .RW, 0x0, 0⟩]⟩,
  ⟨"FUS_CAL_TR", 0xB00104, 1, 0x0, 1, 0x0, [⟨"ROT_STEP", 31, 16, .RW, 0x1F4, 0⟩, ⟨"TRANS_STEP", 15, 0, .RW, 0x1388, 0⟩]⟩,
  ⟨"FUS_CAL_TRC", 0xB00108, 1, 0x0, 1, 0x0, [⟨"ROT_CUM", 31, 16, .RW, 0x1388, 0⟩, ⟨"TRANS_CUM", 15, 0, .RW, 0x4E20, 0⟩]⟩,
  ⟨"FUS_CAL_TRI", 0xB0010C, 1, 0x0, 1, 0x0, [⟨"INTR_CUM", 31, 16, .RW, 0x2710, 0⟩, ⟨"INTR_STEP", 15, 0, .RW, 0x3E8, 0⟩]⟩]

/-- Registers of the fus block, part 1. -/
def fusRows1 : List RegRow := [
  ⟨"FUS_CAL_STAT", 0xB00110, 1, 0x0, 1, 0x0, [⟨"RING_DROP", 2, 2, .W1C, 0x0, 0⟩, ⟨"REJECT_EV", 1, 1, .W1C, 0x0, 0⟩, ⟨"APPLY_EV", 0, 0, .W1C, 0x0, 0⟩]⟩,
  ⟨"FUS_CAL_APPLIED", 0xB00114, 1, 0x0, 1, 0x0, [⟨"COUNT", 31, 0, .RO, 0x0, 0⟩]⟩,
  ⟨"FUS_CAL_REJECTED", 0xB00118, 1, 0x0, 1, 0x0, [⟨"COUNT", 31, 0, .RO, 0x0, 0⟩]⟩,
  ⟨"FUS_CAL_RING_BASE_LO", 0xB00120, 1, 0x0, 1, 0x0, [⟨"BASE", 31, 6, .RW, 0x0, 0⟩]⟩,
  ⟨"FUS_CAL_RING_BASE_HI", 0xB00124, 1, 0x0, 1, 0x0, [⟨"BASE", 31, 0, .RW, 0x0, 0⟩]⟩,
  ⟨"FUS_CAL_RING_SIZE", 0xB00128, 1, 0x0, 1, 0x0, [⟨"SLOTS", 12, 0, .RW, 0x0, 0⟩]⟩,
  ⟨"FUS_CAL_RING_WR", 0xB0012C, 1, 0x0, 1, 0x0, [⟨"WR", 12, 0, .RO, 0x0, 0⟩]⟩,
  ⟨"FUS_CAL_RING_RD", 0xB00130, 1, 0x0, 1, 0x0, [⟨"RD", 12, 0, .RW, 0x0, 0⟩]⟩,
  ⟨"FUS_CAL_RING_DROP", 0xB00134, 1, 0x0, 1, 0x0, [⟨"COUNT", 31, 0, .RO, 0x0, 0⟩]⟩,
  ⟨"FUS_TBL_CMD", 0xB00140, 1, 0x0, 1, 0x0, [⟨"COMMIT", 31, 31, .WS, 0x0, 0⟩, ⟨"PENDING", 30, 30, .RO, 0x0, 0⟩]⟩,
  ⟨"FUS_SEN", 0xB01000, 16, 0x80, 22, 0x4, [⟨"F32", 31, 0, .RW, 0x0, 0⟩]⟩,
  ⟨"FUS_LIVE", 0xB02000, 16, 0x80, 22, 0x4, [⟨"F32", 31, 0, .RO, 0x0, 0⟩]⟩]

/-- Registers of the fus block. -/
def fusRows : List RegRow := fusRows0 ++ fusRows1

/-- Registers of the spec block. -/
def specRows : List RegRow := [
  ⟨"SPEC_CTRL", 0xC00000, 1, 0x0, 1, 0x0, [⟨"ENABLE", 0, 0, .RW, 0x0, 0⟩]⟩,
  ⟨"SPEC_CFG", 0xC00004, 1, 0x0, 1, 0x0, [⟨"POSE_OBJ", 11, 0, .RW, 0xFFF, 0⟩]⟩,
  ⟨"SPEC_GATE_POS", 0xC00008, 1, 0x0, 1, 0x0, [⟨"UM", 31, 0, .RW, 0xC350, 0⟩]⟩,
  ⟨"SPEC_GATE_YAW", 0xC0000C, 1, 0x0, 1, 0x0, [⟨"URAD", 31, 0, .RW, 0xDA3, 0⟩]⟩,
  ⟨"SPEC_STAT", 0xC00010, 1, 0x0, 1, 0x0, [⟨"PENDING", 31, 31, .RO, 0x0, 0⟩, ⟨"BLIND_RUN", 30, 30, .RO, 0x0, 0⟩, ⟨"DEC", 25, 24, .RO, 0x0, 0⟩, ⟨"CFG_REFUSED", 2, 2, .W1C, 0x0, 0⟩, ⟨"NO_POSE_EV", 1, 1, .W1C, 0x0, 0⟩, ⟨"GATE_EV", 0, 0, .W1C, 0x0, 0⟩]⟩,
  ⟨"SPEC_DEC_TICK_LO", 0xC00014, 1, 0x0, 1, 0x0, [⟨"TICK", 31, 0, .RO, 0x0, 0⟩]⟩,
  ⟨"SPEC_DEC_TICK_HI", 0xC00018, 1, 0x0, 1, 0x0, [⟨"TICK", 31, 0, .RO, 0x0, 0⟩]⟩,
  ⟨"SPEC_LAST_DPOS", 0xC0001C, 1, 0x0, 1, 0x0, [⟨"UM", 31, 0, .RO, 0x0, 0⟩]⟩,
  ⟨"SPEC_LAST_DYAW", 0xC00020, 1, 0x0, 1, 0x0, [⟨"URAD", 31, 0, .RO, 0x0, 0⟩]⟩,
  ⟨"SPEC_CONFIRM_CNT", 0xC00024, 1, 0x0, 1, 0x0, [⟨"COUNT", 31, 0, .RO, 0x0, 0⟩]⟩,
  ⟨"SPEC_SQUASH_CNT", 0xC00028, 1, 0x0, 1, 0x0, [⟨"COUNT", 31, 0, .RO, 0x0, 0⟩]⟩]

/-- Registers of the map block, part 0. -/
def mapRows0 : List RegRow := [
  ⟨"MAP_OBJ0", 0xD00000, 1, 0x0, 1, 0x0, [⟨"KFV_OBJ", 27, 16, .RW, 0xFFF, 0⟩, ⟨"LMK_OBJ", 11, 0, .RW, 0xFFF, 0⟩]⟩,
  ⟨"MAP_OBJ1", 0xD00004, 1, 0x0, 1, 0x0, [⟨"GRAPH_OBJ", 27, 16, .RW, 0xFFF, 0⟩, ⟨"UPD_OBJ", 11, 0, .RW, 0xFFF, 0⟩]⟩,
  ⟨"MAP_OBJ2", 0xD00008, 1, 0x0, 1, 0x0, [⟨"VER_OBJ", 11, 0, .RW, 0xFFF, 0⟩]⟩,
  ⟨"MAP_LMK_CFG", 0xD00010, 1, 0x0, 1, 0x0, [⟨"MIN_AGE", 15, 0, .RW, 0x32, 0⟩]⟩,
  ⟨"MAP_LOOP_CFG", 0xD00014, 1, 0x0, 1, 0x0, [⟨"ITER", 26, 16, .RW, 0x100, 0⟩, ⟨"MIN_RATIO", 15, 8, .RW, 0x1E, 0⟩, ⟨"MIN_INL", 7, 0, .RW, 0x14, 0⟩]⟩,
  ⟨"MAP_LOOP_THR", 0xD00018, 1, 0x0, 1, 0x0, [⟨"UM", 31, 0, .RW, 0x186A0, 0⟩]⟩,
  ⟨"MAP_LOOP_STREAM", 0xD0001C, 1, 0x0, 1, 0x0, [⟨"STREAM", 31, 0, .RW, 0x100, 0⟩]⟩,
  ⟨"MAP_LOOP_INFO_T", 0xD00020, 1, 0x0, 1, 0x0, [⟨"F32", 31, 0, .RW, 0x41200000, 0⟩]⟩,
  ⟨"MAP_LOOP_INFO_R", 0xD00024, 1, 0x0, 1, 0x0, [⟨"F32", 31, 0, .RW, 0x42C80000, 0⟩]⟩,
  ⟨"MAP_ODO_INFO_T", 0xD00028, 1, 0x0, 1, 0x0, [⟨"F32", 31, 0, .RW, 0x42C80000, 0⟩]⟩,
  ⟨"MAP_ODO_INFO_R", 0xD0002C, 1, 0x0, 1, 0x0, [⟨"F32", 31, 0, .RW, 0x447A0000, 0⟩]⟩,
  ⟨"MAP_STAT", 0xD00040, 1, 0x0, 1, 0x0, [⟨"LMK_UE", 6, 6, .W1C, 0x0, 0⟩, ⟨"RELOC_EV", 5, 5, .W1C, 0x0, 0⟩, ⟨"LOOP_EV", 4, 4, .W1C, 0x0, 0⟩, ⟨"GRAPH_FULL", 3, 3, .W1C, 0x0, 0⟩, ⟨"LMK_FULL", 2, 2, .W1C, 0x0, 0⟩, ⟨"UPD_SKIP", 1, 1, .W1C, 0x0, 0⟩, ⟨"CFG_REFUSED", 0, 0, .W1C, 0x0, 0⟩]⟩,
  ⟨"MAP_LMK_VALID", 0xD00044, 1, 0x0, 1, 0x0, [⟨"COUNT", 16, 0, .RO, 0x0, 0⟩]⟩,
  ⟨"MAP_KF_NEXT", 0xD00048, 1, 0x0, 1, 0x0, [⟨"ID", 31, 0, .RO, 0x1, 0⟩]⟩,
  ⟨"MAP_KF_COUNT", 0xD0004C, 1, 0x0, 1, 0x0, [⟨"COUNT", 5, 0, .RO, 0x0, 0⟩]⟩,
  ⟨"MAP_GRAPH_NODES", 0xD00050, 1, 0x0, 1, 0x0, [⟨"COUNT", 16, 0, .RO, 0x0, 0⟩]⟩,
  ⟨"MAP_GRAPH_EDGES", 0xD00054, 1, 0x0, 1, 0x0, [⟨"COUNT", 17, 0, .RO, 0x0, 0⟩]⟩,
  ⟨"MAP_UPD_APPLIED", 0xD00058, 1, 0x0, 1, 0x0, [⟨"COUNT", 31, 0, .RO, 0x0, 0⟩]⟩,
  ⟨"MAP_UPD_DROPPED", 0xD0005C, 1, 0x0, 1, 0x0, [⟨"COUNT", 31, 0, .RO, 0x0, 0⟩]⟩,
  ⟨"MAP_UPD_SKIP", 0xD00060, 1, 0x0, 1, 0x0, [⟨"COUNT", 31, 0, .RO, 0x0, 0⟩]⟩]

/-- Registers of the map block, part 1. -/
def mapRows1 : List RegRow := [
  ⟨"MAP_LMK_FULL", 0xD00064, 1, 0x0, 1, 0x0, [⟨"COUNT", 31, 0, .RO, 0x0, 0⟩]⟩,
  ⟨"MAP_LOOP_ACCEPT", 0xD00068, 1, 0x0, 1, 0x0, [⟨"COUNT", 31, 0, .RO, 0x0, 0⟩]⟩,
  ⟨"MAP_LOOP_REJECT", 0xD0006C, 1, 0x0, 1, 0x0, [⟨"COUNT", 31, 0, .RO, 0x0, 0⟩]⟩,
  ⟨"MAP_LOOP_CUT", 0xD00070, 1, 0x0, 1, 0x0, [⟨"COUNT", 31, 0, .RO, 0x0, 0⟩]⟩,
  ⟨"MAP_RELOC_NODE", 0xD00074, 1, 0x0, 1, 0x0, [⟨"NODE", 14, 0, .RO, 0x0, 0⟩]⟩,
  ⟨"MAP_RELOC_TICK_LO", 0xD00078, 1, 0x0, 1, 0x0, [⟨"TICK", 31, 0, .RO, 0x0, 0⟩]⟩,
  ⟨"MAP_RELOC_TICK_HI", 0xD0007C, 1, 0x0, 1, 0x0, [⟨"TICK", 31, 0, .RO, 0x0, 0⟩]⟩,
  ⟨"MAP_LMK_RD_IDX", 0xD00080, 1, 0x0, 1, 0x0, [⟨"GO", 31, 31, .WS, 0x0, 0⟩, ⟨"BUSY", 30, 30, .RO, 0x0, 0⟩, ⟨"UE", 29, 29, .RO, 0x0, 0⟩, ⟨"SLOT", 15, 0, .RW, 0x0, 0⟩]⟩,
  ⟨"MAP_LMK_RD_DATA", 0xD00084, 16, 0x4, 1, 0x0, [⟨"DATA", 31, 0, .RO, 0x0, 0⟩]⟩]

/-- Registers of the map block. -/
def mapRows : List RegRow := mapRows0 ++ mapRows1

/-- Registers of the srch block, part 0. -/
def srchRows0 : List RegRow := [
  ⟨"SRCH_STAT", 0xE00000, 1, 0x0, 1, 0x0, [⟨"BADCW_FULL", 2, 2, .RO, 0x0, 0⟩, ⟨"CFG_REFUSED", 0, 0, .W1C, 0x0, 0⟩]⟩,
  ⟨"SRCH_CTX_FREE", 0xE00004, 1, 0x0, 1, 0x0, [⟨"FREE", 11, 0, .RO, 0x800, 0⟩]⟩,
  ⟨"SRCH_BADCW_CNT", 0xE00008, 1, 0x0, 1, 0x0, [⟨"COUNT", 6, 0, .RO, 0x0, 0⟩]⟩,
  ⟨"SRCH_SIDE_CMD", 0xE00040, 1, 0x0, 1, 0x0, [⟨"GO", 31, 31, .WS, 0x0, 0⟩, ⟨"OP", 30, 29, .RW, 0x0, 0⟩, ⟨"INDEX", 1, 0, .RW, 0x0, 0⟩]⟩,
  ⟨"SRCH_SIDE_SRC_LO", 0xE00044, 1, 0x0, 1, 0x0, [⟨"SRC", 31, 6, .RW, 0x0, 0⟩]⟩,
  ⟨"SRCH_SIDE_SRC_HI", 0xE00048, 1, 0x0, 1, 0x0, [⟨"SRC", 31, 0, .RW, 0x0, 0⟩]⟩,
  ⟨"SRCH_SIDE_ID_LO", 0xE0004C, 1, 0x0, 1, 0x0, [⟨"ID", 31, 0, .RWH, 0x0, 0⟩]⟩,
  ⟨"SRCH_SIDE_ID_HI", 0xE00050, 1, 0x0, 1, 0x0, [⟨"ID", 7, 0, .RWH, 0x0, 0⟩]⟩,
  ⟨"SRCH_SIDE_STAT", 0xE00054, 1, 0x0, 1, 0x0, [⟨"BUSY", 31, 31, .RO, 0x0, 0⟩, ⟨"DONE", 30, 30, .W1C, 0x0, 0⟩, ⟨"STATUS", 23, 16, .RO, 0x0, 0⟩]⟩,
  ⟨"SRCH_MRG_CTRL", 0xE00060, 1, 0x0, 1, 0x0, [⟨"GO", 31, 31, .WS, 0x0, 0⟩, ⟨"ABORT", 30, 30, .WS, 0x0, 0⟩, ⟨"PIPE", 13, 8, .RW, 0x0, 0⟩, ⟨"INDEX", 1, 0, .RW, 0x0, 0⟩]⟩,
  ⟨"SRCH_MRG_HDR_LO", 0xE00064, 1, 0x0, 1, 0x0, [⟨"ADDR", 31, 0, .RW, 0x0, 0⟩]⟩,
  ⟨"SRCH_MRG_HDR_HI", 0xE00068, 1, 0x0, 1, 0x0, [⟨"ADDR", 31, 0, .RW, 0x0, 0⟩]⟩,
  ⟨"SRCH_MRG_NODE_LO", 0xE0006C, 1, 0x0, 1, 0x0, [⟨"ADDR", 31, 0, .RW, 0x0, 0⟩]⟩,
  ⟨"SRCH_MRG_NODE_HI", 0xE00070, 1, 0x0, 1, 0x0, [⟨"ADDR", 31, 0, .RW, 0x0, 0⟩]⟩,
  ⟨"SRCH_MRG_DESC_LO", 0xE00074, 1, 0x0, 1, 0x0, [⟨"ADDR", 31, 0, .RW, 0x0, 0⟩]⟩,
  ⟨"SRCH_MRG_DESC_HI", 0xE00078, 1, 0x0, 1, 0x0, [⟨"ADDR", 31, 0, .RW, 0x0, 0⟩]⟩,
  ⟨"SRCH_MRG_CFG", 0xE0007C, 1, 0x0, 1, 0x0, [⟨"HOPS", 25, 16, .RW, 0xC8, 0⟩, ⟨"QLEN", 9, 0, .RW, 0x80, 0⟩]⟩,
  ⟨"SRCH_MRG_STAT", 0xE00080, 1, 0x0, 1, 0x0, [⟨"BUSY", 31, 31, .RO, 0x0, 0⟩, ⟨"DONE", 30, 30, .W1C, 0x0, 0⟩, ⟨"STATUS", 23, 16, .RO, 0x0, 0⟩]⟩,
  ⟨"SRCH_MRG_PROG", 0xE00084, 1, 0x0, 1, 0x0, [⟨"ITEMS", 31, 0, .RO, 0x0, 0⟩]⟩,
  ⟨"SRCH_MRG_SEQ_LO", 0xE00088, 1, 0x0, 1, 0x0, [⟨"M", 31, 0, .RO, 0x0, 0⟩]⟩]

/-- Registers of the srch block, part 1. -/
def srchRows1 : List RegRow := [
  ⟨"SRCH_MRG_SEQ_HI", 0xE0008C, 1, 0x0, 1, 0x0, [⟨"M", 31, 0, .RO, 0x0, 0⟩]⟩,
  ⟨"SRCH_FW_SRC_LO", 0xE000A0, 1, 0x0, 1, 0x0, [⟨"ADDR", 31, 0, .RW, 0x0, 0⟩]⟩,
  ⟨"SRCH_FW_SRC_HI", 0xE000A4, 1, 0x0, 1, 0x0, [⟨"ADDR", 31, 0, .RW, 0x0, 0⟩]⟩,
  ⟨"SRCH_FW_DST_LO", 0xE000A8, 1, 0x0, 1, 0x0, [⟨"ADDR", 31, 0, .RW, 0x0, 0⟩]⟩,
  ⟨"SRCH_FW_DST_HI", 0xE000AC, 1, 0x0, 1, 0x0, [⟨"ADDR", 31, 0, .RW, 0x0, 0⟩]⟩,
  ⟨"SRCH_FW_LEN", 0xE000B0, 1, 0x0, 1, 0x0, [⟨"LEN", 31, 0, .RW, 0x0, 0⟩]⟩,
  ⟨"SRCH_FW_CTRL", 0xE000B4, 1, 0x0, 1, 0x0, [⟨"GO", 31, 31, .WS, 0x0, 0⟩]⟩,
  ⟨"SRCH_FW_STAT", 0xE000B8, 1, 0x0, 1, 0x0, [⟨"BUSY", 31, 31, .RO, 0x0, 0⟩, ⟨"DONE", 30, 30, .W1C, 0x0, 0⟩, ⟨"STATUS", 23, 16, .RO, 0x0, 0⟩]⟩,
  ⟨"SRCH_ENG", 0xE00100, 8, 0x4, 1, 0x0, [⟨"FREE", 8, 0, .RO, 0x100, 0⟩]⟩,
  ⟨"SRCH_IDX_HDR_LO", 0xE01000, 4, 0x100, 1, 0x0, [⟨"ADDR", 31, 0, .RW, 0x0, 0⟩]⟩,
  ⟨"SRCH_IDX_HDR_HI", 0xE01004, 4, 0x100, 1, 0x0, [⟨"ADDR", 31, 0, .RW, 0x0, 0⟩]⟩,
  ⟨"SRCH_IDX_SIDE_LO", 0xE01008, 4, 0x100, 1, 0x0, [⟨"BASE", 31, 6, .RW, 0x0, 0⟩]⟩,
  ⟨"SRCH_IDX_SIDE_HI", 0xE0100C, 4, 0x100, 1, 0x0, [⟨"BASE", 31, 0, .RW, 0x0, 0⟩]⟩,
  ⟨"SRCH_IDX_CTRL", 0xE01010, 4, 0x100, 1, 0x0, [⟨"ATTACH", 31, 31, .WS, 0x0, 0⟩, ⟨"DETACH", 30, 30, .WS, 0x0, 0⟩, ⟨"SWAP", 29, 29, .WS, 0x0, 0⟩]⟩,
  ⟨"SRCH_IDX_STAT", 0xE01014, 4, 0x100, 1, 0x0, [⟨"ATTACHED", 31, 31, .RO, 0x0, 0⟩, ⟨"DETACHING", 30, 30, .RO, 0x0, 0⟩, ⟨"SWAP_PEND", 29, 29, .RO, 0x0, 0⟩, ⟨"STATUS", 23, 16, .RO, 0x0, 0⟩, ⟨"SIDE_FULL", 8, 8, .W1C, 0x0, 0⟩]⟩,
  ⟨"SRCH_IDX_N_LO", 0xE01018, 4, 0x100, 1, 0x0, [⟨"N", 31, 0, .RO, 0x0, 0⟩]⟩,
  ⟨"SRCH_IDX_N_HI", 0xE0101C, 4, 0x100, 1, 0x0, [⟨"N", 31, 0, .RO, 0x0, 0⟩]⟩,
  ⟨"SRCH_IDX_SEQ_LO", 0xE01020, 4, 0x100, 1, 0x0, [⟨"SEQ", 31, 0, .RO, 0x0, 0⟩]⟩,
  ⟨"SRCH_IDX_SEQ_HI", 0xE01024, 4, 0x100, 1, 0x0, [⟨"SEQ", 31, 0, .RO, 0x0, 0⟩]⟩,
  ⟨"SRCH_IDX_NEXT_LO", 0xE01028, 4, 0x100, 1, 0x0, [⟨"NEXT", 31, 0, .RO, 0x0, 0⟩]⟩]

/-- Registers of the srch block, part 2. -/
def srchRows2 : List RegRow := [
  ⟨"SRCH_IDX_NEXT_HI", 0xE0102C, 4, 0x100, 1, 0x0, [⟨"NEXT", 7, 0, .RO, 0x0, 0⟩]⟩,
  ⟨"SRCH_IDX_SIDE_CNT", 0xE01030, 4, 0x100, 1, 0x0, [⟨"COUNT", 14, 0, .RO, 0x0, 0⟩]⟩,
  ⟨"SRCH_IDX_ACTIVE", 0xE01034, 4, 0x100, 1, 0x0, [⟨"COUNT", 11, 0, .RO, 0x0, 0⟩]⟩,
  ⟨"SRCH_QSRC_CFG", 0xE02000, 4, 0x40, 1, 0x0, [⟨"ENABLE", 31, 31, .RW, 0x0, 0⟩, ⟨"DELIVER", 27, 24, .RW, 0x1, 0⟩, ⟨"PORT", 18, 16, .RW, 0x0, 0⟩, ⟨"STAGE", 15, 0, .RW, 0x0, 0⟩]⟩,
  ⟨"SRCH_QSRC_RES", 0xE02004, 4, 0x40, 1, 0x0, [⟨"KMAX", 24, 16, .RW, 0x8, 0⟩, ⟨"RES_OBJ", 11, 0, .RW, 0xFFF, 0⟩]⟩]

/-- Registers of the srch block. -/
def srchRows : List RegRow := srchRows0 ++ srchRows1 ++ srchRows2

/-- Registers of the solv block. -/
def solvRows : List RegRow := [
  ⟨"SOLV_CFG", 0xF00000, 1, 0x0, 1, 0x0, [⟨"EPS_EXP", 5, 0, .RW, 0x28, 0⟩]⟩,
  ⟨"SOLV_CTRL", 0xF00004, 1, 0x0, 1, 0x0, [⟨"RESET", 31, 31, .WS, 0x0, 0⟩, ⟨"GRAPH_REQ", 30, 30, .WS, 0x0, 0⟩]⟩,
  ⟨"SOLV_STAT", 0xF00008, 1, 0x0, 1, 0x0, [⟨"BUSY", 31, 31, .RO, 0x0, 0⟩, ⟨"RST_BUSY", 30, 30, .RO, 0x0, 0⟩, ⟨"GRAPH_RUN", 29, 29, .RO, 0x0, 0⟩, ⟨"GRAPH_HELD", 28, 28, .RO, 0x0, 0⟩, ⟨"JOB", 18, 16, .RO, 0x0, 0⟩, ⟨"ASG_BAD", 4, 4, .W1C, 0x0, 0⟩, ⟨"INVALID_EV", 3, 3, .W1C, 0x0, 0⟩, ⟨"CLAMP_EV", 2, 2, .W1C, 0x0, 0⟩, ⟨"NONFIN_EV", 1, 1, .W1C, 0x0, 0⟩, ⟨"SHIFT_EV", 0, 0, .W1C, 0x0, 0⟩]⟩,
  ⟨"SOLV_CLK", 0xF0000C, 1, 0x0, 1, 0x0, [⟨"MHZ", 10, 0, .RO, 0x0, 0⟩]⟩,
  ⟨"SOLV_SCRATCH", 0xF00010, 1, 0x0, 1, 0x0, [⟨"KIB", 31, 0, .RO, 0x0, 0⟩]⟩,
  ⟨"SOLV_ASG_STAT", 0xF00040, 1, 0x0, 1, 0x0, [⟨"BUSY", 31, 31, .RO, 0x0, 0⟩, ⟨"UNASSIGNED", 25, 16, .RO, 0x0, 0⟩, ⟨"ROWS", 9, 0, .RO, 0x0, 0⟩]⟩,
  ⟨"SOLV_ASG_LAST", 0xF00044, 1, 0x0, 1, 0x0, [⟨"NS", 31, 0, .RO, 0x0, 0⟩]⟩,
  ⟨"SOLV_JOB_STAT", 0xF00100, 8, 0x20, 1, 0x0, [⟨"ARMED", 31, 31, .RO, 0x0, 0⟩, ⟨"DONE", 30, 30, .RO, 0x0, 0⟩, ⟨"STATUS", 23, 16, .RO, 0x0, 0⟩, ⟨"ITER", 15, 0, .RO, 0x0, 0⟩]⟩,
  ⟨"SOLV_JOB_CLAMP", 0xF00104, 8, 0x20, 1, 0x0, [⟨"COUNT", 15, 0, .RO, 0x0, 0⟩]⟩,
  ⟨"SOLV_JOB_LAST", 0xF00108, 8, 0x20, 1, 0x0, [⟨"NS", 31, 0, .RO, 0x0, 0⟩]⟩,
  ⟨"SOLV_JOB_SHIFT", 0xF0010C, 8, 0x20, 1, 0x0, [⟨"COUNT", 31, 0, .RO, 0x0, 0⟩]⟩,
  ⟨"SOLV_JOB_NONFIN", 0xF00110, 8, 0x20, 1, 0x0, [⟨"COUNT", 31, 0, .RO, 0x0, 0⟩]⟩,
  ⟨"SOLV_JOB_COST", 0xF00114, 8, 0x20, 1, 0x0, [⟨"F32", 31, 0, .RO, 0x0, 0⟩]⟩]

/-- Registers of the pane block. -/
def paneRows : List RegRow := [
  ⟨"PANE_ID", 0x1000000, 64, 0x10000, 1, 0x0, [⟨"PHYS", 13, 8, .RO, 0, 0⟩, ⟨"IN_IMAGE", 7, 7, .RO, 0x0, 0⟩, ⟨"LOGICAL", 5, 0, .RO, 0, 1⟩]⟩,
  ⟨"PANE_STATE", 0x1000004, 64, 0x10000, 1, 0x0, [⟨"CLK_STOP", 31, 31, .RO, 0x1, 0⟩, ⟨"SRAM_UE", 8, 8, .W1C, 0x0, 0⟩, ⟨"NSTAGE", 4, 0, .RO, 0x0, 0⟩]⟩,
  ⟨"PANE_SRAM", 0x1000008, 64, 0x10000, 1, 0x0, [⟨"USED", 21, 0, .RO, 0x0, 0⟩]⟩,
  ⟨"PANE_SSTAT", 0x1000100, 64, 0x10000, 16, 0x10, [⟨"VALID", 31, 31, .RO, 0x0, 0⟩, ⟨"ARMED", 30, 30, .RO, 0x0, 0⟩, ⟨"FINISHED", 29, 29, .RO, 0x0, 0⟩, ⟨"CUT", 28, 28, .RO, 0x0, 0⟩, ⟨"POISONED", 27, 27, .RO, 0x0, 0⟩, ⟨"BLIND", 26, 26, .RO, 0x0, 0⟩, ⟨"IDX_OOB", 25, 25, .W1C, 0x0, 0⟩, ⟨"DROP", 24, 24, .W1C, 0x0, 0⟩, ⟨"STAGE_ID", 15, 0, .RO, 0x0, 0⟩]⟩,
  ⟨"PANE_SFIRE", 0x1000104, 64, 0x10000, 16, 0x10, [⟨"FIRINGS", 31, 0, .RO, 0x0, 0⟩]⟩,
  ⟨"PANE_SWTOK", 0x1000108, 64, 0x10000, 16, 0x10, [⟨"CYCLES", 31, 0, .RO, 0x0, 0⟩]⟩,
  ⟨"PANE_SWCRD", 0x100010C, 64, 0x10000, 16, 0x10, [⟨"CYCLES", 31, 0, .RO, 0x0, 0⟩]⟩,
  ⟨"PANE_LINK", 0x1000400, 64, 0x10000, 4, 0x4, [⟨"CRED", 15, 0, .RO, 0x8888, 0⟩]⟩,
  ⟨"PANE_ASLOT", 0x1000800, 64, 0x10000, 16, 0x8, [⟨"VALID", 31, 31, .RO, 0x0, 0⟩, ⟨"STAGE_ID", 15, 0, .RO, 0x0, 0⟩]⟩,
  ⟨"PANE_ASTAT", 0x1000804, 64, 0x10000, 16, 0x8, [⟨"ACC_SAT", 31, 31, .W1C, 0x0, 0⟩, ⟨"CVT_SAT", 30, 30, .W1C, 0x0, 0⟩, ⟨"NAN_OUT", 29, 29, .W1C, 0x0, 0⟩, ⟨"FTZ_HIT", 28, 28, .W1C, 0x0, 0⟩, ⟨"SCALE_NAN", 27, 27, .W1C, 0x0, 0⟩, ⟨"SPARSE_ERR", 26, 26, .W1C, 0x0, 0⟩, ⟨"EVT_TICKS", 15, 0, .RO, 0x0, 0⟩]⟩]

/-- Registers of the cnt block. -/
def cntRows : List RegRow := [
  ⟨"CNT_CTRL", 0x1800000, 1, 0x0, 1, 0x0, [⟨"SNAP", 31, 31, .WS, 0x0, 0⟩]⟩,
  ⟨"CNT_EPOCH", 0x1800004, 1, 0x0, 1, 0x0, [⟨"EPOCH", 31, 0, .RO, 0x0, 0⟩]⟩,
  ⟨"CNT_STAT", 0x1800008, 1, 0x0, 1, 0x0, [⟨"BUSY", 31, 31, .RO, 0x0, 0⟩, ⟨"MERGED", 1, 1, .W1C, 0x0, 0⟩, ⟨"SNAP_REFUSED", 0, 0, .W1C, 0x0, 0⟩]⟩,
  ⟨"CNT_CLASS", 0x1800100, 64, 0x4, 1, 0x0, [⟨"NCNT", 11, 0, .RO, 0, 0⟩]⟩]

/-- Registers of the flt block. -/
def fltRows : List RegRow := [
  ⟨"FLT_STAT", 0x1C00000, 1, 0x0, 1, 0x0, [⟨"STOP", 31, 31, .RO, 0x0, 0⟩, ⟨"STOP_CODE", 23, 16, .RO, 0x0, 0⟩, ⟨"SAFE_WHY", 12, 8, .RO, 0x1, 0⟩, ⟨"LIFE_EV", 7, 7, .W1C, 0x0, 0⟩, ⟨"INJ_REFUSED", 6, 6, .W1C, 0x0, 0⟩, ⟨"CLR_REFUSED", 5, 5, .W1C, 0x0, 0⟩, ⟨"HINGE_LOST", 4, 4, .RO, 0x0, 0⟩, ⟨"LOG_OVF", 3, 3, .W1C, 0x0, 0⟩, ⟨"NOTIFY_EV", 1, 1, .W1C, 0x0, 0⟩, ⟨"STOP_EV", 0, 0, .W1C, 0x0, 0⟩]⟩,
  ⟨"FLT_CTRL", 0x1C00004, 1, 0x0, 1, 0x0, [⟨"CLEAR", 31, 31, .WS, 0x0, 0⟩]⟩,
  ⟨"FLT_CFG", 0x1C00008, 1, 0x0, 1, 0x0, [⟨"HINGE_SAFE", 0, 0, .RW, 0x0, 0⟩]⟩,
  ⟨"FLT_WDT", 0x1C0000C, 1, 0x0, 1, 0x0, [⟨"MS", 7, 0, .RW, 0x19, 0⟩]⟩,
  ⟨"FLT_INJ_KEY", 0x1C00010, 1, 0x0, 1, 0x0, [⟨"KEY", 31, 0, .WO, 0x0, 0⟩]⟩,
  ⟨"FLT_INJ", 0x1C00014, 1, 0x0, 1, 0x0, [⟨"GO", 31, 31, .WS, 0x0, 0⟩, ⟨"BUSY", 30, 30, .RO, 0x0, 0⟩, ⟨"KIND", 27, 24, .RW, 0x0, 0⟩, ⟨"TARGET", 15, 0, .RW, 0x0, 0⟩]⟩,
  ⟨"FLT_LOG_HEAD", 0x1C00020, 1, 0x0, 1, 0x0, [⟨"HEAD", 5, 0, .RO, 0x0, 0⟩]⟩,
  ⟨"FLT_LOG_TAIL", 0x1C00024, 1, 0x0, 1, 0x0, [⟨"TAIL", 5, 0, .RW, 0x0, 0⟩]⟩,
  ⟨"FLT_LOG_DROP", 0x1C00028, 1, 0x0, 1, 0x0, [⟨"COUNT", 31, 0, .RO, 0x0, 0⟩]⟩,
  ⟨"FLT_LIFE_OVER", 0x1C0002C, 1, 0x0, 1, 0x0, [⟨"OVER", 11, 0, .RO, 0x0, 0⟩]⟩,
  ⟨"FLT_PREV", 0x1C00040, 8, 0x4, 1, 0x0, [⟨"RECORD", 31, 0, .RO, 0x0, 0⟩]⟩,
  ⟨"FLT_LIFE_LO", 0x1C00100, 12, 0x8, 1, 0x0, [⟨"COUNT", 31, 0, .RO, 0, 0⟩]⟩,
  ⟨"FLT_LIFE_HI", 0x1C00104, 12, 0x8, 1, 0x0, [⟨"COUNT", 31, 0, .RO, 0, 0⟩]⟩,
  ⟨"FLT_LOG", 0x1C01000, 64, 0x20, 8, 0x4, [⟨"RECORD", 31, 0, .RO, 0x0, 0⟩]⟩]

/-- Registers of the hinge block. -/
def hingeRows : List RegRow := [
  ⟨"HINGE_ID", 0x8000000, 1, 0x0, 1, 0x0, [⟨"FAMILY", 31, 24, .RO, 0x94, 0⟩, ⟨"STEP_LETTER", 23, 16, .RO, 0x41, 0⟩, ⟨"STEP_DIGIT", 15, 12, .RO, 0x1, 0⟩]⟩,
  ⟨"HINGE_MODE", 0x8000004, 1, 0x0, 1, 0x0, [⟨"LOCKED", 31, 31, .RO, 0x0, 0⟩, ⟨"LATE_WR", 1, 1, .W1C, 0x0, 0⟩, ⟨"MODE", 0, 0, .RW, 0x0, 0⟩]⟩,
  ⟨"HINGE_LEAF_CTRL", 0x8000008, 1, 0x0, 1, 0x0, [⟨"RST_B", 1, 1, .WS, 0x0, 0⟩, ⟨"RST_A", 0, 0, .WS, 0x0, 0⟩]⟩,
  ⟨"HINGE_LEAF_STAT", 0x800000C, 1, 0x0, 1, 0x0, [⟨"LAST_RST_B", 15, 12, .RO, 0x0, 0⟩, ⟨"LAST_RST_A", 11, 8, .RO, 0x0, 0⟩, ⟨"UP_B", 1, 1, .RO, 0x0, 0⟩, ⟨"UP_A", 0, 0, .RO, 0x0, 0⟩]⟩,
  ⟨"HINGE_LEAF_DROP_A", 0x8000010, 1, 0x0, 1, 0x0, [⟨"COUNT", 31, 0, .RO, 0x0, 0⟩]⟩,
  ⟨"HINGE_LEAF_DROP_B", 0x8000014, 1, 0x0, 1, 0x0, [⟨"COUNT", 31, 0, .RO, 0x0, 0⟩]⟩,
  ⟨"HINGE_BAR_CTRL", 0x8000020, 1, 0x0, 1, 0x0, [⟨"FIRE", 31, 31, .WS, 0x0, 0⟩, ⟨"CANCEL", 30, 30, .WS, 0x0, 0⟩, ⟨"SRC", 8, 8, .RW, 0x0, 0⟩, ⟨"WIDTH", 7, 0, .RW, 0x19, 0⟩]⟩,
  ⟨"HINGE_BAR_STAT", 0x8000024, 1, 0x0, 1, 0x0, [⟨"REFUSED", 2, 2, .W1C, 0x0, 0⟩, ⟨"PENDING", 1, 1, .RO, 0x0, 0⟩, ⟨"SEEN", 0, 0, .W1C, 0x0, 0⟩]⟩,
  ⟨"HINGE_BAR_CNT", 0x8000028, 1, 0x0, 1, 0x0, [⟨"COUNT", 31, 0, .RO, 0x0, 0⟩]⟩,
  ⟨"HINGE_BOOT_CFG", 0x8000040, 1, 0x0, 1, 0x0, [⟨"SRC_B", 5, 4, .RW, 0, 0⟩, ⟨"SRC_A", 1, 0, .RW, 0, 0⟩]⟩,
  ⟨"HINGE_BOOT_STAT", 0x8000044, 2, 0x4, 1, 0x0, [⟨"PHASE", 31, 28, .RO, 0x0, 0⟩, ⟨"ERR", 23, 16, .RO, 0x0, 0⟩, ⟨"COPY", 9, 8, .RO, 0x3, 0⟩, ⟨"DONE_EV", 0, 0, .W1C, 0x0, 0⟩]⟩,
  ⟨"HINGE_BOOT_TIME", 0x800004C, 2, 0x4, 1, 0x0, [⟨"US", 31, 0, .RO, 0x0, 0⟩]⟩,
  ⟨"HINGE_HBOOT_ADDR_LO", 0x8000058, 1, 0x0, 1, 0x0, [⟨"ADDR", 31, 12, .RW, 0x0, 0⟩]⟩,
  ⟨"HINGE_HBOOT_ADDR_HI", 0x800005C, 1, 0x0, 1, 0x0, [⟨"ADDR", 31, 0, .RW, 0x0, 0⟩]⟩,
  ⟨"HINGE_HBOOT_LEN", 0x8000060, 1, 0x0, 1, 0x0, [⟨"LEN", 25, 0, .RW, 0x0, 0⟩]⟩,
  ⟨"HINGE_HBOOT_CTRL", 0x8000064, 1, 0x0, 1, 0x0, [⟨"GO_B", 1, 1, .WS, 0x0, 0⟩, ⟨"GO_A", 0, 0, .WS, 0x0, 0⟩]⟩,
  ⟨"HINGE_RST_STAT", 0x8000068, 1, 0x0, 1, 0x0, [⟨"CAUSE", 1, 0, .RO, 0x0, 0⟩]⟩]

/-- Registers of the agree block. -/
def agreeRows : List RegRow := [
  ⟨"HINGE_AGREE_CFG", 0x8100000, 1, 0x0, 1, 0x0, [⟨"STAMP_TOL", 31, 16, .RW, 0x3E8, 0⟩, ⟨"PAIR_WIN", 15, 8, .RW, 0x8, 0⟩, ⟨"ACTION", 0, 0, .RW, 0x1, 0⟩]⟩,
  ⟨"HINGE_AGREE_CTRL", 0x8100004, 1, 0x0, 1, 0x0, [⟨"REARM", 0, 0, .WS, 0x0, 0⟩]⟩,
  ⟨"HINGE_AGREE_STAT", 0x8100008, 1, 0x0, 1, 0x0, [⟨"CAUSE", 23, 16, .RO, 0x0, 0⟩, ⟨"SINGLE", 2, 2, .RO, 0x0, 0⟩, ⟨"ACTIVE", 1, 1, .RO, 0x0, 0⟩, ⟨"FAULT", 0, 0, .W1C, 0x0, 0⟩]⟩,
  ⟨"HINGE_AGREE_CNT", 0x810000C, 1, 0x0, 1, 0x0, [⟨"COUNT", 31, 0, .RO, 0x0, 0⟩]⟩,
  ⟨"HINGE_AGREE_TICK_LO", 0x8100010, 1, 0x0, 1, 0x0, [⟨"TICK", 31, 0, .RO, 0x0, 0⟩]⟩,
  ⟨"HINGE_AGREE_TICK_HI", 0x8100014, 1, 0x0, 1, 0x0, [⟨"TICK", 31, 0, .RO, 0x0, 0⟩]⟩,
  ⟨"HINGE_AGREE_STAGE", 0x8100018, 1, 0x0, 1, 0x0, [⟨"KIND", 31, 31, .RO, 0x0, 0⟩, ⟨"INDEX", 15, 0, .RO, 0x0, 0⟩]⟩,
  ⟨"HINGE_AGREE_DIGA_LO", 0x810001C, 1, 0x0, 1, 0x0, [⟨"DIG", 31, 0, .RO, 0x0, 0⟩]⟩,
  ⟨"HINGE_AGREE_DIGA_HI", 0x8100020, 1, 0x0, 1, 0x0, [⟨"DIG", 31, 0, .RO, 0x0, 0⟩]⟩,
  ⟨"HINGE_AGREE_DIGB_LO", 0x8100024, 1, 0x0, 1, 0x0, [⟨"DIG", 31, 0, .RO, 0x0, 0⟩]⟩,
  ⟨"HINGE_AGREE_DIGB_HI", 0x8100028, 1, 0x0, 1, 0x0, [⟨"DIG", 31, 0, .RO, 0x0, 0⟩]⟩]

/-- Registers of the pcie block. -/
def pcieRows : List RegRow := [
  ⟨"HINGE_PCIE_LINK", 0x8300000, 1, 0x0, 1, 0x0, [⟨"SPEED", 31, 28, .RO, 0x0, 0⟩, ⟨"WIDTH", 27, 24, .RO, 0x0, 0⟩, ⟨"LSTATE", 17, 16, .RO, 0x0, 0⟩, ⟨"D_PF1", 9, 8, .RO, 0x0, 0⟩, ⟨"D_PF0", 1, 0, .RO, 0x0, 0⟩]⟩,
  ⟨"HINGE_PCIE_APA_LO", 0x8300010, 1, 0x0, 1, 0x0, [⟨"BASE", 31, 30, .RW, 0x0, 0⟩]⟩,
  ⟨"HINGE_PCIE_APA_HI", 0x8300014, 1, 0x0, 1, 0x0, [⟨"BASE", 31, 0, .RW, 0x0, 0⟩]⟩,
  ⟨"HINGE_PCIE_APB_LO", 0x8300018, 1, 0x0, 1, 0x0, [⟨"BASE", 31, 30, .RW, 0x0, 0⟩]⟩,
  ⟨"HINGE_PCIE_APB_HI", 0x830001C, 1, 0x0, 1, 0x0, [⟨"BASE", 31, 0, .RW, 0x0, 0⟩]⟩,
  ⟨"HINGE_PCIE_WIN", 0x8300020, 1, 0x0, 1, 0x0, [⟨"EN", 15, 0, .RW, 0x0, 0⟩]⟩,
  ⟨"HINGE_PCIE_HELD_CNT", 0x8300024, 1, 0x0, 1, 0x0, [⟨"COUNT", 31, 0, .RO, 0x0, 0⟩]⟩,
  ⟨"HINGE_PCIE_HELD_NOW", 0x8300028, 1, 0x0, 1, 0x0, [⟨"COUNT", 7, 0, .RO, 0x0, 0⟩]⟩,
  ⟨"HINGE_PCIE_WIN_BASE_LO", 0x8300100, 16, 0x10, 1, 0x0, [⟨"BASE", 31, 6, .RW, 0x0, 0⟩]⟩,
  ⟨"HINGE_PCIE_WIN_BASE_HI", 0x8300104, 16, 0x10, 1, 0x0, [⟨"BASE", 31, 0, .RW, 0x0, 0⟩]⟩,
  ⟨"HINGE_PCIE_WIN_LIM_LO", 0x8300108, 16, 0x10, 1, 0x0, [⟨"LIMIT", 31, 6, .RW, 0x0, 0⟩]⟩,
  ⟨"HINGE_PCIE_WIN_LIM_HI", 0x830010C, 16, 0x10, 1, 0x0, [⟨"LIMIT", 31, 0, .RW, 0x0, 0⟩]⟩,
  ⟨"HINGE_PCIE_CQG_COAL", 0x8300200, 16, 0x8, 1, 0x0, [⟨"COUNT", 31, 24, .RW, 0x1, 0⟩, ⟨"TIME_US", 15, 0, .RW, 0x0, 0⟩]⟩,
  ⟨"HINGE_PCIE_CQG_STAT", 0x8300204, 16, 0x8, 1, 0x0, [⟨"HELD", 31, 31, .RO, 0x0, 0⟩, ⟨"ACC", 7, 0, .RO, 0x0, 0⟩]⟩]

/-- Registers of the viol block. -/
def violRows : List RegRow := [
  ⟨"HINGE_VIOL_ADDR_LO", 0x8400000, 1, 0x0, 1, 0x0, [⟨"ADDR", 31, 0, .RO, 0x0, 0⟩]⟩,
  ⟨"HINGE_VIOL_ADDR_HI", 0x8400004, 1, 0x0, 1, 0x0, [⟨"ADDR", 31, 0, .RO, 0x0, 0⟩]⟩,
  ⟨"HINGE_VIOL_SRC", 0x8400008, 1, 0x0, 1, 0x0, [⟨"RID", 15, 0, .RO, 0x0, 0⟩]⟩,
  ⟨"HINGE_VIOL_STAT", 0x840000C, 1, 0x0, 1, 0x0, [⟨"VALID", 31, 31, .W1C, 0x0, 0⟩, ⟨"CAUSE", 23, 16, .RO, 0x0, 0⟩, ⟨"FUNC", 8, 8, .RO, 0x0, 0⟩, ⟨"WRITE", 4, 4, .RO, 0x0, 0⟩, ⟨"WINDOW", 3, 0, .RO, 0x0, 0⟩]⟩,
  ⟨"HINGE_VIOL_CNT", 0x8400010, 1, 0x0, 1, 0x0, [⟨"COUNT", 31, 0, .RO, 0x0, 0⟩]⟩]

/-- The rows of the block an address lies in (Tables 1.7 and 1.8); addresses above 0x0800_0000 are the hinge's. -/
def blockRows (a : Nat) : List RegRow :=
  match a / 0x100000 with
  | 0x0 => leafRows
  | 0x1 => tickRows
  | 0x2 => timeRows
  | 0x3 => swRows
  | 0x4 => irqRows
  | 0x5 => pwrRows
  | 0x6 => memRows
  | 0x7 => snsRows
  | 0x8 => filtRows
  | 0x9 => egoRows
  | 0xA => visRows
  | 0xB => fusRows
  | 0xC => specRows
  | 0xD => mapRows
  | 0xE => srchRows
  | 0xF => solvRows
  | 0x10 => paneRows
  | 0x11 => paneRows
  | 0x12 => paneRows
  | 0x13 => paneRows
  | 0x18 => cntRows
  | 0x1C => fltRows
  | 0x80 => hingeRows
  | 0x81 => agreeRows
  | 0x83 => pcieRows
  | 0x84 => violRows
  | _ => []

end Sys2Proof.Machine
end

