-- ==== Sys2Proof/Machine/RegNames.lean ====
section
/-!
DEFINITION. The spec's register names as addresses (namespace Reg) and its REGISTER.FIELD names as field references
(namespace Fld), from the same register tables as RegTable.lean (R8, R40, R41, R80, R81, R106, R135, R161, R190, R221,
R243, R267, R268, R300, R328, R346, R366, R394, R424, R441, R442, R469, R486, R487, R507, R508, R523, R524, R542).
-/
namespace Sys2Proof.Machine

namespace Reg

abbrev LEAF_ID : Nat := 0x0
abbrev LEAF_UID_LO : Nat := 0x4
abbrev LEAF_UID_HI : Nat := 0x8
abbrev LEAF_FW_VER : Nat := 0xC
abbrev LEAF_STATUS : Nat := 0x10
abbrev LEAF_GLZ_ADDR_LO : Nat := 0x100
abbrev LEAF_GLZ_ADDR_HI : Nat := 0x104
abbrev LEAF_GLZ_LEN : Nat := 0x108
abbrev LEAF_GLZ_BIND_LO : Nat := 0x10C
abbrev LEAF_GLZ_BIND_HI : Nat := 0x110
abbrev LEAF_GLZ_BIND_CNT : Nat := 0x114
abbrev LEAF_GLZ_TARGET_LO : Nat := 0x118
abbrev LEAF_GLZ_TARGET_HI : Nat := 0x11C
abbrev LEAF_GLZ_CMD : Nat := 0x120
abbrev LEAF_GLZ_STAT : Nat := 0x124
abbrev LEAF_GLZ_FAILPOS : Nat := 0x128
abbrev LEAF_GLZ_INFO : Nat := 0x12C
abbrev LEAF_GLZ_HASH (i : Nat) : Nat := 0x130 + 0x4 * i
abbrev LEAF_GLZ_UHASH (i : Nat) : Nat := 0x150 + 0x4 * i
abbrev LEAF_GLZ_BUILD_LO : Nat := 0x170
abbrev LEAF_GLZ_BUILD_HI : Nat := 0x174
abbrev LEAF_GLZ_KCTL : Nat := 0x180
abbrev LEAF_GLZ_KUNLOCK : Nat := 0x184
abbrev LEAF_GLZ_KPROG (i : Nat) : Nat := 0x190 + 0x4 * i
abbrev LEAF_GLZ_KHASH0 (i : Nat) : Nat := 0x1C0 + 0x4 * i
abbrev LEAF_GLZ_KHASH1 (i : Nat) : Nat := 0x1E0 + 0x4 * i
abbrev LEAF_PMAP (i : Nat) : Nat := 0x200 + 0x4 * i
abbrev LEAF_FWU_SRC_LO : Nat := 0x300
abbrev LEAF_FWU_SRC_HI : Nat := 0x304
abbrev LEAF_FWU_LEN : Nat := 0x308
abbrev LEAF_FWU_CTRL : Nat := 0x30C
abbrev LEAF_FWU_STAT : Nat := 0x310
abbrev LEAF_SEED_LO : Nat := 0x400
abbrev LEAF_SEED_HI : Nat := 0x404
abbrev LEAF_RNG_OBJ : Nat := 0x408
abbrev LEAF_RNG_CIDX : Nat := 0x40C
abbrev LEAF_RNG_CVAL_LO : Nat := 0x410
abbrev LEAF_RNG_CVAL_HI : Nat := 0x414
abbrev LEAF_DIG_BASE_LO : Nat := 0x420
abbrev LEAF_DIG_BASE_HI : Nat := 0x424
abbrev LEAF_DIG_SIZE : Nat := 0x428
abbrev LEAF_DIG_WR : Nat := 0x42C
abbrev LEAF_DIG_RD : Nat := 0x430
abbrev LEAF_DIG_DROP : Nat := 0x434
abbrev LEAF_DET_STAT : Nat := 0x438
abbrev LEAF_PIPE_CQ (i : Nat) : Nat := 0xE00 + 0x4 * i
abbrev LEAF_CQ_HOLD : Nat := 0xF00
abbrev LEAF_CQ_HOLD_DROP : Nat := 0xF04
abbrev LEAF_Q_SQB_LO (i : Nat) : Nat := 0x1000 + 0x20 * i
abbrev LEAF_Q_SQB_HI (i : Nat) : Nat := 0x1004 + 0x20 * i
abbrev LEAF_Q_CQB_LO (i : Nat) : Nat := 0x1008 + 0x20 * i
abbrev LEAF_Q_CQB_HI (i : Nat) : Nat := 0x100C + 0x20 * i
abbrev LEAF_Q_CFG (i : Nat) : Nat := 0x1010 + 0x20 * i
abbrev LEAF_Q_SQDB (i : Nat) : Nat := 0x1014 + 0x20 * i
abbrev LEAF_Q_CQDB (i : Nat) : Nat := 0x1018 + 0x20 * i
abbrev LEAF_Q_STAT (i : Nat) : Nat := 0x101C + 0x20 * i
abbrev TICK_CTRL : Nat := 0x100000
abbrev TICK_CFG : Nat := 0x100004
abbrev TICK_PERIOD : Nat := 0x100008
abbrev TICK_START_LO : Nat := 0x10000C
abbrev TICK_START_HI : Nat := 0x100010
abbrev TICK_STAT : Nat := 0x100014
abbrev TICK_NUM_LO : Nat := 0x100018
abbrev TICK_NUM_HI : Nat := 0x10001C
abbrev TICK_SUBIDX : Nat := 0x100020
abbrev TICK_PTICK : Nat := 0x100024
abbrev TICK_FIXED : Nat := 0x100028
abbrev TICK_BUDGET : Nat := 0x10002C
abbrev TICK_OP : Nat := 0x100030
abbrev TICK_OUT_CFG : Nat := 0x100034
abbrev TICK_BOUND_LAST : Nat := 0x100038
abbrev TICK_BOUND_MAX : Nat := 0x10003C
abbrev TICK_OVR_CNT : Nat := 0x100040
abbrev TICK_RPT_BASE_LO : Nat := 0x100050
abbrev TICK_RPT_BASE_HI : Nat := 0x100054
abbrev TICK_RPT_SIZE : Nat := 0x100058
abbrev TICK_RPT_WR : Nat := 0x10005C
abbrev TICK_RPT_RD : Nat := 0x100060
abbrev TICK_RPT_DROP : Nat := 0x100064
abbrev TICK_PIPE_CFG (i : Nat) : Nat := 0x101000 + 0x10 * i
abbrev TICK_PIPE_STAT (i : Nat) : Nat := 0x101004 + 0x10 * i
abbrev TICK_PIPE_EST (i : Nat) : Nat := 0x101008 + 0x10 * i
abbrev TICK_PIPE_OVR (i : Nat) : Nat := 0x10100C + 0x10 * i
abbrev TIME_CAPTURE : Nat := 0x200000
abbrev TIME_CAP_CNT_LO : Nat := 0x200004
abbrev TIME_CAP_CNT_HI : Nat := 0x200008
abbrev TIME_CAP_VT_LO : Nat := 0x20000C
abbrev TIME_CAP_VT_HI : Nat := 0x200010
abbrev TIME_CAP_VT_FRAC : Nat := 0x200014
abbrev TIME_CAP_D0_LO : Nat := 0x200018
abbrev TIME_CAP_D0_HI : Nat := 0x20001C
abbrev TIME_CAP_D0_FRAC : Nat := 0x200020
abbrev TIME_CAP_D1_LO : Nat := 0x200024
abbrev TIME_CAP_D1_HI : Nat := 0x200028
abbrev TIME_CAP_D1_FRAC : Nat := 0x20002C
abbrev TIME_VT_CTRL : Nat := 0x200040
abbrev TIME_VT_STAT : Nat := 0x200044
abbrev TIME_BRIDGE_LO : Nat := 0x200048
abbrev TIME_BRIDGE_HI : Nat := 0x20004C
abbrev TIME_SWITCH_CNT : Nat := 0x200050
abbrev TIME_D_CFG (i : Nat) : Nat := 0x200100 + 0x80 * i
abbrev TIME_D_RATE_LO (i : Nat) : Nat := 0x200104 + 0x80 * i
abbrev TIME_D_RATE_HI (i : Nat) : Nat := 0x200108 + 0x80 * i
abbrev TIME_D_OFS_LO (i : Nat) : Nat := 0x20010C + 0x80 * i
abbrev TIME_D_OFS_HI (i : Nat) : Nat := 0x200110 + 0x80 * i
abbrev TIME_D_OFS_FRAC (i : Nat) : Nat := 0x200114 + 0x80 * i
abbrev TIME_D_COMMIT (i : Nat) : Nat := 0x200118 + 0x80 * i
abbrev TIME_D_STAT (i : Nat) : Nat := 0x20011C + 0x80 * i
abbrev TIME_D_GATE (i : Nat) : Nat := 0x200120 + 0x80 * i
abbrev TIME_D_TIMEOUT (i : Nat) : Nat := 0x200124 + 0x80 * i
abbrev TIME_D_MEAS_OFS_LO (i : Nat) : Nat := 0x200128 + 0x80 * i
abbrev TIME_D_MEAS_OFS_HI (i : Nat) : Nat := 0x20012C + 0x80 * i
abbrev TIME_D_MEAS_PD (i : Nat) : Nat := 0x200130 + 0x80 * i
abbrev TIME_D_MEAS_RR (i : Nat) : Nat := 0x200134 + 0x80 * i
abbrev TIME_D_MEAS_SEQ (i : Nat) : Nat := 0x200138 + 0x80 * i
abbrev TIME_D_PD_REF (i : Nat) : Nat := 0x20013C + 0x80 * i
abbrev TIME_D_SUSPECT_CNT (i : Nat) : Nat := 0x200140 + 0x80 * i
abbrev TIME_PPS_CFG : Nat := 0x200200
abbrev TIME_PPS_CNT_LO : Nat := 0x200204
abbrev TIME_PPS_CNT_HI : Nat := 0x200208
abbrev TIME_PPS_VT_LO : Nat := 0x20020C
abbrev TIME_PPS_VT_HI : Nat := 0x200210
abbrev TIME_PPS_VT_FRAC : Nat := 0x200214
abbrev TIME_PPS_SEQ : Nat := 0x200218
abbrev TIME_TRIG_CTRL (i : Nat) : Nat := 0x200400 + 0x20 * i
abbrev TIME_TRIG_START_LO (i : Nat) : Nat := 0x200404 + 0x20 * i
abbrev TIME_TRIG_START_HI (i : Nat) : Nat := 0x200408 + 0x20 * i
abbrev TIME_TRIG_START_FRAC (i : Nat) : Nat := 0x20040C + 0x20 * i
abbrev TIME_TRIG_PERIOD (i : Nat) : Nat := 0x200410 + 0x20 * i
abbrev TIME_TRIG_WIDTH (i : Nat) : Nat := 0x200414 + 0x20 * i
abbrev TIME_TRIG_STAT (i : Nat) : Nat := 0x200418 + 0x20 * i
abbrev SW_CTRL : Nat := 0x300000
abbrev SW_FDB_CMD : Nat := 0x300010
abbrev SW_FDB_MAC_LO : Nat := 0x300014
abbrev SW_FDB_MAC_HI : Nat := 0x300018
abbrev SW_FDB_MAC_HI2 : Nat := 0x30001C
abbrev SW_P_CFG (i : Nat) : Nat := 0x301000 + 0x100 * i
abbrev SW_P_ASYM (i : Nat) : Nat := 0x301004 + 0x100 * i
abbrev SW_P_PCP_MAP (i : Nat) : Nat := 0x301008 + 0x100 * i
abbrev SW_P_QBV_CTRL (i : Nat) : Nat := 0x30100C + 0x100 * i
abbrev SW_P_QBV_BASE_LO (i : Nat) : Nat := 0x301010 + 0x100 * i
abbrev SW_P_QBV_BASE_HI (i : Nat) : Nat := 0x301014 + 0x100 * i
abbrev SW_P_QBV_CYCLE (i : Nat) : Nat := 0x301018 + 0x100 * i
abbrev SW_P_QBV_STAT (i : Nat) : Nat := 0x30101C + 0x100 * i
abbrev SW_P_CBS_TC (i j : Nat) : Nat := 0x301040 + 0x100 * i + 0x4 * j
abbrev SW_GCL_STATES (i j : Nat) : Nat := 0x308000 + 0x800 * i + 0x8 * j
abbrev SW_GCL_INTERVAL (i j : Nat) : Nat := 0x308004 + 0x800 * i + 0x8 * j
abbrev SW_QCI (i : Nat) : Nat := 0x30C000 + 0x4 * i
abbrev IRQ_PEND (i : Nat) : Nat := 0x400000 + 0x4 * i
abbrev IRQ_RAW (i : Nat) : Nat := 0x400040 + 0x4 * i
abbrev IRQ_MASK (i : Nat) : Nat := 0x400080 + 0x4 * i
abbrev IRQ_ACT (i : Nat) : Nat := 0x4000C0 + 0x4 * i
abbrev IRQ_EOI : Nat := 0x400100
abbrev IRQ_RPRI : Nat := 0x400104
abbrev IRQ_LOST_SET : Nat := 0x400108
abbrev IRQ_BAD_EOI : Nat := 0x40010C
abbrev IRQ_CFG : Nat := 0x400110
abbrev IRQ_STAT : Nat := 0x400114
abbrev IRQ_MSG_CNT : Nat := 0x400118
abbrev IRQ_TGT (i : Nat) : Nat := 0x400800 + 0x4 * i
abbrev IRQ_VEC_COAL (i : Nat) : Nat := 0x401000 + 0x8 * i
abbrev IRQ_VEC_STAT (i : Nat) : Nat := 0x401004 + 0x8 * i
abbrev PWR_OP : Nat := 0x500000
abbrev PWR_CAP : Nat := 0x500004
abbrev PWR_STAT : Nat := 0x500008
abbrev PWR_THR_EV : Nat := 0x50000C
abbrev PWR_EWIN_LO : Nat := 0x500010
abbrev PWR_EWIN_HI : Nat := 0x500014
abbrev PWR_EUNATT : Nat := 0x500018
abbrev PWR_THR_US_LO (i : Nat) : Nat := 0x500020 + 0x8 * i
abbrev PWR_THR_US_HI (i : Nat) : Nat := 0x500024 + 0x8 * i
abbrev PWR_TEMP_CFG : Nat := 0x500080
abbrev PWR_TJ : Nat := 0x500084
abbrev PWR_TRIP : Nat := 0x500088
abbrev PWR_TSENS (i : Nat) : Nat := 0x5000A0 + 0x4 * i
abbrev PWR_COOL_IN : Nat := 0x5000E0
abbrev PWR_COOL_BUDGET : Nat := 0x5000E4
abbrev PWR_COOL_CFG : Nat := 0x5000E8
abbrev PWR_COOL_STALE : Nat := 0x5000EC
abbrev PWR_SKEW_STAT : Nat := 0x5000F0
abbrev PWR_SKEW_CNT : Nat := 0x5000F4
abbrev PWR_SLEEP_CTRL : Nat := 0x500100
abbrev PWR_SLEEP_CFG : Nat := 0x500104
abbrev PWR_WAKE_AT_LO : Nat := 0x500108
abbrev PWR_WAKE_AT_HI : Nat := 0x50010C
abbrev PWR_SLEEP_STAT : Nat := 0x500110
abbrev PWR_WAKE_CFG : Nat := 0x500114
abbrev PWR_WAKE_PEND : Nat := 0x500118
abbrev MEM_CACHE_BASE_LO : Nat := 0x600000
abbrev MEM_CACHE_BASE_HI : Nat := 0x600004
abbrev MEM_CACHE_SIZE : Nat := 0x600008
abbrev MEM_CACHE_STAT : Nat := 0x60000C
abbrev MEM_DRAM_CFG : Nat := 0x600010
abbrev MEM_FLASH_CFG : Nat := 0x600014
abbrev MEM_STAT : Nat := 0x600018
abbrev MEM_POISON_PIPE_LO : Nat := 0x60001C
abbrev MEM_POISON_PIPE_HI : Nat := 0x600020
abbrev MEM_POISON_CNT : Nat := 0x600024
abbrev MEM_RW_OBJ : Nat := 0x600030
abbrev MEM_RW_SRC_LO : Nat := 0x600034
abbrev MEM_RW_SRC_HI : Nat := 0x600038
abbrev MEM_RW_CTRL : Nat := 0x60003C
abbrev MEM_RW_STAT : Nat := 0x600040
abbrev MEM_ELOG_HEAD : Nat := 0x600050
abbrev MEM_ELOG_TAIL : Nat := 0x600054
abbrev MEM_ELOG_DROP : Nat := 0x600058
abbrev MEM_FLASH_WEAR (i : Nat) : Nat := 0x600060 + 0x4 * i
abbrev MEM_POISON_MAP (i : Nat) : Nat := 0x600100 + 0x4 * i
abbrev MEM_WHALF (i : Nat) : Nat := 0x600300 + 0x4 * i
abbrev MEM_ELOG (i j : Nat) : Nat := 0x601000 + 0x20 * i + 0x4 * j
abbrev SNS_STAT : Nat := 0x700000
abbrev SNS_SRC_CFG (i : Nat) : Nat := 0x701000 + 0x40 * i
abbrev SNS_SRC_WIN (i : Nat) : Nat := 0x701004 + 0x40 * i
abbrev SNS_SRC_LAT (i : Nat) : Nat := 0x701008 + 0x40 * i
abbrev SNS_SRC_STAT (i : Nat) : Nat := 0x70100C + 0x40 * i
abbrev SNS_SRC_TFIELD (i : Nat) : Nat := 0x701010 + 0x40 * i
abbrev SNS_SRC_T0_LO (i : Nat) : Nat := 0x701014 + 0x40 * i
abbrev SNS_SRC_T0_HI (i : Nat) : Nat := 0x701018 + 0x40 * i
abbrev SNS_SRC_C0_LO (i : Nat) : Nat := 0x70101C + 0x40 * i
abbrev SNS_SRC_C0_HI (i : Nat) : Nat := 0x701020 + 0x40 * i
abbrev SNS_SRC_RATE_LO (i : Nat) : Nat := 0x701024 + 0x40 * i
abbrev SNS_SRC_RATE_HI (i : Nat) : Nat := 0x701028 + 0x40 * i
abbrev SNS_LID_CFG (i : Nat) : Nat := 0x703000 + 0x80 * i
abbrev SNS_LID_SRCIP (i : Nat) : Nat := 0x703004 + 0x80 * i
abbrev SNS_LID_LAYOUT (i : Nat) : Nat := 0x703008 + 0x80 * i
abbrev SNS_LID_NPTS (i : Nat) : Nat := 0x70300C + 0x80 * i
abbrev SNS_LID_F (i j : Nat) : Nat := 0x703010 + 0x80 * i + 0x4 * j
abbrev SNS_LID_SCALE (i j : Nat) : Nat := 0x703028 + 0x80 * i + 0x4 * j
abbrev SNS_LID_PT_STEP (i : Nat) : Nat := 0x703034 + 0x80 * i
abbrev SNS_LID_ELEV (i j : Nat) : Nat := 0x703400 + 0x200 * i + 0x4 * j
abbrev SNS_CANE_W0 (i : Nat) : Nat := 0x704800 + 0x10 * i
abbrev SNS_CANE_W1 (i : Nat) : Nat := 0x704804 + 0x10 * i
abbrev SNS_CANE_W2 (i : Nat) : Nat := 0x704808 + 0x10 * i
abbrev SNS_SPI_CFG (i : Nat) : Nat := 0x704C00 + 0x40 * i
abbrev SNS_SPI_CMD (i j : Nat) : Nat := 0x704C04 + 0x40 * i + 0x4 * j
abbrev SNS_SPI_FLD (i j : Nat) : Nat := 0x704C10 + 0x40 * i + 0x4 * j
abbrev SNS_CANC_CFG (i : Nat) : Nat := 0x704C80 + 0x4 * i
abbrev SNS_CAM_CFG (i : Nat) : Nat := 0x705000 + 0x40 * i
abbrev SNS_CAM_SIZE (i : Nat) : Nat := 0x705004 + 0x40 * i
abbrev SNS_CAM_READOUT (i : Nat) : Nat := 0x705008 + 0x40 * i
abbrev SNS_CAM_BUF_LO (i : Nat) : Nat := 0x70500C + 0x40 * i
abbrev SNS_CAM_BUF_HI (i : Nat) : Nat := 0x705010 + 0x40 * i
abbrev SNS_CAM_TRIG (i : Nat) : Nat := 0x705014 + 0x40 * i
abbrev SNS_CAM_TOFS (i : Nat) : Nat := 0x705018 + 0x40 * i
abbrev SNS_CAM_TPER (i : Nat) : Nat := 0x70501C + 0x40 * i
abbrev SNS_CAM_TLEAD (i : Nat) : Nat := 0x705020 + 0x40 * i
abbrev SNS_CAM_STAT (i : Nat) : Nat := 0x705024 + 0x40 * i
abbrev SNS_CAM_I2C (i : Nat) : Nat := 0x705028 + 0x40 * i
abbrev SNS_UART_CFG : Nat := 0x705400
abbrev SNS_UART_FRM : Nat := 0x705404
abbrev SNS_UART_TX : Nat := 0x705408
abbrev FILT_SYNC_CTRL : Nat := 0x800000
abbrev FILT_SYNC_TICK_LO : Nat := 0x800004
abbrev FILT_SYNC_TICK_HI : Nat := 0x800008
abbrev FILT_SYNC_LAST_LO : Nat := 0x80000C
abbrev FILT_SYNC_LAST_HI : Nat := 0x800010
abbrev FILT_SYNC_LAST_FRAC : Nat := 0x800014
abbrev FILT_SYNC_CNT : Nat := 0x800018
abbrev FILT_STAT : Nat := 0x80001C
abbrev FILT_CH_CFG (i : Nat) : Nat := 0x801000 + 0x100 * i
abbrev FILT_CH_MPPROG (i : Nat) : Nat := 0x801004 + 0x100 * i
abbrev FILT_CH_THR_LEVEL (i j : Nat) : Nat := 0x801008 + 0x100 * i + 0x8 * j
abbrev FILT_CH_THR_HYST (i j : Nat) : Nat := 0x80100C + 0x100 * i + 0x8 * j
abbrev FILT_CH_THR_CFG (i : Nat) : Nat := 0x801018 + 0x100 * i
abbrev FILT_CH_STEP (i : Nat) : Nat := 0x80101C + 0x100 * i
abbrev FILT_CH_STAT (i : Nat) : Nat := 0x801020 + 0x100 * i
abbrev FILT_CH_MPOUT (i : Nat) : Nat := 0x801024 + 0x100 * i
abbrev FILT_CH_LPOUT (i : Nat) : Nat := 0x801028 + 0x100 * i
abbrev FILT_CH_COARSE (i : Nat) : Nat := 0x80102C + 0x100 * i
abbrev FILT_CH_SCNT (i : Nat) : Nat := 0x801030 + 0x100 * i
abbrev FILT_CH_SOS_B0 (i j : Nat) : Nat := 0x801040 + 0x100 * i + 0x18 * j
abbrev FILT_CH_SOS_B1 (i j : Nat) : Nat := 0x801044 + 0x100 * i + 0x18 * j
abbrev FILT_CH_SOS_B2 (i j : Nat) : Nat := 0x801048 + 0x100 * i + 0x18 * j
abbrev FILT_CH_SOS_A1 (i j : Nat) : Nat := 0x80104C + 0x100 * i + 0x18 * j
abbrev FILT_CH_SOS_A2 (i j : Nat) : Nat := 0x801050 + 0x100 * i + 0x18 * j
abbrev FILT_CH_SOS_SHIFT (i j : Nat) : Nat := 0x801054 + 0x100 * i + 0x18 * j
abbrev EGO_CTRL : Nat := 0x900000
abbrev EGO_CFG : Nat := 0x900004
abbrev EGO_IMU_CH : Nat := 0x900008
abbrev EGO_WHL_CH : Nat := 0x90000C
abbrev EGO_IMU_PER : Nat := 0x900010
abbrev EGO_WHL_AGE : Nat := 0x900014
abbrev EGO_SLIP : Nat := 0x900018
abbrev EGO_STAT : Nat := 0x90001C
abbrev EGO_GSCALE (i : Nat) : Nat := 0x900020 + 0x4 * i
abbrev EGO_ASCALE (i : Nat) : Nat := 0x900028 + 0x4 * i
abbrev EGO_WSCALE (i j : Nat) : Nat := 0x900030 + 0x8 * i + 0x4 * j
abbrev EGO_LEVER (i j : Nat) : Nat := 0x900050 + 0x8 * i + 0x4 * j
abbrev EGO_GNOISE (i : Nat) : Nat := 0x900068 + 0x4 * i
abbrev EGO_ANOISE (i : Nat) : Nat := 0x900070 + 0x4 * i
abbrev EGO_GWALK (i : Nat) : Nat := 0x900078 + 0x4 * i
abbrev EGO_AWALK (i : Nat) : Nat := 0x900080 + 0x4 * i
abbrev EGO_GRAV_LO : Nat := 0x900088
abbrev EGO_GRAV_HI : Nat := 0x90008C
abbrev EGO_SLIP_CNT : Nat := 0x900090
abbrev EGO_LATE_CNT : Nat := 0x900094
abbrev EGO_NOIMU_CNT : Nat := 0x900098
abbrev EGO_INIT (i j : Nat) : Nat := 0x900100 + 0x8 * i + 0x4 * j
abbrev EGO_INITP (i j : Nat) : Nat := 0x900180 + 0x8 * i + 0x4 * j
abbrev EGO_NOM (i j : Nat) : Nat := 0x900200 + 0x8 * i + 0x4 * j
abbrev EGO_PRED (i j : Nat) : Nat := 0x900280 + 0x8 * i + 0x4 * j
abbrev EGO_PRED_TICK (i : Nat) : Nat := 0x9002B8 + 0x4 * i
abbrev VIS_CLK : Nat := 0xA00000
abbrev VIS_ENG_CTRL (i : Nat) : Nat := 0xA01000 + 0x100 * i
abbrev VIS_ENG_STAT (i : Nat) : Nat := 0xA01004 + 0x100 * i
abbrev VIS_ENG_ARMED (i : Nat) : Nat := 0xA01008 + 0x100 * i
abbrev VIS_ENG_DONE (i : Nat) : Nat := 0xA0100C + 0x100 * i
abbrev VIS_ENG_LASTJ (i : Nat) : Nat := 0xA01010 + 0x100 * i
abbrev VIS_ENG_SKIP (i : Nat) : Nat := 0xA01014 + 0x100 * i
abbrev VIS_ENG_ERRCNT (i : Nat) : Nat := 0xA01018 + 0x100 * i
abbrev VIS_ENG_CUT (i : Nat) : Nat := 0xA0101C + 0x100 * i
abbrev FUS_DS_CFG : Nat := 0xB00000
abbrev FUS_DS_DR : Nat := 0xB00004
abbrev FUS_DS_CTRL : Nat := 0xB00008
abbrev FUS_DS_STAT : Nat := 0xB0000C
abbrev FUS_DS_DRLEFT : Nat := 0xB00010
abbrev FUS_MON (i : Nat) : Nat := 0xB00020 + 0x4 * i
abbrev FUS_LOST (i : Nat) : Nat := 0xB00030 + 0x4 * i
abbrev FUS_DEMOTE (i : Nat) : Nat := 0xB00040 + 0x4 * i
abbrev FUS_DEMOTE_CFG : Nat := 0xB00050
abbrev FUS_GRID_CFG : Nat := 0xB00054
abbrev FUS_GRID_STAT : Nat := 0xB00058
abbrev FUS_THRACT (i : Nat) : Nat := 0xB00060 + 0x4 * i
abbrev FUS_TRK_NEXT : Nat := 0xB00080
abbrev FUS_TRK_STAT : Nat := 0xB00084
abbrev FUS_TRK_CFG : Nat := 0xB00088
abbrev FUS_TRK_FULL : Nat := 0xB0008C
abbrev FUS_CAL_EN : Nat := 0xB00100
abbrev FUS_CAL_TR : Nat := 0xB00104
abbrev FUS_CAL_TRC : Nat := 0xB00108
abbrev FUS_CAL_TRI : Nat := 0xB0010C
abbrev FUS_CAL_STAT : Nat := 0xB00110
abbrev FUS_CAL_APPLIED : Nat := 0xB00114
abbrev FUS_CAL_REJECTED : Nat := 0xB00118
abbrev FUS_CAL_RING_BASE_LO : Nat := 0xB00120
abbrev FUS_CAL_RING_BASE_HI : Nat := 0xB00124
abbrev FUS_CAL_RING_SIZE : Nat := 0xB00128
abbrev FUS_CAL_RING_WR : Nat := 0xB0012C
abbrev FUS_CAL_RING_RD : Nat := 0xB00130
abbrev FUS_CAL_RING_DROP : Nat := 0xB00134
abbrev FUS_TBL_CMD : Nat := 0xB00140
abbrev FUS_SEN (i j : Nat) : Nat := 0xB01000 + 0x80 * i + 0x4 * j
abbrev FUS_LIVE (i j : Nat) : Nat := 0xB02000 + 0x80 * i + 0x4 * j
abbrev SPEC_CTRL : Nat := 0xC00000
abbrev SPEC_CFG : Nat := 0xC00004
abbrev SPEC_GATE_POS : Nat := 0xC00008
abbrev SPEC_GATE_YAW : Nat := 0xC0000C
abbrev SPEC_STAT : Nat := 0xC00010
abbrev SPEC_DEC_TICK_LO : Nat := 0xC00014
abbrev SPEC_DEC_TICK_HI : Nat := 0xC00018
abbrev SPEC_LAST_DPOS : Nat := 0xC0001C
abbrev SPEC_LAST_DYAW : Nat := 0xC00020
abbrev SPEC_CONFIRM_CNT : Nat := 0xC00024
abbrev SPEC_SQUASH_CNT : Nat := 0xC00028
abbrev MAP_OBJ0 : Nat := 0xD00000
abbrev MAP_OBJ1 : Nat := 0xD00004
abbrev MAP_OBJ2 : Nat := 0xD00008
abbrev MAP_LMK_CFG : Nat := 0xD00010
abbrev MAP_LOOP_CFG : Nat := 0xD00014
abbrev MAP_LOOP_THR : Nat := 0xD00018
abbrev MAP_LOOP_STREAM : Nat := 0xD0001C
abbrev MAP_LOOP_INFO_T : Nat := 0xD00020
abbrev MAP_LOOP_INFO_R : Nat := 0xD00024
abbrev MAP_ODO_INFO_T : Nat := 0xD00028
abbrev MAP_ODO_INFO_R : Nat := 0xD0002C
abbrev MAP_STAT : Nat := 0xD00040
abbrev MAP_LMK_VALID : Nat := 0xD00044
abbrev MAP_KF_NEXT : Nat := 0xD00048
abbrev MAP_KF_COUNT : Nat := 0xD0004C
abbrev MAP_GRAPH_NODES : Nat := 0xD00050
abbrev MAP_GRAPH_EDGES : Nat := 0xD00054
abbrev MAP_UPD_APPLIED : Nat := 0xD00058
abbrev MAP_UPD_DROPPED : Nat := 0xD0005C
abbrev MAP_UPD_SKIP : Nat := 0xD00060
abbrev MAP_LMK_FULL : Nat := 0xD00064
abbrev MAP_LOOP_ACCEPT : Nat := 0xD00068
abbrev MAP_LOOP_REJECT : Nat := 0xD0006C
abbrev MAP_LOOP_CUT : Nat := 0xD00070
abbrev MAP_RELOC_NODE : Nat := 0xD00074
abbrev MAP_RELOC_TICK_LO : Nat := 0xD00078
abbrev MAP_RELOC_TICK_HI : Nat := 0xD0007C
abbrev MAP_LMK_RD_IDX : Nat := 0xD00080
abbrev MAP_LMK_RD_DATA (i : Nat) : Nat := 0xD00084 + 0x4 * i
abbrev SRCH_STAT : Nat := 0xE00000
abbrev SRCH_CTX_FREE : Nat := 0xE00004
abbrev SRCH_BADCW_CNT : Nat := 0xE00008
abbrev SRCH_SIDE_CMD : Nat := 0xE00040
abbrev SRCH_SIDE_SRC_LO : Nat := 0xE00044
abbrev SRCH_SIDE_SRC_HI : Nat := 0xE00048
abbrev SRCH_SIDE_ID_LO : Nat := 0xE0004C
abbrev SRCH_SIDE_ID_HI : Nat := 0xE00050
abbrev SRCH_SIDE_STAT : Nat := 0xE00054
abbrev SRCH_MRG_CTRL : Nat := 0xE00060
abbrev SRCH_MRG_HDR_LO : Nat := 0xE00064
abbrev SRCH_MRG_HDR_HI : Nat := 0xE00068
abbrev SRCH_MRG_NODE_LO : Nat := 0xE0006C
abbrev SRCH_MRG_NODE_HI : Nat := 0xE00070
abbrev SRCH_MRG_DESC_LO : Nat := 0xE00074
abbrev SRCH_MRG_DESC_HI : Nat := 0xE00078
abbrev SRCH_MRG_CFG : Nat := 0xE0007C
abbrev SRCH_MRG_STAT : Nat := 0xE00080
abbrev SRCH_MRG_PROG : Nat := 0xE00084
abbrev SRCH_MRG_SEQ_LO : Nat := 0xE00088
abbrev SRCH_MRG_SEQ_HI : Nat := 0xE0008C
abbrev SRCH_FW_SRC_LO : Nat := 0xE000A0
abbrev SRCH_FW_SRC_HI : Nat := 0xE000A4
abbrev SRCH_FW_DST_LO : Nat := 0xE000A8
abbrev SRCH_FW_DST_HI : Nat := 0xE000AC
abbrev SRCH_FW_LEN : Nat := 0xE000B0
abbrev SRCH_FW_CTRL : Nat := 0xE000B4
abbrev SRCH_FW_STAT : Nat := 0xE000B8
abbrev SRCH_ENG (i : Nat) : Nat := 0xE00100 + 0x4 * i
abbrev SRCH_IDX_HDR_LO (i : Nat) : Nat := 0xE01000 + 0x100 * i
abbrev SRCH_IDX_HDR_HI (i : Nat) : Nat := 0xE01004 + 0x100 * i
abbrev SRCH_IDX_SIDE_LO (i : Nat) : Nat := 0xE01008 + 0x100 * i
abbrev SRCH_IDX_SIDE_HI (i : Nat) : Nat := 0xE0100C + 0x100 * i
abbrev SRCH_IDX_CTRL (i : Nat) : Nat := 0xE01010 + 0x100 * i
abbrev SRCH_IDX_STAT (i : Nat) : Nat := 0xE01014 + 0x100 * i
abbrev SRCH_IDX_N_LO (i : Nat) : Nat := 0xE01018 + 0x100 * i
abbrev SRCH_IDX_N_HI (i : Nat) : Nat := 0xE0101C + 0x100 * i
abbrev SRCH_IDX_SEQ_LO (i : Nat) : Nat := 0xE01020 + 0x100 * i
abbrev SRCH_IDX_SEQ_HI (i : Nat) : Nat := 0xE01024 + 0x100 * i
abbrev SRCH_IDX_NEXT_LO (i : Nat) : Nat := 0xE01028 + 0x100 * i
abbrev SRCH_IDX_NEXT_HI (i : Nat) : Nat := 0xE0102C + 0x100 * i
abbrev SRCH_IDX_SIDE_CNT (i : Nat) : Nat := 0xE01030 + 0x100 * i
abbrev SRCH_IDX_ACTIVE (i : Nat) : Nat := 0xE01034 + 0x100 * i
abbrev SRCH_QSRC_CFG (i : Nat) : Nat := 0xE02000 + 0x40 * i
abbrev SRCH_QSRC_RES (i : Nat) : Nat := 0xE02004 + 0x40 * i
abbrev SOLV_CFG : Nat := 0xF00000
abbrev SOLV_CTRL : Nat := 0xF00004
abbrev SOLV_STAT : Nat := 0xF00008
abbrev SOLV_CLK : Nat := 0xF0000C
abbrev SOLV_SCRATCH : Nat := 0xF00010
abbrev SOLV_ASG_STAT : Nat := 0xF00040
abbrev SOLV_ASG_LAST : Nat := 0xF00044
abbrev SOLV_JOB_STAT (i : Nat) : Nat := 0xF00100 + 0x20 * i
abbrev SOLV_JOB_CLAMP (i : Nat) : Nat := 0xF00104 + 0x20 * i
abbrev SOLV_JOB_LAST (i : Nat) : Nat := 0xF00108 + 0x20 * i
abbrev SOLV_JOB_SHIFT (i : Nat) : Nat := 0xF0010C + 0x20 * i
abbrev SOLV_JOB_NONFIN (i : Nat) : Nat := 0xF00110 + 0x20 * i
abbrev SOLV_JOB_COST (i : Nat) : Nat := 0xF00114 + 0x20 * i
abbrev PANE_ID (i : Nat) : Nat := 0x1000000 + 0x10000 * i
abbrev PANE_STATE (i : Nat) : Nat := 0x1000004 + 0x10000 * i
abbrev PANE_SRAM (i : Nat) : Nat := 0x1000008 + 0x10000 * i
abbrev PANE_SSTAT (i j : Nat) : Nat := 0x1000100 + 0x10000 * i + 0x10 * j
abbrev PANE_SFIRE (i j : Nat) : Nat := 0x1000104 + 0x10000 * i + 0x10 * j
abbrev PANE_SWTOK (i j : Nat) : Nat := 0x1000108 + 0x10000 * i + 0x10 * j
abbrev PANE_SWCRD (i j : Nat) : Nat := 0x100010C + 0x10000 * i + 0x10 * j
abbrev PANE_LINK (i j : Nat) : Nat := 0x1000400 + 0x10000 * i + 0x4 * j
abbrev PANE_ASLOT (i j : Nat) : Nat := 0x1000800 + 0x10000 * i + 0x8 * j
abbrev PANE_ASTAT (i j : Nat) : Nat := 0x1000804 + 0x10000 * i + 0x8 * j
abbrev CNT_CTRL : Nat := 0x1800000
abbrev CNT_EPOCH : Nat := 0x1800004
abbrev CNT_STAT : Nat := 0x1800008
abbrev CNT_CLASS (i : Nat) : Nat := 0x1800100 + 0x4 * i
abbrev FLT_STAT : Nat := 0x1C00000
abbrev FLT_CTRL : Nat := 0x1C00004
abbrev FLT_CFG : Nat := 0x1C00008
abbrev FLT_WDT : Nat := 0x1C0000C
abbrev FLT_INJ_KEY : Nat := 0x1C00010
abbrev FLT_INJ : Nat := 0x1C00014
abbrev FLT_LOG_HEAD : Nat := 0x1C00020
abbrev FLT_LOG_TAIL : Nat := 0x1C00024
abbrev FLT_LOG_DROP : Nat := 0x1C00028
abbrev FLT_LIFE_OVER : Nat := 0x1C0002C
abbrev FLT_PREV (i : Nat) : Nat := 0x1C00040 + 0x4 * i
abbrev FLT_LIFE_LO (i : Nat) : Nat := 0x1C00100 + 0x8 * i
abbrev FLT_LIFE_HI (i : Nat) : Nat := 0x1C00104 + 0x8 * i
abbrev FLT_LOG (i j : Nat) : Nat := 0x1C01000 + 0x20 * i + 0x4 * j
abbrev HINGE_ID : Nat := 0x8000000
abbrev HINGE_MODE : Nat := 0x8000004
abbrev HINGE_LEAF_CTRL : Nat := 0x8000008
abbrev HINGE_LEAF_STAT : Nat := 0x800000C
abbrev HINGE_LEAF_DROP_A : Nat := 0x8000010
abbrev HINGE_LEAF_DROP_B : Nat := 0x8000014
abbrev HINGE_BAR_CTRL : Nat := 0x8000020
abbrev HINGE_BAR_STAT : Nat := 0x8000024
abbrev HINGE_BAR_CNT : Nat := 0x8000028
abbrev HINGE_BOOT_CFG : Nat := 0x8000040
abbrev HINGE_BOOT_STAT (i : Nat) : Nat := 0x8000044 + 0x4 * i
abbrev HINGE_BOOT_TIME (i : Nat) : Nat := 0x800004C + 0x4 * i
abbrev HINGE_HBOOT_ADDR_LO : Nat := 0x8000058
abbrev HINGE_HBOOT_ADDR_HI : Nat := 0x800005C
abbrev HINGE_HBOOT_LEN : Nat := 0x8000060
abbrev HINGE_HBOOT_CTRL : Nat := 0x8000064
abbrev HINGE_RST_STAT : Nat := 0x8000068
abbrev HINGE_AGREE_CFG : Nat := 0x8100000
abbrev HINGE_AGREE_CTRL : Nat := 0x8100004
abbrev HINGE_AGREE_STAT : Nat := 0x8100008
abbrev HINGE_AGREE_CNT : Nat := 0x810000C
abbrev HINGE_AGREE_TICK_LO : Nat := 0x8100010
abbrev HINGE_AGREE_TICK_HI : Nat := 0x8100014
abbrev HINGE_AGREE_STAGE : Nat := 0x8100018
abbrev HINGE_AGREE_DIGA_LO : Nat := 0x810001C
abbrev HINGE_AGREE_DIGA_HI : Nat := 0x8100020
abbrev HINGE_AGREE_DIGB_LO : Nat := 0x8100024
abbrev HINGE_AGREE_DIGB_HI : Nat := 0x8100028
abbrev HINGE_PCIE_LINK : Nat := 0x8300000
abbrev HINGE_PCIE_APA_LO : Nat := 0x8300010
abbrev HINGE_PCIE_APA_HI : Nat := 0x8300014
abbrev HINGE_PCIE_APB_LO : Nat := 0x8300018
abbrev HINGE_PCIE_APB_HI : Nat := 0x830001C
abbrev HINGE_PCIE_WIN : Nat := 0x8300020
abbrev HINGE_PCIE_HELD_CNT : Nat := 0x8300024
abbrev HINGE_PCIE_HELD_NOW : Nat := 0x8300028
abbrev HINGE_PCIE_WIN_BASE_LO (i : Nat) : Nat := 0x8300100 + 0x10 * i
abbrev HINGE_PCIE_WIN_BASE_HI (i : Nat) : Nat := 0x8300104 + 0x10 * i
abbrev HINGE_PCIE_WIN_LIM_LO (i : Nat) : Nat := 0x8300108 + 0x10 * i
abbrev HINGE_PCIE_WIN_LIM_HI (i : Nat) : Nat := 0x830010C + 0x10 * i
abbrev HINGE_PCIE_CQG_COAL (i : Nat) : Nat := 0x8300200 + 0x8 * i
abbrev HINGE_PCIE_CQG_STAT (i : Nat) : Nat := 0x8300204 + 0x8 * i
abbrev HINGE_VIOL_ADDR_LO : Nat := 0x8400000
abbrev HINGE_VIOL_ADDR_HI : Nat := 0x8400004
abbrev HINGE_VIOL_SRC : Nat := 0x8400008
abbrev HINGE_VIOL_STAT : Nat := 0x840000C
abbrev HINGE_VIOL_CNT : Nat := 0x8400010

end Reg

namespace Fld

abbrev LEAF_ID_FAMILY : FieldRef := ⟨Reg.LEAF_ID, 31, 24⟩
abbrev LEAF_ID_STEP_LETTER : FieldRef := ⟨Reg.LEAF_ID, 23, 16⟩
abbrev LEAF_ID_STEP_DIGIT : FieldRef := ⟨Reg.LEAF_ID, 15, 12⟩
abbrev LEAF_ID_PANES : FieldRef := ⟨Reg.LEAF_ID, 7, 1⟩
abbrev LEAF_ID_LEAF : FieldRef := ⟨Reg.LEAF_ID, 0, 0⟩
abbrev LEAF_UID_LO_UID : FieldRef := ⟨Reg.LEAF_UID_LO, 31, 0⟩
abbrev LEAF_UID_HI_UID : FieldRef := ⟨Reg.LEAF_UID_HI, 31, 0⟩
abbrev LEAF_FW_VER_MAJOR : FieldRef := ⟨Reg.LEAF_FW_VER, 31, 24⟩
abbrev LEAF_FW_VER_MINOR : FieldRef := ⟨Reg.LEAF_FW_VER, 23, 16⟩
abbrev LEAF_FW_VER_BUILD : FieldRef := ⟨Reg.LEAF_FW_VER, 15, 0⟩
abbrev LEAF_STATUS_WAIT_MODE : FieldRef := ⟨Reg.LEAF_STATUS, 15, 15⟩
abbrev LEAF_STATUS_MIRROR : FieldRef := ⟨Reg.LEAF_STATUS, 14, 14⟩
abbrev LEAF_STATUS_STATE : FieldRef := ⟨Reg.LEAF_STATUS, 3, 0⟩
abbrev LEAF_GLZ_ADDR_LO_ADDR : FieldRef := ⟨Reg.LEAF_GLZ_ADDR_LO, 31, 6⟩
abbrev LEAF_GLZ_ADDR_HI_ADDR : FieldRef := ⟨Reg.LEAF_GLZ_ADDR_HI, 31, 0⟩
abbrev LEAF_GLZ_LEN_LEN : FieldRef := ⟨Reg.LEAF_GLZ_LEN, 26, 0⟩
abbrev LEAF_GLZ_BIND_LO_ADDR : FieldRef := ⟨Reg.LEAF_GLZ_BIND_LO, 31, 3⟩
abbrev LEAF_GLZ_BIND_HI_ADDR : FieldRef := ⟨Reg.LEAF_GLZ_BIND_HI, 31, 0⟩
abbrev LEAF_GLZ_BIND_CNT_CNT : FieldRef := ⟨Reg.LEAF_GLZ_BIND_CNT, 12, 0⟩
abbrev LEAF_GLZ_TARGET_LO_TICK : FieldRef := ⟨Reg.LEAF_GLZ_TARGET_LO, 31, 0⟩
abbrev LEAF_GLZ_TARGET_HI_TICK : FieldRef := ⟨Reg.LEAF_GLZ_TARGET_HI, 31, 0⟩
abbrev LEAF_GLZ_CMD_LOAD : FieldRef := ⟨Reg.LEAF_GLZ_CMD, 31, 31⟩
abbrev LEAF_GLZ_CMD_UPDATE : FieldRef := ⟨Reg.LEAF_GLZ_CMD, 30, 30⟩
abbrev LEAF_GLZ_CMD_CANCEL : FieldRef := ⟨Reg.LEAF_GLZ_CMD, 29, 29⟩
abbrev LEAF_GLZ_STAT_BUSY : FieldRef := ⟨Reg.LEAF_GLZ_STAT, 31, 31⟩
abbrev LEAF_GLZ_STAT_PENDING : FieldRef := ⟨Reg.LEAF_GLZ_STAT, 30, 30⟩
abbrev LEAF_GLZ_STAT_DONE : FieldRef := ⟨Reg.LEAF_GLZ_STAT, 29, 29⟩
abbrev LEAF_GLZ_STAT_LAST_UPD : FieldRef := ⟨Reg.LEAF_GLZ_STAT, 28, 28⟩
abbrev LEAF_GLZ_STAT_CMD_REFUSED : FieldRef := ⟨Reg.LEAF_GLZ_STAT, 27, 27⟩
abbrev LEAF_GLZ_STAT_STATUS : FieldRef := ⟨Reg.LEAF_GLZ_STAT, 23, 16⟩
abbrev LEAF_GLZ_STAT_DETAIL : FieldRef := ⟨Reg.LEAF_GLZ_STAT, 15, 8⟩
abbrev LEAF_GLZ_FAILPOS_POS : FieldRef := ⟨Reg.LEAF_GLZ_FAILPOS, 31, 0⟩
abbrev LEAF_GLZ_INFO_NPIPE : FieldRef := ⟨Reg.LEAF_GLZ_INFO, 15, 8⟩
abbrev LEAF_GLZ_INFO_L : FieldRef := ⟨Reg.LEAF_GLZ_INFO, 6, 0⟩
abbrev LEAF_GLZ_HASH_HASH (i : Nat) : FieldRef := ⟨Reg.LEAF_GLZ_HASH i, 31, 0⟩
abbrev LEAF_GLZ_UHASH_HASH (i : Nat) : FieldRef := ⟨Reg.LEAF_GLZ_UHASH i, 31, 0⟩
abbrev LEAF_GLZ_BUILD_LO_ID : FieldRef := ⟨Reg.LEAF_GLZ_BUILD_LO, 31, 0⟩
abbrev LEAF_GLZ_BUILD_HI_ID : FieldRef := ⟨Reg.LEAF_GLZ_BUILD_HI, 31, 0⟩
abbrev LEAF_GLZ_KCTL_PROG1 : FieldRef := ⟨Reg.LEAF_GLZ_KCTL, 31, 31⟩
abbrev LEAF_GLZ_KCTL_REVOKE1 : FieldRef := ⟨Reg.LEAF_GLZ_KCTL, 30, 30⟩
abbrev LEAF_GLZ_KCTL_REVOKE0 : FieldRef := ⟨Reg.LEAF_GLZ_KCTL, 29, 29⟩
abbrev LEAF_GLZ_KCTL_KEY_REFUSED : FieldRef := ⟨Reg.LEAF_GLZ_KCTL, 8, 8⟩
abbrev LEAF_GLZ_KCTL_FUSE_BUSY : FieldRef := ⟨Reg.LEAF_GLZ_KCTL, 7, 7⟩
abbrev LEAF_GLZ_KCTL_REVOKED1 : FieldRef := ⟨Reg.LEAF_GLZ_KCTL, 3, 3⟩
abbrev LEAF_GLZ_KCTL_REVOKED0 : FieldRef := ⟨Reg.LEAF_GLZ_KCTL, 2, 2⟩
abbrev LEAF_GLZ_KCTL_PRESENT1 : FieldRef := ⟨Reg.LEAF_GLZ_KCTL, 1, 1⟩
abbrev LEAF_GLZ_KCTL_PRESENT0 : FieldRef := ⟨Reg.LEAF_GLZ_KCTL, 0, 0⟩
abbrev LEAF_GLZ_KUNLOCK_KEY : FieldRef := ⟨Reg.LEAF_GLZ_KUNLOCK, 31, 0⟩
abbrev LEAF_GLZ_KPROG_HASH (i : Nat) : FieldRef := ⟨Reg.LEAF_GLZ_KPROG i, 31, 0⟩
abbrev LEAF_GLZ_KHASH0_HASH (i : Nat) : FieldRef := ⟨Reg.LEAF_GLZ_KHASH0 i, 31, 0⟩
abbrev LEAF_GLZ_KHASH1_HASH (i : Nat) : FieldRef := ⟨Reg.LEAF_GLZ_KHASH1 i, 31, 0⟩
abbrev LEAF_PMAP_MAP (i : Nat) : FieldRef := ⟨Reg.LEAF_PMAP i, 31, 0⟩
abbrev LEAF_FWU_SRC_LO_SRC : FieldRef := ⟨Reg.LEAF_FWU_SRC_LO, 31, 6⟩
abbrev LEAF_FWU_SRC_HI_SRC : FieldRef := ⟨Reg.LEAF_FWU_SRC_HI, 31, 0⟩
abbrev LEAF_FWU_LEN_LEN : FieldRef := ⟨Reg.LEAF_FWU_LEN, 25, 0⟩
abbrev LEAF_FWU_CTRL_GO : FieldRef := ⟨Reg.LEAF_FWU_CTRL, 31, 31⟩
abbrev LEAF_FWU_CTRL_COPY : FieldRef := ⟨Reg.LEAF_FWU_CTRL, 0, 0⟩
abbrev LEAF_FWU_STAT_BUSY : FieldRef := ⟨Reg.LEAF_FWU_STAT, 31, 31⟩
abbrev LEAF_FWU_STAT_DONE : FieldRef := ⟨Reg.LEAF_FWU_STAT, 30, 30⟩
abbrev LEAF_FWU_STAT_STATUS : FieldRef := ⟨Reg.LEAF_FWU_STAT, 23, 16⟩
abbrev LEAF_SEED_LO_SEED : FieldRef := ⟨Reg.LEAF_SEED_LO, 31, 0⟩
abbrev LEAF_SEED_HI_SEED : FieldRef := ⟨Reg.LEAF_SEED_HI, 31, 0⟩
abbrev LEAF_RNG_OBJ_OBJ : FieldRef := ⟨Reg.LEAF_RNG_OBJ, 11, 0⟩
abbrev LEAF_RNG_CIDX_GO_RD : FieldRef := ⟨Reg.LEAF_RNG_CIDX, 31, 31⟩
abbrev LEAF_RNG_CIDX_GO_WR : FieldRef := ⟨Reg.LEAF_RNG_CIDX, 30, 30⟩
abbrev LEAF_RNG_CIDX_STAGE : FieldRef := ⟨Reg.LEAF_RNG_CIDX, 15, 0⟩
abbrev LEAF_RNG_CVAL_LO_CTR : FieldRef := ⟨Reg.LEAF_RNG_CVAL_LO, 31, 0⟩
abbrev LEAF_RNG_CVAL_HI_CTR : FieldRef := ⟨Reg.LEAF_RNG_CVAL_HI, 31, 0⟩
abbrev LEAF_DIG_BASE_LO_BASE : FieldRef := ⟨Reg.LEAF_DIG_BASE_LO, 31, 6⟩
abbrev LEAF_DIG_BASE_HI_BASE : FieldRef := ⟨Reg.LEAF_DIG_BASE_HI, 31, 0⟩
abbrev LEAF_DIG_SIZE_SLOTS : FieldRef := ⟨Reg.LEAF_DIG_SIZE, 16, 0⟩
abbrev LEAF_DIG_WR_WR : FieldRef := ⟨Reg.LEAF_DIG_WR, 16, 0⟩
abbrev LEAF_DIG_RD_RD : FieldRef := ⟨Reg.LEAF_DIG_RD, 16, 0⟩
abbrev LEAF_DIG_DROP_COUNT : FieldRef := ⟨Reg.LEAF_DIG_DROP, 31, 0⟩
abbrev LEAF_DET_STAT_DIG_DROP : FieldRef := ⟨Reg.LEAF_DET_STAT, 2, 2⟩
abbrev LEAF_DET_STAT_CFG_REFUSED : FieldRef := ⟨Reg.LEAF_DET_STAT, 1, 1⟩
abbrev LEAF_PIPE_CQ_EN (i : Nat) : FieldRef := ⟨Reg.LEAF_PIPE_CQ i, 31, 31⟩
abbrev LEAF_PIPE_CQ_CQ (i : Nat) : FieldRef := ⟨Reg.LEAF_PIPE_CQ i, 5, 0⟩
abbrev LEAF_CQ_HOLD_COUNT : FieldRef := ⟨Reg.LEAF_CQ_HOLD, 16, 0⟩
abbrev LEAF_CQ_HOLD_DROP_COUNT : FieldRef := ⟨Reg.LEAF_CQ_HOLD_DROP, 31, 0⟩
abbrev LEAF_Q_SQB_LO_BASE (i : Nat) : FieldRef := ⟨Reg.LEAF_Q_SQB_LO i, 31, 6⟩
abbrev LEAF_Q_SQB_HI_BASE (i : Nat) : FieldRef := ⟨Reg.LEAF_Q_SQB_HI i, 31, 0⟩
abbrev LEAF_Q_CQB_LO_BASE (i : Nat) : FieldRef := ⟨Reg.LEAF_Q_CQB_LO i, 31, 6⟩
abbrev LEAF_Q_CQB_HI_BASE (i : Nat) : FieldRef := ⟨Reg.LEAF_Q_CQB_HI i, 31, 0⟩
abbrev LEAF_Q_CFG_EN (i : Nat) : FieldRef := ⟨Reg.LEAF_Q_CFG i, 31, 31⟩
abbrev LEAF_Q_CFG_IEN (i : Nat) : FieldRef := ⟨Reg.LEAF_Q_CFG i, 30, 30⟩
abbrev LEAF_Q_CFG_SQ_LOC (i : Nat) : FieldRef := ⟨Reg.LEAF_Q_CFG i, 29, 29⟩
abbrev LEAF_Q_CFG_CQ_LOC (i : Nat) : FieldRef := ⟨Reg.LEAF_Q_CFG i, 28, 28⟩
abbrev LEAF_Q_CFG_BUSY (i : Nat) : FieldRef := ⟨Reg.LEAF_Q_CFG i, 27, 27⟩
abbrev LEAF_Q_CFG_CQ_LOG2 (i : Nat) : FieldRef := ⟨Reg.LEAF_Q_CFG i, 11, 8⟩
abbrev LEAF_Q_CFG_SQ_LOG2 (i : Nat) : FieldRef := ⟨Reg.LEAF_Q_CFG i, 3, 0⟩
abbrev LEAF_Q_SQDB_TAIL (i : Nat) : FieldRef := ⟨Reg.LEAF_Q_SQDB i, 11, 0⟩
abbrev LEAF_Q_CQDB_HEAD (i : Nat) : FieldRef := ⟨Reg.LEAF_Q_CQDB i, 11, 0⟩
abbrev LEAF_Q_STAT_DB_ERR (i : Nat) : FieldRef := ⟨Reg.LEAF_Q_STAT i, 31, 31⟩
abbrev LEAF_Q_STAT_CQ_FULL (i : Nat) : FieldRef := ⟨Reg.LEAF_Q_STAT i, 30, 30⟩
abbrev LEAF_Q_STAT_PHASE (i : Nat) : FieldRef := ⟨Reg.LEAF_Q_STAT i, 29, 29⟩
abbrev LEAF_Q_STAT_CQ_TAIL (i : Nat) : FieldRef := ⟨Reg.LEAF_Q_STAT i, 27, 16⟩
abbrev LEAF_Q_STAT_SQ_HEAD (i : Nat) : FieldRef := ⟨Reg.LEAF_Q_STAT i, 11, 0⟩
abbrev TICK_CTRL_START : FieldRef := ⟨Reg.TICK_CTRL, 31, 31⟩
abbrev TICK_CTRL_HALT : FieldRef := ⟨Reg.TICK_CTRL, 30, 30⟩
abbrev TICK_CTRL_BARRIER : FieldRef := ⟨Reg.TICK_CTRL, 1, 1⟩
abbrev TICK_CFG_LOCKED : FieldRef := ⟨Reg.TICK_CFG, 31, 31⟩
abbrev TICK_CFG_SUB_RATIO : FieldRef := ⟨Reg.TICK_CFG, 25, 16⟩
abbrev TICK_CFG_OVR_LIMIT : FieldRef := ⟨Reg.TICK_CFG, 15, 8⟩
abbrev TICK_PERIOD_PERIOD : FieldRef := ⟨Reg.TICK_PERIOD, 31, 0⟩
abbrev TICK_START_LO_START_AT : FieldRef := ⟨Reg.TICK_START_LO, 31, 0⟩
abbrev TICK_START_HI_START_AT : FieldRef := ⟨Reg.TICK_START_HI, 31, 0⟩
abbrev TICK_STAT_BOUND_LATE : FieldRef := ⟨Reg.TICK_STAT, 8, 8⟩
abbrev TICK_STAT_REPORT_DROP : FieldRef := ⟨Reg.TICK_STAT, 7, 7⟩
abbrev TICK_STAT_PIN_OVER : FieldRef := ⟨Reg.TICK_STAT, 6, 6⟩
abbrev TICK_STAT_FLOOR_OVER : FieldRef := ⟨Reg.TICK_STAT, 5, 5⟩
abbrev TICK_STAT_CMD_REFUSED : FieldRef := ⟨Reg.TICK_STAT, 4, 4⟩
abbrev TICK_STAT_CFG_REFUSED : FieldRef := ⟨Reg.TICK_STAT, 3, 3⟩
abbrev TICK_STAT_BARRIER_WAIT : FieldRef := ⟨Reg.TICK_STAT, 2, 2⟩
abbrev TICK_STAT_START_PEND : FieldRef := ⟨Reg.TICK_STAT, 1, 1⟩
abbrev TICK_STAT_RUNNING : FieldRef := ⟨Reg.TICK_STAT, 0, 0⟩
abbrev TICK_NUM_LO_NUM : FieldRef := ⟨Reg.TICK_NUM_LO, 31, 0⟩
abbrev TICK_NUM_HI_NUM : FieldRef := ⟨Reg.TICK_NUM_HI, 31, 0⟩
abbrev TICK_SUBIDX_IDX : FieldRef := ⟨Reg.TICK_SUBIDX, 9, 0⟩
abbrev TICK_PTICK_P : FieldRef := ⟨Reg.TICK_PTICK, 31, 0⟩
abbrev TICK_FIXED_E : FieldRef := ⟨Reg.TICK_FIXED, 31, 0⟩
abbrev TICK_BUDGET_E : FieldRef := ⟨Reg.TICK_BUDGET, 31, 0⟩
abbrev TICK_OP_OP : FieldRef := ⟨Reg.TICK_OP, 2, 0⟩
abbrev TICK_OUT_CFG_WIDTH : FieldRef := ⟨Reg.TICK_OUT_CFG, 31, 16⟩
abbrev TICK_OUT_CFG_POL : FieldRef := ⟨Reg.TICK_OUT_CFG, 2, 2⟩
abbrev TICK_OUT_CFG_MODE : FieldRef := ⟨Reg.TICK_OUT_CFG, 1, 0⟩
abbrev TICK_BOUND_LAST_NS : FieldRef := ⟨Reg.TICK_BOUND_LAST, 31, 0⟩
abbrev TICK_BOUND_MAX_NS : FieldRef := ⟨Reg.TICK_BOUND_MAX, 31, 0⟩
abbrev TICK_OVR_CNT_COUNT : FieldRef := ⟨Reg.TICK_OVR_CNT, 31, 0⟩
abbrev TICK_RPT_BASE_LO_BASE : FieldRef := ⟨Reg.TICK_RPT_BASE_LO, 31, 6⟩
abbrev TICK_RPT_BASE_HI_BASE : FieldRef := ⟨Reg.TICK_RPT_BASE_HI, 31, 0⟩
abbrev TICK_RPT_SIZE_SLOTS : FieldRef := ⟨Reg.TICK_RPT_SIZE, 12, 0⟩
abbrev TICK_RPT_WR_WR : FieldRef := ⟨Reg.TICK_RPT_WR, 12, 0⟩
abbrev TICK_RPT_RD_RD : FieldRef := ⟨Reg.TICK_RPT_RD, 12, 0⟩
abbrev TICK_RPT_DROP_COUNT : FieldRef := ⟨Reg.TICK_RPT_DROP, 31, 0⟩
abbrev TICK_PIPE_CFG_PRIO (i : Nat) : FieldRef := ⟨Reg.TICK_PIPE_CFG i, 19, 16⟩
abbrev TICK_PIPE_CFG_FLOOR (i : Nat) : FieldRef := ⟨Reg.TICK_PIPE_CFG i, 10, 8⟩
abbrev TICK_PIPE_CFG_PIN (i : Nat) : FieldRef := ⟨Reg.TICK_PIPE_CFG i, 2, 0⟩
abbrev TICK_PIPE_STAT_LONG (i : Nat) : FieldRef := ⟨Reg.TICK_PIPE_STAT i, 31, 31⟩
abbrev TICK_PIPE_STAT_CLAMPED (i : Nat) : FieldRef := ⟨Reg.TICK_PIPE_STAT i, 30, 30⟩
abbrev TICK_PIPE_STAT_VARIANT (i : Nat) : FieldRef := ⟨Reg.TICK_PIPE_STAT i, 26, 24⟩
abbrev TICK_PIPE_STAT_NVAR (i : Nat) : FieldRef := ⟨Reg.TICK_PIPE_STAT i, 19, 16⟩
abbrev TICK_PIPE_STAT_OVR_RUN (i : Nat) : FieldRef := ⟨Reg.TICK_PIPE_STAT i, 15, 0⟩
abbrev TICK_PIPE_EST_E (i : Nat) : FieldRef := ⟨Reg.TICK_PIPE_EST i, 31, 0⟩
abbrev TICK_PIPE_OVR_COUNT (i : Nat) : FieldRef := ⟨Reg.TICK_PIPE_OVR i, 31, 0⟩
abbrev TIME_CAPTURE_CAP : FieldRef := ⟨Reg.TIME_CAPTURE, 0, 0⟩
abbrev TIME_CAP_CNT_LO_CNT : FieldRef := ⟨Reg.TIME_CAP_CNT_LO, 31, 0⟩
abbrev TIME_CAP_CNT_HI_CNT : FieldRef := ⟨Reg.TIME_CAP_CNT_HI, 31, 0⟩
abbrev TIME_CAP_VT_LO_VT : FieldRef := ⟨Reg.TIME_CAP_VT_LO, 31, 0⟩
abbrev TIME_CAP_VT_HI_VT : FieldRef := ⟨Reg.TIME_CAP_VT_HI, 31, 0⟩
abbrev TIME_CAP_VT_FRAC_VT : FieldRef := ⟨Reg.TIME_CAP_VT_FRAC, 15, 0⟩
abbrev TIME_CAP_D0_LO_D0 : FieldRef := ⟨Reg.TIME_CAP_D0_LO, 31, 0⟩
abbrev TIME_CAP_D0_HI_D0 : FieldRef := ⟨Reg.TIME_CAP_D0_HI, 31, 0⟩
abbrev TIME_CAP_D0_FRAC_D0 : FieldRef := ⟨Reg.TIME_CAP_D0_FRAC, 15, 0⟩
abbrev TIME_CAP_D1_LO_D1 : FieldRef := ⟨Reg.TIME_CAP_D1_LO, 31, 0⟩
abbrev TIME_CAP_D1_HI_D1 : FieldRef := ⟨Reg.TIME_CAP_D1_HI, 31, 0⟩
abbrev TIME_CAP_D1_FRAC_D1 : FieldRef := ⟨Reg.TIME_CAP_D1_FRAC, 15, 0⟩
abbrev TIME_VT_CTRL_SLEW_PPM : FieldRef := ⟨Reg.TIME_VT_CTRL, 15, 8⟩
abbrev TIME_VT_CTRL_AUTO : FieldRef := ⟨Reg.TIME_VT_CTRL, 1, 1⟩
abbrev TIME_VT_CTRL_SEL : FieldRef := ⟨Reg.TIME_VT_CTRL, 0, 0⟩
abbrev TIME_VT_STAT_SEL_REFUSED : FieldRef := ⟨Reg.TIME_VT_STAT, 5, 5⟩
abbrev TIME_VT_STAT_SWITCHED : FieldRef := ⟨Reg.TIME_VT_STAT, 3, 3⟩
abbrev TIME_VT_STAT_HOLDOVER : FieldRef := ⟨Reg.TIME_VT_STAT, 2, 2⟩
abbrev TIME_VT_STAT_SLEWING : FieldRef := ⟨Reg.TIME_VT_STAT, 1, 1⟩
abbrev TIME_VT_STAT_FOLLOW : FieldRef := ⟨Reg.TIME_VT_STAT, 0, 0⟩
abbrev TIME_BRIDGE_LO_B : FieldRef := ⟨Reg.TIME_BRIDGE_LO, 31, 0⟩
abbrev TIME_BRIDGE_HI_B : FieldRef := ⟨Reg.TIME_BRIDGE_HI, 31, 0⟩
abbrev TIME_SWITCH_CNT_COUNT : FieldRef := ⟨Reg.TIME_SWITCH_CNT, 31, 0⟩
abbrev TIME_D_CFG_ENABLE (i : Nat) : FieldRef := ⟨Reg.TIME_D_CFG i, 31, 31⟩
abbrev TIME_D_CFG_SLAVE_PORT (i : Nat) : FieldRef := ⟨Reg.TIME_D_CFG i, 19, 16⟩
abbrev TIME_D_CFG_DOMAIN_NUM (i : Nat) : FieldRef := ⟨Reg.TIME_D_CFG i, 15, 8⟩
abbrev TIME_D_RATE_LO_RATE (i : Nat) : FieldRef := ⟨Reg.TIME_D_RATE_LO i, 31, 0⟩
abbrev TIME_D_RATE_HI_RATE (i : Nat) : FieldRef := ⟨Reg.TIME_D_RATE_HI i, 15, 0⟩
abbrev TIME_D_OFS_LO_OFS (i : Nat) : FieldRef := ⟨Reg.TIME_D_OFS_LO i, 31, 0⟩
abbrev TIME_D_OFS_HI_OFS (i : Nat) : FieldRef := ⟨Reg.TIME_D_OFS_HI i, 31, 0⟩
abbrev TIME_D_OFS_FRAC_OFS (i : Nat) : FieldRef := ⟨Reg.TIME_D_OFS_FRAC i, 15, 0⟩
abbrev TIME_D_COMMIT_SET (i : Nat) : FieldRef := ⟨Reg.TIME_D_COMMIT i, 2, 2⟩
abbrev TIME_D_COMMIT_STEP (i : Nat) : FieldRef := ⟨Reg.TIME_D_COMMIT i, 1, 1⟩
abbrev TIME_D_COMMIT_RATE (i : Nat) : FieldRef := ⟨Reg.TIME_D_COMMIT i, 0, 0⟩
abbrev TIME_D_STAT_REFUSED (i : Nat) : FieldRef := ⟨Reg.TIME_D_STAT i, 6, 6⟩
abbrev TIME_D_STAT_HEALTHY (i : Nat) : FieldRef := ⟨Reg.TIME_D_STAT i, 5, 5⟩
abbrev TIME_D_STAT_QUAL (i : Nat) : FieldRef := ⟨Reg.TIME_D_STAT i, 4, 4⟩
abbrev TIME_D_STAT_LOST (i : Nat) : FieldRef := ⟨Reg.TIME_D_STAT i, 3, 3⟩
abbrev TIME_D_STAT_PATH_SUSPECT (i : Nat) : FieldRef := ⟨Reg.TIME_D_STAT i, 2, 2⟩
abbrev TIME_D_STAT_OFS_JUMP (i : Nat) : FieldRef := ⟨Reg.TIME_D_STAT i, 1, 1⟩
abbrev TIME_D_GATE_PD_STEP (i : Nat) : FieldRef := ⟨Reg.TIME_D_GATE i, 31, 16⟩
abbrev TIME_D_GATE_OFS_GATE (i : Nat) : FieldRef := ⟨Reg.TIME_D_GATE i, 15, 0⟩
abbrev TIME_D_TIMEOUT_SYNC_TIMEOUT (i : Nat) : FieldRef := ⟨Reg.TIME_D_TIMEOUT i, 15, 0⟩
abbrev TIME_D_MEAS_OFS_LO_OFS (i : Nat) : FieldRef := ⟨Reg.TIME_D_MEAS_OFS_LO i, 31, 0⟩
abbrev TIME_D_MEAS_OFS_HI_OFS (i : Nat) : FieldRef := ⟨Reg.TIME_D_MEAS_OFS_HI i, 31, 0⟩
abbrev TIME_D_MEAS_PD_PD (i : Nat) : FieldRef := ⟨Reg.TIME_D_MEAS_PD i, 31, 0⟩
abbrev TIME_D_MEAS_RR_RR (i : Nat) : FieldRef := ⟨Reg.TIME_D_MEAS_RR i, 31, 0⟩
abbrev TIME_D_MEAS_SEQ_SEQ_ID (i : Nat) : FieldRef := ⟨Reg.TIME_D_MEAS_SEQ i, 31, 16⟩
abbrev TIME_D_MEAS_SEQ_ACCEPTED (i : Nat) : FieldRef := ⟨Reg.TIME_D_MEAS_SEQ i, 15, 0⟩
abbrev TIME_D_PD_REF_PD_REF (i : Nat) : FieldRef := ⟨Reg.TIME_D_PD_REF i, 31, 0⟩
abbrev TIME_D_SUSPECT_CNT_COUNT (i : Nat) : FieldRef := ⟨Reg.TIME_D_SUSPECT_CNT i, 31, 0⟩
abbrev TIME_PPS_CFG_EDGE : FieldRef := ⟨Reg.TIME_PPS_CFG, 1, 1⟩
abbrev TIME_PPS_CFG_ENABLE : FieldRef := ⟨Reg.TIME_PPS_CFG, 0, 0⟩
abbrev TIME_PPS_CNT_LO_CNT : FieldRef := ⟨Reg.TIME_PPS_CNT_LO, 31, 0⟩
abbrev TIME_PPS_CNT_HI_CNT : FieldRef := ⟨Reg.TIME_PPS_CNT_HI, 31, 0⟩
abbrev TIME_PPS_VT_LO_VT : FieldRef := ⟨Reg.TIME_PPS_VT_LO, 31, 0⟩
abbrev TIME_PPS_VT_HI_VT : FieldRef := ⟨Reg.TIME_PPS_VT_HI, 31, 0⟩
abbrev TIME_PPS_VT_FRAC_VT : FieldRef := ⟨Reg.TIME_PPS_VT_FRAC, 15, 0⟩
abbrev TIME_PPS_SEQ_OVW : FieldRef := ⟨Reg.TIME_PPS_SEQ, 31, 16⟩
abbrev TIME_PPS_SEQ_COUNT : FieldRef := ⟨Reg.TIME_PPS_SEQ, 15, 0⟩
abbrev TIME_TRIG_CTRL_ARM (i : Nat) : FieldRef := ⟨Reg.TIME_TRIG_CTRL i, 31, 31⟩
abbrev TIME_TRIG_CTRL_DISARM (i : Nat) : FieldRef := ⟨Reg.TIME_TRIG_CTRL i, 30, 30⟩
abbrev TIME_TRIG_CTRL_ARMED (i : Nat) : FieldRef := ⟨Reg.TIME_TRIG_CTRL i, 3, 3⟩
abbrev TIME_TRIG_CTRL_POL (i : Nat) : FieldRef := ⟨Reg.TIME_TRIG_CTRL i, 2, 2⟩
abbrev TIME_TRIG_CTRL_MODE (i : Nat) : FieldRef := ⟨Reg.TIME_TRIG_CTRL i, 1, 1⟩
abbrev TIME_TRIG_START_LO_START (i : Nat) : FieldRef := ⟨Reg.TIME_TRIG_START_LO i, 31, 0⟩
abbrev TIME_TRIG_START_HI_START (i : Nat) : FieldRef := ⟨Reg.TIME_TRIG_START_HI i, 31, 0⟩
abbrev TIME_TRIG_START_FRAC_START (i : Nat) : FieldRef := ⟨Reg.TIME_TRIG_START_FRAC i, 15, 0⟩
abbrev TIME_TRIG_PERIOD_PERIOD (i : Nat) : FieldRef := ⟨Reg.TIME_TRIG_PERIOD i, 31, 0⟩
abbrev TIME_TRIG_WIDTH_WIDTH (i : Nat) : FieldRef := ⟨Reg.TIME_TRIG_WIDTH i, 31, 0⟩
abbrev TIME_TRIG_STAT_MISS_CNT (i : Nat) : FieldRef := ⟨Reg.TIME_TRIG_STAT i, 15, 8⟩
abbrev TIME_TRIG_STAT_MISSED (i : Nat) : FieldRef := ⟨Reg.TIME_TRIG_STAT i, 0, 0⟩
abbrev SW_CTRL_FWD_EN : FieldRef := ⟨Reg.SW_CTRL, 31, 31⟩
abbrev SW_CTRL_LEARN : FieldRef := ⟨Reg.SW_CTRL, 16, 16⟩
abbrev SW_CTRL_AGE_S : FieldRef := ⟨Reg.SW_CTRL, 15, 0⟩
abbrev SW_FDB_CMD_GO : FieldRef := ⟨Reg.SW_FDB_CMD, 31, 31⟩
abbrev SW_FDB_CMD_OP : FieldRef := ⟨Reg.SW_FDB_CMD, 30, 29⟩
abbrev SW_FDB_CMD_FULL : FieldRef := ⟨Reg.SW_FDB_CMD, 28, 28⟩
abbrev SW_FDB_CMD_BUSY : FieldRef := ⟨Reg.SW_FDB_CMD, 27, 27⟩
abbrev SW_FDB_CMD_INDEX : FieldRef := ⟨Reg.SW_FDB_CMD, 11, 0⟩
abbrev SW_FDB_MAC_LO_MAC : FieldRef := ⟨Reg.SW_FDB_MAC_LO, 31, 0⟩
abbrev SW_FDB_MAC_HI_VALID : FieldRef := ⟨Reg.SW_FDB_MAC_HI, 31, 31⟩
abbrev SW_FDB_MAC_HI_STATIC : FieldRef := ⟨Reg.SW_FDB_MAC_HI, 30, 30⟩
abbrev SW_FDB_MAC_HI_PORTS : FieldRef := ⟨Reg.SW_FDB_MAC_HI, 29, 24⟩
abbrev SW_FDB_MAC_HI_VID : FieldRef := ⟨Reg.SW_FDB_MAC_HI, 23, 12⟩
abbrev SW_FDB_MAC_HI2_MAC : FieldRef := ⟨Reg.SW_FDB_MAC_HI2, 15, 0⟩
abbrev SW_P_CFG_EN (i : Nat) : FieldRef := ⟨Reg.SW_P_CFG i, 31, 31⟩
abbrev SW_P_CFG_MASTER_D1 (i : Nat) : FieldRef := ⟨Reg.SW_P_CFG i, 30, 30⟩
abbrev SW_P_CFG_MASTER_D0 (i : Nat) : FieldRef := ⟨Reg.SW_P_CFG i, 29, 29⟩
abbrev SW_P_CFG_SPEED (i : Nat) : FieldRef := ⟨Reg.SW_P_CFG i, 25, 24⟩
abbrev SW_P_CFG_PVID (i : Nat) : FieldRef := ⟨Reg.SW_P_CFG i, 23, 12⟩
abbrev SW_P_CFG_DEF_PCP (i : Nat) : FieldRef := ⟨Reg.SW_P_CFG i, 11, 9⟩
abbrev SW_P_ASYM_EGR_ASYM (i : Nat) : FieldRef := ⟨Reg.SW_P_ASYM i, 31, 16⟩
abbrev SW_P_ASYM_ING_ASYM (i : Nat) : FieldRef := ⟨Reg.SW_P_ASYM i, 15, 0⟩
abbrev SW_P_PCP_MAP_MAP (i : Nat) : FieldRef := ⟨Reg.SW_P_PCP_MAP i, 23, 0⟩
abbrev SW_P_QBV_CTRL_CHANGE (i : Nat) : FieldRef := ⟨Reg.SW_P_QBV_CTRL i, 31, 31⟩
abbrev SW_P_QBV_CTRL_GATE_EN (i : Nat) : FieldRef := ⟨Reg.SW_P_QBV_CTRL i, 30, 30⟩
abbrev SW_P_QBV_CTRL_LIST_LEN (i : Nat) : FieldRef := ⟨Reg.SW_P_QBV_CTRL i, 8, 0⟩
abbrev SW_P_QBV_BASE_LO_BASE (i : Nat) : FieldRef := ⟨Reg.SW_P_QBV_BASE_LO i, 31, 0⟩
abbrev SW_P_QBV_BASE_HI_BASE (i : Nat) : FieldRef := ⟨Reg.SW_P_QBV_BASE_HI i, 31, 0⟩
abbrev SW_P_QBV_CYCLE_CYCLE (i : Nat) : FieldRef := ⟨Reg.SW_P_QBV_CYCLE i, 31, 0⟩
abbrev SW_P_QBV_STAT_CFG_PENDING (i : Nat) : FieldRef := ⟨Reg.SW_P_QBV_STAT i, 1, 1⟩
abbrev SW_P_QBV_STAT_CFG_ERR (i : Nat) : FieldRef := ⟨Reg.SW_P_QBV_STAT i, 0, 0⟩
abbrev SW_P_CBS_TC_IDLE_SLOPE (i j : Nat) : FieldRef := ⟨Reg.SW_P_CBS_TC i j, 31, 0⟩
abbrev SW_GCL_STATES_GATES (i j : Nat) : FieldRef := ⟨Reg.SW_GCL_STATES i j, 7, 0⟩
abbrev SW_GCL_INTERVAL_NS (i j : Nat) : FieldRef := ⟨Reg.SW_GCL_INTERVAL i j, 31, 0⟩
abbrev SW_QCI_WORD (i : Nat) : FieldRef := ⟨Reg.SW_QCI i, 31, 0⟩
abbrev IRQ_PEND_PEND (i : Nat) : FieldRef := ⟨Reg.IRQ_PEND i, 31, 0⟩
abbrev IRQ_RAW_RAW (i : Nat) : FieldRef := ⟨Reg.IRQ_RAW i, 31, 0⟩
abbrev IRQ_MASK_MASK (i : Nat) : FieldRef := ⟨Reg.IRQ_MASK i, 31, 0⟩
abbrev IRQ_ACT_ACT (i : Nat) : FieldRef := ⟨Reg.IRQ_ACT i, 31, 0⟩
abbrev IRQ_EOI_SRC : FieldRef := ⟨Reg.IRQ_EOI, 8, 0⟩
abbrev IRQ_RPRI_EMPTY : FieldRef := ⟨Reg.IRQ_RPRI, 31, 31⟩
abbrev IRQ_RPRI_DEPTH : FieldRef := ⟨Reg.IRQ_RPRI, 27, 24⟩
abbrev IRQ_RPRI_TOP_VEC : FieldRef := ⟨Reg.IRQ_RPRI, 21, 16⟩
abbrev IRQ_RPRI_TOP_PRIO : FieldRef := ⟨Reg.IRQ_RPRI, 3, 0⟩
abbrev IRQ_LOST_SET_COUNT : FieldRef := ⟨Reg.IRQ_LOST_SET, 31, 0⟩
abbrev IRQ_BAD_EOI_COUNT : FieldRef := ⟨Reg.IRQ_BAD_EOI, 31, 0⟩
abbrev IRQ_CFG_BYPASS : FieldRef := ⟨Reg.IRQ_CFG, 3, 0⟩
abbrev IRQ_STAT_STACK_FULL : FieldRef := ⟨Reg.IRQ_STAT, 1, 1⟩
abbrev IRQ_STAT_CFG_REFUSED : FieldRef := ⟨Reg.IRQ_STAT, 0, 0⟩
abbrev IRQ_MSG_CNT_COUNT : FieldRef := ⟨Reg.IRQ_MSG_CNT, 31, 0⟩
abbrev IRQ_TGT_LINE (i : Nat) : FieldRef := ⟨Reg.IRQ_TGT i, 31, 31⟩
abbrev IRQ_TGT_LEVEL (i : Nat) : FieldRef := ⟨Reg.IRQ_TGT i, 29, 29⟩
abbrev IRQ_TGT_TARGET (i : Nat) : FieldRef := ⟨Reg.IRQ_TGT i, 21, 16⟩
abbrev IRQ_TGT_PRIO (i : Nat) : FieldRef := ⟨Reg.IRQ_TGT i, 3, 0⟩
abbrev IRQ_VEC_COAL_COUNT (i : Nat) : FieldRef := ⟨Reg.IRQ_VEC_COAL i, 31, 24⟩
abbrev IRQ_VEC_COAL_TIME_US (i : Nat) : FieldRef := ⟨Reg.IRQ_VEC_COAL i, 15, 0⟩
abbrev IRQ_VEC_STAT_WAIT (i : Nat) : FieldRef := ⟨Reg.IRQ_VEC_STAT i, 31, 31⟩
abbrev IRQ_VEC_STAT_ACC (i : Nat) : FieldRef := ⟨Reg.IRQ_VEC_STAT i, 7, 0⟩
abbrev PWR_OP_CEIL_HOST : FieldRef := ⟨Reg.PWR_OP, 18, 16⟩
abbrev PWR_OP_EFF : FieldRef := ⟨Reg.PWR_OP, 10, 8⟩
abbrev PWR_OP_REQ : FieldRef := ⟨Reg.PWR_OP, 2, 0⟩
abbrev PWR_CAP_WINDOW_S : FieldRef := ⟨Reg.PWR_CAP, 27, 24⟩
abbrev PWR_CAP_SHARE_MW : FieldRef := ⟨Reg.PWR_CAP, 16, 0⟩
abbrev PWR_STAT_CEIL : FieldRef := ⟨Reg.PWR_STAT, 18, 16⟩
abbrev PWR_STAT_STRETCH : FieldRef := ⟨Reg.PWR_STAT, 14, 12⟩
abbrev PWR_STAT_COOL_HOT : FieldRef := ⟨Reg.PWR_STAT, 10, 10⟩
abbrev PWR_STAT_COOL_STALE : FieldRef := ⟨Reg.PWR_STAT, 9, 9⟩
abbrev PWR_STAT_PANE_GATE : FieldRef := ⟨Reg.PWR_STAT, 8, 8⟩
abbrev PWR_STAT_ACTIVE : FieldRef := ⟨Reg.PWR_STAT, 6, 0⟩
abbrev PWR_THR_EV_EV : FieldRef := ⟨Reg.PWR_THR_EV, 6, 0⟩
abbrev PWR_EWIN_LO_UJ : FieldRef := ⟨Reg.PWR_EWIN_LO, 31, 0⟩
abbrev PWR_EWIN_HI_UJ : FieldRef := ⟨Reg.PWR_EWIN_HI, 31, 0⟩
abbrev PWR_EUNATT_UJ : FieldRef := ⟨Reg.PWR_EUNATT, 31, 0⟩
abbrev PWR_THR_US_LO_US (i : Nat) : FieldRef := ⟨Reg.PWR_THR_US_LO i, 31, 0⟩
abbrev PWR_THR_US_HI_US (i : Nat) : FieldRef := ⟨Reg.PWR_THR_US_HI i, 31, 0⟩
abbrev PWR_TEMP_CFG_LIMIT : FieldRef := ⟨Reg.PWR_TEMP_CFG, 23, 16⟩
abbrev PWR_TEMP_CFG_HYST : FieldRef := ⟨Reg.PWR_TEMP_CFG, 7, 0⟩
abbrev PWR_TJ_MIN : FieldRef := ⟨Reg.PWR_TJ, 31, 16⟩
abbrev PWR_TJ_MAX : FieldRef := ⟨Reg.PWR_TJ, 15, 0⟩
abbrev PWR_TRIP_CLEAR : FieldRef := ⟨Reg.PWR_TRIP, 31, 31⟩
abbrev PWR_TRIP_REFUSED : FieldRef := ⟨Reg.PWR_TRIP, 9, 9⟩
abbrev PWR_TRIP_TRIPPED : FieldRef := ⟨Reg.PWR_TRIP, 8, 8⟩
abbrev PWR_TRIP_SENSOR : FieldRef := ⟨Reg.PWR_TRIP, 3, 0⟩
abbrev PWR_TSENS_T (i : Nat) : FieldRef := ⟨Reg.PWR_TSENS i, 15, 0⟩
abbrev PWR_COOL_IN_T : FieldRef := ⟨Reg.PWR_COOL_IN, 15, 0⟩
abbrev PWR_COOL_BUDGET_MW : FieldRef := ⟨Reg.PWR_COOL_BUDGET, 16, 0⟩
abbrev PWR_COOL_CFG_TIMEOUT_MS : FieldRef := ⟨Reg.PWR_COOL_CFG, 31, 16⟩
abbrev PWR_COOL_CFG_INLET_MAX : FieldRef := ⟨Reg.PWR_COOL_CFG, 15, 8⟩
abbrev PWR_COOL_STALE_MW : FieldRef := ⟨Reg.PWR_COOL_STALE, 16, 0⟩
abbrev PWR_SKEW_STAT_ACTIVE : FieldRef := ⟨Reg.PWR_SKEW_STAT, 3, 0⟩
abbrev PWR_SKEW_CNT_COUNT : FieldRef := ⟨Reg.PWR_SKEW_CNT, 31, 0⟩
abbrev PWR_SLEEP_CTRL_REQ : FieldRef := ⟨Reg.PWR_SLEEP_CTRL, 31, 31⟩
abbrev PWR_SLEEP_CTRL_WAKE : FieldRef := ⟨Reg.PWR_SLEEP_CTRL, 30, 30⟩
abbrev PWR_SLEEP_CFG_MARGIN_US : FieldRef := ⟨Reg.PWR_SLEEP_CFG, 31, 16⟩
abbrev PWR_SLEEP_CFG_ALARM_EN : FieldRef := ⟨Reg.PWR_SLEEP_CFG, 4, 4⟩
abbrev PWR_SLEEP_CFG_MAX_STATE : FieldRef := ⟨Reg.PWR_SLEEP_CFG, 1, 0⟩
abbrev PWR_WAKE_AT_LO_VT : FieldRef := ⟨Reg.PWR_WAKE_AT_LO, 31, 0⟩
abbrev PWR_WAKE_AT_HI_VT : FieldRef := ⟨Reg.PWR_WAKE_AT_HI, 31, 0⟩
abbrev PWR_SLEEP_STAT_STATE : FieldRef := ⟨Reg.PWR_SLEEP_STAT, 31, 30⟩
abbrev PWR_SLEEP_STAT_LAST : FieldRef := ⟨Reg.PWR_SLEEP_STAT, 29, 28⟩
abbrev PWR_SLEEP_STAT_REFUSED : FieldRef := ⟨Reg.PWR_SLEEP_STAT, 24, 24⟩
abbrev PWR_SLEEP_STAT_ABORT : FieldRef := ⟨Reg.PWR_SLEEP_STAT, 16, 16⟩
abbrev PWR_SLEEP_STAT_ABORT_SRC : FieldRef := ⟨Reg.PWR_SLEEP_STAT, 15, 12⟩
abbrev PWR_SLEEP_STAT_WAKE_SRC : FieldRef := ⟨Reg.PWR_SLEEP_STAT, 11, 8⟩
abbrev PWR_WAKE_CFG_FRAME_EN : FieldRef := ⟨Reg.PWR_WAKE_CFG, 10, 10⟩
abbrev PWR_WAKE_CFG_CAN_EN : FieldRef := ⟨Reg.PWR_WAKE_CFG, 9, 8⟩
abbrev PWR_WAKE_CFG_POL : FieldRef := ⟨Reg.PWR_WAKE_CFG, 7, 4⟩
abbrev PWR_WAKE_CFG_EN : FieldRef := ⟨Reg.PWR_WAKE_CFG, 3, 0⟩
abbrev PWR_WAKE_PEND_PEND : FieldRef := ⟨Reg.PWR_WAKE_PEND, 10, 0⟩
abbrev MEM_CACHE_BASE_LO_BASE : FieldRef := ⟨Reg.MEM_CACHE_BASE_LO, 31, 21⟩
abbrev MEM_CACHE_BASE_HI_BASE : FieldRef := ⟨Reg.MEM_CACHE_BASE_HI, 3, 0⟩
abbrev MEM_CACHE_SIZE_GRANULES : FieldRef := ⟨Reg.MEM_CACHE_SIZE, 14, 0⟩
abbrev MEM_CACHE_STAT_VALID : FieldRef := ⟨Reg.MEM_CACHE_STAT, 14, 0⟩
abbrev MEM_DRAM_CFG_SCRUB_EN : FieldRef := ⟨Reg.MEM_DRAM_CFG, 8, 8⟩
abbrev MEM_DRAM_CFG_SCRUB_H : FieldRef := ⟨Reg.MEM_DRAM_CFG, 7, 0⟩
abbrev MEM_FLASH_CFG_REFRESH_DAYS : FieldRef := ⟨Reg.MEM_FLASH_CFG, 24, 16⟩
abbrev MEM_FLASH_CFG_BG_SHARE : FieldRef := ⟨Reg.MEM_FLASH_CFG, 4, 0⟩
abbrev MEM_STAT_ELOG_OVF : FieldRef := ⟨Reg.MEM_STAT, 3, 3⟩
abbrev MEM_STAT_CFG_REFUSED : FieldRef := ⟨Reg.MEM_STAT, 2, 2⟩
abbrev MEM_STAT_POISON_ANY : FieldRef := ⟨Reg.MEM_STAT, 0, 0⟩
abbrev MEM_POISON_PIPE_LO_PIPE : FieldRef := ⟨Reg.MEM_POISON_PIPE_LO, 31, 0⟩
abbrev MEM_POISON_PIPE_HI_PIPE : FieldRef := ⟨Reg.MEM_POISON_PIPE_HI, 31, 0⟩
abbrev MEM_POISON_CNT_COUNT : FieldRef := ⟨Reg.MEM_POISON_CNT, 31, 0⟩
abbrev MEM_RW_OBJ_OBJ : FieldRef := ⟨Reg.MEM_RW_OBJ, 11, 0⟩
abbrev MEM_RW_SRC_LO_SRC : FieldRef := ⟨Reg.MEM_RW_SRC_LO, 31, 6⟩
abbrev MEM_RW_SRC_HI_SRC : FieldRef := ⟨Reg.MEM_RW_SRC_HI, 31, 0⟩
abbrev MEM_RW_CTRL_REWRITE : FieldRef := ⟨Reg.MEM_RW_CTRL, 31, 31⟩
abbrev MEM_RW_CTRL_WRITEBACK : FieldRef := ⟨Reg.MEM_RW_CTRL, 30, 30⟩
abbrev MEM_RW_STAT_BUSY : FieldRef := ⟨Reg.MEM_RW_STAT, 31, 31⟩
abbrev MEM_RW_STAT_DONE : FieldRef := ⟨Reg.MEM_RW_STAT, 30, 30⟩
abbrev MEM_RW_STAT_MIXED : FieldRef := ⟨Reg.MEM_RW_STAT, 29, 29⟩
abbrev MEM_RW_STAT_REFUSED : FieldRef := ⟨Reg.MEM_RW_STAT, 28, 28⟩
abbrev MEM_RW_STAT_STATUS : FieldRef := ⟨Reg.MEM_RW_STAT, 23, 16⟩
abbrev MEM_ELOG_HEAD_HEAD : FieldRef := ⟨Reg.MEM_ELOG_HEAD, 5, 0⟩
abbrev MEM_ELOG_TAIL_TAIL : FieldRef := ⟨Reg.MEM_ELOG_TAIL, 5, 0⟩
abbrev MEM_ELOG_DROP_COUNT : FieldRef := ⟨Reg.MEM_ELOG_DROP, 31, 0⟩
abbrev MEM_FLASH_WEAR_RO (i : Nat) : FieldRef := ⟨Reg.MEM_FLASH_WEAR i, 31, 31⟩
abbrev MEM_FLASH_WEAR_BADBLK (i : Nat) : FieldRef := ⟨Reg.MEM_FLASH_WEAR i, 23, 8⟩
abbrev MEM_FLASH_WEAR_WEAR (i : Nat) : FieldRef := ⟨Reg.MEM_FLASH_WEAR i, 7, 0⟩
abbrev MEM_POISON_MAP_MAP (i : Nat) : FieldRef := ⟨Reg.MEM_POISON_MAP i, 31, 0⟩
abbrev MEM_WHALF_HALF (i : Nat) : FieldRef := ⟨Reg.MEM_WHALF i, 31, 0⟩
abbrev MEM_ELOG_RECORD (i j : Nat) : FieldRef := ⟨Reg.MEM_ELOG i j, 31, 0⟩
abbrev SNS_STAT_CFG_REFUSED : FieldRef := ⟨Reg.SNS_STAT, 0, 0⟩
abbrev SNS_SRC_CFG_ENABLE (i : Nat) : FieldRef := ⟨Reg.SNS_SRC_CFG i, 31, 31⟩
abbrev SNS_SRC_CFG_TIME_SRC (i : Nat) : FieldRef := ⟨Reg.SNS_SRC_CFG i, 29, 28⟩
abbrev SNS_SRC_CFG_DOMAIN (i : Nat) : FieldRef := ⟨Reg.SNS_SRC_CFG i, 24, 24⟩
abbrev SNS_SRC_CFG_OBJ (i : Nat) : FieldRef := ⟨Reg.SNS_SRC_CFG i, 11, 0⟩
abbrev SNS_SRC_WIN_NS (i : Nat) : FieldRef := ⟨Reg.SNS_SRC_WIN i, 31, 0⟩
abbrev SNS_SRC_LAT_NS (i : Nat) : FieldRef := ⟨Reg.SNS_SRC_LAT i, 31, 0⟩
abbrev SNS_SRC_STAT_STATE (i : Nat) : FieldRef := ⟨Reg.SNS_SRC_STAT i, 31, 29⟩
abbrev SNS_SRC_STAT_DESYNC_EV (i : Nat) : FieldRef := ⟨Reg.SNS_SRC_STAT i, 9, 9⟩
abbrev SNS_SRC_STAT_DOWN_EV (i : Nat) : FieldRef := ⟨Reg.SNS_SRC_STAT i, 8, 8⟩
abbrev SNS_SRC_STAT_GOOD (i : Nat) : FieldRef := ⟨Reg.SNS_SRC_STAT i, 1, 0⟩
abbrev SNS_SRC_TFIELD_FMT (i : Nat) : FieldRef := ⟨Reg.SNS_SRC_TFIELD i, 21, 20⟩
abbrev SNS_SRC_TFIELD_BE (i : Nat) : FieldRef := ⟨Reg.SNS_SRC_TFIELD i, 16, 16⟩
abbrev SNS_SRC_TFIELD_OFS (i : Nat) : FieldRef := ⟨Reg.SNS_SRC_TFIELD i, 15, 0⟩
abbrev SNS_SRC_T0_LO_T0 (i : Nat) : FieldRef := ⟨Reg.SNS_SRC_T0_LO i, 31, 0⟩
abbrev SNS_SRC_T0_HI_T0 (i : Nat) : FieldRef := ⟨Reg.SNS_SRC_T0_HI i, 31, 0⟩
abbrev SNS_SRC_C0_LO_C0 (i : Nat) : FieldRef := ⟨Reg.SNS_SRC_C0_LO i, 31, 0⟩
abbrev SNS_SRC_C0_HI_C0 (i : Nat) : FieldRef := ⟨Reg.SNS_SRC_C0_HI i, 31, 0⟩
abbrev SNS_SRC_RATE_LO_RATE (i : Nat) : FieldRef := ⟨Reg.SNS_SRC_RATE_LO i, 31, 0⟩
abbrev SNS_SRC_RATE_HI_RATE (i : Nat) : FieldRef := ⟨Reg.SNS_SRC_RATE_HI i, 15, 0⟩
abbrev SNS_LID_CFG_PORTS (i : Nat) : FieldRef := ⟨Reg.SNS_LID_CFG i, 28, 24⟩
abbrev SNS_LID_CFG_SRCIP_EN (i : Nat) : FieldRef := ⟨Reg.SNS_LID_CFG i, 20, 20⟩
abbrev SNS_LID_CFG_COORD (i : Nat) : FieldRef := ⟨Reg.SNS_LID_CFG i, 16, 16⟩
abbrev SNS_LID_CFG_DPORT (i : Nat) : FieldRef := ⟨Reg.SNS_LID_CFG i, 15, 0⟩
abbrev SNS_LID_SRCIP_IP (i : Nat) : FieldRef := ⟨Reg.SNS_LID_SRCIP i, 31, 0⟩
abbrev SNS_LID_LAYOUT_HDR_BYTES (i : Nat) : FieldRef := ⟨Reg.SNS_LID_LAYOUT i, 31, 16⟩
abbrev SNS_LID_LAYOUT_STRIDE (i : Nat) : FieldRef := ⟨Reg.SNS_LID_LAYOUT i, 15, 8⟩
abbrev SNS_LID_NPTS_NPTS (i : Nat) : FieldRef := ⟨Reg.SNS_LID_NPTS i, 10, 0⟩
abbrev SNS_LID_F_PRESENT (i j : Nat) : FieldRef := ⟨Reg.SNS_LID_F i j, 20, 20⟩
abbrev SNS_LID_F_BE (i j : Nat) : FieldRef := ⟨Reg.SNS_LID_F i j, 19, 19⟩
abbrev SNS_LID_F_SIGNED (i j : Nat) : FieldRef := ⟨Reg.SNS_LID_F i j, 18, 18⟩
abbrev SNS_LID_F_WIDTH (i j : Nat) : FieldRef := ⟨Reg.SNS_LID_F i j, 17, 16⟩
abbrev SNS_LID_F_OFS (i j : Nat) : FieldRef := ⟨Reg.SNS_LID_F i j, 7, 0⟩
abbrev SNS_LID_SCALE_SCALE (i j : Nat) : FieldRef := ⟨Reg.SNS_LID_SCALE i j, 31, 0⟩
abbrev SNS_LID_PT_STEP_NS (i : Nat) : FieldRef := ⟨Reg.SNS_LID_PT_STEP i, 31, 0⟩
abbrev SNS_LID_ELEV_F32 (i j : Nat) : FieldRef := ⟨Reg.SNS_LID_ELEV i j, 31, 0⟩
abbrev SNS_CANE_W0_VALID (i : Nat) : FieldRef := ⟨Reg.SNS_CANE_W0 i, 31, 31⟩
abbrev SNS_CANE_W0_CTRL (i : Nat) : FieldRef := ⟨Reg.SNS_CANE_W0 i, 30, 30⟩
abbrev SNS_CANE_W0_IDE (i : Nat) : FieldRef := ⟨Reg.SNS_CANE_W0 i, 29, 29⟩
abbrev SNS_CANE_W0_ID (i : Nat) : FieldRef := ⟨Reg.SNS_CANE_W0 i, 28, 0⟩
abbrev SNS_CANE_W1_MASK (i : Nat) : FieldRef := ⟨Reg.SNS_CANE_W1 i, 28, 0⟩
abbrev SNS_CANE_W2_SIGNED (i : Nat) : FieldRef := ⟨Reg.SNS_CANE_W2 i, 20, 20⟩
abbrev SNS_CANE_W2_MOT (i : Nat) : FieldRef := ⟨Reg.SNS_CANE_W2 i, 19, 19⟩
abbrev SNS_CANE_W2_LEN (i : Nat) : FieldRef := ⟨Reg.SNS_CANE_W2 i, 18, 14⟩
abbrev SNS_CANE_W2_START (i : Nat) : FieldRef := ⟨Reg.SNS_CANE_W2 i, 13, 5⟩
abbrev SNS_CANE_W2_CHAN (i : Nat) : FieldRef := ⟨Reg.SNS_CANE_W2 i, 4, 0⟩
abbrev SNS_SPI_CFG_LISTEN (i : Nat) : FieldRef := ⟨Reg.SNS_SPI_CFG i, 31, 31⟩
abbrev SNS_SPI_CFG_MODE (i : Nat) : FieldRef := ⟨Reg.SNS_SPI_CFG i, 29, 28⟩
abbrev SNS_SPI_CFG_DRDY_POL (i : Nat) : FieldRef := ⟨Reg.SNS_SPI_CFG i, 27, 27⟩
abbrev SNS_SPI_CFG_DIV (i : Nat) : FieldRef := ⟨Reg.SNS_SPI_CFG i, 23, 16⟩
abbrev SNS_SPI_CFG_CMD_LEN (i : Nat) : FieldRef := ⟨Reg.SNS_SPI_CFG i, 11, 8⟩
abbrev SNS_SPI_CFG_RD_LEN (i : Nat) : FieldRef := ⟨Reg.SNS_SPI_CFG i, 5, 0⟩
abbrev SNS_SPI_CMD_CMD (i j : Nat) : FieldRef := ⟨Reg.SNS_SPI_CMD i j, 31, 0⟩
abbrev SNS_SPI_FLD_EN (i j : Nat) : FieldRef := ⟨Reg.SNS_SPI_FLD i j, 15, 15⟩
abbrev SNS_SPI_FLD_W32 (i j : Nat) : FieldRef := ⟨Reg.SNS_SPI_FLD i j, 14, 14⟩
abbrev SNS_SPI_FLD_SIGNED (i j : Nat) : FieldRef := ⟨Reg.SNS_SPI_FLD i j, 13, 13⟩
abbrev SNS_SPI_FLD_BE (i j : Nat) : FieldRef := ⟨Reg.SNS_SPI_FLD i j, 12, 12⟩
abbrev SNS_SPI_FLD_OFS (i j : Nat) : FieldRef := ⟨Reg.SNS_SPI_FLD i j, 10, 5⟩
abbrev SNS_SPI_FLD_CHAN (i j : Nat) : FieldRef := ⟨Reg.SNS_SPI_FLD i j, 4, 0⟩
abbrev SNS_CANC_CFG_SILENT (i : Nat) : FieldRef := ⟨Reg.SNS_CANC_CFG i, 31, 31⟩
abbrev SNS_CANC_CFG_NOM (i : Nat) : FieldRef := ⟨Reg.SNS_CANC_CFG i, 30, 16⟩
abbrev SNS_CANC_CFG_DATA (i : Nat) : FieldRef := ⟨Reg.SNS_CANC_CFG i, 15, 0⟩
abbrev SNS_CAM_CFG_MAXBAD (i : Nat) : FieldRef := ⟨Reg.SNS_CAM_CFG i, 31, 24⟩
abbrev SNS_CAM_CFG_VC (i : Nat) : FieldRef := ⟨Reg.SNS_CAM_CFG i, 19, 16⟩
abbrev SNS_CAM_CFG_DT (i : Nat) : FieldRef := ⟨Reg.SNS_CAM_CFG i, 13, 8⟩
abbrev SNS_CAM_CFG_GEAR (i : Nat) : FieldRef := ⟨Reg.SNS_CAM_CFG i, 3, 0⟩
abbrev SNS_CAM_SIZE_HEIGHT (i : Nat) : FieldRef := ⟨Reg.SNS_CAM_SIZE i, 27, 16⟩
abbrev SNS_CAM_SIZE_WIDTH (i : Nat) : FieldRef := ⟨Reg.SNS_CAM_SIZE i, 12, 0⟩
abbrev SNS_CAM_READOUT_NS (i : Nat) : FieldRef := ⟨Reg.SNS_CAM_READOUT i, 31, 0⟩
abbrev SNS_CAM_BUF_LO_BASE (i : Nat) : FieldRef := ⟨Reg.SNS_CAM_BUF_LO i, 31, 21⟩
abbrev SNS_CAM_BUF_HI_BASE (i : Nat) : FieldRef := ⟨Reg.SNS_CAM_BUF_HI i, 31, 0⟩
abbrev SNS_CAM_TRIG_EN (i : Nat) : FieldRef := ⟨Reg.SNS_CAM_TRIG i, 31, 31⟩
abbrev SNS_CAM_TRIG_MODE (i : Nat) : FieldRef := ⟨Reg.SNS_CAM_TRIG i, 30, 30⟩
abbrev SNS_CAM_TRIG_DIV (i : Nat) : FieldRef := ⟨Reg.SNS_CAM_TRIG i, 15, 8⟩
abbrev SNS_CAM_TRIG_PHASE (i : Nat) : FieldRef := ⟨Reg.SNS_CAM_TRIG i, 7, 0⟩
abbrev SNS_CAM_TOFS_NS (i : Nat) : FieldRef := ⟨Reg.SNS_CAM_TOFS i, 31, 0⟩
abbrev SNS_CAM_TPER_NS (i : Nat) : FieldRef := ⟨Reg.SNS_CAM_TPER i, 31, 0⟩
abbrev SNS_CAM_TLEAD_NS (i : Nat) : FieldRef := ⟨Reg.SNS_CAM_TLEAD i, 15, 0⟩
abbrev SNS_CAM_STAT_LOCK (i : Nat) : FieldRef := ⟨Reg.SNS_CAM_STAT i, 31, 31⟩
abbrev SNS_CAM_STAT_GEAR (i : Nat) : FieldRef := ⟨Reg.SNS_CAM_STAT i, 27, 24⟩
abbrev SNS_CAM_STAT_CUR (i : Nat) : FieldRef := ⟨Reg.SNS_CAM_STAT i, 17, 16⟩
abbrev SNS_CAM_STAT_MISS_CNT (i : Nat) : FieldRef := ⟨Reg.SNS_CAM_STAT i, 15, 8⟩
abbrev SNS_CAM_I2C_GO (i : Nat) : FieldRef := ⟨Reg.SNS_CAM_I2C i, 31, 31⟩
abbrev SNS_CAM_I2C_BUSY (i : Nat) : FieldRef := ⟨Reg.SNS_CAM_I2C i, 30, 30⟩
abbrev SNS_CAM_I2C_NACK (i : Nat) : FieldRef := ⟨Reg.SNS_CAM_I2C i, 29, 29⟩
abbrev SNS_CAM_I2C_RD (i : Nat) : FieldRef := ⟨Reg.SNS_CAM_I2C i, 28, 28⟩
abbrev SNS_CAM_I2C_ADDR (i : Nat) : FieldRef := ⟨Reg.SNS_CAM_I2C i, 26, 20⟩
abbrev SNS_CAM_I2C_REG (i : Nat) : FieldRef := ⟨Reg.SNS_CAM_I2C i, 19, 8⟩
abbrev SNS_CAM_I2C_DATA (i : Nat) : FieldRef := ⟨Reg.SNS_CAM_I2C i, 7, 0⟩
abbrev SNS_UART_CFG_BAUD : FieldRef := ⟨Reg.SNS_UART_CFG, 31, 12⟩
abbrev SNS_UART_CFG_PARITY : FieldRef := ⟨Reg.SNS_UART_CFG, 9, 8⟩
abbrev SNS_UART_CFG_FRAME : FieldRef := ⟨Reg.SNS_UART_CFG, 0, 0⟩
abbrev SNS_UART_FRM_SYNC : FieldRef := ⟨Reg.SNS_UART_FRM, 31, 16⟩
abbrev SNS_UART_FRM_LEN_OFS : FieldRef := ⟨Reg.SNS_UART_FRM, 15, 8⟩
abbrev SNS_UART_FRM_LEN_ADD : FieldRef := ⟨Reg.SNS_UART_FRM, 7, 0⟩
abbrev SNS_UART_TX_TX_OVF : FieldRef := ⟨Reg.SNS_UART_TX, 8, 8⟩
abbrev SNS_UART_TX_DATA : FieldRef := ⟨Reg.SNS_UART_TX, 7, 0⟩
abbrev FILT_SYNC_CTRL_ARM : FieldRef := ⟨Reg.FILT_SYNC_CTRL, 31, 31⟩
abbrev FILT_SYNC_CTRL_CANCEL : FieldRef := ⟨Reg.FILT_SYNC_CTRL, 30, 30⟩
abbrev FILT_SYNC_CTRL_PIN_POL : FieldRef := ⟨Reg.FILT_SYNC_CTRL, 9, 9⟩
abbrev FILT_SYNC_CTRL_PIN_EN : FieldRef := ⟨Reg.FILT_SYNC_CTRL, 8, 8⟩
abbrev FILT_SYNC_CTRL_PENDING : FieldRef := ⟨Reg.FILT_SYNC_CTRL, 1, 1⟩
abbrev FILT_SYNC_CTRL_REFUSED : FieldRef := ⟨Reg.FILT_SYNC_CTRL, 0, 0⟩
abbrev FILT_SYNC_TICK_LO_TICK : FieldRef := ⟨Reg.FILT_SYNC_TICK_LO, 31, 0⟩
abbrev FILT_SYNC_TICK_HI_TICK : FieldRef := ⟨Reg.FILT_SYNC_TICK_HI, 31, 0⟩
abbrev FILT_SYNC_LAST_LO_VT : FieldRef := ⟨Reg.FILT_SYNC_LAST_LO, 31, 0⟩
abbrev FILT_SYNC_LAST_HI_VT : FieldRef := ⟨Reg.FILT_SYNC_LAST_HI, 31, 0⟩
abbrev FILT_SYNC_LAST_FRAC_VT : FieldRef := ⟨Reg.FILT_SYNC_LAST_FRAC, 15, 0⟩
abbrev FILT_SYNC_CNT_COUNT : FieldRef := ⟨Reg.FILT_SYNC_CNT, 31, 0⟩
abbrev FILT_STAT_CFG_REFUSED : FieldRef := ⟨Reg.FILT_STAT, 0, 0⟩
abbrev FILT_CH_CFG_ENABLE (i : Nat) : FieldRef := ⟨Reg.FILT_CH_CFG i, 31, 31⟩
abbrev FILT_CH_CFG_MODE (i : Nat) : FieldRef := ⟨Reg.FILT_CH_CFG i, 30, 30⟩
abbrev FILT_CH_CFG_FS_IN (i : Nat) : FieldRef := ⟨Reg.FILT_CH_CFG i, 29, 28⟩
abbrev FILT_CH_CFG_PRESET (i : Nat) : FieldRef := ⟨Reg.FILT_CH_CFG i, 25, 24⟩
abbrev FILT_CH_CFG_OBJ_PATH (i : Nat) : FieldRef := ⟨Reg.FILT_CH_CFG i, 20, 20⟩
abbrev FILT_CH_CFG_SYNC_EN (i : Nat) : FieldRef := ⟨Reg.FILT_CH_CFG i, 19, 19⟩
abbrev FILT_CH_CFG_OBJ (i : Nat) : FieldRef := ⟨Reg.FILT_CH_CFG i, 11, 0⟩
abbrev FILT_CH_MPPROG_KIND (i : Nat) : FieldRef := ⟨Reg.FILT_CH_MPPROG i, 23, 0⟩
abbrev FILT_CH_THR_LEVEL_LEVEL (i j : Nat) : FieldRef := ⟨Reg.FILT_CH_THR_LEVEL i j, 31, 0⟩
abbrev FILT_CH_THR_HYST_HYST (i j : Nat) : FieldRef := ⟨Reg.FILT_CH_THR_HYST i j, 31, 0⟩
abbrev FILT_CH_THR_CFG_EN0 (i : Nat) : FieldRef := ⟨Reg.FILT_CH_THR_CFG i, 4, 4⟩
abbrev FILT_CH_THR_CFG_EN1 (i : Nat) : FieldRef := ⟨Reg.FILT_CH_THR_CFG i, 12, 12⟩
abbrev FILT_CH_THR_CFG_PATH0 (i : Nat) : FieldRef := ⟨Reg.FILT_CH_THR_CFG i, 3, 3⟩
abbrev FILT_CH_THR_CFG_PATH1 (i : Nat) : FieldRef := ⟨Reg.FILT_CH_THR_CFG i, 11, 11⟩
abbrev FILT_CH_THR_CFG_GATE0 (i : Nat) : FieldRef := ⟨Reg.FILT_CH_THR_CFG i, 2, 2⟩
abbrev FILT_CH_THR_CFG_GATE1 (i : Nat) : FieldRef := ⟨Reg.FILT_CH_THR_CFG i, 10, 10⟩
abbrev FILT_CH_THR_CFG_FALL0 (i : Nat) : FieldRef := ⟨Reg.FILT_CH_THR_CFG i, 1, 1⟩
abbrev FILT_CH_THR_CFG_FALL1 (i : Nat) : FieldRef := ⟨Reg.FILT_CH_THR_CFG i, 9, 9⟩
abbrev FILT_CH_THR_CFG_RISE0 (i : Nat) : FieldRef := ⟨Reg.FILT_CH_THR_CFG i, 0, 0⟩
abbrev FILT_CH_THR_CFG_RISE1 (i : Nat) : FieldRef := ⟨Reg.FILT_CH_THR_CFG i, 8, 8⟩
abbrev FILT_CH_STEP_THR (i : Nat) : FieldRef := ⟨Reg.FILT_CH_STEP i, 31, 0⟩
abbrev FILT_CH_STAT_SETTLED (i : Nat) : FieldRef := ⟨Reg.FILT_CH_STAT i, 31, 31⟩
abbrev FILT_CH_STAT_COARSE_VALID (i : Nat) : FieldRef := ⟨Reg.FILT_CH_STAT i, 30, 30⟩
abbrev FILT_CH_STAT_ABOVE1 (i : Nat) : FieldRef := ⟨Reg.FILT_CH_STAT i, 29, 29⟩
abbrev FILT_CH_STAT_ABOVE0 (i : Nat) : FieldRef := ⟨Reg.FILT_CH_STAT i, 28, 28⟩
abbrev FILT_CH_STAT_PHASE_LOST (i : Nat) : FieldRef := ⟨Reg.FILT_CH_STAT i, 8, 8⟩
abbrev FILT_CH_STAT_SAT (i : Nat) : FieldRef := ⟨Reg.FILT_CH_STAT i, 3, 3⟩
abbrev FILT_CH_STAT_STEP_EV (i : Nat) : FieldRef := ⟨Reg.FILT_CH_STAT i, 2, 2⟩
abbrev FILT_CH_STAT_THR1_EV (i : Nat) : FieldRef := ⟨Reg.FILT_CH_STAT i, 1, 1⟩
abbrev FILT_CH_STAT_THR0_EV (i : Nat) : FieldRef := ⟨Reg.FILT_CH_STAT i, 0, 0⟩
abbrev FILT_CH_MPOUT_Y (i : Nat) : FieldRef := ⟨Reg.FILT_CH_MPOUT i, 31, 0⟩
abbrev FILT_CH_LPOUT_Y (i : Nat) : FieldRef := ⟨Reg.FILT_CH_LPOUT i, 31, 0⟩
abbrev FILT_CH_COARSE_Y (i : Nat) : FieldRef := ⟨Reg.FILT_CH_COARSE i, 31, 0⟩
abbrev FILT_CH_SCNT_COUNT (i : Nat) : FieldRef := ⟨Reg.FILT_CH_SCNT i, 31, 0⟩
abbrev FILT_CH_SOS_B0_COEF (i j : Nat) : FieldRef := ⟨Reg.FILT_CH_SOS_B0 i j, 23, 0⟩
abbrev FILT_CH_SOS_B1_COEF (i j : Nat) : FieldRef := ⟨Reg.FILT_CH_SOS_B1 i j, 23, 0⟩
abbrev FILT_CH_SOS_B2_COEF (i j : Nat) : FieldRef := ⟨Reg.FILT_CH_SOS_B2 i j, 23, 0⟩
abbrev FILT_CH_SOS_A1_COEF (i j : Nat) : FieldRef := ⟨Reg.FILT_CH_SOS_A1 i j, 23, 0⟩
abbrev FILT_CH_SOS_A2_COEF (i j : Nat) : FieldRef := ⟨Reg.FILT_CH_SOS_A2 i j, 23, 0⟩
abbrev FILT_CH_SOS_SHIFT_SHIFT (i j : Nat) : FieldRef := ⟨Reg.FILT_CH_SOS_SHIFT i j, 3, 0⟩
abbrev EGO_CTRL_RESET : FieldRef := ⟨Reg.EGO_CTRL, 31, 31⟩
abbrev EGO_CTRL_ENABLE : FieldRef := ⟨Reg.EGO_CTRL, 0, 0⟩
abbrev EGO_CFG_HOLD_US : FieldRef := ⟨Reg.EGO_CFG, 31, 16⟩
abbrev EGO_CFG_PRED_SUB : FieldRef := ⟨Reg.EGO_CFG, 9, 0⟩
abbrev EGO_IMU_CH_CH : FieldRef := ⟨Reg.EGO_IMU_CH, 29, 0⟩
abbrev EGO_WHL_CH_WHL_EN : FieldRef := ⟨Reg.EGO_WHL_CH, 23, 20⟩
abbrev EGO_WHL_CH_CH : FieldRef := ⟨Reg.EGO_WHL_CH, 19, 0⟩
abbrev EGO_IMU_PER_NS : FieldRef := ⟨Reg.EGO_IMU_PER, 31, 0⟩
abbrev EGO_WHL_AGE_US : FieldRef := ⟨Reg.EGO_WHL_AGE, 31, 0⟩
abbrev EGO_SLIP_ABS : FieldRef := ⟨Reg.EGO_SLIP, 31, 16⟩
abbrev EGO_SLIP_REL : FieldRef := ⟨Reg.EGO_SLIP, 15, 0⟩
abbrev EGO_STAT_RUNNING : FieldRef := ⟨Reg.EGO_STAT, 31, 31⟩
abbrev EGO_STAT_CORR : FieldRef := ⟨Reg.EGO_STAT, 5, 4⟩
abbrev EGO_STAT_SLIP : FieldRef := ⟨Reg.EGO_STAT, 2, 2⟩
abbrev EGO_STAT_LATE : FieldRef := ⟨Reg.EGO_STAT, 1, 1⟩
abbrev EGO_STAT_NO_IMU : FieldRef := ⟨Reg.EGO_STAT, 0, 0⟩
abbrev EGO_GSCALE_F64 (i : Nat) : FieldRef := ⟨Reg.EGO_GSCALE i, 31, 0⟩
abbrev EGO_ASCALE_F64 (i : Nat) : FieldRef := ⟨Reg.EGO_ASCALE i, 31, 0⟩
abbrev EGO_WSCALE_F64 (i j : Nat) : FieldRef := ⟨Reg.EGO_WSCALE i j, 31, 0⟩
abbrev EGO_LEVER_F64 (i j : Nat) : FieldRef := ⟨Reg.EGO_LEVER i j, 31, 0⟩
abbrev EGO_GNOISE_F64 (i : Nat) : FieldRef := ⟨Reg.EGO_GNOISE i, 31, 0⟩
abbrev EGO_ANOISE_F64 (i : Nat) : FieldRef := ⟨Reg.EGO_ANOISE i, 31, 0⟩
abbrev EGO_GWALK_F64 (i : Nat) : FieldRef := ⟨Reg.EGO_GWALK i, 31, 0⟩
abbrev EGO_AWALK_F64 (i : Nat) : FieldRef := ⟨Reg.EGO_AWALK i, 31, 0⟩
abbrev EGO_GRAV_LO_F64 : FieldRef := ⟨Reg.EGO_GRAV_LO, 31, 0⟩
abbrev EGO_GRAV_HI_F64 : FieldRef := ⟨Reg.EGO_GRAV_HI, 31, 0⟩
abbrev EGO_SLIP_CNT_COUNT : FieldRef := ⟨Reg.EGO_SLIP_CNT, 31, 0⟩
abbrev EGO_LATE_CNT_COUNT : FieldRef := ⟨Reg.EGO_LATE_CNT, 31, 0⟩
abbrev EGO_NOIMU_CNT_COUNT : FieldRef := ⟨Reg.EGO_NOIMU_CNT, 31, 0⟩
abbrev EGO_INIT_F64 (i j : Nat) : FieldRef := ⟨Reg.EGO_INIT i j, 31, 0⟩
abbrev EGO_INITP_F64 (i j : Nat) : FieldRef := ⟨Reg.EGO_INITP i j, 31, 0⟩
abbrev EGO_NOM_F64 (i j : Nat) : FieldRef := ⟨Reg.EGO_NOM i j, 31, 0⟩
abbrev EGO_PRED_F64 (i j : Nat) : FieldRef := ⟨Reg.EGO_PRED i j, 31, 0⟩
abbrev EGO_PRED_TICK_TICK (i : Nat) : FieldRef := ⟨Reg.EGO_PRED_TICK i, 31, 0⟩
abbrev VIS_CLK_MHZ : FieldRef := ⟨Reg.VIS_CLK, 9, 0⟩
abbrev VIS_ENG_CTRL_RESET (i : Nat) : FieldRef := ⟨Reg.VIS_ENG_CTRL i, 31, 31⟩
abbrev VIS_ENG_STAT_BUSY (i : Nat) : FieldRef := ⟨Reg.VIS_ENG_STAT i, 31, 31⟩
abbrev VIS_ENG_STAT_RST_BUSY (i : Nat) : FieldRef := ⟨Reg.VIS_ENG_STAT i, 30, 30⟩
abbrev VIS_ENG_STAT_JOB (i : Nat) : FieldRef := ⟨Reg.VIS_ENG_STAT i, 27, 24⟩
abbrev VIS_ENG_STAT_ERR (i : Nat) : FieldRef := ⟨Reg.VIS_ENG_STAT i, 16, 16⟩
abbrev VIS_ENG_STAT_ERR_CODE (i : Nat) : FieldRef := ⟨Reg.VIS_ENG_STAT i, 15, 8⟩
abbrev VIS_ENG_STAT_ERR_JOB (i : Nat) : FieldRef := ⟨Reg.VIS_ENG_STAT i, 3, 0⟩
abbrev VIS_ENG_ARMED_JOBS (i : Nat) : FieldRef := ⟨Reg.VIS_ENG_ARMED i, 15, 0⟩
abbrev VIS_ENG_DONE_JOBS (i : Nat) : FieldRef := ⟨Reg.VIS_ENG_DONE i, 15, 0⟩
abbrev VIS_ENG_LASTJ_NS (i : Nat) : FieldRef := ⟨Reg.VIS_ENG_LASTJ i, 31, 0⟩
abbrev VIS_ENG_SKIP_COUNT (i : Nat) : FieldRef := ⟨Reg.VIS_ENG_SKIP i, 31, 0⟩
abbrev VIS_ENG_ERRCNT_COUNT (i : Nat) : FieldRef := ⟨Reg.VIS_ENG_ERRCNT i, 31, 0⟩
abbrev VIS_ENG_CUT_COUNT (i : Nat) : FieldRef := ⟨Reg.VIS_ENG_CUT i, 31, 0⟩
abbrev FUS_DS_CFG_HOLD : FieldRef := ⟨Reg.FUS_DS_CFG, 31, 24⟩
abbrev FUS_DS_CFG_DEMOTE_N : FieldRef := ⟨Reg.FUS_DS_CFG, 23, 16⟩
abbrev FUS_DS_CFG_LOC_TICKS : FieldRef := ⟨Reg.FUS_DS_CFG, 15, 8⟩
abbrev FUS_DS_CFG_CAM_MODAL : FieldRef := ⟨Reg.FUS_DS_CFG, 7, 4⟩
abbrev FUS_DS_DR_DR_MS : FieldRef := ⟨Reg.FUS_DS_DR, 31, 0⟩
abbrev FUS_DS_CTRL_FORCE4 : FieldRef := ⟨Reg.FUS_DS_CTRL, 1, 1⟩
abbrev FUS_DS_CTRL_SUSPEND : FieldRef := ⟨Reg.FUS_DS_CTRL, 0, 0⟩
abbrev FUS_DS_STAT_STEP : FieldRef := ⟨Reg.FUS_DS_STAT, 31, 29⟩
abbrev FUS_DS_STAT_RAW : FieldRef := ⟨Reg.FUS_DS_STAT, 26, 24⟩
abbrev FUS_DS_STAT_DR_RUN : FieldRef := ⟨Reg.FUS_DS_STAT, 16, 16⟩
abbrev FUS_DS_STAT_SAFE : FieldRef := ⟨Reg.FUS_DS_STAT, 8, 8⟩
abbrev FUS_DS_STAT_LOC_SUSP : FieldRef := ⟨Reg.FUS_DS_STAT, 3, 3⟩
abbrev FUS_DS_STAT_DS_UP : FieldRef := ⟨Reg.FUS_DS_STAT, 2, 2⟩
abbrev FUS_DS_STAT_DEMOTE_EV : FieldRef := ⟨Reg.FUS_DS_STAT, 1, 1⟩
abbrev FUS_DS_STAT_RESTORE_EV : FieldRef := ⟨Reg.FUS_DS_STAT, 0, 0⟩
abbrev FUS_DS_DRLEFT_MS : FieldRef := ⟨Reg.FUS_DS_DRLEFT, 31, 0⟩
abbrev FUS_MON_MON (i : Nat) : FieldRef := ⟨Reg.FUS_MON i, 31, 0⟩
abbrev FUS_LOST_LOST (i : Nat) : FieldRef := ⟨Reg.FUS_LOST i, 31, 0⟩
abbrev FUS_DEMOTE_DEM (i : Nat) : FieldRef := ⟨Reg.FUS_DEMOTE i, 31, 0⟩
abbrev FUS_DEMOTE_CFG_DIS_CELLS : FieldRef := ⟨Reg.FUS_DEMOTE_CFG, 31, 16⟩
abbrev FUS_DEMOTE_CFG_RESTORE : FieldRef := ⟨Reg.FUS_DEMOTE_CFG, 15, 0⟩
abbrev FUS_GRID_CFG_CAP2 : FieldRef := ⟨Reg.FUS_GRID_CFG, 12, 8⟩
abbrev FUS_GRID_CFG_CONF_MIN : FieldRef := ⟨Reg.FUS_GRID_CFG, 4, 0⟩
abbrev FUS_GRID_STAT_CONTESTED : FieldRef := ⟨Reg.FUS_GRID_STAT, 31, 0⟩
abbrev FUS_THRACT_ACT (i : Nat) : FieldRef := ⟨Reg.FUS_THRACT i, 31, 0⟩
abbrev FUS_TRK_NEXT_ID : FieldRef := ⟨Reg.FUS_TRK_NEXT, 31, 0⟩
abbrev FUS_TRK_STAT_EXHAUSTED : FieldRef := ⟨Reg.FUS_TRK_STAT, 31, 31⟩
abbrev FUS_TRK_STAT_NEXT_REFUSED : FieldRef := ⟨Reg.FUS_TRK_STAT, 30, 30⟩
abbrev FUS_TRK_STAT_LIVE : FieldRef := ⟨Reg.FUS_TRK_STAT, 11, 0⟩
abbrev FUS_TRK_CFG_BIRTH : FieldRef := ⟨Reg.FUS_TRK_CFG, 31, 24⟩
abbrev FUS_TRK_CFG_DEATH : FieldRef := ⟨Reg.FUS_TRK_CFG, 23, 16⟩
abbrev FUS_TRK_CFG_MAX_MISS : FieldRef := ⟨Reg.FUS_TRK_CFG, 15, 8⟩
abbrev FUS_TRK_FULL_COUNT : FieldRef := ⟨Reg.FUS_TRK_FULL, 31, 0⟩
abbrev FUS_CAL_EN_LIDAR : FieldRef := ⟨Reg.FUS_CAL_EN, 15, 8⟩
abbrev FUS_CAL_EN_CAM : FieldRef := ⟨Reg.FUS_CAL_EN, 5, 0⟩
abbrev FUS_CAL_TR_ROT_STEP : FieldRef := ⟨Reg.FUS_CAL_TR, 31, 16⟩
abbrev FUS_CAL_TR_TRANS_STEP : FieldRef := ⟨Reg.FUS_CAL_TR, 15, 0⟩
abbrev FUS_CAL_TRC_ROT_CUM : FieldRef := ⟨Reg.FUS_CAL_TRC, 31, 16⟩
abbrev FUS_CAL_TRC_TRANS_CUM : FieldRef := ⟨Reg.FUS_CAL_TRC, 15, 0⟩
abbrev FUS_CAL_TRI_INTR_CUM : FieldRef := ⟨Reg.FUS_CAL_TRI, 31, 16⟩
abbrev FUS_CAL_TRI_INTR_STEP : FieldRef := ⟨Reg.FUS_CAL_TRI, 15, 0⟩
abbrev FUS_CAL_STAT_RING_DROP : FieldRef := ⟨Reg.FUS_CAL_STAT, 2, 2⟩
abbrev FUS_CAL_STAT_REJECT_EV : FieldRef := ⟨Reg.FUS_CAL_STAT, 1, 1⟩
abbrev FUS_CAL_STAT_APPLY_EV : FieldRef := ⟨Reg.FUS_CAL_STAT, 0, 0⟩
abbrev FUS_CAL_APPLIED_COUNT : FieldRef := ⟨Reg.FUS_CAL_APPLIED, 31, 0⟩
abbrev FUS_CAL_REJECTED_COUNT : FieldRef := ⟨Reg.FUS_CAL_REJECTED, 31, 0⟩
abbrev FUS_CAL_RING_BASE_LO_BASE : FieldRef := ⟨Reg.FUS_CAL_RING_BASE_LO, 31, 6⟩
abbrev FUS_CAL_RING_BASE_HI_BASE : FieldRef := ⟨Reg.FUS_CAL_RING_BASE_HI, 31, 0⟩
abbrev FUS_CAL_RING_SIZE_SLOTS : FieldRef := ⟨Reg.FUS_CAL_RING_SIZE, 12, 0⟩
abbrev FUS_CAL_RING_WR_WR : FieldRef := ⟨Reg.FUS_CAL_RING_WR, 12, 0⟩
abbrev FUS_CAL_RING_RD_RD : FieldRef := ⟨Reg.FUS_CAL_RING_RD, 12, 0⟩
abbrev FUS_CAL_RING_DROP_COUNT : FieldRef := ⟨Reg.FUS_CAL_RING_DROP, 31, 0⟩
abbrev FUS_TBL_CMD_COMMIT : FieldRef := ⟨Reg.FUS_TBL_CMD, 31, 31⟩
abbrev FUS_TBL_CMD_PENDING : FieldRef := ⟨Reg.FUS_TBL_CMD, 30, 30⟩
abbrev FUS_SEN_F32 (i j : Nat) : FieldRef := ⟨Reg.FUS_SEN i j, 31, 0⟩
abbrev FUS_LIVE_F32 (i j : Nat) : FieldRef := ⟨Reg.FUS_LIVE i j, 31, 0⟩
abbrev SPEC_CTRL_ENABLE : FieldRef := ⟨Reg.SPEC_CTRL, 0, 0⟩
abbrev SPEC_CFG_POSE_OBJ : FieldRef := ⟨Reg.SPEC_CFG, 11, 0⟩
abbrev SPEC_GATE_POS_UM : FieldRef := ⟨Reg.SPEC_GATE_POS, 31, 0⟩
abbrev SPEC_GATE_YAW_URAD : FieldRef := ⟨Reg.SPEC_GATE_YAW, 31, 0⟩
abbrev SPEC_STAT_PENDING : FieldRef := ⟨Reg.SPEC_STAT, 31, 31⟩
abbrev SPEC_STAT_BLIND_RUN : FieldRef := ⟨Reg.SPEC_STAT, 30, 30⟩
abbrev SPEC_STAT_DEC : FieldRef := ⟨Reg.SPEC_STAT, 25, 24⟩
abbrev SPEC_STAT_CFG_REFUSED : FieldRef := ⟨Reg.SPEC_STAT, 2, 2⟩
abbrev SPEC_STAT_NO_POSE_EV : FieldRef := ⟨Reg.SPEC_STAT, 1, 1⟩
abbrev SPEC_STAT_GATE_EV : FieldRef := ⟨Reg.SPEC_STAT, 0, 0⟩
abbrev SPEC_DEC_TICK_LO_TICK : FieldRef := ⟨Reg.SPEC_DEC_TICK_LO, 31, 0⟩
abbrev SPEC_DEC_TICK_HI_TICK : FieldRef := ⟨Reg.SPEC_DEC_TICK_HI, 31, 0⟩
abbrev SPEC_LAST_DPOS_UM : FieldRef := ⟨Reg.SPEC_LAST_DPOS, 31, 0⟩
abbrev SPEC_LAST_DYAW_URAD : FieldRef := ⟨Reg.SPEC_LAST_DYAW, 31, 0⟩
abbrev SPEC_CONFIRM_CNT_COUNT : FieldRef := ⟨Reg.SPEC_CONFIRM_CNT, 31, 0⟩
abbrev SPEC_SQUASH_CNT_COUNT : FieldRef := ⟨Reg.SPEC_SQUASH_CNT, 31, 0⟩
abbrev MAP_OBJ0_KFV_OBJ : FieldRef := ⟨Reg.MAP_OBJ0, 27, 16⟩
abbrev MAP_OBJ0_LMK_OBJ : FieldRef := ⟨Reg.MAP_OBJ0, 11, 0⟩
abbrev MAP_OBJ1_GRAPH_OBJ : FieldRef := ⟨Reg.MAP_OBJ1, 27, 16⟩
abbrev MAP_OBJ1_UPD_OBJ : FieldRef := ⟨Reg.MAP_OBJ1, 11, 0⟩
abbrev MAP_OBJ2_VER_OBJ : FieldRef := ⟨Reg.MAP_OBJ2, 11, 0⟩
abbrev MAP_LMK_CFG_MIN_AGE : FieldRef := ⟨Reg.MAP_LMK_CFG, 15, 0⟩
abbrev MAP_LOOP_CFG_ITER : FieldRef := ⟨Reg.MAP_LOOP_CFG, 26, 16⟩
abbrev MAP_LOOP_CFG_MIN_RATIO : FieldRef := ⟨Reg.MAP_LOOP_CFG, 15, 8⟩
abbrev MAP_LOOP_CFG_MIN_INL : FieldRef := ⟨Reg.MAP_LOOP_CFG, 7, 0⟩
abbrev MAP_LOOP_THR_UM : FieldRef := ⟨Reg.MAP_LOOP_THR, 31, 0⟩
abbrev MAP_LOOP_STREAM_STREAM : FieldRef := ⟨Reg.MAP_LOOP_STREAM, 31, 0⟩
abbrev MAP_LOOP_INFO_T_F32 : FieldRef := ⟨Reg.MAP_LOOP_INFO_T, 31, 0⟩
abbrev MAP_LOOP_INFO_R_F32 : FieldRef := ⟨Reg.MAP_LOOP_INFO_R, 31, 0⟩
abbrev MAP_ODO_INFO_T_F32 : FieldRef := ⟨Reg.MAP_ODO_INFO_T, 31, 0⟩
abbrev MAP_ODO_INFO_R_F32 : FieldRef := ⟨Reg.MAP_ODO_INFO_R, 31, 0⟩
abbrev MAP_STAT_LMK_UE : FieldRef := ⟨Reg.MAP_STAT, 6, 6⟩
abbrev MAP_STAT_RELOC_EV : FieldRef := ⟨Reg.MAP_STAT, 5, 5⟩
abbrev MAP_STAT_LOOP_EV : FieldRef := ⟨Reg.MAP_STAT, 4, 4⟩
abbrev MAP_STAT_GRAPH_FULL : FieldRef := ⟨Reg.MAP_STAT, 3, 3⟩
abbrev MAP_STAT_LMK_FULL : FieldRef := ⟨Reg.MAP_STAT, 2, 2⟩
abbrev MAP_STAT_UPD_SKIP : FieldRef := ⟨Reg.MAP_STAT, 1, 1⟩
abbrev MAP_STAT_CFG_REFUSED : FieldRef := ⟨Reg.MAP_STAT, 0, 0⟩
abbrev MAP_LMK_VALID_COUNT : FieldRef := ⟨Reg.MAP_LMK_VALID, 16, 0⟩
abbrev MAP_KF_NEXT_ID : FieldRef := ⟨Reg.MAP_KF_NEXT, 31, 0⟩
abbrev MAP_KF_COUNT_COUNT : FieldRef := ⟨Reg.MAP_KF_COUNT, 5, 0⟩
abbrev MAP_GRAPH_NODES_COUNT : FieldRef := ⟨Reg.MAP_GRAPH_NODES, 16, 0⟩
abbrev MAP_GRAPH_EDGES_COUNT : FieldRef := ⟨Reg.MAP_GRAPH_EDGES, 17, 0⟩
abbrev MAP_UPD_APPLIED_COUNT : FieldRef := ⟨Reg.MAP_UPD_APPLIED, 31, 0⟩
abbrev MAP_UPD_DROPPED_COUNT : FieldRef := ⟨Reg.MAP_UPD_DROPPED, 31, 0⟩
abbrev MAP_UPD_SKIP_COUNT : FieldRef := ⟨Reg.MAP_UPD_SKIP, 31, 0⟩
abbrev MAP_LMK_FULL_COUNT : FieldRef := ⟨Reg.MAP_LMK_FULL, 31, 0⟩
abbrev MAP_LOOP_ACCEPT_COUNT : FieldRef := ⟨Reg.MAP_LOOP_ACCEPT, 31, 0⟩
abbrev MAP_LOOP_REJECT_COUNT : FieldRef := ⟨Reg.MAP_LOOP_REJECT, 31, 0⟩
abbrev MAP_LOOP_CUT_COUNT : FieldRef := ⟨Reg.MAP_LOOP_CUT, 31, 0⟩
abbrev MAP_RELOC_NODE_NODE : FieldRef := ⟨Reg.MAP_RELOC_NODE, 14, 0⟩
abbrev MAP_RELOC_TICK_LO_TICK : FieldRef := ⟨Reg.MAP_RELOC_TICK_LO, 31, 0⟩
abbrev MAP_RELOC_TICK_HI_TICK : FieldRef := ⟨Reg.MAP_RELOC_TICK_HI, 31, 0⟩
abbrev MAP_LMK_RD_IDX_GO : FieldRef := ⟨Reg.MAP_LMK_RD_IDX, 31, 31⟩
abbrev MAP_LMK_RD_IDX_BUSY : FieldRef := ⟨Reg.MAP_LMK_RD_IDX, 30, 30⟩
abbrev MAP_LMK_RD_IDX_UE : FieldRef := ⟨Reg.MAP_LMK_RD_IDX, 29, 29⟩
abbrev MAP_LMK_RD_IDX_SLOT : FieldRef := ⟨Reg.MAP_LMK_RD_IDX, 15, 0⟩
abbrev MAP_LMK_RD_DATA_DATA (i : Nat) : FieldRef := ⟨Reg.MAP_LMK_RD_DATA i, 31, 0⟩
abbrev SRCH_STAT_BADCW_FULL : FieldRef := ⟨Reg.SRCH_STAT, 2, 2⟩
abbrev SRCH_STAT_CFG_REFUSED : FieldRef := ⟨Reg.SRCH_STAT, 0, 0⟩
abbrev SRCH_CTX_FREE_FREE : FieldRef := ⟨Reg.SRCH_CTX_FREE, 11, 0⟩
abbrev SRCH_BADCW_CNT_COUNT : FieldRef := ⟨Reg.SRCH_BADCW_CNT, 6, 0⟩
abbrev SRCH_SIDE_CMD_GO : FieldRef := ⟨Reg.SRCH_SIDE_CMD, 31, 31⟩
abbrev SRCH_SIDE_CMD_OP : FieldRef := ⟨Reg.SRCH_SIDE_CMD, 30, 29⟩
abbrev SRCH_SIDE_CMD_INDEX : FieldRef := ⟨Reg.SRCH_SIDE_CMD, 1, 0⟩
abbrev SRCH_SIDE_SRC_LO_SRC : FieldRef := ⟨Reg.SRCH_SIDE_SRC_LO, 31, 6⟩
abbrev SRCH_SIDE_SRC_HI_SRC : FieldRef := ⟨Reg.SRCH_SIDE_SRC_HI, 31, 0⟩
abbrev SRCH_SIDE_ID_LO_ID : FieldRef := ⟨Reg.SRCH_SIDE_ID_LO, 31, 0⟩
abbrev SRCH_SIDE_ID_HI_ID : FieldRef := ⟨Reg.SRCH_SIDE_ID_HI, 7, 0⟩
abbrev SRCH_SIDE_STAT_BUSY : FieldRef := ⟨Reg.SRCH_SIDE_STAT, 31, 31⟩
abbrev SRCH_SIDE_STAT_DONE : FieldRef := ⟨Reg.SRCH_SIDE_STAT, 30, 30⟩
abbrev SRCH_SIDE_STAT_STATUS : FieldRef := ⟨Reg.SRCH_SIDE_STAT, 23, 16⟩
abbrev SRCH_MRG_CTRL_GO : FieldRef := ⟨Reg.SRCH_MRG_CTRL, 31, 31⟩
abbrev SRCH_MRG_CTRL_ABORT : FieldRef := ⟨Reg.SRCH_MRG_CTRL, 30, 30⟩
abbrev SRCH_MRG_CTRL_PIPE : FieldRef := ⟨Reg.SRCH_MRG_CTRL, 13, 8⟩
abbrev SRCH_MRG_CTRL_INDEX : FieldRef := ⟨Reg.SRCH_MRG_CTRL, 1, 0⟩
abbrev SRCH_MRG_HDR_LO_ADDR : FieldRef := ⟨Reg.SRCH_MRG_HDR_LO, 31, 0⟩
abbrev SRCH_MRG_HDR_HI_ADDR : FieldRef := ⟨Reg.SRCH_MRG_HDR_HI, 31, 0⟩
abbrev SRCH_MRG_NODE_LO_ADDR : FieldRef := ⟨Reg.SRCH_MRG_NODE_LO, 31, 0⟩
abbrev SRCH_MRG_NODE_HI_ADDR : FieldRef := ⟨Reg.SRCH_MRG_NODE_HI, 31, 0⟩
abbrev SRCH_MRG_DESC_LO_ADDR : FieldRef := ⟨Reg.SRCH_MRG_DESC_LO, 31, 0⟩
abbrev SRCH_MRG_DESC_HI_ADDR : FieldRef := ⟨Reg.SRCH_MRG_DESC_HI, 31, 0⟩
abbrev SRCH_MRG_CFG_HOPS : FieldRef := ⟨Reg.SRCH_MRG_CFG, 25, 16⟩
abbrev SRCH_MRG_CFG_QLEN : FieldRef := ⟨Reg.SRCH_MRG_CFG, 9, 0⟩
abbrev SRCH_MRG_STAT_BUSY : FieldRef := ⟨Reg.SRCH_MRG_STAT, 31, 31⟩
abbrev SRCH_MRG_STAT_DONE : FieldRef := ⟨Reg.SRCH_MRG_STAT, 30, 30⟩
abbrev SRCH_MRG_STAT_STATUS : FieldRef := ⟨Reg.SRCH_MRG_STAT, 23, 16⟩
abbrev SRCH_MRG_PROG_ITEMS : FieldRef := ⟨Reg.SRCH_MRG_PROG, 31, 0⟩
abbrev SRCH_MRG_SEQ_LO_M : FieldRef := ⟨Reg.SRCH_MRG_SEQ_LO, 31, 0⟩
abbrev SRCH_MRG_SEQ_HI_M : FieldRef := ⟨Reg.SRCH_MRG_SEQ_HI, 31, 0⟩
abbrev SRCH_FW_SRC_LO_ADDR : FieldRef := ⟨Reg.SRCH_FW_SRC_LO, 31, 0⟩
abbrev SRCH_FW_SRC_HI_ADDR : FieldRef := ⟨Reg.SRCH_FW_SRC_HI, 31, 0⟩
abbrev SRCH_FW_DST_LO_ADDR : FieldRef := ⟨Reg.SRCH_FW_DST_LO, 31, 0⟩
abbrev SRCH_FW_DST_HI_ADDR : FieldRef := ⟨Reg.SRCH_FW_DST_HI, 31, 0⟩
abbrev SRCH_FW_LEN_LEN : FieldRef := ⟨Reg.SRCH_FW_LEN, 31, 0⟩
abbrev SRCH_FW_CTRL_GO : FieldRef := ⟨Reg.SRCH_FW_CTRL, 31, 31⟩
abbrev SRCH_FW_STAT_BUSY : FieldRef := ⟨Reg.SRCH_FW_STAT, 31, 31⟩
abbrev SRCH_FW_STAT_DONE : FieldRef := ⟨Reg.SRCH_FW_STAT, 30, 30⟩
abbrev SRCH_FW_STAT_STATUS : FieldRef := ⟨Reg.SRCH_FW_STAT, 23, 16⟩
abbrev SRCH_ENG_FREE (i : Nat) : FieldRef := ⟨Reg.SRCH_ENG i, 8, 0⟩
abbrev SRCH_IDX_HDR_LO_ADDR (i : Nat) : FieldRef := ⟨Reg.SRCH_IDX_HDR_LO i, 31, 0⟩
abbrev SRCH_IDX_HDR_HI_ADDR (i : Nat) : FieldRef := ⟨Reg.SRCH_IDX_HDR_HI i, 31, 0⟩
abbrev SRCH_IDX_SIDE_LO_BASE (i : Nat) : FieldRef := ⟨Reg.SRCH_IDX_SIDE_LO i, 31, 6⟩
abbrev SRCH_IDX_SIDE_HI_BASE (i : Nat) : FieldRef := ⟨Reg.SRCH_IDX_SIDE_HI i, 31, 0⟩
abbrev SRCH_IDX_CTRL_ATTACH (i : Nat) : FieldRef := ⟨Reg.SRCH_IDX_CTRL i, 31, 31⟩
abbrev SRCH_IDX_CTRL_DETACH (i : Nat) : FieldRef := ⟨Reg.SRCH_IDX_CTRL i, 30, 30⟩
abbrev SRCH_IDX_CTRL_SWAP (i : Nat) : FieldRef := ⟨Reg.SRCH_IDX_CTRL i, 29, 29⟩
abbrev SRCH_IDX_STAT_ATTACHED (i : Nat) : FieldRef := ⟨Reg.SRCH_IDX_STAT i, 31, 31⟩
abbrev SRCH_IDX_STAT_DETACHING (i : Nat) : FieldRef := ⟨Reg.SRCH_IDX_STAT i, 30, 30⟩
abbrev SRCH_IDX_STAT_SWAP_PEND (i : Nat) : FieldRef := ⟨Reg.SRCH_IDX_STAT i, 29, 29⟩
abbrev SRCH_IDX_STAT_STATUS (i : Nat) : FieldRef := ⟨Reg.SRCH_IDX_STAT i, 23, 16⟩
abbrev SRCH_IDX_STAT_SIDE_FULL (i : Nat) : FieldRef := ⟨Reg.SRCH_IDX_STAT i, 8, 8⟩
abbrev SRCH_IDX_N_LO_N (i : Nat) : FieldRef := ⟨Reg.SRCH_IDX_N_LO i, 31, 0⟩
abbrev SRCH_IDX_N_HI_N (i : Nat) : FieldRef := ⟨Reg.SRCH_IDX_N_HI i, 31, 0⟩
abbrev SRCH_IDX_SEQ_LO_SEQ (i : Nat) : FieldRef := ⟨Reg.SRCH_IDX_SEQ_LO i, 31, 0⟩
abbrev SRCH_IDX_SEQ_HI_SEQ (i : Nat) : FieldRef := ⟨Reg.SRCH_IDX_SEQ_HI i, 31, 0⟩
abbrev SRCH_IDX_NEXT_LO_NEXT (i : Nat) : FieldRef := ⟨Reg.SRCH_IDX_NEXT_LO i, 31, 0⟩
abbrev SRCH_IDX_NEXT_HI_NEXT (i : Nat) : FieldRef := ⟨Reg.SRCH_IDX_NEXT_HI i, 7, 0⟩
abbrev SRCH_IDX_SIDE_CNT_COUNT (i : Nat) : FieldRef := ⟨Reg.SRCH_IDX_SIDE_CNT i, 14, 0⟩
abbrev SRCH_IDX_ACTIVE_COUNT (i : Nat) : FieldRef := ⟨Reg.SRCH_IDX_ACTIVE i, 11, 0⟩
abbrev SRCH_QSRC_CFG_ENABLE (i : Nat) : FieldRef := ⟨Reg.SRCH_QSRC_CFG i, 31, 31⟩
abbrev SRCH_QSRC_CFG_DELIVER (i : Nat) : FieldRef := ⟨Reg.SRCH_QSRC_CFG i, 27, 24⟩
abbrev SRCH_QSRC_CFG_PORT (i : Nat) : FieldRef := ⟨Reg.SRCH_QSRC_CFG i, 18, 16⟩
abbrev SRCH_QSRC_CFG_STAGE (i : Nat) : FieldRef := ⟨Reg.SRCH_QSRC_CFG i, 15, 0⟩
abbrev SRCH_QSRC_RES_KMAX (i : Nat) : FieldRef := ⟨Reg.SRCH_QSRC_RES i, 24, 16⟩
abbrev SRCH_QSRC_RES_RES_OBJ (i : Nat) : FieldRef := ⟨Reg.SRCH_QSRC_RES i, 11, 0⟩
abbrev SOLV_CFG_EPS_EXP : FieldRef := ⟨Reg.SOLV_CFG, 5, 0⟩
abbrev SOLV_CTRL_RESET : FieldRef := ⟨Reg.SOLV_CTRL, 31, 31⟩
abbrev SOLV_CTRL_GRAPH_REQ : FieldRef := ⟨Reg.SOLV_CTRL, 30, 30⟩
abbrev SOLV_STAT_BUSY : FieldRef := ⟨Reg.SOLV_STAT, 31, 31⟩
abbrev SOLV_STAT_RST_BUSY : FieldRef := ⟨Reg.SOLV_STAT, 30, 30⟩
abbrev SOLV_STAT_GRAPH_RUN : FieldRef := ⟨Reg.SOLV_STAT, 29, 29⟩
abbrev SOLV_STAT_GRAPH_HELD : FieldRef := ⟨Reg.SOLV_STAT, 28, 28⟩
abbrev SOLV_STAT_JOB : FieldRef := ⟨Reg.SOLV_STAT, 18, 16⟩
abbrev SOLV_STAT_ASG_BAD : FieldRef := ⟨Reg.SOLV_STAT, 4, 4⟩
abbrev SOLV_STAT_INVALID_EV : FieldRef := ⟨Reg.SOLV_STAT, 3, 3⟩
abbrev SOLV_STAT_CLAMP_EV : FieldRef := ⟨Reg.SOLV_STAT, 2, 2⟩
abbrev SOLV_STAT_NONFIN_EV : FieldRef := ⟨Reg.SOLV_STAT, 1, 1⟩
abbrev SOLV_STAT_SHIFT_EV : FieldRef := ⟨Reg.SOLV_STAT, 0, 0⟩
abbrev SOLV_CLK_MHZ : FieldRef := ⟨Reg.SOLV_CLK, 10, 0⟩
abbrev SOLV_SCRATCH_KIB : FieldRef := ⟨Reg.SOLV_SCRATCH, 31, 0⟩
abbrev SOLV_ASG_STAT_BUSY : FieldRef := ⟨Reg.SOLV_ASG_STAT, 31, 31⟩
abbrev SOLV_ASG_STAT_UNASSIGNED : FieldRef := ⟨Reg.SOLV_ASG_STAT, 25, 16⟩
abbrev SOLV_ASG_STAT_ROWS : FieldRef := ⟨Reg.SOLV_ASG_STAT, 9, 0⟩
abbrev SOLV_ASG_LAST_NS : FieldRef := ⟨Reg.SOLV_ASG_LAST, 31, 0⟩
abbrev SOLV_JOB_STAT_ARMED (i : Nat) : FieldRef := ⟨Reg.SOLV_JOB_STAT i, 31, 31⟩
abbrev SOLV_JOB_STAT_DONE (i : Nat) : FieldRef := ⟨Reg.SOLV_JOB_STAT i, 30, 30⟩
abbrev SOLV_JOB_STAT_STATUS (i : Nat) : FieldRef := ⟨Reg.SOLV_JOB_STAT i, 23, 16⟩
abbrev SOLV_JOB_STAT_ITER (i : Nat) : FieldRef := ⟨Reg.SOLV_JOB_STAT i, 15, 0⟩
abbrev SOLV_JOB_CLAMP_COUNT (i : Nat) : FieldRef := ⟨Reg.SOLV_JOB_CLAMP i, 15, 0⟩
abbrev SOLV_JOB_LAST_NS (i : Nat) : FieldRef := ⟨Reg.SOLV_JOB_LAST i, 31, 0⟩
abbrev SOLV_JOB_SHIFT_COUNT (i : Nat) : FieldRef := ⟨Reg.SOLV_JOB_SHIFT i, 31, 0⟩
abbrev SOLV_JOB_NONFIN_COUNT (i : Nat) : FieldRef := ⟨Reg.SOLV_JOB_NONFIN i, 31, 0⟩
abbrev SOLV_JOB_COST_F32 (i : Nat) : FieldRef := ⟨Reg.SOLV_JOB_COST i, 31, 0⟩
abbrev PANE_ID_PHYS (i : Nat) : FieldRef := ⟨Reg.PANE_ID i, 13, 8⟩
abbrev PANE_ID_IN_IMAGE (i : Nat) : FieldRef := ⟨Reg.PANE_ID i, 7, 7⟩
abbrev PANE_ID_LOGICAL (i : Nat) : FieldRef := ⟨Reg.PANE_ID i, 5, 0⟩
abbrev PANE_STATE_CLK_STOP (i : Nat) : FieldRef := ⟨Reg.PANE_STATE i, 31, 31⟩
abbrev PANE_STATE_SRAM_UE (i : Nat) : FieldRef := ⟨Reg.PANE_STATE i, 8, 8⟩
abbrev PANE_STATE_NSTAGE (i : Nat) : FieldRef := ⟨Reg.PANE_STATE i, 4, 0⟩
abbrev PANE_SRAM_USED (i : Nat) : FieldRef := ⟨Reg.PANE_SRAM i, 21, 0⟩
abbrev PANE_SSTAT_VALID (i j : Nat) : FieldRef := ⟨Reg.PANE_SSTAT i j, 31, 31⟩
abbrev PANE_SSTAT_ARMED (i j : Nat) : FieldRef := ⟨Reg.PANE_SSTAT i j, 30, 30⟩
abbrev PANE_SSTAT_FINISHED (i j : Nat) : FieldRef := ⟨Reg.PANE_SSTAT i j, 29, 29⟩
abbrev PANE_SSTAT_CUT (i j : Nat) : FieldRef := ⟨Reg.PANE_SSTAT i j, 28, 28⟩
abbrev PANE_SSTAT_POISONED (i j : Nat) : FieldRef := ⟨Reg.PANE_SSTAT i j, 27, 27⟩
abbrev PANE_SSTAT_BLIND (i j : Nat) : FieldRef := ⟨Reg.PANE_SSTAT i j, 26, 26⟩
abbrev PANE_SSTAT_IDX_OOB (i j : Nat) : FieldRef := ⟨Reg.PANE_SSTAT i j, 25, 25⟩
abbrev PANE_SSTAT_DROP (i j : Nat) : FieldRef := ⟨Reg.PANE_SSTAT i j, 24, 24⟩
abbrev PANE_SSTAT_STAGE_ID (i j : Nat) : FieldRef := ⟨Reg.PANE_SSTAT i j, 15, 0⟩
abbrev PANE_SFIRE_FIRINGS (i j : Nat) : FieldRef := ⟨Reg.PANE_SFIRE i j, 31, 0⟩
abbrev PANE_SWTOK_CYCLES (i j : Nat) : FieldRef := ⟨Reg.PANE_SWTOK i j, 31, 0⟩
abbrev PANE_SWCRD_CYCLES (i j : Nat) : FieldRef := ⟨Reg.PANE_SWCRD i j, 31, 0⟩
abbrev PANE_LINK_CRED (i j : Nat) : FieldRef := ⟨Reg.PANE_LINK i j, 15, 0⟩
abbrev PANE_ASLOT_VALID (i j : Nat) : FieldRef := ⟨Reg.PANE_ASLOT i j, 31, 31⟩
abbrev PANE_ASLOT_STAGE_ID (i j : Nat) : FieldRef := ⟨Reg.PANE_ASLOT i j, 15, 0⟩
abbrev PANE_ASTAT_ACC_SAT (i j : Nat) : FieldRef := ⟨Reg.PANE_ASTAT i j, 31, 31⟩
abbrev PANE_ASTAT_CVT_SAT (i j : Nat) : FieldRef := ⟨Reg.PANE_ASTAT i j, 30, 30⟩
abbrev PANE_ASTAT_NAN_OUT (i j : Nat) : FieldRef := ⟨Reg.PANE_ASTAT i j, 29, 29⟩
abbrev PANE_ASTAT_FTZ_HIT (i j : Nat) : FieldRef := ⟨Reg.PANE_ASTAT i j, 28, 28⟩
abbrev PANE_ASTAT_SCALE_NAN (i j : Nat) : FieldRef := ⟨Reg.PANE_ASTAT i j, 27, 27⟩
abbrev PANE_ASTAT_SPARSE_ERR (i j : Nat) : FieldRef := ⟨Reg.PANE_ASTAT i j, 26, 26⟩
abbrev PANE_ASTAT_EVT_TICKS (i j : Nat) : FieldRef := ⟨Reg.PANE_ASTAT i j, 15, 0⟩
abbrev CNT_CTRL_SNAP : FieldRef := ⟨Reg.CNT_CTRL, 31, 31⟩
abbrev CNT_EPOCH_EPOCH : FieldRef := ⟨Reg.CNT_EPOCH, 31, 0⟩
abbrev CNT_STAT_BUSY : FieldRef := ⟨Reg.CNT_STAT, 31, 31⟩
abbrev CNT_STAT_MERGED : FieldRef := ⟨Reg.CNT_STAT, 1, 1⟩
abbrev CNT_STAT_SNAP_REFUSED : FieldRef := ⟨Reg.CNT_STAT, 0, 0⟩
abbrev CNT_CLASS_NCNT (i : Nat) : FieldRef := ⟨Reg.CNT_CLASS i, 11, 0⟩
abbrev FLT_STAT_STOP : FieldRef := ⟨Reg.FLT_STAT, 31, 31⟩
abbrev FLT_STAT_STOP_CODE : FieldRef := ⟨Reg.FLT_STAT, 23, 16⟩
abbrev FLT_STAT_SAFE_WHY : FieldRef := ⟨Reg.FLT_STAT, 12, 8⟩
abbrev FLT_STAT_LIFE_EV : FieldRef := ⟨Reg.FLT_STAT, 7, 7⟩
abbrev FLT_STAT_INJ_REFUSED : FieldRef := ⟨Reg.FLT_STAT, 6, 6⟩
abbrev FLT_STAT_CLR_REFUSED : FieldRef := ⟨Reg.FLT_STAT, 5, 5⟩
abbrev FLT_STAT_HINGE_LOST : FieldRef := ⟨Reg.FLT_STAT, 4, 4⟩
abbrev FLT_STAT_LOG_OVF : FieldRef := ⟨Reg.FLT_STAT, 3, 3⟩
abbrev FLT_STAT_NOTIFY_EV : FieldRef := ⟨Reg.FLT_STAT, 1, 1⟩
abbrev FLT_STAT_STOP_EV : FieldRef := ⟨Reg.FLT_STAT, 0, 0⟩
abbrev FLT_CTRL_CLEAR : FieldRef := ⟨Reg.FLT_CTRL, 31, 31⟩
abbrev FLT_CFG_HINGE_SAFE : FieldRef := ⟨Reg.FLT_CFG, 0, 0⟩
abbrev FLT_WDT_MS : FieldRef := ⟨Reg.FLT_WDT, 7, 0⟩
abbrev FLT_INJ_KEY_KEY : FieldRef := ⟨Reg.FLT_INJ_KEY, 31, 0⟩
abbrev FLT_INJ_GO : FieldRef := ⟨Reg.FLT_INJ, 31, 31⟩
abbrev FLT_INJ_BUSY : FieldRef := ⟨Reg.FLT_INJ, 30, 30⟩
abbrev FLT_INJ_KIND : FieldRef := ⟨Reg.FLT_INJ, 27, 24⟩
abbrev FLT_INJ_TARGET : FieldRef := ⟨Reg.FLT_INJ, 15, 0⟩
abbrev FLT_LOG_HEAD_HEAD : FieldRef := ⟨Reg.FLT_LOG_HEAD, 5, 0⟩
abbrev FLT_LOG_TAIL_TAIL : FieldRef := ⟨Reg.FLT_LOG_TAIL, 5, 0⟩
abbrev FLT_LOG_DROP_COUNT : FieldRef := ⟨Reg.FLT_LOG_DROP, 31, 0⟩
abbrev FLT_LIFE_OVER_OVER : FieldRef := ⟨Reg.FLT_LIFE_OVER, 11, 0⟩
abbrev FLT_PREV_RECORD (i : Nat) : FieldRef := ⟨Reg.FLT_PREV i, 31, 0⟩
abbrev FLT_LIFE_LO_COUNT (i : Nat) : FieldRef := ⟨Reg.FLT_LIFE_LO i, 31, 0⟩
abbrev FLT_LIFE_HI_COUNT (i : Nat) : FieldRef := ⟨Reg.FLT_LIFE_HI i, 31, 0⟩
abbrev FLT_LOG_RECORD (i j : Nat) : FieldRef := ⟨Reg.FLT_LOG i j, 31, 0⟩
abbrev HINGE_ID_FAMILY : FieldRef := ⟨Reg.HINGE_ID, 31, 24⟩
abbrev HINGE_ID_STEP_LETTER : FieldRef := ⟨Reg.HINGE_ID, 23, 16⟩
abbrev HINGE_ID_STEP_DIGIT : FieldRef := ⟨Reg.HINGE_ID, 15, 12⟩
abbrev HINGE_MODE_LOCKED : FieldRef := ⟨Reg.HINGE_MODE, 31, 31⟩
abbrev HINGE_MODE_LATE_WR : FieldRef := ⟨Reg.HINGE_MODE, 1, 1⟩
abbrev HINGE_MODE_MODE : FieldRef := ⟨Reg.HINGE_MODE, 0, 0⟩
abbrev HINGE_LEAF_CTRL_RST_B : FieldRef := ⟨Reg.HINGE_LEAF_CTRL, 1, 1⟩
abbrev HINGE_LEAF_CTRL_RST_A : FieldRef := ⟨Reg.HINGE_LEAF_CTRL, 0, 0⟩
abbrev HINGE_LEAF_STAT_LAST_RST_B : FieldRef := ⟨Reg.HINGE_LEAF_STAT, 15, 12⟩
abbrev HINGE_LEAF_STAT_LAST_RST_A : FieldRef := ⟨Reg.HINGE_LEAF_STAT, 11, 8⟩
abbrev HINGE_LEAF_STAT_UP_B : FieldRef := ⟨Reg.HINGE_LEAF_STAT, 1, 1⟩
abbrev HINGE_LEAF_STAT_UP_A : FieldRef := ⟨Reg.HINGE_LEAF_STAT, 0, 0⟩
abbrev HINGE_LEAF_DROP_A_COUNT : FieldRef := ⟨Reg.HINGE_LEAF_DROP_A, 31, 0⟩
abbrev HINGE_LEAF_DROP_B_COUNT : FieldRef := ⟨Reg.HINGE_LEAF_DROP_B, 31, 0⟩
abbrev HINGE_BAR_CTRL_FIRE : FieldRef := ⟨Reg.HINGE_BAR_CTRL, 31, 31⟩
abbrev HINGE_BAR_CTRL_CANCEL : FieldRef := ⟨Reg.HINGE_BAR_CTRL, 30, 30⟩
abbrev HINGE_BAR_CTRL_SRC : FieldRef := ⟨Reg.HINGE_BAR_CTRL, 8, 8⟩
abbrev HINGE_BAR_CTRL_WIDTH : FieldRef := ⟨Reg.HINGE_BAR_CTRL, 7, 0⟩
abbrev HINGE_BAR_STAT_REFUSED : FieldRef := ⟨Reg.HINGE_BAR_STAT, 2, 2⟩
abbrev HINGE_BAR_STAT_PENDING : FieldRef := ⟨Reg.HINGE_BAR_STAT, 1, 1⟩
abbrev HINGE_BAR_STAT_SEEN : FieldRef := ⟨Reg.HINGE_BAR_STAT, 0, 0⟩
abbrev HINGE_BAR_CNT_COUNT : FieldRef := ⟨Reg.HINGE_BAR_CNT, 31, 0⟩
abbrev HINGE_BOOT_CFG_SRC_B : FieldRef := ⟨Reg.HINGE_BOOT_CFG, 5, 4⟩
abbrev HINGE_BOOT_CFG_SRC_A : FieldRef := ⟨Reg.HINGE_BOOT_CFG, 1, 0⟩
abbrev HINGE_BOOT_STAT_PHASE (i : Nat) : FieldRef := ⟨Reg.HINGE_BOOT_STAT i, 31, 28⟩
abbrev HINGE_BOOT_STAT_ERR (i : Nat) : FieldRef := ⟨Reg.HINGE_BOOT_STAT i, 23, 16⟩
abbrev HINGE_BOOT_STAT_COPY (i : Nat) : FieldRef := ⟨Reg.HINGE_BOOT_STAT i, 9, 8⟩
abbrev HINGE_BOOT_STAT_DONE_EV (i : Nat) : FieldRef := ⟨Reg.HINGE_BOOT_STAT i, 0, 0⟩
abbrev HINGE_BOOT_TIME_US (i : Nat) : FieldRef := ⟨Reg.HINGE_BOOT_TIME i, 31, 0⟩
abbrev HINGE_HBOOT_ADDR_LO_ADDR : FieldRef := ⟨Reg.HINGE_HBOOT_ADDR_LO, 31, 12⟩
abbrev HINGE_HBOOT_ADDR_HI_ADDR : FieldRef := ⟨Reg.HINGE_HBOOT_ADDR_HI, 31, 0⟩
abbrev HINGE_HBOOT_LEN_LEN : FieldRef := ⟨Reg.HINGE_HBOOT_LEN, 25, 0⟩
abbrev HINGE_HBOOT_CTRL_GO_B : FieldRef := ⟨Reg.HINGE_HBOOT_CTRL, 1, 1⟩
abbrev HINGE_HBOOT_CTRL_GO_A : FieldRef := ⟨Reg.HINGE_HBOOT_CTRL, 0, 0⟩
abbrev HINGE_RST_STAT_CAUSE : FieldRef := ⟨Reg.HINGE_RST_STAT, 1, 0⟩
abbrev HINGE_AGREE_CFG_STAMP_TOL : FieldRef := ⟨Reg.HINGE_AGREE_CFG, 31, 16⟩
abbrev HINGE_AGREE_CFG_PAIR_WIN : FieldRef := ⟨Reg.HINGE_AGREE_CFG, 15, 8⟩
abbrev HINGE_AGREE_CFG_ACTION : FieldRef := ⟨Reg.HINGE_AGREE_CFG, 0, 0⟩
abbrev HINGE_AGREE_CTRL_REARM : FieldRef := ⟨Reg.HINGE_AGREE_CTRL, 0, 0⟩
abbrev HINGE_AGREE_STAT_CAUSE : FieldRef := ⟨Reg.HINGE_AGREE_STAT, 23, 16⟩
abbrev HINGE_AGREE_STAT_SINGLE : FieldRef := ⟨Reg.HINGE_AGREE_STAT, 2, 2⟩
abbrev HINGE_AGREE_STAT_ACTIVE : FieldRef := ⟨Reg.HINGE_AGREE_STAT, 1, 1⟩
abbrev HINGE_AGREE_STAT_FAULT : FieldRef := ⟨Reg.HINGE_AGREE_STAT, 0, 0⟩
abbrev HINGE_AGREE_CNT_COUNT : FieldRef := ⟨Reg.HINGE_AGREE_CNT, 31, 0⟩
abbrev HINGE_AGREE_TICK_LO_TICK : FieldRef := ⟨Reg.HINGE_AGREE_TICK_LO, 31, 0⟩
abbrev HINGE_AGREE_TICK_HI_TICK : FieldRef := ⟨Reg.HINGE_AGREE_TICK_HI, 31, 0⟩
abbrev HINGE_AGREE_STAGE_KIND : FieldRef := ⟨Reg.HINGE_AGREE_STAGE, 31, 31⟩
abbrev HINGE_AGREE_STAGE_INDEX : FieldRef := ⟨Reg.HINGE_AGREE_STAGE, 15, 0⟩
abbrev HINGE_AGREE_DIGA_LO_DIG : FieldRef := ⟨Reg.HINGE_AGREE_DIGA_LO, 31, 0⟩
abbrev HINGE_AGREE_DIGA_HI_DIG : FieldRef := ⟨Reg.HINGE_AGREE_DIGA_HI, 31, 0⟩
abbrev HINGE_AGREE_DIGB_LO_DIG : FieldRef := ⟨Reg.HINGE_AGREE_DIGB_LO, 31, 0⟩
abbrev HINGE_AGREE_DIGB_HI_DIG : FieldRef := ⟨Reg.HINGE_AGREE_DIGB_HI, 31, 0⟩
abbrev HINGE_PCIE_LINK_SPEED : FieldRef := ⟨Reg.HINGE_PCIE_LINK, 31, 28⟩
abbrev HINGE_PCIE_LINK_WIDTH : FieldRef := ⟨Reg.HINGE_PCIE_LINK, 27, 24⟩
abbrev HINGE_PCIE_LINK_LSTATE : FieldRef := ⟨Reg.HINGE_PCIE_LINK, 17, 16⟩
abbrev HINGE_PCIE_LINK_D_PF1 : FieldRef := ⟨Reg.HINGE_PCIE_LINK, 9, 8⟩
abbrev HINGE_PCIE_LINK_D_PF0 : FieldRef := ⟨Reg.HINGE_PCIE_LINK, 1, 0⟩
abbrev HINGE_PCIE_APA_LO_BASE : FieldRef := ⟨Reg.HINGE_PCIE_APA_LO, 31, 30⟩
abbrev HINGE_PCIE_APA_HI_BASE : FieldRef := ⟨Reg.HINGE_PCIE_APA_HI, 31, 0⟩
abbrev HINGE_PCIE_APB_LO_BASE : FieldRef := ⟨Reg.HINGE_PCIE_APB_LO, 31, 30⟩
abbrev HINGE_PCIE_APB_HI_BASE : FieldRef := ⟨Reg.HINGE_PCIE_APB_HI, 31, 0⟩
abbrev HINGE_PCIE_WIN_EN : FieldRef := ⟨Reg.HINGE_PCIE_WIN, 15, 0⟩
abbrev HINGE_PCIE_HELD_CNT_COUNT : FieldRef := ⟨Reg.HINGE_PCIE_HELD_CNT, 31, 0⟩
abbrev HINGE_PCIE_HELD_NOW_COUNT : FieldRef := ⟨Reg.HINGE_PCIE_HELD_NOW, 7, 0⟩
abbrev HINGE_PCIE_WIN_BASE_LO_BASE (i : Nat) : FieldRef := ⟨Reg.HINGE_PCIE_WIN_BASE_LO i, 31, 6⟩
abbrev HINGE_PCIE_WIN_BASE_HI_BASE (i : Nat) : FieldRef := ⟨Reg.HINGE_PCIE_WIN_BASE_HI i, 31, 0⟩
abbrev HINGE_PCIE_WIN_LIM_LO_LIMIT (i : Nat) : FieldRef := ⟨Reg.HINGE_PCIE_WIN_LIM_LO i, 31, 6⟩
abbrev HINGE_PCIE_WIN_LIM_HI_LIMIT (i : Nat) : FieldRef := ⟨Reg.HINGE_PCIE_WIN_LIM_HI i, 31, 0⟩
abbrev HINGE_PCIE_CQG_COAL_COUNT (i : Nat) : FieldRef := ⟨Reg.HINGE_PCIE_CQG_COAL i, 31, 24⟩
abbrev HINGE_PCIE_CQG_COAL_TIME_US (i : Nat) : FieldRef := ⟨Reg.HINGE_PCIE_CQG_COAL i, 15, 0⟩
abbrev HINGE_PCIE_CQG_STAT_HELD (i : Nat) : FieldRef := ⟨Reg.HINGE_PCIE_CQG_STAT i, 31, 31⟩
abbrev HINGE_PCIE_CQG_STAT_ACC (i : Nat) : FieldRef := ⟨Reg.HINGE_PCIE_CQG_STAT i, 7, 0⟩
abbrev HINGE_VIOL_ADDR_LO_ADDR : FieldRef := ⟨Reg.HINGE_VIOL_ADDR_LO, 31, 0⟩
abbrev HINGE_VIOL_ADDR_HI_ADDR : FieldRef := ⟨Reg.HINGE_VIOL_ADDR_HI, 31, 0⟩
abbrev HINGE_VIOL_SRC_RID : FieldRef := ⟨Reg.HINGE_VIOL_SRC, 15, 0⟩
abbrev HINGE_VIOL_STAT_VALID : FieldRef := ⟨Reg.HINGE_VIOL_STAT, 31, 31⟩
abbrev HINGE_VIOL_STAT_CAUSE : FieldRef := ⟨Reg.HINGE_VIOL_STAT, 23, 16⟩
abbrev HINGE_VIOL_STAT_FUNC : FieldRef := ⟨Reg.HINGE_VIOL_STAT, 8, 8⟩
abbrev HINGE_VIOL_STAT_WRITE : FieldRef := ⟨Reg.HINGE_VIOL_STAT, 4, 4⟩
abbrev HINGE_VIOL_STAT_WINDOW : FieldRef := ⟨Reg.HINGE_VIOL_STAT, 3, 0⟩
abbrev HINGE_VIOL_CNT_COUNT : FieldRef := ⟨Reg.HINGE_VIOL_CNT, 31, 0⟩

end Fld

end Sys2Proof.Machine
end

