-- ==== Sys2Proof/Machine/BlockState.lean ====
section
/-!
DEFINITION. The state of a leaf's blocks beside their registers: what the spec's rules make each block remember.
-/
namespace Sys2Proof.Machine

/-! ## Time unit (R47 to R79) -/

/-- One offset measurement of R61: the offset in 2^-16 ns, signed, and the local count it was taken at. -/
structure OfsMeas where
  ofs : Int
  at8 : Nat
  deriving DecidableEq, Repr

/-- The pending two-step Sync of a domain (R70): its sequenceId, its corrected ingress stamp in 1/8 counts, its
correction in 2^-16 ns and its relays, each an egress port and a corrected egress stamp. -/
structure PendSync where
  seqId : Nat
  ingress8 : Nat
  corr : Int
  relays : List (Nat × Nat)
  deriving DecidableEq, Repr

/-- A gPTP domain clock (R49) and its measurement bookkeeping (R56, R59 to R62). -/
structure Domain where
  originCount : Nat := 0
  originQ16 : Nat := 0
  rateQ40 : Nat := 0x0147AE147AE1
  enabledAt : Nat := 0
  lastSync : Option Nat := none
  pdRefLoaded : Bool := false
  prev1 : Option OfsMeas := none
  prev2 : Option OfsMeas := none
  pendSync : Option PendSync := none
  deriving DecidableEq, Repr

/-- A general trigger output (R74 to R76): the next due instant and the pulse in progress. -/
structure Trigger where
  nextAt : Option Nat := none
  single : Bool := true
  pulseEnd : Option Nat := none
  rearm : Bool := false
  disarm : Bool := false
  deriving DecidableEq, Repr

/-- The peer-delay exchange of a port (R59): the outstanding request and its stamps in 2^-16 ns of local time, the last
(t3, t4) pair used for the neighbour rate ratio, the mean link delay in 2^-8 ns and the neighbour rate ratio minus one in
2^-41. -/
structure PortDelay where
  reqSeq : Option Nat := none
  t1 : Int := 0
  nextSeq : Nat := 0
  t2 : Int := 0
  t4 : Int := 0
  gotResp : Bool := false
  prev : Option (Int × Int) := none
  delay : Int := 0
  nrr : Int := 0
  deriving DecidableEq, Repr

/-- The time unit of a leaf: domains, the bridging offset (R54), vehicle-time bookkeeping, triggers and PPS. -/
structure TimeState where
  d0 : Domain := {}
  d1 : Domain := {}
  bridge : Int := 0
  bridgeAt : Nat := 0
  autoRefused : Bool := false
  trigs : List Trigger := List.replicate 16 {}
  gtrig : List Bool := List.replicate 16 false
  ppsUnread : Bool := false
  deriving DecidableEq, Repr

/-! ## Switch (R64 to R72) -/

/-- A forwarding-table entry (R69); `seen` is the local count of its last traffic. -/
structure FdbEntry where
  mac : Nat
  vid : Nat
  ports : Nat
  static : Bool
  seen : Nat
  deriving DecidableEq, Repr

/-- A gate schedule in operation or pending (R71, R72): gates and intervals, base and cycle in ns of vehicle time, and
the instant at which a pending one takes effect. -/
structure GateSched where
  entries : List (Nat × Nat) := []
  base : Nat := 0
  cycle : Nat := 10000000
  startAt : Nat := 0
  deriving DecidableEq, Repr

/-- A frame waiting at an egress port: its bytes, the corrected ingress stamp in 1/8 counts and the ingress port. -/
structure QFrame where
  bytes : List Byte
  ingress8 : Nat
  port : Nat
  deriving DecidableEq, Repr

/-- One switch port: eight class queues, the gate schedule in operation and pending, the gate states last taken, the
credit of each class's shaper and when it was last brought up to date, the peer-delay exchange and the link. -/
structure SwPort where
  queues : List (List QFrame) := List.replicate 8 []
  oper : GateSched := {}
  admin : Option GateSched := none
  gates : Nat := 0xFF
  credits : List Int := List.replicate 8 0
  creditAt : List Nat := List.replicate 8 0
  busyUntil : Nat := 0
  pd : PortDelay := {}
  link : Bool := false
  deriving DecidableEq, Repr

/-- What a port has sent, oldest first: a frame, or a peer-delay message with its sequence number and its timestamps in
2^-16 ns of the leaf's local time (R59). -/
inductive SentMsg where
  | frame (port : Nat) (bytes : List Byte)
  | pdelayReq (port seq : Nat)
  | pdelayResp (port seq : Nat) (t2 : Int)
  | pdelayRespFollowUp (port seq : Nat) (t3 : Int)
  deriving DecidableEq, Repr

/-- The switch: forwarding table by set * 4 + way, ports, UDP frames delivered through P5 and not yet parsed, other frames
of the host frame queues of P5, and what the ports have sent. -/
structure SwState where
  fdb : List (Nat × FdbEntry) := []
  ports : List SwPort := List.replicate 6 {}
  p5 : List QFrame := []
  hostFrames : List (List Byte) := []
  sent : List SentMsg := []
  deriving DecidableEq, Repr

/-! ## Interrupt controller and counters (R470 to R485) -/

/-- An entry of the host stack (R473): the vector, the highest priority and the sources whose ACT the entry set. -/
structure IrqEntry where
  vec : Nat
  prio : Nat
  srcs : List Nat
  deriving DecidableEq, Repr

/-- What the interrupt controller remembers beside its registers: the host stack, top first; the set-since-read mask of
each word (R476); the local count of the first event counted since each vector's last message (R474); the level sources
whose condition holds (R471). -/
structure IrqState where
  stack : List IrqEntry := []
  sinceRead : List Nat := List.replicate 16 0
  firstEvt : List (Nat × Nat) := []
  levels : List Nat := []
  deriving DecidableEq, Repr

/-- The counters of a leaf and their shadows (R481 to R483), by class times 2,048 plus the index within the class. -/
structure CounterState where
  cnt : List (Nat × Nat) := []
  shadow : List (Nat × Nat) := []
  deriving DecidableEq, Repr

/-! ## Faults and safety (R525 to R541) -/

/-- What the faults block remembers: a STOP detected and its halting boundary not yet run (R526), the state FAULT was
entered from, a STOP seen in BOOT, the armed injection key and the injection pending with its target (R537), the clock
fault (R528), an agreement fault that holds SAFE_N (R39), the record of the STOP fault in force (for R534), the SAFE_N pin, and the local count up to which the lifetime counters have been brought. -/
structure FaultState where
  stopPend : Bool := false
  returnTo : Nat := 5
  stopCodeValid : Bool := false
  injKey : Bool := false
  inject : Option (Nat × Nat) := none
  clkSuspect : Bool := false
  agreeHold : Bool := false
  firstIdle : Bool := false
  safeN : Bool := true
  stopRecord : List Byte := []
  lifeAt : Nat := 0
  deriving DecidableEq, Repr

/-- The always-on domain of a leaf (R509): saved DRAM training, FUS_TRK_NEXT, the lifetime counters, FLT_PREV and the
wake latches; the sequence number and channel of the lifetime record written last. Power-on counts itself as one power-on
reset (R539); `lifeRestored` says that the counts kept in flash have been added, `lifeRem` keeps the local counts short of a second. -/
structure AlwaysOn where
  training : Bool := false
  trkNext : Nat := 1
  life : List Nat := [0, 0, 0, 0, 0, 0, 0, 1, 0, 0, 0, 0]
  lifeRestored : Bool := false
  lifeRem : List Nat := List.replicate 7 0
  lifeSeq : Nat := 0
  lifeChan : Nat := 0
  prev : List Byte := List.replicate 32 0
  wakeLatch : List Bool := List.replicate 4 false
  deriving DecidableEq, Repr

/-- What is fused into a leaf, and the flash data that outlive every reset (R12, R42, R124, R133, R217, R482, R514, R516):
panes, unique ID, pane map, key slots, firmware key hash and security version, boot source, counters per class, and per
flash channel the retired blocks, the wear in percent and whether it is read-only. -/
structure Fuses where
  panes : Nat := 64
  uid : Nat
  pmap : List Nat
  keyHash0 : Nat
  keyHash1 : Nat := 0
  present0 : Bool := true
  present1 : Bool := false
  revoked0 : Bool := false
  revoked1 : Bool := false
  fwKeyHash : Nat
  minSvn : Nat := 0
  bootSrc : Nat := 0
  ncnt : List Nat
  badBlk : List Nat := List.replicate 8 0
  wear : List Nat := List.replicate 8 0
  chanRo : List Bool := List.replicate 8 false
  deriving DecidableEq, Repr

/-- A firmware copy of the boot partition as the boot ROM finds it (R514 to R516). -/
structure FwCopy where
  readable : Bool
  authentic : Bool
  svn : Nat
  version : Nat
  raiseSvn : Bool
  deriving DecidableEq, Repr

/-- Reset, boot and firmware-update state of a leaf (R509 to R521). `held` is true while the leaf's reset is asserted;
`pll` from the end of boot phase 1 on, when the local count runs (R47); `src` is the image the boot in progress runs
(0 copy 0, 1 copy 1, 2 host). -/
structure BootState where
  held : Bool := true
  pll : Bool := false
  fw0 : FwCopy
  fw1 : FwCopy
  auth0 : Bool := false
  auth1 : Bool := false
  booting : Option (Nat × FwCopy) := none
  fwuPend : Option (Nat × FwCopy) := none
  hostFetch : Bool := false
  deriving DecidableEq, Repr

/-! ## Host interface (R488 to R506) -/

/-- A fetched host command (R495, R496): its queue, opcode and operands, whether its reserved fields are 0, the window
whose rights it has (R492), and whether it has started. -/
structure HostCmd where
  q : Nat
  opcode : Nat
  rsvdOk : Bool
  tag : Nat
  addr0 : Nat
  addr1 : Nat
  len : Nat
  pf1 : Option Nat
  started : Bool := false
  deriving DecidableEq, Repr

/-- A completion record on its way: its queue and its 32 bytes with PHASE and HELD clear (R497, R500). -/
structure OutRec where
  q : Nat
  bytes : List Byte
  deriving DecidableEq, Repr

/-- The queue side of a leaf: fetched commands (each reserves a completion slot), records to place, the hold (R497),
interrupt vectors whose message the controller has sent, and queue pairs being disabled (R499). -/
structure HostState where
  cmds : List HostCmd := []
  toPlace : List OutRec := []
  hold : List OutRec := []
  irqMsgs : List Nat := []
  deriving DecidableEq, Repr

/-- What the device sends to the host or drives on the bus, in order. `fn` is the function (0 or 1). -/
inductive HostOut where
  | msix (fn vec : Nat)
  | memWrite (fn addr : Nat) (bytes : List Byte)
  | pme (fn : Nat)
  deriving DecidableEq, Repr

/-- A physical function's configuration state (R489, R504). -/
structure FnState where
  d3hot : Bool := false
  busMaster : Bool := false
  msixEn : Bool := false
  fnMask : Bool := false
  vecMask : List Nat := []
  pmeEn : Bool := false
  pmeStatus : Bool := false
  deriving DecidableEq, Repr

/-- The completion the hinge returns for the last read: its data, EP, and whether it is a Completer Abort (R506). -/
structure Completion where
  data : List Byte := []
  ep : Bool := false
  abort : Bool := false
  deriving DecidableEq, Repr

/-! ## Agreement checker (R29 to R39) -/

/-- A digest sent to the hinge (R33, R34): tick, stage or unit ID (none for the configuration digest), the digest, locked
mode of its leaf, and the injection mark of R537. -/
structure DigestMsg where
  tick : Nat
  id : Option Nat
  digest : Nat
  locked : Bool
  injected : Bool
  deriving DecidableEq, Repr

/-- An arrival stamp at the hinge (R29): source, sequence number and vehicle time in 2^-16 ns. -/
structure StampMsg where
  src : Nat
  seq : Nat
  vt : Nat
  deriving DecidableEq, Repr

/-- What the agreement checker remembers: whether comparison may start at the next common boundary (R36), the first
tick compared, the digests and stamps without a partner yet, and the fault causes raised for SAFE_N (R38, R39). -/
structure AgreeState where
  mayStart : Bool := false
  startTick : Nat := 0
  digests : List (LeafId × DigestMsg) := []
  stamps : List (LeafId × StampMsg) := []
  deriving DecidableEq, Repr

/-- The barrier of the hinge (R438 to R440): the pulse in progress on BARRIER_OUT and the pin BARRIER_IN. -/
structure BarrierState where
  out : Bool := false
  outEnd : Option Nat := none
  fireLeaf : LeafId := .A
  fireAt : Option Nat := none
  deriving DecidableEq, Repr

end Sys2Proof.Machine
end

