-- ==== Sys2Proof/Machine/Float.lean ====
section
/-!
DEFINITION. IEEE 754-2019 arithmetic on bit patterns, exact and rounded once to nearest, ties to even (R13, R142, R153,
R259, R396), and the correctly rounded functions of R154, R259 and R330 by fixed-point evaluation far beyond the
precision that rounding needs.
-/
namespace Sys2Proof.Machine

/-- A floating format: exponent and mantissa field widths. -/
structure FpFmt where
  eb : Nat
  mb : Nat
  deriving DecidableEq, Repr

/-- binary32. -/
abbrev fmt32 : FpFmt := ⟨8, 23⟩
/-- binary64. -/
abbrev fmt64 : FpFmt := ⟨11, 52⟩
/-- bfloat16 (Table 5.4). -/
abbrev fmtBf16 : FpFmt := ⟨8, 7⟩
/-- binary16. -/
abbrev fmt16 : FpFmt := ⟨5, 10⟩

/-- A floating value: NaN, an infinity or the exact number ±m × 2^e (zero keeps its sign). -/
inductive Fp where
  | nan
  | inf (neg : Bool)
  | fin (neg : Bool) (m : Nat) (e : Int)
  deriving DecidableEq, Repr

/-- The exponent of the least subnormal. -/
def FpFmt.qmin (f : FpFmt) : Int := 2 - (2 ^ (f.eb - 1) : Nat) - (f.mb : Int)

/-- The value of a bit pattern. -/
def fpDecode (f : FpFmt) (w : Nat) : Fp :=
  let s := w.testBit (f.eb + f.mb)
  let ex := (w >>> f.mb) % 2 ^ f.eb
  let fr := w % 2 ^ f.mb
  if ex = 2 ^ f.eb - 1 then (if fr = 0 then .inf s else .nan)
  else if ex = 0 then .fin s fr f.qmin
  else .fin s (2 ^ f.mb + fr) (f.qmin + (ex : Int) - 1)

/-- m / 2^s rounded to nearest, ties to even. -/
def shiftRne (m s : Nat) : Nat :=
  if s = 0 then m
  else
    let q := m >>> s
    let r := m % 2 ^ s
    let h := 2 ^ (s - 1)
    if r > h ∨ (r = h ∧ q % 2 = 1) then q + 1 else q

/-- m × 2^e rounded to a mantissa of mb + 1 bits, or fewer below the least normal: the new mantissa and exponent. -/
def roundMant (mb : Nat) (qmin : Int) (m : Nat) (e : Int) : Nat × Int :=
  if m = 0 then (0, qmin)
  else
    let q0 : Int := e + (Nat.log2 m : Int) - (mb : Int)
    let q := if q0 < qmin then qmin else q0
    let r := if q ≤ e then m <<< (e - q).toNat else shiftRne m (q - e).toNat
    if r = 2 ^ (mb + 1) then (2 ^ mb, q + 1) else (r, q)

/-- The canonical NaN (R144). -/
def FpFmt.qnan (f : FpFmt) : Nat := (2 ^ f.eb - 1) <<< f.mb + 2 ^ (f.mb - 1)

/-- The pattern of an infinity. -/
def FpFmt.infBits (f : FpFmt) (neg : Bool) : Nat := (b2n neg) <<< (f.eb + f.mb) + (2 ^ f.eb - 1) <<< f.mb

/-- The pattern of a value, rounded once; a finite overflow gives an infinity (R142). -/
def fpEncode (f : FpFmt) : Fp → Nat
  | .nan => f.qnan
  | .inf n => f.infBits n
  | .fin n m e =>
    let (r, q) := roundMant f.mb f.qmin m e
    let s := (b2n n) <<< (f.eb + f.mb)
    let body := if r = 0 then 0 else (q - f.qmin).toNat <<< f.mb + r
    if body ≥ (2 ^ f.eb - 1) <<< f.mb then f.infBits n else s + body

/-- The value rounded to the format and read back. -/
def fpRound (f : FpFmt) (x : Fp) : Fp := fpDecode f (fpEncode f x)

/-- Negation. -/
def fpNeg : Fp → Fp
  | .nan => .nan
  | .inf n => .inf (!n)
  | .fin n m e => .fin (!n) m e

/-- Magnitude. -/
def fpAbs : Fp → Fp
  | .nan => .nan
  | .inf _ => .inf false
  | .fin _ m e => .fin false m e

/-- An exact number as a signed mantissa and an exponent. -/
structure Dyadic where
  m : Int
  e : Int
  deriving DecidableEq, Repr

/-- The signed mantissa of a finite value. -/
def sgnMant (neg : Bool) (m : Nat) : Int := if neg then -(m : Int) else (m : Int)

/-- Exact sum. -/
def dyAdd (a b : Dyadic) : Dyadic :=
  if a.m = 0 then b else if b.m = 0 then a
  else if a.e ≤ b.e then ⟨a.m + b.m * (2 ^ (b.e - a.e).toNat : Nat), a.e⟩
  else ⟨a.m * (2 ^ (a.e - b.e).toNat : Nat) + b.m, b.e⟩

/-- Exact product. -/
def dyMul (a b : Dyadic) : Dyadic := ⟨a.m * b.m, a.e + b.e⟩

/-- Exact order: a < b. -/
def dyLt (a b : Dyadic) : Bool := decide ((dyAdd a ⟨-b.m, b.e⟩).m < 0)

/-- A dyadic as a value; an exact zero takes the sign given. -/
def dyFp (zeroNeg : Bool) (a : Dyadic) : Fp :=
  if a.m = 0 then .fin zeroNeg 0 0 else .fin (decide (a.m < 0)) a.m.natAbs a.e

/-- Exact sum of two values under IEEE 754 (signs of zero, infinities, NaN). -/
def fpAddX : Fp → Fp → Fp
  | .nan, _ => .nan
  | _, .nan => .nan
  | .inf a, .inf b => if a = b then .inf a else .nan
  | .inf a, _ => .inf a
  | _, .inf b => .inf b
  | .fin na ma ea, .fin nb mb eb =>
    if ma = 0 ∧ mb = 0 then .fin (na && nb) 0 0
    else dyFp false (dyAdd ⟨sgnMant na ma, ea⟩ ⟨sgnMant nb mb, eb⟩)

/-- Exact product of two values. -/
def fpMulX : Fp → Fp → Fp
  | .nan, _ => .nan
  | _, .nan => .nan
  | .inf a, .inf b => .inf (a != b)
  | .inf a, .fin nb mb _ => if mb = 0 then .nan else .inf (a != nb)
  | .fin na ma _, .inf b => if ma = 0 then .nan else .inf (na != b)
  | .fin na ma ea, .fin nb mb eb => .fin (na != nb) (ma * mb) (ea + eb)

/-- Quotient, kept to far more bits than any format with a sticky last bit. -/
def fpDivX : Fp → Fp → Fp
  | .nan, _ => .nan
  | _, .nan => .nan
  | .inf _, .inf _ => .nan
  | .inf a, .fin nb _ _ => .inf (a != nb)
  | .fin na _ _, .inf b => .fin (na != b) 0 0
  | .fin na ma ea, .fin nb mb eb =>
    if mb = 0 then (if ma = 0 then .nan else .inf (na != nb))
    else if ma = 0 then .fin (na != nb) 0 0
    else
      let k := 80 + Nat.log2 mb
      let n := ma <<< k
      let q := n / mb
      let st := b2n (decide (n % mb ≠ 0))
      .fin (na != nb) (2 * q + st) (ea - eb - (k : Int) - 1)

/-- Newton steps from above towards the integer square root. -/
def isqrtLoop : Nat → Nat → Nat → Nat
  | 0, _, x => x
  | fuel + 1, n, x =>
    let y := (x + n / x) / 2
    if y < x then isqrtLoop fuel n y else x

/-- The integer square root. -/
def isqrt (n : Nat) : Nat :=
  if n = 0 then 0 else isqrtLoop (Nat.log2 n + 4) n (2 ^ (Nat.log2 n / 2 + 1))

/-- Square root, with a sticky last bit. -/
def fpSqrtX : Fp → Fp
  | .nan => .nan
  | .inf n => if n then .nan else .inf false
  | .fin n m e =>
    if m = 0 then .fin n 0 0
    else if n then .nan
    else
      let k := 160 + (if (e % 2 = 0) then 0 else 1)
      let v := m <<< k
      let r := isqrt v
      let st := b2n (decide (r * r ≠ v))
      .fin false (2 * r + st) ((e - (k : Int)) / 2 - 1)

/-- 1 / sqrt(x), with a sticky last bit; special values as Table 5.6. -/
def fpRsqrtX : Fp → Fp
  | .nan => .nan
  | .inf n => if n then .nan else .fin false 0 0
  | .fin n m e =>
    if m = 0 then .inf n
    else if n then .nan
    else
      let (m1, e1) := if e % 2 = 0 then (m, e) else (2 * m, e - 1)
      let k := 160 + 2 * Nat.log2 m1
      let v := 2 ^ (2 * k)
      let q := v / m1
      let r := isqrt q
      let st := b2n (decide (r * r ≠ q ∨ v % m1 ≠ 0))
      .fin false (2 * r + st) (-(k : Int) - e1 / 2 - 1)

/-- Quiet comparison a < b; false with a NaN operand. -/
def fpLt : Fp → Fp → Bool
  | .nan, _ => false
  | _, .nan => false
  | .inf a, .inf b => a && !b
  | .inf a, _ => a
  | _, .inf b => !b
  | .fin na ma ea, .fin nb mb eb => dyLt ⟨sgnMant na ma, ea⟩ ⟨sgnMant nb mb, eb⟩

/-- Quiet equality; −0 equals +0. -/
def fpEq : Fp → Fp → Bool
  | .nan, _ => false
  | _, .nan => false
  | .inf a, .inf b => a == b
  | .inf _, _ => false
  | _, .inf _ => false
  | .fin na ma ea, .fin nb mb eb => (dyAdd ⟨sgnMant na ma, ea⟩ ⟨-(sgnMant nb mb), eb⟩).m == 0

/-- Quiet a ≤ b. -/
def fpLe (a b : Fp) : Bool := fpLt a b || fpEq a b

/-- The sign of a value, false for NaN. -/
def fpSign : Fp → Bool
  | .nan => false
  | .inf n => n
  | .fin n _ _ => n

/-- IEEE 754-2019 minimum: NaN wins, −0 is below +0 (R153). -/
def fpMin (a b : Fp) : Fp :=
  match a, b with
  | .nan, _ => .nan
  | _, .nan => .nan
  | a, b => if fpLt a b then a else if fpLt b a then b else if fpSign a then a else b

/-- IEEE 754-2019 maximum (R153). -/
def fpMax (a b : Fp) : Fp :=
  match a, b with
  | .nan, _ => .nan
  | _, .nan => .nan
  | a, b => if fpLt a b then b else if fpLt b a then a else if fpSign a then b else a

/-- An integer as a value. -/
def fpOfInt (i : Int) : Fp := .fin (decide (i < 0)) i.natAbs 0

/-- A natural number as a value. -/
def fpOfNat (n : Nat) : Fp := .fin false n 0

/-- A finite value rounded toward −∞ to an integer. -/
def floorDy (neg : Bool) (m : Nat) (e : Int) : Int :=
  if e ≥ 0 then sgnMant neg m * (2 ^ e.toNat : Nat) else (sgnMant neg m) / (2 ^ (-e).toNat : Nat)

/-- A finite value rounded to an integer, ties to even. -/
def rneDy (neg : Bool) (m : Nat) (e : Int) : Int :=
  if e ≥ 0 then sgnMant neg m * (2 ^ e.toNat : Nat) else sgnMant neg (shiftRne m (-e).toNat)

/-- floor as a value; zeros, infinities and NaN stay. -/
def fpFloor : Fp → Fp
  | .fin n m e => if m = 0 then .fin n m e else
      let i := floorDy n m e
      if i = 0 then .fin n 0 0 else fpOfInt i
  | x => x

/-- ceil as a value. -/
def fpCeil (x : Fp) : Fp := fpNeg (fpFloor (fpNeg x))

/-- Round to an integral value, ties to even, keeping the sign of zero. -/
def fpRnde : Fp → Fp
  | .fin n m e => let i := rneDy n m e
      if i = 0 then .fin n 0 0 else fpOfInt i
  | x => x

/-- Floor to an integer; none for NaN and infinities. -/
def fpFloorInt : Fp → Option Int
  | .fin n m e => some (floorDy n m e)
  | _ => none

/-- Round to an integer, ties to even; none for NaN and infinities. -/
def fpRneInt : Fp → Option Int
  | .fin n m e => some (rneDy n m e)
  | _ => none

/-- True for a finite value. -/
def fpFinite : Fp → Bool
  | .fin _ _ _ => true
  | _ => false

/-- True for NaN. -/
def fpIsNan : Fp → Bool
  | .nan => true
  | _ => false

/-- True for either zero. -/
def fpIsZero : Fp → Bool
  | .fin _ m _ => m == 0
  | _ => false

/-! ## binary32 and binary64 on bit vectors -/

def f32v (x : F32) : Fp := fpDecode fmt32 x.toNat
def f32b (x : Fp) : F32 := BitVec.ofNat 32 (fpEncode fmt32 x)
def f32add (a b : F32) : F32 := f32b (fpAddX (f32v a) (f32v b))
def f32sub (a b : F32) : F32 := f32b (fpAddX (f32v a) (fpNeg (f32v b)))
def f32mul (a b : F32) : F32 := f32b (fpMulX (f32v a) (f32v b))
def f32fma (a b c : F32) : F32 := f32b (fpAddX (fpMulX (f32v a) (f32v b)) (f32v c))
def f32recip (a : F32) : F32 := f32b (fpDivX (fpOfNat 1) (f32v a))
def f32div (a b : F32) : F32 := f32b (fpDivX (f32v a) (f32v b))
def f32sqrt (a : F32) : F32 := f32b (fpSqrtX (f32v a))
def f32rsqrt (a : F32) : F32 := f32b (fpRsqrtX (f32v a))
def f32neg (a : F32) : F32 := f32b (fpNeg (f32v a))
def f32abs (a : F32) : F32 := f32b (fpAbs (f32v a))
def f32min (a b : F32) : F32 := f32b (fpMin (f32v a) (f32v b))
def f32max (a b : F32) : F32 := f32b (fpMax (f32v a) (f32v b))
def f32lt (a b : F32) : Bool := fpLt (f32v a) (f32v b)
def f32le (a b : F32) : Bool := fpLe (f32v a) (f32v b)
def f32eq (a b : F32) : Bool := fpEq (f32v a) (f32v b)
def f32ofInt (i : Int) : F32 := f32b (fpOfInt i)
def f32ofNat (n : Nat) : F32 := f32b (fpOfNat n)
def f32finite (a : F32) : Bool := fpFinite (f32v a)

def f64v (x : F64) : Fp := fpDecode fmt64 x.toNat
def f64b (x : Fp) : F64 := BitVec.ofNat 64 (fpEncode fmt64 x)
def f64add (a b : F64) : F64 := f64b (fpAddX (f64v a) (f64v b))
def f64sub (a b : F64) : F64 := f64b (fpAddX (f64v a) (fpNeg (f64v b)))
def f64mul (a b : F64) : F64 := f64b (fpMulX (f64v a) (f64v b))
def f64div (a b : F64) : F64 := f64b (fpDivX (f64v a) (f64v b))
def f64sqrt (a : F64) : F64 := f64b (fpSqrtX (f64v a))
def f64neg (a : F64) : F64 := f64b (fpNeg (f64v a))
def f64abs (a : F64) : F64 := f64b (fpAbs (f64v a))
def f64min (a b : F64) : F64 := f64b (fpMin (f64v a) (f64v b))
def f64max (a b : F64) : F64 := f64b (fpMax (f64v a) (f64v b))
def f64lt (a b : F64) : Bool := fpLt (f64v a) (f64v b)
def f64le (a b : F64) : Bool := fpLe (f64v a) (f64v b)
def f64eq (a b : F64) : Bool := fpEq (f64v a) (f64v b)
def f64ofInt (i : Int) : F64 := f64b (fpOfInt i)
def f64ofNat (n : Nat) : F64 := f64b (fpOfNat n)
def f64finite (a : F64) : Bool := fpFinite (f64v a)
/-- The exact widening of a binary32. -/
def f64ofF32 (a : F32) : F64 := f64b (f32v a)
/-- A binary64 rounded to binary32 (R142). -/
def f32ofF64 (a : F64) : F32 := f32b (f64v a)
/-- The binary64 nearest to the decimal or rational n / d. -/
def f64ratio (n : Int) (d : Nat) : F64 := f64b (fpDivX (fpOfInt n) (fpOfNat d))
/-- The binary32 nearest to n / d. -/
def f32ratio (n : Int) (d : Nat) : F32 := f32b (fpDivX (fpOfInt n) (fpOfNat d))

/-! ## Fixed-point evaluation for the correctly rounded functions

A fixed-point number is an integer in units of 2^-P. -/

/-- Taylor terms of exp: the sum of x^k / k! from the current term on. -/
def expTerms (p : Nat) (x : Int) : Nat → Nat → Int → Int → Int
  | 0, _, _, acc => acc
  | fuel + 1, k, t, acc =>
    let t' := t * x / ((2 ^ p : Nat) * (k : Int))
    if t' = 0 then acc else expTerms p x fuel (k + 1) t' (acc + t')

/-- exp of a fixed-point number of magnitude below 1. -/
def fixExpSmall (p : Nat) (x : Int) : Int := expTerms p x (p + 8) 1 (2 ^ p : Nat) (2 ^ p : Nat)

/-- Repeated squaring in fixed point. -/
def fixSquares (p : Nat) : Nat → Int → Int
  | 0, v => v
  | n + 1, v => fixSquares p n (v * v / (2 ^ p : Nat))

/-- A finite value in units of 2^-P, rounded down. -/
def fixOf (p : Nat) (neg : Bool) (m : Nat) (e : Int) : Int := floorDy neg m (e + (p : Int))

/-- exp(x) for |x| below 128, in units of 2^-P. -/
def fixExp (p : Nat) (neg : Bool) (m : Nat) (e : Int) : Int :=
  fixSquares p 8 (fixExpSmall p (fixOf p neg m (e - 8)))

/-- exp rounded once to binary32 (Table 5.6). -/
def f32exp (a : F32) : F32 :=
  match f32v a with
  | .nan => f32b .nan
  | .inf n => if n then 0 else f32b (.inf false)
  | .fin n m e =>
    if m = 0 then f32ofNat 1
    else if fpLt (fpOfNat 100) (.fin n m e) then f32b (.inf false)
    else if fpLt (.fin n m e) (fpOfInt (-110)) then 0
    else
      let p := 512
      let v := (fixExp p n m e).toNat
      f32b (.fin false (2 * v + 1) (-(p : Int) - 1))

/-- tanh rounded once to binary32 (Table 5.6). -/
def f32tanh (a : F32) : F32 :=
  match f32v a with
  | .nan => f32b .nan
  | .inf n => f32b (.fin n 1 0)
  | .fin n m e =>
    if fpLt (.fin false m e) (.fin false 1 (-12)) then f32b (.fin n m e)
    else if fpLt (fpOfNat 16) (.fin false m e) then f32b (.fin n 1 0)
    else
      let p := 512
      let one : Int := (2 ^ p : Nat)
      let ex := fixExp p false m (e + 1)
      let v := (one - (2 * one * one) / (ex + one)).toNat
      f32b (.fin n (2 * v + 1) (-(p : Int) - 1))

/-- Alternating atan series terms of an inverse integer: the sum of (±1) x^(2k+1) / (2k+1), x = 1/d. -/
def atanInvTerms (d : Nat) : Nat → Nat → Nat → Bool → Int → Int
  | 0, _, _, _, acc => acc
  | fuel + 1, k, t, neg, acc =>
    let v : Int := ((t / (2 * k + 1) : Nat) : Int)
    let acc' := if neg then acc - v else acc + v
    if t = 0 then acc else atanInvTerms d fuel (k + 1) (t / (d * d)) (!neg) acc'

/-- atan(1/d) in units of 2^-P. -/
def fixAtanInv (p d : Nat) : Int := atanInvTerms d (p + 8) 0 (2 ^ p / d) false 0

/-- π in units of 2^-P (Machin's formula). -/
def fixPi (p : Nat) : Int := 16 * fixAtanInv p 5 - 4 * fixAtanInv p 239

/-- Taylor terms of sine or cosine: t is the current term, k its order. -/
def sinTerms (p : Nat) (x2 : Int) : Nat → Nat → Int → Int → Int
  | 0, _, _, acc => acc
  | fuel + 1, k, t, acc =>
    let t' := -(t * x2 / (2 ^ p : Nat)) / (((k + 1) * (k + 2) : Nat) : Int)
    if t' = 0 ∨ t' = -1 then acc + t' else sinTerms p x2 fuel (k + 2) t' (acc + t')

/-- sin in units of 2^-P of a reduced angle. -/
def fixSin (p : Nat) (x : Int) : Int := sinTerms p (x * x / (2 ^ p : Nat)) (p + 8) 1 x x

/-- cos in units of 2^-P of a reduced angle. -/
def fixCos (p : Nat) (x : Int) : Int :=
  sinTerms p (x * x / (2 ^ p : Nat)) (p + 8) 0 (2 ^ p : Nat) (2 ^ p : Nat)

/-- sin (`quarter` 0) or cos (`quarter` 1) of a binary64 or binary32 value, exact to far below half an ulp. -/
def fpSincos (quarter : Nat) (a : Fp) : Fp :=
  match a with
  | .nan => .nan
  | .inf _ => .nan
  | .fin n m e =>
    if m = 0 ∨ e + (Nat.log2 m : Int) < -28 then (if quarter = 0 then a else fpOfNat 1)
    else
      let p := 1600
      let x := fixOf p n m e
      let half := fixPi p / 2
      let k := (x + half / 2) / half
      let r := x - k * half
      let j := ((k + (quarter : Int)) % 4).toNat
      let v := if j = 0 then fixSin p r else if j = 1 then fixCos p r
               else if j = 2 then -(fixSin p r) else -(fixCos p r)
      .fin (decide (v < 0)) (2 * v.natAbs + 1) (-(p : Int) - 1)

/-- sin or cos of a binary64, rounded once (R259). -/
def f64sincos (quarter : Nat) (a : F64) : F64 := f64b (fpSincos quarter (f64v a))

/-- sin or cos of a binary32, rounded once (R236). -/
def f32sincos (quarter : Nat) (a : F32) : F32 := f32b (fpSincos quarter (f32v a))

def f64sin (a : F64) : F64 := f64sincos 0 a
def f64cos (a : F64) : F64 := f64sincos 1 a

/-- Alternating atan series on a fixed-point argument. -/
def atanTerms (p : Nat) (x2 : Int) : Nat → Nat → Int → Int → Int
  | 0, _, _, acc => acc
  | fuel + 1, k, t, acc =>
    let acc' := acc + t / ((2 * k + 1 : Nat) : Int)
    let t' := -(t * x2 / (2 ^ p : Nat))
    if t' = 0 ∨ t' = -1 then acc' else atanTerms p x2 fuel (k + 1) t' acc'

/-- atan by halving the angle: atan t = 2 atan(t / (1 + sqrt(1 + t²))). -/
def fixAtanHalve (p : Nat) : Nat → Int → Int
  | 0, t => atanTerms p (t * t / (2 ^ p : Nat)) (p + 8) 0 t 0
  | n + 1, t =>
    let one : Int := (2 ^ p : Nat)
    let s : Int := (isqrt ((one * one + t * t).toNat) : Nat)
    2 * fixAtanHalve p n (t * one / (one + s))

/-- atan of the positive quotient num / den in units of 2^-P. -/
def fixAtanRatio (p num den : Nat) : Int :=
  if num ≤ den then fixAtanHalve p 6 ((num <<< p) / den : Nat)
  else fixPi p / 2 - fixAtanHalve p 6 ((den <<< p) / num : Nat)

/-- Two mantissas brought to one exponent. -/
def alignPair (m1 : Nat) (e1 : Int) (m2 : Nat) (e2 : Int) : Nat × Nat :=
  if e1 ≤ e2 then (m1, m2 <<< (e2 - e1).toNat) else (m1 <<< (e1 - e2).toNat, m2)

/-- A fixed-point angle with a sticky last bit, as a value. -/
def fixFp (p : Nat) (neg : Bool) (v : Int) : Fp := .fin neg (2 * v.natAbs + 1) (-(p : Int) - 1)

/-- atan2(y, x), rounded once to binary64 (R330). -/
def f64atan2 (y x : F64) : F64 :=
  match f64v y, f64v x with
  | .nan, _ => f64b .nan
  | _, .nan => f64b .nan
  | .inf ny, .inf nx =>
    let p := 256
    f64b (fixFp p ny (if nx then 3 * fixPi p / 4 else fixPi p / 4))
  | .inf ny, _ => f64b (fixFp 256 ny (fixPi 256 / 2))
  | .fin ny _ _, .inf nx => if nx then f64b (fixFp 256 ny (fixPi 256)) else f64b (.fin ny 0 0)
  | .fin ny my ey, .fin nx mx ex =>
    if my = 0 then (if nx then f64b (fixFp 256 ny (fixPi 256)) else f64b (.fin ny 0 0))
    else if mx = 0 then f64b (fixFp 256 ny (fixPi 256 / 2))
    else
      let (n, d) := alignPair my ey mx ex
      let gap := Nat.log2 d - Nat.log2 n
      if ¬ nx ∧ gap > 60 then
        -- y/x below 2^-59: atan(t) lies just under t, closer to it than any rounding boundary
        let k := 80 + Nat.log2 d
        let q := (n <<< k) / d
        f64b (.fin ny (4 * q + (if (n <<< k) % d = 0 then 0 else 2) - 1) (-(k : Int) - 2))
      else
        let p := 400
        let a := fixAtanRatio p n d
        f64b (fixFp p ny (if nx then fixPi p - a else a))

end Sys2Proof.Machine
end

