-- ==== Sys2Proof/Machine/Format.lean ====
section
/-!
DEFINITION. Number formats of the panes: packing (R140, R141), decoding (R139), conversion (R142 to R145, R148, R149),
accumulation (R146, R147), structured sparsity (R150 to R152), the vector unit (R153, R154) and the split reductions
(R155, R156, R561).
-/
namespace Sys2Proof.Machine

/-! ## Arithmetic events -/

/-- The arithmetic events of a stage's tick, counted (R158): a flag of PANE_ASTAT is set when its count is not 0. `idxOob`
and `drop` are the flags of PANE_SSTAT (R190). -/
structure Ev where
  accSat : Nat := 0
  cvtSat : Nat := 0
  nanOut : Nat := 0
  ftzHit : Nat := 0
  scaleNan : Nat := 0
  sparseErr : Nat := 0
  idxOob : Nat := 0
  drop : Nat := 0
  deriving DecidableEq, Repr

/-- Events of two parts of the work together. -/
def Ev.add (a b : Ev) : Ev :=
  { accSat := a.accSat + b.accSat, cvtSat := a.cvtSat + b.cvtSat, nanOut := a.nanOut + b.nanOut,
    ftzHit := a.ftzHit + b.ftzHit, scaleNan := a.scaleNan + b.scaleNan, sparseErr := a.sparseErr + b.sparseErr,
    idxOob := a.idxOob + b.idxOob, drop := a.drop + b.drop }

/-- The flags of PANE_ASTAT [31:26], bit 5 ACC_SAT down to bit 0 SPARSE_ERR. -/
def Ev.flags (e : Ev) : Nat :=
  32 * b2n (e.accSat != 0) + 16 * b2n (e.cvtSat != 0) + 8 * b2n (e.nanOut != 0) + 4 * b2n (e.ftzHit != 0)
    + 2 * b2n (e.scaleNan != 0) + b2n (e.sparseErr != 0)

/-- A list mapped by a function that also counts events. -/
def mapEv {α β : Type} (f : α → β × Ev) (l : List α) : List β × Ev :=
  let r := l.map f
  (r.map (·.1), r.foldl (fun e x => e.add x.2) {})

/-- A fold whose step also counts events. -/
def foldEv {α β : Type} (f : β → α → β × Ev) (b : β) (l : List α) : β × Ev :=
  l.foldl (fun acc x => let r := f acc.1 x; (r.1, acc.2.add r.2)) (b, {})

/-! ## Format codes (Table 6.6) -/

/-- The width of an element in bits. -/
def fmtBits : Nat → Nat
  | 0x00 => 8
  | 0x01 => 4
  | 0x02 => 32
  | 0x03 => 8
  | 0x04 => 8
  | 0x05 => 8
  | 0x06 => 8
  | 0x07 => 6
  | 0x08 => 6
  | 0x09 => 4
  | 0x0A => 8
  | 0x0B => 16
  | 0x0C => 16
  | 0x0D => 32
  | 0x0E => 8
  | 0x0F => 16
  | 0x10 => 128
  | _ => 0

/-- An MX format, stored as elements and scales (R141). -/
def fmtMx (c : Nat) : Bool := 5 ≤ c && c ≤ 0x0A

/-- An integer format. -/
def fmtInt (c : Nat) : Bool := c ≤ 2 || c == 0x0E || c == 0x0F

/-- A floating or MX format, the formats "floating" of Table 6.7. -/
def fmtFloat (c : Nat) : Bool := 3 ≤ c && c ≤ 0x0D

/-- The bytes of n packed elements (R140). -/
def packedBytes (c n : Nat) : Nat := (n * fmtBits c + 7) / 8

/-- Elements of w bits unpacked from the least significant end (R140). -/
def unpackBits (w n : Nat) (bs : List Byte) : List Nat :=
  let a := bs.toArray
  let at' (i : Nat) : Nat := (a.getD i 0).toNat
  (List.range n).map fun i =>
    let p := i * w
    let v := (List.range ((w + 14) / 8)).foldl (fun acc k => acc + at' (p / 8 + k) <<< (8 * k)) 0
    (v >>> (p % 8)) % 2 ^ w

/-- Elements of w bits packed from the least significant end (R140). -/
def packBits (w : Nat) (es : List Nat) : List Byte :=
  let total := (es.length * w + 7) / 8
  let unit := if w % 8 = 0 then 1 else 4
  let pieces := (chunks unit es).flatMap fun g =>
    leBytes ((g.length * w + 7) / 8) ((g.reverse).foldl (fun acc x => acc <<< w + x % 2 ^ w) 0)
  padTo total pieces

/-! ## Decoding (R139) -/

/-- A small float without specials: e exponent bits, m mantissa bits. -/
def smallFloat (eb mb bias w : Nat) : Fp :=
  let s := w.testBit (eb + mb)
  let ex := (w >>> mb) % 2 ^ eb
  let fr := w % 2 ^ mb
  if ex = 0 then .fin s fr (1 - (bias : Int) - (mb : Int))
  else .fin s (2 ^ mb + fr) ((ex : Int) - (bias : Int) - (mb : Int))

/-- The value of an element, apart from an MX scale (R139). -/
def elemVal (c w : Nat) : Fp :=
  match c with
  | 0x00 => fpOfInt (signedOf 8 w)
  | 0x01 => fpOfInt (signedOf 4 w)
  | 0x02 => fpOfInt (signedOf 32 w)
  | 0x03 => if w % 128 = 127 then .nan else smallFloat 4 3 7 w
  | 0x04 => fpDecode ⟨5, 2⟩ w
  | 0x05 => if w % 128 = 127 then .nan else smallFloat 4 3 7 w
  | 0x06 => fpDecode ⟨5, 2⟩ w
  | 0x07 => smallFloat 3 2 3 w
  | 0x08 => smallFloat 2 3 1 w
  | 0x09 => smallFloat 2 1 1 w
  | 0x0A => let i := signedOf 8 w; .fin (decide (i < 0)) i.natAbs (-6)
  | 0x0B => fpDecode fmtBf16 w
  | 0x0C => fpDecode fmt16 w
  | 0x0D => fpDecode fmt32 w
  | 0x0E => fpOfNat w
  | 0x0F => fpOfNat w
  | _ => fpOfNat 0

/-- A value times 2^k. -/
def fpScale (k : Int) : Fp → Fp
  | .fin n m e => .fin n m (e + k)
  | x => x

/-- A subnormal of binary32, not zero. -/
def fpSub32 : Fp → Bool
  | .fin _ m e => m != 0 && decide (e + (Nat.log2 m : Int) < -126)
  | _ => false

/-- An FP32 or BF16 input under FTZ (R145). -/
def ftzIn (ftz : Bool) (x : Fp) : Fp × Ev :=
  if ftz && fpSub32 x then (.fin (fpSign x) 0 0, { ftzHit := 1 }) else (x, {})

/-- The exact value of an element read by a stage (R139, R141, R145); `scale` is the E8M0 byte of an MX block. -/
def readElem (ftz : Bool) (c w scale : Nat) : Fp × Ev :=
  if fmtMx c then (if scale = 0xFF then (.nan, {}) else (fpScale ((scale : Int) - 127) (elemVal c w), {}))
  else if c = 0x0B ∨ c = 0x0D then ftzIn ftz (elemVal c w)
  else (elemVal c w, {})

/-- The integer of an element of an integer format. -/
def elemInt (c w : Nat) : Int :=
  match c with
  | 0x00 => signedOf 8 w
  | 0x01 => signedOf 4 w
  | 0x02 => signedOf 32 w
  | _ => (w : Int)

/-! ## Rounding to FP32 and the vector unit (R142, R145, R153, R154) -/

/-- A result rounded to FP32, flushed when the stage's FTZ is set. -/
def rnd32 (ftz : Bool) (x : Fp) : Fp × Ev := ftzIn ftz (fpRound fmt32 x)

def vAdd (ftz : Bool) (a b : Fp) : Fp × Ev := rnd32 ftz (fpAddX a b)
def vSub (ftz : Bool) (a b : Fp) : Fp × Ev := rnd32 ftz (fpAddX a (fpNeg b))
def vMul (ftz : Bool) (a b : Fp) : Fp × Ev := rnd32 ftz (fpMulX a b)
def vFma (ftz : Bool) (a b c : Fp) : Fp × Ev := rnd32 ftz (fpAddX (fpMulX a b) c)
def vRecip (ftz : Bool) (a : Fp) : Fp × Ev := rnd32 ftz (fpDivX (fpOfNat 1) a)
def vRsqrt (ftz : Bool) (a : Fp) : Fp × Ev := rnd32 ftz (fpRsqrtX a)
def vExp (ftz : Bool) (a : Fp) : Fp × Ev := rnd32 ftz (f32v (f32exp (f32b a)))
def vTanh (ftz : Bool) (a : Fp) : Fp × Ev := rnd32 ftz (f32v (f32tanh (f32b a)))

/-! ## Conversion of an FP32 value to a format (R143, R144, Table 5.5) -/

/-- The canonical NaN pattern of a floating format (R144). -/
def nanBits (c : Nat) : Nat :=
  match c with
  | 0x03 => 0x7F
  | 0x04 => 0x7F
  | 0x0B => 0x7FC0
  | 0x0C => 0x7E00
  | _ => 0x7FC00000

/-- Mantissa bits, exponent of the least subnormal and pattern of the largest finite value of a floating target. -/
def floatTarget (c : Nat) : Nat × Int × Nat :=
  match c with
  | 0x03 => (3, -9, 0x7E)
  | 0x04 => (2, -16, 0x7B)
  | 0x0B => (7, -133, 0x7F7F)
  | 0x0C => (10, -24, 0x7BFF)
  | _ => (23, -149, 0x7F7FFFFF)

/-- The magnitude pattern of a finite value in a floating target, with unbounded exponent. -/
def magBits (mb : Nat) (qmin : Int) (m : Nat) (e : Int) : Nat :=
  let r := roundMant mb qmin m e
  if r.1 = 0 then 0 else (r.2 - qmin).toNat <<< mb + r.1

/-- An FP32 value written to a floating format other than MX. -/
def toFloat (c : Nat) (sat ftz : Bool) (x : Fp) : Nat × Ev :=
  let (mb, qmin, big) := floatTarget c
  let sgn (n : Bool) : Nat := (b2n n) <<< (fmtBits c - 1)
  match x with
  | .nan => (nanBits c, { nanOut := 1 })
  | .inf n =>
    if c = 0x03 then (if sat then (sgn n + big, { cvtSat := 1 }) else (0x7F, { cvtSat := 1, nanOut := 1 }))
    else (sgn n + big + 1, {})
  | .fin n m e =>
    let b := magBits mb qmin m e
    if b > big then
      if sat then (sgn n + big, { cvtSat := 1 })
      else if c = 0x03 then (0x7F, { cvtSat := 1, nanOut := 1 })
      else (sgn n + (if c = 0x04 then 0x7C else if c = 0x0B then 0x7F80 else if c = 0x0C then 0x7C00 else 0x7F800000),
            { cvtSat := 1 })
    else if ftz && (c == 0x0B || c == 0x0D) && b != 0 && decide (b < 2 ^ mb) then (sgn n, { ftzHit := 1 })
    else (sgn n + b, {})

/-- The range of an integer target. -/
def intRange (c : Nat) : Int × Int :=
  match c with
  | 0x00 => (-128, 127)
  | 0x01 => (-8, 7)
  | 0x02 => (-2147483648, 2147483647)
  | 0x0E => (0, 255)
  | _ => (0, 65535)

/-- An FP32 value written to an integer format: rounded, ties to even, and clamped. -/
def floatToInt (c : Nat) (x : Fp) : Int × Ev :=
  let (lo, hi) := intRange c
  match x with
  | .nan => (0, { cvtSat := 1 })
  | .inf n => (if n then lo else hi, { cvtSat := 1 })
  | .fin n m e =>
    let i := rneDy n m e
    if i < lo then (lo, { cvtSat := 1 }) else if hi < i then (hi, { cvtSat := 1 }) else (i, {})

/-- An INT32 value, or a requantised one, written to an integer format (R143, R148): clamped with SAT, low bits kept
without; both flagged. -/
def intToInt (c : Nat) (sat : Bool) (r : Int) : Nat × Ev :=
  let (lo, hi) := intRange c
  if r < lo ∨ hi < r then
    (patternOf (fmtBits c) (if sat then (if r < lo then lo else hi) else r), { cvtSat := 1 })
  else (patternOf (fmtBits c) r, {})

/-- The arithmetic right shift with ties to even of R148. -/
def rshiftRne (t : Int) (s : Nat) : Int :=
  let q := t / (2 ^ s : Nat)
  let r := t % (2 ^ s : Nat)
  if s = 0 then t
  else if r > (2 ^ (s - 1) : Nat) ∨ (r = (2 ^ (s - 1) : Nat) ∧ q % 2 = 1) then q + 1 else q

/-- A requantisation record (R184): M, Z, S. -/
structure Requant where
  m : Int := 1
  z : Int := 0
  s : Nat := 0
  deriving DecidableEq, Repr

/-- The requantised value before its clamp; S above 62 acts as 62 (R148). -/
def Requant.apply (q : Requant) (acc : Int) : Int := rshiftRne (acc * q.m) (min 62 q.s) + q.z

/-- The unbiased exponent of the largest element of an MX format (R149). -/
def mxEmax (c : Nat) : Int :=
  match c with
  | 0x05 => 8
  | 0x06 => 15
  | 0x07 => 4
  | 0x08 => 2
  | 0x09 => 2
  | _ => 0

/-- floor(log2 |x|) of a finite non-zero value. -/
def fpLog2 : Fp → Int
  | .fin _ m e => e + (Nat.log2 m : Int)
  | _ => 0

/-- The largest magnitude of a list. -/
def maxAbs (xs : List Fp) : Fp := xs.foldl (fun a x => if fpLt a (fpAbs x) then fpAbs x else a) (fpOfNat 0)

/-- The scale byte of an MX block (R149). -/
def mxScale (c : Nat) (xs : List Fp) : Nat :=
  if xs.any fun x => !fpFinite x then 0xFF
  else
    let m := maxAbs xs
    if fpIsZero m then 0
    else (clampInt (-127) 127 (fpLog2 m - mxEmax c) + 127).toNat

/-- The pattern of an MX element of a value already divided by the scale: rounded once and clamped (R143, R149). DEDUCED: an
MXINT8 element clamps to −128 on the negative side. -/
def mxElem (c : Nat) (x : Fp) : Nat :=
  match x with
  | .fin n m e =>
    match c with
    | 0x0A => patternOf 8 (clampInt (-128) 127 (rneDy n m (e + 6)))
    | _ =>
      let (mb, qmin, big) : Nat × Int × Nat :=
        match c with
        | 0x05 => (3, -9, 0x7E)
        | 0x06 => (2, -16, 0x7B)
        | 0x07 => (2, -4, 0x1F)
        | 0x08 => (3, -3, 0x1F)
        | _ => (1, -1, 0x7)
      (b2n n) <<< (fmtBits c - 1) + min big (magBits mb qmin m e)
  | _ => 0

/-- A block of 32 FP32 values as an MX block: elements and scale byte (R149). -/
def mxBlock (c : Nat) (xs : List Fp) : (List Nat × Nat) × Ev :=
  let s := mxScale c xs
  if s = 0xFF then ((xs.map fun _ => 0, 0xFF), { scaleNan := 1, nanOut := 1 })
  else ((xs.map fun x => mxElem c (fpScale (127 - (s : Int)) x), s), {})

/-! ## Tensors -/

/-- A tensor: format, DIM0 to DIM3, element patterns in element order, and the E8M0 bytes of an MX format. -/
structure Ten where
  fmt : Nat
  dims : List Nat
  raw : Array Nat
  scales : Array Nat := #[]
  deriving DecidableEq, Repr

/-- The number of elements of a shape. -/
def dimProd (ds : List Nat) : Nat := ds.foldl (· * ·) 1

/-- The number of elements. -/
def Ten.count (t : Ten) : Nat := dimProd t.dims

/-- Dimension i. -/
def Ten.dim (t : Ten) (i : Nat) : Nat := t.dims.getD i 1

/-- The exact value of element i. -/
def Ten.val (ftz : Bool) (t : Ten) (i : Nat) : Fp × Ev :=
  readElem ftz t.fmt (t.raw.getD i 0) (t.scales.getD (i / 32) 0)

/-- Element i as an integer. -/
def Ten.int (t : Ten) (i : Nat) : Int := elemInt t.fmt (t.raw.getD i 0)

/-- The bytes of the element array. -/
def elemBytes (c n : Nat) : Nat := packedBytes c n

/-- The byte at which the scale array of an MX tensor in an object starts (R141). -/
def scaleOfs (c n : Nat) : Nat := (elemBytes c n + 63) / 64 * 64

/-- The extent of a tensor in an object (R563, R141). -/
def tenExtent (c n : Nat) : Nat := if fmtMx c then scaleOfs c n + n / 32 else elemBytes c n

/-- A tensor read from an object's bytes (R141, R563). -/
def Ten.ofObject (c : Nat) (ds : List Nat) (bs : List Byte) : Ten :=
  let n := dimProd ds
  { fmt := c, dims := ds, raw := (unpackBits (fmtBits c) n bs).toArray,
    scales := if fmtMx c then (unpackBits 8 (n / 32) (bs.drop (scaleOfs c n))).toArray else #[] }

/-- A tensor as the bytes of an object (R141, R563). -/
def Ten.toObject (t : Ten) : List Byte :=
  let e := packBits (fmtBits t.fmt) t.raw.toList
  if fmtMx t.fmt then padTo (scaleOfs t.fmt t.raw.size) e ++ packBits 8 t.scales.toList else e

/-- The blocks of an MX tensor read with scale 0xFF (R144). -/
def Ten.scaleNans (t : Ten) : Ev :=
  if fmtMx t.fmt then { scaleNan := (t.scales.toList.filter (· == 0xFF)).length } else {}

/-- The tokens' payloads of a tensor on a route (R167). -/
def Ten.toTokens (t : Ten) : List (List Byte) :=
  if fmtMx t.fmt then
    let w := fmtBits t.fmt
    let groups := (chunks 2048 t.raw.toList).zip (chunks 64 t.scales.toList)
    groups.flatMap fun g => packBits 8 g.2 :: chunks 64 (packBits w g.1)
  else chunks 64 (packBits (fmtBits t.fmt) t.raw.toList)

/-- The token payloads of groups of an MX tensor read back: element bytes and scale bytes. -/
def mxCollect (w : Nat) : Nat → Nat → List (List Byte) → List Nat × List Nat
  | 0, _, _ => ([], [])
  | fuel + 1, blocks, toks =>
    match toks with
    | [] => ([], [])
    | s :: rest =>
      let k := min 64 blocks
      let nt := (k * 4 * w + 63) / 64
      let es := unpackBits w (32 * k) ((rest.take nt).flatten)
      let r := mxCollect w fuel (blocks - k) (rest.drop nt)
      (es ++ r.1, unpackBits 8 k s ++ r.2)

/-- A tensor read from the payloads of a route (R167). Bytes that did not arrive read 0. -/
def Ten.ofTokens (c : Nat) (ds : List Nat) (toks : List (List Byte)) : Ten :=
  let n := dimProd ds
  if fmtMx c then
    let r := mxCollect (fmtBits c) (n / 2048 + 1) (n / 32) toks
    { fmt := c, dims := ds, raw := r.1.toArray, scales := r.2.toArray }
  else { fmt := c, dims := ds, raw := (unpackBits (fmtBits c) n toks.flatten).toArray }

/-- Values written as an MX tensor, block by block. -/
def mxWrite (c : Nat) (ds : List Nat) (xs : List Fp) : Ten × Ev :=
  let r := mapEv (mxBlock c) (chunks 32 xs)
  ({ fmt := c, dims := ds, raw := (r.1.flatMap (·.1)).toArray, scales := (r.1.map (·.2)).toArray }, r.2)

/-- FP32 values written to a format (R143). -/
def writeFloats (c : Nat) (sat ftz : Bool) (ds : List Nat) (xs : List Fp) : Ten × Ev :=
  if fmtMx c then mxWrite c ds xs
  else
    let conv (x : Fp) : Nat × Ev :=
      if fmtInt c then let r := floatToInt c x; (patternOf (fmtBits c) r.1, r.2) else toFloat c sat ftz x
    let r := mapEv conv xs
    ({ fmt := c, dims := ds, raw := r.1.toArray }, r.2)

/-- INT32 values written to a format: integers under R148, others as the FP32 value of the integer (R141, R153). -/
def writeInts (c : Nat) (sat ftz : Bool) (ds : List Nat) (xs : List Int) : Ten × Ev :=
  if fmtInt c then
    let r := mapEv (intToInt c sat) xs
    ({ fmt := c, dims := ds, raw := r.1.toArray }, r.2)
  else writeFloats c sat ftz ds (xs.map fun i => fpRound fmt32 (fpOfInt i))

/-! ## Accumulation (R146, R147) -/

/-- The operand pairs of the MAC array (Table 5.1): the group of reduction positions; 0 for a pair it does not multiply. -/
def macGroup (a b : Nat) : Nat :=
  if a = 1 ∧ b = 1 then 128
  else if a ≤ 1 ∧ b ≤ 1 then 64
  else if (a = 3 ∨ a = 4) ∧ (b = 3 ∨ b = 4) then 32
  else if 5 ≤ a ∧ a ≤ 9 ∧ 5 ≤ b ∧ b ≤ 9 then 32
  else if a = 0x0A ∧ b = 0x0A then 32
  else if (a = 0x0B ∧ b = 0x0B) ∨ (a = 0x0C ∧ b = 0x0C) then 16
  else 0

/-- The exact sum of one group's products (R146); the exact zero is −0 only when every product is −0. -/
def groupSum : List Fp → Fp
  | [] => fpOfNat 0
  | p :: t => t.foldl fpAddX p

/-- A partial accumulator: FP32, or INT32. -/
inductive Acc where
  | f (v : Fp)
  | i (v : Int)
  deriving DecidableEq, Repr

/-- A saturating INT32 addition (R147). -/
def satAdd (a b : Int) : Int × Ev :=
  let s := a + b
  if s > 2147483647 then (2147483647, { accSat := 1 })
  else if s < -2147483648 then (-2147483648, { accSat := 1 }) else (s, {})

/-- Two partial results added with one rounding, or saturating. -/
def Acc.add (ftz : Bool) (a b : Acc) : Acc × Ev :=
  match a, b with
  | .f x, .f y => let r := vAdd ftz x y; (.f r.1, r.2)
  | .i x, .i y => let r := satAdd x y; (.i r.1, r.2)
  | x, _ => (x, {})

/-- Group sums added in ascending order to an accumulator. -/
def Acc.addAll (ftz : Bool) (a : Acc) (gs : List Acc) : Acc × Ev := foldEv (Acc.add ftz) a gs

/-! ## Split reductions (R155, R156, R561) -/

/-- The runs of u units over p panes, the pane's units in order (R561): pane index, units. -/
def splitRuns {α : Type} (p : Nat) (us : List α) : List (List α) :=
  let u := us.length
  let rec go : Nat → Nat → List α → List (List α)
    | 0, _, _ => []
    | n + 1, i, l => let k := u / p + (if i < u % p then 1 else 0); l.take k :: go n (i + 1) (l.drop k)
  (go p 0 us).filter fun r => !r.isEmpty

/-- One level of the fixed tree: neighbours combined, an odd last one passed up. -/
def treeLevel {α : Type} (f : α → α → α × Ev) : List α → List α × Ev
  | a :: b :: t => let r := f a b; let s := treeLevel f t; (r.1 :: s.1, r.2.add s.2)
  | l => (l, {})

/-- The fixed binary tree over partials in ascending logical pane order (R156). -/
def treeReduce {α : Type} (f : α → α → α × Ev) : Nat → List α → List α × Ev
  | 0, l => (l, {})
  | n + 1, l =>
    if l.length ≤ 1 then (l, {})
    else let r := treeLevel f l; let s := treeReduce f n r.1; (s.1, r.2.add s.2)

/-- The list in the order that a code picks: each next one at the code's remainder. -/
def pickOrder {α : Type} : Nat → Nat → List α → List α
  | 0, _, l => l
  | n + 1, code, l =>
    match l with
    | [] => []
    | _ =>
      let i := code % l.length
      (l.drop i).take 1 ++ pickOrder n (code / l.length) (l.take i ++ l.drop (i + 1))

/-- The partials of one output combined: by the tree in locked mode, in arrival order in fast mode (R155, R156). `order`
codes the arrival order. -/
def combine {α : Type} (locked : Bool) (order : Nat) (f : α → α → α × Ev) (ps : List α) : List α × Ev :=
  if locked then treeReduce f ps.length ps
  else
    match pickOrder ps.length order ps with
    | [] => ([], {})
    | a :: t => let r := foldEv f a t; ([r.1], r.2)

/-! ## Structured sparsity (R150 to R152) -/

/-- One quad expanded: two stored patterns and a metadata nibble give four patterns. -/
def expandQuad (a b nib : Nat) : List Nat × Ev :=
  let p := nib % 4
  let q := nib / 4 % 4
  if p < q then ((List.range 4).map fun i => if i = p then a else if i = q then b else 0, {})
  else ([0, 0, 0, 0], { sparseErr := 1 })

/-- The dense patterns of a 2:4 operand of n dense positions (R150). -/
def expandSparse (n : Nat) (stored nibs : Array Nat) : List Nat × Ev :=
  let r := mapEv (fun q => expandQuad (stored.getD (2 * q) 0) (stored.getD (2 * q + 1) 0) (nibs.getD q 0))
    (List.range (n / 4))
  (r.1.flatten, r.2)

end Sys2Proof.Machine
end

