-- ==== Sys2Proof/Machine/Image.lean ====
section
/-!
DEFINITION. A glazing image as data: what the sections of an image hold (R110 to R122), read from its bytes.
-/
namespace Sys2Proof.Machine

/-- A tensor descriptor (Table 6.5). -/
structure TDesc where
  fmt : Nat
  rank : Nat
  kind : Nat
  port : Nat
  obj : Nat
  rsvd : Nat
  dims : List Nat
  deriving DecidableEq, Repr

/-- A stage: its descriptor (Table 4.4), its parameter block (Tables 6.4, 6.5) and operator body. `ofs` is the byte offset
of the descriptor in the image; `rsvd` collects reserved bytes. -/
structure StageDesc where
  ofs : Nat
  id : Nat
  opcode : Nat
  pipe : Nat
  sflags : Nat
  nin : Nat
  nout : Nat
  panes : Nat
  pofs : Nat
  plen : Nat
  rsvd : Nat
  sram : Nat
  ndesc : Nat
  hflags : Nat
  hrsvd : Nat
  outMax : List Nat
  descs : List TDesc
  body : List Byte
  deriving DecidableEq, Repr

/-- A route (Table 4.5). -/
structure RouteDesc where
  ofs : Nat
  src : Nat
  srcPort : Nat
  rflags : Nat
  dst : Nat
  dstPort : Nat
  vc : Nat
  credits : Nat
  rsvd : Nat
  deriving DecidableEq, Repr

/-- An engine configuration block (R117). -/
structure EngineBlock where
  ofs : Nat
  code : Nat
  version : Nat
  rsvd : Nat
  body : List Byte
  deriving DecidableEq, Repr

/-- A variant: its duration in pane cycles, its stages, its energies at OP0 to OP7 in µJ (R118 to R120). -/
structure Variant where
  ofs : Nat
  dur : Nat
  list : Nat
  stages : List Nat
  rsvd : Nat
  energy : List Nat
  deriving DecidableEq, Repr

/-- A pipeline entry (R118); `rsvd` collects its reserved fields and the records past NVAR. -/
structure PipeDesc where
  ofs : Nat
  name : List Byte
  num : Nat
  nvar : Nat
  variants : List Variant
  rsvd : Nat
  deriving DecidableEq, Repr

/-- An object: manifest entry (Table 4.7) and binding (R122). -/
structure ObjDesc where
  ofs : Nat
  name : List Byte
  size : Nat
  place : Nat
  oflags : Nat
  pane : Nat
  rsvd : Nat
  bindIdx : Nat
  bindRsvd : Nat
  primary : Nat
  mirror : Nat
  dram : Nat
  deriving DecidableEq, Repr

/-- A section table entry (R111); `ofs` is its own place in the image. -/
structure Section where
  ofs : Nat
  kind : Nat
  sflags : Nat
  start : Nat
  len : Nat
  count : Nat
  deriving DecidableEq, Repr

/-- An image as its sections give it. -/
structure Image where
  l : Nat
  flags : Nat
  length : Nat
  baseHash : Nat
  buildId : Nat
  sections : List Section
  stages : List StageDesc
  routes : List RouteDesc
  engines : List EngineBlock
  pipes : List PipeDesc
  objects : List ObjDesc
  deriving DecidableEq, Repr

/-! ## Flags -/

def StageDesc.commit (s : StageDesc) : Bool := bitOf s.sflags 0
def StageDesc.spec (s : StageDesc) : Bool := bitOf s.sflags 1
def StageDesc.ftz (s : StageDesc) : Bool := bitOf s.sflags 2
def StageDesc.sat (s : StageDesc) : Bool := bitOf s.sflags 3
def RouteDesc.committed (r : RouteDesc) : Bool := bitOf r.rflags 0
def ObjDesc.mirrored (o : ObjDesc) : Bool := bitOf o.oflags 0
/-- The object is laid out over all channels: STRIPE_ALL, or FLASH_DIRECT with neither flag (R121). -/
def ObjDesc.striped (o : ObjDesc) : Bool := bitOf o.oflags 1 || (o.place == 2 && !bitOf o.oflags 0)
def ObjDesc.writable (o : ObjDesc) : Bool := bitOf o.oflags 2
def ObjDesc.hostVisible (o : ObjDesc) : Bool := bitOf o.oflags 3

/-- The logical panes of a bitmap, ascending. -/
def panesOf (m : Nat) : List Nat := (List.range 64).filter fun p => bitOf m p

/-- A stage's logical panes. -/
def StageDesc.paneList (s : StageDesc) : List Nat := panesOf s.panes

/-- The entry pane: the lowest logical pane (R168). -/
def StageDesc.entry (s : StageDesc) : Nat := s.paneList.headD 0

/-- A tensor descriptor of a kind and port or slot. -/
def StageDesc.desc (s : StageDesc) (kind port : Nat) : Option TDesc :=
  s.descs.find? fun d => d.kind == kind && d.port == port

/-- The number of elements a descriptor names. -/
def TDesc.count (d : TDesc) : Nat := dimProd d.dims

/-- A stage of an image by its ID. -/
def Image.stage (i : Image) (id : Nat) : Option StageDesc := i.stages.find? fun s => s.id == id

/-- An engine block of an image by its code. -/
def Image.engine (i : Image) (code : Nat) : Option EngineBlock := i.engines.find? fun b => b.code == code

/-- The routes out of a port. -/
def Image.routesFrom (i : Image) (src port : Nat) : List (Nat × RouteDesc) :=
  (((List.range i.routes.length).zip i.routes)).filter fun r => r.2.src == src && r.2.srcPort == port

/-- The route into a port. -/
def Image.routeInto (i : Image) (dst port : Nat) : Option (Nat × RouteDesc) :=
  ((List.range i.routes.length).zip i.routes).find? fun r => r.2.dst == dst && r.2.dstPort == port

/-- The pipeline of a number. -/
def Image.pipe (i : Image) (n : Nat) : Option PipeDesc := i.pipes.find? fun p => p.num == n

/-! ## Reading bytes -/

/-- n bytes at offset o of an image; bytes past its end read 0. -/
def imgBytes (b : Array Byte) (o n : Nat) : List Byte := sliceBytes b.toList o n

/-- The little-endian number in n bytes at offset o. -/
def imgAt (b : Array Byte) (o n : Nat) : Nat := leNat (imgBytes b o n)

/-- A section table entry. -/
def readSection (b : Array Byte) (o : Nat) : Section :=
  { ofs := o, kind := imgAt b o 2, sflags := imgAt b (o + 2) 2, start := imgAt b (o + 4) 4, len := imgAt b (o + 8) 4,
    count := imgAt b (o + 12) 4 }

/-- The section table. -/
def readSections (b : Array Byte) : List Section :=
  (List.range (min 16 (imgAt b 14 2))).map fun i => readSection b (imgAt b 56 4 + 16 * i)

/-- The section of a kind. -/
def findSection (ss : List Section) (kind : Nat) : Option Section := ss.find? fun s => s.kind == kind

/-- A tensor descriptor. -/
def readTDesc (b : Array Byte) (o : Nat) : TDesc :=
  { fmt := imgAt b o 1, rank := imgAt b (o + 1) 1, kind := imgAt b (o + 2) 1, port := imgAt b (o + 3) 1,
    obj := imgAt b (o + 4) 2, rsvd := imgAt b (o + 6) 2, dims := (List.range 4).map fun i => imgAt b (o + 8 + 4 * i) 4 }

/-- A stage at descriptor offset o of a section that starts at `base`; a parameter block that leaves the section reads as
far as it lies inside. -/
def readStage (b : Array Byte) (base secLen o : Nat) : StageDesc :=
  let pofs := imgAt b (o + 16) 4
  let plen := imgAt b (o + 20) 4
  let p := base + pofs
  let inside := decide (pofs + plen ≤ secLen)
  let nd := if inside && decide (16 ≤ plen) then min (imgAt b (p + 4) 1) 16 else 0
  { ofs := o, id := imgAt b o 2, opcode := imgAt b (o + 2) 1, pipe := imgAt b (o + 3) 1, sflags := imgAt b (o + 4) 2,
    nin := imgAt b (o + 6) 1, nout := imgAt b (o + 7) 1, panes := imgAt b (o + 8) 8, pofs := pofs, plen := plen,
    rsvd := imgAt b (o + 24) 8,
    sram := if inside then imgAt b p 4 else 0
    ndesc := if inside then imgAt b (p + 4) 1 else 0
    hflags := if inside then imgAt b (p + 5) 1 else 0
    hrsvd := if inside then imgAt b (p + 6) 2 else 0
    outMax := (List.range 8).map fun i => if inside then imgAt b (p + 8 + i) 1 else 0
    descs := (List.range nd).map fun i => readTDesc b (p + 16 + 24 * i)
    body := if inside then imgBytes b (p + 16 + 24 * nd) (plen - 16 - 24 * nd) else [] }

/-- A route entry. -/
def readRoute (b : Array Byte) (o : Nat) : RouteDesc :=
  { ofs := o, src := imgAt b o 2, srcPort := imgAt b (o + 2) 1, rflags := imgAt b (o + 3) 1, dst := imgAt b (o + 4) 2,
    dstPort := imgAt b (o + 6) 1, vc := imgAt b (o + 7) 1, credits := imgAt b (o + 8) 2, rsvd := imgAt b (o + 10) 6 }

/-- The engine blocks, one after the other, each at a multiple of 8 bytes (R117). -/
def readEngines (b : Array Byte) (stop : Nat) : Nat → Nat → List EngineBlock
  | 0, _ => []
  | n + 1, o =>
    if stop ≤ o then []
    else
      let len := imgAt b (o + 4) 4
      { ofs := o, code := imgAt b o 1, version := imgAt b (o + 1) 1, rsvd := imgAt b (o + 2) 2,
        body := imgBytes b (o + 8) (min len (stop - o)) }
        :: readEngines b stop n (o + (8 + len + 7) / 8 * 8)

/-- A variant record; its stage list lies in the section's pool, its energies in the energy table at `eo`. -/
def readVariant (b : Array Byte) (base secLen o eo : Nat) : Variant :=
  let list := imgAt b (o + 4) 4
  let nst := imgAt b (o + 8) 2
  { ofs := o, dur := imgAt b o 4, list := list,
    stages := if list + 2 * nst ≤ secLen then (List.range nst).map fun i => imgAt b (base + list + 2 * i) 2
      else List.replicate nst 0xFFFF
    rsvd := imgAt b (o + 10) 6, energy := (List.range 8).map fun i => imgAt b (eo + 4 * i) 4 }

/-- The pipeline entries; `eo` is where the energies of the next variant stand. -/
def readPipes (b : Array Byte) (base secLen : Nat) : Nat → Nat → Nat → List PipeDesc
  | 0, _, _ => []
  | n + 1, o, eo =>
    let nvar := imgAt b (o + 33) 1
    let nv := min 8 nvar
    { ofs := o, name := imgBytes b o 32, num := imgAt b (o + 32) 1, nvar := nvar,
      variants := (List.range nv).map fun v => readVariant b base secLen (o + 48 + 16 * v) (eo + 32 * v)
      rsvd := imgAt b (o + 34) 14 }
      :: readPipes b base secLen n (o + 176) (eo + 32 * nv)

/-- An object: manifest entry at o, binding entry at bo of the binding table. -/
def readObject (b bind : Array Byte) (o bo : Nat) : ObjDesc :=
  { ofs := o, name := imgBytes b o 32, size := imgAt b (o + 32) 8, place := imgAt b (o + 40) 1,
    oflags := imgAt b (o + 41) 1, pane := imgAt b (o + 42) 2, rsvd := imgAt b (o + 44) 20,
    bindIdx := imgAt bind bo 2, bindRsvd := imgAt bind (bo + 2) 6, primary := imgAt bind (bo + 8) 8,
    mirror := imgAt bind (bo + 16) 8, dram := imgAt bind (bo + 24) 8 }

/-- The n items of a section with entries of a fixed size. -/
def readItems {α : Type} (f : Nat → α) (s : Option Section) (size lim : Nat) : List α :=
  match s with
  | none => []
  | some s => (List.range (min lim s.count)).map fun i => f (s.start + size * i)

/-- An image and its binding table read from their bytes; counts past the limits of Table 4.3 are cut off one past the
limit, which the LIMIT check refuses. -/
def readImage (bytes bindBytes : List Byte) : Image :=
  let b := bytes.toArray
  let bind := bindBytes.toArray
  let ss := readSections b
  let s1 := findSection ss 1
  let s4 := findSection ss 4
  let s5 := findSection ss 5
  { l := imgAt b 12 1, flags := imgAt b 13 1, length := imgAt b 8 4,
    baseHash := beNat (imgBytes b 16 32), buildId := imgAt b 48 8, sections := ss,
    stages := match s1 with
      | none => []
      | some s => (List.range (min 1025 s.count)).map fun i => readStage b s.start s.len (s.start + 32 * i)
    routes := readItems (readRoute b) (findSection ss 2) 16 8193
    engines := match findSection ss 3 with
      | none => []
      | some s => readEngines b (s.start + s.len) (min 10 s.count) s.start
    pipes := match s4 with
      | none => []
      | some s => readPipes b s.start s.len (min 65 s.count) s.start (match s5 with | none => 0 | some e => e.start + 16)
    objects := match findSection ss 6 with
      | none => []
      | some s => (List.range (min 4096 s.count)).map fun i => readObject b bind (s.start + 64 * i) (32 * i) }

end Sys2Proof.Machine
end

