-- ==== Sys2Proof/Machine/EngineState.lean ====
section
/-!
DEFINITION. The state of a leaf's working blocks beside their registers, first part: tick controller, glazing, token
fabric, memory tiers, speculation.
-/
namespace Sys2Proof.Machine

/-! ## Tick controller (R82 to R108) -/

/-- What the tick block remembers: the next tick boundary in ns of vehicle time, whether it is the first after a START,
whether it halts, the START that waits for LOCKED or for a barrier edge, the next sub-tick boundary, the variant each pipeline runs, the pipelines whose OVR_LIMIT event has been
raised, TICK_OUT as driven and its pulse, TICK_OUT_CFG as latched, pending resets of the report ring and the digest ring (R107, R435), whether the boundary has applied an update, and the digests sent and not yet at the hinge
(R34). -/
structure TickState where
  nextAt : Option Nat := none
  first : Bool := false
  halt : Bool := false
  held : Bool := false
  heldBarrier : Bool := false
  nextSub : Option Nat := none
  sel : List (Nat × Nat) := []
  ovrRaised : List Nat := []
  outActive : Bool := false
  outEnd : Option Nat := none
  outCfg : Nat := 0x03E80001
  ringReset : Bool := false
  digReset : Bool := false
  updateApplied : Bool := false
  outDigests : List DigestMsg := []
  deriving DecidableEq, Repr

/-! ## Glazing (R109 to R135) -/

/-- A load or update that is being staged and checked (R126, R130): the copied image and binding bytes, whether it is an
update, whether the DRAM they were read from was uncorrectable, LEN, BIND_CNT and TARGET as latched, and whether the target boundary has been
missed (R132). -/
structure Staged where
  bytes : List Byte
  bind : List Byte
  update : Bool
  poison : Bool
  len : Nat
  bindCnt : Nat
  target : Nat
  missed : Bool := false
  deriving DecidableEq, Repr

/-- A verified update that waits for its boundary (R132): its pipelines, its hash, that of its tables (R32) and its target tick. -/
structure PendUpdate where
  pipes : List PipeDesc
  hash : Nat
  varHash : Nat
  target : Nat
  deriving DecidableEq, Repr

/-- A key fuse operation in progress (R125). -/
inductive FuseOp where
  | prog1 (hash : Nat)
  | revoke (r0 r1 : Bool)
  deriving DecidableEq, Repr

/-- The glazed image, the load in progress, the pending update, the fuse operation, the hash of the variant
and energy tables in force (R32), the tables of the whole image with their hash (R463) and the unlock value armed (R125). -/
structure GlzState where
  image : Option Image := none
  staged : Option Staged := none
  pend : Option PendUpdate := none
  fuse : Option FuseOp := none
  varHash : Nat := 0
  base : List PipeDesc := []
  baseHash : Nat := 0
  unlock : Option Nat := none
  deriving DecidableEq, Repr

/-! ## Token fabric (R162 to R190) -/

/-- A token (R166): its valid bytes (VALID is their number), END, POISON, BLIND, and what the rules of R91 and R93 carry
with the data: STALE, DESYNC and the oldest-input capture time in ns. -/
structure Token where
  bytes : List Byte
  last : Bool
  poison : Bool
  blind : Bool
  stale : Bool
  desync : Bool
  oldest : Option Nat
  deriving DecidableEq, Repr

/-- A route (R168): the producer's credit counter, tokens produced that still lack a credit, tokens on the mesh, tokens in
the consumer's buffer, and credits on their way back. -/
structure RouteRun where
  credits : Nat
  waiting : List Token := []
  flight : List Token := []
  buf : List Token := []
  back : Nat := 0
  deriving DecidableEq, Repr

/-- What a consumer has taken from one input port in the tick: the payloads, and whether END came. -/
structure InPort where
  toks : List (List Byte) := []
  ended : Bool := false
  deriving DecidableEq, Repr

/-- What a result carries beside its data (R91, R93, R227): STALE, DESYNC, the oldest-input capture time. -/
structure Carry where
  stale : Bool := false
  desync : Bool := false
  oldest : Option Nat := none
  deriving DecidableEq, Repr

/-- A write to an object that waits for the commit of the tick (R180): object, byte offset, bytes. -/
structure ObjWrite where
  obj : Nat
  ofs : Nat
  bytes : List Byte
  deriving DecidableEq, Repr

/-- A stage's work for one tick (R162, R163). `ins` are its input ports; `outs` the tokens of each output port not sent
yet, once `computed`; `full` the payloads of each output port; `poisoned` that it finished under R188; `writes` and `ev`
take effect at the commit; `rngTop` is the highest word of the random object it read (R431); `vers` are the versioned states
a blind run read, with their versions (R343); `confirmed` that it ran blind and was confirmed. -/
structure StageRun where
  armed : Bool := false
  finished : Bool := false
  poisoned : Bool := false
  started : Bool := false
  firings : Nat := 0
  ins : List InPort := []
  poisonIn : Bool := false
  computed : Bool := false
  outs : List (List Token) := []
  full : List (List (List Byte)) := []
  carry : Carry := {}
  ev : Ev := {}
  dropPts : Nat := 0
  writes : List ObjWrite := []
  rngTop : Option Nat := none
  vers : List (Nat × Nat) := []
  confirmed : Bool := false
  deriving DecidableEq, Repr

/-- The committed copy of a committed output (R91, R92): payloads, carried marks, digest, and the bytes digested. -/
structure CommitOut where
  toks : List (List Byte) := []
  carry : Carry := {}
  digest : Nat := 0
  bytes : Nat := 0
  deriving DecidableEq, Repr

/-- What the fixed engines have taken from a route into one of their ports in the tick. -/
structure EngPort where
  toks : List (List Byte) := []
  ended : Bool := false
  poison : Bool := false
  carry : Carry := {}
  deriving DecidableEq, Repr

/-- The fabric of a glazed leaf: routes by index; the stages' runs by index for the tick in progress and, blind, for the
next one; committed outputs by stage index times 8 plus port, with the tokens of the ending tick being those in the runs;
engine input ports by engine code times 64 plus port; the stages' committed random counters by stage ID (R431). -/
structure FabState where
  routes : List RouteRun := []
  runs : List (Nat × StageRun) := []
  blinds : List (Nat × StageRun) := []
  outs : List (Nat × CommitOut) := []
  ports : List (Nat × EngPort) := []
  rng : List (Nat × Nat) := []
  deriving DecidableEq, Repr

/-! ## Memory tiers (R191 to R221) -/

/-- A granule held in the DRAM cache (R200, R201), least recently touched first: object, granule, its slot
in the partition, last tick touched. -/
structure Granule where
  obj : Nat
  gran : Nat
  slot : Nat
  tick : Nat
  deriving DecidableEq, Repr

/-- A granule fetch in progress (R200), and whether only blind work waits for it. -/
structure Fetch where
  obj : Nat
  gran : Nat
  slot : Nat
  blind : Bool
  deriving DecidableEq, Repr

/-- A rewrite or write-back in progress (R212, R213), with the status it will end with and
the number of committed writes to the object when it began. -/
structure RwCmd where
  obj : Nat
  src : Nat
  writeback : Bool
  status : Nat
  vers : Nat
  deriving DecidableEq, Repr

/-- What the memory tiers remember: cache and fetches; 32-byte DRAM words that are uncorrectable; flash codewords with a
lost marker (R216); DRAM repairs running (object, 4 KiB region; R206) and clearings that wait for step 7 (R211); the
command running; POISON receipts of the tick (consumer, object; R207); the contents of PINNED_SRAM objects; the number
of committed writes to each WRITABLE object (R343); blocks scheduled for refresh. -/
structure MemState where
  cache : List Granule := []
  fetches : List Fetch := []
  bad : List Nat := []
  lost : List Nat := []
  repairs : List (Nat × Nat) := []
  clears : List Nat := []
  rw : Option RwCmd := none
  receipts : List (Nat × Nat) := []
  sram : List Host.Cell := []
  vers : List (Nat × Nat) := []
  refresh : List Nat := []
  deriving DecidableEq, Repr

/-! ## Speculation (R329 to R346) -/

/-- A pose (Table 12.1): position and quaternion, binary64. -/
structure Pose where
  px : F64 := 0
  py : F64 := 0
  pz : F64 := 0
  qw : F64 := 0x3FF0000000000000
  qx : F64 := 0
  qy : F64 := 0
  qz : F64 := 0
  deriving DecidableEq, Repr

/-- The working pose of a tick (R330): the pose, its SOURCE, whether a prediction existed, and d and |dyaw| of the gate in µm
and µrad. -/
structure WorkPose where
  tick : Nat
  pose : Pose
  source : Nat
  pred : Bool
  dpos : Nat
  dyaw : Nat
  deriving DecidableEq, Repr

/-- The speculation block: the prediction latched for the boundary that ends a tick, the confirmed pose of a tick (the
tick that its boundary starts), the working pose of a tick with its SOURCE, whether blind work may start since the last
latch (R346), the stages disabled after their blind start, and the decision that is pending for a tick. -/
structure SpecState where
  pred : Option (Nat × Pose) := none
  conf : Option (Nat × Pose) := none
  work : Option WorkPose := none
  enabled : Bool := false
  disabled : List Nat := []
  pending : Option Nat := none
  decided : Option Nat := none
  deriving DecidableEq, Repr

end Sys2Proof.Machine
end

