-- ==== Sys2Proof/Machine/SenseState.lean ====
section
/-!
DEFINITION. The state of a leaf's sensing blocks beside their registers: sensor ingress, filter chain, ego-motion.
-/
namespace Sys2Proof.Machine

/-! ## Windows and slots (R227 to R229, R258) -/

/-- A record collected for an object: the instant in ns that places it in a window, its capture time in ns, its bytes. -/
structure SlotRec where
  at' : Nat
  cap : Nat
  bytes : List Byte
  deriving DecidableEq, Repr

/-- What an object's window has collected (R229): the records, the bytes they take, the flags OVF, LATE, SUPERSEDED and
MALFORMED of Table 8.3, the items not delivered, and the arrival instants of bad items. -/
structure SlotBuf where
  recs : List SlotRec := []
  used : Nat := 0
  flags : Nat := 0
  lost : Nat := 0
  bad : List Nat := []
  drop : Bool := false
  points : Nat := 0
  deriving DecidableEq, Repr

/-! ## Sensor ingress (R222 to R244) -/

/-- A source (Table 8.1): well-formed items since it left OFF, the local count of the last one, and its window. -/
structure SrcRun where
  seq : Nat := 0
  lastAt : Nat := 0
  slot : SlotBuf := {}
  deriving DecidableEq, Repr

/-- What an item is, for the sources of Table 8.1. -/
inductive ItemBody where
  | camera
  | lidar (payload : List Byte)
  | spi (bytes : List Byte)
  | can (value : Nat)
  | gnss (bytes : List Byte)
  | edge
  deriving DecidableEq, Repr

/-- An item: its source, its stamp number, its own arrival stamp in 2^-16 ns and in 1/8 counts, and what it is. In mirror mode
it waits for the reconciled stamp (R29). -/
structure Item where
  src : Nat
  seq : Nat
  vt : Nat
  c8 : Nat
  body : ItemBody
  deriving DecidableEq, Repr

/-- A camera frame (R231, R232): its slot, its arrival stamp once known, the lines received, the invalid ones, its embedded
data, and whether it has ended. -/
structure CamFrame where
  seq : Nat
  slot : Nat
  stamp : Option Nat := none
  c8 : Nat := 0
  lines : Nat := 0
  bad : List Nat := []
  embed : List Byte := []
  ended : Bool := false
  deliver : Bool := false
  cap : Nat := 0
  judged : Bool := false
  deriving DecidableEq, Repr

/-- A camera receiver: frames in progress or not yet due, the frame due in the window with its flags, the presented frame,
and the next exposure-trigger instant in ns (R233, R234). -/
structure CamRun where
  frames : List CamFrame := []
  due : Option CamFrame := none
  cur : Option CamFrame := none
  trigNext : Option Nat := none
  i2c : Option (Bool × Nat × Nat × Nat) := none
  deriving DecidableEq, Repr

/-- Sensor ingress: sources by number, cameras, the SPI transaction running on each port (stamps of its edge), the CAN
controllers that are bus-off, items that wait for their reconciled stamp and stamps not yet sent to the hinge, the stamp
numbers of each source, the UART's transmit FIFO, exposure triggers sent, and the status vector of the last window (R228). -/
structure SnsState where
  srcs : List (Nat × SrcRun) := []
  cams : List CamRun := List.replicate 6 {}
  spi : List (Option (Nat × Nat)) := [none, none]
  busOff : List Bool := [false, false]
  pend : List Item := []
  outStamps : List StampMsg := []
  stampSeq : List (Nat × Nat) := []
  uartTx : List Nat := []
  uartSent : List Nat := []
  trigSent : List (Nat × Nat) := []
  vector : List (Nat × Nat) := []
  deriving DecidableEq, Repr

/-! ## Filter chain (R245 to R258) -/

/-- The state of a second-order section (R249). -/
structure Sos where
  x1 : Int := 0
  x2 : Int := 0
  y1 : Int := 0
  y2 : Int := 0
  deriving DecidableEq, Repr

/-- A channel: the number of its next input sample, the pending phase reset in 2^-16 ns, the sections, the delay lines of the
linear-phase stages (newest first), the coarse buffer and how many samples it has taken, the preset in effect, and its
window. `lastOut` is the latest minimum-phase output and its output time in 2^-16 ns. -/
structure FiltCh where
  j : Nat := 0
  resetAt : Option Nat := none
  sos : List Sos := List.replicate 8 {}
  lines : List (List Int) := []
  coarse : List Int := []
  coarseN : Nat := 0
  preset : Nat := 0
  slot : SlotBuf := {}
  deriving DecidableEq, Repr

/-- A threshold record for the fusion unit (R257): channel, threshold, direction, output time and instant of computation in
ns, and y. -/
structure ThrRec where
  chan : Nat
  thr : Nat
  rising : Bool
  outTime : Nat
  at' : Nat
  y : Int
  deriving DecidableEq, Repr

/-- The filter chain: its channels, the armed phase reset's tick, and the records for the fusion unit. -/
structure FiltState where
  chs : List FiltCh := List.replicate 32 {}
  armed : Option Nat := none
  lastReset : Option Nat := none
  recs : List ThrRec := []
  deriving DecidableEq, Repr

/-! ## Ego-motion (R259 to R266) -/

/-- A set of six minimum-phase outputs with one output time in 2^-16 ns (R259): channel slot and counts. -/
structure ImuSet where
  t : Int
  vals : List (Nat × Int)
  deriving DecidableEq, Repr

/-- A correction committed for a tick (R264): δx, P+, and its status. -/
structure Correction where
  tick : Nat
  dx : List F64
  cov : List (List F64)
  status : Nat
  deriving DecidableEq, Repr

/-- What the unit hands to the solver when a tick closes (R263), with the increment Δp, Δq of the tick (R403). -/
structure HandOff where
  tick : Nat
  nom : List F64
  cov : List (List F64)
  phi : List (List F64)
  qd : List (List F64)
  wheels : List (Nat × F64)
  excluded : Nat
  dp : List F64
  dq : List F64
  deriving DecidableEq, Repr

/-- The ego-motion unit: nominal state (p, v, q, bg, ba), covariance, the tick's Phi and Qd, IMU sets not integrated yet, the
last integrated sample (output time in 2^-16 ns, ω, a), each wheel's latest value, the start of the next window in ns,
whether a RESET is pending and whether the next sample is a first one, the tick's wheel observations and exclusions, the last
hand-off, the Phi and Qd of closed ticks, and corrections not yet applied. `inc` integrates the tick's samples alone, in the body frame
of the tick's start, under gravity `incG` (R403); `incOn` says that the tick has begun. -/
structure EgoState where
  nom : List F64 := List.replicate 16 0
  cov : List (List F64) := List.replicate 15 (List.replicate 15 0)
  phi : List (List F64) := (List.range 15).map fun i => (List.range 15).map fun j => if i = j then 0x3FF0000000000000 else 0
  qd : List (List F64) := List.replicate 15 (List.replicate 15 0)
  sets : List ImuSet := []
  last : Option (Int × List F64 × List F64) := none
  fresh : Bool := true
  wheels : List (Option (Int × Int)) := List.replicate 4 none
  nextWin : Option Nat := none
  resetReq : Bool := false
  obs : List (Nat × F64) := []
  excluded : Nat := 0
  hand : Option HandOff := none
  closed : List (Nat × List (List F64) × List (List F64)) := []
  corr : List Correction := []
  pred : Option Nat := none
  inc : List F64 := List.replicate 16 0
  incG : List F64 := [0, 0, 0]
  incOn : Bool := false
  deriving DecidableEq, Repr

end Sys2Proof.Machine
end

