-- ==== Sys2Proof/Machine/WorkState.lean ====
section
/-!
DEFINITION. The state of a leaf's fixed engines beside their registers: landmarks and map, vision, fusion, place search, solver,
power.
-/
namespace Sys2Proof.Machine

/-! ## Landmarks and map (R347 to R366) -/

/-- A landmark entry (Table 13.2); `desc` is its 256-bit descriptor as a little-endian number. -/
structure Lmk where
  x : F32 := 0
  y : F32 := 0
  z : F32 := 0
  obs : Nat := 0
  seen : Nat := 0
  gen : Nat := 0
  flags : Nat := 0
  tile : Nat := 0
  desc : Nat := 0
  deriving DecidableEq, Repr

/-- A keyframe of the window (Table 13.5): its pose as p then q, scalar first. -/
structure Keyframe where
  id : Nat
  node : Nat
  tick : Nat
  pose : List F64
  solved : Bool
  deriving DecidableEq, Repr

/-- A node of the pose graph (Table 13.6). -/
structure GNode where
  kind : Nat
  fixed : Bool
  item : Nat
  pose : List F64
  deriving DecidableEq, Repr

/-- An edge of the pose graph (Table 13.6). -/
structure GEdge where
  a : Nat
  b : Nat
  kind : Nat
  tick : Nat
  dpose : List F64
  info : List F64
  deriving DecidableEq, Repr

/-- A verification candidate (R359): its nodes, its kind and its pairs. -/
structure Cand where
  query : Nat
  node : Nat
  kind : Nat
  n : Nat
  pairs : List Byte
  deriving DecidableEq, Repr

/-- The outcome of a verified candidate (R360): accepted with its rotation and translation, or rejected. -/
inductive Verdict where
  | accept (r : List (List F64)) (t : List F64)
  | reject
  deriving DecidableEq, Repr

/-- The verification of the candidates of a tick: the candidates by number and the outcomes so far. -/
structure Verify where
  tick : Nat
  cands : List (Nat × Cand)
  done : List (Cand × Verdict) := []
  deriving DecidableEq, Repr

/-- The landmarks-and-map block: entries that are not all zero, entries with an uncorrectable word, keyframes oldest first, the
header tick and result words of the keyframe view, the pose graph with its header fields, the verification in progress, whether
an edge calls for a pose-graph solve, and per landmark block how often it has been written. -/
structure MapState where
  lmks : List (Nat × Lmk) := []
  ue : List Nat := []
  kfs : List Keyframe := []
  kfvTick : Nat := 0
  newestKf : Nat := 0
  results : List Nat := []
  nodes : List GNode := []
  edges : List GEdge := []
  graphTick : Nat := 0
  solveTick : Nat := 0
  tcorr : List F64 := [0, 0, 0, 0x3FF0000000000000, 0, 0, 0]
  verify : Option Verify := none
  wantSolve : Bool := false
  vers : List (Nat × Nat) := []
  deriving DecidableEq, Repr

/-! ## Vision engines (R270 to R300) -/

/-- Where a vision job stands in the tick (R273 to R275). -/
inductive JobSt where
  | armed
  | queued
  | running
  | done
  | skipped
  | failed
  | cut
  deriving DecidableEq, Repr

/-- A vision job of the tick: where it stands, and what its results carry (R276). -/
structure VJob where
  st : JobSt
  oldest : Option Nat := none
  desync : Bool := false
  deriving DecidableEq, Repr

/-- The roles of a surface's copies (R278): which copy is CUR, and whether CUR and PREV have ever been completed. -/
structure SurfRun where
  cur : Nat := 0
  curOk : Bool := false
  prevOk : Bool := false
  deriving DecidableEq, Repr

/-- The vision engines: jobs of the tick by engine code times 16 plus index, the queue of each engine, surfaces by engine code
times 16 plus index, and the engines that run no job until the next arming (R298). -/
structure VisState where
  jobs : List (Nat × VJob) := []
  queues : List (Nat × List Nat) := []
  surfs : List (Nat × SurfRun) := []
  held : List Nat := []
  deriving DecidableEq, Repr

/-! ## Fusion unit (R301 to R328) -/

/-- An alignment table (R307), live or cumulative: rotation rows, translation, fx fy cx cy, and k1 k2 k3 p1 p2 ZMIN. -/
structure SenTable where
  rot : List (List F64) := List.replicate 3 (List.replicate 3 0)
  t : List F64 := List.replicate 3 0
  intr : List F64 := List.replicate 4 0
  dist : List F64 := List.replicate 6 0
  deriving DecidableEq, Repr

/-- A live track (Table 11.5); `body` are its nine f32 values, `cls` class and alternative class. -/
structure Track where
  id : Nat
  isNew : Bool := false
  updated : Bool := false
  contested : Bool := false
  coasting : Bool := false
  cls : Nat
  age : Nat := 0
  miss : Nat := 0
  exist : Nat
  support : Nat
  dissent : Nat := 0
  body : List Byte
  oldest : Nat := 0
  deriving DecidableEq, Repr

/-- A projection job of the tick (R304): tokens of its input already projected, records not sent yet, END sent. -/
structure PjRun where
  taken : Nat := 0
  left : List Byte := []
  ended : Bool := false
  deriving DecidableEq, Repr

/-- A committed output of the unit as produced in the tick: the object's bytes, CONTESTED, what it carries, POISON. -/
structure FusOut where
  bytes : List Byte := []
  contested : Bool := false
  carry : Carry := {}
  poison : Bool := false
  deriving DecidableEq, Repr

/-- The fusion unit: live tables and cumulative corrections by sensor index (ten values: rotation, translation, fx fy cx cy),
projection jobs (blind ones from key 8 on), the tick's grid with its minority cells by input, the tick's tracks and the
committed ones by slot, consecutive boundaries of disagreement and of agreement by source, the raw steps decided by tick, T3
and whether the timer has run out, consecutive bad POSE statuses, the active threshold actions, and the committed outputs. -/
structure FusState where
  live : List (Nat × SenTable) := []
  cum : List (Nat × List F64) := []
  pj : List (Nat × PjRun) := []
  grid : Option FusOut := none
  minority : List Nat := []
  trkOut : Option FusOut := none
  work : List (Nat × Track) := []
  trks : List (Nat × Track) := []
  dis : List (Nat × Nat) := []
  agree : List (Nat × Nat) := []
  hist : List (Nat × Nat) := []
  t3 : Option Nat := none
  expired : Bool := false
  locRun : Nat := 0
  active : List Nat := []
  ringReset : Bool := false
  outGrid : CommitOut := {}
  outTrk : CommitOut := {}
  deriving DecidableEq, Repr

/-! ## Mullion engines (R367 to R394) -/

/-- An attached index as its header describes it (Table 14.1): the header's flash address, and the entry points as item and
sketch. -/
structure IxHdr where
  at' : Nat := 0
  c : Nat := 1
  ch0 : Nat := 0
  n : Nat := 0
  nodeOfs : Nat := 0
  descOfs : Nat := 0
  eps : List (Nat × Nat) := []
  deriving DecidableEq, Repr

/-- A side-list entry (R384). -/
structure SideEntry where
  seq : Nat
  insert : Bool
  id : Nat
  tag : Nat := 0
  sketch : Nat := 0
  desc : List Byte := []
  deriving DecidableEq, Repr

/-- An attached index slot: header, side list oldest first, SEQ and NEXT, and whether it is detaching. -/
structure IdxSlot where
  hdr : IxHdr
  side : List SideEntry := []
  seq : Nat := 0
  next : Nat := 0
  detaching : Bool := false
  deriving DecidableEq, Repr

/-- Who sent a query: a host command, or row `row` of source q in a tick, blind or not. -/
inductive QOwner where
  | host (c : HostCmd)
  | row (q tick row : Nat) (blind : Bool)
  deriving DecidableEq, Repr

/-- Where a query stands. -/
inductive QPhase where
  | walk
  | rank
  | scan
  | done
  | invalid
  deriving DecidableEq, Repr

/-- An entry of the candidate queue (R372). -/
structure QEnt where
  key : Nat
  id : Nat
  read : Bool
  deriving DecidableEq, Repr

/-- An admitted query: its owner, record, index slot, the index and the visible side list as they stood at admission, snapshot
S, local count at admission, and the work so far (R371 to R374). -/
structure Query where
  owner : QOwner
  rec' : List Byte
  x : Nat
  ix : IxHdr
  side : List SideEntry
  s : Nat
  start : Nat
  phase : QPhase
  queue : List QEnt := []
  allowed : List (Nat × Nat) := []
  readIds : List Nat := []
  hops : Nat := 0
  reads : Nat := 0
  poison : Bool := false
  hopLimit : Bool := false
  todo : List Nat := []
  scanAt : Nat := 0
  scanDesc : Bool := false
  ranked : List (Nat × Nat) := []
  deriving DecidableEq, Repr

/-- A row that waits for a context (R382, R388). -/
structure WaitRow where
  q : Nat
  tick : Nat
  row : Nat
  blind : Bool
  s : Nat
  rec' : List Byte
  deriving DecidableEq, Repr

/-- A row of a delivery: its oldest capture time, and its result block with its status once it has one. -/
structure DRow where
  capture : Nat := 0
  block : Option (Nat × List Byte) := none
  deriving DecidableEq, Repr

/-- The rows of a source for a tick, to be delivered (R383). -/
structure Deliv where
  q : Nat
  tick : Nat
  blind : Bool
  rows : List DRow
  deriving DecidableEq, Repr

/-- A merge running (R386): its slot, M, N', target header, node and descriptor offsets, pipeline, QLEN and hops. -/
structure MergeRun where
  x : Nat
  m : Nat
  n : Nat
  hdr : Nat
  node : Nat
  desc : Nat
  pipe : Nat
  qlen : Nat
  hops : Nat
  deriving DecidableEq, Repr

/-- A flash write of R391 running, with the status its operands give it. -/
structure FwCmd where
  src : Nat
  dst : Nat
  len : Nat
  deriving DecidableEq, Repr

/-- The search block: index slots, contexts by number (engine times 256 plus place), rows and host commands that wait, deliveries
to come, the side-list command running (insert, slot, address, ID), the merge running and the merge done (slot, M, index), swaps
pending, slots being attached, bad codewords and those logged, the flash write running, and the sequence numbers latched at the
boundary that started the tick. -/
structure SrchState where
  slots : List (Nat × IdxSlot) := []
  ctxs : List (Nat × Query) := []
  rows : List WaitRow := []
  host : List HostCmd := []
  deliv : List Deliv := []
  side : Option (Nat × Nat × Nat × Nat) := none
  merge : Option MergeRun := none
  merged : Option (Nat × Nat × IxHdr) := none
  swap : List Nat := []
  attach : List Nat := []
  bad : List Nat := []
  badLog : List Nat := []
  fw : Option FwCmd := none
  latch : List (Nat × Nat) := []
  deriving DecidableEq, Repr

/-! ## Solver (R395 to R424) -/

/-- Where a solver job stands in the tick: not armed, armed, running, done, abandoned by a reset, armed while the engine was in reset
(no fallback). -/
inductive SolvSt where
  | idle
  | armed
  | running
  | done
  | gone
  | noFallback
  deriving DecidableEq, Repr

/-- The result of a solve (Tables 15.4, 15.5): status, byte 11 of the header, iterations, clamped pivots, costs, body, what it
carries, and what its readers take: a vector (δx, the current-frame pose, δ), rows (P+, keyframe poses, node poses) with their IDs, and
the unobservable parameters. -/
structure SolvRes where
  status : Nat
  flags : Nat := 0
  iters : Nat := 0
  clamps : Nat := 0
  cost0 : F64 := 0
  cost1 : F64 := 0
  body : List Byte := []
  carry : Carry := {}
  vec : List F64 := []
  rows : List (List F64) := []
  ids : List Nat := []
  unobs : List Nat := []
  deriving DecidableEq, Repr

/-- A job: where it stands, EPS_EXP as latched at its start, the result of the tick, the body and the vector of the last committed
result (its warm start), and its committed output. -/
structure SolvJob where
  st : SolvSt := .idle
  eps : Nat := 40
  res : Option SolvRes := none
  prev : List Byte := []
  warm : List F64 := []
  out : CommitOut := {}
  deriving DecidableEq, Repr

/-- A pose-graph solve (R415, R417): the tick it was activated for, its snapshot and its result once it has finished, whether
its due boundary has passed, and whether it has started. -/
structure GraphRun where
  tick : Nat
  nodes : List GNode
  edges : List GEdge
  res : Option SolvRes := none
  late : Bool := false
  started : Bool := false
  deriving DecidableEq, Repr

/-- The solver: jobs by number, the pose-graph solve, requests for the next step 10 and held, the assignment unit (0 not started, 1
running, 2 done), and the peak scratch use in KiB. -/
structure SolvState where
  jobs : List (Nat × SolvJob) := []
  graph : Option GraphRun := none
  req : Bool := false
  held : Bool := false
  asg : Nat := 0
  peak : Nat := 0
  deriving DecidableEq, Repr

/-! ## Power (R443 to R469) -/

/-- The time a throttle reason has been active: local counts of past activity, and the count at which the present one began. -/
structure ThrTime where
  acc : Nat := 0
  since : Option Nat := none
  deriving DecidableEq, Repr

/-- A sleep entry before its commit point: the state it leads to, and the vehicle time in ns and the source of the wake that the
power manager gives itself (R465). -/
structure SleepEntry where
  state : Nat
  wake : Option (Nat × Nat)
  deriving DecidableEq, Repr

/-- The power manager: the AVG_CAP, TJ_LIMIT and COOLANT ceilings; the operating point whose higher set point has been requested with
the local count of the request, and whether the regulator has reported it settled; whether the first evaluation has been made; the
unattributed energies of the last ended ticks, newest first; active times by reason;
the count of the last coolant write; the count of the last change of the stretch level; the crossings beyond their limit with the
count since when; the sleep entry in progress, the wake the sleeping leaf has given itself, and the wake in progress. -/
structure PwrState where
  ceilAvg : Nat := 7
  ceilTj : Nat := 7
  ceilCool : Nat := 7
  want : Option (Nat × Nat) := none
  settled : Bool := false
  evaluated : Bool := false
  unatt : List Nat := []
  thr : List ThrTime := List.replicate 7 {}
  lastCool : Nat := 0
  lastStretch : Nat := 0
  cross : List (Nat × Nat) := []
  skewLogged : List Nat := []
  entry : Option SleepEntry := none
  selfWake : Option (Nat × Nat) := none
  waking : Bool := false
  deriving DecidableEq, Repr

end Sys2Proof.Machine
end

