-- ==== Sys2Proof/Machine/State.lean ====
section
/-!
DEFINITION. The state of the device: Leaf A, Leaf B, the hinge and the queue of waiting commands; the reasons a step can
stop; the state after reset.
-/
namespace Sys2Proof.Machine

/-- Reasons a step ends the run with a fault. There is none: the spec gives every command of the table an effect, and its
own faults (R525) are state of the device, not stops of the model. -/
inductive Fault
  deriving DecidableEq, Repr

/-- Reasons the model has no meaning for a command. `notModelled` is raised by an arm of exec whose command has no meaning
yet, under its mnemonic (safe: nothing is claimed of such a command). -/
inductive Refusal where
  | notModelled (mnemonic : String)
  deriving DecidableEq, Repr

/-- The element indices of a register row that lie at address a. -/
def RegRow.find (r : RegRow) (a : Nat) : Option (Nat × Nat) :=
  if a < r.addr then none
  else
    let d := a - r.addr
    let e := d % r.s1
    if e % r.s2 = 0 ∧ d / r.s1 < r.n1 ∧ e / r.s2 < r.n2 then some (d / r.s1, e / r.s2) else none

/-- The register at an address: its row and its array index. None where no register is assigned (R9). -/
def regAt (a : Nat) : Option (RegRow × Nat) :=
  (blockRows a).findSome? fun r => (r.find a).map fun ij => (r, ij.1)

/-- The reset value of the register at address a (R12). -/
def regReset (a : Nat) : Word :=
  match regAt a with
  | none => 0
  | some (r, i) => BitVec.ofNat 32 ((r.fields.map fun f => (f.reset + f.perIdx * i) <<< f.lo).foldl (· + ·) 0)

/-- One of the two halves of the device (R15, R16). `regs` lists the registers that do not hold their table reset value;
`dram` and `flash` list the bytes that are not 0 (R518, R193); `count` is the local count (R47); `free` counts the free
values the leaf has drawn (model's own). -/
structure Leaf where
  id : LeafId
  regs : List (Nat × Word)
  dram : List Host.Cell
  flash : List Host.Cell
  count : Nat
  fuses : Fuses
  aon : AlwaysOn
  boot : BootState
  time : TimeState
  sw : SwState
  irq : IrqState
  ctr : CounterState
  flt : FaultState
  host : HostState
  tick : TickState
  glz : GlzState
  fab : FabState
  mem : MemState
  spec : SpecState
  sns : SnsState
  filt : FiltState
  ego : EgoState
  map : MapState
  vis : VisState
  fus : FusState
  srch : SrchState
  solv : SolvState
  pwr : PwrState
  free : Nat
  deriving DecidableEq, Repr

/-- The hinge (R16): its registers, the two functions, the messages held in the order in which they fell due (R504), what
it has sent to the host, the accumulators' first counted instants (R503), the completion of the last read, and the
agreement checker and barrier. `aux` is auxiliary power, `wakeN` WAKE_N asserted, `held` the hinge reset, `perst` PERST_N. -/
structure Hinge where
  regs : List (Nat × Word)
  fn0 : FnState
  fn1 : FnState
  rid0 : Nat
  rid1 : Nat
  apLog2 : Nat
  held : Bool
  perst : Bool
  aux : Bool
  wakeN : Bool
  heldMsgs : List (Nat × Nat)
  sent : List HostOut
  cqFirst : List (Nat × Nat)
  completion : Completion
  agree : AgreeState
  barrier : BarrierState
  deriving DecidableEq, Repr

/-- The device, and the commands that wait, first in first out. -/
structure State where
  leafA : Leaf
  leafB : Leaf
  hinge : Hinge
  pending : List Instr
  deriving DecidableEq, Repr

/-- The bytes of memory that nothing has written read 0: DRAM of a granule never written (R518), a flash page never
written (R193). -/
def memDefault (_ : Nat) : Byte := 0

/-- The canonical form of a leaf's memories. -/
def Memory.wf (m : List Host.Cell) : Bool := sparseWf memDefault m

/-- Word j of the pane map register: logical panes 4j to 4j + 3 (R133). -/
def pmapWord (f : Fuses) (j : Nat) : Nat :=
  ((List.range 4).map fun k =>
    match f.pmap[4 * j + k]? with
    | some p => if 4 * j + k < f.panes then (0x80 + p) <<< (8 * k) else 0
    | none => 0).foldl (· + ·) 0

/-- The level sources of Table 18.1. -/
def levelSources : List Nat := [0x01B, 0x022, 0x023, 0x027, 0x047, 0x049, 0x060]

/-- The registers that a reset loads from the fuses (the entries F of the register tables, R12), each as address and
value. -/
def fuseLoads (id : LeafId) (f : Fuses) : List (Nat × Nat) :=
  [(Reg.LEAF_ID, 0x94411000 + 2 * f.panes + id.toNat), (Reg.LEAF_UID_LO, f.uid % 2 ^ 32), (Reg.LEAF_UID_HI, f.uid / 2 ^ 32),
   (Reg.LEAF_GLZ_KCTL, b2n f.present0 + 2 * b2n f.present1 + 4 * b2n f.revoked0 + 8 * b2n f.revoked1)]
  ++ (List.range 8).map (fun i => (Reg.LEAF_GLZ_KHASH0 i, leAt (beBytes 32 f.keyHash0) (4 * i) 4))
  ++ (List.range 8).map (fun i => (Reg.LEAF_GLZ_KHASH1 i, leAt (beBytes 32 f.keyHash1) (4 * i) 4))
  ++ (List.range 16).map (fun j => (Reg.LEAF_PMAP j, pmapWord f j))
  ++ levelSources.map (fun s => (Reg.IRQ_TGT s, 2 ^ 29))
  ++ (List.range 8).map (fun c => (Reg.MEM_FLASH_WEAR c, (f.badBlk.getD c 0) * 256 + f.wear.getD c 0))
  ++ (List.range 64).map (fun p => (Reg.PANE_ID p, p + 256 * f.pmap.getD p 0))
  ++ (List.range 64).map (fun c => (Reg.CNT_CLASS c, f.ncnt.getD c 0))

/-- A leaf's registers right after a reset: table values and fuse loads (R12). -/
def resetRegs (id : LeafId) (f : Fuses) : List (Nat × Word) :=
  (fuseLoads id f).foldl (fun m e => sparseSet regReset e.1 (BitVec.ofNat 32 e.2) m) []

/-- A leaf whose reset is asserted, with the fuses, always-on domain, flash and firmware copies that outlive it (R509). -/
def Leaf.inReset (id : LeafId) (f : Fuses) (aon : AlwaysOn) (flash : List Host.Cell) (fw0 fw1 : FwCopy) : Leaf where
  id := id
  regs := resetRegs id f
  dram := []
  flash := flash
  count := 0
  fuses := f
  aon := aon
  boot := { fw0 := fw0, fw1 := fw1 }
  time := {}
  sw := {}
  irq := {}
  ctr := {}
  flt := {}
  host := {}
  tick := {}
  glz := {}
  fab := {}
  mem := {}
  spec := {}
  sns := {}
  filt := {}
  ego := {}
  map := {}
  vis := {}
  fus := {}
  srch := {}
  solv := {}
  pwr := {}
  free := 0

/-- The counters per class of a leaf (R482). DESIGN CHOICE: the spec gives classes 16 and 17 and the sum. -/
def ncntOf (panes : Nat) : List Nat :=
  [0, 65, 18, 36, 348, 11, 15, 8, 64, 3, 7, 8, 19, 4, 20, 7, 18 * panes, 27]

/-- The fuses of a leaf as shipped. DESIGN CHOICE: a KN-940-128, slot 0 fused, slot 1 empty. -/
def Fuses.shipped (id : LeafId) : Fuses where
  uid := 0x9400000000000001 + id.toNat
  pmap := List.range 64
  keyHash0 := 0xd875db7def232236aec738c6b0bb3e80142f5d0fd8f4df24fed6eef5cbb50d9f
  fwKeyHash := 0xd07aeb134840b15242e12d4a06ce3ab493cbd020ebc3bd5aaecd822f51e0c3d8
  ncnt := ncntOf 64

/-- The firmware copy as shipped. DESIGN CHOICE: readable, authentic, security version 0, version 1.0. -/
def FwCopy.shipped : FwCopy where
  readable := true
  authentic := true
  svn := 0
  version := 0x01000000
  raiseSvn := false

/-- The hinge registers right after a hinge reset: the fused boot sources and the reset cause (R523). -/
def hingeResetRegs (srcA srcB cause : Nat) : List (Nat × Word) :=
  sparseSet regReset Reg.HINGE_BOOT_CFG (BitVec.ofNat 32 (srcA + 16 * srcB))
    (sparseSet regReset Reg.HINGE_RST_STAT (BitVec.ofNat 32 cause) [])

/-- The hinge while its reset is asserted: link down, functions in D0 with everything off (R489, R507). -/
def Hinge.inReset (srcA srcB cause : Nat) : Hinge where
  regs := hingeResetRegs srcA srcB cause
  fn0 := {}
  fn1 := {}
  rid0 := 0
  rid1 := 1
  apLog2 := 30
  held := true
  perst := true
  aux := true
  wakeN := false
  heldMsgs := []
  sent := []
  cqFirst := []
  completion := {}
  agree := {}
  barrier := {}

/-- The device right after power-on: the hinge reset that follows it is in force, both leaves are in reset, the command
queue is empty (R509, R510). -/
def State.reset : State where
  leafA := Leaf.inReset .A (Fuses.shipped .A) {} [] FwCopy.shipped FwCopy.shipped
  leafB := Leaf.inReset .B (Fuses.shipped .B) {} [] FwCopy.shipped FwCopy.shipped
  hinge := Hinge.inReset 0 0 0
  pending := []

end Sys2Proof.Machine
end

