-- ==== Sys2Proof/Machine/Ops.lean ====
section
/-!
DEFINITION. The named operations over registers and memory: reading and writing a register and a field of a leaf or of the
hinge, the bytes of DRAM and flash, and the general write by access type (R8 to R11).
-/
namespace Sys2Proof.Machine

/-! ## Registers of a leaf -/

/-- What register `a` of the leaf window holds, as a number. -/
def Leaf.rd (l : Leaf) (a : Nat) : Nat := (sparseGet regReset l.regs a).toNat

/-- Register `a` given the value `v`. -/
def Leaf.wr (l : Leaf) (a v : Nat) : Leaf := { l with regs := sparseSet regReset a (BitVec.ofNat 32 v) l.regs }

/-- The value of a field (R6). -/
def Leaf.get (l : Leaf) (f : FieldRef) : Nat := bitsOf (l.rd f.addr) f.hi f.lo

/-- A one-bit field as a truth value. -/
def Leaf.bit (l : Leaf) (f : FieldRef) : Bool := l.get f != 0

/-- A field given a value, the register's other bits kept. -/
def Leaf.put (l : Leaf) (f : FieldRef) (v : Nat) : Leaf := l.wr f.addr (setBits (l.rd f.addr) f.hi f.lo v)

/-- A one-bit field set from a truth value. -/
def Leaf.putB (l : Leaf) (f : FieldRef) (b : Bool) : Leaf := l.put f (b2n b)

/-- A counter field that wraps at its width. -/
def Leaf.inc (l : Leaf) (f : FieldRef) : Leaf := l.put f (l.get f + 1)

/-- A counter field that grows by n and wraps at its width. -/
def Leaf.incBy (l : Leaf) (f : FieldRef) (n : Nat) : Leaf := l.put f (l.get f + n)

/-- A counter field that saturates at its width. -/
def Leaf.incSat (l : Leaf) (f : FieldRef) : Leaf := l.put f (satInc (2 ^ (f.hi + 1 - f.lo) - 1) (l.get f))

/-- A 64-bit value held in a LO and a HI register. -/
def Leaf.rd64 (l : Leaf) (lo hi : Nat) : Nat := l.rd lo + 2 ^ 32 * l.rd hi

/-- A 64-bit value written to a LO and a HI register. -/
def Leaf.wr64 (l : Leaf) (lo hi v : Nat) : Leaf := (l.wr lo v).wr hi (v / 2 ^ 32)

/-! ## Registers of the hinge -/

/-- What hinge register `a` (an address of the PF0 view) holds. -/
def Hinge.rd (h : Hinge) (a : Nat) : Nat := (sparseGet regReset h.regs a).toNat

/-- Hinge register `a` given the value `v`. -/
def Hinge.wr (h : Hinge) (a v : Nat) : Hinge := { h with regs := sparseSet regReset a (BitVec.ofNat 32 v) h.regs }

/-- The value of a field. -/
def Hinge.get (h : Hinge) (f : FieldRef) : Nat := bitsOf (h.rd f.addr) f.hi f.lo

/-- A one-bit field as a truth value. -/
def Hinge.bit (h : Hinge) (f : FieldRef) : Bool := h.get f != 0

/-- A field given a value, the register's other bits kept. -/
def Hinge.put (h : Hinge) (f : FieldRef) (v : Nat) : Hinge := h.wr f.addr (setBits (h.rd f.addr) f.hi f.lo v)

/-- A one-bit field set from a truth value. -/
def Hinge.putB (h : Hinge) (f : FieldRef) (b : Bool) : Hinge := h.put f (b2n b)

/-- A counter field that wraps at its width. -/
def Hinge.inc (h : Hinge) (f : FieldRef) : Hinge := h.put f (h.get f + 1)

/-! ## Access types (Table 0.4) -/

/-- The bits of a field, in place. -/
def RegField.mask (f : RegField) : Nat := (2 ^ (f.hi + 1 - f.lo) - 1) <<< f.lo

/-- The new register word after a software write of `w` to one field: RW, RWH and WO take the written bits, W1C clears
the bits written 1, RO and WS keep what they hold (R10). -/
def RegField.write (f : RegField) (w v : Nat) : Nat :=
  match f.acc with
  | .RW | .RWH | .WO => setBits v f.hi f.lo (bitsOf w f.hi f.lo)
  | .W1C => setBits v f.hi f.lo (bitsOf v f.hi f.lo &&& (2 ^ (f.hi + 1 - f.lo) - 1 - bitsOf w f.hi f.lo))
  | .RO | .WS => v

/-- The word after a software write of `w` to a register that holds `v` (R10). -/
def RegRow.write (r : RegRow) (w v : Nat) : Nat := r.fields.foldl (fun acc f => f.write w acc) v

/-- What a read of a register that holds `v` returns: WO and WS fields and unlisted bits read 0 (R9, R10). -/
def RegRow.read (r : RegRow) (v : Nat) : Nat :=
  (r.fields.map fun f =>
    match f.acc with
    | .WO | .WS => 0
    | _ => bitsOf v f.hi f.lo <<< f.lo).foldl (· + ·) 0

/-- The general software write to a leaf register (R9, R10). -/
def Leaf.swWrite (l : Leaf) (a w : Nat) : Leaf :=
  match regAt a with
  | none => l
  | some (r, _) => l.wr a (r.write w (l.rd a))

/-- The general software read of a leaf register (R9, R10). -/
def Leaf.swRead (l : Leaf) (a : Nat) : Nat :=
  match regAt a with
  | none => 0
  | some (r, _) => r.read (l.rd a)

/-- The general software write to a hinge register. -/
def Hinge.swWrite (h : Hinge) (a w : Nat) : Hinge :=
  match regAt a with
  | none => h
  | some (r, _) => h.wr a (r.write w (h.rd a))

/-- The general software read of a hinge register. -/
def Hinge.swRead (h : Hinge) (a : Nat) : Nat :=
  match regAt a with
  | none => 0
  | some (r, _) => r.read (h.rd a)

/-! ## Memory of a leaf -/

/-- The first address past software's DRAM range (R192). -/
def softEnd : Nat := 0xB60000000

/-- The byte at a DRAM address (R192). -/
def Leaf.dramByte (l : Leaf) (a : Nat) : Byte := sparseGet memDefault l.dram a

/-- A DRAM byte stored. -/
def Leaf.dramPut (l : Leaf) (a : Nat) (b : Byte) : Leaf := { l with dram := sparseSet memDefault a b l.dram }

/-- `n` bytes of DRAM from address `a` on. -/
def Leaf.dramRead (l : Leaf) (a n : Nat) : List Byte := (List.range n).map fun i => l.dramByte (a + i)

/-- Bytes stored to memory from address `a` on. -/
def memPutList (m : List Host.Cell) (a : Nat) : List Byte → List Host.Cell
  | [] => m
  | b :: t => memPutList (sparseSet memDefault a b m) (a + 1) t

/-- Bytes stored to DRAM from address `a` on. -/
def Leaf.dramWrite (l : Leaf) (a : Nat) (bs : List Byte) : Leaf := { l with dram := memPutList l.dram a bs }

/-- `n` bytes of flash from flash address `a` on (Table 7.2: the channel in bits 39 to 37). -/
def Leaf.flashRead (l : Leaf) (a n : Nat) : List Byte := (List.range n).map fun i => sparseGet memDefault l.flash (a + i)

/-- Lifetime counter n grows by k (R539). -/
def Leaf.lifeAdd (n k : Nat) (l : Leaf) : Leaf := { l with aon := { l.aon with life := modAt l.aon.life n (· + k) } }

/-- Bytes stored to flash from flash address `a` on; lifetime counter 10 counts them (Table 21.9). -/
def Leaf.flashWrite (l : Leaf) (a : Nat) (bs : List Byte) : Leaf := { l with flash := memPutList l.flash a bs }.lifeAdd 10 bs.length

/-! ## State -/

/-- The leaf of a name. -/
def State.leaf (s : State) : LeafId → Leaf
  | .A => s.leafA
  | .B => s.leafB

/-- The leaf of a name replaced. -/
def State.setLeaf (s : State) (i : LeafId) (l : Leaf) : State :=
  match i with
  | .A => { s with leafA := l }
  | .B => { s with leafB := l }

/-- The hinge replaced. -/
def State.setHinge (s : State) (h : Hinge) : State := { s with hinge := h }

/-- The leaf of a name changed by f. -/
def State.onLeaf (s : State) (i : LeafId) (f : Leaf → Leaf) : State := s.setLeaf i (f (s.leaf i))

/-- The hinge changed by f. -/
def State.onHinge (s : State) (f : Hinge → Hinge) : State := { s with hinge := f s.hinge }

/-! ## Leaf state -/

/-- LEAF_STATUS.STATE (Table 1.12). -/
def Leaf.state (l : Leaf) : Nat := l.get Fld.LEAF_STATUS_STATE

/-- LEAF_STATUS.STATE given a value. -/
def Leaf.setState (l : Leaf) (n : Nat) : Leaf := l.put Fld.LEAF_STATUS_STATE n

/-- The leaf is TICKING (0x4). -/
def Leaf.ticking (l : Leaf) : Bool := l.state == 4

/-- PWR_SLEEP_STAT.STATE: 0 in S0 (Table 17.5). -/
def Leaf.sleep (l : Leaf) : Nat := l.get Fld.PWR_SLEEP_STAT_STATE

/-- The local count brought up to `c`: it runs from the end of PLL lock on and never goes back (R47). -/
def Leaf.adv (l : Leaf) (c : Nat) : Leaf := if l.boot.pll then { l with count := max l.count c } else l

end Sys2Proof.Machine
end

