-- ==== Sys2Proof/Machine/Clock.lean ====
section
/-!
DEFINITION. Vehicle time: domain clocks formed on read (R49), the bridging offset and its slew (R54), and the conversions
between local counts, vehicle time and ticks.
-/
namespace Sys2Proof.Machine

/-- 2^80, the modulus of domain and vehicle time in 2^-16 ns (R49). -/
def mod80 : Nat := 2 ^ 80

/-- The domain clock d of a leaf. -/
def TimeState.dom (t : TimeState) (d : Nat) : Domain := if d = 0 then t.d0 else t.d1

/-- Domain clock d replaced. -/
def TimeState.setDom (t : TimeState) (d : Nat) (x : Domain) : TimeState :=
  if d = 0 then { t with d0 := x } else { t with d1 := x }

/-- Domain clock d of a leaf replaced. -/
def Leaf.setDom (l : Leaf) (d : Nat) (x : Domain) : Leaf := { l with time := l.time.setDom d x }

/-- The domain time of local count c in 2^-16 ns (R49). -/
def Domain.time (x : Domain) (c : Nat) : Nat := (x.originQ16 + ((c - x.originCount) * x.rateQ40) >>> 24) % mod80

/-- The domain time of an instant given in 1/8 counts (R64, R66), which can lie before the origin. DEDUCED: R49 with the
fraction kept. -/
def Domain.time8 (x : Domain) (c8 : Nat) : Nat :=
  ((((x.originQ16 : Nat) : Int) + (((c8 : Int) - 8 * (x.originCount : Int)) * x.rateQ40) / 2 ^ 27) % (mod80 : Nat)).toNat

/-- The domain that vehicle time follows. -/
def Leaf.follow (l : Leaf) : Nat := l.get Fld.TIME_VT_STAT_FOLLOW

/-- TIME_VT_CTRL.SLEW_PPM as it acts: 0 as 1, above 50 as 50. -/
def Leaf.slewPpm (l : Leaf) : Nat :=
  let p := l.get Fld.TIME_VT_CTRL_SLEW_PPM
  if p = 0 then 1 else if 50 < p then 50 else p

/-- The bridging offset at local count c, in 2^-40 ns: moved towards 0 by SLEW_PPM of the elapsed local time, stopping
exactly at 0 (R54). -/
def Leaf.bridgeAt (l : Leaf) (c : Nat) : Int :=
  let b := l.time.bridge
  let move := (l.slewPpm * (c - l.time.bridgeAt) * 128 * 2 ^ 40) / 10 ^ 8
  if b.natAbs ≤ move then 0 else if b < 0 then b + (move : Int) else b - (move : Int)

/-- The bridging offset re-based at the present count, so that a change of SLEW_PPM acts from now on. -/
def Leaf.rebaseBridge (l : Leaf) : Leaf :=
  { l with time := { l.time with bridge := l.bridgeAt l.count, bridgeAt := l.count } }

/-- The bridging offset in 2^-16 ns at local count c, reduced by an arithmetic shift (R54). -/
def Leaf.bridgeQ16 (l : Leaf) (c : Nat) : Int := l.bridgeAt c / 2 ^ 24

/-- Vehicle time at local count c, in 2^-16 ns (R54). -/
def Leaf.vt (l : Leaf) (c : Nat) : Nat :=
  ((((l.time.dom l.follow).time c : Nat) : Int) + l.bridgeQ16 c).toNat % mod80

/-- Vehicle time at an instant in 1/8 counts, in 2^-16 ns (R66). -/
def Leaf.vt8 (l : Leaf) (c8 : Nat) : Nat :=
  ((((l.time.dom l.follow).time8 c8 : Nat) : Int) + l.bridgeQ16 (c8 / 8)).toNat % mod80

/-- Vehicle time now, in 2^-16 ns. -/
def Leaf.now (l : Leaf) : Nat := l.vt l.count

/-- Vehicle time now, in whole ns. -/
def Leaf.nowNs (l : Leaf) : Nat := l.now / 2 ^ 16

/-- Local counts in a number of milliseconds: 781,250 each (R47). -/
def countsOfMs (ms : Nat) : Nat := ms * 781250

/-- The number of local counts that last at least `us` microseconds (781.25 each). -/
def countsOfUs (us : Nat) : Nat := (us * 78125 + 99) / 100

/-- Whole nanoseconds in a number of local counts (1.28 ns each). -/
def nsOfCounts (n : Nat) : Nat := n * 128 / 100

/-- A domain is healthy (R56). -/
def Leaf.healthy (l : Leaf) (d : Nat) : Bool :=
  l.bit (Fld.TIME_D_CFG_ENABLE d) && l.bit (Fld.TIME_D_STAT_QUAL d)
    && !l.bit (Fld.TIME_D_STAT_PATH_SUSPECT d) && !l.bit (Fld.TIME_D_STAT_LOST d)

/-- The number of the tick in progress as the tick registers show it. -/
def Leaf.tickNum (l : Leaf) : Nat := l.rd64 Reg.TICK_NUM_LO Reg.TICK_NUM_HI

end Sys2Proof.Machine
end

