-- ==== Sys2Proof/Machine/Irq.lean ====
section
/-!
DEFINITION. The interrupt controller and the counters: an event (R471), the messages it makes due (R473, R474), completion
(R475), pending bits (R476), and the counters with their snapshot (R481 to R484).
-/
namespace Sys2Proof.Machine

/-! ## Counters -/

/-- A counter's key: its class and its index within the class. DESIGN CHOICE: the index of a counter within its class. -/
def counterKey (cls idx : Nat) : Nat := cls * 2048 + idx

/-- A counter's value. -/
def Leaf.counter (l : Leaf) (cls idx : Nat) : Nat := sparseGet (fun _ => 0) l.ctr.cnt (counterKey cls idx)

/-- A counter grown by n; it wraps modulo 2^64 (R481). -/
def Leaf.countBy (l : Leaf) (cls idx n : Nat) : Leaf :=
  { l with ctr := { l.ctr with
      cnt := sparseSet (fun _ => 0) (counterKey cls idx) ((l.counter cls idx + n) % 2 ^ 64) l.ctr.cnt } }

/-- A counter grown by 1. -/
def Leaf.bump (l : Leaf) (cls idx : Nat) : Leaf := l.countBy cls idx 1

/-- A snapshot: every counter copied to its shadow and the epoch incremented (R483). -/
def Leaf.snapshot (l : Leaf) : Leaf :=
  ({ l with ctr := { l.ctr with shadow := l.ctr.cnt } }).inc Fld.CNT_EPOCH_EPOCH

/-- The implemented sources of Table 18.1 as first number and length. -/
def sourceRanges : List (Nat × Nat) :=
  [(0x000, 13), (0x018, 8), (0x020, 10), (0x030, 16), (0x040, 13), (0x050, 4), (0x060, 6), (0x068, 7), (0x070, 7), (0x078, 3),
   (0x080, 7), (0x088, 9), (0x098, 5), (0x0A0, 2), (0x0A4, 3), (0x0A8, 5), (0x0C0, 64), (0x100, 6), (0x108, 10), (0x120, 3),
   (0x140, 64), (0x180, 6), (0x188, 10), (0x1A0, 3), (0x1C0, 64)]

/-- The index in class 4 of a source's counter: the implemented sources in ascending order. -/
def sourceIndex (s : Nat) : Nat := (sourceRanges.map fun r => min r.2 (s - r.1)).foldl (· + ·) 0

/-! ## Source bits -/

/-- Bit `src % 32` of a source register word. -/
def srcBit (src : Nat) : Nat := 2 ^ (src % 32)

/-- PEND of a source. -/
def Leaf.pendBit (l : Leaf) (s : Nat) : Bool := bitOf (l.rd (Reg.IRQ_PEND (s / 32))) (s % 32)

/-- RAW of a source. -/
def Leaf.rawBit (l : Leaf) (s : Nat) : Bool := bitOf (l.rd (Reg.IRQ_RAW (s / 32))) (s % 32)

/-- MASK of a source. -/
def Leaf.maskBit (l : Leaf) (s : Nat) : Bool := bitOf (l.rd (Reg.IRQ_MASK (s / 32))) (s % 32)

/-- ACT of a source. -/
def Leaf.actBit (l : Leaf) (s : Nat) : Bool := bitOf (l.rd (Reg.IRQ_ACT (s / 32))) (s % 32)

/-- A bit of a register word set. -/
def Leaf.orReg (l : Leaf) (a m : Nat) : Leaf := l.wr a (l.rd a ||| m)

/-- A bit of a register word cleared. -/
def Leaf.andNotReg (l : Leaf) (a m : Nat) : Leaf := l.wr a (l.rd a &&& (2 ^ 32 - 1 - m))

/-! ## Messages -/

/-- The running priority: the top entry's, or none while the stack is empty (R473). -/
def Leaf.runPrio (l : Leaf) : Option Nat := l.irq.stack.head?.map (·.prio)

/-- A priority lies above the running priority. -/
def Leaf.above (l : Leaf) (p : Nat) : Bool :=
  match l.runPrio with
  | none => true
  | some r => r < p

/-- The indices of the bits set in a word of sources. -/
def wordBits (w word : Nat) : List Nat := ((List.range 32).filter fun b => bitOf word b).map fun b => 32 * w + b

/-- The pending, unmasked, inactive sources routed to a host vector (R473, before priority). -/
def Leaf.candidates (l : Leaf) : List Nat :=
  ((List.range 16).flatMap fun w =>
    let m := l.rd (Reg.IRQ_PEND w) &&& (2 ^ 32 - 1 - l.rd (Reg.IRQ_MASK w)) &&& (2 ^ 32 - 1 - l.rd (Reg.IRQ_ACT w))
    if m = 0 then [] else wordBits w m).filter fun s => !l.bit (Fld.IRQ_TGT_LINE s)

/-- The deliverable sources (R473). -/
def Leaf.deliverable (l : Leaf) : List Nat := l.candidates.filter fun s => l.above (l.get (Fld.IRQ_TGT_PRIO s))

/-- The count that makes a vector's message due: 0 acts as 1. -/
def Leaf.vecCount (l : Leaf) (v : Nat) : Nat := max 1 (l.get (Fld.IRQ_VEC_COAL_COUNT v))

/-- The first event counted since the last message of v is TIME_US old or older (R474). -/
def Leaf.vecAged (l : Leaf) (v : Nat) : Bool :=
  match alGet l.irq.firstEvt v with
  | none => false
  | some c0 => l.get (Fld.IRQ_VEC_COAL_TIME_US v) * 78125 ≤ (l.count - c0) * 100

/-- A message for v falls due, given v's deliverable sources (R474). -/
def Leaf.vecDue (l : Leaf) (v : Nat) (srcs : List Nat) : Bool :=
  !srcs.isEmpty &&
    (l.vecCount v ≤ l.get (Fld.IRQ_VEC_STAT_ACC v) || l.get (Fld.IRQ_VEC_COAL_TIME_US v) == 0 || l.vecAged v
      || srcs.any fun s => l.get Fld.IRQ_CFG_BYPASS ≤ l.get (Fld.IRQ_TGT_PRIO s))

/-- The highest PRIO among sources. -/
def Leaf.topPrio (l : Leaf) (srcs : List Nat) : Nat := (srcs.map fun s => l.get (Fld.IRQ_TGT_PRIO s)).foldl max 0

/-- The sources of vector v among a list. -/
def Leaf.ofVec (l : Leaf) (v : Nat) (srcs : List Nat) : List Nat :=
  srcs.filter fun s => l.get (Fld.IRQ_TGT_TARGET s) == v

/-- The vector whose message is sent next: of the due ones the highest entry priority, then the lowest number (R473). -/
def Leaf.nextVec (l : Leaf) : Option Nat :=
  let d := l.deliverable
  let due := (List.range 64).filter fun v => let sv := l.ofVec v d; !sv.isEmpty && l.vecDue v sv
  due.foldl (fun best v =>
    match best with
    | none => some v
    | some b => if l.topPrio (l.ofVec b d) < l.topPrio (l.ofVec v d) then some v else some b) none

/-- IRQ_RPRI and IRQ_STAT.STACK_FULL show the stack (R486). -/
def Leaf.showStack (l : Leaf) : Leaf :=
  let n := l.irq.stack.length
  let l1 := (l.putB Fld.IRQ_RPRI_EMPTY (n == 0)).put Fld.IRQ_RPRI_DEPTH n
  let l2 := match l.irq.stack.head? with
    | none => (l1.put Fld.IRQ_RPRI_TOP_VEC 0).put Fld.IRQ_RPRI_TOP_PRIO 0
    | some e => (l1.put Fld.IRQ_RPRI_TOP_VEC e.vec).put Fld.IRQ_RPRI_TOP_PRIO e.prio
  l2.putB Fld.IRQ_STAT_STACK_FULL (n == 8)

/-- The message of vector v sent: the sources activated, the entry pushed, the accumulator reset (R473, R474). -/
def Leaf.sendVec (l : Leaf) (v : Nat) : Leaf :=
  let srcs := l.ofVec v l.deliverable
  let e : IrqEntry := { vec := v, prio := l.topPrio srcs, srcs := srcs }
  let l1 := srcs.foldl (fun m s => m.orReg (Reg.IRQ_ACT (s / 32)) (srcBit s)) l
  let l2 := { l1 with
    irq := { l1.irq with stack := e :: l1.irq.stack, firstEvt := alDel v l1.irq.firstEvt },
    host := { l1.host with irqMsgs := l1.host.irqMsgs ++ [v] } }
  ((l2.put (Fld.IRQ_VEC_STAT_ACC v) 0).inc Fld.IRQ_MSG_CNT_COUNT).showStack

/-- Messages sent while one is due and the stack holds fewer than 8 entries (R473). -/
def Leaf.pumpN : Nat → Leaf → Leaf
  | 0, l => l
  | n + 1, l =>
    if l.irq.stack.length < 8 then
      match l.nextVec with
      | none => l
      | some v => Leaf.pumpN n (l.sendVec v)
    else l

/-- The controller runs: the leaf is out of reset and not in S2 or S3 (R480). -/
def Leaf.irqRuns (l : Leaf) : Bool := !l.boot.held && decide (l.sleep < 2)

/-- Every message that is due is sent (R473). -/
def Leaf.pump (l : Leaf) : Leaf := if l.irqRuns then Leaf.pumpN 9 l else l

/-! ## Events -/

/-- An event of an unmasked, inactive source counts towards its vector (R474). -/
def Leaf.accEvent (l : Leaf) (s : Nat) : Leaf :=
  if l.maskBit s || l.actBit s || l.bit (Fld.IRQ_TGT_LINE s) then l
  else
    let v := l.get (Fld.IRQ_TGT_TARGET s)
    let l1 := l.incSat (Fld.IRQ_VEC_STAT_ACC v)
    match alGet l.irq.firstEvt v with
    | none => { l1 with irq := { l1.irq with firstEvt := alSet v l.count l1.irq.firstEvt } }
    | some _ => l1

/-- A hardware set of PEND, kept in the word's set-since-read mask (R476). -/
def Leaf.setPend (l : Leaf) (s : Nat) : Leaf :=
  let l1 := l.orReg (Reg.IRQ_PEND (s / 32)) (srcBit s)
  { l1 with irq := { l1.irq with sinceRead := modAt l1.irq.sinceRead (s / 32) fun m => m ||| srcBit s } }

/-- An event of source s (R471): RAW and PEND are set, the source's counter and the vector's accumulator count it. -/
def Leaf.raise (s : Nat) (l : Leaf) : Leaf :=
  if l.irqRuns then
    (((l.orReg (Reg.IRQ_RAW (s / 32)) (srcBit s)).setPend s).bump 4 (sourceIndex s)).accEvent s
  else l

/-- An event raised when a condition holds. -/
def Leaf.raiseIf (b : Bool) (s : Nat) (l : Leaf) : Leaf := if b then l.raise s else l

/-- A one-bit flag set and its event raised. -/
def Leaf.flagEvent (l : Leaf) (f : FieldRef) (s : Nat) : Leaf := (l.putB f true).raise s

/-- The condition of a level source: an event when it begins, RAW held while it lasts (R471). -/
def Leaf.setLevel (s : Nat) (on : Bool) (l : Leaf) : Leaf :=
  let was := l.irq.levels.contains s
  if on && !was then { (l.raise s) with irq := { (l.raise s).irq with levels := (l.raise s).irq.levels ++ [s] } }
  else if was && !on then { l with irq := { l.irq with levels := l.irq.levels.filter (· != s) } }
  else l

/-- The conditions of the level sources as the leaf's registers show them (Table 18.1). -/
def Leaf.levelOn (l : Leaf) (s : Nat) : Bool :=
  if s = 0x01B then l.bit Fld.FLT_STAT_HINGE_LOST
  else if s = 0x022 then l.bit (Fld.TIME_D_STAT_LOST 0)
  else if s = 0x023 then l.bit (Fld.TIME_D_STAT_LOST 1)
  else if s = 0x027 then l.bit Fld.TIME_VT_STAT_HOLDOVER
  else if s = 0x047 then l.bit Fld.PWR_TRIP_TRIPPED
  else if s = 0x049 then l.bit Fld.PWR_STAT_COOL_STALE
  else if s = 0x060 then l.bit Fld.MEM_STAT_POISON_ANY
  else false

/-- Every level source brought in line with its condition. -/
def Leaf.refreshLevels (l : Leaf) : Leaf :=
  if l.irqRuns then levelSources.foldl (fun m s => m.setLevel s (m.levelOn s)) l else l

/-! ## Completion and software writes -/

/-- Stack entries popped while no source of the top entry is active (R475). -/
def Leaf.popN : Nat → Leaf → Leaf
  | 0, l => l
  | n + 1, l =>
    match l.irq.stack with
    | [] => l
    | e :: t => if e.srcs.any fun s => l.actBit s then l else Leaf.popN n { l with irq := { l.irq with stack := t } }

/-- A completion of source s (R475). -/
def Leaf.eoi (s : Nat) (l : Leaf) : Leaf :=
  if l.actBit s then
    let l1 := l.andNotReg (Reg.IRQ_ACT (s / 32)) (srcBit s)
    let l2 := if l1.irq.levels.contains s then l1.setPend s else l1
    let l3 := if l2.pendBit s then l2.accEvent s else l2
    (Leaf.popN 9 l3).showStack
  else l.inc Fld.IRQ_BAD_EOI_COUNT

/-- The number of bits set in a word. -/
def popCount (w : Nat) : Nat := ((List.range 32).filter fun b => bitOf w b).length

/-- A software write of word w of PEND: the hardware sets it removes are counted as lost (R476). -/
def Leaf.writePend (w v : Nat) (l : Leaf) : Leaf :=
  let old := l.rd (Reg.IRQ_PEND w)
  let lost := old &&& (2 ^ 32 - 1 - v) &&& l.irq.sinceRead.getD w 0
  let l1 := (l.wr (Reg.IRQ_PEND w) v).incBy Fld.IRQ_LOST_SET_COUNT (popCount lost)
  { l1 with irq := { l1.irq with sinceRead := modAt l1.irq.sinceRead w fun m => m &&& (2 ^ 32 - 1 - lost) } }

/-- A PF0 read of word w of PEND empties its set-since-read mask (R476). -/
def Leaf.readPend (w : Nat) (l : Leaf) : Leaf :=
  { l with irq := { l.irq with sinceRead := modAt l.irq.sinceRead w fun _ => 0 } }

/-- The level sources whose condition holds, as bits of word w. -/
def Leaf.levelMask (l : Leaf) (w : Nat) : Nat :=
  (l.irq.levels.filter fun s => s / 32 == w).foldl (fun m s => m ||| srcBit s) 0

/-- A software write of word w of RAW: bits written 1 clear, except those a level source holds (R471, R477). -/
def Leaf.writeRaw (w v : Nat) (l : Leaf) : Leaf :=
  l.wr (Reg.IRQ_RAW w) ((l.rd (Reg.IRQ_RAW w) &&& (2 ^ 32 - 1 - v)) ||| l.levelMask w)

/-- A software write of word w of MASK: clearing it for a pending, inactive source counts as one event (R474). -/
def Leaf.writeMask (w v : Nat) (l : Leaf) : Leaf :=
  let freed := l.rd (Reg.IRQ_MASK w) &&& (2 ^ 32 - 1 - v) &&& l.rd (Reg.IRQ_PEND w) &&& (2 ^ 32 - 1 - l.rd (Reg.IRQ_ACT w))
  (wordBits w freed).foldl (fun m s => m.accEvent s) (l.wr (Reg.IRQ_MASK w) v)

/-- A software write of IRQ_TGTs: it acts only while the source is masked and inactive (R472). -/
def Leaf.writeTgt (s v : Nat) (l : Leaf) : Leaf :=
  if l.maskBit s && !l.actBit s then l.swWrite (Reg.IRQ_TGT s) v else l.putB Fld.IRQ_STAT_CFG_REFUSED true

end Sys2Proof.Machine
end

