-- ==== Sys2Proof/Machine/Faults.lean ====
section
/-!
DEFINITION. Leaf faults: the fault record and its ring (R533), the reactions of NOTIFY and STOP faults (R525, R526), the
SAFE_N pin (R532) and the memory error log (R219).
-/
namespace Sys2Proof.Machine

/-- What a fault record says beside the tick, the time, the code and the class (Table 21.5). -/
structure FaultInfo where
  block : Nat
  addr : Nat := 0
  flags : Nat := 0
  inst : Nat := 0
  detail : Nat := 0
  deriving DecidableEq, Repr

/-- The tick number a record carries: 0 when not TICKING. -/
def Leaf.recTick (l : Leaf) : Nat := if l.ticking then l.tickNum else 0

/-- The 32 bytes of a fault record (Table 21.5). -/
def Leaf.faultBytes (l : Leaf) (code cls : Nat) (i : FaultInfo) : List Byte :=
  leBytes 8 l.recTick ++ leBytes 8 l.nowNs ++ leBytes 8 i.addr ++ leBytes 1 code ++ leBytes 1 cls ++ leBytes 1 i.block
    ++ leBytes 1 (i.flags ||| (if l.flt.clkSuspect then 8 else 0)) ++ leBytes 2 i.inst ++ leBytes 2 i.detail

/-- A 32-byte record stored as eight words from register address `a` on. -/
def Leaf.putRecord (l : Leaf) (a : Nat) (bs : List Byte) : Leaf :=
  (List.range 8).foldl (fun m i => m.wr (a + 4 * i) (leAt bs (4 * i) 4)) l

/-- The class-17 index of a fault code: codes of Table 21.2 in ascending order. -/
def faultIndex (code : Nat) : Nat :=
  if code < 0x10 then code - 1 else if code = 0x30 then 15 else 16 + (code - 0x40)

/-- A record written to the fault log, or dropped when that would make HEAD equal TAIL (R219, R533). -/
def Leaf.logRecord (l : Leaf) (bs : List Byte) : Leaf :=
  let h := l.get Fld.FLT_LOG_HEAD_HEAD
  if (h + 1) % 64 = l.get Fld.FLT_LOG_TAIL_TAIL then
    (l.inc Fld.FLT_LOG_DROP_COUNT).flagEvent Fld.FLT_STAT_LOG_OVF 0x01A
  else (l.putRecord (Reg.FLT_LOG h 0) bs).put Fld.FLT_LOG_HEAD_HEAD (h + 1)

/-- A NOTIFY fault: record, counter, event 0x019; the leaf keeps its state (Table 21.1). -/
def Leaf.notify (code : Nat) (i : FaultInfo) (l : Leaf) : Leaf :=
  (((l.logRecord (l.faultBytes code 0 i)).bump 17 (faultIndex code))).flagEvent Fld.FLT_STAT_NOTIFY_EV 0x019

/-- The leaf enters FAULT: the state that CLEAR returns to is kept (R526). -/
def Leaf.enterFault (l : Leaf) (back : Nat) : Leaf :=
  let l1 := (l.setState 6).putB Fld.FLT_STAT_STOP true
  { l1 with flt := { l1.flt with stopPend := false, returnTo := back } }

/-- A STOP fault (R526): logged and counted, the first one's code kept in STOP_CODE. A TICKING leaf halts at the next
boundary; an IDLE, GLAZED or HALTED leaf enters FAULT at once and a pending START is withdrawn; in BOOT the entry waits
for the end of phase 6; in FAULT nothing more happens. -/
def Leaf.stop (code : Nat) (i : FaultInfo) (l : Leaf) : Leaf :=
  let bs := l.faultBytes code 1 i
  let l1 := (((l.logRecord bs).bump 17 (faultIndex code))).flagEvent Fld.FLT_STAT_STOP_EV 0x018
  let l2 := if l1.flt.stopCodeValid then l1
    else { (l1.put Fld.FLT_STAT_STOP_CODE code) with
      flt := { l1.flt with stopCodeValid := true, stopRecord := bs } }
  if l.state = 4 then { l2 with flt := { l2.flt with stopPend := true } }
  else if l.state = 1 then { l2 with flt := { l2.flt with stopPend := true } }
  else if l.state = 6 then l2
  else
    let l3 := ((l2.enterFault l.state).putB Fld.TICK_STAT_START_PEND false).putB Fld.TICK_STAT_BARRIER_WAIT false
    { l3.putB Fld.LEAF_STATUS_WAIT_MODE false with tick := { l3.tick with nextAt := none, held := false } }

/-- The leaf leaves FAULT (R526). -/
def Leaf.leaveFault (l : Leaf) : Leaf :=
  let l1 := ((l.setState l.flt.returnTo).putB Fld.FLT_STAT_STOP false).put Fld.FLT_STAT_STOP_CODE 0
  { l1 with flt := { l1.flt with stopCodeValid := false, stopRecord := [] } }

/-- FLT_STAT.SAFE_WHY: the conditions of R532 in list order. -/
def Leaf.safeWhy (l : Leaf) : Nat :=
  b2n (!l.flt.firstIdle) + 2 * b2n (l.state == 6 || l.flt.stopPend) + 4 * b2n (l.get Fld.FUS_DS_STAT_STEP == 4)
    + 8 * b2n l.flt.agreeHold + 16 * b2n (l.bit Fld.FLT_STAT_HINGE_LOST && l.bit Fld.FLT_CFG_HINGE_SAFE)

/-- SAFE_N brought in line with its conditions; each change of the pin raises event 0x01D (R532). -/
def Leaf.refreshSafe (l : Leaf) : Leaf :=
  let w := l.safeWhy
  let l1 := l.put Fld.FLT_STAT_SAFE_WHY w
  if (w != 0) = l.flt.safeN then l1
  else ({ l1 with flt := { l1.flt with safeN := w != 0 } }).raise 0x01D

/-! ## Memory error log (R219) -/

/-- A memory error record written to the log, or dropped when full, and passed to the fault log as 0x40 + kind. `b28` is
byte 28: bit 0 the address is in DRAM, bit 1 the mirror copy was tried. -/
def Leaf.memError (kind addr obj level b28 : Nat) (flags : Nat) (l : Leaf) : Leaf :=
  let bs := leBytes 8 l.recTick ++ leBytes 8 l.nowNs ++ leBytes 8 addr ++ leBytes 2 obj ++ leBytes 1 kind
    ++ leBytes 1 level ++ leBytes 1 b28 ++ leBytes 3 0
  let h := l.get Fld.MEM_ELOG_HEAD_HEAD
  let l1 := if (h + 1) % 64 = l.get Fld.MEM_ELOG_TAIL_TAIL then
      (l.inc Fld.MEM_ELOG_DROP_COUNT).flagEvent Fld.MEM_STAT_ELOG_OVF 0x063
    else (l.putRecord (Reg.MEM_ELOG h 0) bs).put Fld.MEM_ELOG_HEAD_HEAD (h + 1)
  l1.notify (0x40 + kind)
    { block := 0x06, addr := addr, flags := 1 + 2 * (b28 % 2) + flags, inst := obj, detail := level + 256 * b28 }

end Sys2Proof.Machine
end

