-- ==== Sys2Proof/Machine/TimeUnit.lean ====
section
/-!
DEFINITION. The time unit's operations: commits (R50 to R53), switches of vehicle time (R57, R58), gPTP measurements
(R59 to R62), general triggers (R74 to R76), PPS capture (R77) and the capture registers (R79).
-/
namespace Sys2Proof.Machine

/-! ## Commits -/

/-- The nominal rate, 2^-40 ns per count (R49). -/
def nominalRate : Nat := 0x0147AE147AE1

/-- The written rate of domain d. -/
def Leaf.writtenRate (l : Leaf) (d : Nat) : Nat :=
  l.rd (Reg.TIME_D_RATE_LO d) + 2 ^ 32 * l.get (Fld.TIME_D_RATE_HI_RATE d)

/-- The written offset of domain d as an 80-bit number (R50). -/
def Leaf.writtenOfs (l : Leaf) (d : Nat) : Nat :=
  (l.rd (Reg.TIME_D_OFS_LO d) + 2 ^ 32 * l.rd (Reg.TIME_D_OFS_HI d)) * 2 ^ 16 + l.get (Fld.TIME_D_OFS_FRAC_OFS d)

/-- A rate more than 500 ppm from nominal (R52). -/
def rateBad (r : Nat) : Bool :=
  decide (500 * nominalRate < ((r : Int) - (nominalRate : Int)).natAbs * 1000000)

/-- A bridging offset outside the signed 48-bit range of TIME_BRIDGE, in 2^-16 ns (R52). -/
def bridgeBad (b : Int) : Bool := decide (b < -(2 ^ 47 : Nat)) || decide ((2 ^ 47 : Nat) ≤ b)

/-- A refused commit (R52). -/
def Leaf.refuseCommit (l : Leaf) (d : Nat) : Leaf := l.flagEvent (Fld.TIME_D_STAT_REFUSED d) (0x024 + d)

/-- A past measurement brought to the domain's new rate and origin: `shift` in 2^-16 ns and a change of rate at count `c`
(R61: the prediction is corrected for every commit). -/
def OfsMeas.correct (m : OfsMeas) (shift : Int) (dRate : Int) (c : Nat) : OfsMeas :=
  { m with ofs := m.ofs + shift + dRate * ((m.at8 : Int) - 8 * (c : Int)) / 2 ^ 27 }

/-- The domain with origin moved to count c at its own time, a new rate and the origin shifted by `shift` (R50). -/
def Domain.commit (x : Domain) (c rate : Nat) (shift : Int) : Domain :=
  let dr := (rate : Int) - (x.rateQ40 : Int)
  { x with
    originQ16 := ((((x.time c : Nat) : Int) + shift) % (mod80 : Nat)).toNat
    originCount := c
    rateQ40 := rate
    prev1 := x.prev1.map fun m => m.correct shift dr c
    prev2 := x.prev2.map fun m => m.correct shift dr c }

/-- MISSED of trigger n set, n pulses counted as skipped, and its event raised (R75). -/
def Leaf.missTrig (l : Leaf) (n skipped : Nat) : Leaf :=
  (l.put (Fld.TIME_TRIG_STAT_MISS_CNT n) (min 255 (l.get (Fld.TIME_TRIG_STAT_MISS_CNT n) + skipped))).flagEvent
    (Fld.TIME_TRIG_STAT_MISSED n) (0x030 + n)

/-- Trigger n of a leaf. -/
def Leaf.trig (l : Leaf) (n : Nat) : Trigger := l.time.trigs.getD n {}

/-- Trigger n replaced. -/
def Leaf.setTrig (l : Leaf) (n : Nat) (t : Trigger) : Leaf := { l with time := { l.time with trigs := setAt l.time.trigs n t } }

/-- PERIOD of trigger n in 2^-16 ns. -/
def Leaf.trigPeriod (l : Leaf) (n : Nat) : Nat := l.rd (Reg.TIME_TRIG_PERIOD n) * 2 ^ 16

/-- START of trigger n in 2^-16 ns. -/
def Leaf.trigStart (l : Leaf) (n : Nat) : Nat :=
  (l.rd (Reg.TIME_TRIG_START_LO n) + 2 ^ 32 * l.rd (Reg.TIME_TRIG_START_HI n)) * 2 ^ 16 + l.get (Fld.TIME_TRIG_START_FRAC_START n)

/-- The first instant start + k * period at or after `now`, for k = 0, 1, 2 and so on. -/
def firstInstant (start period now : Nat) : Nat :=
  if now ≤ start ∨ period = 0 then start else start + ((now - start + period - 1) / period) * period

/-- A trigger no longer armed. -/
def Leaf.disarmTrig (l : Leaf) (n : Nat) : Leaf :=
  (l.setTrig n { l.trig n with nextAt := none, disarm := false, rearm := false }).putB (Fld.TIME_TRIG_CTRL_ARMED n) false

/-- The pulses of trigger n that a jump of vehicle time has passed over are skipped (R75). -/
def Leaf.skipTrig (l : Leaf) (n : Nat) : Leaf :=
  match (l.trig n).nextAt with
  | none => l
  | some t =>
    if t < l.now then
      if (l.trig n).single then (l.disarmTrig n).missTrig n 1
      else
        let p := l.trigPeriod n
        let t' := firstInstant t p l.now
        (l.setTrig n { l.trig n with nextAt := some t' }).missTrig n (if p = 0 then 1 else (t' - t) / p)
    else l

/-- Every trigger after a step or a set (R75). -/
def Leaf.skipTrigs (l : Leaf) : Leaf := (List.range 16).foldl (fun m n => m.skipTrig n) l

/-- COMMIT.RATE of domain d (R50, R52). -/
def Leaf.commitRate (d : Nat) (l : Leaf) : Leaf :=
  let r := l.writtenRate d
  if rateBad r then l.refuseCommit d else l.setDom d ((l.time.dom d).commit l.count r 0)

/-- Vehicle time follows domain d and the leaf is TICKING (R51). -/
def Leaf.followedTicking (l : Leaf) (d : Nat) : Bool := l.follow == d && l.ticking

/-- COMMIT.STEP of domain d (R50 to R52): on the followed domain of a ticking leaf the step is taken out of the bridging
offset, so that vehicle time slews; otherwise vehicle time takes it at once. -/
def Leaf.commitStep (d : Nat) (l : Leaf) : Leaf :=
  let r := l.writtenRate d
  let step := signedOf 80 (l.writtenOfs d)
  if rateBad r then l.refuseCommit d
  else if l.followedTicking d then
    let b := l.bridgeAt l.count - step * 2 ^ 24
    if bridgeBad (b / 2 ^ 24) then l.refuseCommit d
    else
      let l1 := l.setDom d ((l.time.dom d).commit l.count r step)
      { l1 with time := { l1.time with bridge := b, bridgeAt := l.count } }
  else
    let l1 := l.setDom d ((l.time.dom d).commit l.count r step)
    if l.follow = d then ({ l1 with time := { l1.time with bridge := 0, bridgeAt := l.count } }).skipTrigs else l1

/-- COMMIT.SET of domain d (R50 to R52): refused on the followed domain of a ticking leaf. -/
def Leaf.commitSet (d : Nat) (l : Leaf) : Leaf :=
  let r := l.writtenRate d
  if rateBad r || l.followedTicking d then l.refuseCommit d
  else
    let shift := ((l.writtenOfs d : Nat) : Int) - (((l.time.dom d).time l.count : Nat) : Int)
    let l1 := l.setDom d ((l.time.dom d).commit l.count r shift)
    if l.follow = d then ({ l1 with time := { l1.time with bridge := 0, bridgeAt := l.count } }).skipTrigs else l1

/-- A write of TIME_Dd_COMMIT: of several bits the highest acts (R50). -/
def Leaf.writeCommit (d w : Nat) (l : Leaf) : Leaf :=
  if bitOf w 2 then l.commitSet d else if bitOf w 1 then l.commitStep d else if bitOf w 0 then l.commitRate d else l

/-! ## Switching vehicle time -/

/-- The bridging offset a switch to domain d would set, in 2^-16 ns (R57). -/
def Leaf.switchBridge (l : Leaf) (d : Nat) : Int :=
  signedOf 80 (patternOf 80 (((l.now : Nat) : Int) - (((l.time.dom d).time l.count : Nat) : Int)))

/-- A switch of vehicle time to domain d (R57). -/
def Leaf.switchTo (l : Leaf) (d : Nat) : Leaf :=
  let b := l.switchBridge d
  let l1 := ((l.put Fld.TIME_VT_STAT_FOLLOW d).put Fld.TIME_VT_CTRL_SEL d).inc Fld.TIME_SWITCH_CNT_COUNT
  let l2 := { l1 with time := { l1.time with bridge := b * 2 ^ 24, bridgeAt := l.count, autoRefused := false } }
  (l2.putB Fld.TIME_VT_STAT_HOLDOVER false).flagEvent Fld.TIME_VT_STAT_SWITCHED 0x026

/-- A write of TIME_VT_CTRL: SEL naming the other domain switches to it, or is refused and returns to FOLLOW (R57, R58). -/
def Leaf.writeVtCtrl (w : Nat) (l : Leaf) : Leaf :=
  let l1 := (l.rebaseBridge).swWrite Reg.TIME_VT_CTRL w
  let d := l1.get Fld.TIME_VT_CTRL_SEL
  if d = l1.follow then l1
  else if l1.healthy d && !bridgeBad (l1.switchBridge d) then l1.switchTo d
  else (l1.put Fld.TIME_VT_CTRL_SEL l1.follow).flagEvent Fld.TIME_VT_STAT_SEL_REFUSED 0x028

/-- AUTO is 1, the followed domain is not healthy and the other one is (R57). -/
def Leaf.autoCalls (l : Leaf) : Bool :=
  l.bit Fld.TIME_VT_CTRL_AUTO && !l.healthy l.follow && l.healthy (1 - l.follow)

/-- The automatic switch (R57), refused when its offset is out of range: SEL_REFUSED is set at the first such refusal
(R58). -/
def Leaf.autoSwitch (l : Leaf) : Leaf :=
  if l.autoCalls then
    if bridgeBad (l.switchBridge (1 - l.follow)) then
      if l.time.autoRefused then l
      else ({ l with time := { l.time with autoRefused := true } }).flagEvent Fld.TIME_VT_STAT_SEL_REFUSED 0x028
    else l.switchTo (1 - l.follow)
  else l

/-- HOLDOVER follows the health of the followed domain: set while it is unhealthy and no switch is called for, or the one
called for was refused (R58). -/
def Leaf.refreshHoldover (l : Leaf) : Leaf :=
  if l.boot.held then l
  else if l.healthy l.follow then
    ({ l with time := { l.time with autoRefused := false } }).putB Fld.TIME_VT_STAT_HOLDOVER false
  else if l.autoCalls && !l.time.autoRefused then l
  else l.putB Fld.TIME_VT_STAT_HOLDOVER true

/-! ## gPTP (R59 to R62, R64, R65, R70)

The messages' fields follow IEEE 802.1AS-2020, which R6 and Table 2.2 name. A frame is given without its FCS. -/

/-- The messageType of a gPTP frame. -/
def ptpType (f : List Byte) : Nat := leAt f 14 1 % 16
/-- The domainNumber of a gPTP frame. -/
def ptpDomain (f : List Byte) : Nat := leAt f 18 1
/-- The twoStepFlag of a gPTP frame. -/
def ptpTwoStep (f : List Byte) : Bool := bitOf (leAt f 20 1) 1
/-- The correctionField of a gPTP frame, signed, 2^-16 ns. -/
def ptpCorr (f : List Byte) : Int := signedOf 64 (beAt f 22 8)
/-- The sequenceId of a gPTP frame. -/
def ptpSeq (f : List Byte) : Nat := beAt f 44 2
/-- The timestamp of a gPTP frame's body, 2^-16 ns. -/
def ptpStamp (f : List Byte) : Int := ((beAt f 48 6 * 1000000000 + beAt f 54 4) * 2 ^ 16 : Nat)
/-- The cumulativeScaledRateOffset of the Follow_Up information, 2^-41; 0 where the frame is too short to carry it. -/
def ptpRate (f : List Byte) : Int := if f.length < 72 then 0 else signedOf 32 (beAt f 68 4)

/-- Local time of an instant in 1/8 counts, 2^-16 ns (one count is 1.28 ns). -/
def localQ16 (c8 : Nat) : Int := ((c8 * 2 ^ 16 * 16 / 100 : Nat) : Int)

/-- ING_ASYM of a port, signed, in 2^-16 ns (R65). -/
def Leaf.ingAsym (l : Leaf) (p : Nat) : Int := if p < 5 then signedOf 16 (l.get (Fld.SW_P_ASYM_ING_ASYM p)) * 256 else 0
/-- EGR_ASYM of a port, signed, in 2^-16 ns (R65). -/
def Leaf.egrAsym (l : Leaf) (p : Nat) : Int := if p < 5 then signedOf 16 (l.get (Fld.SW_P_ASYM_EGR_ASYM p)) * 256 else 0

/-- Port p of the switch. -/
def Leaf.port (l : Leaf) (p : Nat) : SwPort := l.sw.ports.getD p {}
/-- Port p replaced. -/
def Leaf.setPort (l : Leaf) (p : Nat) (x : SwPort) : Leaf := { l with sw := { l.sw with ports := setAt l.sw.ports p x } }

/-- What a port sends is added to what it has sent. -/
def Leaf.send (l : Leaf) (m : SentMsg) : Leaf := { l with sw := { l.sw with sent := l.sw.sent ++ [m] } }

/-- Counters of switch port p (class 3): kind 0 frames received, 1 frames sent, 2 drops, 3 learn failures, 4 gPTP messages
accepted, 5 gPTP messages dropped. DESIGN CHOICE: the index. -/
def Leaf.portCount (l : Leaf) (p kind : Nat) : Leaf := l.bump 3 (6 * p + kind)

/-- The domain whose Sync port p receives: enabled, with this domainNumber and this slave port (R70). -/
def Leaf.slaveDomain (l : Leaf) (p num : Nat) : Option Nat :=
  [0, 1].find? fun d =>
    l.bit (Fld.TIME_D_CFG_ENABLE d) && l.get (Fld.TIME_D_CFG_DOMAIN_NUM d) == num && l.get (Fld.TIME_D_CFG_SLAVE_PORT d) == p

/-- The offset that linear extrapolation from two measurements predicts at an instant (R61). -/
def predictOfs (a b : OfsMeas) (at8 : Nat) : Int :=
  if b.at8 = a.at8 then b.ofs
  else b.ofs + (b.ofs - a.ofs) * ((at8 : Int) - (b.at8 : Int)) / ((b.at8 : Int) - (a.at8 : Int))

/-- PATH_SUSPECT set by a detection, or counted while it is already set (R60 to R62). -/
def Leaf.suspect (l : Leaf) (d : Nat) (jump : Bool) : Leaf :=
  if l.bit (Fld.TIME_D_STAT_PATH_SUSPECT d) then l.inc (Fld.TIME_D_SUSPECT_CNT_COUNT d)
  else (l.putB (Fld.TIME_D_STAT_OFS_JUMP d) jump).flagEvent (Fld.TIME_D_STAT_PATH_SUSPECT d) (0x020 + d)

/-- An accepted Sync of domain d measured: the link-delay test against PD_REF (R60), the offset test against the
prediction (R61), and, unless the path is suspect, the measurement registers (R59, R62). -/
def Leaf.measure (l : Leaf) (d port seq at8 : Nat) (ofs rr : Int) : Leaf :=
  let x := l.time.dom d
  let pd := (l.port port).pd.delay
  let ref : Int := (l.rd (Reg.TIME_D_PD_REF d) : Nat)
  let pdJump := x.pdRefLoaded && decide (256 * l.get (Fld.TIME_D_GATE_PD_STEP d) < (pd - ref).natAbs)
  let ofsJump := match x.prev1, x.prev2 with
    | some a, some b => decide (2 ^ 16 * l.get (Fld.TIME_D_GATE_OFS_GATE d) < (ofs - predictOfs a b at8).natAbs)
    | _, _ => false
  let was := l.bit (Fld.TIME_D_STAT_PATH_SUSPECT d)
  let l1 := if pdJump then l.suspect d false else if ofsJump then l.suspect d true else l
  let l2 := l1.setDom d { x with
    lastSync := some l.count, prev1 := x.prev2, prev2 := some { ofs := ofs, at8 := at8 },
    pdRefLoaded := true }
  let l3 := l2.putB (Fld.TIME_D_STAT_LOST d) false
  if was || pdJump || ofsJump then l3
  else
    let ref' := if x.pdRefLoaded then ref + (pd - ref) / 16 else pd
    let l4 := (((l3.wr (Reg.TIME_D_PD_REF d) (patternOf 32 ref')).wr (Reg.TIME_D_MEAS_PD d) (patternOf 32 pd)).wr
      (Reg.TIME_D_MEAS_RR d) (patternOf 32 rr))
    let l5 := l4.wr64 (Reg.TIME_D_MEAS_OFS_LO d) (Reg.TIME_D_MEAS_OFS_HI d) (patternOf 64 (signedOf 48 (patternOf 48 ofs)))
    (l5.put (Fld.TIME_D_MEAS_SEQ_SEQ_ID d) seq).inc (Fld.TIME_D_MEAS_SEQ_ACCEPTED d)

/-- The domain clock at the corrected ingress stamp minus what the grandmaster says it is (R59). -/
def Leaf.syncOffset (l : Leaf) (d port c8 : Nat) (origin corr : Int) : Int :=
  signedOf 80 (patternOf 80 ((((l.time.dom d).time8 c8 : Nat) : Int) - l.ingAsym port
    - (origin + corr + (l.port port).pd.delay * 256)))

/-- The master ports of domain d (R70). -/
def Leaf.masterPorts (l : Leaf) (d : Nat) : List Nat :=
  (List.range 5).filter fun p =>
    l.bit (Fld.SW_P_CFG_EN p) && l.bit (if d = 0 then Fld.SW_P_CFG_MASTER_D0 p else Fld.SW_P_CFG_MASTER_D1 p)

/-- What the device adds to the correctionField on the way from slave port to port p: residence time and link delay, in
grandmaster time by the cumulative rate ratio (R70). -/
def Leaf.relayCorr (l : Leaf) (slave ing8 p egr8 : Nat) (rr : Int) : Int :=
  let t := (localQ16 egr8 + l.egrAsym p) - (localQ16 ing8 - l.ingAsym slave) + (l.port slave).pd.delay * 256
  t + t * rr / 2 ^ 41

/-- A gPTP frame with a new correctionField and rate ratio (R70). -/
def relayFrame (f : List Byte) (corr rr : Int) : List Byte :=
  let g := putBytes f 22 (beBytes 8 (patternOf 64 corr))
  if g.length < 72 then g else putBytes g 68 (beBytes 4 (patternOf 32 rr))

/-- A gPTP Sync of a port (R59, R70): on the slave port of an enabled domain it is measured and relayed, at once when one
step, with the Follow_Up when two step; anywhere else it is dropped and counted. `egress` gives each relay's egress stamp. -/
def Leaf.sync (port c8 : Nat) (f : List Byte) (egress : List (Nat × Nat)) (l : Leaf) : Leaf :=
  match l.slaveDomain port (ptpDomain f) with
  | none => l.portCount port 5
  | some d =>
    let l0 := l.portCount port 4
    let outs := egress.filter fun e => (l.masterPorts d).contains e.1
    let rr := ptpRate f + (l.port port).pd.nrr
    if ptpTwoStep f then
      let x := l0.time.dom d
      let l1 := l0.setDom d { x with
        lastSync := some l.count,
        pendSync := some { seqId := ptpSeq f, ingress8 := c8, corr := ptpCorr f, relays := outs } }
      outs.foldl (fun m e => m.send (.frame e.1 f)) (l1.putB (Fld.TIME_D_STAT_LOST d) false)
    else
      let l1 := l0.measure d port (ptpSeq f) c8 (l0.syncOffset d port c8 (ptpStamp f) (ptpCorr f)) rr
      outs.foldl (fun m e => m.send (.frame e.1 (relayFrame f (ptpCorr f + l0.relayCorr port c8 e.1 e.2 rr) rr))) l1

/-- A Follow_Up (R59, R70): with the matching Sync of the preceding 100 ms it completes the measurement and is relayed with
the correction; otherwise it is dropped and counted. -/
def Leaf.followUp (port c8 : Nat) (f : List Byte) (l : Leaf) : Leaf :=
  match l.slaveDomain port (ptpDomain f) with
  | none => l.portCount port 5
  | some d =>
    match (l.time.dom d).pendSync with
    | none => l.portCount port 5
    | some p =>
      if p.seqId = ptpSeq f ∧ c8 - p.ingress8 < 8 * countsOfMs 100 then
        let l0 := l.portCount port 4
        let rr := ptpRate f + (l.port port).pd.nrr
        let l1 := l0.measure d port p.seqId p.ingress8
          (l0.syncOffset d port p.ingress8 (ptpStamp f) (p.corr + ptpCorr f)) rr
        let l2 := l1.setDom d { l1.time.dom d with pendSync := none }
        p.relays.foldl (fun m e =>
          m.send (.frame e.1 (relayFrame f (ptpCorr f + l0.relayCorr port p.ingress8 e.1 e.2 rr) rr))) l2
      else l.portCount port 5

/-- The peer-delay initiator sends a request on a port (R59). -/
def Leaf.pdelayReq (port egress8 : Nat) (l : Leaf) : Leaf :=
  if port < 5 && l.bit (Fld.SW_P_CFG_EN port) then
    let x := l.port port
    let seq := x.pd.nextSeq
    (l.setPort port { x with pd := { x.pd with
      reqSeq := some seq, t1 := localQ16 egress8 + l.egrAsym port, nextSeq := (seq + 1) % 65536, gotResp := false } }).send
      (.pdelayReq port seq)
  else l

/-- The mean link delay in 2^-8 ns from the four stamps in 2^-16 ns and the neighbour rate ratio minus one (R59). -/
def linkDelay (t1 t2 t3 t4 nrr : Int) : Int :=
  let turn := t4 - t1
  ((turn + turn * nrr / 2 ^ 41) - (t3 - t2)) / 2 / 256

/-- A peer-delay message of a port (R59): a request is answered; a response and its follow-up complete the measurement of
link delay and neighbour rate ratio. -/
def Leaf.pdelayMsg (port c8 : Nat) (f : List Byte) (egress8 : Nat) (l : Leaf) : Leaf :=
  if port < 5 && l.bit (Fld.SW_P_CFG_EN port) then
    let x := l.port port
    let t := ptpType f
    let ing := localQ16 c8 - l.ingAsym port
    if t = 2 then
      ((l.portCount port 4).send (.pdelayResp port (ptpSeq f) ing)).send
        (.pdelayRespFollowUp port (ptpSeq f) (localQ16 egress8 + l.egrAsym port))
    else if t = 3 ∧ x.pd.reqSeq = some (ptpSeq f) then
      (l.portCount port 4).setPort port { x with pd := { x.pd with t2 := ptpStamp f + ptpCorr f, t4 := ing, gotResp := true } }
    else if t = 10 ∧ x.pd.reqSeq = some (ptpSeq f) ∧ x.pd.gotResp = true then
      let t3 := ptpStamp f + ptpCorr f
      let nrr := match x.pd.prev with
        | none => x.pd.nrr
        | some (p3, p4) => if x.pd.t4 = p4 then x.pd.nrr else ((t3 - p3) - (x.pd.t4 - p4)) * 2 ^ 41 / (x.pd.t4 - p4)
      (l.portCount port 4).setPort port { x with pd := { x.pd with
        reqSeq := none, gotResp := false, prev := some (t3, x.pd.t4), nrr := nrr,
        delay := linkDelay x.pd.t1 x.pd.t2 t3 x.pd.t4 nrr } }
    else l.portCount port 5
  else l

/-- The domain enabled or disabled by a write of TIME_Dd_CFG (R56, R60, R61). -/
def Leaf.writeDomCfg (d w : Nat) (l : Leaf) : Leaf :=
  let was := l.bit (Fld.TIME_D_CFG_ENABLE d)
  let l1 := l.swWrite (Reg.TIME_D_CFG d) w
  let on := l1.bit (Fld.TIME_D_CFG_ENABLE d)
  if on && !was then
    l1.setDom d { l1.time.dom d with
      enabledAt := l.count, lastSync := none, pdRefLoaded := false, prev1 := none, prev2 := none, pendSync := none }
  else if on then l1 else l1.putB (Fld.TIME_D_STAT_LOST d) false

/-- No Sync of domain d has been accepted for SYNC_TIMEOUT ms (R56). -/
def Leaf.syncLate (l : Leaf) (d : Nat) : Bool :=
  let x := l.time.dom d
  let since := match x.lastSync with | none => x.enabledAt | some c => max c x.enabledAt
  l.bit (Fld.TIME_D_CFG_ENABLE d)
    && decide (countsOfMs (max 1 (l.get (Fld.TIME_D_TIMEOUT_SYNC_TIMEOUT d))) ≤ l.count - since)

/-- A write of TIME_Dd_STAT: QUAL is set or cleared, and a clear of PATH_SUSPECT returns the domain to service: the
reference delay is loaded anew and the offset test waits for two Syncs (R60 to R62). -/
def Leaf.writeDomStat (d w : Nat) (l : Leaf) : Leaf :=
  let was := l.bit (Fld.TIME_D_STAT_PATH_SUSPECT d)
  let l1 := l.swWrite (Reg.TIME_D_STAT d) w
  if was && bitOf w 2 then l1.setDom d { l1.time.dom d with pdRefLoaded := false, prev1 := none, prev2 := none } else l1

/-! ## Triggers -/

/-- WIDTH of trigger n as it acts: below 8 ns as 8 ns (R74). -/
def Leaf.trigWidth (l : Leaf) (n : Nat) : Nat := max 8 (l.rd (Reg.TIME_TRIG_WIDTH n))

/-- PERIOD breaks the rule of R74. -/
def periodBad (period width : Nat) : Bool := decide (period < 2 * width) || decide (period < 20)

/-- The trigger armed with its registers (R74, R75). -/
def Leaf.armNow (n : Nat) (l : Leaf) : Leaf :=
  let periodic := l.bit (Fld.TIME_TRIG_CTRL_MODE n)
  let start := l.trigStart n
  let t := l.trig n
  if periodic then
    if periodBad (l.rd (Reg.TIME_TRIG_PERIOD n)) (l.trigWidth n) then l.missTrig n 0
    else (l.setTrig n { t with nextAt := some (firstInstant start (l.trigPeriod n) l.now), single := false, rearm := false,
                               disarm := false }).putB (Fld.TIME_TRIG_CTRL_ARMED n) true
  else if start < l.now then (l.disarmTrig n).missTrig n 1
  else (l.setTrig n { t with nextAt := some start, single := true, rearm := false, disarm := false }).putB
    (Fld.TIME_TRIG_CTRL_ARMED n) true

/-- DISARM of trigger n (R74): after any pulse in progress. -/
def Leaf.disarm (n : Nat) (l : Leaf) : Leaf :=
  if (l.trig n).pulseEnd.isSome then
    l.setTrig n { l.trig n with nextAt := none, rearm := false, disarm := true }
  else l.disarmTrig n

/-- ARM of trigger n (R74): afresh once any pulse in progress has completed. -/
def Leaf.armTrig (n : Nat) (l : Leaf) : Leaf :=
  if (l.trig n).pulseEnd.isSome then
    if l.bit (Fld.TIME_TRIG_CTRL_MODE n) && periodBad (l.rd (Reg.TIME_TRIG_PERIOD n)) (l.trigWidth n) then l.missTrig n 0
    else l.setTrig n { l.trig n with rearm := true, disarm := false }
  else l.armNow n

/-- A write of TIME_TRIGn_CTRL. -/
def Leaf.writeTrigCtrl (n w : Nat) (l : Leaf) : Leaf :=
  let l1 := l.swWrite (Reg.TIME_TRIG_CTRL n) w
  let l2 := if bitOf w 30 then l1.disarm n else l1
  if bitOf w 31 then l2.armTrig n else l2

/-- A write of START, PERIOD or WIDTH of trigger n (R76). -/
def Leaf.reprogram (n a w : Nat) (l : Leaf) : Leaf :=
  let l1 := l.swWrite a w
  let t := l.trig n
  match t.nextAt with
  | none => l1
  | some _ =>
    if t.single then
      if l1.trigStart n < l1.now then (l1.disarmTrig n).missTrig n 1
      else l1.setTrig n { t with nextAt := some (l1.trigStart n) }
    else if periodBad (l1.rd (Reg.TIME_TRIG_PERIOD n)) (l1.trigWidth n) then l.missTrig n 0
    else l1.setTrig n { t with nextAt := some (firstInstant (l1.trigStart n) (l1.trigPeriod n) l1.now) }

/-- The general trigger output n driven (R74). -/
def Leaf.driveTrig (l : Leaf) (n : Nat) (on : Bool) : Leaf := { l with time := { l.time with gtrig := setAt l.time.gtrig n on } }

/-- The instant of an armed trigger is reached: its pulse starts (R73, R74). An instant not yet due has no effect. -/
def Leaf.pulse (n : Nat) (l : Leaf) : Leaf :=
  let t := l.trig n
  match t.nextAt with
  | none => l
  | some at16 =>
    if l.now < at16 || t.pulseEnd.isSome then l
    else
      let ends := l.count + (l.trigWidth n * 100 + 127) / 128
      let l1 := (l.driveTrig n true).bump 2 (2 + n)
      if t.single then
        (l1.setTrig n { t with nextAt := none, pulseEnd := some ends }).putB (Fld.TIME_TRIG_CTRL_ARMED n) false
      else l1.setTrig n { t with nextAt := some (at16 + l.trigPeriod n), pulseEnd := some ends }

/-- WIDTH has elapsed: the pin returns to its inactive level, and a held ARM or DISARM acts (R74, R76). -/
def Leaf.endTrigPulse (n : Nat) (l : Leaf) : Leaf :=
  let t := l.trig n
  match t.pulseEnd with
  | none => l
  | some e =>
    if l.count < e then l
    else
      let l1 := (l.driveTrig n false).setTrig n { t with pulseEnd := none }
      if t.rearm then l1.armNow n else if t.disarm then l1.disarmTrig n else l1

/-! ## PPS and capture -/

/-- A time written to its LO, HI and FRAC registers (R79). -/
def Leaf.wrTime (l : Leaf) (lo hi frac t : Nat) : Leaf := (l.wr64 lo hi (t / 2 ^ 16)).wr frac (t % 2 ^ 16)

/-- A PPS edge captured (R77). -/
def Leaf.ppsCapture (c8 : Nat) (l : Leaf) : Leaf :=
  let l1 := (l.wr64 Reg.TIME_PPS_CNT_LO Reg.TIME_PPS_CNT_HI (c8 / 8)).wrTime Reg.TIME_PPS_VT_LO Reg.TIME_PPS_VT_HI
    Reg.TIME_PPS_VT_FRAC (l.vt8 c8)
  let l2 := l1.inc Fld.TIME_PPS_SEQ_COUNT
  let l3 := if l.time.ppsUnread then l2.inc Fld.TIME_PPS_SEQ_OVW else l2
  ({ l3 with time := { l3.time with ppsUnread := true } }).raise 0x029

/-- TIME_CAPTURE.CAP: count and times latched at one count (R79). -/
def Leaf.capture (l : Leaf) : Leaf :=
  let c := l.count
  (((l.wr64 Reg.TIME_CAP_CNT_LO Reg.TIME_CAP_CNT_HI c).wrTime Reg.TIME_CAP_VT_LO Reg.TIME_CAP_VT_HI Reg.TIME_CAP_VT_FRAC
    (l.vt c)).wrTime Reg.TIME_CAP_D0_LO Reg.TIME_CAP_D0_HI Reg.TIME_CAP_D0_FRAC (l.time.d0.time c)).wrTime
    Reg.TIME_CAP_D1_LO Reg.TIME_CAP_D1_HI Reg.TIME_CAP_D1_FRAC (l.time.d1.time c)

end Sys2Proof.Machine
end

