-- ==== Sys2Proof/Machine/Switch.lean ====
section
/-!
DEFINITION. The switch's operations: reception, learning and forwarding (R67 to R69), the forwarding-table commands (R69),
the time-aware shaper (R71, R72), the credit-based shaper (Table 2.2) and transmission.
-/
namespace Sys2Proof.Machine

/-! ## Frames (IEEE 802.1Q, R6). A frame is given without its 4-byte FCS. -/

/-- The destination address. -/
def frameDst (f : List Byte) : Nat := beAt f 0 6
/-- The source address. -/
def frameSrc (f : List Byte) : Nat := beAt f 6 6
/-- The frame carries an 802.1Q tag. -/
def frameTagged (f : List Byte) : Bool := beAt f 12 2 == 0x8100
/-- The EtherType, behind a tag if there is one. -/
def frameType (f : List Byte) : Nat := if frameTagged f then beAt f 16 2 else beAt f 12 2
/-- The VID of a frame received on port p: the tag's, or the port's VID for an untagged or priority-tagged frame. -/
def Leaf.frameVid (l : Leaf) (p : Nat) (f : List Byte) : Nat :=
  if frameTagged f && beAt f 14 2 % 4096 != 0 then beAt f 14 2 % 4096 else l.get (Fld.SW_P_CFG_PVID p)
/-- The PCP of a frame received on port p: the tag's, or the port's default. -/
def Leaf.framePcp (l : Leaf) (p : Nat) (f : List Byte) : Nat :=
  if frameTagged f then beAt f 14 2 / 8192 else l.get (Fld.SW_P_CFG_DEF_PCP p)

/-! ## Forwarding table (R69) -/

/-- The set of the table that an address and VID fall into. -/
def fdbSet (mac vid : Nat) : Nat := Config.fdbHash mac vid % 1024

/-- The index of the entry of an address and VID. -/
def SwState.fdbFind (s : SwState) (mac vid : Nat) : Option Nat :=
  ((List.range 4).map fun w => fdbSet mac vid * 4 + w).find? fun i =>
    match alGet s.fdb i with
    | some e => e.mac == mac && e.vid == vid
    | none => false

/-- A free way of the set of an address and VID. -/
def SwState.fdbFree (s : SwState) (mac vid : Nat) : Option Nat :=
  ((List.range 4).map fun w => fdbSet mac vid * 4 + w).find? fun i => (alGet s.fdb i).isNone

/-- The forwarding table replaced. -/
def Leaf.setFdb (l : Leaf) (t : List (Nat × FdbEntry)) : Leaf := { l with sw := { l.sw with fdb := t } }

/-- A source address learned on port p: a known learned entry follows the address, a new one takes a free way, and a full
set counts a failure (R69). -/
def Leaf.learn (p mac vid : Nat) (l : Leaf) : Leaf :=
  if l.bit Fld.SW_CTRL_LEARN && mac / 2 ^ 40 % 2 == 0 then
    match l.sw.fdbFind mac vid with
    | some i =>
      match alGet l.sw.fdb i with
      | some e =>
        if e.static then l else l.setFdb (alSet i { e with ports := 2 ^ p, seen := l.count } l.sw.fdb)
      | none => l
    | none =>
      match l.sw.fdbFree mac vid with
      | some i => l.setFdb (alSet i { mac := mac, vid := vid, ports := 2 ^ p, static := false, seen := l.count } l.sw.fdb)
      | none => l.portCount p 3
  else l

/-- The MAC address in the forwarding-table registers. -/
def Leaf.fdbMac (l : Leaf) : Nat := l.rd Reg.SW_FDB_MAC_LO + 2 ^ 32 * l.get Fld.SW_FDB_MAC_HI2_MAC

/-- SW_FDB_CMD OP 0: the entry at INDEX into the registers, VALID 0 when the way is free. -/
def Leaf.fdbReadCmd (l : Leaf) : Leaf :=
  match alGet l.sw.fdb (l.get Fld.SW_FDB_CMD_INDEX) with
  | none => ((l.wr Reg.SW_FDB_MAC_LO 0).wr Reg.SW_FDB_MAC_HI 0).wr Reg.SW_FDB_MAC_HI2 0
  | some e =>
    ((l.wr Reg.SW_FDB_MAC_LO e.mac).wr Reg.SW_FDB_MAC_HI
      (2 ^ 31 + b2n e.static * 2 ^ 30 + e.ports * 2 ^ 24 + e.vid * 2 ^ 12)).wr Reg.SW_FDB_MAC_HI2 (e.mac / 2 ^ 32)

/-- SW_FDB_CMD OP 1: a static entry from the registers, refused with FULL when the set is full (R69). -/
def Leaf.fdbWriteCmd (l : Leaf) : Leaf :=
  let mac := l.fdbMac
  let vid := l.get Fld.SW_FDB_MAC_HI_VID
  let e : FdbEntry := { mac := mac, vid := vid, ports := l.get Fld.SW_FDB_MAC_HI_PORTS, static := true, seen := l.count }
  match l.sw.fdbFind mac vid with
  | some i => (l.setFdb (alSet i e l.sw.fdb)).putB Fld.SW_FDB_CMD_FULL false
  | none =>
    match l.sw.fdbFree mac vid with
    | some i => (l.setFdb (alSet i e l.sw.fdb)).putB Fld.SW_FDB_CMD_FULL false
    | none => l.putB Fld.SW_FDB_CMD_FULL true

/-- SW_FDB_CMD OP 2: the entry of the address and VID in the registers deleted. -/
def Leaf.fdbDeleteCmd (l : Leaf) : Leaf :=
  match l.sw.fdbFind l.fdbMac (l.get Fld.SW_FDB_MAC_HI_VID) with
  | some i => l.setFdb (alDel i l.sw.fdb)
  | none => l

/-- SW_FDB_CMD OP 3: every learned entry deleted. -/
def Leaf.fdbFlushCmd (l : Leaf) : Leaf := l.setFdb (l.sw.fdb.filter fun e => e.2.static)

/-- A write of SW_FDB_CMD: GO runs the command OP names. -/
def Leaf.writeFdbCmd (w : Nat) (l : Leaf) : Leaf :=
  let l1 := l.swWrite Reg.SW_FDB_CMD w
  if bitOf w 31 then
    match l1.get Fld.SW_FDB_CMD_OP with
    | 0 => l1.fdbReadCmd
    | 1 => l1.fdbWriteCmd
    | 2 => l1.fdbDeleteCmd
    | _ => l1.fdbFlushCmd
  else l1

/-- A learned entry without traffic for AGE_S seconds removed (R69). -/
def Leaf.fdbAge (i : Nat) (l : Leaf) : Leaf :=
  match alGet l.sw.fdb i with
  | some e => if !e.static && decide (l.get Fld.SW_CTRL_AGE_S * countsOfMs 1000 ≤ l.count - e.seen) then
      l.setFdb (alDel i l.sw.fdb) else l
  | none => l

/-! ## Forwarding -/

/-- The ports a frame goes out of: those of its entry, or for an unknown address every port of the VLAN; never the ingress
port, and only enabled ones (R69). While FWD_EN is 0 only P5 traffic passes. -/
def Leaf.egressPorts (l : Leaf) (p dst vid : Nat) : List Nat :=
  let known : Option Nat := match l.sw.fdbFind dst vid with
    | some i => (alGet l.sw.fdb i).map FdbEntry.ports
    | none => none
  (List.range 6).filter fun q =>
    q != p && l.bit (Fld.SW_P_CFG_EN q)
      && (match known with | some m => bitOf m q | none => Config.vlanMember q vid)
      && (l.bit Fld.SW_CTRL_FWD_EN || p == 5 || q == 5)

/-- Bytes of packet memory in use, FCS included. -/
def Leaf.packetBytes (l : Leaf) : Nat :=
  (l.sw.ports.map fun x => (x.queues.map fun q => (q.map fun f => f.bytes.length + 4).sum).sum).sum

/-- The class of a PCP at port q (SW_Pn_PCP_MAP). -/
def Leaf.classOf (l : Leaf) (q pcp : Nat) : Nat := l.get (Fld.SW_P_PCP_MAP_MAP q) / 8 ^ pcp % 8

/-- The credit of class t of port q brought up to count c: it grows by IDLE_SLOPE while frames wait (kbit/s times ns is
10^-6 bit), and a positive credit is lost while none waits. -/
def Leaf.creditAt (l : Leaf) (q t c : Nat) : Int :=
  let x := l.port q
  let cr := x.credits.getD t 0
  let dt := nsOfCounts (c - x.creditAt.getD t 0)
  let grown := cr + ((l.rd (Reg.SW_P_CBS_TC q t) * dt : Nat) : Int)
  if (x.queues.getD t []).isEmpty then min grown 0 else grown

/-- The credit of class t of port q stored at count c. -/
def Leaf.settleCredit (l : Leaf) (q t c : Nat) : Leaf :=
  let x := l.port q
  l.setPort q { x with credits := setAt x.credits t (l.creditAt q t c), creditAt := setAt x.creditAt t c }

/-- A frame put into its queue at port q, or dropped when the queue's limit or the packet memory is exceeded (R68). -/
def Leaf.enqueue (l : Leaf) (q pcp : Nat) (f : QFrame) : Leaf :=
  let t := l.classOf q pcp
  let x := l.port q
  let used := ((x.queues.getD t []).map fun g => g.bytes.length + 4).sum
  if Config.queueLimit q t < used || decide (2 ^ 21 < l.packetBytes + f.bytes.length + 4) then l.portCount q 2
  else
    let l1 := l.settleCredit q t l.count
    let y := l1.port q
    l1.setPort q { y with queues := modAt y.queues t fun fs => fs ++ [f] }

/-- The words of the 802.1Qci tables that software has written. -/
def Leaf.qciWords (l : Leaf) : List (Nat × Nat) :=
  (l.regs.filter fun e => 0x30C000 ≤ e.1 && e.1 < 0x310000).map fun e => (e.1 - 0x30C000, e.2.toNat)

/-- The 802.1Qci stream filters pass a frame; with the tables empty every frame passes (R67). -/
def Leaf.qciPass (l : Leaf) (dst vid pcp : Nat) : Bool :=
  let ws := l.qciWords
  ws.isEmpty || Config.qciPasses ws dst vid pcp

/-- A frame received on port p (R68, R69, R70): checked, learned, forwarded or dropped. gPTP frames are never bridged. -/
def Leaf.frameIn (p c8 : Nat) (f : List Byte) (fcsOk : Bool) (l : Leaf) : Leaf :=
  if p < 6 && l.bit (Fld.SW_P_CFG_EN p) then
    let l0 := l.portCount p 0
    let len := f.length + 4
    let vid := l.frameVid p f
    let pcp := l.framePcp p f
    if !fcsOk || decide (len < 64) || decide (2048 < len) || !l.qciPass (frameDst f) vid pcp then l0.portCount p 2
    else if frameType f = 0x88F7 then l0
    else
      let l1 := l0.learn p (frameSrc f) vid
      (l1.egressPorts p (frameDst f) vid).foldl (fun m q => m.enqueue q pcp { bytes := f, ingress8 := c8, port := p }) l1
  else l

/-! ## Gates (R71, R72) -/

/-- The entry of a gate list in force `pos` ns into its cycle, and how long it still lasts. -/
def gateWalk : List (Nat × Nat) → Nat → Option (Nat × Nat)
  | [], _ => none
  | (g, i) :: t, pos => if pos < i then some (g, i - pos) else gateWalk t (pos - i)

/-- The position of vehicle time `ns` in a schedule's cycle. -/
def GateSched.pos (s : GateSched) (ns : Nat) : Nat :=
  if s.cycle = 0 then 0 else (((ns : Int) - (s.base : Int)) % (s.cycle : Int)).toNat

/-- The gate states in force at vehicle time `ns`: all open without a list. -/
def GateSched.gatesAt (s : GateSched) (ns : Nat) : Nat :=
  match gateWalk s.entries (s.pos ns) with
  | none => 0xFF
  | some (g, _) => g

/-- How long class t's gate stays open from vehicle time `ns` on, up to `need` ns; fuel counts list entries. -/
def GateSched.openFor (s : GateSched) (t need : Nat) : Nat → Nat → Nat → Nat
  | 0, _, acc => acc
  | fuel + 1, ns, acc =>
    if need ≤ acc then acc
    else
      match gateWalk s.entries (s.pos ns) with
      | none => need
      | some (g, rest) => if bitOf g t then GateSched.openFor s t need fuel (ns + rest) (acc + rest) else acc

/-- The admin list of port p. -/
def Leaf.adminList (l : Leaf) (p : Nat) : List (Nat × Nat) :=
  (List.range (l.get (Fld.SW_P_QBV_CTRL_LIST_LEN p))).map fun e =>
    (l.get (Fld.SW_GCL_STATES_GATES p e), l.rd (Reg.SW_GCL_INTERVAL p e))

/-- SW_Pn_QBV_CTRL.CHANGE (R72): the admin list becomes pending for the first cycle start at or after its base that lies at
least one cycle time ahead, or is rejected with CFG_ERR. -/
def Leaf.qbvChange (p : Nat) (l : Leaf) : Leaf :=
  let es := l.adminList p
  let cycle := l.rd (Reg.SW_P_QBV_CYCLE p)
  let base := l.rd64 (Reg.SW_P_QBV_BASE_LO p) (Reg.SW_P_QBV_BASE_HI p)
  if es.isEmpty || decide (256 < es.length) || decide (cycle < 1000) || decide (1000000000 < cycle)
      || decide ((es.map (·.2)).sum ≠ cycle) then l.putB (Fld.SW_P_QBV_STAT_CFG_ERR p) true
  else
    let s : GateSched := { entries := es, base := base, cycle := cycle,
                           startAt := firstInstant base cycle ((l.now + 65535) / 2 ^ 16 + cycle) }
    (l.setPort p { l.port p with admin := some s }).putB (Fld.SW_P_QBV_STAT_CFG_PENDING p) true

/-- A write of SW_Pn_QBV_CTRL. -/
def Leaf.writeQbvCtrl (p w : Nat) (l : Leaf) : Leaf :=
  let l1 := l.swWrite (Reg.SW_P_QBV_CTRL p) w
  if bitOf w 31 then l1.qbvChange p else l1

/-- The change instant is reached: the pending list runs (R72). -/
def Leaf.qbvEffect (p : Nat) (l : Leaf) : Leaf :=
  let x := l.port p
  match x.admin with
  | none => l
  | some s =>
    if l.now < s.startAt * 2 ^ 16 then l
    else (l.setPort p { x with oper := s, admin := none, gates := s.gatesAt l.nowNs }).putB
      (Fld.SW_P_QBV_STAT_CFG_PENDING p) false

/-- A gate event: the gate states of the schedule in operation taken (R71). -/
def Leaf.gateEvent (p : Nat) (l : Leaf) : Leaf :=
  let x := l.port p
  l.setPort p { x with gates := if l.bit (Fld.SW_P_QBV_CTRL_GATE_EN p) then x.oper.gatesAt l.nowNs else 0xFF }

/-! ## Transmission -/

/-- A port's speed in Mbit/s (SW_Pn_CFG.SPEED, fixed at 10 Gb/s on P4 and P5). -/
def Leaf.portMbps (l : Leaf) (p : Nat) : Nat :=
  if p = 4 ∨ p = 5 then 10000
  else
    match l.get (Fld.SW_P_CFG_SPEED p) with
    | 0 => 2500
    | 1 => 5000
    | _ => 10000

/-- The time a frame takes at the port's speed, ns, FCS included. -/
def Leaf.txNs (l : Leaf) (p : Nat) (f : QFrame) : Nat := ((f.bytes.length + 4) * 8 * 1000 + l.portMbps p - 1) / l.portMbps p

/-- Class t of port p may send its first frame at count c: the gate is open for long enough to complete it (R71) and the
class's shaper has no negative credit. -/
def Leaf.mayTx (l : Leaf) (p t c : Nat) : Bool :=
  match (l.port p).queues.getD t [] with
  | [] => false
  | f :: _ =>
    (!l.bit (Fld.SW_P_QBV_CTRL_GATE_EN p)
      || decide (l.txNs p f ≤ (l.port p).oper.openFor t (l.txNs p f) 520 (l.vt c / 2 ^ 16) 0))
    && (l.rd (Reg.SW_P_CBS_TC p t) == 0 || decide (0 ≤ l.creditAt p t c))

/-- What leaves a port: P5 delivers UDP frames to the packet parser and others to the host frame queues. -/
def Leaf.deliver (l : Leaf) (p : Nat) (f : QFrame) : Leaf :=
  if p = 5 then
    if frameType f.bytes = 0x0800 ∨ frameType f.bytes = 0x86DD then { l with sw := { l.sw with p5 := l.sw.p5 ++ [f] } }
    else { l with sw := { l.sw with hostFrames := l.sw.hostFrames ++ [f.bytes] } }
  else l.send (.frame p f.bytes)

/-- A frame transmitted from port p: of the classes that may send the highest (R71). -/
def Leaf.transmit (p : Nat) (l : Leaf) : Leaf :=
  let c := l.count
  if p < 6 && l.bit (Fld.SW_P_CFG_EN p) && decide ((l.port p).busyUntil ≤ c) then
    match ((List.range 8).reverse).find? fun t => l.mayTx p t c with
    | none => l
    | some t =>
      match (l.port p).queues.getD t [] with
      | [] => l
      | f :: rest =>
        let ns := l.txNs p f
        let slope : Int := ((l.rd (Reg.SW_P_CBS_TC p t) : Nat) : Int) - (l.portMbps p * 1000 : Nat)
        let cr := l.creditAt p t c + slope * (ns : Int)
        let ends := c + (ns * 100 + 127) / 128
        let x := l.port p
        let l1 := l.setPort p { x with
          queues := setAt x.queues t rest, busyUntil := ends,
          credits := if l.rd (Reg.SW_P_CBS_TC p t) = 0 then x.credits else setAt x.credits t cr,
          creditAt := setAt x.creditAt t ends }
        (l1.portCount p 1).deliver p f
  else l

end Sys2Proof.Machine
end

