-- ==== Sys2Proof/Machine/HingeOps.lean ====
section
/-!
DEFINITION. The hinge's operations: messages and the link and function state that lets them go (R503 to R505), access
violations (R506), agreement faults (R38) and the comparison of digests and stamps (R29, R30, R34 to R36).
-/
namespace Sys2Proof.Machine

/-! ## Messages (R504, R505) -/

/-- The state of function fn. -/
def Hinge.fn (h : Hinge) (fn : Nat) : FnState := if fn = 0 then h.fn0 else h.fn1

/-- The state of function fn replaced. -/
def Hinge.setFn (h : Hinge) (fn : Nat) (f : FnState) : Hinge := if fn = 0 then { h with fn0 := f } else { h with fn1 := f }

/-- The link can carry a message: not in L2 or L3 and not held in reset by PERST_N (R489, Table 19.8). -/
def Hinge.linkOk (h : Hinge) : Bool := !h.held && !h.perst && h.get Fld.HINGE_PCIE_LINK_LSTATE != 3

/-- A function can send a message on a vector: D0, MSI-X enabled, function and vector unmasked. -/
def FnState.canSend (f : FnState) (vec : Nat) : Bool := !f.d3hot && f.msixEn && !f.fnMask && !f.vecMask.contains vec

/-- The registers that show held messages: HELD_NOW and HELD of each group (R507). -/
def Hinge.showHeld (h : Hinge) : Hinge :=
  let h1 := h.put Fld.HINGE_PCIE_HELD_NOW_COUNT h.heldMsgs.length
  (List.range 16).foldl (fun m g =>
    m.putB (Fld.HINGE_PCIE_CQG_STAT_HELD g) (h.heldMsgs.contains (1, g) || h.heldMsgs.contains (0, 129 + g))) h1

/-- A message sent; the link leaves L1 (Table 19.8). -/
def Hinge.sendNow (h : Hinge) (fn vec : Nat) : Hinge :=
  ({ h with sent := h.sent ++ [HostOut.msix fn vec] }).put Fld.HINGE_PCIE_LINK_LSTATE 0

/-- A message held: merged into one held for the same vector, else counted; a function in D3hot sends PM_PME, and a link in
L2 or L3 asserts WAKE_N (Table 19.8). -/
def Hinge.holdMsg (h : Hinge) (fn vec : Nat) : Hinge :=
  if h.heldMsgs.contains (fn, vec) then h
  else
  let h1 := (({ h with heldMsgs := h.heldMsgs ++ [(fn, vec)] }).inc Fld.HINGE_PCIE_HELD_CNT_COUNT).showHeld
  if !h.linkOk then { h1 with wakeN := h1.wakeN || (h.aux && !h.held && h.get Fld.HINGE_PCIE_LINK_LSTATE == 3) }
  else if (h.fn fn).d3hot && (h.fn fn).pmeEn then
    ({ h1 with sent := h1.sent ++ [HostOut.pme fn] }).put Fld.HINGE_PCIE_LINK_LSTATE 0
  else h1

/-- A message of function fn and vector vec falls due (R504). -/
def Hinge.message (fn vec : Nat) (h : Hinge) : Hinge :=
  if h.linkOk && (h.fn fn).canSend vec && !h.heldMsgs.contains (fn, vec) then h.sendNow fn vec else h.holdMsg fn vec

/-- Held messages whose condition has ended are sent, in the order in which they fell due (R504). -/
def Hinge.release (h : Hinge) : Hinge :=
  if h.linkOk then
    let go := h.heldMsgs.filter fun m => (h.fn m.1).canSend m.2
    let h1 := { h with heldMsgs := h.heldMsgs.filter fun m => !(h.fn m.1).canSend m.2 }
    (go.foldl (fun k m => k.sendNow m.1 m.2) h1).showHeld
  else h

/-- The host can be written by function fn: link up, D0, Bus Master Enable (R489). -/
def Hinge.canDma (h : Hinge) (fn : Nat) : Bool := h.linkOk && !(h.fn fn).d3hot && (h.fn fn).busMaster

/-! ## Windows and violations (R492, R506) -/

/-- The window that serves completion-queue group g of a leaf (R492). -/
def windowOf (l : LeafId) (g : Nat) : Nat := 8 * l.toNat + g

/-- Window w is enabled. -/
def Hinge.winOn (h : Hinge) (w : Nat) : Bool := bitOf (h.get Fld.HINGE_PCIE_WIN_EN) w

/-- The leaf DRAM range of window w. -/
def Hinge.winRange (h : Hinge) (w : Nat) : Nat × Nat :=
  (h.rd (Reg.HINGE_PCIE_WIN_BASE_LO w) + 2 ^ 32 * h.rd (Reg.HINGE_PCIE_WIN_BASE_HI w),
   h.rd (Reg.HINGE_PCIE_WIN_LIM_LO w) + 2 ^ 32 * h.rd (Reg.HINGE_PCIE_WIN_LIM_HI w))

/-- A refused access (R506): counted, and logged with the violation event while VALID is 0. -/
def Hinge.violation (addr cause fn : Nat) (write : Bool) (win : Nat) (h : Hinge) : Hinge :=
  let h1 := h.inc Fld.HINGE_VIOL_CNT_COUNT
  if h.bit Fld.HINGE_VIOL_STAT_VALID then h1
  else
    let h2 := (((h1.wr Reg.HINGE_VIOL_ADDR_LO addr).wr Reg.HINGE_VIOL_ADDR_HI (addr / 2 ^ 32)).put Fld.HINGE_VIOL_SRC_RID
      (if fn = 0 then h.rid0 else h.rid1)).put Fld.HINGE_VIOL_STAT_CAUSE cause
    let h3 := ((h2.put Fld.HINGE_VIOL_STAT_FUNC fn).putB Fld.HINGE_VIOL_STAT_WRITE write).put Fld.HINGE_VIOL_STAT_WINDOW win
    (h3.putB Fld.HINGE_VIOL_STAT_VALID true).message 0 128

/-! ## Leaf reset control -/

/-- HINGE_LEAF_STAT.UP of a leaf (R20). -/
def Hinge.up (h : Hinge) : LeafId → Bool
  | .A => h.bit Fld.HINGE_LEAF_STAT_UP_A
  | .B => h.bit Fld.HINGE_LEAF_STAT_UP_B

/-- HINGE_LEAF_STAT.UP of a leaf set. -/
def Hinge.setUp (h : Hinge) (i : LeafId) (b : Bool) : Hinge :=
  match i with
  | .A => h.putB Fld.HINGE_LEAF_STAT_UP_A b
  | .B => h.putB Fld.HINGE_LEAF_STAT_UP_B b

/-- HINGE_LEAF_STAT.LAST_RST of a leaf set. -/
def Hinge.setLastRst (h : Hinge) (i : LeafId) (c : Nat) : Hinge :=
  match i with
  | .A => h.put Fld.HINGE_LEAF_STAT_LAST_RST_A c
  | .B => h.put Fld.HINGE_LEAF_STAT_LAST_RST_B c

/-- HINGE_LEAF_DROP of a leaf counts an access (R20). -/
def Hinge.countDrop (h : Hinge) (i : LeafId) : Hinge :=
  match i with
  | .A => h.inc Fld.HINGE_LEAF_DROP_A_COUNT
  | .B => h.inc Fld.HINGE_LEAF_DROP_B_COUNT

/-- The register index of a leaf's boot registers. -/
abbrev bootIx (i : LeafId) : Nat := i.toNat

/-! ## Agreement checker (R29 to R39) -/

/-- The mode is locked to mirror (R24). -/
def Hinge.mirror (h : Hinge) : Bool := h.bit Fld.HINGE_MODE_LOCKED && h.bit Fld.HINGE_MODE_MODE

/-- The checker is ACTIVE. -/
def Hinge.active (h : Hinge) : Bool := h.bit Fld.HINGE_AGREE_STAT_ACTIVE

/-- What an agreement fault records (R38). -/
structure AgreeInfo where
  cause : Nat
  tick : Nat
  kind : Nat
  index : Nat
  digA : Nat := 0
  digB : Nat := 0
  injected : Bool := false
  deriving DecidableEq, Repr

/-- The first agreement fault captured in the log registers (R38). -/
def Hinge.logAgree (h : Hinge) (i : AgreeInfo) : Hinge :=
  let h1 := h.inc Fld.HINGE_AGREE_CNT_COUNT
  if h.bit Fld.HINGE_AGREE_STAT_FAULT then h1
  else
    let h2 := (h1.put Fld.HINGE_AGREE_STAT_CAUSE i.cause).putB Fld.HINGE_AGREE_STAT_FAULT true
    let h3 := ((h2.wr Reg.HINGE_AGREE_TICK_LO i.tick).wr Reg.HINGE_AGREE_TICK_HI (i.tick / 2 ^ 32)).wr Reg.HINGE_AGREE_STAGE
      (i.kind * 2 ^ 31 + i.index % 2 ^ 16)
    (((h3.wr Reg.HINGE_AGREE_DIGA_LO i.digA).wr Reg.HINGE_AGREE_DIGA_HI (i.digA / 2 ^ 32)).wr Reg.HINGE_AGREE_DIGB_LO
      i.digB).wr Reg.HINGE_AGREE_DIGB_HI (i.digB / 2 ^ 32)

/-- What an agreement fault does in a leaf: SAFE_N when ACTION is 1 (R38), and an AGREE record (Table 21.2). A leaf in reset
logs nothing. -/
def Leaf.agreeFault (hold : Bool) (i : AgreeInfo) (l : Leaf) : Leaf :=
  let l1 := { l with flt := { l.flt with agreeHold := l.flt.agreeHold || hold } }
  if l.boot.held then l1
  else l1.notify 0x30 { block := 0x13, flags := if i.injected then 4 else 0, inst := i.index % 2 ^ 16, detail := i.cause }

/-- An agreement fault (R38). -/
def State.agreeFault (i : AgreeInfo) (s : State) : State :=
  let act := s.hinge.bit Fld.HINGE_AGREE_CFG_ACTION
  let h := (s.hinge.logAgree i).message 0 128
  { s with hinge := h, leafA := s.leafA.agreeFault act i, leafB := s.leafB.agreeFault act i }

/-- The digest waiting at the hinge that pairs with one of leaf `i` (R33). -/
def AgreeState.partner (a : AgreeState) (i : LeafId) (m : DigestMsg) : Option DigestMsg :=
  (a.digests.find? fun e => e.1 == i.other && e.2.tick == m.tick && e.2.id == m.id).map (·.2)

/-- The waiting digests without those of a tick and ID. -/
def AgreeState.dropDigests (a : AgreeState) (tick : Nat) (id : Option Nat) : AgreeState :=
  { a with digests := a.digests.filter fun e => !(e.2.tick == tick && e.2.id == id) }

/-- A digest of leaf `i` reaches the hinge (R34): the first of a pair waits, the second is compared. Digests of ticks before
comparison started take no part (R36). -/
def State.digestArrives (i : LeafId) (m : DigestMsg) (s : State) : State :=
  let a := s.hinge.agree
  if !s.hinge.active || decide (m.tick < a.startTick) then s
  else
    match a.partner i m with
    | none => s.setHinge { s.hinge with agree := { a with digests := a.digests ++ [(i, m)] } }
    | some p =>
      let s1 := s.setHinge { s.hinge with agree := a.dropDigests m.tick m.id }
      let dA := if i = .A then m.digest else p.digest
      let dB := if i = .A then p.digest else m.digest
      let inj := m.injected || p.injected
      match m.id with
      | none =>
        if decide (m.digest ≠ p.digest) || !m.locked || !p.locked then
          s1.agreeFault { cause := 6, tick := m.tick, kind := 0, index := 0xFFFF, digA := dA, digB := dB, injected := inj }
        else s1
      | some id =>
        if m.digest ≠ p.digest then
          s1.agreeFault { cause := 1, tick := m.tick, kind := 0, index := id, digA := dA, digB := dB, injected := inj }
        else s1

/-- One digest of a pair is still absent one tick period after commit (R34). -/
def State.digestMissing (i : LeafId) (tick : Nat) (id : Option Nat) (s : State) : State :=
  let a := s.hinge.agree
  match a.digests.find? fun e => e.1 == i && e.2.tick == tick && e.2.id == id with
  | none => s
  | some e =>
    let s1 := s.setHinge { s.hinge with agree := a.dropDigests tick id }
    s1.agreeFault { cause := 2, tick := tick, kind := 0, index := id.getD 0xFFFF,
                    digA := if i = .A then e.2.digest else 0, digB := if i = .A then 0 else e.2.digest }

/-- A leaf enters reset while comparison is active (R35): SINGLE set, ACTIVE cleared, PARTNER_DOWN raised, incomplete pairs
discarded. -/
def State.partnerDown (i : LeafId) (s : State) : State :=
  if s.hinge.active then
    let h := (s.hinge.putB Fld.HINGE_AGREE_STAT_SINGLE true).putB Fld.HINGE_AGREE_STAT_ACTIVE false
    let s1 := s.setHinge { h with agree := { h.agree with digests := [], stamps := [], mayStart := false } }
    s1.agreeFault { cause := 5, tick := (s.leaf i.other).tickNum, kind := 0, index := 0xFFFF }
  else s

end Sys2Proof.Machine
end

