-- ==== Sys2Proof/Machine/HostQueue.lean ====
section
/-!
DEFINITION. The host queues (R494 to R503): placing completion records, the hold, the doorbells, enabling and disabling a
pair, and the messages of the completion-queue groups.
-/
namespace Sys2Proof.Machine

/-! ## Queue pairs (R494) -/

/-- A log2 size as it acts: 0 as 1, above 12 as 12. -/
def log2Acts (n : Nat) : Nat := if n = 0 then 1 else if 12 < n then 12 else n

/-- Entries of the submission queue of pair q. -/
def Leaf.sqSize (l : Leaf) (q : Nat) : Nat := 2 ^ log2Acts (l.get (Fld.LEAF_Q_CFG_SQ_LOG2 q))

/-- Entries of the completion queue of pair q. -/
def Leaf.cqSize (l : Leaf) (q : Nat) : Nat := 2 ^ log2Acts (l.get (Fld.LEAF_Q_CFG_CQ_LOG2 q))

/-- Base address of the submission queue of pair q. -/
def Leaf.sqBase (l : Leaf) (q : Nat) : Nat := l.rd64 (Reg.LEAF_Q_SQB_LO q) (Reg.LEAF_Q_SQB_HI q)

/-- Base address of the completion queue of pair q. -/
def Leaf.cqBase (l : Leaf) (q : Nat) : Nat := l.rd64 (Reg.LEAF_Q_CQB_LO q) (Reg.LEAF_Q_CQB_HI q)

/-- A completion slot is free: the tail plus 1, modulo the size, is not the head (R498). -/
def Leaf.cqFree (l : Leaf) (q : Nat) : Bool :=
  (l.get (Fld.LEAF_Q_STAT_CQ_TAIL q) + 1) % l.cqSize q != l.get (Fld.LEAF_Q_CQDB_HEAD q)

/-- Free completion slots of pair q. -/
def Leaf.cqFreeSlots (l : Leaf) (q : Nat) : Nat :=
  let n := l.cqSize q
  n - 1 - (l.get (Fld.LEAF_Q_STAT_CQ_TAIL q) + n - l.get (Fld.LEAF_Q_CQDB_HEAD q)) % n

/-- Commands and records of pair q that will still take a slot (R496). -/
def Leaf.reserved (l : Leaf) (q : Nat) : Nat :=
  (l.host.cmds.filter fun c => c.q == q).length + (l.host.toPlace.filter fun r => r.q == q).length
    + (l.host.hold.filter fun r => r.q == q).length

/-! ## Completion records (R500) -/

/-- A completion record's 32 bytes, PHASE and HELD clear (Table 19.6). -/
def recordBytes (tag status source flags tOut tOldest digest : Nat) : List Byte :=
  leBytes 4 tag ++ leBytes 2 status ++ leBytes 1 source ++ leBytes 1 flags ++ leBytes 8 tOut ++ leBytes 8 tOldest
    ++ leBytes 8 digest

/-- A record on its way to queue pair q. -/
def Leaf.addRecord (l : Leaf) (q : Nat) (bs : List Byte) : Leaf :=
  { l with host := { l.host with toPlace := l.host.toPlace ++ [{ q := q, bytes := bs }] } }

/-- The record of a host command: written now, SOURCE the leaf and the unit (R500). -/
def Leaf.cmdRecord (l : Leaf) (c : HostCmd) (status unit tOldest digest : Nat) : Leaf :=
  l.addRecord c.q (recordBytes c.tag status (128 * l.id.toNat + unit) 0 l.nowNs tOldest digest)

/-- A record's FLAGS with PHASE and HELD (R497, R498). -/
def stampRecord (bs : List Byte) (phase held : Bool) : List Byte :=
  putBytes bs 7 [BitVec.ofNat 8 (leAt bs 7 1 + 128 * b2n phase + 16 * b2n held)]

/-- The function that writes a pair's queues: PF1 while the pair's window is enabled (R492). -/
def Hinge.queueFn (h : Hinge) (i : LeafId) (q : Nat) : Nat := if h.winOn (windowOf i (q / 8)) then 1 else 0

/-- Slots of pair q that fetched commands have reserved and not yet used (R496). -/
def Leaf.cmdSlots (l : Leaf) (q : Nat) : Nat := (l.host.cmds.filter fun c => c.q == q).length

/-- A pair's completion queue can take a record now (R497). A slot that a fetched command has reserved is not free for the
record of another output. DEDUCED from R496. -/
def canPlace (h : Hinge) (l : Leaf) (q : Nat) : Bool :=
  decide (l.cmdSlots q < l.cqFreeSlots q) && (l.bit (Fld.LEAF_Q_CFG_CQ_LOC q) || h.canDma (h.queueFn l.id q))

/-! ## Group messages (R503) -/

/-- The message of group g is due (R503): `now` is the local count of the group's leaf. -/
def Hinge.groupDue (h : Hinge) (g now : Nat) : Bool :=
  let acc := h.get (Fld.HINGE_PCIE_CQG_STAT_ACC g)
  let t := h.get (Fld.HINGE_PCIE_CQG_COAL_TIME_US g)
  acc != 0 && (decide (max 1 (h.get (Fld.HINGE_PCIE_CQG_COAL_COUNT g)) ≤ acc) || t == 0
    || match alGet h.cqFirst g with | none => false | some c0 => decide (t * 78125 ≤ (now - c0) * 100))

/-- The message of group g sent or held, its accumulator reset (R503, R504). -/
def Hinge.groupSend (h : Hinge) (g : Nat) : Hinge :=
  let h1 := ({ h with cqFirst := alDel g h.cqFirst }).put (Fld.HINGE_PCIE_CQG_STAT_ACC g) 0
  if h.winOn g then h1.message 1 g else h1.message 0 (129 + g)

/-- A message sent when due. -/
def Hinge.groupPump (h : Hinge) (g now : Nat) : Hinge := if h.groupDue g now then h.groupSend g else h

/-- A record placed in a queue of group g counts (R503). -/
def Hinge.groupCount (h : Hinge) (g now : Nat) : Hinge :=
  let h1 := h.put (Fld.HINGE_PCIE_CQG_STAT_ACC g) (satInc 255 (h.get (Fld.HINGE_PCIE_CQG_STAT_ACC g)))
  let h2 := match alGet h1.cqFirst g with
    | none => { h1 with cqFirst := alSet g now h1.cqFirst }
    | some _ => h1
  h2.groupPump g now

/-! ## Placing records (R497, R498) -/

/-- A record written to its queue: slot, phase, tail, and the group's accumulator when IEN is 1. -/
def writeRecord (h : Hinge) (l : Leaf) (r : OutRec) (held : Bool) : Hinge × Leaf :=
  let q := r.q % 64
  let tail := l.get (Fld.LEAF_Q_STAT_CQ_TAIL q)
  let phase := l.bit (Fld.LEAF_Q_STAT_PHASE q)
  let bs := stampRecord r.bytes phase held
  let a := l.cqBase q + 32 * tail
  let next := (tail + 1) % l.cqSize q
  let l1 := (l.put (Fld.LEAF_Q_STAT_CQ_TAIL q) next).putB (Fld.LEAF_Q_STAT_PHASE q) (if next = 0 then !phase else phase)
  let g := windowOf l.id (q / 8)
  let hl := if l.bit (Fld.LEAF_Q_CFG_CQ_LOC q) then (h, l1.dramWrite a bs)
    else ({ h with sent := h.sent ++ [HostOut.memWrite (h.queueFn l.id q) a bs] }, l1)
  if l.bit (Fld.LEAF_Q_CFG_IEN q) then (hl.1.groupCount g l.count, hl.2) else hl

/-- LEAF_CQ_HOLD shows the hold. -/
def Leaf.showHold (l : Leaf) : Leaf := l.put Fld.LEAF_CQ_HOLD_COUNT l.host.hold.length

/-- A record put into the hold, or lost with fault CQ_HOLD_FULL when the hold is full (R497). -/
def Leaf.holdRecord (l : Leaf) (r : OutRec) : Leaf :=
  if l.host.hold.length < 65536 then ({ l with host := { l.host with hold := l.host.hold ++ [r] } }).showHold
  else (l.inc Fld.LEAF_CQ_HOLD_DROP_COUNT).notify 0x08 { block := 0x00 }

/-- A record placed in its queue at once, or in the hold; records never bypass one another within a queue (R497). -/
def placeRecord (hl : Hinge × Leaf) (r : OutRec) : Hinge × Leaf :=
  if canPlace hl.1 hl.2 r.q && !hl.2.host.hold.any fun x => x.q == r.q then writeRecord hl.1 hl.2 r false
  else (hl.1, hl.2.holdRecord r)

/-- Every record on its way placed. -/
def placeAll (h : Hinge) (l : Leaf) : Hinge × Leaf :=
  l.host.toPlace.foldl placeRecord (h, { l with host := { l.host with toPlace := [] } })

/-- A list without its first element that satisfies p. -/
def dropFirst {α : Type} (p : α → Bool) : List α → List α
  | [] => []
  | x :: t => if p x then t else x :: dropFirst p t

/-- The first held record of each queue, in the hold's order. -/
def firstOfQueues (hold : List OutRec) : List OutRec :=
  hold.foldl (fun acc r => if acc.any fun x => x.q == r.q then acc else acc ++ [r]) []

/-- A held record moved to its queue, marked HELD, when one can be taken (R497). -/
def drainHold (h : Hinge) (l : Leaf) : Hinge × Leaf :=
  match (firstOfQueues l.host.hold).find? fun r => canPlace h l r.q with
  | none => (h, l)
  | some r =>
    let l1 := ({ l with host := { l.host with hold := dropFirst (fun x => x.q == r.q) l.host.hold } }).showHold
    writeRecord h l1 r true

/-! ## Enabling and disabling (R494, R499) -/

/-- A pair started: heads and tails 0, phase 1 (R494). -/
def Leaf.startPair (l : Leaf) (q : Nat) : Leaf :=
  let l1 := (l.put (Fld.LEAF_Q_SQDB_TAIL q) 0).put (Fld.LEAF_Q_CQDB_HEAD q) 0
  ((l1.put (Fld.LEAF_Q_STAT_CQ_TAIL q) 0).put (Fld.LEAF_Q_STAT_SQ_HEAD q) 0).putB (Fld.LEAF_Q_STAT_PHASE q) true

/-- BUSY of a pair being disabled ends once its records are placed (R499). -/
def Leaf.settleBusy (l : Leaf) : Leaf :=
  (List.range 64).foldl (fun m q =>
    if m.bit (Fld.LEAF_Q_CFG_BUSY q) && m.reserved q == 0 then m.putB (Fld.LEAF_Q_CFG_BUSY q) false else m) l

/-- The host commands of a leaf replaced. -/
def Leaf.setCmds (l : Leaf) (cs : List HostCmd) : Leaf := { l with host := { l.host with cmds := cs } }

/-- SQUASHED records for the fetched SEARCH and COPY commands of a pair (R499); the caller drops their work. -/
def Leaf.squashPair (l : Leaf) (q : Nat) : Leaf :=
  let dead := l.host.cmds.filter fun c => c.q == q && (c.opcode == 1 || c.opcode == 2 || c.opcode == 3)
  let l1 := l.setCmds (l.host.cmds.filter fun c => !(c.q == q && (c.opcode == 1 || c.opcode == 2 || c.opcode == 3)))
  dead.foldl (fun m c => m.cmdRecord c 0x0A (if c.opcode = 1 then 0x10 else 0x20) 0 0) l1

/-! ## Doorbells (R498, R499) -/

/-- A doorbell value is refused: not below the queue size, or the pair is off, or a head would pass its tail. -/
def Leaf.sqBad (l : Leaf) (q v : Nat) : Bool := !l.bit (Fld.LEAF_Q_CFG_EN q) || decide (l.sqSize q ≤ v)

/-- A head doorbell is refused: as sqBad, or the head would move past the completion tail. -/
def Leaf.cqBad (l : Leaf) (q v : Nat) : Bool :=
  let n := l.cqSize q
  let head := l.get (Fld.LEAF_Q_CQDB_HEAD q)
  let tail := l.get (Fld.LEAF_Q_STAT_CQ_TAIL q)
  !l.bit (Fld.LEAF_Q_CFG_EN q) || decide (n ≤ v) || decide ((tail + n - head) % n < (v + n - head) % n)

end Sys2Proof.Machine
end

