-- ==== Sys2Proof/Machine/Boot.lean ====
section
/-!
DEFINITION. Settling after a command, resets (R19 to R23, R509, R534), booting (R513 to R520) and firmware update (R521).
-/
namespace Sys2Proof.Machine

/-! ## Settling: what follows at once from any change -/

/-- HOLDOVER, the level sources, SAFE_N and due messages of a leaf brought up to date. -/
def Leaf.settle (l : Leaf) : Leaf :=
  if l.boot.held then l else (l.refreshHoldover.refreshLevels.refreshSafe).pump

/-- The leaf's messages handed to the hinge: controller vector v is PF0 vector v of Leaf A, 64 + v of Leaf B (R490). -/
def Hinge.takeMsgs (h : Hinge) (l : Leaf) : Hinge :=
  l.host.irqMsgs.foldl (fun k v => k.message 0 (v + 64 * l.id.toNat)) h

/-- Records placed, the leaf settled and its messages handed over. -/
def settleLeaf (i : LeafId) (s : State) : State :=
  let hl := placeAll s.hinge (s.leaf i)
  let l0 := if hl.2.boot.held then hl.2 else hl.2.putB Fld.LEAF_STATUS_MIRROR hl.1.mirror
  let l := (l0.settleBusy).settle
  ({ s with hinge := hl.1.takeMsgs l }).setLeaf i { l with host := { l.host with irqMsgs := [] } }

/-- What follows at once from any command: records are placed, pins, levels and messages follow (R471, R473, R497, R532). -/
def State.settle (s : State) : State := settleLeaf .B (settleLeaf .A s)

/-! ## Resets -/

/-- Every wake latch that is set is taken as one event of source 0x050 + n and cleared (R479). -/
def Leaf.takeLatches (l : Leaf) : Leaf :=
  (List.range 4).foldl (fun m n =>
    if m.aon.wakeLatch.getD n false && m.irqRuns then
      ({ m with aon := { m.aon with wakeLatch := setAt m.aon.wakeLatch n false } }).raise (0x050 + n)
    else m) l

/-- The record kept in FLT_PREV at a reset (R534): that of the RESET fault that caused it, else that of the STOP fault that
the reset follows, else the one already kept. -/
def Leaf.prevRecord (l : Leaf) (fault : Option (Nat × Nat)) : List Byte :=
  match fault with
  | some (code, block) => l.faultBytes code 2 { block := block }
  | none => if l.flt.stopRecord.isEmpty then l.aon.prev else l.flt.stopRecord

/-- The always-on domain after a leaf reset: the kept record, and one more reset counted (R534, R539). -/
def Leaf.aonAfterReset (l : Leaf) (fault : Option (Nat × Nat)) : AlwaysOn :=
  { l.aon with prev := l.prevRecord fault, life := modAt l.aon.life 8 (· + 1) }

/-- A leaf reset asserted: every block at its reset values; the always-on domain, the fuses, flash and the firmware copies
stay (R509). -/
def Leaf.reset (l : Leaf) (fault : Option (Nat × Nat)) : Leaf :=
  Leaf.inReset l.id l.fuses (l.aonAfterReset fault) l.flash l.boot.fw0 l.boot.fw1

/-- A leaf's reset released: boot phase 1 runs, and edges caught meanwhile are taken (R479, R513). -/
def Leaf.release (l : Leaf) : Leaf := ({ l with boot := { l.boot with held := false } }).takeLatches

/-- The boot registers of a leaf at their reset values with PHASE `p` (R523). -/
def Hinge.resetBoot (h : Hinge) (i : LeafId) (p : Nat) : Hinge :=
  let h1 := (h.wr (Reg.HINGE_BOOT_STAT (bootIx i)) (regReset (Reg.HINGE_BOOT_STAT (bootIx i))).toNat).wr
    (Reg.HINGE_BOOT_TIME (bootIx i)) 0
  h1.put (Fld.HINGE_BOOT_STAT_PHASE (bootIx i)) p

/-- A reset of one leaf by cause `c` of Table 1.15 (R19, R20, R23, R35). A request for a leaf whose reset is already asserted
is ignored. `fault` is the code and block of the RESET fault that causes it. -/
def State.leafReset (i : LeafId) (c : Nat) (fault : Option (Nat × Nat)) (s : State) : State :=
  if (s.leaf i).boot.held then s
  else
    let h := ((s.hinge.setUp i false).setLastRst i c).resetBoot i 1
    (({ s with hinge := h }).setLeaf i ((s.leaf i).reset fault).release).partnerDown i

/-- The hinge reset asserted with cause `c` of HINGE_RST_STAT: the hinge and both leaves (R19). -/
def State.hingeReset (c : Nat) (s : State) : State :=
  { s with
    leafA := s.leafA.reset none
    leafB := s.leafB.reset none
    hinge := { Hinge.inReset s.leafA.fuses.bootSrc s.leafB.fuses.bootSrc c with
      rid0 := s.hinge.rid0, rid1 := s.hinge.rid1, aux := s.hinge.aux } }

/-- Power-on: everything but fuses, flash and firmware copies, and then a hinge reset (R509). -/
def State.powerOn (s : State) : State :=
  { s with
    leafA := Leaf.inReset .A s.leafA.fuses {} s.leafA.flash s.leafA.boot.fw0 s.leafA.boot.fw1
    leafB := Leaf.inReset .B s.leafB.fuses {} s.leafB.flash s.leafB.boot.fw0 s.leafB.boot.fw1
    hinge := Hinge.inReset s.leafA.fuses.bootSrc s.leafB.fuses.bootSrc 0 }

/-- The hinge reset ends: both leaves boot (R513, R556). -/
def State.hingeRelease (s : State) : State :=
  if s.hinge.held then
    { s with
      hinge := (({ s.hinge with held := false }).put (Fld.HINGE_BOOT_STAT_PHASE 0) 1).put (Fld.HINGE_BOOT_STAT_PHASE 1) 1
      leafA := s.leafA.release
      leafB := s.leafB.release }
  else s

/-! ## Firmware images (R515, R516) -/

/-- A firmware image is authentic, apart from its SVN (R516): MAGIC, VER_MAJOR and LENGTH valid, the signature section laid
out as R515 says, the key the fused one, the signature right. -/
def fwAuthentic (keyHash : Nat) (m : List Byte) : Bool :=
  let n := m.length
  let s := sliceBytes m (n - 144) 144
  let x := beAt s 4 32
  let y := beAt s 36 32
  decide (208 ≤ n) && decide (n ≤ 2 ^ 25) && leAt m 0 4 == 0x4957464B && leAt m 4 2 == 1 && leAt m 8 4 == n
    && leAt s 0 1 == 0 && leAt s 1 1 == 1 && sha256 (sliceBytes s 4 64) == keyHash
    && ecdsaVerify (m.take (n - 144)) x y (beAt s 68 32) (beAt s 100 32)

/-- The firmware copy an image becomes. -/
def fwOf (m : List Byte) : FwCopy :=
  { readable := true, authentic := true, svn := leAt m 6 2, version := leAt m 16 4, raiseSvn := bitOf (leAt m 12 4) 0 }

/-- A copy can be booted: readable, authentic, SVN at least the fused minimum (R516). -/
def FwCopy.bootable (f : FwCopy) (minSvn : Nat) : Bool := f.readable && f.authentic && decide (minSvn ≤ f.svn)

/-- The error code of a flash boot whose copies both fail (Table 20.5). -/
def fwError (a b : FwCopy) : Nat :=
  if !a.readable && !b.readable then 5
  else if !(a.readable && a.authentic) && !(b.readable && b.authentic) then 6
  else 7

/-! ## Boot phases (R513 to R519) -/

/-- PHASE of a leaf's boot. -/
def Hinge.phase (h : Hinge) (i : LeafId) : Nat := h.get (Fld.HINGE_BOOT_STAT_PHASE (bootIx i))

/-- PHASE of a leaf's boot set. -/
def Hinge.setPhase (h : Hinge) (i : LeafId) (p : Nat) : Hinge := h.put (Fld.HINGE_BOOT_STAT_PHASE (bootIx i)) p

/-- A boot that fails (R517). -/
def Hinge.bootFail (h : Hinge) (i : LeafId) (code : Nat) : Hinge :=
  ((h.setPhase i 0xF).put (Fld.HINGE_BOOT_STAT_ERR (bootIx i)) code).putB (Fld.HINGE_BOOT_STAT_DONE_EV (bootIx i)) true

/-- The firmware source of a leaf (R514): 3 acts as 2. -/
def Hinge.bootSrc (h : Hinge) : LeafId → Nat
  | .A => min 2 (h.get Fld.HINGE_BOOT_CFG_SRC_A)
  | .B => min 2 (h.get Fld.HINGE_BOOT_CFG_SRC_B)

/-- The leaf's boot state replaced. -/
def Leaf.setBoot (l : Leaf) (b : BootState) : Leaf := { l with boot := b }

/-- The copy a flash boot runs, in order 0, 1 (R514). -/
def Leaf.pickCopy (l : Leaf) : Option (Nat × FwCopy) :=
  if l.boot.fw0.bootable l.fuses.minSvn then some (0, l.boot.fw0)
  else if l.boot.fw1.bootable l.fuses.minSvn then some (1, l.boot.fw1)
  else none

/-- The end of phase 5: firmware read and authenticated, or host wait, or failure (R514 to R517). -/
def State.bootPhase5 (i : LeafId) (s : State) : State :=
  let l := s.leaf i
  if s.hinge.bootSrc i = 1 then s.onHinge fun h => h.setPhase i 8
  else
    let b0 := l.boot.fw0.bootable l.fuses.minSvn
    let b := { l.boot with auth0 := b0, auth1 := !b0 && l.boot.fw1.bootable l.fuses.minSvn, booting := l.pickCopy }
    let s1 := s.setLeaf i (l.setBoot b)
    match l.pickCopy with
    | some _ => s1.onHinge fun h => h.setPhase i 6
    | none =>
      if s.hinge.bootSrc i = 2 then s1.onHinge fun h => h.setPhase i 8
      else s1.onHinge fun h => h.bootFail i (fwError l.boot.fw0 l.boot.fw1)

/-- The lifetime counters with those kept in flash added once after power-on (R539). DEDUCED: a leaf reset, which keeps the
always-on domain, adds nothing. -/
def Leaf.restoreLife (l : Leaf) (kept : List Nat) : Leaf :=
  if l.aon.lifeRestored then l
  else
    { l with aon := { l.aon with
        lifeRestored := true
        life := (List.range 12).map fun n =>
          if n = 11 then max (l.aon.life.getD 11 0) (kept.getD 11 0) else l.aon.life.getD n 0 + kept.getD n 0 } }

/-- The flash address of the lifetime record on channel c (R539). -/
def lifeAddr (c : Nat) : Nat := c * 2 ^ 37 + 0x0FFFC000

/-- A lifetime record: sequence number, counters, CRC-64 (R539). DESIGN CHOICE: the order of the fields. -/
def lifeRecord (seq : Nat) (life : List Nat) : List Byte :=
  let body := leBytes 8 seq ++ (List.range 12).flatMap fun n => leBytes 8 (life.getD n 0)
  body ++ leBytes 8 (crc64 body)

/-- The lifetime record on channel c, if its CRC is valid: sequence number and counters. -/
def Leaf.readLife (l : Leaf) (c : Nat) : Option (Nat × List Nat) :=
  let bs := l.flashRead (lifeAddr c) 112
  if leAt bs 0 8 != 0 && crc64 (bs.take 104) == leAt bs 104 8 then
    some (leAt bs 0 8, (List.range 12).map fun n => leAt bs (8 + 8 * n) 8)
  else none

/-- The lifetime counters restored at phase 6 from the valid record with the higher sequence number; with none valid they
start at 0 and MEM_kind 0x46 is logged (R539). -/
def Leaf.loadLife (l : Leaf) : Leaf :=
  if l.aon.lifeRestored then l
  else
    match l.readLife 0, l.readLife 1 with
    | none, none => (l.restoreLife []).notify 0x46 { block := 0x06, addr := lifeAddr 0, flags := 1 }
    | some a, none => ({ l with aon := { l.aon with lifeSeq := a.1, lifeChan := 1 } }).restoreLife a.2
    | none, some b => ({ l with aon := { l.aon with lifeSeq := b.1, lifeChan := 0 } }).restoreLife b.2
    | some a, some b =>
      if a.1 < b.1 then ({ l with aon := { l.aon with lifeSeq := b.1, lifeChan := 0 } }).restoreLife b.2
      else ({ l with aon := { l.aon with lifeSeq := a.1, lifeChan := 1 } }).restoreLife a.2

/-- The leaf at the end of boot phase 6: firmware version written, IDLE, or FAULT after a STOP fault seen in BOOT (R513,
R526); RAISE_SVN raises the fused minimum (R516). -/
def Leaf.bootDone (l : Leaf) (f : FwCopy) : Leaf :=
  let l1 := (l.loadLife).wr Reg.LEAF_FW_VER f.version
  let l2 := l1.setState 2
  let l3 := { l2 with
    fuses := if f.raiseSvn then { l2.fuses with minSvn := max l2.fuses.minSvn f.svn } else l2.fuses,
    flt := { l2.flt with firstIdle := true } }
  if l3.flt.stopPend then l3.enterFault 2 else l3

/-- The end of phase 6 (R513), `us` microseconds after the release of the reset by the hinge's clock. -/
def State.bootPhase6 (i : LeafId) (us : Nat) (s : State) : State :=
  let l := s.leaf i
  match l.boot.booting with
  | none => s
  | some (src, f) =>
    let l1 := l.bootDone f
    let h := ((s.hinge.setUp i true).setPhase i 7).putB (Fld.HINGE_BOOT_STAT_DONE_EV (bootIx i)) true
    let h1 := (h.put (Fld.HINGE_BOOT_STAT_COPY (bootIx i)) src).put (Fld.HINGE_BOOT_TIME_US (bootIx i)) us
    ({ s with hinge := h1 }).setLeaf i l1

/-- Boot phase `p` of leaf `i` completes without error and the next begins (Table 20.3). -/
def State.bootNext (i : LeafId) (p us : Nat) (s : State) : State :=
  let l := s.leaf i
  match p with
  | 1 => (s.setLeaf i { l with boot := { l.boot with pll := true }, count := 0 }).onHinge fun h => h.setPhase i 2
  | 2 => s.onHinge fun h => h.setPhase i 3
  | 3 => (s.setLeaf i { l with aon := { l.aon with training := true } }).onHinge fun h => h.setPhase i 4
  | 4 => s.onHinge fun h => h.setPhase i 5
  | 5 => s.bootPhase5 i
  | 6 => s.bootPhase6 i us
  | _ => s

/-- The error code of a phase's outcome, when it is one that phase can have (Table 20.5). -/
def bootErr (p : Nat) : BootOutcome → Option Nat
  | .ok => none
  | .lockstepMismatch => some 1
  | .dramTrain => if p = 3 then some 2 else none
  | .mbist => if p = 4 then some 3 else none
  | .lbist => if p = 4 then some 4 else none
  | .initFailed => if p = 6 then some 9 else none

/-- A boot phase ends (R513). Outside phases 1 to 6 nothing happens. -/
def State.bootPhaseDone (i : LeafId) (c us : Nat) (out : BootOutcome) (s : State) : State :=
  let p := s.hinge.phase i
  if (s.leaf i).boot.held || p == 0 || decide (6 < p) then s
  else
    let s1 := s.onLeaf i fun l => l.adv c
    match bootErr p out with
    | some e => s1.onHinge fun h => h.bootFail i e
    | none => s1.bootNext i p us

/-! ## Host boot (R520) and firmware update (R521) -/

/-- GO of a leaf in host wait: the fetch starts (R520). -/
def State.hostBootGo (i : LeafId) (s : State) : State :=
  if s.hinge.phase i = 8 then s.onLeaf i fun l => l.setBoot { l.boot with hostFetch := true } else s

/-- The host fetch ends (R520): an authentic image goes on to phase 6, any other returns the leaf to host wait with ERR. -/
def State.hostBootDone (i : LeafId) (hostErr : Bool) (image : List Byte) (s : State) : State :=
  let l := s.leaf i
  if s.hinge.phase i = 8 && l.boot.hostFetch then
    let l1 := l.setBoot { l.boot with hostFetch := false }
    let err (e : Nat) : State := (s.setLeaf i l1).onHinge fun h => h.put (Fld.HINGE_BOOT_STAT_ERR (bootIx i)) e
    let m := padTo (s.hinge.get Fld.HINGE_HBOOT_LEN_LEN) image
    if hostErr then err 8
    else if !fwAuthentic l.fuses.fwKeyHash m then err 6
    else if (fwOf m).svn < l.fuses.minSvn then err 7
    else (s.setLeaf i (l1.setBoot { l1.boot with booting := some (2, fwOf m) })).onHinge fun h => h.setPhase i 6
  else s

/-- LEAF_FWU_STAT with a final status (R524). -/
def Leaf.fwuEnd (l : Leaf) (status : Nat) : Leaf :=
  ((((l.putB Fld.LEAF_FWU_STAT_BUSY false).put Fld.LEAF_FWU_STAT_STATUS status)).putB Fld.LEAF_FWU_STAT_DONE true).raise 0x00C

/-- LEAF_FWU_CTRL.GO (R521): refused with INVALID or ACCESS, or the update runs. -/
def Leaf.fwuGo (l : Leaf) : Leaf :=
  let copy := l.get Fld.LEAF_FWU_CTRL_COPY
  let len := l.get Fld.LEAF_FWU_LEN_LEN
  let m := l.dramRead (l.rd64 Reg.LEAF_FWU_SRC_LO Reg.LEAF_FWU_SRC_HI) len
  if l.bit Fld.LEAF_FWU_STAT_BUSY then l.put Fld.LEAF_FWU_STAT_STATUS 0x0B
  else if decide (2 ^ 25 < len) || leAt m 8 4 != len || !(if copy = 0 then l.boot.auth1 else l.boot.auth0) then l.fwuEnd 0x0B
  else if fwAuthentic l.fuses.fwKeyHash m && decide (l.fuses.minSvn ≤ (fwOf m).svn) then
    ({ l with boot := { l.boot with fwuPend := some (copy, fwOf m) } }).putB Fld.LEAF_FWU_STAT_BUSY true
  else l.fwuEnd 0x0E

/-- A write of LEAF_FWU_CTRL. -/
def Leaf.writeFwuCtrl (w : Nat) (l : Leaf) : Leaf :=
  if l.bit Fld.LEAF_FWU_STAT_BUSY then if bitOf w 31 then l.fwuGo else l
  else
    let l1 := l.swWrite Reg.LEAF_FWU_CTRL w
    if bitOf w 31 then l1.fwuGo else l1

/-- The firmware update ends: the named copy is the new image, or is left unreadable when its pages could not be written. -/
def Leaf.fwuDone (ok : Bool) (l : Leaf) : Leaf :=
  match l.boot.fwuPend with
  | none => l
  | some (copy, f) =>
    let g := if ok then f else { f with readable := false }
    let b := { l.boot with fwuPend := none, fw0 := if copy = 0 then g else l.boot.fw0, fw1 := if copy = 0 then l.boot.fw1 else g }
    ((l.setBoot b).lifeAdd 10 (l.get Fld.LEAF_FWU_LEN_LEN)).fwuEnd (if ok then 0 else 9)

end Sys2Proof.Machine
end

