-- ==== Sys2Proof/Machine/Memory.lean ====
section
/-!
DEFINITION. The memory tiers (R191 to R221): where objects lie (R194, R197), the DRAM cache (R200 to R202), flash and DRAM
errors and poisoned objects (R203 to R211), rewrites and write-backs (R212 to R214), refresh (R215 to R217).
-/
namespace Sys2Proof.Machine

/-! ## Objects -/

/-- Object i of the glazed image. -/
def Leaf.obj (l : Leaf) (i : Nat) : Option ObjDesc := l.glz.image.bind fun im => im.objects[i]?

/-- A number rounded up to a multiple of 64. -/
def up64 (n : Nat) : Nat := (n + 63) / 64 * 64

/-- The flash address of object byte o (R194). -/
def flashAddr (base o : Nat) (stripe : Bool) : Nat :=
  let ch := base / 2 ^ 37 % 8
  let ofs := base % 2 ^ 37
  if stripe then
    let i := o / 65536
    (ch + i) % 8 * 2 ^ 37 + ofs + i / 8 * 65536 + o % 65536
  else ch * 2 ^ 37 + ofs + o

/-- The committed copy of WRITABLE object i is the upper half (R197). -/
def Leaf.upperHalf (l : Leaf) (i : Nat) : Bool := bitOf (l.rd (Reg.MEM_WHALF (i / 32))) (i % 32)

/-- The DRAM address of the committed copy of RESIDENT_DRAM object i (R197). -/
def Leaf.objDram (l : Leaf) (i : Nat) (o : ObjDesc) : Nat :=
  o.dram + (if o.writable && l.upperHalf i then up64 o.size else 0)

/-- The DRAM address of the working copy of WRITABLE object i. -/
def Leaf.objWork (l : Leaf) (i : Nat) (o : ObjDesc) : Nat :=
  o.dram + (if o.writable && !l.upperHalf i then up64 o.size else 0)

/-- The key of byte `ofs` of PINNED_SRAM object i. -/
def sramKey (i ofs : Nat) : Nat := i * 2 ^ 40 + ofs

/-- The bytes of a PINNED_SRAM object. -/
def Leaf.sramRead (l : Leaf) (i ofs n : Nat) : List Byte :=
  (List.range n).map fun k => sparseGet memDefault l.mem.sram (sramKey i (ofs + k))

/-- Bytes stored into a PINNED_SRAM object. -/
def Leaf.sramWrite (l : Leaf) (i ofs : Nat) (bs : List Byte) : Leaf :=
  { l with mem := { l.mem with sram := memPutList l.mem.sram (sramKey i ofs) bs } }

/-- Bytes of an object's primary flash copy (R194). -/
def Leaf.flashObj (l : Leaf) (o : ObjDesc) (ofs n : Nat) : List Byte :=
  (List.range n).map fun k => sparseGet memDefault l.flash (flashAddr o.primary (ofs + k) o.striped)

/-- Bytes stored to a copy of an object in flash. -/
def Leaf.flashObjPut (l : Leaf) (base : Nat) (stripe : Bool) : Nat → List Byte → Leaf
  | _, [] => l
  | ofs, b :: t =>
    Leaf.flashObjPut { l with flash := sparseSet memDefault (flashAddr base ofs stripe) b l.flash } base stripe (ofs + 1) t

/-- The committed contents of object i, byte ofs to ofs + n − 1 (R180, R196). -/
def Leaf.objBytes (l : Leaf) (i ofs n : Nat) : List Byte :=
  match l.obj i with
  | none => List.replicate n 0
  | some o =>
    match o.place with
    | 0 => l.dramRead (l.objDram i o + ofs) n
    | 3 => l.sramRead i ofs n
    | _ => l.flashObj o ofs n

/-- A committed write to object i: both copies of a WRITABLE object hold it once the new working copy has been brought up to
date (R197). -/
def Leaf.objWrite (l : Leaf) (i ofs : Nat) (bs : List Byte) : Leaf :=
  match l.obj i with
  | none => l
  | some o =>
    match o.place with
    | 0 =>
      let l1 := l.dramWrite (o.dram + ofs) bs
      if o.writable then l1.dramWrite (o.dram + up64 o.size + ofs) bs else l1
    | 3 => l.sramWrite i ofs bs
    | _ => l

/-- The number of committed writes to object i (R343). -/
def Leaf.objVers (l : Leaf) (i : Nat) : Nat := (alGet l.mem.vers i).getD 0

/-- The objects, each with its index. -/
def Leaf.objects (l : Leaf) : List (Nat × ObjDesc) :=
  match l.glz.image with
  | none => []
  | some im => (List.range im.objects.length).zip im.objects

/-- The roles of the copies of a written WRITABLE object swapped at a commit (R197). -/
def Leaf.swapHalf (l : Leaf) (i : Nat) : Leaf :=
  let a := Reg.MEM_WHALF (i / 32)
  let l1 := l.wr a (l.rd a ^^^ 2 ^ (i % 32))
  { l1 with mem := { l1.mem with vers := alSet i (l.objVers i + 1) l1.mem.vers } }

/-! ## Poison (R207) -/

/-- Object i is poisoned. -/
def Leaf.poisoned (l : Leaf) (i : Nat) : Bool := bitOf (l.rd (Reg.MEM_POISON_MAP (i / 32))) (i % 32)

/-- MEM_STAT.POISON_ANY follows the map. -/
def Leaf.showPoison (l : Leaf) : Leaf :=
  l.putB Fld.MEM_STAT_POISON_ANY ((List.range 128).any fun w => l.rd (Reg.MEM_POISON_MAP w) != 0)

/-- Object i is poisoned: bit, POISON_ANY, one record; nothing more while it stays poisoned (R207). -/
def Leaf.poisonWith (flags i kind addr level b28 : Nat) (l : Leaf) : Leaf :=
  if l.poisoned i then l
  else ((l.orReg (Reg.MEM_POISON_MAP (i / 32)) (2 ^ (i % 32))).putB Fld.MEM_STAT_POISON_ANY true).memError kind addr i level b28 flags

/-- Object i is poisoned by an error that was not injected. -/
def Leaf.poisonObj (i kind addr level b28 : Nat) (l : Leaf) : Leaf := l.poisonWith 0 i kind addr level b28

/-- A consumer receives POISON from object i: counted once per tick (R207). -/
def Leaf.receipt (consumer i : Nat) (l : Leaf) : Leaf :=
  if l.mem.receipts.contains (consumer, i) then l
  else
    ({ l with mem := { l.mem with receipts := l.mem.receipts ++ [(consumer, i)] } }.inc Fld.MEM_POISON_CNT_COUNT).bump 6 14

/-- The poison of object i cleared: the bit, and its cache granules emptied (R211). -/
def Leaf.clearPoison (i : Nat) (l : Leaf) : Leaf :=
  let l1 := l.andNotReg (Reg.MEM_POISON_MAP (i / 32)) (2 ^ (i % 32))
  let c := l1.mem.cache.filter fun g => g.obj != i
  (({ l1 with mem := { l1.mem with cache := c } }).put Fld.MEM_CACHE_STAT_VALID c.length).showPoison

/-- A clearing takes effect at step 7 of a later boundary of a TICKING leaf, else at once (R211). -/
def Leaf.scheduleClear (i : Nat) (l : Leaf) : Leaf :=
  if l.ticking then { l with mem := { l.mem with clears := l.mem.clears ++ [i] } } else l.clearPoison i

/-- The clearings that wait take effect (R211, step 7). -/
def Leaf.runClears (l : Leaf) : Leaf :=
  l.mem.clears.foldl (fun m i => m.clearPoison i) { l with mem := { l.mem with clears := [] } }

/-! ## Flash reads (R203 to R205) -/

/-- The flash manager's block of an address. DESIGN CHOICE: the spec gives no block size; a 16 KiB page stands for it. -/
def flashPage (a : Nat) : Nat := a / 16384

/-- A codeword read that succeeded at a read level is counted; level 5 or above schedules a refresh (R203). -/
def Leaf.levelOk (addr level : Nat) (l : Leaf) : Leaf :=
  let l1 := l.bump 6 (1 + min 8 level)
  if 5 ≤ level then { l1 with mem := { l1.mem with refresh := l1.mem.refresh ++ [flashPage addr] } } else l1

/-- The lost marker of a codeword removed: its page has been rewritten. -/
def Leaf.dropLost (p : Nat → Bool) (l : Leaf) : Leaf := { l with mem := { l.mem with lost := l.mem.lost.filter fun a => !p a } }

/-- The flash address of codeword `cw` of the object's mirror copy (R194). -/
def ObjDesc.mirrorAddr (o : ObjDesc) (addr : Nat) : Nat := o.mirror + (addr - o.primary)

/-- What a read of the codeword at flash address `addr` on behalf of object i does (R203 to R205): false when the object is
poisoned by it (or, for blind work, when the token carries POISON). -/
def Leaf.codeword (i : Nat) (o : ObjDesc) (addr : Nat) (blind : Bool) (r : ReadOutcome) (l : Leaf) : Bool × Leaf :=
  let lostP := l.mem.lost.contains addr
  match (if lostP then none else r.primary) with
  | some lvl => (true, if blind then l.bump 12 5 else l.levelOk addr lvl)
  | none =>
    let m := o.mirrorAddr addr
    match (if o.mirrored && !l.mem.lost.contains m then r.mirror else none) with
    | some lvl =>
      if blind then (true, l.bump 12 5)
      else
        let l1 := (l.levelOk m lvl).dropLost fun a => flashPage a == flashPage addr
        (true, (l1.memError 0x04 addr i (if lostP then 0 else 8) 2 0).raise 0x061)
    | none =>
      if blind then (false, l.bump 12 6)
      else (false, l.poisonObj i 0x05 addr (if lostP then 0 else 8) (if o.mirrored then 2 else 0))

/-- The flash addresses of the codewords that bytes ofs to ofs + n − 1 of an object lie in. -/
def ObjDesc.codewords (o : ObjDesc) (ofs n : Nat) : List Nat :=
  (List.range ((ofs + n + 4095) / 4096 - ofs / 4096)).map fun k => flashAddr o.primary (4096 * (ofs / 4096 + k)) o.striped

/-- The lost codewords of a range of an object, read: false when one of them poisons it (R216). -/
def Leaf.readLost (i : Nat) (o : ObjDesc) (ofs n : Nat) (blind : Bool) (l : Leaf) : Bool × Leaf :=
  let cws := l.mem.lost.filter fun a => (o.codewords ofs n).contains a
  cws.foldl (fun acc a => if acc.1 then acc.2.codeword i o a blind ⟨some 0, some 0⟩ else acc) (true, l)

/-- The object and offset of a flash address: the primary copy it lies in. -/
def ObjDesc.flashOfs (o : ObjDesc) (addr : Nat) : Option Nat :=
  if o.primary = 0 then none
  else
    let bc := o.primary / 2 ^ 37 % 8
    let bo := o.primary % 2 ^ 37
    let c := addr / 2 ^ 37
    let a := addr % 2 ^ 37
    if a < bo then none
    else
      let d := a - bo
      let ofs := if o.striped then ((c + 8 - bc) % 8 + 8 * (d / 65536)) * 65536 + d % 65536 else d
      if ofs < o.size ∧ (o.striped ∨ c = bc) then some ofs else none

/-- The object whose primary copy holds a flash address. -/
def Leaf.objAtFlash (l : Leaf) (addr : Nat) : Option (Nat × ObjDesc) := l.objects.find? fun e => (e.2.flashOfs addr).isSome

/-- A codeword read completes (R203): on behalf of the object it lies in, else counted only. -/
def Leaf.flashReadDone (addr : Nat) (r : ReadOutcome) (l : Leaf) : Leaf :=
  let a := addr / 4096 * 4096
  match l.objAtFlash a with
  | some (i, o) => if l.poisoned i then l else (l.codeword i o a false r).2
  | none => match r.primary with | some lvl => l.levelOk a lvl | none => l

/-! ## The DRAM cache (R200 to R202) -/

/-- GRANULES as it acts. -/
def Leaf.cacheSize (l : Leaf) : Nat := min 23296 (l.get Fld.MEM_CACHE_SIZE_GRANULES)

/-- The base of the cache partition. -/
def Leaf.cacheBase (l : Leaf) : Nat := l.get Fld.MEM_CACHE_BASE_LO_BASE * 2 ^ 21 + l.get Fld.MEM_CACHE_BASE_HI_BASE * 2 ^ 32

/-- A DRAM address lies in the cache partition. -/
def Leaf.inCache (l : Leaf) (a : Nat) : Bool :=
  decide (l.cacheBase ≤ a) && decide (a < l.cacheBase + l.cacheSize * 2 ^ 21)

/-- The cache replaced. -/
def Leaf.setCache (l : Leaf) (c : List Granule) : Leaf :=
  ({ l with mem := { l.mem with cache := c } }).put Fld.MEM_CACHE_STAT_VALID c.length

/-- The fetches replaced. -/
def Leaf.setFetches (l : Leaf) (f : List Fetch) : Leaf := { l with mem := { l.mem with fetches := f } }

/-- How a touch of a granule is served. -/
inductive Touch where
  | hit
  | wait
  | bypass
  deriving DecidableEq, Repr

/-- A free slot of the partition: one that no granule and no fetch holds. -/
def Leaf.freeSlot (l : Leaf) : Option Nat :=
  if l.mem.cache.length + l.mem.fetches.length < l.cacheSize then
    (List.range (l.mem.cache.length + l.mem.fetches.length + 1)).find? fun s =>
      !(l.mem.cache.any fun g => g.slot == s) && !(l.mem.fetches.any fun f => f.slot == s)
  else none

/-- A read touches granule g of object i (R200, R201). Blind work's own fetches, evictions and bypasses count in the SPEC
class (R202). -/
def Leaf.touch (i g : Nat) (blind : Bool) (l : Leaf) : Touch × Leaf :=
  match l.mem.cache.find? fun e => e.obj == i && e.gran == g with
  | some e =>
    let c := (l.mem.cache.filter fun x => !(x.obj == i && x.gran == g)) ++ [{ e with tick := l.tickNum }]
    (.hit, if blind then l.setCache c else (l.setCache c).bump 6 10)
  | none =>
    if l.mem.fetches.any fun f => f.obj == i && f.gran == g then
      (.wait, l.setFetches (l.mem.fetches.map fun f =>
        if f.obj == i && f.gran == g then { f with blind := f.blind && blind } else f))
    else
      let l1 := if blind then l.bump 12 2 else l.bump 6 11
      match l1.freeSlot with
      | some s => (.wait, l1.setFetches (l1.mem.fetches ++ [{ obj := i, gran := g, slot := s, blind := blind }]))
      | none =>
        match l1.mem.cache.find? fun e => e.tick != l1.tickNum with
        | some v =>
          let l2 := (l1.setCache (l1.mem.cache.filter fun x => !(x.obj == v.obj && x.gran == v.gran)))
          let l3 := if blind then l2.bump 12 3 else l2.bump 6 12
          (.wait, l3.setFetches (l3.mem.fetches ++ [{ obj := i, gran := g, slot := v.slot, blind := blind }]))
        | none => (.bypass, if blind then l1.bump 12 4 else l1.bump 6 13)

/-- The codewords of a fetched granule with their outcomes; those without one are read at level 0. -/
def zipReads (cws : List Nat) (rs : List ReadOutcome) : List (Nat × ReadOutcome) :=
  (List.range cws.length).map fun k => (cws.getD k 0, rs.getD k ⟨some 0, some 0⟩)

/-- A granule fetch completes (R200): the granule is held unless a codeword of it poisons the object; a fetch for blind work
alone poisons nothing (R205). -/
def Leaf.fetchDone (i g : Nat) (rs : List ReadOutcome) (l : Leaf) : Leaf :=
  match l.mem.fetches.find? fun f => f.obj == i && f.gran == g with
  | none => l
  | some f =>
    let l1 := l.setFetches (l.mem.fetches.filter fun x => !(x.obj == i && x.gran == g))
    match l1.obj i with
    | none => l1
    | some o =>
      let n := min (2 ^ 21) (o.size - g * 2 ^ 21)
      let r := (zipReads (o.codewords (g * 2 ^ 21) n) rs).foldl
        (fun acc c => if acc.1 then acc.2.codeword i o c.1 f.blind c.2 else acc) (true, l1)
      if r.1 then r.2.setCache (r.2.mem.cache ++ [{ obj := i, gran := g, slot := f.slot, tick := r.2.tickNum }]) else r.2

/-- The cache emptied (R202). -/
def Leaf.emptyCache (l : Leaf) : Leaf := (l.setCache []).setFetches []

/-- A write of MEM_CACHE_BASE or MEM_CACHE_SIZE (R202): it empties the cache; while TICKING or while a load is BUSY it is
ignored and sets CFG_REFUSED. -/
def Leaf.writeCacheReg (a w : Nat) (l : Leaf) : Leaf :=
  if l.ticking || l.bit Fld.LEAF_GLZ_STAT_BUSY then l.putB Fld.MEM_STAT_CFG_REFUSED true else (l.swWrite a w).emptyCache

/-! ## DRAM errors (R206) -/

/-- The DRAM extent of object e, doubled for a WRITABLE object (R195). -/
def ObjDesc.dramEnd (o : ObjDesc) : Nat := o.dram + (if o.writable then 2 else 1) * up64 o.size

/-- The RESIDENT_DRAM object that holds a DRAM address. -/
def Leaf.objAtDram (l : Leaf) (a : Nat) : Option (Nat × ObjDesc) :=
  l.objects.find? fun e => e.2.place == 0 && decide (e.2.dram ≤ a) && decide (a < e.2.dramEnd)

/-- The uncorrectable words replaced. -/
def Leaf.setBad (l : Leaf) (b : List Nat) : Leaf := { l with mem := { l.mem with bad := b } }

/-- A 32-byte DRAM word is uncorrectable. -/
def Leaf.badWord (l : Leaf) (a : Nat) : Bool := l.mem.bad.contains (a / 32 * 32)

/-- Some word of a DRAM range is uncorrectable. -/
def Leaf.badRange (l : Leaf) (a n : Nat) : Bool := l.mem.bad.any fun b => decide (b < a + n) && decide (a < b + 32)

/-- Words that a write of n bytes at a covers whole hold good data again. -/
def Leaf.coverBad (l : Leaf) (a n : Nat) : Leaf := l.setBad (l.mem.bad.filter fun b => !(decide (a ≤ b) && decide (b + 32 ≤ a + n)))

/-- An uncorrectable DRAM word found by a reader (kind 0x01) or by the scrub (kind 0x02), as Table 7.4 lays down. -/
def Leaf.dramUe (kind addr : Nat) (l : Leaf) : Leaf :=
  let w := addr / 32 * 32
  let l1 := (l.setBad (if l.mem.bad.contains w then l.mem.bad else l.mem.bad ++ [w])).raise 0x062
  match l1.objAtDram w with
  | some (i, o) =>
    let l2 := l1.poisonObj i kind w 0xFF 1
    if o.writable || o.primary == 0 then l2
    else
      let region := w / 4096 * 4096
      if l2.mem.repairs.contains (i, region) then l2
      else { l2 with mem := { l2.mem with repairs := l2.mem.repairs ++ [(i, region)] } }
  | none =>
    if l1.inCache w then
      let slot := (w - l1.cacheBase) / 2 ^ 21
      match l1.mem.cache.find? fun g => g.slot == slot with
      | some g => ((l1.setCache (l1.mem.cache.filter fun x => x.slot != slot)).setBad l.mem.bad).memError 0x08 w g.obj 0xFF 1 0
      | none => l1.memError kind w 0xFFFF 0xFF 1 0
    else l1.memError kind w 0xFFFF 0xFF 1 0

/-- What a DRAM read or scrub of the word at addr finds (R206). -/
def Leaf.dramOutcome (kind addr : Nat) (out : WordOutcome) (l : Leaf) : Leaf :=
  match out with
  | .clean => l
  | .corrected => l.bump 6 0
  | .uncorrectable => if l.badWord addr then l else l.dramUe kind addr

/-- The DRAM or SRAM copy of object i refilled, bytes ofs to ofs + n − 1, from its primary flash copy. -/
def Leaf.refill (i : Nat) (o : ObjDesc) (ofs n : Nat) (l : Leaf) : Leaf :=
  let bs := l.flashObj o ofs n
  match o.place with
  | 0 =>
    let l1 := (l.dramWrite (o.dram + ofs) bs).coverBad (o.dram + ofs) (up64 n)
    if o.writable then (l1.dramWrite (o.dram + up64 o.size + ofs) bs).coverBad (o.dram + up64 o.size + ofs) (up64 n) else l1
  | 3 => l.sramWrite i ofs bs
  | _ => l

/-- The repair of object i that was started first completes (R206, R211): refilled when its codeword can be read. The object's
poison is cleared once no repair of it is left and no word of it is uncorrectable. -/
def Leaf.repairDone (i : Nat) (r : ReadOutcome) (l : Leaf) : Leaf :=
  match l.mem.repairs.find? fun e => e.1 == i, l.obj i with
  | some (_, region), some o =>
    let l1 := { l with mem := { l.mem with repairs := dropFirst (fun e => e.1 == i) l.mem.repairs } }
    let ofs := if o.place = 0 then (max region o.dram - o.dram) else region
    let n := if o.place = 0 then min (region + 4096) (o.dram + o.size) - (o.dram + ofs) else min 4096 (o.size - ofs)
    let ok := r.primary.isSome || (o.mirrored && r.mirror.isSome)
    if ok then
      let l2 := (l1.refill i o ofs n).memError 0x03 (if o.place = 0 then o.dram + ofs else sramKey 0 ofs) i 0xFF
        (if o.place = 0 then 1 else 0) 0
      if (l2.mem.repairs.any fun e => e.1 == i) || (o.place == 0 && l2.badRange o.dram o.size) then l2 else l2.scheduleClear i
    else l1
  | _, _ => l

/-- An uncorrectable error in a PINNED_SRAM object poisons it; with a flash copy it is refilled (R181, R206). -/
def Leaf.sramUe (flags i : Nat) (l : Leaf) : Leaf :=
  match l.obj i with
  | none => l
  | some o =>
    let l1 := (l.poisonWith flags i 0x07 0 0xFF 0).putB (Fld.PANE_STATE_SRAM_UE o.pane) true
    if o.primary = 0 then l1
    else { l1 with mem := { l1.mem with repairs := l1.mem.repairs ++ (List.range ((o.size + 4095) / 4096)).map fun k => (i, 4096 * k) } }

/-! ## Reading an object for a consumer -/

/-- What a read of an object gives a stage or engine. -/
inductive ObjRead where
  | data (bs : List Byte)
  | wait
  | poison
  deriving DecidableEq, Repr

/-- A read straight from flash (FLASH_DIRECT, or a cache bypass): lost codewords act as R216 says. -/
def Leaf.readDirect (consumer i : Nat) (o : ObjDesc) (ofs n : Nat) (blind : Bool) (l : Leaf) : ObjRead × Leaf :=
  let r := l.readLost i o ofs n blind
  let l1 := if blind then r.2.bump 12 5 else r.2
  if r.1 then (.data (l1.flashObj o ofs n), l1)
  else (.poison, if blind then l1 else l1.receipt consumer i)

/-- Every granule of a range touched, in ascending order. -/
def Leaf.touchAll (i : Nat) (blind : Bool) : List Nat → Leaf → List Touch × Leaf
  | [], l => ([], l)
  | g :: t, l => let r := l.touch i g blind; let s := Leaf.touchAll i blind t r.2; (r.1 :: s.1, s.2)

/-- Bytes of object i read by a stage or engine (R180, R196, R200, R205, R206, R207). -/
def Leaf.readObj (consumer i ofs n : Nat) (blind : Bool) (l : Leaf) : ObjRead × Leaf :=
  match l.obj i with
  | none => (.data (List.replicate n 0), l)
  | some o =>
    if l.poisoned i then (.poison, if blind then l else l.receipt consumer i)
    else
      match o.place with
      | 0 =>
        let a := l.objDram i o + ofs
        match l.mem.bad.find? fun b => decide (b < a + n) && decide (a < b + 32) with
        | none => (.data (l.dramRead a n), l)
        | some b => if blind then (.poison, l.bump 12 6) else (.poison, (l.dramUe 0x01 b).receipt consumer i)
      | 3 => (.data (l.sramRead i ofs n), l)
      | 1 =>
        let r := l.touchAll i blind ((List.range ((ofs + n + 2 ^ 21 - 1) / 2 ^ 21 - ofs / 2 ^ 21)).map fun k => ofs / 2 ^ 21 + k)
        if r.1.any fun t => t == .wait then (.wait, r.2)
        else if r.1.any fun t => t == .bypass then r.2.readDirect consumer i o ofs n blind
        else (.data (r.2.flashObj o ofs n), r.2)
      | _ => l.readDirect consumer i o ofs n blind

/-! ## Rewrite and write-back (R212 to R214) -/

/-- The flash channels that a copy at `base` lies on. -/
def copyChannels (base : Nat) (stripe : Bool) : List Nat := if stripe then List.range 8 else [base / 2 ^ 37 % 8]

/-- A copy of the object lies on a read-only channel. -/
def Leaf.copyRo (l : Leaf) (o : ObjDesc) : Bool :=
  ((copyChannels o.primary o.striped) ++ (if o.mirrored then copyChannels o.mirror false else [])).any fun c =>
    l.bit (Fld.MEM_FLASH_WEAR_RO c)

/-- The status an accepted command will end with, as far as its operands decide it (R214). -/
def Leaf.rwStatus (i src : Nat) (writeback : Bool) (l : Leaf) : Nat :=
  match l.obj i with
  | none => 0x0B
  | some o =>
    if o.primary == 0 || l.copyRo o || (writeback && !(o.writable && o.place == 0)) then 0x0B
    else if l.badRange (if writeback then l.objDram i o else src) o.size then 0x09
    else 0

/-- A command accepted. -/
def Leaf.rwStart (writeback : Bool) (l : Leaf) : Leaf :=
  let i := l.get Fld.MEM_RW_OBJ_OBJ
  let src := l.rd64 Reg.MEM_RW_SRC_LO Reg.MEM_RW_SRC_HI
  let c : RwCmd := { obj := i, src := src, writeback := writeback, status := l.rwStatus i src writeback, vers := l.objVers i }
  (({ l with mem := { l.mem with rw := some c } }).putB Fld.MEM_RW_STAT_BUSY true).putB Fld.MEM_RW_STAT_MIXED false

/-- MEM_RW_CTRL.REWRITE (R212, R214). -/
def Leaf.rwRewrite (l : Leaf) : Leaf :=
  if l.bit Fld.MEM_RW_STAT_BUSY || (l.ticking && !l.poisoned (l.get Fld.MEM_RW_OBJ_OBJ)) then l.putB Fld.MEM_RW_STAT_REFUSED true
  else l.rwStart false

/-- MEM_RW_CTRL.WRITEBACK (R213, R214). -/
def Leaf.rwWriteback (l : Leaf) : Leaf :=
  if l.bit Fld.MEM_RW_STAT_BUSY then l.putB Fld.MEM_RW_STAT_REFUSED true else l.rwStart true

/-- A write of MEM_RW_CTRL. DESIGN CHOICE: with both bits written the rewrite comes first. -/
def Leaf.writeRwCtrl (w : Nat) (l : Leaf) : Leaf :=
  let l1 := if bitOf w 31 then l.rwRewrite else l
  if bitOf w 30 then l1.rwWriteback else l1

/-- A page program that failed: the block is retired; without spares the channel becomes read-only (R217). -/
def Leaf.writeFail (addr i : Nat) (out : WriteOutcome) (l : Leaf) : Leaf :=
  if !out.failed then l
  else
    let c := addr / 2 ^ 37 % 8
    let n := l.fuses.badBlk.getD c 0 + 1
    let l1 := ({ l with fuses := { l.fuses with badBlk := setAt l.fuses.badBlk c n } }).put (Fld.MEM_FLASH_WEAR_BADBLK c) n
    let l2 := l1.memError 0x09 addr i 0 0 0
    if out.spareLeft || l2.bit (Fld.MEM_FLASH_WEAR_RO c) then l2
    else
      let l3 := ({ l2 with fuses := { l2.fuses with chanRo := setAt l2.fuses.chanRo c true } }).putB (Fld.MEM_FLASH_WEAR_RO c) true
      (l3.memError 0x0A addr i 0 0 0).raise 0x065

/-- The outcomes of page writes from object offset 0 on; a channel that ran out of spares ends the command (R217). -/
def Leaf.pageWrites (i : Nat) (o : ObjDesc) (outs : List WriteOutcome) (l : Leaf) : Leaf :=
  ((List.range outs.length).zip outs).foldl
    (fun m e => m.writeFail (flashAddr o.primary (16384 * e.1) o.striped) i e.2) l

/-- The command ends with a status (R214). -/
def Leaf.rwEnd (status : Nat) (l : Leaf) : Leaf :=
  ((((({ l with mem := { l.mem with rw := none } }).putB Fld.MEM_RW_STAT_BUSY false).put Fld.MEM_RW_STAT_STATUS status).putB
    Fld.MEM_RW_STAT_DONE true)).raise 0x064

/-- The contents written to both flash copies. -/
def Leaf.writeCopies (o : ObjDesc) (bs : List Byte) (l : Leaf) : Leaf :=
  let l1 := ((l.flashObjPut o.primary o.striped 0 bs).lifeAdd 10 ((if o.mirrored then 2 else 1) * bs.length)).dropLost fun a =>
    (o.codewords 0 o.size).contains a
  if o.mirrored then
    (l1.flashObjPut o.mirror false 0 bs).dropLost fun a => decide (o.mirror ≤ a) && decide (a < o.mirror + o.size)
  else l1

/-- A rewrite or write-back completes (R212 to R214, R217). -/
def Leaf.rwDone (outs : List WriteOutcome) (l : Leaf) : Leaf :=
  match l.mem.rw with
  | none => l
  | some c =>
    match l.obj c.obj with
    | none => l.rwEnd 0x0B
    | some o =>
      if c.status ≠ 0 then l.rwEnd c.status
      else
        let l1 := l.pageWrites c.obj o outs
        if outs.any fun w => w.failed && !w.spareLeft then l1.rwEnd 0x0B
        else
          let bs := if c.writeback then l1.objBytes c.obj 0 o.size else l1.dramRead c.src o.size
          let l2 := l1.writeCopies o bs
          if c.writeback then (l2.putB Fld.MEM_RW_STAT_MIXED (l2.objVers c.obj != c.vers)).rwEnd 0
          else
            let l3 := { l2.refill c.obj o 0 o.size with
              mem := { (l2.refill c.obj o 0 o.size).mem with repairs := l2.mem.repairs.filter fun e => e.1 != c.obj } }
            let l4 := if l3.poisoned c.obj then l3.scheduleClear c.obj
              else l3.setCache (l3.mem.cache.filter fun g => g.obj != c.obj)
            l4.rwEnd 0

/-! ## Refresh (R215, R216) -/

/-- A block at a flash address is rewritten to a fresh one in S0 or S1; `lost` says that the codeword there was uncorrectable
and took a lost marker (R215, R216). -/
def Leaf.flashRefresh (addr : Nat) (lost : Bool) (l : Leaf) : Leaf :=
  if 1 < l.sleep then l
  else
    let a := addr / 4096 * 4096
    let l1 := { l with mem := { l.mem with refresh := l.mem.refresh.filter (· != flashPage a) } }
    if lost && !l1.mem.lost.contains a then
      ({ l1 with mem := { l1.mem with lost := l1.mem.lost ++ [a] } }).memError 0x06 a
        (match l1.objAtFlash a with | some e => e.1 | none => 0xFFFF) 8 0 0
    else l1

/-- A patrol scrub pass reads the word at addr (R206). -/
def Leaf.scrub (addr : Nat) (out : WordOutcome) (l : Leaf) : Leaf :=
  if l.bit Fld.MEM_DRAM_CFG_SCRUB_EN then l.dramOutcome 0x02 addr out else l

end Sys2Proof.Machine
end

