-- ==== Sys2Proof/Machine/PaneOps.lean ====
section
/-!
DEFINITION. The operator catalogue (R184, R185, Table 6.7): what each operator computes from its input tensors, its objects
and its parameters. Arithmetic events are counted in the state of the computation.
-/
namespace Sys2Proof.Machine

/-- A computation that counts arithmetic events. -/
abbrev OpM (α : Type) : Type := StateM Ev α

/-- A result with its events. -/
def op {α : Type} (r : α × Ev) : OpM α := fun e => (r.1, e.add r.2)

/-- What an operator works on: its stage, locked mode, the arrival-order draw, its input tensors by port, the bytes of its
objects by operand slot, and, for GATHER, SCATTER and RECUR, the rows of operand 0 that it reads. -/
structure OpIn where
  s : StageDesc
  locked : Bool
  draw : Nat
  ports : List (Nat × Ten)
  objs : List (Nat × List Byte)
  rows : List (Nat × List Byte) := []
  deriving DecidableEq, Repr

/-- What an operator gives: the payloads of each output port, writes to its object (operand slot, byte offset, bytes), and
the points and voxels VOXELIZE dropped. -/
structure OpOut where
  outs : List (List (List Byte))
  writes : List (Nat × Nat × List Byte) := []
  drops : Nat := 0
  deriving DecidableEq, Repr

/-! ## Parameters and tensors -/

/-- n bytes of the body from offset o, little-endian. -/
def OpIn.par (c : OpIn) (o n : Nat) : Nat := leAt c.s.body o n

/-- An f32 of the body. -/
def OpIn.parF (c : OpIn) (o : Nat) : Fp := f32v (BitVec.ofNat 32 (c.par o 4))

/-- FTZ of the stage. -/
def OpIn.ftz (c : OpIn) : Bool := c.s.ftz

/-- The tensor of an input port. -/
def OpIn.port (c : OpIn) (p : Nat) : Ten := (alGet c.ports p).getD { fmt := 0, dims := [], raw := #[] }

/-- The descriptor of an output port. -/
def OpIn.outDesc (c : OpIn) (p : Nat) : TDesc := (c.s.desc 1 p).getD ⟨0, 1, 1, p, 0, 0, [0, 1, 1, 1]⟩

/-- The tensor that an object operand holds. -/
def OpIn.slot (c : OpIn) (k : Nat) : Ten :=
  match c.s.desc 2 k, alGet c.objs k with
  | some d, some bs => Ten.ofObject d.fmt d.dims bs
  | _, _ => { fmt := 0, dims := [], raw := #[] }

/-- The number of the stage's panes. -/
def OpIn.npanes (c : OpIn) : Nat := c.s.paneList.length

/-- Element i of a tensor, its read events counted. -/
def OpIn.rd (c : OpIn) (t : Ten) (i : Nat) : OpM Fp := op (t.val c.ftz i)

/-- The FP32 value of element i for the vector unit; an INT32 rounds (R153). -/
def OpIn.rdv (c : OpIn) (t : Ten) (i : Nat) : OpM Fp := do
  let x ← c.rd t i
  return if t.fmt = 2 then fpRound fmt32 x else x

/-- The SCALE_NAN events of a tensor read (R144). -/
def noteScales (t : Ten) : OpM Unit := op ((), t.scaleNans)

/-- A tensor as the payloads of output port p. -/
def OpIn.emit (_ : OpIn) (t : Ten) : List (List Byte) := t.toTokens

/-- FP32 values written to output port p in its format. -/
def OpIn.writeF (c : OpIn) (p : Nat) (xs : List Fp) : OpM (List (List Byte)) := do
  let d := c.outDesc p
  let t ← op (writeFloats d.fmt c.s.sat c.ftz d.dims xs)
  return t.toTokens

/-! ## Accumulators (R146, R147, R155, R156, R561) -/

/-- The zero accumulator. -/
def zeroAcc (isInt : Bool) : Acc := if isInt then .i 0 else .f (fpOfNat 0)

/-- The exact products of one group, summed: pairs of an element of A (none is padding, +0) and an element of B. -/
def OpIn.group (c : OpIn) (isInt : Bool) (a b : Ten) (g : List (Option Nat × Nat)) : OpM Acc := do
  if isInt then
    return .i ((g.map fun e => (match e.1 with | some i => a.int i | none => 0) * b.int e.2).foldl (· + ·) 0)
  else
    let ps ← g.mapM fun e => do
      let x ← match e.1 with
        | some i => c.rd a i
        | none => pure (fpOfNat 0)
      let y ← c.rd b e.2
      return fpMulX x y
    return .f (groupSum ps)

/-- Units reduced into an accumulator, split over the stage's panes when `split` (R561): the bias starts the first partial. -/
def OpIn.reduceUnits (c : OpIn) (split isInt : Bool) (bias : Acc) (code : Nat) (units : List Acc) : OpM Acc := do
  if split then
    match splitRuns c.npanes units with
    | [] => return bias
    | r0 :: rest =>
      let p0 ← op (Acc.addAll c.ftz bias r0)
      let ps ← rest.mapM fun r => op (Acc.addAll c.ftz (zeroAcc isInt) r)
      let r ← op (combine c.locked (Config.splitOrder c.draw code) (Acc.add c.ftz) (p0 :: ps))
      return r.headD bias
  else op (Acc.addAll c.ftz bias units)

/-- The bias of output channel n as an initial accumulator (R184): FP32, or converted to INT32. -/
def OpIn.bias (c : OpIn) (on isInt : Bool) (slot n : Nat) : OpM Acc := do
  if on then
    let x ← c.rd (c.slot slot) n
    if isInt then
      let r ← op (floatToInt 2 x)
      return .i r
    else return .f x
  else return zeroAcc isInt

/-- The requantisation record of channel n (R148, R184). -/
def OpIn.requant (c : OpIn) (slot n : Nat) : Requant :=
  let bs := (alGet c.objs slot).getD []
  { m := signedOf 32 (leAt bs (12 * n) 4), z := signedOf 32 (leAt bs (12 * n + 4) 4), s := leAt bs (12 * n + 8) 1 }

/-- Accumulators written to output port 0; `chan` gives each one's output channel (R143, R148). -/
def OpIn.writeAcc (c : OpIn) (requant : Bool) (chan : Nat → Nat) (accs : List Acc) : OpM (List (List Byte)) := do
  let d := c.outDesc 0
  let ints := accs.filterMap fun a => match a with | .i v => some v | .f _ => none
  if ints.length = accs.length && !accs.isEmpty then
    let vs := if requant then (List.range ints.length).map fun i => (c.requant 2 (chan i)).apply (ints.getD i 0) else ints
    let t ← op (writeInts d.fmt c.s.sat c.ftz d.dims vs)
    return t.toTokens
  else
    let fs := accs.map fun a => match a with | .f v => v | .i v => fpRound fmt32 (fpOfInt v)
    let t ← op (writeFloats d.fmt c.s.sat c.ftz d.dims fs)
    return t.toTokens

/-- Operand B, expanded when it is held in 2:4 form (R150, R152). -/
def OpIn.operandB (c : OpIn) (d : TDesc) (bs : List Byte) : OpM Ten := do
  if bitOf c.s.hflags 0 then
    let n := d.count
    let lay := Config.sparseLayout d.fmt (n / 2)
    let stored := (unpackBits (fmtBits d.fmt) (n / 2) bs).toArray
    let nibs := (unpackBits 4 (n / 4) (bs.drop lay.1)).toArray
    let e ← op (expandSparse n stored nibs)
    return { fmt := d.fmt, dims := d.dims, raw := e.toArray,
             scales := if fmtMx d.fmt then (unpackBits 8 (n / 32) (bs.drop lay.2)).toArray else #[] }
  else return Ten.ofObject d.fmt d.dims bs

/-- Operand B of MATMUL and the weights of CONV2D: from object slot 0, or from port 1. -/
def OpIn.weights (c : OpIn) : OpM Ten := do
  match c.s.desc 2 0, alGet c.objs 0 with
  | some d, some bs => c.operandB d bs
  | _, _ =>
    match c.s.desc 0 1 with
    | some d => if bitOf c.s.hflags 0 then c.operandB d (c.port 1).toObject else return c.port 1
    | none => return c.port 1

/-! ## MATMUL and convolutions -/

/-- MATMUL (Table 6.7, 0x01). -/
def OpIn.matmul (c : OpIn) : OpM OpOut := do
  let m := c.par 0 4
  let n := c.par 4 4
  let k := c.par 8 4
  let split := c.par 12 1 = 1
  let epi := c.par 13 1
  let a := c.port 0
  let b ← c.weights
  noteScales a
  noteScales b
  let isInt := fmtInt a.fmt
  let g := max 1 (macGroup a.fmt b.fmt)
  let accs ← (List.range (m * n)).mapM fun o => do
    let mi := o / n
    let ni := o % n
    let units ← (chunks g (List.range k)).mapM fun ps =>
      c.group isInt a b (ps.map fun p => (some (mi * k + p), ni * k + p))
    let b0 ← c.bias (bitOf epi 0) isInt 1 ni
    c.reduceUnits split isInt b0 o units
  let out ← c.writeAcc (bitOf epi 1) (fun i => i % n) accs
  return { outs := [out] }

/-- The index in an input (C, W, H, N) of channel ch at column x, row y of image im; none outside (padding). -/
def convIndex (cs w h : Nat) (ch : Nat) (x y : Int) (im : Nat) : Option Nat :=
  if x < 0 ∨ (w : Int) ≤ x ∨ y < 0 ∨ (h : Int) ≤ y then none else some (((im * h + y.toNat) * w + x.toNat) * cs + ch)

/-- CONV2D and DWCONV (Table 6.7, 0x02, 0x03). The reduction positions are taken in the element order of the weights.
DEDUCED. -/
def OpIn.conv (c : OpIn) (depthwise : Bool) : OpM OpOut := do
  let kh := c.par 0 1
  let kw := c.par 1 1
  let sh := max 1 (c.par 2 1)
  let sw := max 1 (c.par 3 1)
  let dh := c.par 4 1
  let dw := c.par 5 1
  let pt := c.par 6 1
  let pl := c.par 8 1
  let epi := c.par 12 1
  let split := c.par 13 1 = 1
  let a := c.port 0
  let b ← c.weights
  noteScales a
  noteScales b
  let isInt := fmtInt a.fmt
  let g := max 1 (macGroup a.fmt b.fmt)
  let od := (c.outDesc 0).dims
  let cin := a.dim 0
  let cout := od.getD 0 1
  let wo := od.getD 1 1
  let ho := od.getD 2 1
  let grp := if depthwise then max 1 cin else max 1 (c.par 10 2)
  let cg := max 1 (cin / grp)
  let accs ← (List.range (dimProd od)).mapM fun o => do
    let co := o % cout
    let x := o / cout % wo
    let y := o / cout / wo % ho
    let im := o / cout / wo / ho
    let gi := co / max 1 (cout / grp)
    let positions := (List.range (kh * kw * cg)).map fun r =>
      let ci := r % cg
      let kx := r / cg % kw
      let ky := r / cg / kw
      (convIndex cin (a.dim 1) (a.dim 2) (gi * cg + ci) ((x * sw + kx * dw : Nat) - (pl : Int))
        ((y * sh + ky * dh : Nat) - (pt : Int)) im, co * (kh * kw * cg) + r)
    let units ← (chunks g positions).mapM fun ps => c.group isInt a b ps
    let b0 ← c.bias (bitOf epi 0) isInt 1 co
    c.reduceUnits split isInt b0 o units
  let out ← c.writeAcc (bitOf epi 1) (fun i => i % cout) accs
  return { outs := [out] }

/-! ## ATTENTION -/

/-- A running softmax (Table 6.7, 0x04): maximum, denominator and weighted sum; none before any unmasked key. -/
abbrev Soft : Type := Option (Fp × Fp × List Fp)

/-- Two partial softmaxes combined: the maximum, and both denominators and sums scaled to it. -/
def OpIn.softAdd (c : OpIn) (a b : Soft) : Soft × Ev :=
  match a, b with
  | none, x => (x, {})
  | x, none => (x, {})
  | some (m1, l1, o1), some (m2, l2, o2) =>
    let run : OpM Soft := do
      let m := fpMax m1 m2
      let d1 ← op (vSub c.ftz m1 m)
      let d2 ← op (vSub c.ftz m2 m)
      let e1 ← op (vExp c.ftz d1)
      let e2 ← op (vExp c.ftz d2)
      let t1 ← op (vMul c.ftz l1 e1)
      let l ← op (vFma c.ftz l2 e2 t1)
      let o ← (o1.zip o2).mapM fun p => do
        let t ← op (vMul c.ftz p.1 e1)
        op (vFma c.ftz p.2 e2 t)
      return some (m, l, o)
    run {}

/-- The mask object's bit of query q and key k. -/
def OpIn.maskBit (c : OpIn) (nk q k : Nat) : Bool :=
  let bs := (alGet c.objs 2).getD []
  bitOf (leAt bs ((q * nk + k) / 8) 1) ((q * nk + k) % 8)

/-- Query q sees key k. -/
def OpIn.sees (c : OpIn) (nq nk q k : Nat) : Bool :=
  match c.par 14 1 with
  | 1 => decide ((k : Int) ≤ (q : Int) + nk - nq)
  | 2 => c.maskBit nk q k != Config.maskBitMasks
  | _ => true

/-- Values converted to the format of V and read back (Table 6.7). -/
def OpIn.toFmt (c : OpIn) (fmt : Nat) (xs : List Fp) : OpM (List Fp) := do
  let t ← op (writeFloats fmt c.s.sat c.ftz [xs.length, 1, 1, 1]
    (if fmtMx fmt then xs ++ List.replicate ((32 - xs.length % 32) % 32) (fpOfNat 0) else xs))
  (List.range xs.length).mapM fun i => c.rd t i

/-- One key block of one head and query. Elements lie in the order (element of the head, head, position). DESIGN CHOICE. -/
def OpIn.attnBlock (c : OpIn) (q k v : Ten) (heads hd nq nk h qi : Nat) (scale : Fp) (keys : List Nat) : OpM Soft := do
  let at' (pos d : Nat) : Nat := (pos * heads + h) * hd + d
  let seen := keys.filter fun kk => c.sees nq nk qi kk
  match seen with
  | [] => return none
  | _ =>
    let g := max 1 (macGroup q.fmt k.fmt)
    let scores ← seen.mapM fun kk => do
      let units ← (chunks g (List.range hd)).mapM fun ds =>
        c.group false q k (ds.map fun d => (some (at' qi d), at' kk d))
      let s ← op (Acc.addAll c.ftz (zeroAcc false) units)
      op (vMul c.ftz (match s with | .f x => x | .i x => fpOfInt x) scale)
    let m := scores.tail.foldl fpMax (scores.headD (fpOfNat 0))
    let ps ← scores.mapM fun s => do
      let d ← op (vSub c.ftz s m)
      op (vExp c.ftz d)
    let l ← ps.foldlM (fun a p => op (vAdd c.ftz a p)) (fpOfNat 0)
    let pv ← c.toFmt v.fmt ps
    let g2 := max 1 (macGroup v.fmt v.fmt)
    let o ← (List.range hd).mapM fun d => do
      let prods ← (seen.zip pv).mapM fun e => do
        let x ← c.rd v (at' e.1 d)
        return fpMulX e.2 x
      let r ← op (Acc.addAll c.ftz (zeroAcc false) ((chunks g2 prods).map fun ps' => Acc.f (groupSum ps')))
      return match r with | .f x => x | .i x => fpOfInt x
    return some (m, l, o)

/-- ATTENTION (Table 6.7, 0x04). Over several panes the key blocks are divided as R561 lays down. DEDUCED. -/
def OpIn.attention (c : OpIn) : OpM OpOut := do
  let heads := c.par 0 2
  let hd := c.par 2 2
  let nq := c.par 4 4
  let nk := c.par 8 4
  let blk := max 1 (c.par 12 2)
  let q := c.port 0
  let k := c.slot 0
  let v := c.slot 1
  noteScales q
  noteScales k
  noteScales v
  let scale ← if c.par 15 1 = 0 then op (vRsqrt c.ftz (fpOfNat hd)) else op (ftzIn c.ftz (c.parF 16))
  let res ← (List.range (nq * heads)).mapM fun i => do
    let qi := i / heads
    let h := i % heads
    let blocks ← (chunks blk (List.range nk)).mapM fun ks => c.attnBlock q k v heads hd nq nk h qi scale ks
    let runs ← (splitRuns (max 1 c.npanes) blocks).mapM fun r => op (foldEv c.softAdd (none : Soft) r)
    let r ← op (combine c.locked (Config.splitOrder c.draw i) c.softAdd runs)
    match r.headD none with
    | none => return List.replicate hd (fpOfNat 0)
    | some (_, l, o) =>
      let inv ← op (vRecip c.ftz l)
      o.mapM fun x => op (vMul c.ftz x inv)
  let out ← c.writeF 0 res.flatten
  return { outs := [out] }

/-! ## NORM, POOL, RESAMPLE -/

/-- The FP32 sum of values, split over the stage's panes when it spans several (R561). -/
def OpIn.statSum (c : OpIn) (code : Nat) (xs : List Fp) : OpM Fp := do
  let r ← c.reduceUnits (decide (1 < c.npanes)) false (zeroAcc false) code (xs.map Acc.f)
  return match r with | .f x => x | .i x => fpOfInt x

/-- NORM (Table 6.7, 0x05) over runs of DIM0: the whole of it, or each of GROUPS equal parts. DESIGN CHOICE: a group is a run
of DIM0 alone. -/
def OpIn.norm (c : OpIn) : OpM OpOut := do
  let a := c.port 0
  noteScales a
  let d0 := a.dim 0
  let groups := if c.par 0 1 = 1 then max 1 (c.par 2 2) else 1
  let n := d0 / groups
  let eps ← op (ftzIn c.ftz (c.parF 4))
  let gb := c.slot 0
  let inv ← op (vRecip c.ftz (fpOfNat n))
  let ys ← (List.range (a.count / max 1 n)).mapM fun r => do
    let xs ← (List.range n).mapM fun j => c.rdv a (r * n + j)
    let s ← c.statSum (2 * r) xs
    let mean ← op (vMul c.ftz s inv)
    let ds ← xs.mapM fun x => op (vSub c.ftz x mean)
    let sq ← ds.mapM fun d => op (vMul c.ftz d d)
    let s2 ← c.statSum (2 * r + 1) sq
    let var ← op (vMul c.ftz s2 inv)
    let ve ← op (vAdd c.ftz var eps)
    let rs ← op (vRsqrt c.ftz ve)
    (List.range n).mapM fun j => do
      let y ← op (vMul c.ftz (ds.getD j (fpOfNat 0)) rs)
      if c.par 1 1 = 1 then
        let ch := (r * n + j) % d0
        let ga ← c.rd gb ch
        let be ← c.rd gb (d0 + ch)
        let t ← op (vMul c.ftz y ga)
        op (vAdd c.ftz t be)
      else return y
  let out ← c.writeF 0 ys.flatten
  return { outs := [out] }

/-- POOL (Table 6.7, 0x06). -/
def OpIn.pool (c : OpIn) : OpM OpOut := do
  let kind := c.par 0 1
  let a := c.port 0
  noteScales a
  let od := (c.outDesc 0).dims
  let cs := a.dim 0
  let glob := decide (2 ≤ kind)
  let kh := if glob then a.dim 2 else c.par 1 1
  let kw := if glob then a.dim 1 else c.par 2 1
  let sh := if glob then 1 else c.par 3 1
  let sw := if glob then 1 else c.par 4 1
  let pad : Int := if glob then 0 else (c.par 5 1 : Nat)
  let wo := od.getD 1 1
  let ho := od.getD 2 1
  let ys ← (List.range (dimProd od)).mapM fun o => do
    let ch := o % cs
    let x := o / cs % wo
    let y := o / cs / wo % ho
    let im := o / cs / wo / ho
    let ix := (List.range (kh * kw)).filterMap fun r =>
      convIndex cs (a.dim 1) (a.dim 2) ch ((x * sw + r % kw : Nat) - pad) ((y * sh + r / kw : Nat) - pad) im
    let xs ← ix.mapM fun i => c.rdv a i
    if kind % 2 = 0 then return xs.tail.foldl fpMax (xs.headD (fpOfNat 0))
    else
      let s ← xs.tail.foldlM (fun b v => op (vAdd c.ftz b v)) (xs.headD (fpOfNat 0))
      let inv ← op (vRecip c.ftz (fpOfNat xs.length))
      op (vMul c.ftz s inv)
  let out ← c.writeF 0 ys
  return { outs := [out] }

/-- The source coordinate of output index d (Table 6.7, 0x07). DESIGN CHOICE: the product is formed before the division. -/
def OpIn.srcCoord (c : OpIn) (corners : Bool) (d nin nout : Nat) : OpM Fp := do
  let half := Fp.fin false 1 (-1)
  if corners then
    if nout ≤ 1 then return fpOfNat 0
    else
      let t ← op (vMul c.ftz (fpOfNat d) (fpOfNat (nin - 1)))
      let r ← op (vRecip c.ftz (fpOfNat (nout - 1)))
      op (vMul c.ftz t r)
  else
    let a ← op (vAdd c.ftz (fpOfNat d) half)
    let t ← op (vMul c.ftz a (fpOfNat nin))
    let r ← op (vRecip c.ftz (fpOfNat nout))
    let u ← op (vMul c.ftz t r)
    op (vSub c.ftz u half)

/-- An index held to 0 … n − 1. -/
def clampIx (n : Nat) (i : Int) : Nat := (clampInt 0 ((n : Int) - 1) i).toNat

/-- A value between two by a fraction: a × (1 − f) + b × f. DESIGN CHOICE: the order of the operations. -/
def OpIn.lerp (c : OpIn) (a b f : Fp) : OpM Fp := do
  let g ← op (vSub c.ftz (fpOfNat 1) f)
  let x ← op (vMul c.ftz a g)
  let y ← op (vMul c.ftz b f)
  op (vAdd c.ftz x y)

/-- RESAMPLE (Table 6.7, 0x07). -/
def OpIn.resample (c : OpIn) : OpM OpOut := do
  let a := c.port 0
  noteScales a
  let corners := c.par 1 1 = 1
  let ow := c.par 4 4
  let oh := c.par 8 4
  let cs := a.dim 0
  let w := a.dim 1
  let h := a.dim 2
  let ix (ch x y im : Nat) : Nat := ((im * h + y) * w + x) * cs + ch
  let ys ← (List.range (dimProd (c.outDesc 0).dims)).mapM fun o => do
    let ch := o % cs
    let x := o / cs % ow
    let y := o / cs / ow % oh
    let im := o / cs / ow / oh
    let sx ← c.srcCoord corners x w ow
    let sy ← c.srcCoord corners y h oh
    if c.par 0 1 = 0 then
      let rx ← op (vAdd c.ftz sx (.fin false 1 (-1)))
      let ry ← op (vAdd c.ftz sy (.fin false 1 (-1)))
      c.rdv a (ix ch (clampIx w ((fpFloorInt rx).getD 0)) (clampIx h ((fpFloorInt ry).getD 0)) im)
    else
      let x0 := (fpFloorInt sx).getD 0
      let y0 := (fpFloorInt sy).getD 0
      let fx ← op (vSub c.ftz sx (fpFloor sx))
      let fy ← op (vSub c.ftz sy (fpFloor sy))
      let v00 ← c.rdv a (ix ch (clampIx w x0) (clampIx h y0) im)
      let v01 ← c.rdv a (ix ch (clampIx w (x0 + 1)) (clampIx h y0) im)
      let v10 ← c.rdv a (ix ch (clampIx w x0) (clampIx h (y0 + 1)) im)
      let v11 ← c.rdv a (ix ch (clampIx w (x0 + 1)) (clampIx h (y0 + 1)) im)
      let t ← c.lerp v00 v01 fx
      let b ← c.lerp v10 v11 fx
      c.lerp t b fy
  let out ← c.writeF 0 ys
  return { outs := [out] }

/-! ## ELEMENTWISE (R185) -/

/-- A micro-op word's fields. -/
structure MicroOp where
  code : Nat
  d : Nat
  a : Nat
  b : Nat
  c : Nat
  deriving DecidableEq, Repr

/-- The fields of a micro-op word. -/
def microOp (w : Nat) : MicroOp := ⟨bitsOf w 31 26, bitsOf w 25 21, bitsOf w 20 16, bitsOf w 15 11, bitsOf w 10 6⟩

/-- The micro-ops of a body. -/
def microOps (body : List Byte) : List MicroOp := (List.range (leAt body 0 1)).map fun i => microOp (leAt body (4 + 4 * i) 4)

/-- 1.0 or 0.0. -/
def fpBool (b : Bool) : Fp := fpOfNat (b2n b)

/-- The result of a micro-op (Table 6.8). -/
def microResult (ftz : Bool) (code : Nat) (a b c : Fp) : Fp × Ev :=
  match code with
  | 0x01 => (a, {})
  | 0x02 => vAdd ftz a b
  | 0x03 => vSub ftz a b
  | 0x04 => vMul ftz a b
  | 0x05 => vFma ftz a b c
  | 0x06 => (fpMin a b, {})
  | 0x07 => (fpMax a b, {})
  | 0x08 => (fpAbs a, {})
  | 0x09 => (fpNeg a, {})
  | 0x0A => vRecip ftz a
  | 0x0B => vRsqrt ftz a
  | 0x0C => vExp ftz a
  | 0x0D => vTanh ftz a
  | 0x0E => (fpBool (fpLt a b), {})
  | 0x0F => (fpBool (fpLe a b), {})
  | 0x10 => (fpBool (fpEq a b), {})
  | 0x11 => (if fpIsNan a || !fpIsZero a then b else c, {})
  | 0x12 => (fpFloor a, {})
  | 0x13 => (fpCeil a, {})
  | 0x14 => (fpRnde a, {})
  | 0x15 => (fpMin (fpMax a b) c, {})
  | _ => (a, {})

/-- ELEMENTWISE on element i: the values of the output ports. -/
def OpIn.elementwiseAt (c : OpIn) (ops : List MicroOp) (ks : List Fp) (i : Nat) : OpM (List (Nat × Fp)) := do
  let src (env : List (Nat × Fp)) (n : Nat) : OpM Fp :=
    if n < 8 then c.rdv (c.port n) i
    else if n < 16 then pure ((alGet env n).getD (fpOfNat 0))
    else pure (ks.getD (n - 16) (fpOfNat 0))
  let env ← ops.foldlM (fun (env : List (Nat × Fp)) m => do
    let a ← src env m.a
    let b ← if (m.code ∈ [2, 3, 4, 5, 6, 7, 0xE, 0xF, 0x10, 0x11, 0x15]) then src env m.b else pure (fpOfNat 0)
    let d ← if (m.code ∈ [5, 0x11, 0x15]) then src env m.c else pure (fpOfNat 0)
    let r ← op (microResult c.ftz m.code a b d)
    return alSet (if m.d < 8 then 100 + m.d else m.d) r env) []
  return (env.filter fun e => 100 ≤ e.1).map fun e => (e.1 - 100, e.2)

/-- ELEMENTWISE (R185). -/
def OpIn.elementwise (c : OpIn) : OpM OpOut := do
  let nops := c.par 0 1
  let ks ← (List.range (c.par 1 1)).mapM fun i => op (ftzIn c.ftz (c.parF (4 + 4 * nops + 4 * i)))
  for e in c.ports do noteScales e.2
  let n := (c.outDesc 0).count
  let rows ← (List.range n).mapM fun i => c.elementwiseAt (microOps c.s.body) ks i
  let outs ← (List.range c.s.nout).mapM fun p => c.writeF p (rows.map fun r => (alGet r p).getD (fpOfNat 0))
  return { outs := outs }

/-! ## GATHER, SCATTER -/

/-- An out-of-range index noted. -/
def noteOob : OpM Unit := op ((), { idxOob := 1 })

/-- The bytes of a row of operand 0: those of a table or target, or the state of a slot of RECUR. -/
def StageDesc.rowBytes (s : StageDesc) : Nat :=
  if s.opcode = 0x0E then (if leAt s.body 4 1 = 1 then 8 else 4) * leAt s.body 2 2 else leAt s.body 0 4

/-- Row r of operand 0. -/
def OpIn.row (c : OpIn) (r : Nat) : List Byte := (alGet c.rows r).getD (List.replicate c.s.rowBytes 0)

/-- The rows of operand 0 that GATHER, SCATTER or RECUR reads, given its indices. -/
def StageDesc.rowsRead (s : StageDesc) (idx : Ten) : List Nat :=
  let nrows := leAt s.body 4 4
  let one (i : Nat) : Option Nat :=
    let x := idx.int i
    match s.opcode with
    | 0x09 =>
      if 0 ≤ x ∧ x < nrows then some x.toNat
      else if leAt s.body 8 1 = 1 then some (clampIx nrows x) else none
    | 0x0A => if leAt s.body 8 1 ≠ 0 ∧ 0 ≤ x ∧ x < nrows then some x.toNat else none
    | _ =>
      let w := idx.raw.getD i 0
      if bitOf w 31 || decide (leAt s.body 0 2 ≤ w % 65536) then none else some (w % 65536)
  ((List.range idx.raw.size).filterMap one).dedup

/-- GATHER (Table 6.7, 0x09). -/
def OpIn.gather (c : OpIn) : OpM OpOut := do
  let rb := c.par 0 4
  let nrows := c.par 4 4
  let clamp := c.par 8 1 = 1
  let idx := c.port 0
  let rows ← (List.range idx.raw.size).mapM fun i => do
    let x := idx.int i
    if 0 ≤ x ∧ x < nrows then return c.row x.toNat
    else
      noteOob
      if clamp then return c.row (clampIx nrows x) else return List.replicate rb 0
  return { outs := [chunks 64 rows.flatten] }

/-- The FP32 words of a row combined with those of the target (MODE 1 add, 2 max). -/
def OpIn.mergeRow (c : OpIn) (mode : Nat) (old new : List Byte) : OpM (List Byte) := do
  if mode = 0 then return new
  else
    let ws ← (List.range (new.length / 4)).mapM fun i => do
      let a ← op (ftzIn c.ftz (f32v (BitVec.ofNat 32 (leAt old (4 * i) 4))))
      let b ← op (ftzIn c.ftz (f32v (BitVec.ofNat 32 (leAt new (4 * i) 4))))
      if mode = 1 then op (vAdd c.ftz a b) else return fpMax a b
    return ws.flatMap fun w => leBytes 4 (fpEncode fmt32 w)

/-- SCATTER (Table 6.7, 0x0A): the rows apply in stream order to the target's contents. -/
def OpIn.scatter (c : OpIn) : OpM OpOut := do
  let rb := c.par 0 4
  let nrows := c.par 4 4
  let mode := c.par 8 1
  let idx := c.port 0
  let rows := (c.port 1).toObject
  let ws ← (List.range idx.raw.size).foldlM (fun (ws : List (Nat × List Byte)) i => do
    let x := idx.int i
    if 0 ≤ x ∧ x < nrows then
      let r := x.toNat
      let old := (alGet ws r).getD (c.row r)
      let new ← c.mergeRow mode old (sliceBytes rows (i * rb) rb)
      return alSet r new ws
    else
      noteOob
      return ws) []
  return { outs := List.replicate c.s.nout [], writes := ws.map fun e => (0, e.1 * rb, e.2) }

/-! ## VOXELIZE -/

/-- A voxel being filled: linear index, records in order. -/
structure Voxel where
  ix : Nat
  recs : List (List Byte)
  deriving DecidableEq, Repr

/-- Coordinate k of a point record in FP32: Q14.10 (Table 8.6). -/
def recCoord (r : List Byte) (k : Nat) : Fp := fpScale (-10) (fpOfInt (signedOf 24 (leAt r (3 * k) 3)))

/-- The grid index of a point on one axis. -/
def OpIn.voxIx (c : OpIn) (r : List Byte) (k : Nat) : OpM Int := do
  let d ← op (vSub c.ftz (recCoord r k) (c.parF (4 * k)))
  let inv ← op (vRecip c.ftz (c.parF (12 + 4 * k)))
  let q ← op (vMul c.ftz d inv)
  return (fpFloorInt q).getD (-1)

/-- The mean feature of a voxel: x, y, z and intensity, each the FP32 sum times the reciprocal of the count. -/
def OpIn.voxMean (c : OpIn) (recs : List (List Byte)) : OpM (List Byte) := do
  let inv ← op (vRecip c.ftz (fpOfNat recs.length))
  let ms ← (List.range 4).mapM fun k => do
    let xs := recs.map fun r => if k < 3 then recCoord r k else fpOfNat (leAt r 9 1)
    let s ← xs.tail.foldlM (fun a x => op (vAdd c.ftz a x)) (xs.headD (fpOfNat 0))
    op (vMul c.ftz s inv)
  return ms.flatMap fun x => leBytes 4 (fpEncode fmt32 x)

/-- VOXELIZE (Table 6.7, 0x0B). -/
def OpIn.voxelize (c : OpIn) : OpM OpOut := do
  let nx := c.par 24 2
  let ny := c.par 26 2
  let nz := c.par 28 2
  let maxp := c.par 30 1
  let feat := c.par 31 1
  let maxv := c.par 32 4
  let recs := chunks 16 (c.port 0).toObject
  let st ← recs.foldlM (fun (st : List Voxel × Nat) r => do
    let x ← c.voxIx r 0
    let y ← c.voxIx r 1
    let z ← c.voxIx r 2
    if 0 ≤ x ∧ x < nx ∧ 0 ≤ y ∧ y < ny ∧ 0 ≤ z ∧ z < nz then
      let ix := (z.toNat * ny + y.toNat) * nx + x.toNat
      match st.1.find? fun v => v.ix == ix with
      | some v =>
        if v.recs.length < maxp then
          return (st.1.map fun u => if u.ix = ix then { u with recs := u.recs ++ [r] } else u, st.2)
        else return (st.1, st.2 + 1)
      | none =>
        if st.1.length < maxv then return (st.1 ++ [⟨ix, [r]⟩], st.2) else return (st.1, st.2 + 1)
    else return (st.1, st.2 + 1)) (([], 0) : List Voxel × Nat)
  op ((), { drop := st.2 })
  let bytes ← st.1.mapM fun v => do
    let f ← match feat with
      | 0 => pure []
      | 1 => c.voxMean v.recs
      | _ => pure (padTo (16 * maxp) v.recs.flatten)
    return leBytes 4 v.ix ++ leBytes 4 v.recs.length ++ f
  return { outs := [chunks 64 bytes.flatten], drops := st.2 }

/-! ## TOPK, REDUCE -/

/-- a ranks before b: NaN after every number, then by value, then by index. -/
def topBefore (smallest : Bool) (a b : Fp × Nat) : Bool :=
  if fpIsNan a.1 then fpIsNan b.1 && decide (a.2 ≤ b.2)
  else if fpIsNan b.1 then true
  else if fpEq a.1 b.1 then decide (a.2 ≤ b.2)
  else if smallest then fpLt a.1 b.1 else fpLt b.1 a.1

/-- TOPK (Table 6.7, 0x0C), over each run of N elements. -/
def OpIn.topk (c : OpIn) : OpM OpOut := do
  let k := c.par 0 4
  let n := c.par 4 4
  let a := c.port 0
  noteScales a
  let rows ← (List.range (a.raw.size / max 1 n)).mapM fun r => do
    let xs ← (List.range n).mapM fun i => do
      let x ← c.rdv a (r * n + i)
      return (x, i)
    return (xs.mergeSort (topBefore (c.par 8 1 = 1))).take k
  let all := rows.flatten
  let vals := all.map (·.1)
  let idxs := all.map fun e => (e.2 : Int)
  let wi (p : Nat) : OpM (List (List Byte)) := do
    let d := c.outDesc p
    let t ← op (writeInts d.fmt c.s.sat c.ftz d.dims idxs)
    return t.toTokens
  match c.par 9 1 with
  | 0 => return { outs := [← c.writeF 0 vals, ← wi 1] }
  | 1 => return { outs := [← c.writeF 0 vals] }
  | _ => return { outs := [← wi 0] }

/-- The coordinates of element i of a shape. -/
def coords (ds : List Nat) (i : Nat) : List Nat :=
  (ds.foldl (fun (acc : List Nat × Nat) d => (acc.1 ++ [acc.2 % max 1 d], acc.2 / max 1 d)) ([], i)).1

/-- The elements reduced into output element o: those whose coordinates agree with it outside the reduced axes. -/
def reduceElems (ds : List Nat) (axes o : Nat) : List Nat :=
  let od := (List.range ds.length).map fun k => if bitOf axes k then 1 else ds.getD k 1
  let oc := coords od o
  (List.range (dimProd ds)).filter fun i =>
    let ic := coords ds i
    (List.range ds.length).all fun k => bitOf axes k || ic.getD k 0 == oc.getD k 0

/-- Two values reduced by an operation of REDUCE. -/
def OpIn.redAcc (c : OpIn) (o : Nat) (a b : Acc) : Acc × Ev :=
  match o, a, b with
  | 1, .f x, .f y => (.f (fpMax x y), {})
  | 2, .f x, .f y => (.f (fpMin x y), {})
  | 1, .i x, .i y => (.i (max x y), {})
  | 2, .i x, .i y => (.i (min x y), {})
  | _, x, y => Acc.add c.ftz x y

/-- REDUCE (Table 6.7, 0x0D). -/
def OpIn.reduce (c : OpIn) : OpM OpOut := do
  let o := c.par 0 1
  let axes := c.par 1 1
  let split := c.par 2 1 = 1
  let a := c.port 0
  noteScales a
  let isInt := fmtInt a.fmt
  let accs ← (List.range (c.outDesc 0).count).mapM fun e => do
    let es := reduceElems a.dims axes e
    let xs ← es.mapM fun i => do
      if isInt then
        let v := a.int i
        if o = 4 then
          let r ← op (satAdd 0 (v * v))
          return Acc.i r
        else return Acc.i v
      else
        let v ← c.rd a i
        if o = 4 then
          let r ← op (vMul c.ftz v v)
          return Acc.f r
        else return Acc.f v
    let runs := if split then splitRuns c.npanes xs else [xs]
    let parts ← runs.mapM fun r =>
      match r with
      | [] => pure (zeroAcc isInt)
      | x :: t =>
        if o = 1 ∨ o = 2 then op (foldEv (c.redAcc o) x t)
        else op (foldEv (c.redAcc o) (zeroAcc isInt) (x :: t))
    let r ← op (combine c.locked (Config.splitOrder c.draw e) (c.redAcc o) parts)
    let v := r.headD (zeroAcc isInt)
    if o = 3 then
      let inv ← op (vRecip c.ftz (fpOfNat es.length))
      let x := match v with | .f x => x | .i x => fpRound fmt32 (fpOfInt x)
      let m ← op (vMul c.ftz x inv)
      return Acc.f m
    else return v
  let out ← c.writeAcc false id accs
  return { outs := [out] }

/-! ## RECUR -/

/-- The sigmoid of Table 6.7: 0.5 + 0.5 × tanh(0.5x). -/
def OpIn.sigmoid (c : OpIn) (x : Fp) : OpM Fp := do
  let half := Fp.fin false 1 (-1)
  let h ← op (vMul c.ftz half x)
  let t ← op (vTanh c.ftz h)
  op (vFma c.ftz half t half)

/-- The gate products of one vector, with the bias: row g of the weights times the vector in the weights' format. PRESUMED:
the weights have one row of IN_DIM + DIM elements per gate unit, the input first. -/
def OpIn.gates (c : OpIn) (w : Ten) (n rows first : Nat) (v : List Fp) : OpM (List Fp) := do
  let vf ← c.toFmt w.fmt v
  let g := max 1 (macGroup w.fmt w.fmt)
  (List.range rows).mapM fun r => do
    let ps ← (List.range n).mapM fun k => do
      let x ← c.rd w ((first + r) * n + k)
      return fpMulX (vf.getD k (fpOfNat 0)) x
    let b ← c.bias true false 2 (first + r)
    let a ← op (Acc.addAll c.ftz b ((chunks g ps).map fun q => Acc.f (groupSum q)))
    return match a with | .f x => x | .i x => fpOfInt x

/-- The new state of one row: GRU (h) or LSTM (h, c). PRESUMED: the cells' usual equations, gates in the order update, reset,
candidate and in the order input, forget, cell, output. -/
def OpIn.cell (c : OpIn) (lstm : Bool) (dim : Nat) (w : Ten) (n : Nat) (x st : List Fp) : OpM (List Fp) := do
  let z (l : List Fp) (i : Nat) : Fp := l.getD i (fpOfNat 0)
  if lstm then
    let g ← c.gates w n (4 * dim) 0 (x ++ st.take dim)
    let cs ← (List.range dim).mapM fun j => do
      let i ← c.sigmoid (z g j)
      let f ← c.sigmoid (z g (dim + j))
      let u ← op (vTanh c.ftz (z g (2 * dim + j)))
      let t ← op (vMul c.ftz i u)
      op (vFma c.ftz f (z st (dim + j)) t)
    let hs ← (List.range dim).mapM fun j => do
      let o ← c.sigmoid (z g (3 * dim + j))
      let t ← op (vTanh c.ftz (z cs j))
      op (vMul c.ftz o t)
    return hs ++ cs
  else
    let zr ← c.gates w n (2 * dim) 0 (x ++ st.take dim)
    let us ← (List.range dim).mapM fun j => c.sigmoid (z zr j)
    let rs ← (List.range dim).mapM fun j => c.sigmoid (z zr (dim + j))
    let rh ← (List.range dim).mapM fun j => op (vMul c.ftz (z rs j) (z st j))
    let cand ← c.gates w n dim (2 * dim) (x ++ rh)
    (List.range dim).mapM fun j => do
      let t ← op (vTanh c.ftz (z cand j))
      let om ← op (vSub c.ftz (fpOfNat 1) (z us j))
      let p ← op (vMul c.ftz om t)
      op (vFma c.ftz (z us j) (z st j) p)

/-- FP32 values from bytes. -/
def fpsOf (bs : List Byte) : List Fp := (List.range (bs.length / 4)).map fun i => f32v (BitVec.ofNat 32 (leAt bs (4 * i) 4))

/-- RECUR (Table 6.7, 0x0E). -/
def OpIn.recur (c : OpIn) : OpM OpOut := do
  let slots := c.par 0 2
  let dim := c.par 2 2
  let lstm := c.par 4 1 = 1
  let ind := c.par 6 2
  let n := ind + dim
  let w := c.slot 1
  let idx := c.port 0
  let feat := c.port 1
  noteScales w
  noteScales feat
  let per := if lstm then 2 * dim else dim
  let r ← (List.range idx.raw.size).foldlM (fun (acc : List (Nat × List Fp) × List Fp) i => do
    let word := idx.raw.getD i 0
    let slot := word % 65536
    if slot < slots then
      let st0 := (alGet acc.1 slot).getD (fpsOf (c.row slot))
      let st ← (if bitOf word 31 then List.replicate per (fpOfNat 0) else st0).mapM fun x => op (ftzIn c.ftz x)
      let x ← (List.range ind).mapM fun k => c.rdv feat (i * ind + k)
      let new ← c.cell lstm dim w n x st
      return (alSet slot new acc.1, acc.2 ++ new)
    else
      noteOob
      return acc) ([], [])
  let out ← c.writeF 0 r.2
  return { outs := [out]
           writes := r.1.map fun e => (0, 4 * per * e.1, e.2.flatMap fun x => leBytes 4 (fpEncode fmt32 x)) }

/-! ## The catalogue -/

/-- What a stage computes (Table 6.7). -/
def OpIn.run (c : OpIn) : OpM OpOut :=
  match c.s.opcode with
  | 0x01 => c.matmul
  | 0x02 => c.conv false
  | 0x03 => c.conv true
  | 0x04 => c.attention
  | 0x05 => c.norm
  | 0x06 => c.pool
  | 0x07 => c.resample
  | 0x08 => c.elementwise
  | 0x09 => c.gather
  | 0x0A => c.scatter
  | 0x0B => c.voxelize
  | 0x0C => c.topk
  | 0x0D => c.reduce
  | 0x0E => c.recur
  | _ => pure { outs := [] }

/-- The bytes of object operand d that a stage reads (R563). -/
def TDesc.extent (d : TDesc) : Nat := tenExtent d.fmt d.count

end Sys2Proof.Machine
end

