-- ==== Sys2Proof/Machine/Fabric.lean ====
section
/-!
DEFINITION. The token fabric: routes and their credits (R166 to R171), the paths of tokens over the mesh and the edge ports
(R172, R173, R176), the settlement of tokens and credits (R186 to R188) and the credit check (R189).
-/
namespace Sys2Proof.Machine

/-! ## Routes -/

/-- The descriptor of route r of the glazed image. -/
def Leaf.routeDesc (l : Leaf) (r : Nat) : Option RouteDesc := l.glz.image.bind fun im => im.routes[r]?

/-- The state of route r. -/
def Leaf.route (l : Leaf) (r : Nat) : RouteRun := l.fab.routes.getD r { credits := 0 }

/-- The fabric of a leaf replaced. -/
def Leaf.setFab (l : Leaf) (f : FabState) : Leaf := { l with fab := f }

/-- The state of route r replaced. -/
def Leaf.setRoute (l : Leaf) (r : Nat) (x : RouteRun) : Leaf := l.setFab { l.fab with routes := setAt l.fab.routes r x }

/-- Tokens that lack a credit sent while the producer holds one (R168). -/
def RouteRun.pumpN : Nat → RouteRun → RouteRun
  | 0, x => x
  | n + 1, x =>
    match x.waiting with
    | [] => x
    | t :: rest =>
      if x.credits = 0 then x
      else RouteRun.pumpN n { x with credits := x.credits - 1, waiting := rest, flight := x.flight ++ [t] }

/-- Every token that can be sent is sent. -/
def RouteRun.pump (x : RouteRun) : RouteRun := RouteRun.pumpN x.waiting.length x

/-- Tokens offered to a route by a producer that waits for credits: an engine, or the committed-output region. -/
def Leaf.offer (r : Nat) (ts : List Token) (l : Leaf) : Leaf :=
  let x := l.route r
  l.setRoute r (RouteRun.pump { x with waiting := x.waiting ++ ts })

/-- A token sent on a route by a stage, which holds a credit for it (R162, R168). -/
def Leaf.sendOn (r : Nat) (t : Token) (l : Leaf) : Leaf :=
  let x := l.route r
  l.setRoute r { x with credits := x.credits - 1, flight := x.flight ++ [t] }

/-- A token of a consumer's buffer consumed: its credit starts back (R168). -/
def RouteRun.consume (x : RouteRun) : RouteRun := { x with buf := x.buf.tail, back := x.back + 1 }

/-- Tokens of a producer's output as tokens of a route, the last one marked END (R163); an empty output is one END token with
no bytes. -/
def tokensOf (c : Carry) (poison blind : Bool) (toks : List (List Byte)) : List Token :=
  let mk (bs : List Byte) (last : Bool) : Token :=
    { bytes := bs, last := last, poison := poison, blind := blind, stale := c.stale, desync := c.desync, oldest := c.oldest }
  match toks with
  | [] => [mk [] true]
  | _ => (toks.dropLast.map fun b => mk b false) ++ [mk (toks.getLastD []) true]

/-- The END token with POISON of a producer that stopped (R188). -/
def poisonEnd (blind : Bool) : Token :=
  { bytes := [], last := true, poison := true, blind := blind, stale := false, desync := false, oldest := none }

/-- The earlier of two capture times. -/
def earliest (a b : Option Nat) : Option Nat :=
  match a, b with
  | none, x => x
  | x, none => x
  | some x, some y => some (min x y)

/-- What two sources carry together (R91, R93, R227). -/
def Carry.join (a b : Carry) : Carry :=
  { stale := a.stale || b.stale, desync := a.desync || b.desync, oldest := earliest a.oldest b.oldest }

/-- What a token carries. -/
def Token.carry (t : Token) : Carry := { stale := t.stale, desync := t.desync, oldest := t.oldest }

/-! ## Paths (R172, R173, R176) -/

/-- The physical pane of a logical one (R133). -/
def Leaf.phys (l : Leaf) (p : Nat) : Nat := l.fuses.pmap.getD p 0

/-- The first edge port and the number of edge ports of an engine code (Table 6.3). -/
def edgePorts (code : Nat) : Nat × Nat :=
  match code with
  | 1 => (0, 2)
  | 2 => (2, 2)
  | 3 => (4, 2)
  | 4 => (6, 2)
  | 5 => (8, 2)
  | 6 => (10, 1)
  | 7 => (11, 1)
  | 8 => (12, 2)
  | _ => (14, 2)

/-- The edge port that port P of an engine uses. -/
def edgePort (code port : Nat) : Nat := (edgePorts code).1 + port % (edgePorts code).2

/-- The physical pane next to an edge port: the west end of its row, or the east end. -/
def edgePane (e : Nat) : Nat := if e < 8 then 8 * e else 8 * (e - 8) + 7

/-- A pseudo-stage ID is an engine's. -/
def isEngine (id : Nat) : Bool := decide (0xFF00 ≤ id)

/-- Where an end of a route lies: its physical pane, and the edge port of an engine. -/
def Leaf.endOf (l : Leaf) (id port : Nat) : Nat × Option Nat :=
  if isEngine id then
    let e := edgePort (id - 0xFF00) port
    (edgePane e, some e)
  else
    match l.glz.image.bind fun im => im.stage id with
    | some s => (l.phys s.entry, none)
    | none => (0, none)

/-- The links from column c to column d of row r, each as physical pane × 4 + direction. -/
def rowLinks (r c d : Nat) : List Nat :=
  if c ≤ d then (List.range (d - c)).map fun k => (8 * r + c + k) * 4 + 1
  else (List.range (c - d)).map fun k => (8 * r + c - k) * 4 + 3

/-- The links from row r to row q of column c. -/
def colLinks (c r q : Nat) : List Nat :=
  if r ≤ q then (List.range (q - r)).map fun k => (8 * (r + k) + c) * 4 + 2
  else (List.range (r - q)).map fun k => (8 * (r - k) + c) * 4

/-- The links of a route in order: row first, then column; edge ports as 0x0100 + number (R173, Table 21.5). -/
def Leaf.routeLinks (l : Leaf) (d : RouteDesc) : List Nat :=
  let a := l.endOf d.src d.srcPort
  let b := l.endOf d.dst d.dstPort
  (match a.2 with | some e => [0x100 + e] | none => [])
    ++ rowLinks (a.1 / 8) (a.1 % 8) (b.1 % 8) ++ colLinks (b.1 % 8) (a.1 / 8) (b.1 / 8)
    ++ (match b.2 with | some e => [0x100 + e] | none => [])

/-- The tokens in flight whose path starts on link k, by virtual channel. DESIGN CHOICE: a token in flight holds the credit of
the first link of its path; which link it has reached is a matter of timing. -/
def Leaf.linkUse (l : Leaf) (k vc : Nat) : Nat :=
  ((List.range l.fab.routes.length).map fun r =>
    match l.routeDesc r with
    | some d => if d.vc = vc && (l.routeLinks d).head? == some k then (l.route r).flight.length else 0
    | none => 0).foldl (· + ·) 0

/-- PANE_LINKd of a pane: link credits by virtual channel; 0 for a link with no neighbour and no edge port (R190). -/
def Leaf.paneLink (l : Leaf) (p d : Nat) : Nat :=
  let ph := l.phys p
  let dead := (d == 0 && decide (ph / 8 = 0)) || (d == 2 && decide (ph / 8 = 7))
  let edge := (d == 3 && decide (ph % 8 = 0)) || (d == 1 && decide (ph % 8 = 7))
  let k := if edge then 0x100 + (if d = 3 then ph / 8 else 8 + ph / 8) else ph * 4 + d
  if dead then 0
  else ((List.range 4).map fun vc => (8 - min 8 (l.linkUse k vc)) <<< (4 * vc)).foldl (· + ·) 0

/-! ## Moving tokens and credits -/

/-- A LINK_CRC failure at a link (R528). -/
def Leaf.linkCrc (inj : Bool) (k : Nat) (l : Leaf) : Leaf :=
  l.notify 0x0C { block := 0x10, inst := k, flags := if inj then 4 else 0 }

/-- The injection of kind 4 pending on one of the links (R537). -/
def Leaf.injLink (l : Leaf) (ks : List Nat) : Option Nat :=
  match l.flt.inject with
  | some (4, t) => if ks.contains t then some t else none
  | _ => none

/-- The pending injection done. -/
def Leaf.injDone (l : Leaf) : Leaf := ({ l with flt := { l.flt with inject := none } }).putB Fld.FLT_INJ_BUSY false

/-- CRC failures at the links of a path: those the command reports, and an injected one. True when there is one. -/
def Leaf.crcAt (links bad : List Nat) (l : Leaf) : Bool × Leaf :=
  let hit := bad.filter fun k => links.contains k
  let l1 := hit.foldl (fun m k => m.linkCrc false k) l
  match l1.injLink links with
  | some k => (true, (l1.linkCrc true k).injDone)
  | none => (!hit.isEmpty, l1)

/-- The engine port of a key. -/
def Leaf.engPort (l : Leaf) (code port : Nat) : EngPort := (alGet l.fab.ports (code * 64 + port)).getD {}

/-- A token taken by an engine from one of its input ports. -/
def EngPort.take (e : EngPort) (t : Token) : EngPort :=
  { toks := if t.bytes.isEmpty then e.toks else e.toks ++ [t.bytes], ended := e.ended || t.last, poison := e.poison || t.poison,
    carry := e.carry.join t.carry }

/-- The engine port of a key replaced. -/
def Leaf.setEngPort (l : Leaf) (code port : Nat) (e : EngPort) : Leaf :=
  l.setFab { l.fab with ports := alSet (code * 64 + port) e l.fab.ports }

/-- The projection engine's ports, which take blind tokens too (R304, R333). -/
def blindPort (d : RouteDesc) : Bool := d.dst == 0xFF08 && decide (20 ≤ d.dstPort) && decide (d.dstPort ≤ 27)

/-- The code under which an engine keeps what it took from blind tokens. -/
def blindCode (code : Nat) (blind : Bool) : Nat := if blind then code + 64 else code

/-- Tokens at the head of the buffer that an engine takes: every token without BLIND, and blind ones too where the engine runs
blind. -/
def Leaf.engineTakeN (r : Nat) (d : RouteDesc) : Nat → Leaf → Leaf
  | 0, l => l
  | n + 1, l =>
    let x := l.route r
    match x.buf with
    | [] => l
    | t :: _ =>
      if t.blind && !blindPort d then l
      else
        let code := blindCode (d.dst - 0xFF00) t.blind
        let e := (l.engPort code d.dstPort).take t
        Leaf.engineTakeN r d n ((l.setRoute r x.consume).setEngPort code d.dstPort e)

/-- An engine consumes what its buffer holds. -/
def Leaf.engineTake (r : Nat) (d : RouteDesc) (l : Leaf) : Leaf := Leaf.engineTakeN r d (l.route r).buf.length l

/-- The oldest token of a route reaches its consumer's buffer after its hops (R171); `bad` are links of its path at which its
CRC failed. -/
def Leaf.tokenArrival (r : Nat) (bad : List Nat) (l : Leaf) : Leaf :=
  match l.routeDesc r, (l.route r).flight with
  | some d, t :: rest =>
    let c := l.crcAt (l.routeLinks d) bad
    let x := c.2.route r
    let t1 := { t with poison := t.poison || c.1 }
    let l1 := c.2.setRoute r { x with flight := rest, buf := x.buf ++ [t1] }
    if isEngine d.dst then l1.engineTake r d else l1
  | _, _ => l

/-- A credit of a route reaches its producer (R168); a CRC failure on its way is logged and the credit counts as returned
(R528). -/
def Leaf.creditReturn (r : Nat) (bad : List Nat) (l : Leaf) : Leaf :=
  match l.routeDesc r with
  | none => l
  | some d =>
    let x := l.route r
    if x.back = 0 then l
    else
      let c := l.crcAt (l.routeLinks d) bad
      let x := c.2.route r
      c.2.setRoute r (RouteRun.pump { x with credits := x.credits + 1, back := x.back - 1 })

/-! ## Sending outputs -/

/-- The routes out of a port that are in-tick edges. -/
def Leaf.outRoutes (l : Leaf) (src port : Nat) : List Nat :=
  match l.glz.image with
  | none => []
  | some im => ((im.routesFrom src port).filter fun e => !e.2.committed).map (·.1)

/-- The routes out of a port that are committed edges. -/
def Leaf.commitRoutes (l : Leaf) (src port : Nat) : List Nat :=
  match l.glz.image with
  | none => []
  | some im => ((im.routesFrom src port).filter fun e => e.2.committed).map (·.1)

/-- An engine sends a whole output on its port (R163). -/
def Leaf.engineSend (code port : Nat) (ts : List Token) (l : Leaf) : Leaf :=
  (l.outRoutes (0xFF00 + code) port).foldl (fun m r => m.offer r ts) l

/-! ## Boundary: drain and check (R94, R187, R189) -/

/-- A route at step 2: tokens on the mesh have reached the buffer, tokens that are not blind are discarded, credits have come
back. The number of discarded tokens. -/
def RouteRun.drain (x : RouteRun) (keep : Token → Bool) : RouteRun × Nat :=
  let all := x.buf ++ x.flight
  let stay := all.filter keep
  let gone := all.length - stay.length
  ({ credits := x.credits + x.back + gone, waiting := [], flight := [], buf := stay, back := 0 }, gone)

/-- Every route drained: blind tokens stay in their buffers (R335, R336). -/
def Leaf.drainRoutes (keepBlind : Bool) (l : Leaf) : Leaf × Nat :=
  let rs := l.fab.routes.map fun x => x.drain fun t => keepBlind && t.blind
  (l.setFab { l.fab with routes := rs.map (·.1) }, (rs.map (·.2)).foldl (· + ·) 0)

/-- The first route whose credits and buffered tokens do not add up to CREDITS, with the expected and the counted value; an
injected mismatch (kind 1, R537) takes one credit away from the count of its route. -/
def Leaf.creditFault (l : Leaf) : Option (Nat × Nat × Nat × Bool) :=
  match l.glz.image with
  | none => none
  | some im =>
    (List.range im.routes.length).findSome? fun r =>
      match im.routes[r]? with
      | none => none
      | some d =>
        let x := l.route r
        let inj := l.flt.inject == some (1, r)
        let counted := x.credits + x.buf.length - b2n inj
        if counted ≠ d.credits then some (r, d.credits, counted, inj) else none

/-- The credit check of step 2 (R189): a mismatch is the STOP fault CREDIT_SUM. -/
def Leaf.creditCheck (l : Leaf) : Leaf :=
  match l.creditFault with
  | none => l
  | some (r, want, got, inj) =>
    let l1 := l.stop 0x01 { block := 0x10, addr := want + got * 2 ^ 32, flags := 4 * b2n inj, inst := r }
    if inj then l1.injDone else l1

end Sys2Proof.Machine
end

