-- ==== Sys2Proof/Machine/Filter.lean ====
section
/-!
DEFINITION. The filter chain (R245 to R258): the minimum-phase path, the linear-phase path, the coarse path, thresholds, phase
resets and channel objects; what an output gives the ego-motion unit (R259, R262).
-/
namespace Sys2Proof.Machine

/-! ## Slots of window objects (R229, R258) -/

/-- Object i can take window records: WRITABLE RESIDENT_DRAM and at least 128 bytes (R229). -/
def Leaf.slotObjOk (l : Leaf) (i : Nat) : Bool :=
  match l.obj i with
  | some o => o.place == 0 && o.writable && decide (128 ≤ o.size)
  | none => false

/-- A record added to a window's slot if it fits in SIZE; else dropped with OVF (R229). -/
def SlotBuf.add (b : SlotBuf) (size : Nat) (r : SlotRec) : SlotBuf × Bool :=
  if 64 + b.used + r.bytes.length ≤ size then ({ b with recs := b.recs ++ [r], used := b.used + r.bytes.length }, true)
  else ({ b with flags := b.flags ||| 1, lost := b.lost + 1, drop := true }, false)

/-- The slot header of Table 8.3. -/
def slotHeader (tick items used oldest newest code flags lost : Nat) : List Byte :=
  leBytes 8 tick ++ leBytes 4 items ++ leBytes 4 used ++ leBytes 8 oldest ++ leBytes 8 newest ++ leBytes 1 code
    ++ leBytes 1 flags ++ leBytes 2 0 ++ leBytes 4 lost ++ List.replicate 24 0

/-- The smallest of a list of numbers, 0 when empty. -/
def minNat (l : List Nat) : Nat := l.tail.foldl min (l.headD 0)

/-- The records of a window written to its object and committed: header and items (R227, R229). -/
def Leaf.commitSlot (obj tick code flags lost : Nat) (rs : List SlotRec) (l : Leaf) : Leaf :=
  if l.slotObjOk obj && !l.poisoned obj then
    let body := rs.flatMap (·.bytes)
    let caps := rs.map (·.cap)
    let h := slotHeader tick rs.length body.length (minNat caps) (caps.foldl max 0) code flags lost
    (l.objWrite obj 0 (h ++ body)).swapHalf obj
  else l

/-! ## Integer arithmetic (R249) -/

/-- A 56-bit saturation. -/
def sat56 (v : Int) : Int × Nat :=
  if v > 2 ^ 55 - 1 then (2 ^ 55 - 1, 1) else if v < -(2 ^ 55) then (-(2 ^ 55), 1) else (v, 0)

/-- A 32-bit saturation. -/
def sat32 (v : Int) : Int × Nat :=
  if v > 2147483647 then (2147483647, 1) else if v < -2147483648 then (-2147483648, 1) else (v, 0)

/-- A sum of products, each addition saturating to 56 bits, with the number of saturations. -/
def satSum (ps : List Int) : Int × Nat :=
  ps.foldl (fun acc p => let r := sat56 (acc.1 + p); (r.1, acc.2 + r.2)) (0, 0)

/-- The Q2.22 coefficient that a register holds (R249). -/
def coef (w : Nat) : Int := signedOf 24 w

/-- One step of a second-order section: the new state, the output and the number of saturations (R249). -/
def Sos.step (s : Sos) (b0 b1 b2 a1 a2 : Int) (shift : Nat) (x : Int) : Sos × Int × Nat :=
  let acc := satSum [b0 * x, b1 * s.x1, b2 * s.x2, -(a1 * s.y1), -(a2 * s.y2)]
  let y := sat32 (rshiftRne acc.1 22)
  ({ x2 := s.x1, x1 := x, y2 := s.y1, y1 := y.1 }, y.1 / (2 ^ shift : Nat), acc.2 + y.2)

/-! ## The minimum-phase path (R247 to R249) -/

/-- The element kinds of MPPROG in order, up to the end code. -/
def mpKinds (prog : Nat) : List Nat := ((List.range 12).map fun e => prog / 4 ^ e % 4).takeWhile (· != 0)

/-- MPPROG is refused for an input rate of 8 × 2^fs kS/s (R248): an element after an end code, the reserved code 3, more than 8
SOS or 6 DEC2, or an output below 1 kS/s. -/
def mpBad (prog fs : Nat) : Bool :=
  let all := (List.range 12).map fun e => prog / 4 ^ e % 4
  let ks := mpKinds prog
  let d := (ks.filter (· == 2)).length
  (all.drop ks.length).any (· != 0) || ks.contains 3 || decide (8 < (ks.filter (· == 1)).length) || decide (6 < d)
    || decide (8 * 2 ^ fs < 2 ^ d)

/-- The coefficients of SOS set i of channel ch. -/
def Leaf.sosCoefs (l : Leaf) (ch i : Nat) : List Int :=
  [coef (l.rd (Reg.FILT_CH_SOS_B0 ch i)), coef (l.rd (Reg.FILT_CH_SOS_B1 ch i)), coef (l.rd (Reg.FILT_CH_SOS_B2 ch i)),
   coef (l.rd (Reg.FILT_CH_SOS_A1 ch i)), coef (l.rd (Reg.FILT_CH_SOS_A2 ch i))]

/-- The program run on one sample: the sections, the output where one arises, and the saturations. `i` numbers the SOS, `r` is
the cumulative decimation. -/
def Leaf.mpRun (l : Leaf) (ch j : Nat) : List Nat → Nat → Nat → List Sos → Int → List Sos × Option Int × Nat
  | [], _, _, ss, x => (ss, some x, 0)
  | k :: ks, i, r, ss, x =>
    if k = 2 then
      if j % (2 * r) = 0 then l.mpRun ch j ks i (2 * r) ss x else (ss, none, 0)
    else
      match l.sosCoefs ch i with
      | [b0, b1, b2, a1, a2] =>
        let st := (ss.getD i {}).step b0 b1 b2 a1 a2 (l.get (Fld.FILT_CH_SOS_SHIFT_SHIFT ch i)) x
        let rest := l.mpRun ch j ks (i + 1) r (setAt ss i st.1) st.2.1
        (rest.1, rest.2.1, rest.2.2 + st.2.2)
      | _ => (ss, some x, 0)

/-! ## The linear-phase path (R250, R251) -/

/-- n = log2(FS_IN / R) of a preset. -/
def lpN (preset fs : Nat) : Nat := 3 + fs - (if preset = 0 then 2 else if preset = 1 then 1 else 0)

/-- The taps of a stage from its centre and its non-zero taps by offset. -/
def tapsOf (n c : Nat) (ts : List (Nat × Int)) : List Int :=
  (List.range n).map fun i =>
    let k := if i < c then c - i else i - c
    (alGet ts k).getD 0

/-- HB7 of Table 9.1. -/
def hb7 : List Int := tapsOf 7 3 [(0, 2097152), (1, 1179648), (3, -131072)]

/-- HB31 of Table 9.1. -/
def hb31 : List Int :=
  tapsOf 31 15 [(0, 2097152), (1, 1318776), (3, -400000), (5, 200400), (7, -110700), (9, 60800), (11, -30300), (13, 12300),
    (15, -2700)]

/-- SINC5 of Table 9.1. -/
def sinc5 : List Int := tapsOf 13 6 [(0, 637536), (1, 603980), (2, 503316), (3, 335544), (4, 201327), (5, 100663), (6, 33554)]

/-- The stages of a preset: taps and cumulative decimation (R250). -/
def lpStages (preset fs : Nat) : List (List Int × Nat) :=
  let n := lpN preset fs
  ((List.range n).map fun i => (if i + 1 = n then hb31 else hb7, 2 ^ (i + 1))) ++ (if preset = 3 then [(sinc5, 5 * 2 ^ n)] else [])

/-- The group delay in input samples (R251). -/
def lpDelay (preset fs : Nat) : Nat :=
  let n := lpN preset fs
  3 * (2 ^ (n - 1) - 1) + 15 * 2 ^ (n - 1) + (if preset = 3 then 6 * 2 ^ n else 0)

/-- The settling length in input samples (R251). -/
def lpSettle (preset fs : Nat) : Nat := 2 * lpDelay preset fs + 1

/-- The input rate in samples per second. -/
def fsHz (fs : Nat) : Nat := 8000 * 2 ^ fs

/-- The group delay in ns. -/
def lpDelayNs (preset fs : Nat) : Nat := lpDelay preset fs * 10 ^ 9 / fsHz fs

/-- One sample through the stages: the new delay lines, the output where one arises, the saturations. -/
def lpRun (j : Nat) : List (List Int × Nat) → List (List Int) → Int → List (List Int) × Option Int × Nat
  | [], ls, x => (ls, some x, 0)
  | (h, r) :: st, ls, x =>
    let line := (x :: ls.headD []).take h.length
    if j % r = 0 then
      let acc := satSum ((h.zip line).map fun p => p.1 * p.2)
      let y := sat32 (rshiftRne acc.1 22)
      let rest := lpRun j st ls.tail y.1
      (line :: rest.1, rest.2.1, acc.2 + y.2 + rest.2.2)
    else (line :: ls.tail, none, 0)

/-! ## Channel state -/

/-- A channel of the chain. -/
def Leaf.ch (l : Leaf) (c : Nat) : FiltCh := l.filt.chs.getD c {}

/-- A channel replaced. -/
def Leaf.setCh (l : Leaf) (c : Nat) (x : FiltCh) : Leaf := { l with filt := { l.filt with chs := setAt l.filt.chs c x } }

/-- SETTLED and SCNT cleared, and ABOVE of both thresholds without an event (R253, R256). -/
def Leaf.clearSettled (c : Nat) (l : Leaf) : Leaf :=
  (((l.putB (Fld.FILT_CH_STAT_SETTLED c) false).wr (Reg.FILT_CH_SCNT c) 0).putB (Fld.FILT_CH_STAT_ABOVE0 c) false).putB
    (Fld.FILT_CH_STAT_ABOVE1 c) false

/-- All state of a channel set to 0 (R253). -/
def Leaf.clearCh (c : Nat) (l : Leaf) : Leaf :=
  let x := l.ch c
  ((l.clearSettled c).putB (Fld.FILT_CH_STAT_COARSE_VALID c) false).setCh c
    { x with sos := List.replicate 8 {}, lines := [], coarse := [], coarseN := 0 }

/-- The source that feeds a channel leaves UP: the channel is cleared and PHASE_LOST set (R253). -/
def Leaf.feederLost (c : Nat) (l : Leaf) : Leaf := (l.clearCh c).putB (Fld.FILT_CH_STAT_PHASE_LOST c) true

/-- A count of saturations and the SAT flag with its event. -/
def Leaf.filtSat (c n : Nat) (l : Leaf) : Leaf :=
  if n = 0 then l else (l.countBy 8 c n).flagEvent (Fld.FILT_CH_STAT_SAT c) 0x0A9

/-! ## Thresholds (R256, R257) -/

/-- THR_CFG bit b of threshold t. -/
def Leaf.thrBit (l : Leaf) (c t b : Nat) : Bool := bitOf (l.rd (Reg.FILT_CH_THR_CFG c)) (8 * t + b)

/-- The ABOVE bit of a threshold. -/
def aboveFld (c t : Nat) : FieldRef := if t = 0 then Fld.FILT_CH_STAT_ABOVE0 c else Fld.FILT_CH_STAT_ABOVE1 c

/-- The event flag of a threshold. -/
def thrEvFld (c t : Nat) : FieldRef := if t = 0 then Fld.FILT_CH_STAT_THR0_EV c else Fld.FILT_CH_STAT_THR1_EV c

/-- A threshold event (R257). -/
def Leaf.thrEvent (c t : Nat) (rising : Bool) (outTime at' : Nat) (y : Int) (l : Leaf) : Leaf :=
  let l1 := l.flagEvent (thrEvFld c t) (0x0C0 + 2 * c + t)
  { l1 with filt := { l1.filt with recs := l1.filt.recs ++
      [{ chan := c, thr := t, rising := rising, outTime := outTime, at' := at', y := y }] } }

/-- An output y of a path (0 linear-phase, 1 minimum-phase) compared by threshold t (R256). -/
def Leaf.thrCompare (c path outTime at' : Nat) (y : Int) (l : Leaf) (t : Nat) : Leaf :=
  if !l.thrBit c t 4 || l.thrBit c t 3 != decide (path = 1)
      || (l.thrBit c t 2 && decide (path = 0) && !l.bit (Fld.FILT_CH_STAT_SETTLED c)) then l
  else
    let level := signedOf 32 (l.rd (Reg.FILT_CH_THR_LEVEL c t))
    let hyst : Int := (l.rd (Reg.FILT_CH_THR_HYST c t) : Nat)
    if l.bit (aboveFld c t) then
      if y < level - hyst then
        let l1 := l.putB (aboveFld c t) false
        if l.thrBit c t 1 then l1.thrEvent c t false outTime at' y else l1
      else l
    else if level ≤ y then
      let l1 := l.putB (aboveFld c t) true
      if l.thrBit c t 0 then l1.thrEvent c t true outTime at' y else l1
    else l

/-- Both thresholds. -/
def Leaf.thresholds (c path outTime at' : Nat) (y : Int) (l : Leaf) : Leaf :=
  [0, 1].foldl (fun m t => m.thrCompare c path outTime at' y t) l

/-! ## Channel objects (R258) -/

/-- The bytes of a channel output record (Table 9.3). -/
def chanRecord (outTime : Nat) (y coarse : Int) (flags : Nat) : List Byte :=
  leBytes 8 outTime ++ leBytes 4 (patternOf 32 y) ++ leBytes 4 (patternOf 32 coarse) ++ leBytes 1 flags ++ List.replicate 7 0

/-- An output recorded for the channel's object when its path is the selected one (R258). -/
def Leaf.chanRecord (c path outTime at' : Nat) (y coarse : Int) (sat : Bool) (l : Leaf) : Leaf :=
  let obj := l.get (Fld.FILT_CH_CFG_OBJ c)
  if obj = 0xFFF ∨ l.get (Fld.FILT_CH_CFG_OBJ_PATH c) ≠ path then l
  else
    match l.obj obj with
    | none => l
    | some o =>
      let flags := b2n (l.bit (Fld.FILT_CH_STAT_SETTLED c)) + 2 * b2n (l.bit (Fld.FILT_CH_STAT_COARSE_VALID c)) + 4 * b2n sat
        + 8 * b2n (l.bit (Fld.FILT_CH_STAT_PHASE_LOST c))
      let x := l.ch c
      let r := x.slot.add o.size
        { at' := at', cap := outTime, bytes := Machine.chanRecord outTime y (if path = 0 then coarse else 0) flags }
      let l1 := l.setCh c { x with slot := r.1 }
      if r.2 then l1 else l1.bump 8 (32 + c)

/-! ## What an output gives the ego-motion unit (R259, R261, R262) -/

/-- The slot k of EGO_IMU_CH. -/
def Leaf.imuCh (l : Leaf) (k : Nat) : Nat := bitsOf (l.rd Reg.EGO_IMU_CH) (5 * k + 4) (5 * k)

/-- The channel of wheel j. -/
def Leaf.wheelCh (l : Leaf) (j : Nat) : Nat := bitsOf (l.rd Reg.EGO_WHL_CH) (5 * j + 4) (5 * j)

/-- The values joined to the set of their output time. -/
def Leaf.imuJoin (l : Leaf) (t : Int) (vals : List (Nat × Int)) : Leaf :=
  let ss := l.ego.sets
  let new := if ss.any fun s => s.t == t then ss.map fun s => if s.t = t then { s with vals := s.vals ++ vals } else s
    else ss ++ [{ t := t, vals := vals }]
  { l with ego := { l.ego with sets := new } }

/-- An output joined to the set of its output time; a set whose window has been propagated is late (R261). -/
def Leaf.imuTake (c : Nat) (t y : Int) (l : Leaf) : Leaf :=
  let ks := (List.range 6).filter fun k => l.imuCh k == c
  if ks.isEmpty || !l.bit Fld.EGO_CTRL_ENABLE then l
  else
    let vals := ks.map fun k => (k, y)
    match l.ego.nextWin with
    | some w =>
      if t < (w : Int) * 65536 then ((l.inc Fld.EGO_LATE_CNT_COUNT).bump 9 2).flagEvent Fld.EGO_STAT_LATE 0x0A5
      else l.imuJoin t vals
    | none => l.imuJoin t vals

/-- A wheel's latest value. -/
def Leaf.wheelTake (c : Nat) (t y : Int) (l : Leaf) : Leaf :=
  let js := (List.range 4).filter fun j => l.wheelCh j == c && bitOf (l.get Fld.EGO_WHL_CH_WHL_EN) j
  { l with ego := { l.ego with wheels := js.foldl (fun ws j => setAt ws j (some (t, y))) l.ego.wheels } }

/-! ## One input sample -/

/-- A minimum-phase output: register, thresholds, object, ego-motion. -/
def Leaf.mpOut (c at' : Nat) (t y : Int) (sat : Bool) (l : Leaf) : Leaf :=
  let ns := (t / 65536).toNat
  let l1 := (l.wr (Reg.FILT_CH_MPOUT c) (patternOf 32 y)).thresholds c 1 ns at' y
  ((l1.chanRecord c 1 ns at' y 0 sat).imuTake c t y).wheelTake c t y

/-- A linear-phase output with the coarse one: registers, step, thresholds, object (R252, R253). -/
def Leaf.lpOut (c at' : Nat) (t y coarse : Int) (sat : Bool) (l : Leaf) : Leaf :=
  let ns := (t / 65536).toNat
  let l1 := (l.wr (Reg.FILT_CH_LPOUT c) (patternOf 32 y)).wr (Reg.FILT_CH_COARSE c) (patternOf 32 coarse)
  let thr := l1.rd (Reg.FILT_CH_STEP c)
  let l2 := if thr ≠ 0 && l1.bit (Fld.FILT_CH_STAT_COARSE_VALID c) && decide (thr < (y - coarse).natAbs)
    then (l1.flagEvent (Fld.FILT_CH_STAT_STEP_EV c) 0x0A8).clearSettled c else l1
  (l2.thresholds c 0 ns at' y).chanRecord c 0 ns at' y coarse sat

/-- PRESET and a phase reset taken over at an input sample stamped `stamp` (R253, R254, R267). -/
def Leaf.sampleStart (c stamp : Nat) (l : Leaf) : Leaf :=
  let p := l.get (Fld.FILT_CH_CFG_PRESET c)
  let x := l.ch c
  let l1 := if x.preset = p then l else (l.clearSettled c).setCh c { x with preset := p, lines := [] }
  match x.resetAt with
  | none => l1
  | some ts =>
    if ts ≤ stamp then
      let y := l1.ch c
      (l1.setCh c { y with resetAt := none, j := 0 }).putB (Fld.FILT_CH_STAT_PHASE_LOST c) false
    else l1

/-- The counts of one sample taken: SCNT, COARSE_VALID, SETTLED (R252). -/
def Leaf.sampleCount (c fs : Nat) (v : Int) (l : Leaf) : Leaf :=
  let x := l.ch c
  let n := min 8 (x.coarseN + 1)
  let l1 := (l.setCh c { x with coarse := (v :: x.coarse).take 8, coarseN := n }).incSat (Fld.FILT_CH_SCNT_COUNT c)
  let l2 := if n = 8 then l1.putB (Fld.FILT_CH_STAT_COARSE_VALID c) true else l1
  if lpSettle x.preset fs ≤ l2.rd (Reg.FILT_CH_SCNT c) then l2.putB (Fld.FILT_CH_STAT_SETTLED c) true else l2

/-- A sample of a SAMPLED channel: value v, arrival stamp and capture time in 2^-16 ns, instant of arrival in ns. -/
def Leaf.sampled (c stamp at' : Nat) (cap v : Int) (l : Leaf) : Leaf :=
  let fs := l.get (Fld.FILT_CH_CFG_FS_IN c)
  let l1 := (l.sampleStart c stamp).sampleCount c fs v
  let x := l1.ch c
  let mp := l1.mpRun c x.j (mpKinds (l1.get (Fld.FILT_CH_MPPROG_KIND c))) 0 1 x.sos v
  let st := lpStages x.preset fs
  let ls := x.lines ++ (st.drop x.lines.length).map fun s => List.replicate s.1.length 0
  let lp := lpRun x.j st ls v
  let l2 := (l1.setCh c { x with sos := mp.1, lines := lp.1, j := x.j + 1 }).filtSat c (mp.2.2 + lp.2.2)
  let l3 := match lp.2.1 with
    | none => l2
    | some y => l2.lpOut c at' (cap - (lpDelayNs x.preset fs : Nat) * 65536) y (x.coarse.foldl (· + ·) 0 / 8) (lp.2.2 != 0)
  match mp.2.1 with
  | none => l3
  | some y => l3.mpOut c at' cap y (mp.2.2 != 0)

/-- A value of an EVENT channel: the output of every path (R246). -/
def Leaf.eventValue (c at' : Nat) (cap v : Int) (l : Leaf) : Leaf :=
  let l1 := ((l.incSat (Fld.FILT_CH_SCNT_COUNT c)).putB (Fld.FILT_CH_STAT_SETTLED c) true).putB
    (Fld.FILT_CH_STAT_COARSE_VALID c) true
  (l1.lpOut c at' cap v v false).mpOut c at' cap v false

/-- An input value reaches channel c (R245). -/
def Leaf.filtIn (c stamp at' : Nat) (cap v : Int) (l : Leaf) : Leaf :=
  if l.bit (Fld.FILT_CH_CFG_ENABLE c) then
    if l.bit (Fld.FILT_CH_CFG_MODE c) then l.eventValue c at' cap v else l.sampled c stamp at' cap v
  else l

/-! ## Phase resets (R254, R255) -/

/-- A phase reset at instant ts in 2^-16 ns: every SAMPLED channel with SYNC_EN takes it; instants within one local count make
one reset. -/
def Leaf.phaseReset (ts : Nat) (l : Leaf) : Leaf :=
  let near := match l.filt.lastReset with
    | some p => decide ((ts : Int) - p < 83887 ∧ (p : Int) - ts < 83887)
    | none => false
  if near then l
  else
    let chs := (List.range 32).map fun c =>
      let x := l.ch c
      if l.bit (Fld.FILT_CH_CFG_SYNC_EN c) && !l.bit (Fld.FILT_CH_CFG_MODE c) then { x with resetAt := some ts } else x
    let l1 := { l with filt := { l.filt with chs := chs, lastReset := some ts } }
    (((l1.wr64 Reg.FILT_SYNC_LAST_LO Reg.FILT_SYNC_LAST_HI (ts / 65536)).put Fld.FILT_SYNC_LAST_FRAC_VT (ts % 65536)).inc
      Fld.FILT_SYNC_CNT_COUNT).raise 0x0AA

/-- FILT_SYNC_CTRL.ARM (R255): refused for a tick that is not above the current one. While the leaf is not TICKING the current
tick is the one that vehicle time lies in. DEDUCED. -/
def Leaf.syncArm (l : Leaf) : Leaf :=
  let t := l.rd64 Reg.FILT_SYNC_TICK_LO Reg.FILT_SYNC_TICK_HI
  let now := if l.ticking then l.tickNum else l.nowNs / max 1 (l.rd Reg.TICK_PERIOD)
  if t ≤ now then l.flagEvent Fld.FILT_SYNC_CTRL_REFUSED 0x0AB
  else ({ l with filt := { l.filt with armed := some t } }).putB Fld.FILT_SYNC_CTRL_PENDING true

/-- FILT_SYNC_CTRL.CANCEL. -/
def Leaf.syncCancel (l : Leaf) : Leaf :=
  ({ l with filt := { l.filt with armed := none } }).putB Fld.FILT_SYNC_CTRL_PENDING false

/-- The boundary of the armed tick is reached: a phase reset at the boundary's instant. -/
def Leaf.syncTick (l : Leaf) : Leaf :=
  match l.filt.armed with
  | none => l
  | some t =>
    let at' := t * l.rd Reg.TICK_PERIOD
    if at' ≤ l.nowNs then (l.syncCancel).phaseReset (at' * 65536) else l

/-! ## Register writes (R248, R253, R258, R267) -/

/-- ENABLE of a channel written 1 while it is 0: a bad program or object refuses it; else all state is 0 (R248, R253, R258). -/
def Leaf.filtEnable (c w : Nat) (l : Leaf) : Leaf :=
  let obj := bitsOf w 11 0
  if mpBad (l.rd (Reg.FILT_CH_MPPROG c)) (bitsOf w 29 28) || (obj != 0xFFF && !l.slotObjOk obj) then
    (l.swWrite (Reg.FILT_CH_CFG c) (w % 2 ^ 31)).flagEvent Fld.FILT_STAT_CFG_REFUSED 0x0AC
  else
    let l1 := (l.swWrite (Reg.FILT_CH_CFG c) w).clearCh c
    let x := l1.ch c
    l1.setCh c { x with preset := bitsOf w 25 24, slot := {} }

/-- A write of FILT_CHc_CFG: while ENABLE is 1 only PRESET and ENABLE act (R267). -/
def Leaf.writeChCfg (c w : Nat) (l : Leaf) : Leaf :=
  let a := Reg.FILT_CH_CFG c
  let old := l.rd a
  if bitOf old 31 then
    let l1 := l.wr a (setBits (setBits old 25 24 (bitsOf w 25 24)) 31 31 (bitsOf w 31 31))
    if w &&& 0x70180FFF = old &&& 0x70180FFF then l1 else l1.flagEvent Fld.FILT_STAT_CFG_REFUSED 0x0AC
  else if bitOf w 31 then l.filtEnable c w
  else l.swWrite a w

/-- A write of MPPROG or an SOS register of channel c: ignored while the channel is on (R267). -/
def Leaf.writeChProg (c a w : Nat) (l : Leaf) : Leaf :=
  if l.bit (Fld.FILT_CH_CFG_ENABLE c) then l.flagEvent Fld.FILT_STAT_CFG_REFUSED 0x0AC else l.swWrite a w

/-- The objects of the channels written for the window that closes (R258): records of instants from `lo` to below `hi`. -/
def Leaf.commitChannels (tick lo hi : Nat) (l : Leaf) : Leaf :=
  (List.range 32).foldl (fun m c =>
    let obj := m.get (Fld.FILT_CH_CFG_OBJ c)
    let x := m.ch c
    if obj = 0xFFF ∨ !m.bit (Fld.FILT_CH_CFG_ENABLE c) then m
    else
      let rs := x.slot.recs.filter fun r => decide (lo ≤ r.at') && decide (r.at' < hi)
      let rest := x.slot.recs.filter fun r => decide (hi ≤ r.at')
      (m.commitSlot obj tick 0 (x.slot.flags % 2) x.slot.lost rs).setCh c
        { x with slot := { recs := rest, used := (rest.map fun r => r.bytes.length).foldl (· + ·) 0 } }) l

end Sys2Proof.Machine
end

