-- ==== Sys2Proof/Machine/Ego.lean ====
section
/-!
DEFINITION. The ego-motion unit (R259 to R266): binary64 vectors and matrices, integration, wheel slip, corrections, the
hand-off to the solver and the prediction.
-/
namespace Sys2Proof.Machine

/-! ## Vectors and matrices in binary64 (R259) -/

/-- Element i of a vector. -/
def vGet (v : List F64) (i : Nat) : F64 := v.getD i 0

/-- Element (i, j) of a matrix. -/
def mGet (m : List (List F64)) (i j : Nat) : F64 := vGet (m.getD i []) j

/-- A matrix from a function. -/
def mTab (r c : Nat) (f : Nat → Nat → F64) : List (List F64) := (List.range r).map fun i => (List.range c).map fun j => f i j

/-- The identity. -/
def mId (n : Nat) : List (List F64) := mTab n n fun i j => if i = j then 0x3FF0000000000000 else 0

/-- The zero matrix. -/
def mZero (r c : Nat) : List (List F64) := mTab r c fun _ _ => 0

/-- A sum of products in ascending index order, from the first product. -/
def dotSum (ps : List F64) : F64 := ps.tail.foldl f64add (ps.headD 0)

/-- A matrix product (R259). -/
def mMul (a b : List (List F64)) : List (List F64) :=
  let bt := (List.range (b.headD []).length).map fun j => b.map fun r => vGet r j
  a.map fun r => bt.map fun c => dotSum ((r.zip c).map fun p => f64mul p.1 p.2)

/-- The transpose. -/
def mT (a : List (List F64)) : List (List F64) := (List.range (a.headD []).length).map fun j => a.map fun r => vGet r j

/-- A matrix sum. -/
def mAdd (a b : List (List F64)) : List (List F64) := (a.zip b).map fun p => (p.1.zip p.2).map fun q => f64add q.1 q.2

/-- A vector sum. -/
def vAdd3 (a b : List F64) : List F64 := (a.zip b).map fun p => f64add p.1 p.2

/-- A vector times a number. -/
def vScale (a : List F64) (k : F64) : List F64 := a.map fun x => f64mul x k

/-- A matrix times a vector. -/
def mVec (a : List (List F64)) (v : List F64) : List F64 := a.map fun r => dotSum ((r.zip v).map fun p => f64mul p.1 p.2)

/-- The square root of the sum of squares in ascending order. -/
def vNorm (v : List F64) : F64 := f64sqrt (dotSum (v.map fun x => f64mul x x))

/-- 1.0, 2.0, 0.5 and 1e-9 in binary64. -/
def one64 : F64 := 0x3FF0000000000000
def two64 : F64 := 0x4000000000000000
def half64 : F64 := 0x3FE0000000000000

/-- A decimal constant n / d. -/
def dec64 (n : Int) (d : Nat) : F64 := f64ratio n d

/-! ## Quaternions, scalar first -/

/-- A quaternion product. -/
def qMul (a b : List F64) : List F64 :=
  let (w1, x1, y1, z1) := (vGet a 0, vGet a 1, vGet a 2, vGet a 3)
  let (w2, x2, y2, z2) := (vGet b 0, vGet b 1, vGet b 2, vGet b 3)
  let m := f64mul
  [f64sub (f64sub (f64sub (m w1 w2) (m x1 x2)) (m y1 y2)) (m z1 z2),
   f64sub (f64add (f64add (m w1 x2) (m x1 w2)) (m y1 z2)) (m z1 y2),
   f64add (f64add (f64sub (m w1 y2) (m x1 z2)) (m y1 w2)) (m z1 x2),
   f64add (f64sub (f64add (m w1 z2) (m x1 y2)) (m y1 x2)) (m z1 w2)]

/-- A quaternion divided by its norm. -/
def qNorm (a : List F64) : List F64 := let n := vNorm a; a.map fun x => f64div x n

/-- The rotation matrix R(q), body to navigation. DESIGN CHOICE: the spec names R(q) without the order of its operations. -/
def rotOf (q : List F64) : List (List F64) :=
  let (w, x, y, z) := (vGet q 0, vGet q 1, vGet q 2, vGet q 3)
  let m := f64mul
  let d (a b : F64) : F64 := f64sub one64 (m two64 (f64add a b))
  let s (a b : F64) : F64 := m two64 (f64add a b)
  let t (a b : F64) : F64 := m two64 (f64sub a b)
  [[d (m y y) (m z z), t (m x y) (m w z), s (m x z) (m w y)],
   [s (m x y) (m w z), d (m x x) (m z z), t (m y z) (m w x)],
   [t (m x z) (m w y), s (m y z) (m w x), d (m x x) (m y y)]]

/-- The quaternion of the half-angle vector th (R260). -/
def dqOf (th : List F64) : List F64 :=
  let n := vNorm th
  if f64lt n (dec64 1 1000000000) then one64 :: th
  else f64cos n :: th.map fun x => f64div (f64mul (f64sin n) x) n

/-- The skew matrix of a vector. -/
def skew (v : List F64) : List (List F64) :=
  let (x, y, z) := (vGet v 0, vGet v 1, vGet v 2)
  [[0, f64neg z, y], [z, 0, f64neg x], [f64neg y, x, 0]]

/-! ## The nominal state -/

/-- Three elements of the nominal state from index i. -/
def nom3 (n : List F64) (i : Nat) : List F64 := [vGet n i, vGet n (i + 1), vGet n (i + 2)]

/-- The attitude quaternion. -/
def nomQ (n : List F64) : List F64 := [vGet n 6, vGet n 7, vGet n 8, vGet n 9]

/-- A nominal state of its parts. -/
def mkNom (p v q bg ba : List F64) : List F64 := p ++ v ++ q ++ bg ++ ba

/-- A binary64 register pair. -/
def Leaf.f64At (l : Leaf) (lo hi : Nat) : F64 := BitVec.ofNat 64 (l.rd64 lo hi)

/-- A binary64 value written to a register pair. -/
def Leaf.setF64 (l : Leaf) (lo hi : Nat) (x : F64) : Leaf := l.wr64 lo hi x.toNat

/-- Gravity in the navigation frame. -/
def Leaf.gravity (l : Leaf) : List F64 := [0, 0, f64neg (l.f64At Reg.EGO_GRAV_LO Reg.EGO_GRAV_HI)]

/-- The first three lines of integrate (R260): p, v and q after dt with rates w and specific forces a. -/
def integrateNom (g : List F64) (n w a : List F64) (dt : F64) : List F64 :=
  let p := nom3 n 0
  let v := nom3 n 3
  let q := nomQ n
  let f := vAdd3 (mVec (rotOf q) a) g
  let p1 := vAdd3 p (vAdd3 (vScale v dt) (vScale f (f64mul (f64mul half64 dt) dt)))
  let v1 := vAdd3 v (vScale f dt)
  let q1 := qNorm (qMul q (dqOf (vScale w (f64mul half64 dt))))
  mkNom p1 v1 q1 (nom3 n 10) (nom3 n 13)

/-- F of Table 9.4. -/
def egoF (n w a : List F64) : List (List F64) :=
  let r := rotOf (nomQ n)
  let ra := mMul r (skew a)
  let sw := skew w
  mTab 15 15 fun i j =>
    let bi := i / 3
    let bj := j / 3
    let ii := i % 3
    let jj := j % 3
    let id' : F64 := if ii = jj then one64 else 0
    if bi = 0 ∧ bj = 1 then id'
    else if bi = 1 ∧ bj = 2 then f64neg (mGet ra ii jj)
    else if bi = 1 ∧ bj = 4 then f64neg (mGet r ii jj)
    else if bi = 2 ∧ bj = 2 then f64neg (mGet sw ii jj)
    else if bi = 2 ∧ bj = 3 then f64neg id'
    else 0

/-- Qd of R260. -/
def Leaf.egoQd (l : Leaf) (dt : F64) : List (List F64) :=
  let sq (lo hi : Nat) : F64 := let x := l.f64At lo hi; f64mul (f64mul x x) dt
  let qs := [0, sq (Reg.EGO_ANOISE 0) (Reg.EGO_ANOISE 1), sq (Reg.EGO_GNOISE 0) (Reg.EGO_GNOISE 1),
             sq (Reg.EGO_GWALK 0) (Reg.EGO_GWALK 1), sq (Reg.EGO_AWALK 0) (Reg.EGO_AWALK 1)]
  mTab 15 15 fun i j => if i = j then vGet qs (i / 3) else 0

/-- The increment of the tick over one more sample (R403). DEDUCED: the tick starts at p = 0, q = 1, with the nominal velocity and
gravity turned into the body frame of the start. -/
def EgoState.increment (e : EgoState) (g w a : List F64) (dt : F64) : EgoState :=
  let r := mT (rotOf (nomQ e.nom))
  let start : List F64 := mkNom [0, 0, 0] (mVec r (nom3 e.nom 3)) [one64, 0, 0, 0] [0, 0, 0] [0, 0, 0]
  let n := if e.incOn then e.inc else start
  let gb := if e.incOn then e.incG else mVec r g
  { e with inc := integrateNom gb n w a dt, incG := gb, incOn := true }

/-- One integration over dt: nominal state, covariance, Phi and Qd of the tick (R260). -/
def Leaf.egoIntegrate (l : Leaf) (w a : List F64) (dt : F64) : Leaf :=
  let e := l.ego.increment l.gravity w a dt
  let f := egoF e.nom w a
  let phi := mAdd (mId 15) (f.map fun r => r.map fun x => f64mul x dt)
  let qd := l.egoQd dt
  { l with ego := { e with
      nom := integrateNom l.gravity e.nom w a dt
      cov := mAdd (mMul (mMul phi e.cov) (mT phi)) qd
      phi := mMul phi e.phi
      qd := mAdd (mMul (mMul phi e.qd) (mT phi)) qd } }

/-! ## Samples (R259 to R261) -/

/-- A count of 2^-16 ns in seconds. -/
def secOfQ16 (t : Int) : F64 := f64ratio t (65536 * 10 ^ 9)

/-- EGO_IMU_PER in seconds. -/
def Leaf.imuPer (l : Leaf) : F64 := f64ratio (l.rd Reg.EGO_IMU_PER : Nat) (10 ^ 9)

/-- The rates and specific forces of a set (R259). -/
def Leaf.imuConvert (l : Leaf) (s : ImuSet) : List F64 × List F64 :=
  let cnt (k : Nat) : F64 := f64ofInt ((alGet (s.vals.mergeSort fun a b => a.1 ≤ b.1) k).getD 0)
  let gs := l.f64At (Reg.EGO_GSCALE 0) (Reg.EGO_GSCALE 1)
  let as' := l.f64At (Reg.EGO_ASCALE 0) (Reg.EGO_ASCALE 1)
  ((List.range 3).map fun k => f64sub (f64mul (cnt k) gs) (vGet l.ego.nom (10 + k)),
   (List.range 3).map fun k => f64sub (f64mul (cnt (3 + k)) as') (vGet l.ego.nom (13 + k)))

/-- A set holds one value of each of the six. -/
def ImuSet.full (s : ImuSet) : Bool := (List.range 6).all fun k => (s.vals.filter fun v => v.1 == k).length == 1

/-- One set integrated; an incomplete one is discarded and counted (R259). -/
def Leaf.egoSample (l : Leaf) (s : ImuSet) : Leaf :=
  if !s.full then l.bump 9 0
  else
    let wa := l.imuConvert s
    let dt := match l.ego.last with
      | none => l.imuPer
      | some (t0, _, _) =>
        if l.ego.fresh || decide (4 * (l.rd Reg.EGO_IMU_PER : Nat) * 65536 < s.t - t0) then l.imuPer else secOfQ16 (s.t - t0)
    let l1 := l.egoIntegrate wa.1 wa.2 dt
    { l1 with ego := { l1.ego with last := some (s.t, wa.1, wa.2), fresh := false } }

/-- The samples of the window [lo, hi) in ns integrated in time order; with none, the last sample's rates over the window
(R260, R261). -/
def Leaf.egoWindow (lo hi : Nat) (l : Leaf) : Leaf :=
  let inW (s : ImuSet) : Bool := decide (s.t < (hi : Int) * 65536)
  let now := (l.ego.sets.filter inW).mergeSort fun a b => decide (a.t ≤ b.t)
  let l0 := { l with ego := { l.ego with sets := l.ego.sets.filter fun s => !inW s } }
  let l1 := now.foldl Leaf.egoSample l0
  if now.any ImuSet.full then l1
  else
    let l2 := ((l1.inc Fld.EGO_NOIMU_CNT_COUNT).bump 9 1).flagEvent Fld.EGO_STAT_NO_IMU 0x0A6
    match l2.ego.last with
    | none => l2
    | some (_, w, a) => l2.egoIntegrate w a (f64ratio ((hi - lo : Nat) : Int) (10 ^ 9))

/-! ## Wheels (R262) -/

/-- The present wheels' speeds in ascending j at the end t1 (ns) of a window. -/
def Leaf.wheelSpeeds (l : Leaf) (t1 : Nat) : List F64 :=
  (List.range 4).filterMap fun j =>
    if !bitOf (l.get Fld.EGO_WHL_CH_WHL_EN) j then none
    else
      match l.ego.wheels.getD j none with
      | none => none
      | some (t, y) =>
        if (t1 : Int) * 65536 - t ≤ (l.rd Reg.EGO_WHL_AGE : Nat) * 1000 * 65536
        then some (f64mul (f64ofInt y) (l.f64At (Reg.EGO_WSCALE j 0) (Reg.EGO_WSCALE j 1))) else none

/-- The wheel check of a sub-tick (R262). -/
def Leaf.egoWheels (t1 : Nat) (l : Leaf) : Leaf :=
  match l.wheelSpeeds t1 with
  | [] => l
  | ss =>
    let vw := f64div (dotSum ss) (f64ofNat ss.length)
    let w := match l.ego.last with | some (_, w, _) => w | none => [0, 0, 0]
    let lever := (List.range 3).map fun i => l.f64At (Reg.EGO_LEVER i 0) (Reg.EGO_LEVER i 1)
    let cross0 := f64sub (f64mul (vGet w 1) (vGet lever 2)) (f64mul (vGet w 2) (vGet lever 1))
    let vi := f64add (vGet (mVec (mT (rotOf (nomQ l.ego.nom))) (nom3 l.ego.nom 3)) 0) cross0
    let lim := f64add (f64ratio (l.get Fld.EGO_SLIP_ABS : Nat) 1000)
      (f64mul (f64ratio (l.get Fld.EGO_SLIP_REL : Nat) 1000) (f64abs vi))
    if f64lt lim (f64abs (f64sub vw vi)) then
      let l1 := (l.inc Fld.EGO_SLIP_CNT_COUNT).flagEvent Fld.EGO_STAT_SLIP 0x0A4
      { l1 with ego := { l1.ego with excluded := l1.ego.excluded + 1 } }
    else { l with ego := { l.ego with obs := l.ego.obs ++ [(t1, vw)] } }

/-! ## Registers -/

/-- EGO_NOM shows the nominal state after a propagation. -/
def Leaf.showNom (l : Leaf) : Leaf :=
  (List.range 16).foldl (fun m i => m.setF64 (Reg.EGO_NOM i 0) (Reg.EGO_NOM i 1) (vGet l.ego.nom i)) l

/-- EGO_CTRL.RESET taken at a propagation (R266). -/
def Leaf.egoLoad (l : Leaf) : Leaf :=
  let e := l.ego
  { l with ego := { e with
      nom := (List.range 16).map fun i => l.f64At (Reg.EGO_INIT i 0) (Reg.EGO_INIT i 1)
      cov := mTab 15 15 fun i j => if i = j then l.f64At (Reg.EGO_INITP i 0) (Reg.EGO_INITP i 1) else 0
      phi := mId 15
      qd := mZero 15 15
      fresh := true
      resetReq := false
      corr := [] } }

/-! ## Corrections (R264) -/

/-- A committed correction for tick k applied at the first propagation of tick k + 2. -/
def Leaf.egoCorrect (tick : Nat) (l : Leaf) : Leaf :=
  match l.ego.corr.find? fun c => c.tick + 2 == tick with
  | none => l
  | some c =>
    let l0 := { l with ego := { l.ego with corr := l.ego.corr.filter fun x => x.tick + 2 != tick } }
    if c.status = 6 then l0.put Fld.EGO_STAT_CORR 2
    else if c.status = 7 then l0.put Fld.EGO_STAT_CORR 3
    else
      match l0.ego.closed.find? fun x => x.1 == c.tick + 1 with
      | none => l0
      | some (_, phi, qd) =>
        let dx := mVec phi c.dx
        let n := l0.ego.nom
        let th := (nom3 dx 6).map fun x => f64div x two64
        let nom := mkNom (vAdd3 (nom3 n 0) (nom3 dx 0)) (vAdd3 (nom3 n 3) (nom3 dx 3)) (qNorm (qMul (nomQ n) (dqOf th)))
          (vAdd3 (nom3 n 10) (nom3 dx 9)) (vAdd3 (nom3 n 13) (nom3 dx 12))
        ({ l0 with ego := { l0.ego with nom := nom, cov := mAdd (mMul (mMul phi c.cov) (mT phi)) qd } }).put Fld.EGO_STAT_CORR 1

/-! ## Prediction and hand-off (R263, R265) -/

/-- The pose extrapolated to an instant in ns from the last integrated sample with its ω and a. -/
def Leaf.egoExtrapolate (at' : Nat) (l : Leaf) : List F64 :=
  match l.ego.last with
  | none => l.ego.nom
  | some (t, w, a) => integrateNom l.gravity l.ego.nom w a (secOfQ16 ((at' : Int) * 65536 - t))

/-- The pose of a nominal state. -/
def poseOf (n : List F64) : Pose :=
  { px := vGet n 0, py := vGet n 1, pz := vGet n 2, qw := vGet n 6, qx := vGet n 7, qy := vGet n 8, qz := vGet n 9 }

/-- The prediction latched for the boundary that ends tick k (R265), and copied by the speculation block (R329); ENABLE of
speculation applies from this latch on (R346). -/
def Leaf.egoPredict (k bound : Nat) (l : Leaf) : Leaf :=
  let n := l.egoExtrapolate bound
  let ps := [0, 1, 2, 6, 7, 8, 9].map fun i => vGet n i
  let l1 := (List.range 7).foldl (fun m i => m.setF64 (Reg.EGO_PRED i 0) (Reg.EGO_PRED i 1) (vGet ps i)) l
  let l2 := l1.wr64 (Reg.EGO_PRED_TICK 0) (Reg.EGO_PRED_TICK 1) k
  { l2 with
    ego := { l2.ego with pred := some k }
    spec := if l2.ticking then { l2.spec with pred := some (k, poseOf n), enabled := l2.bit Fld.SPEC_CTRL_ENABLE } else l2.spec }

/-- The hand-off at the propagation that closes tick k (R263), and the confirmed pose for the speculation block (R329). -/
def Leaf.egoClose (k bound : Nat) (l : Leaf) : Leaf :=
  let e := l.ego
  let n := l.egoExtrapolate bound
  let h : HandOff :=
    { tick := k, nom := n, cov := e.cov, phi := e.phi, qd := e.qd, wheels := e.obs, excluded := e.excluded,
      dp := if e.incOn then nom3 e.inc 0 else [0, 0, 0], dq := if e.incOn then nomQ e.inc else [one64, 0, 0, 0] }
  { l with
    ego := { e with hand := some h, closed := ((k, e.phi, e.qd) :: e.closed).take 4, phi := mId 15, qd := mZero 15 15, obs := [],
                    excluded := 0, incOn := false }
    spec := if l.ticking then { l.spec with conf := some (k, poseOf n) } else l.spec }

/-! ## A propagation (R260, R266) -/

/-- The sub-tick period in ns. -/
def Leaf.subPeriod (l : Leaf) : Nat := max 1 (l.rd Reg.TICK_PERIOD / max 1 (l.get Fld.TICK_CFG_SUB_RATIO))

/-- HOLD_US as it acts. -/
def Leaf.holdUs (l : Leaf) : Nat := clampNat 10 500 (l.get Fld.EGO_CFG_HOLD_US)

/-- The unit runs (R266). -/
def Leaf.egoRuns (l : Leaf) : Bool := l.bit Fld.EGO_CTRL_ENABLE && (l.state == 3 || l.state == 4 || l.state == 5)

/-- The start in ns of the window that the next propagation closes: the one after the last, or the newest whose propagation is
due. -/
def Leaf.egoNext (l : Leaf) : Nat :=
  let sub := l.subPeriod
  let newest := (l.nowNs - 1000 * l.holdUs) / sub * sub - sub
  match l.ego.nextWin with
  | some w => if w % sub = 0 then w else newest
  | none => newest

/-- EGO_PROPAGATION: HOLD_US after a sub-tick ends (R260). A propagation that is not due has no effect. -/
def Leaf.egoPropagate (l : Leaf) : Leaf :=
  let sub := l.subPeriod
  let lo := l.egoNext
  let hi := lo + sub
  if !l.egoRuns || decide (l.nowNs < hi + 1000 * l.holdUs) then l
  else
    let per := max 1 (l.rd Reg.TICK_PERIOD)
    let k := lo / per
    let i := lo % per / sub
    let n := per / sub
    let l0 := { l with ego := { l.ego with nextWin := some hi } }
    let l1 := if l0.ego.resetReq then l0.egoLoad else l0
    let l2 := if i = 0 then l1.egoCorrect k else l1
    let l3 := ((l2.egoWindow lo hi).egoWheels hi).putB Fld.EGO_STAT_RUNNING true
    let l4 := if i = min (l3.get Fld.EGO_CFG_PRED_SUB) (n - 1) then l3.egoPredict k ((k + 1) * per) else l3
    let l5 := if i + 1 = n then l4.egoClose k ((k + 1) * per) else l4
    l5.showNom

/-- A write of EGO_CTRL (R266). -/
def Leaf.writeEgoCtrl (w : Nat) (l : Leaf) : Leaf :=
  let l1 := l.swWrite Reg.EGO_CTRL w
  let l2 := if bitOf w 0 then l1 else ({ l1 with ego := { l1.ego with nextWin := none } }).putB Fld.EGO_STAT_RUNNING false
  if bitOf w 31 then { l2 with ego := { l2.ego with resetReq := true } } else l2

end Sys2Proof.Machine
end

