-- ==== Sys2Proof/Machine/Sensors.lean ====
section
/-!
DEFINITION. Sensor ingress (R222 to R244): capture times, source states, windows and source objects, cameras and exposure
triggers, the lidar parser, IMU over SPI, CAN FD signals, GNSS over the UART.
-/
namespace Sys2Proof.Machine

/-! ## Sources -/

/-- A source's run. -/
def Leaf.src (l : Leaf) (s : Nat) : SrcRun := (alGet l.sns.srcs s).getD {}

/-- A source's run replaced. -/
def Leaf.setSrc (l : Leaf) (s : Nat) (x : SrcRun) : Leaf := { l with sns := { l.sns with srcs := alSet s x l.sns.srcs } }

/-- The state of a source (Table 8.2). -/
def Leaf.srcState (l : Leaf) (s : Nat) : Nat := l.get (Fld.SNS_SRC_STAT_STATE s)

/-- The sources of Table 8.1 that have registers in use. -/
def srcExists (s : Nat) : Bool :=
  decide (s < 6) || (decide (8 ≤ s) && decide (s < 0x12)) || (decide (0x20 ≤ s) && decide (s < 0x23))
    || (decide (0x40 ≤ s) && decide (s < 0x80))

/-- A camera source. -/
def isCam (s : Nat) : Bool := decide (s < 6)

/-- The filter channels that a source feeds (R238, R241). -/
def Leaf.fedChannels (l : Leaf) (s : Nat) : List Nat :=
  if s = 0x10 ∨ s = 0x11 then
    ((List.range 8).filter fun f => l.bit (Fld.SNS_SPI_FLD_EN (s - 0x10) f)).map fun f => l.get (Fld.SNS_SPI_FLD_CHAN (s - 0x10) f)
  else if 0x40 ≤ s then [l.get (Fld.SNS_CANE_W2_CHAN (s - 0x40))]
  else []

/-- A source leaves UP: the channels it feeds are cleared (R253). -/
def Leaf.leaveUp (s : Nat) (l : Leaf) : Leaf := (l.fedChannels s).foldl (fun m c => m.feederLost c) l

/-- A source given a state; GOOD restarts, and leaving UP acts on its channels. -/
def Leaf.srcTo (s st : Nat) (l : Leaf) : Leaf :=
  let l1 := if l.srcState s = 3 ∧ st ≠ 3 then l.leaveUp s else l
  (l1.put (Fld.SNS_SRC_STAT_STATE s) st).put (Fld.SNS_SRC_STAT_GOOD s) 0

/-- A source enters DOWN, with its flag and event (R225, R244). -/
def Leaf.srcDown (s : Nat) (l : Leaf) : Leaf :=
  if l.srcState s = 0 ∨ l.srcState s = 1 then l
  else (l.srcTo s 1).flagEvent (Fld.SNS_SRC_STAT_DOWN_EV s) (0x180 + s)

/-- A source's slot changed. -/
def Leaf.onSlot (s : Nat) (f : SlotBuf → SlotBuf) (l : Leaf) : Leaf := let x := l.src s; l.setSrc s { x with slot := f x.slot }

/-- An item that is not delivered: counted, with flag bits of Table 8.3 and DROP where asked. Kind is the counter of class 7. -/
def Leaf.srcLose (s kind flags : Nat) (drop : Bool) (l : Leaf) : Leaf :=
  (l.onSlot s fun b => { b with lost := b.lost + 1, flags := b.flags ||| flags, drop := b.drop || drop }).bump 7 kind

/-- A malformed item: discarded and counted, neither good nor bad (R224). -/
def Leaf.srcMalformed (s : Nat) (l : Leaf) : Leaf := if l.srcState s = 0 then l else l.srcLose s 1 8 true

/-! ## Capture time (R223, R224) -/

/-- WIN in ns as it acts. -/
def Leaf.srcWin (l : Leaf) (s : Nat) : Nat := let w := l.rd (Reg.SNS_SRC_WIN s); if w = 0 then 1000 else w

/-- The number in the sensor's time field: ns, or a counter. -/
def Leaf.timeField (l : Leaf) (s : Nat) (payload : List Byte) : Nat :=
  let o := l.get (Fld.SNS_SRC_TFIELD_OFS s)
  let be := l.bit (Fld.SNS_SRC_TFIELD_BE s)
  let n (k w : Nat) : Nat := if be then beAt payload (o + k) w else leAt payload (o + k) w
  match l.get (Fld.SNS_SRC_TFIELD_FMT s) with
  | 0 => n 0 6 * 10 ^ 9 + n 6 4
  | 1 => n 0 4 * 10 ^ 9 + n 4 4
  | 2 => n 0 8
  | _ => n 0 4

/-- Arrival stamp − LAT in 2^-16 ns. -/
def Leaf.stampLat (l : Leaf) (s vt : Nat) : Int := (vt : Int) - signedOf 32 (l.rd (Reg.SNS_SRC_LAT s)) * 65536

/-- The capture time of an item in 2^-16 ns (R223): stamp `vt`, local count of arrival `a`. -/
def Leaf.captureTime (l : Leaf) (s vt a : Nat) (payload : List Byte) : Int :=
  match l.get (Fld.SNS_SRC_CFG_TIME_SRC s) with
  | 1 =>
    let d := l.get (Fld.SNS_SRC_CFG_DOMAIN s)
    (l.timeField s payload * 65536 : Nat) + (l.vt a : Int) - ((l.time.dom d).time a : Int)
  | 2 =>
    let c0 := l.rd64 (Reg.SNS_SRC_C0_LO s) (Reg.SNS_SRC_C0_HI s)
    let rate := l.rd64 (Reg.SNS_SRC_RATE_LO s) (Reg.SNS_SRC_RATE_HI s)
    (l.rd64 (Reg.SNS_SRC_T0_LO s) (Reg.SNS_SRC_T0_HI s) : Nat) + ((l.timeField s payload : Int) - c0) * rate / 2 ^ 24
  | _ => l.stampLat s vt

/-- The source's time is translated from the sensor's own clock. -/
def Leaf.translated (l : Leaf) (s : Nat) : Bool :=
  l.get (Fld.SNS_SRC_CFG_TIME_SRC s) == 1 || l.get (Fld.SNS_SRC_CFG_TIME_SRC s) == 2

/-- An item is bad (R224): a difference of exactly WIN is good. -/
def Leaf.itemBad (l : Leaf) (s vt : Nat) (cap : Int) : Bool :=
  l.translated s && decide ((l.srcWin s * 65536 : Nat) < (cap - l.stampLat s vt).natAbs)

/-! ## Judging (R225, R226) -/

/-- A well-formed item judged: the new state, and whether the item is delivered. The first item of a DOWN source is judged in
SYNCING. DEDUCED. -/
def Leaf.srcJudge (s : Nat) (bad : Bool) (l : Leaf) : Bool × Leaf :=
  let x := l.src s
  let l0 := l.setSrc s { x with seq := x.seq + 1, lastAt := l.count }
  let l1 := if l0.srcState s = 1 then l0.srcTo s 2 else l0
  let st := l1.srcState s
  if st = 3 then
    if bad then (false, (l1.srcTo s 4).flagEvent (Fld.SNS_SRC_STAT_DESYNC_EV s) (0x100 + s)) else (true, l1)
  else if bad then (false, l1.put (Fld.SNS_SRC_STAT_GOOD s) 0)
  else if l1.get (Fld.SNS_SRC_STAT_GOOD s) = 2 then (true, l1.srcTo s 3)
  else (false, l1.inc (Fld.SNS_SRC_STAT_GOOD s))

/-- A judged item that is not delivered, at `at'` ns: counted; a bad one makes its window DESYNC (R226, R227). -/
def Leaf.notDelivered (s at' : Nat) (bad : Bool) (l : Leaf) : Leaf :=
  (l.onSlot s fun b => { b with lost := b.lost + 1, bad := if bad then b.bad ++ [at'] else b.bad }).bump 7 0

/-! ## Source objects (R229) -/

/-- The item record of Table 8.4. -/
def itemRecord (cap at' seq : Nat) (translated : Bool) (payload : List Byte) : List Byte :=
  leBytes 8 cap ++ leBytes 8 at' ++ leBytes 4 seq ++ leBytes 2 payload.length ++ leBytes 1 (b2n translated) ++ leBytes 1 0
    ++ padTo ((payload.length + 7) / 8 * 8) payload

/-- A record of a delivered item stored for the source's object, if it has one. -/
def Leaf.storeItem (s : Nat) (r : SlotRec) (l : Leaf) : Leaf :=
  let i := l.get (Fld.SNS_SRC_CFG_OBJ s)
  match l.obj i with
  | none => l
  | some o =>
    let x := l.src s
    let a := x.slot.add o.size r
    let l1 := l.setSrc s { x with slot := a.1 }
    if a.2 then l1 else l1.bump 7 4

/-- A delivered item other than a lidar packet stored (Table 8.4). -/
def Leaf.storePayload (s at' : Nat) (cap : Int) (payload : List Byte) (l : Leaf) : Leaf :=
  let c := (cap / 65536).toNat
  l.storeItem s { at' := at', cap := c, bytes := itemRecord c at' ((l.src s).seq) (l.translated s) payload }

/-! ## Lidar points (R235 to R237) -/

/-- Field i of a point. -/
def Leaf.lidField (l : Leaf) (t i : Nat) (pt : List Byte) : Option Int :=
  if l.bit (Fld.SNS_LID_F_PRESENT t i) then
    let w := l.get (Fld.SNS_LID_F_WIDTH t i) + 1
    let o := l.get (Fld.SNS_LID_F_OFS t i)
    let v := if l.bit (Fld.SNS_LID_F_BE t i) then beAt pt o w else leAt pt o w
    some (if l.bit (Fld.SNS_LID_F_SIGNED t i) then signedOf (8 * w) v else (v : Int))
  else none

/-- SCALEi of a template. -/
def Leaf.lidScale (l : Leaf) (t i : Nat) : F32 := BitVec.ofNat 32 (l.rd (Reg.SNS_LID_SCALE t i))

/-- The coordinates of a point in FP32 (R236). -/
def Leaf.lidXyz (l : Leaf) (t : Nat) (pt : List Byte) : List F32 :=
  let raw (i : Nat) : F32 := f32b (fpMulX (fpOfInt ((l.lidField t i pt).getD 0)) (f32v (l.lidScale t i)))
  if l.bit (Fld.SNS_LID_CFG_COORD t) then
    let r := raw 0
    let az := raw 1
    let ring := ((l.lidField t 4 pt).getD 0).toNat % 128
    let el : F32 := BitVec.ofNat 32 (l.rd (Reg.SNS_LID_ELEV t ring))
    let rc := f32mul r (f32sincos 1 el)
    [f32mul rc (f32sincos 1 az), f32mul rc (f32sincos 0 az), f32mul r (f32sincos 0 el)]
  else [raw 0, raw 1, raw 2]

/-- A coordinate in Q14.10; none outside its range (R236). -/
def toQ1410 (x : F32) : Option Int :=
  match fpRneInt (fpScale 10 (f32v x)) with
  | none => none
  | some i => if -8388608 ≤ i ∧ i ≤ 8388607 then some i else none

/-- The record of point k of a datagram (Table 8.6); none when a coordinate lies outside its range. `cap` in ns, `tick0` the
start of the tick that receives the window. -/
def Leaf.lidRecord (l : Leaf) (t k : Nat) (cap : Int) (tick0 : Nat) (pt : List Byte) : Option (List Byte) :=
  match (l.lidXyz t pt).mapM toQ1410 with
  | some [x, y, z] =>
    let ofs := match l.lidField t 5 pt with
      | some v => v
      | none => ((k * l.rd (Reg.SNS_LID_PT_STEP t) : Nat) : Int)
    let tofs := clampInt (-2147483648) 2147483647 (cap + ofs - tick0)
    some (leBytes 3 (patternOf 24 x) ++ leBytes 3 (patternOf 24 y) ++ leBytes 3 (patternOf 24 z)
      ++ leBytes 1 (patternOf 8 ((l.lidField t 3 pt).getD 0)) ++ leBytes 1 (patternOf 8 ((l.lidField t 4 pt).getD 0))
      ++ leBytes 1 0 ++ leBytes 4 (patternOf 32 tofs))
  | _ => none

/-- The start of the tick that receives the window of an instant in ns (R227). -/
def Leaf.nextTickStart (l : Leaf) (at' : Nat) : Nat := let p := max 1 (l.rd Reg.TICK_PERIOD); (at' / p + 1) * p

/-- One point of a delivered datagram stored (R236, R237). -/
def Leaf.lidPoint (t at' : Nat) (cap : Int) (payload : List Byte) (l : Leaf) (k : Nat) : Leaf :=
  let s := 8 + t
  let stride := l.get (Fld.SNS_LID_LAYOUT_STRIDE t)
  let pt := sliceBytes payload (l.get (Fld.SNS_LID_LAYOUT_HDR_BYTES t) + k * stride) stride
  match l.lidRecord t k (cap / 65536) (l.nextTickStart at') pt with
  | none => l.bump 7 6
  | some r =>
    if 262144 ≤ (l.src s).slot.points then (l.onSlot s fun b => { b with flags := b.flags ||| 1, drop := true }).bump 7 4
    else (l.onSlot s fun b => { b with points := b.points + 1 }).storeItem s { at' := at', cap := (cap / 65536).toNat, bytes := r }

/-! ## Cameras (R231 to R233) -/

/-- Receiver n. -/
def Leaf.cam (l : Leaf) (n : Nat) : CamRun := l.sns.cams.getD n {}

/-- Receiver n replaced. -/
def Leaf.setCam (l : Leaf) (n : Nat) (x : CamRun) : Leaf := { l with sns := { l.sns with cams := setAt l.sns.cams n x } }

/-- WIDTH and HEIGHT of a camera. -/
def Leaf.camW (l : Leaf) (n : Nat) : Nat := l.get (Fld.SNS_CAM_SIZE_WIDTH n)
def Leaf.camH (l : Leaf) (n : Nat) : Nat := l.get (Fld.SNS_CAM_SIZE_HEIGHT n)

/-- The bytes of one frame slot: header, line bitmap, pixels, rounded up to 2 MiB (R233). -/
def Leaf.camSlotSize (l : Leaf) (n : Nat) : Nat := (384 + 2 * l.camW n * l.camH n + 2 ^ 21 - 1) / 2 ^ 21 * 2 ^ 21

/-- The DRAM address of a slot of receiver n. -/
def Leaf.camSlot (l : Leaf) (n slot : Nat) : Nat := l.rd64 (Reg.SNS_CAM_BUF_LO n) (Reg.SNS_CAM_BUF_HI n) + slot * l.camSlotSize n

/-- The bytes of one line on the wire (R230, R231). -/
def lineBytes (dt w : Nat) : Nat := if dt = 0x2B then (w * 10 + 7) / 8 else if dt = 0x2C then (w * 12 + 7) / 8 else 2 * w

/-- The pixels of a line as they are stored: RAW as UINT16, right-aligned; YUV422 as received (R231). CSI-2 packing of RAW10 and
RAW12 is that of the standard. -/
def linePixels (dt w : Nat) (bs : List Byte) : List Byte :=
  if dt = 0x2B then
    (List.range w).flatMap fun i =>
      leBytes 2 (4 * leAt bs (i / 4 * 5 + i % 4) 1 + leAt bs (i / 4 * 5 + 4) 1 / 4 ^ (i % 4) % 4)
  else if dt = 0x2C then
    (List.range w).flatMap fun i =>
      leBytes 2 (16 * leAt bs (i / 2 * 3 + i % 2) 1 + leAt bs (i / 2 * 3 + 2) 1 / 16 ^ (i % 2) % 16)
  else padTo (2 * w) bs

/-- Bytes stored to DRAM by the device: words written whole hold good data. -/
def Leaf.store (l : Leaf) (a : Nat) (bs : List Byte) : Leaf := (l.dramWrite a bs).coverBad a bs.length

/-- A free slot of a receiver: neither presented nor holding a completed frame. -/
def CamRun.freeSlot (x : CamRun) : Nat :=
  let used := (match x.cur with | some f => [f.slot] | none => []) ++ (match x.due with | some f => [f.slot] | none => [])
    ++ (match (x.frames.filter (·.ended)).getLast? with | some f => [f.slot] | none => [])
  ((List.range 3).find? fun s => !used.contains s).getD 0

/-- The frame being read out changed. -/
def CamRun.onRx (x : CamRun) (f : CamFrame → CamFrame) : CamRun :=
  { x with frames := x.frames.map fun y => if y.ended then y else f y }

/-- A frame discarded as malformed (R231). -/
def Leaf.camDrop (n : Nat) (p : CamFrame → Bool) (l : Leaf) : Leaf :=
  let x := l.cam n
  if x.frames.any p then (l.setCam n { x with frames := x.frames.filter fun f => !p f }).srcMalformed n else l

/-- A line of the frame being read out (R231). -/
def Leaf.camLine (n : Nat) (crcOk : Bool) (bs : List Byte) (l : Leaf) : Leaf :=
  match (l.cam n).frames.find? fun f => !f.ended with
  | none => l
  | some f =>
    let dt := l.get (Fld.SNS_CAM_CFG_DT n)
    let w := l.camW n
    let ok := crcOk && decide (bs.length = lineBytes dt w)
    let l1 := if f.lines < l.camH n then
        l.store (l.camSlot n f.slot + 384 + f.lines * 2 * w) (if ok then linePixels dt w bs else List.replicate (2 * w) 0)
      else l
    l1.setCam n ((l1.cam n).onRx fun y => { y with lines := y.lines + 1, bad := if ok then y.bad else y.bad ++ [y.lines] })

/-- A well-formed frame judged once its stamp is known (R225, R226): its window is that of its due instant (R232). -/
def Leaf.camJudge (n : Nat) (f : CamFrame) (l : Leaf) : Leaf :=
  match f.stamp with
  | none => l
  | some vt =>
    let cap := l.captureTime n vt (f.c8 / 8) f.embed
    let bad := l.itemBad n vt cap
    let r := l.srcJudge n bad
    let due := vt / 65536 + l.rd (Reg.SNS_CAM_READOUT n)
    let l1 := if r.1 then r.2 else r.2.notDelivered n due bad
    let x := l1.cam n
    l1.setCam n { x with frames := x.frames.map fun y =>
      if y.seq = f.seq then { y with judged := true, deliver := r.1, cap := (cap / 65536).toNat } else y }

/-- The frame-end packet: a malformed frame is discarded, a well-formed one is judged. -/
def Leaf.camEnd (n : Nat) (l : Leaf) : Leaf :=
  match (l.cam n).frames.find? fun f => !f.ended with
  | none => l
  | some f =>
    if f.lines ≠ l.camH n ∨ l.get (Fld.SNS_CAM_CFG_MAXBAD n) < f.bad.length then l.camDrop n fun y => !y.ended
    else
      let f1 := { f with ended := true }
      (l.setCam n ((l.cam n).onRx fun _ => f1)).camJudge n f1

/-! ## Items and their stamps (R29, R31) -/

/-- The fields of an SPI transaction written to their channels (R238). -/
def Leaf.spiFields (p vt at' : Nat) (cap : Int) (bs : List Byte) (l : Leaf) : Leaf :=
  (List.range 8).foldl (fun m f =>
    if m.bit (Fld.SNS_SPI_FLD_EN p f) then
      let w := if m.bit (Fld.SNS_SPI_FLD_W32 p f) then 4 else 2
      let o := m.get (Fld.SNS_SPI_FLD_OFS p f)
      let v := if m.bit (Fld.SNS_SPI_FLD_BE p f) then beAt bs o w else leAt bs o w
      let i : Int := if m.bit (Fld.SNS_SPI_FLD_SIGNED p f) then signedOf (8 * w) v else signedOf 32 v
      m.filtIn (m.get (Fld.SNS_SPI_FLD_CHAN p f)) vt at' cap i
    else m) l

/-- An item whose stamp is known is judged and delivered (R223 to R229). -/
def Leaf.itemStamped (it : Item) (vt : Nat) (l : Leaf) : Leaf :=
  let s := it.src
  let at' := vt / 65536
  match it.body with
  | .edge => if s = 0x22 then l.phaseReset vt else l
  | .camera =>
    let x := l.cam s
    let l1 := l.setCam s { x with frames := x.frames.map fun f => if f.seq = it.seq then { f with stamp := some vt } else f }
    match (l1.cam s).frames.find? fun f => f.seq == it.seq && f.ended && !f.judged with
    | some f => l1.camJudge s f
    | none => l1
  | body =>
    if l.srcState s = 0 then l
    else
      let payload := match body with
        | .lidar b => b
        | .spi b => b
        | .can v => leBytes 4 v
        | .gnss b => b
        | _ => []
      let cap := l.captureTime s vt (it.c8 / 8) payload
      let bad := l.itemBad s vt cap
      let r := l.srcJudge s bad
      if !r.1 then r.2.notDelivered s at' bad
      else
        match body with
        | .lidar b => (List.range (r.2.get (Fld.SNS_LID_NPTS_NPTS (s - 8)))).foldl (Leaf.lidPoint (s - 8) at' cap b) r.2
        | .spi b => (r.2.spiFields (s - 0x10) vt at' cap b).storePayload s at' cap b
        | .can v =>
          (r.2.filtIn (r.2.get (Fld.SNS_CANE_W2_CHAN (s - 0x40))) vt at' cap (signedOf 32 v)).storePayload s at' cap (leBytes 4 v)
        | _ => r.2.storePayload s at' cap payload

/-- An item arrives at c8 (1/8 counts): in mirror mode with the checker ACTIVE it waits for the reconciled stamp (R29), else
its own stamp is used (R31). -/
def Leaf.arrive (active : Bool) (s c8 : Nat) (body : ItemBody) (l : Leaf) : Leaf :=
  let n := (alGet l.sns.stampSeq s).getD 0
  let it : Item := { src := s, seq := n, vt := l.vt8 c8, c8 := c8, body := body }
  let l1 := { l with sns := { l.sns with stampSeq := alSet s (n + 1) l.sns.stampSeq } }
  if active then
    { l1 with sns := { l1.sns with
        pend := l1.sns.pend ++ [it], outStamps := l1.sns.outStamps ++ [{ src := s, seq := n, vt := it.vt }] } }
  else l1.itemStamped it it.vt

/-- The stamp that the hinge returns for a pair, or the leaf's own one (R29, R30): the waiting item goes on with it. -/
def Leaf.stampKnown (s seq vt : Nat) (l : Leaf) : Leaf :=
  match l.sns.pend.find? fun i => i.src == s && i.seq == seq with
  | none => l
  | some it =>
    ({ l with sns := { l.sns with pend := l.sns.pend.filter fun i => !(i.src == s && i.seq == seq) } }).itemStamped it vt

/-! ## Camera packets (R231) -/

/-- A frame-start packet: a frame still open is malformed; a new one takes a free slot and is stamped. -/
def Leaf.camStart (active : Bool) (n c8 : Nat) (l : Leaf) : Leaf :=
  let l1 := l.camDrop n fun f => !f.ended
  let x := l1.cam n
  let seq := (alGet l1.sns.stampSeq n).getD 0
  (l1.setCam n { x with frames := x.frames ++ [{ seq := seq, slot := x.freeSlot, c8 := c8 }] }).arrive active n c8 .camera

/-- A packet from receiver n (R231). -/
def Leaf.camPacket (active : Bool) (n c8 : Nat) (p : CsiPacket) (l : Leaf) : Leaf :=
  if l.srcState n = 0 ∨ 6 ≤ n then l
  else
    let ours (vc : Nat) : Bool := vc == l.get (Fld.SNS_CAM_CFG_VC n)
    match p with
    | .frameStart vc => if ours vc then l.camStart active n c8 else l.bump 7 7
    | .frameEnd vc => if ours vc then l.camEnd n else l.bump 7 7
    | .long vc dt ok bs =>
      if !ours vc then l.bump 7 7
      else if dt = l.get (Fld.SNS_CAM_CFG_DT n) then l.camLine n ok bs
      else if dt = 0x12 then
        if ok then l.setCam n ((l.cam n).onRx fun f => if f.embed.isEmpty then { f with embed := bs } else f) else l
      else l.bump 7 7
    | .other => l

/-- The due instant of a frame in ns, once its stamp is known. -/
def Leaf.camDueAt (l : Leaf) (n : Nat) (f : CamFrame) : Option Nat := f.stamp.map fun vt => vt / 65536 + l.rd (Reg.SNS_CAM_READOUT n)

/-- The due instant of the oldest frame is reached (R232): without its frame-end it is discarded with LATE; a delivered one
becomes presentable and supersedes an earlier one of the window. -/
def Leaf.camDue (n : Nat) (l : Leaf) : Leaf :=
  let x := l.cam n
  match x.frames with
  | [] => l
  | f :: rest =>
    match l.camDueAt n f with
    | none => l
    | some d =>
      if l.nowNs < d then l
      else
        let l1 := l.setCam n { x with frames := rest }
        if !f.ended then l1.srcLose n 2 2 true
        else if !f.deliver then l1
        else
          let l2 := match x.due with
            | some _ => l1.srcLose n 3 4 false
            | none => l1
          l2.setCam n { l2.cam n with due := some f }

/-! ## Windows (R227, R228, R233) -/

/-- The window code of a source (R228): `some items` says that the window delivers something. -/
def windowCode (state : Nat) (bad items : Bool) : Nat :=
  if state = 0 then 0 else if bad then 5 else if items then 3 else if state = 1 then 1 else if state = 2 then 2
  else if state = 4 then 5 else 4

/-- The 320-byte line-valid bitmap of a frame. -/
def lineBitmap (h : Nat) (bad : List Nat) : List Byte :=
  (List.range 320).map fun k =>
    BitVec.ofNat 8 (((List.range 8).map fun b =>
      if 8 * k + b < h && !bad.contains (8 * k + b) then 2 ^ b else 0).foldl (· + ·) 0)

/-- A camera's window [lo, hi) of tick k closes (R233): the due frame becomes the presented one, or none is presented. -/
def Leaf.closeCam (k lo hi : Nat) (l : Leaf) (n : Nat) : Leaf :=
  let x := l.cam n
  let b := (l.src n).slot
  let badW := b.bad.any fun t => decide (lo ≤ t) && decide (t < hi)
  let inW (f : CamFrame) : Bool := match l.camDueAt n f with
    | some d => decide (lo ≤ d) && decide (d < hi)
    | none => false
  let f := if badW then none else x.due.filter inW
  let code := windowCode (l.srcState n) badW f.isSome
  let l1 := match f with
    | none => (l.setCam n { x with cur := none, due := none }).put (Fld.SNS_CAM_STAT_CUR n) 3
    | some f =>
      let h := slotHeader k 1 (320 + 2 * l.camW n * l.camH n) f.cap f.cap code (b.flags % 16) b.lost
      ((l.setCam n { x with cur := some f, due := none }).store (l.camSlot n f.slot) (h ++ lineBitmap (l.camH n) f.bad)).put
        (Fld.SNS_CAM_STAT_CUR n) f.slot
  let l2 := { l1 with sns := { l1.sns with vector := l1.sns.vector ++ [(n, code + 8 * b2n b.drop)] } }
  l2.onSlot n fun b => { bad := b.bad.filter fun t => decide (hi ≤ t) }

/-- The window [lo, hi) of tick k of a source other than a camera closes: its object is written (R227, R229). -/
def Leaf.closeSrc (k lo hi : Nat) (l : Leaf) (s : Nat) : Leaf :=
  let b := (l.src s).slot
  let badW := b.bad.any fun t => decide (lo ≤ t) && decide (t < hi)
  let all := b.recs.filter fun r => decide (lo ≤ r.at') && decide (r.at' < hi)
  let rs := if badW then [] else all
  let lost := b.lost + (if badW then all.length else 0)
  let code := windowCode (l.srcState s) badW (!rs.isEmpty)
  let obj := l.get (Fld.SNS_SRC_CFG_OBJ s)
  let l1 := if obj = 0xFFF ∨ l.srcState s = 0 then l else l.commitSlot obj k code (b.flags % 16) lost rs
  let l2 := { l1 with sns := { l1.sns with vector := l1.sns.vector ++ [(s, code + 8 * b2n b.drop)] } }
  let rest := b.recs.filter fun r => decide (hi ≤ r.at')
  l2.onSlot s fun b =>
    { recs := rest, used := (rest.map fun r => r.bytes.length).foldl (· + ·) 0, bad := b.bad.filter fun t => decide (hi ≤ t) }

/-- The sources whose status the fusion unit gets (Table 8.1). -/
def vectorSources : List Nat :=
  ((List.range 8).map (· + 8)) ++ [0x10, 0x11, 0x20, 0x21, 0x22] ++ (List.range 64).map (· + 0x40)

/-- The windows of tick k close at the boundary that ends it (R228). -/
def Leaf.closeWindows (k lo hi : Nat) (l : Leaf) : Leaf :=
  let l0 := { l with sns := { l.sns with vector := [] } }
  let l1 := (List.range 6).foldl (Leaf.closeCam k lo hi) l0
  (vectorSources.foldl (Leaf.closeSrc k lo hi) l1).commitChannels k lo hi

/-- What reading an object that a source writes carries (R91, R227): its oldest capture time, and DESYNC. -/
def Leaf.srcCarry (l : Leaf) (i : Nat) : Carry :=
  if vectorSources.any fun s => l.srcState s != 0 && l.get (Fld.SNS_SRC_CFG_OBJ s) == i then
    let h := l.objBytes i 0 64
    { desync := leAt h 32 1 == 5, oldest := if leAt h 8 4 = 0 then none else some (leAt h 16 8) }
  else {}

/-! ## Exposure triggers (R234) -/

/-- The first trigger instant after `t` ns. In MODE 0 with OFFSET not below TICK_PERIOD it is one that is not sent. -/
def Leaf.trigAfter (l : Leaf) (n t : Nat) : Option Nat :=
  let ofs := l.rd (Reg.SNS_CAM_TOFS n)
  if l.bit (Fld.SNS_CAM_TRIG_MODE n) then
    let p := max 1 (l.rd (Reg.SNS_CAM_TPER n))
    some (if t < ofs then t + 1 + (ofs - t - 1) % p else ofs + ((t - ofs) / p + 1) * p)
  else
    let per := max 1 (l.rd Reg.TICK_PERIOD)
    let d := max 1 (l.get (Fld.SNS_CAM_TRIG_DIV n))
    let ph := l.get (Fld.SNS_CAM_TRIG_PHASE n)
    let step := d * per
    let first := ph * per + ofs
    if t < first then some first else some (first + ((t - first) / step + 1) * step)

/-- OFFSET lies outside the tick in MODE 0. -/
def Leaf.trigBlocked (l : Leaf) (n : Nat) : Bool :=
  !l.bit (Fld.SNS_CAM_TRIG_MODE n) && decide (l.rd Reg.TICK_PERIOD ≤ l.rd (Reg.SNS_CAM_TOFS n))

/-- An exposure trigger's sending time is reached (R234): sent, or skipped and counted when it lies a whole instant in the past
or OFFSET is blocked. -/
def Leaf.exposure (n : Nat) (l : Leaf) : Leaf :=
  let x := l.cam n
  match (if l.bit (Fld.SNS_CAM_TRIG_EN n) then x.trigNext else none) with
  | none => l
  | some t =>
    let send := t - l.get (Fld.SNS_CAM_TLEAD_NS n)
    if l.nowNs < send then l
    else
      let l1 := l.setCam n { x with trigNext := l.trigAfter n t }
      if l.trigBlocked n || decide (t < l.nowNs) then l1.incSat (Fld.SNS_CAM_STAT_MISS_CNT n)
      else { l1 with sns := { l1.sns with trigSent := l1.sns.trigSent ++ [(n, t)] } }

/-- The next trigger instant of receiver n by the settings in force. -/
def Leaf.retrig (n : Nat) (l : Leaf) : Leaf :=
  let next := if l.bit (Fld.SNS_CAM_TRIG_EN n) then l.trigAfter n (l.nowNs + l.get (Fld.SNS_CAM_TLEAD_NS n)) else none
  l.setCam n { l.cam n with trigNext := next }

/-- A write of SNS_CAMn_TRIG or SNS_CAMn_TOFS (R234): refused when it would leave MODE 0 triggers on with OFFSET at or above
TICK_PERIOD. -/
def Leaf.writeTrig (n a w : Nat) (l : Leaf) : Leaf :=
  let l1 := l.swWrite a w
  if l1.bit (Fld.SNS_CAM_TRIG_EN n) && l1.trigBlocked n then l.flagEvent Fld.SNS_STAT_CFG_REFUSED 0x0A0 else l1.retrig n

/-! ## I2C (R230) -/

/-- A write of SNS_CAMn_I2C: GO starts one transaction; while BUSY a write does nothing. DESIGN CHOICE for the write while
BUSY. -/
def Leaf.writeI2c (n w : Nat) (l : Leaf) : Leaf :=
  if l.bit (Fld.SNS_CAM_I2C_BUSY n) then l
  else
    let l1 := l.swWrite (Reg.SNS_CAM_I2C n) w
    if bitOf w 31 then
      (l1.setCam n { l1.cam n with i2c := some (bitOf w 28, bitsOf w 26 20, bitsOf w 19 8, bitsOf w 7 0) }).putB
        (Fld.SNS_CAM_I2C_BUSY n) true
    else l1

/-- The I2C transaction completes (R230). -/
def Leaf.i2cDone (n : Nat) (nack : Bool) (data : Nat) (l : Leaf) : Leaf :=
  match (l.cam n).i2c with
  | none => l
  | some (rd, _, _, _) =>
    let l1 := ((l.setCam n { l.cam n with i2c := none }).putB (Fld.SNS_CAM_I2C_BUSY n) false).putB (Fld.SNS_CAM_I2C_NACK n) nack
    if rd && !nack then l1.put (Fld.SNS_CAM_I2C_DATA n) data else l1

/-! ## Lidar datagrams (R235) -/

/-- A UDP datagram's destination port, IPv4 source and payload; none for a fragment, an extension header or another protocol
(R235). -/
def udpOf (f : List Byte) : Option (Nat × Option Nat × List Byte) :=
  let h := if frameTagged f then 18 else 14
  let udp (o : Nat) (src : Option Nat) : Nat × Option Nat × List Byte :=
    (beAt f (o + 2) 2, src, sliceBytes f (o + 8) (beAt f (o + 4) 2 - 8))
  if frameType f = 0x0800 then
    if beAt f (h + 6) 2 % 2 ^ 14 % 2 ^ 13 ≠ 0 ∨ bitOf (beAt f (h + 6) 2) 13 ∨ beAt f (h + 9) 1 ≠ 17 then none
    else some (udp (h + 4 * (beAt f h 1 % 16)) (some (beAt f (h + 12) 4)))
  else if frameType f = 0x86DD then
    if beAt f (h + 6) 1 = 17 then some (udp (h + 40) none) else none
  else none

/-- The first template that matches a datagram (R235). -/
def Leaf.lidMatch (l : Leaf) (port dport : Nat) (src : Option Nat) : Option Nat :=
  (List.range 8).find? fun t =>
    bitOf (l.get (Fld.SNS_LID_CFG_PORTS t)) port && l.get (Fld.SNS_LID_CFG_DPORT t) == dport
      && (!l.bit (Fld.SNS_LID_CFG_SRCIP_EN t) || src == some (l.rd (Reg.SNS_LID_SRCIP t)))

/-- The parser takes the oldest datagram delivered through P5 (R235). -/
def Leaf.lidarDatagram (active : Bool) (l : Leaf) : Leaf :=
  match l.sw.p5 with
  | [] => l
  | f :: rest =>
    let l0 := { l with sw := { l.sw with p5 := rest } }
    let toHost := { l0 with sw := { l0.sw with hostFrames := l0.sw.hostFrames ++ [f.bytes] } }
    match udpOf f.bytes with
    | none => toHost
    | some (dport, src, payload) =>
      match l0.lidMatch f.port dport src with
      | none => toHost
      | some t =>
        if l0.srcState (8 + t) = 0 then l0
        else if payload.length < l0.get (Fld.SNS_LID_LAYOUT_HDR_BYTES t)
            + l0.get (Fld.SNS_LID_NPTS_NPTS t) * l0.get (Fld.SNS_LID_LAYOUT_STRIDE t) then l0.srcMalformed (8 + t)
        else l0.arrive active (8 + t) f.ingress8 (.lidar payload)

/-! ## IMU over SPI (R238, R239) -/

/-- A data-ready edge (R238): stamped, and a transaction starts; one while a transaction runs is counted only. -/
def Leaf.dataReady (p c8 : Nat) (l : Leaf) : Leaf :=
  match l.sns.spi.getD p none with
  | some _ => l.bump 7 5
  | none => if p < 2 then { l with sns := { l.sns with spi := setAt l.sns.spi p (some (l.vt8 c8, c8)) } } else l

/-- The transaction, or the captured period, ends (R238, R239). In listener mode the command's bytes come first. -/
def Leaf.spiDone (active : Bool) (p : Nat) (miso : List Byte) (l : Leaf) : Leaf :=
  match l.sns.spi.getD p none with
  | none => l
  | some (_, c8) =>
    let l1 := { l with sns := { l.sns with spi := setAt l.sns.spi p none } }
    let s := 0x10 + p
    let cmd := l.get (Fld.SNS_SPI_CFG_CMD_LEN p)
    let n := l.get (Fld.SNS_SPI_CFG_RD_LEN p)
    if l.srcState s = 0 then l1
    else if l.bit (Fld.SNS_SPI_CFG_LISTEN p) then
      if miso.length = cmd + n then l1.arrive active s c8 (.spi (miso.drop cmd)) else l1.srcMalformed s
    else l1.arrive active s c8 (.spi (padTo n miso))

/-! ## CAN FD (R240, R241) -/

/-- Entry e matches a frame of a controller (R241). -/
def Leaf.canMatch (l : Leaf) (ctrl : Nat) (f : CanFrame) (e : Nat) : Bool :=
  l.bit (Fld.SNS_CANE_W0_VALID e) && l.get (Fld.SNS_CANE_W0_CTRL e) == ctrl && l.bit (Fld.SNS_CANE_W0_IDE e) == f.ide
    && (f.id ^^^ l.get (Fld.SNS_CANE_W0_ID e)) &&& l.get (Fld.SNS_CANE_W1_MASK e) == 0

/-- The signal that entry e extracts as an i32 pattern; none when it reaches past the data (R241). With MOT 1 the data are one
big-endian number and START counts from its most significant bit. DEDUCED. -/
def Leaf.canSignal (l : Leaf) (f : CanFrame) (e : Nat) : Option Nat :=
  let n := 8 * f.data.length
  let len := l.get (Fld.SNS_CANE_W2_LEN e) + 1
  let start := l.get (Fld.SNS_CANE_W2_START e)
  if n < start + len then none
  else
    let v := if l.bit (Fld.SNS_CANE_W2_MOT e) then beNat f.data / 2 ^ (n - start - len) % 2 ^ len
      else leNat f.data / 2 ^ start % 2 ^ len
    some (if l.bit (Fld.SNS_CANE_W2_SIGNED e) then patternOf 32 (signedOf len v) else v)

/-- A frame received by a controller (R241). -/
def Leaf.canFrame (active : Bool) (ctrl c8 : Nat) (f : CanFrame) (l : Leaf) : Leaf :=
  if l.sns.busOff.getD ctrl true then l
  else
    (List.range 64).foldl (fun m e =>
      if m.srcState (0x40 + e) = 0 ∨ !m.canMatch ctrl f e then m
      else if !f.ok then m.srcMalformed (0x40 + e)
      else
        match m.canSignal f e with
        | none => m.srcMalformed (0x40 + e)
        | some v => m.arrive active (0x40 + e) c8 (.can v)) l

/-- A bus-off controller recovers (R240). -/
def Leaf.canRecover (ctrl : Nat) (l : Leaf) : Leaf := { l with sns := { l.sns with busOff := setAt l.sns.busOff ctrl false } }

/-! ## UART (R242) -/

/-- A framed message, or a malformed one (R242). -/
def Leaf.uartMessage (active : Bool) (c8 : Nat) (msg : List Byte) (ok : Bool) (l : Leaf) : Leaf :=
  if l.srcState 0x20 = 0 then l
  else if !ok || decide (1024 < msg.length) || msg.isEmpty then l.srcMalformed 0x20
  else l.arrive active 0x20 c8 (.gnss msg)

/-- A write of SNS_UART_TX (R242): a byte queued, or dropped with TX_OVF. -/
def Leaf.uartTx (w : Nat) (l : Leaf) : Leaf :=
  let l1 := l.swWrite Reg.SNS_UART_TX w
  if l1.sns.uartTx.length < 64 then { l1 with sns := { l1.sns with uartTx := l1.sns.uartTx ++ [w % 256] } }
  else l1.flagEvent Fld.SNS_UART_TX_TX_OVF 0x0A1

/-- The byte at the head of the FIFO has been sent. -/
def Leaf.uartSent (l : Leaf) : Leaf :=
  match l.sns.uartTx with
  | [] => l
  | b :: t => { l with sns := { l.sns with uartTx := t, uartSent := l.sns.uartSent ++ [b] } }

/-! ## Link loss, timeout, configuration (R225, R243) -/

/-- The switch ports of lidar template t show no link. DEDUCED: every port in PORTS, since the row names the source alone. -/
def Leaf.lidPortsDown (t : Nat) (l : Leaf) : Leaf :=
  ((List.range 5).filter fun p => bitOf (l.get (Fld.SNS_LID_CFG_PORTS t)) p).foldl (fun (m : Leaf) p =>
    m.setPort p { m.port p with link := false }) l

/-- A source's link is lost (R225): a camera receiver loses lock, and then shows no gear (DEDUCED), a lidar's switch port has no link,
a CAN entry's controller goes bus-off. -/
def Leaf.linkLost (s : Nat) (l : Leaf) : Leaf :=
  let l1 :=
    if isCam s then
      ((l.camDrop s fun f => !f.ended).putB (Fld.SNS_CAM_STAT_LOCK s) false).put (Fld.SNS_CAM_STAT_GEAR s) 0
    else if 8 ≤ s ∧ s < 16 then l.lidPortsDown (s - 8)
    else if 0x40 ≤ s then
      { l with sns := { l.sns with busOff := setAt l.sns.busOff (l.get (Fld.SNS_CANE_W0_CTRL (s - 0x40))) true } }
    else l
  l1.srcDown s

/-- No well-formed item for 3 × WIN since the last (R225). -/
def Leaf.itemTimeout (s : Nat) (l : Leaf) : Leaf :=
  if 3 * l.srcWin s * 100 ≤ (l.count - (l.src s).lastAt) * 128 then l.srcDown s else l

/-- A configuration write to a source that is on is ignored (R243). -/
def Leaf.snsRefused (l : Leaf) : Leaf := l.flagEvent Fld.SNS_STAT_CFG_REFUSED 0x0A0

/-- ENABLE of a source written 1 (R225, R229). -/
def Leaf.srcEnable (s w : Nat) (l : Leaf) : Leaf :=
  if l.bit (Fld.SNS_SRC_CFG_ENABLE s) then l.snsRefused
  else if !isCam s && bitsOf w 11 0 != 0xFFF && !l.slotObjOk (bitsOf w 11 0) then l.snsRefused
  else
    let l1 := (l.swWrite (Reg.SNS_SRC_CFG s) w).setSrc s { lastAt := l.count }
    (l1.srcTo s 1).flagEvent (Fld.SNS_SRC_STAT_DOWN_EV s) (0x180 + s)

/-- ENABLE of a source written 0 (R225): other fields of a source that is on keep their values (R243). -/
def Leaf.srcDisable (s w : Nat) (l : Leaf) : Leaf :=
  if l.bit (Fld.SNS_SRC_CFG_ENABLE s) then
    let old := l.rd (Reg.SNS_SRC_CFG s)
    let l1 := ((l.putB (Fld.SNS_SRC_CFG_ENABLE s) false).srcTo s 0).setSrc s {}
    let l2 := if isCam s then l1.setCam s { l1.cam s with frames := [], due := none } else l1
    if w &&& 0x31000FFF = old &&& 0x31000FFF then l2 else l2.snsRefused
  else l.swWrite (Reg.SNS_SRC_CFG s) w

/-- A write of SNS_SRCs_CFG. -/
def Leaf.writeSrcCfg (s w : Nat) (l : Leaf) : Leaf := if bitOf w 31 then l.srcEnable s w else l.srcDisable s w

/-- The sources whose configuration a register of the block belongs to. -/
def snsOwner (a : Nat) : List Nat :=
  let o := a - 0x700000
  if o < 0x1000 then []
  else if o < 0x3000 then [(o - 0x1000) / 0x40]
  else if o < 0x3400 then [8 + (o - 0x3000) / 0x80]
  else if o < 0x4400 then [8 + (o - 0x3400) / 0x200]
  else if 0x4800 ≤ o ∧ o < 0x4C00 then [0x40 + (o - 0x4800) / 0x10]
  else if 0x4C00 ≤ o ∧ o < 0x4C80 then [0x10 + (o - 0x4C00) / 0x40]
  else if 0x5000 ≤ o ∧ o < 0x5180 then [(o - 0x5000) / 0x40]
  else if 0x5400 ≤ o ∧ o < 0x5408 then [0x20]
  else []

/-- A write to another configuration register of a source (R243). -/
def Leaf.writeSnsCfg (a w : Nat) (l : Leaf) : Leaf :=
  if (snsOwner a).any fun s => l.bit (Fld.SNS_SRC_CFG_ENABLE s) then l.snsRefused else l.swWrite a w

/-- A whole-image glaze sets every OBJ to 0xFFF and every source to OFF (R229). -/
def Leaf.glazeSources (l : Leaf) : Leaf :=
  ((List.range 128).filter srcExists).foldl (fun m s =>
    (((m.putB (Fld.SNS_SRC_CFG_ENABLE s) false).put (Fld.SNS_SRC_CFG_OBJ s) 0xFFF).srcTo s 0).setSrc s {}) l

end Sys2Proof.Machine
end

