-- ==== Sys2Proof/Machine/Map.lean ====
section
/-!
DEFINITION. The landmarks-and-map block (R347 to R366): landmark table, update records, keyframe window, pose graph, loop
verification.
-/
namespace Sys2Proof.Machine

/-! ## Objects (R347, R348) -/

/-- A field that names an object: none for 0xFFF. -/
def objSel (v : Nat) : Option Nat := if v = 0xFFF then none else some v

def Leaf.lmkObj (l : Leaf) : Option Nat := objSel (l.get Fld.MAP_OBJ0_LMK_OBJ)
def Leaf.kfvObj (l : Leaf) : Option Nat := objSel (l.get Fld.MAP_OBJ0_KFV_OBJ)
def Leaf.updObj (l : Leaf) : Option Nat := objSel (l.get Fld.MAP_OBJ1_UPD_OBJ)
def Leaf.graphObj (l : Leaf) : Option Nat := objSel (l.get Fld.MAP_OBJ1_GRAPH_OBJ)
def Leaf.verObj (l : Leaf) : Option Nat := objSel (l.get Fld.MAP_OBJ2_VER_OBJ)

/-- The stages of the glazed image, each with its index. -/
def Leaf.stages (l : Leaf) : List (Nat × StageDesc) :=
  match l.glz.image with
  | none => []
  | some im => (List.range im.stages.length).zip im.stages

/-- The stages that name object i with a descriptor of a kind. -/
def Leaf.stagesNaming (l : Leaf) (kind i : Nat) : List (Nat × StageDesc) :=
  l.stages.filter fun e => e.2.descs.any fun d => d.kind == kind && d.obj == i

/-- A speculable stage names object i. -/
def Leaf.specNames (l : Leaf) (i : Nat) : Bool :=
  l.stages.any fun e => e.2.spec && e.2.descs.any fun d => decide (2 ≤ d.kind) && d.obj == i

/-- An object placed as the leaf controller and the blocks want it: RESIDENT_DRAM, not WRITABLE, not HOST_VISIBLE (R331, R348,
R430). -/
def ObjDesc.served (o : ObjDesc) (size : Nat) : Bool :=
  o.place == 0 && !o.writable && !o.hostVisible && decide (size ≤ o.size)

/-- Exactly one stage writes object i, and it is not speculable (Table 13.1). -/
def Leaf.oneWriter (l : Leaf) (i : Nat) : Bool :=
  match l.stagesNaming 3 i with
  | [e] => !e.2.spec
  | _ => false

/-- The object that a field of MAP_OBJ0 to MAP_OBJ2 names meets Table 13.1 and R348: 0 LMK, 1 KFV, 2 UPD, 3 GRAPH, 4 VER. -/
def Leaf.mapObjOk (l : Leaf) (which v : Nat) : Bool :=
  match objSel v with
  | none => true
  | some i =>
    match l.obj i with
    | none => false
    | some o =>
      match which with
      | 0 => o.served 4194304
      | 1 => o.served 20544 && !l.specNames i
      | 2 => o.place == 0 && o.writable && decide (262208 ≤ o.size) && l.oneWriter i
      | 3 => o.place == 0 && !o.writable && o.primary == 0 && decide (18874496 ≤ o.size) && !l.specNames i
      | _ => o.place == 0 && o.writable && decide (394304 ≤ o.size) && l.oneWriter i && !l.specNames i

/-- A write of MAP_OBJ0 to MAP_OBJ2 (R347). -/
def Leaf.writeMapObj (n w : Nat) (l : Leaf) : Leaf :=
  let ok := match n with
    | 0 => l.mapObjOk 0 (bitsOf w 11 0) && l.mapObjOk 1 (bitsOf w 27 16)
    | 1 => l.mapObjOk 2 (bitsOf w 11 0) && l.mapObjOk 3 (bitsOf w 27 16)
    | _ => l.mapObjOk 4 (bitsOf w 11 0)
  if l.ticking || !ok then l.flagEvent Fld.MAP_STAT_CFG_REFUSED 0x085 else l.swWrite (Reg.MAP_OBJ0 + 4 * n) w

/-! ## The landmark table (R349 to R354) -/

def Lmk.valid (e : Lmk) : Bool := bitOf e.flags 0
def Lmk.pinned (e : Lmk) : Bool := bitOf e.flags 1

/-- An entry as LMK_OBJ shows it (Table 13.2). -/
def Lmk.bytes (e : Lmk) : List Byte :=
  leBytes 4 e.x.toNat ++ leBytes 4 e.y.toNat ++ leBytes 4 e.z.toNat ++ leBytes 4 e.obs ++ leBytes 8 e.seen ++ leBytes 2 e.gen
    ++ leBytes 1 e.flags ++ leBytes 1 0 ++ leBytes 4 e.tile ++ leBytes 32 e.desc

/-- Entry s. -/
def MapState.lmk (m : MapState) (s : Nat) : Lmk := sparseGet (fun _ => {}) m.lmks s

/-- Entry s replaced. -/
def MapState.setLmk (m : MapState) (s : Nat) (e : Lmk) : MapState := { m with lmks := sparseSet (fun _ => {}) s e m.lmks }

/-- A leaf's map state replaced. -/
def Leaf.setMap (l : Leaf) (m : MapState) : Leaf := { l with map := m }

/-- The lowest free slot from s on, given the entries from s on. -/
def firstFree : Nat → List (Nat × Lmk) → Option Nat
  | s, [] => if s < 65536 then some s else none
  | s, (k, e) :: t => if s < k then some s else if e.valid then firstFree (k + 1) t else some k

/-- The victim of an INSERT (R353). -/
def victim (k age : Nat) (ls : List (Nat × Lmk)) : Option Nat :=
  ((ls.filter fun e => e.2.valid && !e.2.pinned && decide (e.2.seen + age ≤ k)).foldl
    (fun (best : Option (Nat × Nat)) e =>
      match best with
      | none => some (e.2.seen, e.1)
      | some b => if e.2.seen < b.1 then some (e.2.seen, e.1) else some b) none).map (·.2)

/-- An entry freed: every byte 0 but GEN (R349). -/
def Lmk.freed (e : Lmk) : Lmk := { gen := e.gen }

/-- The entry that an INSERT record writes over e. -/
def Lmk.insert (e : Lmk) (k : Nat) (r : List Byte) : Lmk :=
  let f := leAt r 1 1
  { x := BitVec.ofNat 32 (leAt r 8 4), y := BitVec.ofNat 32 (leAt r 12 4), z := BitVec.ofNat 32 (leAt r 16 4), obs := 1, seen := k,
    gen := (e.gen + 1) % 65536, flags := 1 + 2 * b2n (bitOf f 1) + 4 * b2n (bitOf f 2), tile := leAt r 20 4,
    desc := leAt r 32 32 }

/-- An observed entry. -/
def Lmk.observe (e : Lmk) (k : Nat) : Lmk := { e with obs := satInc (2 ^ 32 - 1) e.obs, seen := k }

/-- A refined entry. -/
def Lmk.refine (e : Lmk) (k : Nat) (r : List Byte) : Lmk :=
  let o := e.observe k
  { o with x := BitVec.ofNat 32 (leAt r 8 4), y := BitVec.ofNat 32 (leAt r 12 4), z := BitVec.ofNat 32 (leAt r 16 4),
           desc := if bitOf (leAt r 1 1) 0 then leAt r 32 32 else o.desc }

/-- The coordinates of a record are finite. -/
def recFinite (r : List Byte) : Bool := (List.range 3).all fun i => f32finite (BitVec.ofNat 32 (leAt r (8 + 4 * i) 4))

/-! ## The pose graph (R355 to R358) -/

/-- Eight bytes as a binary64. -/
def f64of (bs : List Byte) (o : Nat) : F64 := BitVec.ofNat 64 (leAt bs o 8)

/-- Binary64 values as bytes. -/
def f64Bytes (xs : List F64) : List Byte := xs.flatMap fun x => leBytes 8 x.toNat

/-- p and q of a pose of seven values. -/
def poseP (a : List F64) : List F64 := a.take 3
def poseQ (a : List F64) : List F64 := a.drop 3

/-- The conjugate quaternion. -/
def qConj (q : List F64) : List F64 := [vGet q 0, f64neg (vGet q 1), f64neg (vGet q 2), f64neg (vGet q 3)]

/-- A vector difference. -/
def vSub3 (a b : List F64) : List F64 := (a.zip b).map fun p => f64sub p.1 p.2

/-- The relative pose a⁻¹ · b. DEDUCED: the product is not normalised. -/
def relPose (a b : List F64) : List F64 :=
  mVec (mT (rotOf (poseQ a))) (vSub3 (poseP b) (poseP a)) ++ qMul (qConj (poseQ a)) (poseQ b)

/-- The pose a · b⁻¹. -/
def poseDiv (a b : List F64) : List F64 :=
  let q := qMul (poseQ a) (qConj (poseQ b))
  vSub3 (poseP a) (mVec (rotOf q) (poseP b)) ++ q

/-- A node record (Table 13.6). -/
def GNode.bytes (n : GNode) : List Byte :=
  leBytes 1 n.kind ++ leBytes 1 (b2n n.fixed) ++ leBytes 5 n.item ++ leBytes 1 0 ++ f64Bytes n.pose

/-- An edge record. -/
def GEdge.bytes (e : GEdge) : List Byte :=
  leBytes 4 e.a ++ leBytes 4 e.b ++ leBytes 1 e.kind ++ leBytes 7 0 ++ leBytes 8 e.tick ++ f64Bytes e.dpose ++ f64Bytes e.info

/-- The node of the newest keyframe. -/
def MapState.newestNode (m : MapState) : Nat := match m.kfs.getLast? with | none => 0xFFFFFFFF | some k => k.node

/-- The header of the pose graph. -/
def MapState.graphHeader (m : MapState) : List Byte :=
  padTo 128 (leBytes 8 m.graphTick ++ leBytes 4 m.nodes.length ++ leBytes 4 m.edges.length ++ leBytes 8 m.solveTick
    ++ f64Bytes m.tcorr ++ leBytes 4 m.newestNode)

/-- A keyframe entry (Table 13.5). -/
def Keyframe.bytes (k : Keyframe) : List Byte :=
  padTo 128 (leBytes 4 k.id ++ leBytes 4 k.node ++ leBytes 8 k.tick ++ f64Bytes k.pose ++ leBytes 1 (b2n k.solved))

/-- The keyframe view: header, window, result words (R352, R355). -/
def MapState.kfvBytes (m : MapState) : List Byte :=
  padTo 64 (leBytes 8 m.kfvTick ++ leBytes 1 m.kfs.length ++ leBytes 3 0 ++ leBytes 4 m.newestKf)
    ++ padTo 4096 (m.kfs.flatMap Keyframe.bytes)
    ++ padTo 16384 (m.results.flatMap fun w => leBytes 4 w)

/-- n bytes of LMK_OBJ from byte ofs. -/
def MapState.lmkBytes (m : MapState) (ofs n : Nat) : List Byte :=
  let a := ofs / 64
  let all := (List.range ((ofs + n + 63) / 64 - a)).flatMap fun k => if a + k < 65536 then (m.lmk (a + k)).bytes else List.replicate 64 0
  sliceBytes all (ofs - 64 * a) n

/-- A register counter and a flag with its event. -/
def Leaf.mapFull (l : Leaf) : Leaf := l.flagEvent Fld.MAP_STAT_GRAPH_FULL 0x082

/-- The registers that show the sizes of the tables. -/
def Leaf.showMap (l : Leaf) : Leaf :=
  ((((l.put Fld.MAP_LMK_VALID_COUNT (l.map.lmks.filter fun e => e.2.valid).length).put Fld.MAP_KF_COUNT_COUNT l.map.kfs.length).put
    Fld.MAP_GRAPH_NODES_COUNT l.map.nodes.length)).put Fld.MAP_GRAPH_EDGES_COUNT l.map.edges.length

/-- Information values from two f32 registers: translation three times, rotation three times. -/
def Leaf.infoOf (l : Leaf) (t r : Nat) : List F64 :=
  let f (a : Nat) : F64 := f64ofF32 (BitVec.ofNat 32 (l.rd a))
  List.replicate 3 (f t) ++ List.replicate 3 (f r)

/-- A node added: its number, or none when there is no room (R357). -/
def Leaf.addNode (n : GNode) (l : Leaf) : Option Nat × Leaf :=
  if l.map.nodes.length < 32768 then
    (some l.map.nodes.length, l.setMap { l.map with nodes := l.map.nodes ++ [n] })
  else (none, (l.bump 13 2).mapFull)

/-- An edge added, or refused when there is no room (R357). -/
def Leaf.addEdge (e : GEdge) (l : Leaf) : Bool × Leaf :=
  if l.map.edges.length < 131072 then (true, l.setMap { l.map with edges := l.map.edges ++ [e] })
  else (false, (l.bump 13 2).mapFull)

/-- The oldest keyframe leaves a full window; its node takes its final pose (R355). -/
def Leaf.dropOldestKf (l : Leaf) : Leaf :=
  match l.map.kfs with
  | k :: t =>
    if l.map.kfs.length < 32 then l
    else l.setMap { l.map with kfs := t, nodes := modAt l.map.nodes k.node fun n => { n with pose := k.pose } }
  | [] => l

/-- KEYFRAME_ADD (R355): the result word. -/
def Leaf.keyframeAdd (k : Nat) (r : List Byte) (l : Leaf) : Option Nat × Leaf :=
  let id := l.get Fld.MAP_KF_NEXT_ID
  if l.kfvObj.isNone || l.graphObj.isNone || id == 0xFFFFFFFF then (none, l)
  else
    let pose := (List.range 7).map fun i => f64of r (8 + 8 * i)
    let l1 := l.dropOldestKf.inc Fld.MAP_KF_NEXT_ID
    let prev := l1.map.kfs.getLast?
    let a := l1.addNode { kind := 1, fixed := false, item := 2 ^ 40 - 1, pose := pose }
    let node := a.1.getD 0xFFFFFFFF
    let l2 := match prev, a.1 with
      | some p, some n =>
        if p.node = 0xFFFFFFFF then a.2
        else
          let from' := match a.2.map.nodes[p.node]? with | some x => x.pose | none => p.pose
          (a.2.addEdge
            { a := p.node, b := n, kind := 0, tick := k, dpose := relPose from' pose,
              info := a.2.infoOf Reg.MAP_ODO_INFO_T Reg.MAP_ODO_INFO_R }).2
      | _, _ => a.2
    let l3 := l2.setMap { l2.map with
      kfs := l2.map.kfs ++ [{ id := id, node := node, tick := k, pose := pose, solved := false }], newestKf := id }
    (some (l3.map.kfs.length - 1), l3)

/-- NODE_ADD (R356): the result word. -/
def Leaf.nodeAdd (r : List Byte) (l : Leaf) : Option Nat × Leaf :=
  if l.graphObj.isNone then (none, l)
  else
    let w := f64of r 40
    let x := f64of r 48
    let y := f64of r 56
    let rest := f64sub (f64sub (f64sub one64 (f64mul w w)) (f64mul x x)) (f64mul y y)
    let z := f64sqrt (f64max 0 rest)
    l.addNode { kind := 2, fixed := bitOf (leAt r 1 1) 0, item := leAt r 6 1 * 2 ^ 32 + leAt r 8 4,
                pose := [f64of r 16, f64of r 24, f64of r 32, w, x, y, z] }

/-! ## Update records (R350 to R353) -/

/-- The slot and the new entry of a landmark record, or none when it is refused (Table 13.4); a full table is counted. -/
def Leaf.lmkRecord (k : Nat) (r : List Byte) (l : Leaf) : Option (Nat × Lmk) × Leaf :=
  let code := leAt r 0 1
  let s := leAt r 2 2
  let gen := leAt r 4 2
  let e := l.map.lmk s
  let same := e.valid && e.gen == gen
  let refuse : Option (Nat × Lmk) × Leaf := (none, l.bump 13 1)
  match code with
  | 1 =>
    if !recFinite r then refuse
    else if s = 0xFFFF then
      let age := max 1 (l.get Fld.MAP_LMK_CFG_MIN_AGE)
      match (match firstFree 0 l.map.lmks with | some f => some f | none => victim k age l.map.lmks) with
      | some t => (some (t, (l.map.lmk t).insert k r), l)
      | none => (none, ((l.bump 13 2).inc Fld.MAP_LMK_FULL_COUNT).flagEvent Fld.MAP_STAT_LMK_FULL 0x081)
    else if !e.valid || (same && !e.pinned) then (some (s, e.insert k r), l)
    else refuse
  | 2 => if same then (some (s, e.observe k), l) else refuse
  | 3 => if same && recFinite r then (some (s, e.refine k r), l) else refuse
  | 4 => if same then (some (s, e.freed), l) else refuse
  | 5 => if same then (some (s, { e with flags := e.flags ||| 2 }), l) else refuse
  | 6 => if same then (some (s, { e with flags := e.flags &&& 5 }), l) else refuse
  | _ => refuse

/-- One update record applied (R352): the result word. Records of opcode 0 and 9 to 255 are skipped and counted. -/
def Leaf.updRecord (k : Nat) (r : List Byte) (l : Leaf) : Option Nat × Leaf :=
  let code := leAt r 0 1
  let finish (x : Option Nat × Leaf) : Option Nat × Leaf :=
    match x.1 with
    | some w => (some w, x.2.inc Fld.MAP_UPD_APPLIED_COUNT)
    | none => (some 0xFFFFFFFF, x.2.inc Fld.MAP_UPD_DROPPED_COUNT)
  if code = 0 ∨ 9 ≤ code then (none, l.bump 13 0)
  else if code = 7 then finish (l.keyframeAdd k r)
  else if code = 8 then finish (l.nodeAdd r)
  else
    let x := l.lmkRecord k r
    match x.1 with
    | some (s, e) => finish (some (s + e.gen * 65536), x.2.setMap (x.2.map.setLmk s e))
    | none => finish (none, x.2)

/-- The result word of record r written (R352). -/
def MapState.setResult (m : MapState) (r w : Nat) : MapState :=
  let rs := m.results ++ List.replicate (r + 1 - m.results.length) 0
  { m with results := setAt rs r w }

/-- The stage that writes object i finished the tick and was not poisoned. -/
def Leaf.writerDone (l : Leaf) (i : Nat) : Bool :=
  match l.stagesNaming 3 i with
  | [e] => match alGet l.fab.runs e.1 with | some x => x.armed && x.finished && !x.poisoned | none => false
  | _ => false

/-- The map block as a reader of objects: the consumer number of its POISON receipts. -/
def mapReader : Nat := 0xFF40

/-- The committed update object of tick k, when its records apply (R351). -/
def Leaf.updBytes (i k : Nat) (l : Leaf) : Option (List Byte) × Leaf :=
  if !l.writerDone i || l.poisoned i then (none, l)
  else
    match l.readObj mapReader i 0 262208 false with
    | (.data bs, l1) => if leAt bs 0 8 = k then (some bs, l1) else (none, l1)
    | (_, l1) => (none, l1)

/-- The records of tick k applied at step 4 (R351). -/
def Leaf.applyUpdates (k : Nat) (l : Leaf) : Leaf :=
  match l.updObj with
  | none => l
  | some i =>
    match l.updBytes i k with
    | (none, l1) => (l1.inc Fld.MAP_UPD_SKIP_COUNT).flagEvent Fld.MAP_STAT_UPD_SKIP 0x080
    | (some bs, l1) =>
      let n := leAt bs 8 4
      let l2 := if 4096 < n then l1.countBy 13 0 (n - 4096) else l1
      (List.range (min 4096 n)).foldl (fun m r =>
        let x := m.updRecord k (sliceBytes bs (64 + 64 * r) 64)
        match x.1 with
        | some w => x.2.setMap (x.2.map.setResult r w)
        | none => x.2) l2

/-- Entries with an uncorrectable word freed at step 4 (R354). -/
def Leaf.freeUe (l : Leaf) : Leaf :=
  let l1 := l.map.ue.foldl (fun m s =>
    let e := m.map.lmk s
    ((m.setMap (m.map.setLmk s { gen := (e.gen + 1) % 65536 })).notify 0x0B { block := 0x0D, addr := 64 * s, inst := s }).flagEvent
      Fld.MAP_STAT_LMK_UE 0x086) l
  l1.setMap { l1.map with ue := [] }

/-! ## Results of the solver (R356, R358) -/

/-- The poses of a window solve copied into the keyframes that are still in the window. -/
def Leaf.windowSolved (poses : List (Nat × List F64)) (l : Leaf) : Leaf :=
  let upd (k : Keyframe) : Keyframe :=
    match alGet poses k.id with
    | some p => { k with pose := p, solved := true }
    | none => k
  l.setMap { l.map with kfs := l.map.kfs.map upd }

/-- The poses of a pose-graph solve written into the nodes, T_CORR and the header's solve tick (R358). -/
def Leaf.graphSolved (k : Nat) (poses : List (List F64)) (l : Leaf) : Leaf :=
  let m := l.map
  let j := m.newestNode
  let nodes := (List.range m.nodes.length).zip m.nodes |>.map fun e =>
    match poses[e.1]? with
    | some p => { e.2 with pose := p }
    | none => e.2
  let t := match m.nodes[j]?, nodes[j]? with
    | some o, some n => poseDiv n.pose o.pose
    | _, _ => m.tcorr
  l.setMap { m with nodes := nodes, tcorr := t, solveTick := k }

/-! ## Verification (R359 to R361) -/

/-- The state of a RANSAC run: draws used, the best count and its hypothesis. -/
structure Ransac where
  j : Nat
  best : Nat
  hyp : Option (List (List F64) × List F64)
  deriving DecidableEq, Repr

/-- A cross product. -/
def vCross (a b : List F64) : List F64 :=
  [f64sub (f64mul (vGet a 1) (vGet b 2)) (f64mul (vGet a 2) (vGet b 1)),
   f64sub (f64mul (vGet a 2) (vGet b 0)) (f64mul (vGet a 0) (vGet b 2)),
   f64sub (f64mul (vGet a 0) (vGet b 1)) (f64mul (vGet a 1) (vGet b 0))]

/-- triad of R360: the rows e1, e2, e3. -/
def triad (x0 x1 x2 : List F64) : Option (List (List F64)) :=
  let u := vSub3 x1 x0
  if f64lt (vNorm u) (dec64 1 1000000) then none
  else
    let e1 := vScale u (f64div one64 (vNorm u))
    let w := vCross e1 (vSub3 x2 x0)
    if f64lt (vNorm w) (dec64 1 1000000) then none
    else
      let e3 := vScale w (f64div one64 (vNorm w))
      some [e1, vCross e3 e1, e3]

/-- pick of R360: the low 32 bits of draw j, scaled to n. -/
def pickAt (seed stream base n j : Nat) : Nat := (draw seed stream (u64 (base + j)) % 2 ^ 32) * n / 2 ^ 32

/-- Picks repeated while one repeats an index already taken and draws are left. -/
def pickNew (seed stream base n : Nat) (taken : List Nat) : Nat → Nat → Nat × Nat
  | 0, j => (pickAt seed stream base n j, j + 1)
  | fuel + 1, j =>
    let i := pickAt seed stream base n j
    if taken.contains i && decide (j + 1 < 65536) then pickNew seed stream base n taken fuel (j + 1) else (i, j + 1)

/-- The inliers of a hypothesis. -/
def inliers (pa pb : List (List F64)) (r : List (List F64)) (t : List F64) (thr2 : F64) : Nat :=
  ((pa.zip pb).filter fun p =>
    let d := vSub3 (vAdd3 (mVec r p.1) t) p.2
    f64le (dotSum (d.map fun x => f64mul x x)) thr2).length

/-- The iterations of R360. -/
def ransac (seed stream base : Nat) (pa pb : List (List F64)) (thr2 : F64) : Nat → Ransac → Ransac
  | 0, s => s
  | it + 1, s =>
    let n := pa.length
    let i0 := pickAt seed stream base n s.j
    let (i1, j1) := pickNew seed stream base n [i0] 65536 (s.j + 1)
    let (i2, j2) := pickNew seed stream base n [i0, i1] 65536 j1
    if 65536 ≤ j2 then { s with j := j2 }
    else
      match triad (pa.getD i0 []) (pa.getD i1 []) (pa.getD i2 []), triad (pb.getD i0 []) (pb.getD i1 []) (pb.getD i2 []) with
      | some fa, some fb =>
        let r := mMul (mT fb) fa
        let t := vSub3 (pb.getD i0 []) (mVec r (pa.getD i0 []))
        let cnt := inliers pa pb r t thr2
        ransac seed stream base pa pb thr2 it
          (if s.best < cnt then { j := j2, best := cnt, hyp := some (r, t) } else { s with j := j2 })
      | _, _ => ransac seed stream base pa pb thr2 it { s with j := j2 }

/-- The points of a candidate, widened to f64: each pair's first or second. -/
def Cand.points (c : Cand) (second : Bool) : List (List F64) :=
  (List.range c.n).map fun p => (List.range 3).map fun i =>
    f64ofF32 (BitVec.ofNat 32 (leAt c.pairs (24 * p + (if second then 12 else 0) + 4 * i) 4))

/-- Candidate c of tick k verified (R360). -/
def Leaf.verifyCand (l : Leaf) (k c : Nat) (x : Cand) : Verdict :=
  if x.n < 3 then .reject
  else
    let iter := clampNat 1 1024 (l.get Fld.MAP_LOOP_CFG_ITER)
    let minInl := let m := l.get Fld.MAP_LOOP_CFG_MIN_INL; if m = 0 then 3 else m
    let thr := f64mul (f64ofNat (l.get Fld.MAP_LOOP_THR_UM)) (dec64 1 1000000)
    let s := ransac (l.rd64 Reg.LEAF_SEED_LO Reg.LEAF_SEED_HI) (l.rd Reg.MAP_LOOP_STREAM)
      (k * 2 ^ 20 + c * 2 ^ 16) (x.points false) (x.points true) (f64mul thr thr) iter { j := 0, best := 0, hyp := none }
    match s.hyp with
    | some (r, t) =>
      if minInl ≤ s.best ∧ l.get Fld.MAP_LOOP_CFG_MIN_RATIO * x.n ≤ 100 * s.best then .accept r t else .reject
    | none => .reject

/-- The unit quaternion of a rotation, w not negative, by Shepperd's method (R361). -/
def shepperd (r : List (List F64)) : List F64 :=
  let m := mGet r
  let tr := f64add (f64add (m 0 0) (m 1 1)) (m 2 2)
  let c (i : Nat) : F64 := f64sub (f64add one64 (f64mul two64 (m i i))) tr
  let cs := [f64add one64 tr, c 0, c 1, c 2]
  let best := (List.range 4).foldl (fun b i => if f64lt (vGet cs b) (vGet cs i) then i else b) 0
  let s := f64mul two64 (f64sqrt (vGet cs best))
  let big := f64div s (f64ofNat 4)
  let d (a b : F64) : F64 := f64div (f64sub a b) s
  let p (a b : F64) : F64 := f64div (f64add a b) s
  let q := match best with
    | 0 => [big, d (m 2 1) (m 1 2), d (m 0 2) (m 2 0), d (m 1 0) (m 0 1)]
    | 1 => [d (m 2 1) (m 1 2), big, p (m 0 1) (m 1 0), p (m 0 2) (m 2 0)]
    | 2 => [d (m 0 2) (m 2 0), p (m 0 1) (m 1 0), big, p (m 1 2) (m 2 1)]
    | _ => [d (m 1 0) (m 0 1), p (m 0 2) (m 2 0), p (m 1 2) (m 2 1), big]
  if f64lt (vGet q 0) 0 then q.map f64neg else q

/-- The candidates of the verification object. -/
def candsOf (bs : List Byte) : List (Nat × Cand) :=
  ((List.range (min 16 (leAt bs 8 1))).map fun c =>
    let o := 64 + 24640 * c
    (c, { query := leAt bs o 4, node := leAt bs (o + 4) 4, kind := leAt bs (o + 8) 1, n := leAt bs (o + 10) 2,
          pairs := sliceBytes bs (o + 64) (24 * min 1024 (leAt bs (o + 10) 2)) : Cand })).filter fun e => decide (e.2.n ≤ 1024)

/-- The verification of tick k's candidates starts after step 10 (R360). -/
def Leaf.startVerify (k : Nat) (l : Leaf) : Leaf :=
  match l.verObj with
  | none => l
  | some i =>
    if !l.writerDone i || l.poisoned i then l
    else
      match l.readObj mapReader i 0 394304 false with
      | (.data bs, l1) =>
        if leAt bs 0 8 = k then
          let cs := candsOf bs
          (l1.countBy 13 3 (leAt bs 8 1 - cs.length)).setMap { l1.map with verify := some { tick := k, cands := cs } }
        else l1
      | (_, l1) => l1

/-- A candidate's verification completes: candidates are taken in order (R360). -/
def Leaf.verifyDone (c : Nat) (l : Leaf) : Leaf :=
  match l.map.verify with
  | none => l
  | some v =>
    match v.cands with
    | (c0, x) :: rest =>
      if c0 = c then
        l.setMap { l.map with verify := some { v with cands := rest, done := v.done ++ [(x, l.verifyCand v.tick c x)] } }
      else l
    | [] => l

/-- The outcome of a candidate applied (R361). -/
def Leaf.applyVerdict (k : Nat) (x : Cand) (v : Verdict) (l : Leaf) : Leaf :=
  match v with
  | .reject => l.inc Fld.MAP_LOOP_REJECT_COUNT
  | .accept r t =>
    let l1 := if l.graphObj.isNone then l
      else
        let a := l.addEdge
          { a := x.query, b := x.node, kind := x.kind, tick := k, dpose := t ++ shepperd r,
            info := l.infoOf Reg.MAP_LOOP_INFO_T Reg.MAP_LOOP_INFO_R }
        if a.1 then a.2.setMap { a.2.map with wantSolve := true } else a.2
    let l2 := (l1.inc Fld.MAP_LOOP_ACCEPT_COUNT).flagEvent Fld.MAP_STAT_LOOP_EV 0x083
    if x.kind = 2 then
      ((l2.put Fld.MAP_RELOC_NODE_NODE x.node).wr64 Reg.MAP_RELOC_TICK_LO Reg.MAP_RELOC_TICK_HI k).flagEvent
        Fld.MAP_STAT_RELOC_EV 0x084
    else l2

/-! ## Step 4 (R351, R356, R358, R361, R434) -/

/-- The keys at which two tables of entries differ, ascending. -/
def diffKeys {α : Type} [DecidableEq α] (d : α) : Nat → List (Nat × α) → List (Nat × α) → List Nat
  | 0, _, _ => []
  | _ + 1, [], [] => []
  | n + 1, (k, v) :: t, [] => if v = d then diffKeys d n t [] else k :: diffKeys d n t []
  | n + 1, [], (k, v) :: t => if v = d then diffKeys d n [] t else k :: diffKeys d n [] t
  | n + 1, (k, v) :: t, (j, w) :: u =>
    if k < j then (if v = d then diffKeys d n t ((j, w) :: u) else k :: diffKeys d n t ((j, w) :: u))
    else if j < k then (if w = d then diffKeys d n ((k, v) :: t) u else j :: diffKeys d n ((k, v) :: t) u)
    else if v = w then diffKeys d n t u else k :: diffKeys d n t u

/-- The records of a list that are new or changed, each with its number. -/
def changedItems {α : Type} [DecidableEq α] (all : Bool) (old new : List α) : List (Nat × α) :=
  ((List.range new.length).zip new).filter fun e => all || !(old[e.1]? == some e.2)

/-- The blocks of changed slots marked as written (R343, R354). -/
def MapState.markBlocks (m : MapState) (slots : List Nat) : MapState :=
  { m with vers := ((slots.map fun s => s / 1024).dedup).foldl (fun v b => alSet b ((alGet v b).getD 0 + 1) v) m.vers }

/-- What step 4 made of the map: the bytes digested under 0xFF40, and the leaf. -/
def Leaf.mapStep4 (k : Nat) (win : Option (List (Nat × List F64))) (graph : Option (List (List F64))) (l : Leaf) :
    List Byte × Leaf :=
  let m0 := l.map
  let l1 := l.freeUe.applyUpdates k
  let l2 := match win with | some ps => l1.windowSolved ps | none => l1
  let l3 := match graph with | some ps => l2.graphSolved k ps | none => l2
  let l4 : Leaf := match l3.map.verify with
    | none => l3
    | some v =>
      let a := v.done.foldl (fun (m : Leaf) e => m.applyVerdict k e.1 e.2) l3
      let b := a.incBy Fld.MAP_LOOP_CUT_COUNT v.cands.length
      b.setMap { b.map with verify := none }
  let slots := diffKeys {} (m0.lmks.length + l4.map.lmks.length) m0.lmks l4.map.lmks
  let nodes := changedItems graph.isSome m0.nodes l4.map.nodes
  let edges := changedItems false m0.edges l4.map.edges
  let changed := !nodes.isEmpty || !edges.isEmpty || graph.isSome || m0.newestNode != l4.map.newestNode
  let m1 := { l4.map with kfvTick := if l4.kfvObj.isSome then k else l4.map.kfvTick,
                          graphTick := if changed then k else l4.map.graphTick }
  let l5 := l4.setMap (m1.markBlocks slots)
  let l6 : Leaf := match l5.graphObj with
    | none => l5
    | some i =>
      if changed then
        let a := l5.objWrite i 0 l5.map.graphHeader
        let b := nodes.foldl (fun (m : Leaf) (e : Nat × GNode) => m.objWrite i (128 + 64 * e.1) e.2.bytes) a
        edges.foldl (fun (m : Leaf) (e : Nat × GEdge) => m.objWrite i (2097280 + 128 * e.1) e.2.bytes) b
      else l5
  let dig := (slots.flatMap fun s => leBytes 2 s ++ (l6.map.lmk s).bytes) ++ l6.map.kfvBytes ++ l6.map.graphHeader
    ++ (nodes.flatMap fun e => e.2.bytes) ++ (edges.flatMap fun e => e.2.bytes)
  (dig, l6.showMap)

/-! ## The indirect read (R364) -/

/-- A write of MAP_LMK_RD_IDX. -/
def Leaf.writeLmkIdx (w : Nat) (l : Leaf) : Leaf :=
  let l1 := l.swWrite Reg.MAP_LMK_RD_IDX w
  if bitOf w 31 then l1.putB Fld.MAP_LMK_RD_IDX_BUSY true else l1

/-- The copy completes; `ue` says that the entry holds an uncorrectable word. -/
def Leaf.lmkReadDone (ue : Bool) (l : Leaf) : Leaf :=
  if !l.bit Fld.MAP_LMK_RD_IDX_BUSY then l
  else
    let s := l.get Fld.MAP_LMK_RD_IDX_SLOT
    let l1 := if ue && !l.map.ue.contains s then l.setMap { l.map with ue := l.map.ue ++ [s] } else l
    let bs := (l1.map.lmk s).bytes
    let l2 := (List.range 16).foldl (fun m i => m.wr (Reg.MAP_LMK_RD_DATA i) (leAt bs (4 * i) 4)) l1
    (l2.putB Fld.MAP_LMK_RD_IDX_UE (l1.map.ue.contains s)).putB Fld.MAP_LMK_RD_IDX_BUSY false

/-- The map as a whole-image glaze and a leaf reset leave it (R128, R349, R355, R357). -/
def Leaf.clearMap (l : Leaf) : Leaf :=
  (((((l.setMap {}).wr Reg.MAP_OBJ0 0x0FFF0FFF).wr Reg.MAP_OBJ1 0x0FFF0FFF).wr Reg.MAP_OBJ2 0xFFF).put Fld.MAP_KF_NEXT_ID 1).showMap

end Sys2Proof.Machine
end

