-- ==== Sys2Proof/Machine/Spec.lean ====
section
/-!
DEFINITION. Speculation, first part: the working pose and its gate (R329, R330), the pose record (R331), the objects served from
registers and tables (R331, R348, R430).
-/
namespace Sys2Proof.Machine

/-! ## The gate (R330) -/

/-- The yaw of a pose. -/
def Pose.yaw (p : Pose) : F64 :=
  f64atan2 (f64mul two64 (f64add (f64mul p.qw p.qz) (f64mul p.qx p.qy)))
    (f64sub one64 (f64mul two64 (f64add (f64mul p.qy p.qy) (f64mul p.qz p.qz))))

/-- π in binary64. -/
def pi64 : F64 := 0x400921FB54442D18

/-- d and |dyaw| of a confirmed and a predicted pose. -/
def gateOf (conf pred : Pose) : F64 × F64 :=
  let dx := f64sub conf.px pred.px
  let dy := f64sub conf.py pred.py
  let dz := f64sub conf.pz pred.pz
  let d := f64sqrt (f64add (f64add (f64mul dx dx) (f64mul dy dy)) (f64mul dz dz))
  let y := f64sub conf.yaw pred.yaw
  let tau := f64mul two64 pi64
  let y1 := if f64le pi64 y then f64sub y tau else if f64lt y (f64neg pi64) then f64add y tau else y
  (d, f64abs y1)

/-- A value in millionths, rounded down, saturating at 32 bits (Table 12.5). DEDUCED: the exact value × 10⁶ is rounded down. -/
def micro32 (x : F64) : Nat :=
  match fpFloorInt (fpMulX (f64v x) (fpOfNat 1000000)) with
  | some i => min (2 ^ 32 - 1) i.toNat
  | none => 2 ^ 32 - 1

/-- A register in millionths as binary64. -/
def Leaf.microReg (l : Leaf) (a : Nat) : F64 := f64mul (f64ofNat (l.rd a)) (dec64 1 1000000)

/-- The working pose of tick k + 1 once the confirmed pose of its boundary is available (R329, R330). -/
def Leaf.judgePose (l : Leaf) : Leaf :=
  match l.spec.conf with
  | none => l
  | some (k, conf) =>
    let same := match l.spec.work with | some w => w.tick == k + 1 | none => false
    if same || !l.ticking then l
    else
      let w : WorkPose :=
        match l.spec.pred with
        | some (j, pred) =>
          if j = k then
            let g := gateOf conf pred
            let inside := f64le g.1 (l.microReg Reg.SPEC_GATE_POS) && f64le g.2 (l.microReg Reg.SPEC_GATE_YAW)
            { tick := k + 1, pose := if inside then pred else conf, source := b2n (!inside), pred := true, dpos := micro32 g.1,
              dyaw := micro32 g.2 }
          else { tick := k + 1, pose := conf, source := 1, pred := false, dpos := 0, dyaw := 0 }
        | none => { tick := k + 1, pose := conf, source := 1, pred := false, dpos := 0, dyaw := 0 }
      { l with spec := { l.spec with work := some w } }

/-- EGO_PROPAGATION with the working pose that a closing propagation decides. -/
def Leaf.propagate (l : Leaf) : Leaf := l.egoPropagate.judgePose

/-! ## The pose record (R331) -/

/-- The vehicle time in ns of the boundary that starts tick k. -/
def Leaf.tickStart (l : Leaf) (k : Nat) : Nat := k * l.rd Reg.TICK_PERIOD

/-- The pose record of a tick (Table 12.1). -/
def Leaf.poseRecord (l : Leaf) (tick : Nat) (p : Pose) (source : Nat) : List Byte :=
  padTo 96 (leBytes 8 tick ++ leBytes 8 (l.tickStart tick)
    ++ f64Bytes [p.px, p.py, p.pz, p.qw, p.qx, p.qy, p.qz] ++ leBytes 1 source)

/-- What a read of the pose object returns to a reader that serves a tick: none while the working pose is undecided. -/
def Leaf.poseBytes (l : Leaf) (blind : Bool) (tick : Nat) : Option (List Byte) :=
  if blind then
    match l.spec.pred with
    | some (k, p) => if k + 1 = tick then some (l.poseRecord tick p 0) else none
    | none => none
  else
    match l.spec.work with
    | some w => if w.tick = tick then some (l.poseRecord tick w.pose w.source) else none
    | none => none

/-- A write of SPEC_CFG (R331). -/
def Leaf.writeSpecCfg (w : Nat) (l : Leaf) : Leaf :=
  let ok := match objSel (bitsOf w 11 0) with
    | none => true
    | some i => match l.obj i with | some o => o.served 96 | none => false
  if l.ticking || !ok then l.flagEvent Fld.SPEC_STAT_CFG_REFUSED 0x07A else l.swWrite Reg.SPEC_CFG w

/-- A write of SPEC_CTRL (R346): ENABLE = 0 acts at once, ENABLE = 1 from the next latch; a blind stage that has started is
then disabled (Table 12.3, cause 2). -/
def Leaf.writeSpecCtrl (w : Nat) (l : Leaf) : Leaf :=
  let l1 := l.swWrite Reg.SPEC_CTRL w
  if bitOf w 0 then l1
  else { l1 with spec := { l1.spec with enabled := false, disabled := (l1.spec.disabled ++ l1.fab.blinds.map (·.1)).dedup } }

/-! ## The random object (R430, R431) -/

/-- The seed of the leaf's generator. -/
def Leaf.seed (l : Leaf) : Nat := l.rd64 Reg.LEAF_SEED_LO Reg.LEAF_SEED_HI

/-- The committed counter of a stage. -/
def Leaf.rngCtr (l : Leaf) (id : Nat) : Nat := (alGet l.fab.rng id).getD 0

/-- Word w of the random object as stage `id` reads it. -/
def Leaf.rngWord (l : Leaf) (blind : Bool) (id w : Nat) : Nat :=
  if blind then draw l.seed (0xC0000000 + id) w else draw l.seed (0x40000000 + id) (u64 (l.rngCtr id + w))

/-- n bytes of the random object from byte ofs. -/
def Leaf.rngBytes (l : Leaf) (blind : Bool) (id ofs n : Nat) : List Byte :=
  let a := ofs / 8
  sliceBytes ((List.range ((ofs + n + 7) / 8 - a)).flatMap fun k => leBytes 8 (l.rngWord blind id (a + k))) (ofs - 8 * a) n

/-- The random object. -/
def Leaf.rngObj (l : Leaf) : Option Nat := objSel (l.get Fld.LEAF_RNG_OBJ_OBJ)

/-- A refusal of a determinism setting (R430, R431, R441). -/
def Leaf.detRefused (l : Leaf) : Leaf := l.flagEvent Fld.LEAF_DET_STAT_CFG_REFUSED 0x00B

/-- A write of LEAF_RNG_OBJ. -/
def Leaf.writeRngObj (w : Nat) (l : Leaf) : Leaf :=
  let ok := match objSel (bitsOf w 11 0) with
    | none => true
    | some i => match l.obj i with | some o => o.served 64 | none => false
  if l.ticking || !ok then l.detRefused else l.swWrite Reg.LEAF_RNG_OBJ w

/-- A write of LEAF_SEED. -/
def Leaf.writeSeed (a w : Nat) (l : Leaf) : Leaf := if l.ticking then l.detRefused else l.swWrite a w

/-- GO_RD and GO_WR of LEAF_RNG_CIDX (R431). -/
def Leaf.rngRead (l : Leaf) : Leaf :=
  l.wr64 Reg.LEAF_RNG_CVAL_LO Reg.LEAF_RNG_CVAL_HI (l.rngCtr (l.get Fld.LEAF_RNG_CIDX_STAGE))
def Leaf.rngWrite (l : Leaf) : Leaf :=
  if l.ticking then l.detRefused
  else
    l.setFab { l.fab with rng := alSet (l.get Fld.LEAF_RNG_CIDX_STAGE) (l.rd64 Reg.LEAF_RNG_CVAL_LO Reg.LEAF_RNG_CVAL_HI) l.fab.rng }

/-- A write of LEAF_RNG_CIDX. DESIGN CHOICE: with both bits written the read comes first. -/
def Leaf.writeRngIdx (w : Nat) (l : Leaf) : Leaf :=
  let l1 := l.swWrite Reg.LEAF_RNG_CIDX w
  let l2 := if bitOf w 31 then l1.rngRead else l1
  if bitOf w 30 then l2.rngWrite else l2

/-! ## Reads by a stage -/

/-- The landmark blocks that bytes ofs to ofs + n − 1 of LMK_OBJ lie in. -/
def lmkBlocks (ofs n : Nat) : List Nat := (List.range ((ofs + n + 65535) / 65536 - ofs / 65536)).map fun k => ofs / 65536 + k

/-- The key of a versioned state (R343): an object by its index, a landmark block, a side list by its slot. -/
def versLmk (b : Nat) : Nat := 4096 + b
def versSide (x : Nat) : Nat := 8192 + x

/-- Bytes of object i read by stage `id`, which serves a tick: the pose object, the random object and the views of the map block
are served without DRAM (R331, R348, R430), everything else as R180 and the memory tiers lay down. -/
def Leaf.stageRead (id : Nat) (blind : Bool) (tick i ofs n : Nat) (l : Leaf) : ObjRead × Leaf :=
  if objSel (l.get Fld.SPEC_CFG_POSE_OBJ) = some i then
    match l.poseBytes blind tick with
    | some bs => (.data ((List.range n).map fun k => if ofs + k < 96 then bs.getD (ofs + k) 0 else BitVec.ofNat 8 (Config.poseTail (ofs + k))), l)
    | none => (.wait, l)
  else if l.rngObj = some i then (.data (l.rngBytes blind id ofs n), l)
  else if l.lmkObj = some i then
    if l.map.ue.any fun s => decide (64 * s < ofs + n) && decide (ofs < 64 * s + 64) then (.poison, l)
    else (.data (l.map.lmkBytes ofs n), l)
  else if l.kfvObj = some i then (.data (sliceBytes l.map.kfvBytes ofs n), l)
  else l.readObj id i ofs n blind

/-- The versioned states that a blind read of object i touches, with their versions (R343). -/
def Leaf.versRead (l : Leaf) (i ofs n : Nat) : List (Nat × Nat) :=
  if l.lmkObj = some i then (lmkBlocks ofs n).map fun b => (versLmk b, (alGet l.map.vers b).getD 0)
  else
    match l.obj i with
    | some o => if o.writable then [(i, l.objVers i)] else []
    | none => []

end Sys2Proof.Machine
end

