-- ==== Sys2Proof/Machine/Stage.lean ====
section
/-!
DEFINITION. Pane stages at work: firing (R162 to R165), computing (R180, R184), settlement of POISON (R188), blind starts (R334), and
the slots of a pane (R157).
-/
namespace Sys2Proof.Machine

/-! ## Slots and runs -/

/-- The stage of an index. -/
def Leaf.stage (l : Leaf) (ix : Nat) : Option StageDesc := l.glz.image.bind fun im => im.stages[ix]?

/-- The pane and slot of a stage on each pane it spans (R157). -/
def Leaf.slotsOf (l : Leaf) (ix : Nat) : List (Nat × Nat) :=
  match l.glz.image, l.stage ix with
  | some im, some s => s.paneList.map fun p => (p, ((im.stages.take ix).filter fun t => bitOf t.panes p).length)
  | _, _ => []

/-- A field of every slot of a stage given a value. -/
def Leaf.putSlots (l : Leaf) (ix : Nat) (f : Nat → Nat → FieldRef) (v : Nat) : Leaf :=
  (l.slotsOf ix).foldl (fun m e => m.put (f e.1 e.2) v) l

/-- The variant that pipeline n runs in the tick in progress. -/
def Leaf.curVariant (l : Leaf) (n : Nat) : Option Variant :=
  match l.glz.image.bind fun im => im.pipe n, alGet l.tick.sel n with
  | some p, some v => p.variants[v]?
  | _, _ => none

/-- The variant selected for the stage's pipeline lists the stage (R119). -/
def Leaf.listed (l : Leaf) (s : StageDesc) : Bool :=
  match l.curVariant s.pipe with
  | some v => v.stages.contains s.id
  | none => false

/-- A fresh run of a stage. -/
def StageDesc.fresh (s : StageDesc) : StageRun := { armed := true, ins := List.replicate s.nin {} }

/-- A run of a stage, of the tick in progress or blind. -/
def Leaf.runOf (l : Leaf) (blind : Bool) (ix : Nat) : Option StageRun := alGet (if blind then l.fab.blinds else l.fab.runs) ix

/-- A run replaced. -/
def Leaf.setRun (l : Leaf) (blind : Bool) (ix : Nat) (r : StageRun) : Leaf :=
  if blind then l.setFab { l.fab with blinds := alSet ix r l.fab.blinds }
  else l.setFab { l.fab with runs := alSet ix r l.fab.runs }

/-! ## Ready to fire (R162) -/

/-- The input ports that have not had END, each with its route. -/
def Leaf.openIns (l : Leaf) (s : StageDesc) (x : StageRun) : List (Nat × Option Nat) :=
  ((List.range s.nin).filter fun p => !(x.ins.getD p {}).ended).map fun p =>
    (p, (l.glz.image.bind fun im => im.routeInto s.id p).map (·.1))

/-- The token at the head of a route's buffer, if a firing of that kind can take it (R335). -/
def Leaf.headTok (l : Leaf) (blind : Bool) (r : Option Nat) : Option Token :=
  match r with
  | none => none
  | some r =>
    match (l.route r).buf.head? with
    | some t => if t.blind = blind then some t else none
    | none => none

/-- The output ports whose output is not sent to the end. -/
def StageRun.openOuts (x : StageRun) (s : StageDesc) : List Nat :=
  (List.range s.nout).filter fun n => !x.computed || !(x.outs.getD n []).isEmpty

/-- Every route of every open output port holds the credits that a firing needs; one for the END of a poisoned stage. -/
def Leaf.creditsOk (l : Leaf) (s : StageDesc) (x : StageRun) : Bool :=
  (x.openOuts s).all fun n =>
    (l.outRoutes s.id n).all fun r => decide ((if x.poisoned then 1 else s.outMax.getD n 1) ≤ (l.route r).credits)

/-- The stage can fire. DEDUCED: a port that has had END asks for no token, so that output that is left can still be sent. -/
def Leaf.canFire (l : Leaf) (blind : Bool) (s : StageDesc) (x : StageRun) : Bool :=
  x.armed && !x.finished && ((l.openIns s x).all fun e => (l.headTok blind e.2).isSome) && l.creditsOk s x

/-! ## Consuming -/

/-- A token taken into an input port. -/
def StageRun.takeTok (x : StageRun) (p : Nat) (t : Token) : StageRun :=
  { x with
    ins := modAt x.ins p fun i => { toks := if t.bytes.isEmpty then i.toks else i.toks ++ [t.bytes], ended := i.ended || t.last }
    poisonIn := x.poisonIn || t.poison
    carry := x.carry.join t.carry }

/-- One token consumed from each open input port; its credit starts back. -/
def Leaf.consumeIns (blind : Bool) (s : StageDesc) (x : StageRun) (l : Leaf) : StageRun × Leaf :=
  (l.openIns s x).foldl (fun (a : StageRun × Leaf) e =>
    match e.2, a.2.headTok blind e.2 with
    | some r, some t => (a.1.takeTok e.1 t, a.2.setRoute r (a.2.route r).consume)
    | _, _ => a) (x, l)

/-- A stage that stops under R188: one END with POISON on every port that has not had END, no object writes. -/
def StageRun.poison (x : StageRun) (s : StageDesc) (blind : Bool) : StageRun :=
  { x with poisoned := true, computed := true, outs := List.replicate s.nout [poisonEnd blind], full := [], writes := [], ev := {} }

/-! ## Objects of an operator -/

/-- What reading the objects of a stage gives: segments by key (operand slot, or row of operand 0), or why there are none. -/
inductive Segs where
  | got (segs : List (Nat × List Byte))
  | wait
  | poison
  deriving DecidableEq, Repr

/-- The object reads of a stage: key, object, offset, length. -/
structure SegReq where
  key : Nat
  obj : Nat
  ofs : Nat
  len : Nat
  deriving DecidableEq, Repr

/-- Writes that lie over bytes ofs to ofs + n − 1 of object i, in order. -/
def overlay (i ofs : Nat) (bs : List Byte) (ws : List ObjWrite) : List Byte :=
  ws.foldl (fun acc w =>
    if w.obj = i then
      (List.range acc.length).map fun k =>
        if w.ofs ≤ ofs + k ∧ ofs + k < w.ofs + w.bytes.length then w.bytes.getD (ofs + k - w.ofs) 0 else acc.getD k 0
    else acc) bs

/-- The writes of the tick by stages that have finished, in descriptor order. -/
def Leaf.tickWrites (l : Leaf) : List ObjWrite := l.fab.runs.flatMap fun e => if e.2.finished && !e.2.poisoned then e.2.writes else []

/-- The object reads made one after the other; the first that waits or finds POISON ends them. -/
def Leaf.readSegs (id : Nat) (blind : Bool) (tick : Nat) : List SegReq → Leaf → Segs × Leaf
  | [], l => (.got [], l)
  | q :: t, l =>
    match l.stageRead id blind tick q.obj q.ofs q.len with
    | (.wait, l1) => (.wait, l1)
    | (.poison, l1) => (.poison, l1)
    | (.data bs, l1) =>
      match Leaf.readSegs id blind tick t l1 with
      | (.got m, l2) => (.got ((q.key, bs) :: m), l2)
      | o => o

/-- The tensor of an input port from its tokens; a RECORD16 port holds as many records as arrived. -/
def portTensor (d : TDesc) (toks : List (List Byte)) : Ten :=
  if d.fmt = 0x10 then Ten.ofTokens d.fmt [toks.flatten.length / 16, 1, 1, 1] toks else Ten.ofTokens d.fmt d.dims toks

/-- The input tensors of a run. -/
def StageDesc.portsOf (s : StageDesc) (x : StageRun) : List (Nat × Ten) :=
  (List.range s.nin).filterMap fun p => (s.desc 0 p).map fun d => (p, portTensor d (x.ins.getD p {}).toks)

/-- Operand 0 is read by rows: GATHER, SCATTER, RECUR. -/
def StageDesc.byRows (s : StageDesc) : Bool := s.opcode == 0x09 || s.opcode == 0x0A || s.opcode == 0x0E

/-- The object reads of a stage, and those of operand 0 by rows. -/
def StageDesc.objReqs (s : StageDesc) : List SegReq :=
  (s.descs.filter fun d => d.kind == 2 && !(s.byRows && d.port == 0)).map fun d => { key := d.port, obj := d.obj, ofs := 0, len := d.extent }
def StageDesc.rowReqs (s : StageDesc) (idx : Ten) : List SegReq :=
  match s.descs.find? fun d => decide (2 ≤ d.kind) && d.port == 0 with
  | some d => if s.byRows then (s.rowsRead idx).map fun r => { key := r, obj := d.obj, ofs := r * s.rowBytes, len := s.rowBytes } else []
  | none => []

/-- What computing a stage gives. -/
inductive Comp where
  | done (x : StageRun)
  | wait
  | poison
  deriving DecidableEq, Repr

/-- Every event of an arithmetic shadow. -/
def Ev.total (e : Ev) : Nat := e.accSat + e.cvtSat + e.nanOut + e.ftzHit + e.scaleNan + e.sparseErr

/-- A stage whose inputs are complete computes its outputs (R180, R184). -/
def Leaf.compute (blind : Bool) (s : StageDesc) (x : StageRun) (l : Leaf) : Comp × Leaf :=
  let tick := if blind then l.tickNum + 1 else l.tickNum
  let ports := s.portsOf x
  let idx := (alGet ports 0).getD { fmt := 2, dims := [0], raw := #[] }
  let q1 := s.objReqs
  let q2 := s.rowReqs idx
  match l.readSegs s.id blind tick q1 with
  | (.wait, l1) => (.wait, l1)
  | (.poison, l1) => (.poison, l1)
  | (.got objs, l1) =>
    match l1.readSegs s.id blind tick q2 with
    | (.wait, l2) => (.wait, l2)
    | (.poison, l2) => (.poison, l2)
    | (.got rows, l2) =>
      let target := s.desc 3 0
      let rows1 := match target with
        | some d => (rows.zip q2).map fun e => (e.1.1, overlay d.obj e.2.ofs e.1.2 l2.tickWrites)
        | none => rows
      let locked := l2.bit Fld.TICK_CFG_LOCKED
      let l3 := if locked then l2 else { l2 with free := l2.free + 1 }
      let r := (OpIn.run { s := s, locked := locked, draw := l2.free, ports := ports, objs := objs, rows := rows1 }) {}
      let out := r.1
      let reqs := q1 ++ q2
      let carry := (reqs.foldl (fun c q => c.join (l3.srcCarry q.obj)) x.carry)
      let rng := (reqs.filter fun q => l3.rngObj == some q.obj && decide (0 < q.len)).foldl
        (fun (t : Option Nat) q => some (max (t.getD 0) ((q.ofs + q.len - 1) / 8))) none
      let x1 : StageRun :=
        { x with
          computed := true, full := (List.range s.nout).map fun n => out.outs.getD n []
          outs := (List.range s.nout).map fun n => tokensOf carry false blind (out.outs.getD n [])
          carry := carry, ev := r.2, dropPts := out.drops
          writes := out.writes.map fun w => { obj := match target with | some d => d.obj | none => 0xFFFF, ofs := w.2.1, bytes := w.2.2 }
          rngTop := rng
          vers := if blind then reqs.flatMap fun q => l3.versRead q.obj q.ofs q.len else [] }
      (.done x1, if blind then l3.countBy 12 7 r.2.total else l3)

/-! ## Emitting -/

/-- Up to `count` tokens of output port n sent on every route of the port. -/
def Leaf.emitPort (s : StageDesc) (n count : Nat) (x : StageRun) (l : Leaf) : Nat × StageRun × Leaf :=
  let k := min count (s.outMax.getD n 1)
  let now := (x.outs.getD n []).take k
  let l1 := now.foldl (fun m t => (m.outRoutes s.id n).foldl (fun m r => m.sendOn r t) m) l
  (now.length, { x with outs := modAt x.outs n fun ts => ts.drop k }, l1)

/-- The emissions of one firing, each port once. -/
def Leaf.emitAll (s : StageDesc) (emit : List (Nat × Nat)) (x : StageRun) (l : Leaf) : Nat × StageRun × Leaf :=
  (List.range s.nout).foldl (fun (a : Nat × StageRun × Leaf) n =>
    match alGet emit n with
    | none => a
    | some c =>
      let b := a.2.2.emitPort s n c a.2.1
      (a.1 + b.1, b.2.1, b.2.2)) (0, x, l)

/-- The run has consumed END on every input port, computed, and sent END on every output (R163). -/
def StageRun.done (x : StageRun) : Bool := x.computed && (x.ins.all fun i => i.ended) && x.outs.all fun o => o.isEmpty

/-! ## Firing -/

/-- The counter of a pane in class 16 (R482): 0 to 5 saturations, conversions, NaN outputs, flushes, scale NaNs and sparse errors, 6
dropped points, 7 corrected SRAM words, 8 discarded tokens. DESIGN CHOICE: the index within the class. -/
def paneCounter (p j : Nat) : Nat := 18 * p + j

/-- An injected SRAM error that waits for data of a pane (kind 2 of R537) strikes the first token that a stage on the pane now sends. -/
def Leaf.injToken (s : StageDesc) (emit : List (Nat × Nat)) (x : StageRun) (l : Leaf) : StageRun × Leaf :=
  match l.flt.inject with
  | some (2, p) =>
    match (List.range s.nout).find? fun n => decide (0 < (alGet emit n).getD 0) && !(x.outs.getD n []).isEmpty with
    | some n =>
      if s.paneList.contains p then
        ({ x with outs := modAt x.outs n fun ts => modAt ts 0 fun t => { t with poison := true } },
          ((l.injDone.putB (Fld.PANE_STATE_SRAM_UE p) true).bump 16 (paneCounter p 7)))
      else (x, l)
    | none => (x, l)
  | _ => (x, l)


/-- One firing of stage ix (R162): `emit` says how many tokens it emits on which port. A stage that cannot fire does nothing. -/
def Leaf.fireRun (blind : Bool) (ix : Nat) (emit : List (Nat × Nat)) (l : Leaf) : Leaf :=
  match l.stage ix, l.runOf blind ix with
  | some s, some x =>
    if !l.canFire blind s x then l
    else
      let n := (l.openIns s x).length
      let c := l.consumeIns blind s x
      let x1 := if c.1.poisonIn && !c.1.poisoned then c.1.poison s blind else c.1
      let d : StageRun × Leaf :=
        if x1.computed || !(x1.ins.all fun i => i.ended) then (x1, c.2)
        else
          match c.2.compute blind s x1 with
          | (.done y, m) => (y, m)
          | (.poison, m) => (x1.poison s blind, m)
          | (.wait, m) => (x1, m)
      let j := d.2.injToken s emit d.1
      let e := j.2.emitAll s emit j.1
      let y := { e.2.1 with started := true, finished := e.2.1.done }
      let idle := n == 0 && e.1 == 0 && !(d.1.computed && !x.computed) && !y.finished
      let y1 := if idle then y else { y with firings := y.firings + 1 }
      let l1 := e.2.2.setRun blind ix y1
      if blind then (if idle then l1 else (l1.bump 12 0).countBy 12 1 e.1)
      else
        (l1.putSlots ix Fld.PANE_SFIRE_FIRINGS y1.firings).putSlots ix Fld.PANE_SSTAT_FINISHED (b2n y1.finished)
  | _, _ => l

/-- STAGE_FIRE: the stage serves the tick in progress until it has finished, then, once started, the next one blind (R334). -/
def Leaf.stageFire (ix : Nat) (emit : List (Nat × Nat)) (l : Leaf) : Leaf :=
  if !l.ticking then l
  else
    match l.runOf true ix with
    | some _ => if l.spec.pending.isSome then l else l.fireRun true ix emit
    | none => l.fireRun false ix emit

/-! ## Blind start (R334) -/

/-- A speculable stage that has finished its tick starts the next one's work on the predicted pose. -/
def Leaf.blindStart (ix : Nat) (l : Leaf) : Leaf :=
  match l.stage ix with
  | none => l
  | some s =>
    let done := match l.runOf false ix with | some x => x.finished | none => false
    let latched := match l.spec.pred with | some (k, _) => k == l.tickNum | none => false
    if l.ticking && s.spec && l.bit Fld.SPEC_CTRL_ENABLE && l.spec.enabled && latched && done && l.listed s && (l.runOf true ix).isNone
        && l.spec.pending.isNone then
      let l1 := l.setRun true ix s.fresh
      ((l1.putSlots ix Fld.PANE_SSTAT_BLIND 1).putB Fld.SPEC_STAT_BLIND_RUN true)
    else l

end Sys2Proof.Machine
end

