-- ==== Sys2Proof/Machine/VisionArith.lean ====
section
/-!
DEFINITION. The integer arithmetic of the vision engines: images (R280), stereo (R283 to R285), flow (R286, R287), features (R288 to
R293), warp and pyramids (R294, R295).
-/
namespace Sys2Proof.Machine

/-- An image: its size, pixel values and which pixels are valid, in raster order. -/
structure Img where
  w : Nat
  h : Nat
  px : Array Nat
  ok : Array Bool

/-- An image from a function of x and y. -/
def Img.tab (w h : Nat) (f : Nat → Nat → Nat × Bool) : Img :=
  let r := (List.range h).flatMap fun y => (List.range w).map fun x => f x y
  { w := w, h := h, px := (r.map (·.1)).toArray, ok := (r.map (·.2)).toArray }

/-- A coordinate clamped to 0 … n − 1. -/
def clampTo (n : Nat) (i : Int) : Nat := (clampInt 0 ((n : Int) - 1) i).toNat

/-- The pixel at a point, clamped to the edge. -/
def Img.at (i : Img) (x y : Int) : Nat := i.px.getD (clampTo i.h y * i.w + clampTo i.w x) 0

/-- The validity of the pixel at a point, clamped to the edge. -/
def Img.okAt (i : Img) (x y : Int) : Bool := i.ok.getD (clampTo i.h y * i.w + clampTo i.w x) false

/-- A point lies inside. -/
def Img.inside (i : Img) (x y : Int) : Bool := decide (0 ≤ x) && decide (x < i.w) && decide (0 ≤ y) && decide (y < i.h)

/-- The offsets of a (2a + 1) × (2b + 1) window, rows top to bottom, pixels left to right. -/
def window (a b : Nat) : List (Int × Int) :=
  (List.range (2 * b + 1)).flatMap fun (j : Nat) => (List.range (2 * a + 1)).map fun (i : Nat) => ((i : Int) - a, (j : Int) - b)

/-- The census of a pixel (R283): one bit per pixel of the 9 × 7 window but the centre. -/
def Img.census (i : Img) (x y : Int) : Nat :=
  let c := i.at x y
  ((window 4 3).filter fun o => o != (0, 0)).foldl (fun acc o => 2 * acc + b2n (decide (i.at (x + o.1) (y + o.2) < c))) 0

/-- The number of bits set. -/
def popc : Nat → Nat → Nat
  | 0, _ => 0
  | n + 1, v => v % 2 + popc n (v / 2)

/-- The censuses of an image, in raster order. -/
def Img.censuses (i : Img) : Array Nat :=
  ((List.range i.h).flatMap fun (y : Nat) => (List.range i.w).map fun (x : Nat) => i.census x y).toArray

/-- The Hamming distance of two censuses. -/
def hamming (a b : Nat) : Nat := popc 62 (a ^^^ b)

/-- Every pixel of the census window of a point is valid. -/
def Img.windowOk (i : Img) (x y : Int) : Bool := (window 4 3).all fun o => i.okAt (x + o.1) (y + o.2)

/-- The minimum of a list of numbers; 0 of none. -/
def minOf (l : List Nat) : Nat := l.tail.foldl min (l.headD 0)

/-! ## Stereo -/

/-- The parameters of a stereo job (Table 10.4). -/
structure StereoPar where
  p1 : Nat
  p2 : Nat
  uniq : Nat
  lrTol : Nat

/-- The largest disparity of column x. -/
def dmax (x : Nat) : Nat := min 255 x

/-- One step of a path (R283): the costs of the pixel and Lr of the pixel before it on the path. -/
def pathStep (p : StereoPar) (c : Array Nat) (prev : Option (Array Nat)) : Array Nat :=
  match prev with
  | none => c
  | some q =>
    let mk := minOf q.toList
    ((List.range c.size).map fun d =>
      let cands := (match q[d]? with | some v => [v] | none => [])
        ++ (if d = 0 then [] else match q[d - 1]? with | some v => [v + p.p1] | none => [])
        ++ (match q[d + 1]? with | some v => [v + p.p1] | none => [])
        ++ [mk + p.p2]
      c.getD d 0 + minOf cands - mk).toArray

/-- The path values of a row: from the left, from above, from above-left, from above-right. -/
structure PathRow where
  left : Array (Array Nat)
  up : Array (Array Nat)
  upLeft : Array (Array Nat)
  upRight : Array (Array Nat)

/-- A row of path values from the row above. -/
def pathRow (p : StereoPar) (w : Nat) (above : Option PathRow) (cost : Nat → Array Nat) : PathRow :=
  (List.range w).foldl (fun (r : PathRow) x =>
    let c := cost x
    { left := r.left.push (pathStep p c (if x = 0 then none else r.left[x - 1]?))
      up := r.up.push (pathStep p c (above.bind fun a => a.up[x]?))
      upLeft := r.upLeft.push (pathStep p c (if x = 0 then none else above.bind fun a => a.upLeft[x - 1]?))
      upRight := r.upRight.push (pathStep p c (above.bind fun a => a.upRight[x + 1]?)) })
    { left := #[], up := #[], upLeft := #[], upRight := #[] }

/-- S of a row, by column and disparity. -/
def PathRow.sums (r : PathRow) : Array (Array Nat) :=
  ((List.range r.left.size).map fun x =>
    let g (a : Array (Array Nat)) (d : Nat) : Nat := (a.getD x #[]).getD d 0
    ((List.range (r.left.getD x #[]).size).map fun d => g r.left d + g r.up d + g r.upLeft d + g r.upRight d).toArray).toArray

/-- The index of the lowest value, the lowest index winning a tie. -/
def argMin (l : List Nat) : Nat :=
  ((List.range l.length).foldl (fun (b : Nat × Nat) i => if l.getD i 0 < b.2 then (i, l.getD i 0) else b) (0, l.headD 0)).1

/-- The disparity word of a pixel (R284, R285), from the S values of its row. -/
def stereoWord (p : StereoPar) (l r : Img) (x y : Nat) (row : Array (Array Nat)) : Nat :=
  let s (x d : Nat) : Nat := (row.getD x #[]).getD d 0
  let ss := (row.getD x #[]).toList
  let d := argMin ss
  let dr := argMin ((List.range (min 256 (l.w - (x - d)))).map fun k => s (x - d + k) k)
  let others := ((List.range ss.length).filter fun k => decide (k + 2 ≤ d) || decide (d + 2 ≤ k)).map fun k => ss.getD k 0
  let c1 := s x d
  if !(l.windowOk x y && r.windowOk ((x : Int) - d) y) then 0x8000
  else if d = dmax x then 0x6000
  else if p.lrTol < 255 ∧ p.lrTol < ((d : Int) - dr).natAbs then 0x4000
  else if others.isEmpty || decide (100 * (minOf others - c1) < p.uniq * c1) then 0x2000
  else if d = 0 then 0
  else
    let a : Int := s x (d - 1)
    let b : Int := s x (d + 1)
    let den := 2 * (a + b - 2 * (c1 : Int))
    let off := if den ≤ 0 then 0 else clampInt (-16) 16 ((64 * (a - b) + den) / (2 * den))
    (clampInt 0 8191 ((d : Int) * 32 + off)).toNat

/-- The disparity words of a rectified pair, in raster order (R283 to R285). -/
def stereo (p : StereoPar) (l r : Img) : List Nat :=
  let cl := l.censuses
  let cr := r.censuses
  let cost (y x : Nat) : Array Nat :=
    ((List.range (dmax x + 1)).map fun d => hamming (cl.getD (y * l.w + x) 0) (cr.getD (y * r.w + (x - d)) 0)).toArray
  ((List.range l.h).foldl (fun (acc : Option PathRow × List (List Nat)) y =>
    let row := pathRow p l.w acc.1 (cost y)
    let s := row.sums
    (some row, ((List.range l.w).map fun x => stereoWord p l r x y s) :: acc.2)) (none, [])).2.reverse.flatten

/-! ## Flow -/

/-- The parameters of a flow job (Table 10.4). -/
structure FlowPar where
  rad : Nat
  uniq : Nat
  fb : Bool
  fbTol : Nat

/-- The cost of an offset at a pixel (R286). DEDUCED: each point is clamped to the edge on its own. -/
def flowCost (a b : Img) (ca cb : Array Nat) (x y u v : Int) : Nat :=
  ((window 2 2).map fun o =>
    hamming (ca.getD (clampTo a.h (y + o.2) * a.w + clampTo a.w (x + o.1)) 0)
      (cb.getD (clampTo b.h (y + o.2 + v) * b.w + clampTo b.w (x + o.1 + u)) 0)).foldl (· + ·) 0

/-- The order of offsets of equal cost. -/
def flowBefore (pu pv : Int) (a b : Nat × Int × Int) : Bool :=
  let da := (a.2.1 - pu).natAbs + (a.2.2 - pv).natAbs
  let db := (b.2.1 - pu).natAbs + (b.2.2 - pv).natAbs
  if a.1 ≠ b.1 then decide (a.1 < b.1)
  else if da ≠ db then decide (da < db)
  else if a.2.2 ≠ b.2.2 then decide (a.2.2 < b.2.2)
  else decide (a.2.1 < b.2.1)

/-- The costs of the search window around a prediction. -/
def flowSearch (a b : Img) (ca cb : Array Nat) (rad : Nat) (x y pu pv : Int) : List (Nat × Int × Int) :=
  (window rad rad).map fun o => (flowCost a b ca cb x y (pu + o.1) (pv + o.2), pu + o.1, pv + o.2)

/-- The winner of a search. -/
def flowWinner (pu pv : Int) (cs : List (Nat × Int × Int)) : Nat × Int × Int :=
  cs.tail.foldl (fun best c => if flowBefore pu pv c best then c else best) (cs.headD (0, pu, pv))

/-- The integer flow of a level from that of the level above: x, y to (u, v). -/
def flowLevel (a b : Img) (rad : Nat) (above : Option (Nat × Array (Int × Int))) : Array (Int × Int) :=
  let ca := a.censuses
  let cb := b.censuses
  ((List.range a.h).flatMap fun (y : Nat) => (List.range a.w).map fun (x : Nat) =>
    let p : Int × Int := match above with
      | none => (0, 0)
      | some (w, f) => let q := f.getD (y / 2 * w + x / 2) (0, 0); (2 * q.1, 2 * q.2)
    (flowWinner p.1 p.2 (flowSearch a b ca cb rad x y p.1 p.2)).2).toArray

/-- The integer flow through the levels above the finest, coarsest first; none when there is none. -/
def flowAbove (rad : Nat) : List (Img × Img) → Option (Nat × Array (Int × Int)) → Option (Nat × Array (Int × Int))
  | [], f => f
  | (a, b) :: t, f => flowAbove rad t (some (a.w, flowLevel a b rad f))

/-- The sub-pixel offset of R286 in 1/64 px. -/
def flowSub (m c p : Nat) : Int :=
  let den := 2 * ((m : Int) + p - 2 * c)
  if den ≤ 0 then 0 else clampInt (-32) 32 ((128 * ((m : Int) - p) + den) / (2 * den))

/-- The flow found at the finest level at a pixel: components in 1/64 px, the winner, and the costs and prediction. -/
structure FlowAt where
  fu : Int
  fv : Int
  u : Int
  v : Int
  pu : Int
  pv : Int
  costs : List (Nat × Int × Int)

/-- The search at the finest level. -/
def flowAt (a b : Img) (ca cb : Array Nat) (rad : Nat) (above : Option (Nat × Array (Int × Int))) (x y : Nat) : FlowAt :=
  let p : Int × Int := match above with
    | none => (0, 0)
    | some (w, f) => let q := f.getD (y / 2 * w + x / 2) (0, 0); (2 * q.1, 2 * q.2)
  let cs := flowSearch a b ca cb rad x y p.1 p.2
  let win := flowWinner p.1 p.2 cs
  let u := win.2.1
  let v := win.2.2
  let c (du dv : Int) : Nat := flowCost a b ca cb x y (u + du) (v + dv)
  { fu := 64 * u + flowSub (c (-1) 0) win.1 (c 1 0), fv := 64 * v + flowSub (c 0 (-1)) win.1 (c 0 1), u := u, v := v,
    pu := p.1, pv := p.2, costs := cs }

/-- A flow field at the finest level, in raster order. -/
def flowField (rad : Nat) (a b : Img) (coarse : List (Img × Img)) : Array FlowAt :=
  let above := flowAbove rad coarse none
  let ca := a.censuses
  let cb := b.censuses
  ((List.range a.h).flatMap fun (y : Nat) => (List.range a.w).map fun (x : Nat) => flowAt a b ca cb rad above x y).toArray

/-- The status of a pixel (R287). DEDUCED: the moved point is rounded to the nearest whole pixel with ties toward +∞. -/
def flowStatus (p : FlowPar) (a b : Img) (back : Array FlowAt) (x y : Nat) (f : FlowAt) : Nat :=
  let out (c : Int) : Bool := decide (c < -32768) || decide (32767 < c)
  let mx : Int := x + f.u
  let my : Int := y + f.v
  let c1 := (f.costs.find? fun c => c.2.1 == f.u && c.2.2 == f.v).map (·.1) |>.getD 0
  let others := (f.costs.filter fun c => decide (2 ≤ (c.2.1 - f.u).natAbs) || decide (2 ≤ (c.2.2 - f.v).natAbs)).map (·.1)
  if !(a.windowOk x y && b.windowOk mx my) then 4
  else if (f.u - f.pu).natAbs = p.rad ∨ (f.v - f.pv).natAbs = p.rad ∨ !b.inside mx my ∨ out f.fu ∨ out f.fv then 3
  else
    let bx := clampTo b.w (((x : Int) * 64 + f.fu + 32) / 64)
    let bY := clampTo b.h (((y : Int) * 64 + f.fv + 32) / 64)
    let g := back[bY * b.w + bx]?
    let bad := match g with
      | some g => decide (p.fbTol < (f.fu + g.fu).natAbs) || decide (p.fbTol < (f.fv + g.fv).natAbs)
      | none => false
    if p.fb && bad then 2
    else if others.isEmpty || decide (100 * (minOf others - c1) < p.uniq * c1) then 1
    else 0

/-- A flow job (R286, R287): the component words of port 0 and the status bytes of port 1. `coarse` lists the levels above the
finest, coarsest first, previous then current. -/
def flow (p : FlowPar) (a b : Img) (coarse : List (Img × Img)) : List Nat × List Nat :=
  let fs := flowField p.rad a b coarse
  let back := if p.fb then flowField p.rad b a (coarse.map fun e => (e.2, e.1)) else #[]
  let st := (List.range (a.w * a.h)).map fun i =>
    match fs[i]? with
    | some f => (flowStatus p a b back (i % max 1 a.w) (i / max 1 a.w) f, f)
    | none => (4, { fu := 0, fv := 0, u := 0, v := 0, pu := 0, pv := 0, costs := [] })
  (st.flatMap fun e => if e.1 = 0 then [patternOf 16 e.2.fu, patternOf 16 e.2.fv] else [0, 0], st.map (·.1))

/-! ## Features -/

/-- The parameters of a feature job (Table 10.4). -/
structure FeatPar where
  t : Nat
  steer : Bool
  perCell : Nat
  maxf : Nat
  cell : Nat
  level : Nat

/-- The circle of radius 3, clockwise from (0, −3). -/
def circle : List (Int × Int) :=
  [(0, -3), (1, -3), (2, -2), (3, -1), (3, 0), (3, 1), (2, 2), (1, 3), (0, 3), (-1, 3), (-2, 2), (-3, 1), (-3, 0), (-3, -1),
   (-2, -2), (-1, -3)]

/-- At least 9 contiguous entries of a circle of 16 hold. -/
def nineRun (bs : List Bool) : Bool := (List.range 16).any fun s => (List.range 9).all fun k => bs.getD ((s + k) % 16) false

/-- The score of a pixel that passes the circle test; 0 of one that does not (R288). -/
def Img.fastScore (i : Img) (t x y : Nat) : Nat :=
  let c := i.at x y
  let qs := circle.map fun o => i.at ((x : Int) + o.1) ((y : Int) + o.2)
  if nineRun (qs.map fun q => decide (c + t < q)) || nineRun (qs.map fun q => decide (q + t < c)) then
    (qs.map fun q => (max q c - min q c) - t).foldl (· + ·) 0
  else 0

/-- The patch of a pixel. -/
def patch : List (Int × Int) := window 15 15

/-- Every pixel of the patch is valid. -/
def Img.patchOk (i : Img) (x y : Nat) : Bool := patch.all fun o => i.okAt ((x : Int) + o.1) ((y : Int) + o.2)

/-- The scores of the image: candidates that are not discarded; and how many were (R288). -/
def Img.scores (i : Img) (t : Nat) : Array Nat × Nat :=
  let all := (List.range i.h).flatMap fun y => (List.range i.w).map fun x =>
    if 15 ≤ x ∧ x + 15 < i.w ∧ 15 ≤ y ∧ y + 15 < i.h then
      let s := i.fastScore t x y
      if s = 0 then (0, 0) else if i.patchOk x y then (s, 0) else (0, 1)
    else (0, 0)
  ((all.map (·.1)).toArray, (all.map (·.2)).foldl (· + ·) 0)

/-- A candidate or feature: position and score. -/
structure Cand2 where
  x : Nat
  y : Nat
  s : Nat

/-- The score at a point; 0 outside and of a pixel that is no candidate. -/
def scoreAt (w : Nat) (sc : Array Nat) (x y : Nat) : Nat := sc.getD (y * w + x) 0

/-- A candidate survives suppression (R288). -/
def survives (w : Nat) (sc : Array Nat) (x y : Nat) : Bool :=
  let c := scoreAt w sc x y
  let g (dx dy : Int) : Nat := scoreAt w sc ((x : Int) + dx).toNat ((y : Int) + dy).toNat
  decide (0 < c) && [(-1, -1), (0, -1), (1, -1), (-1, 0)].all (fun o : Int × Int => decide (g o.1 o.2 < c))
    && [(1, 0), (-1, 1), (0, 1), (1, 1)].all (fun o : Int × Int => decide (g o.1 o.2 ≤ c))

/-- a ranks before b (R289). -/
def Cand2.before (a b : Cand2) : Bool :=
  if a.s ≠ b.s then decide (b.s < a.s) else if a.y ≠ b.y then decide (a.y < b.y) else decide (a.x ≤ b.x)

/-- At most PER_CELL candidates kept in each cell, in rank order. -/
def perCell (cell per : Nat) (cs : List Cand2) : List Cand2 :=
  if cell = 0 then cs
  else
    (cs.foldl (fun (a : List Cand2 × List (Nat × Nat)) c =>
      let k := c.y / cell * 65536 + c.x / cell
      let n := (alGet a.2 k).getD 0
      if n < per then (c :: a.1, alSet k (n + 1) a.2) else a) ([], [])).1.reverse

/-- The sub-pixel offset of R290 in 1/16 px. -/
def featSub (m c p : Nat) : Int :=
  let num := (p : Int) - m
  let den := 2 * (2 * (c : Int) - m - p)
  if den ≤ 0 then 0 else clampInt (-8) 8 ((32 * num + den) / (2 * den))

/-- ORIENT (R291). -/
def Img.orient (i : Img) (x y : Nat) : Nat :=
  let ps := patch.filter fun o => decide (o.1 * o.1 + o.2 * o.2 ≤ 225)
  let m10 : Int := (ps.map fun o => o.1 * (i.at ((x : Int) + o.1) ((y : Int) + o.2) : Int)).foldl (· + ·) 0
  let m01 : Int := (ps.map fun o => o.2 * (i.at ((x : Int) + o.1) ((y : Int) + o.2) : Int)).foldl (· + ·) 0
  if m10 = 0 ∧ m01 = 0 then 0
  else
    let p := 200
    let pi := fixPi p
    let a := if m10 = 0 then pi / 2 else fixAtanRatio p m01.natAbs m10.natAbs
    let b := if m10 < 0 then pi - a else a
    let c := if m01 < 0 then 2 * pi - b else b
    ((256 * c + pi) / (2 * pi) % 256).toNat

/-- The 5 × 5 binomial filter (R292). -/
def Img.binomial (i : Img) (x y : Int) : Nat :=
  let wt (k : Int) : Nat := match k with | 0 => 6 | 1 => 4 | -1 => 4 | _ => 1
  (((window 2 2).map fun o => wt o.1 * wt o.2 * i.at (x + o.1) (y + o.2)).foldl (· + ·) 0 + 128) / 256

/-- round(16,384 × cos(2πk / 32)). -/
def cos32 (k : Nat) : Int :=
  let q : List Int := [16384, 16069, 15137, 13623, 11585, 9102, 6270, 3196, 0]
  let j := k % 32
  if j ≤ 8 then q.getD j 0
  else if j ≤ 16 then -(q.getD (16 - j) 0)
  else if j ≤ 24 then -(q.getD (j - 16) 0)
  else q.getD (32 - j) 0

/-- round(16,384 × sin(2πk / 32)). -/
def sin32 (k : Nat) : Int := cos32 (k + 24)

/-- A value divided by 16,384, rounded to nearest with ties away from zero. -/
def div16384 (v : Int) : Int := if 0 ≤ v then (v + 8192) / 16384 else -((-v + 8192) / 16384)

/-- A pattern offset as it acts (R293). -/
def steered (steer : Bool) (orient : Nat) (o : Int × Int) : Int × Int :=
  if !steer then o
  else
    let k := (orient + 4) / 8 % 32
    let c := cos32 k
    let s := sin32 k
    (clampInt (-15) 15 (div16384 (o.1 * c - o.2 * s)), clampInt (-15) 15 (div16384 (o.1 * s + o.2 * c)))

/-- The descriptor as a 256-bit number (R292, R293). -/
def Img.descriptor (i : Img) (steer : Bool) (pat : List Byte) (x y orient : Nat) : Nat :=
  let sb (k : Nat) : Int := signedOf 8 (leAt pat k 1)
  ((List.range 256).map fun k =>
    let p1 := steered steer orient (sb (4 * k), sb (4 * k + 1))
    let p2 := steered steer orient (sb (4 * k + 2), sb (4 * k + 3))
    if i.binomial ((x : Int) + p1.1) ((y : Int) + p1.2) < i.binomial ((x : Int) + p2.1) ((y : Int) + p2.2) then 2 ^ k else 0).foldl
      (· + ·) 0

/-- A feature record (Table 10.5). -/
def featRecord (p : FeatPar) (i : Img) (sc : Array Nat) (pat : List Byte) (rank : Nat) (c : Cand2) : List Byte :=
  let g := scoreAt i.w sc
  let x := 16 * (c.x : Int) + featSub (g (c.x - 1) c.y) c.s (g (c.x + 1) c.y)
  let y := 16 * (c.y : Int) + featSub (g c.x (c.y - 1)) c.s (g c.x (c.y + 1))
  let o := i.orient c.x c.y
  leBytes 2 x.toNat ++ leBytes 2 y.toNat ++ leBytes 2 (min 65535 c.s) ++ leBytes 1 p.level ++ leBytes 1 o ++ leBytes 4 rank
    ++ leBytes 4 0 ++ leBytes 32 (i.descriptor p.steer pat c.x c.y o)

/-- A feature job: the MAXF records, and the candidates discarded (R288 to R293). -/
def features (p : FeatPar) (pat : List Byte) (i : Img) : List Byte × Nat :=
  let sc := i.scores p.t
  let cs := (List.range i.h).flatMap fun y => ((List.range i.w).filter fun x => survives i.w sc.1 x y).map fun x =>
    ({ x := x, y := y, s := scoreAt i.w sc.1 x y } : Cand2)
  let fs := (perCell p.cell p.perCell (cs.mergeSort Cand2.before)).take p.maxf
  let recs := ((List.range fs.length).zip fs).flatMap fun e => featRecord p i sc.1 pat e.1 e.2
  (recs ++ (List.replicate (p.maxf - fs.length) (leBytes 4 0xFFFFFFFF ++ List.replicate 44 0)).flatten, sc.2)

/-! ## Warp -/

/-- The parameters of a warp job (Table 10.4). -/
structure WarpPar where
  gsh : Nat
  fmt8 : Bool
  shift : Nat
  wo : Nat
  ho : Nat

/-- A value in the output format (R294). -/
def WarpPar.conv (p : WarpPar) (v : Nat) : Nat := if p.fmt8 then min 255 (v / 2 ^ p.shift) else v % 65536

/-- A map entry: the source x and y, each Q12.4. -/
def mapEntry (p : WarpPar) (m : Array Byte) (i j : Nat) : Nat × Nat :=
  let g := 2 ^ p.gsh
  let k := 4 * (j * ((p.wo + g - 1) / g + 1) + i)
  let u (o : Nat) : Nat := (m.getD o 0).toNat + 256 * (m.getD (o + 1) 0).toNat
  (u k, u (k + 2))

/-- The output pixel of a remap (R294). -/
def remapAt (p : WarpPar) (m : Array Byte) (im : Img) (x y : Nat) : Nat × Bool :=
  let g := 2 ^ p.gsh
  let i := x / g
  let j := y / g
  let fx := x % g
  let fy := y % g
  let e00 := mapEntry p m i j
  let e10 := mapEntry p m (i + 1) j
  let e01 := mapEntry p m i (j + 1)
  let e11 := mapEntry p m (i + 1) (j + 1)
  let mix (a b c d : Nat) : Nat :=
    ((g - fx) * (g - fy) * a + fx * (g - fy) * b + (g - fx) * fy * c + fx * fy * d + g * g / 2) / 2 ^ (2 * p.gsh)
  let sx := mix e00.1 e10.1 e01.1 e11.1
  let sy := mix e00.2 e10.2 e01.2 e11.2
  if [e00, e10, e01, e11].any (fun e => e.1 == 0xFFFF) || decide ((im.w - 1) * 16 < sx) || decide ((im.h - 1) * 16 < sy) then (0, false)
  else
    let ax := sx % 16
    let ay := sy % 16
    let px : Nat := sx / 16
    let py : Nat := sy / 16
    let ws : List (Nat × Int × Int) :=
      [((16 - ax) * (16 - ay), px, py), (ax * (16 - ay), px + 1, py), ((16 - ax) * ay, px, py + 1), (ax * ay, px + 1, py + 1)]
    if ws.any fun e => e.1 != 0 && !im.okAt e.2.1 e.2.2 then (0, false)
    else (p.conv (((ws.map fun e => e.1 * im.at e.2.1 e.2.2).foldl (· + ·) 0 + 128) / 256), true)

/-- The remapped image. -/
def remap (p : WarpPar) (m : Array Byte) (im : Img) : Img := Img.tab p.wo p.ho fun x y => remapAt p m im x y

/-- The next pyramid level (R295). DEDUCED: an invalid pixel is written as 0, as R294 says of a remap. -/
def Img.halve (i : Img) : Img :=
  Img.tab ((i.w + 1) / 2) ((i.h + 1) / 2) fun x y =>
    if (window 2 2).all fun o => i.okAt (2 * (x : Int) + o.1) (2 * (y : Int) + o.2) then (i.binomial (2 * (x : Int)) (2 * (y : Int)), true)
    else (0, false)

/-- A pyramid of n levels. -/
def pyramid : Nat → Img → List Img
  | 0, _ => []
  | n + 1, i => i :: pyramid n i.halve

/-- The invalid pixels of an image. -/
def Img.invalid (i : Img) : Nat := (i.ok.toList.filter fun b => !b).length

/-- The mask plane: per row, bit x mod 8 of byte x / 8 is 1 for a valid pixel. -/
def Img.maskRow (i : Img) (y : Nat) : List Byte :=
  (List.range ((i.w + 7) / 8)).map fun k =>
    BitVec.ofNat 8 (((List.range 8).map fun b => if 8 * k + b < i.w ∧ i.ok.getD (y * i.w + 8 * k + b) false then 2 ^ b else 0).foldl
      (· + ·) 0)

end Sys2Proof.Machine
end

