-- ==== Sys2Proof/Machine/Vision.lean ====
section
/-!
DEFINITION. The vision engines (R270 to R300): configuration blocks, surfaces, jobs and their chaining, errors and reset.
-/
namespace Sys2Proof.Machine

/-- A free value drawn: the spec gives the number no rule. -/
def Leaf.freeDraw (l : Leaf) : Nat × Leaf := (Config.freeValue l.free, { l with free := l.free + 1 })

/-- A register whose value the spec gives no rule for takes a free value. -/
def Leaf.putFree (l : Leaf) (f : FieldRef) : Leaf := let r := l.freeDraw; r.2.put f r.1

/-! ## Configuration (R277, R281) -/

/-- A surface entry (Table 10.1). -/
structure SurfCfg where
  obj : Nat
  fmt : Nat
  levels : Nat
  nbuf : Nat
  rsvd : Nat
  w : Nat
  h : Nat
  ofs : Nat
  deriving DecidableEq, Repr

/-- A job descriptor (Table 10.3); `par` are its parameter bytes from byte 20 on. -/
structure JobCfg where
  job : Nat
  pipe : Nat
  vmask : Nat
  trig : Nat
  pred0 : Nat
  pred1 : Nat
  in0 : Nat
  in1 : Nat
  outSurf : Nat
  outPorts : Nat
  rsvd : Nat
  w : Nat
  h : Nat
  par : List Byte
  deriving DecidableEq, Repr

/-- The surface entries of a block. -/
def visSurfs (body : List Byte) : List SurfCfg :=
  (List.range (min 16 (leAt body 2 2))).map fun i =>
    let b := sliceBytes body (16 + 16 * i) 16
    { obj := leAt b 0 2, fmt := leAt b 2 1, levels := leAt b 3 1, nbuf := leAt b 4 1, rsvd := leAt b 5 3, w := leAt b 8 2,
      h := leAt b 10 2, ofs := leAt b 12 4 }

/-- The job descriptors of a block. -/
def visJobs (body : List Byte) : List JobCfg :=
  (List.range (min 16 (leAt body 0 2))).map fun i =>
    let b := sliceBytes body (16 + 16 * leAt body 2 2 + 64 * i) 64
    { job := leAt b 0 1, pipe := leAt b 1 1, vmask := leAt b 2 1, trig := leAt b 3 1, pred0 := leAt b 4 2, pred1 := leAt b 6 2,
      in0 := leAt b 8 2, in1 := leAt b 10 2, outSurf := leAt b 12 2, outPorts := leAt b 14 1, rsvd := leAt b 15 1,
      w := leAt b 16 2, h := leAt b 18 2, par := b.drop 20 }

/-- The pattern table of the feature engine (R293). -/
def visPattern (body : List Byte) : List Byte := sliceBytes body (16 + 16 * leAt body 2 2 + 64 * leAt body 0 2) 1024

/-- The block of a vision engine of the glazed image. -/
def Leaf.visBlock (l : Leaf) (e : Nat) : Option EngineBlock := l.glz.image.bind fun im => im.engine e

/-- A job of engine e. -/
def Leaf.visJob (l : Leaf) (e j : Nat) : Option JobCfg := (l.visBlock e).bind fun b => (visJobs b.body)[j]?

/-- A surface that warp engine e declares. -/
def Leaf.visSurf (l : Leaf) (e s : Nat) : Option SurfCfg := (l.visBlock e).bind fun b => (visSurfs b.body)[s]?

/-- n bytes of a job's parameters at byte o of Table 10.4. -/
def JobCfg.get (j : JobCfg) (o n : Nat) : Nat := leAt j.par (o - 20) n

/-- The fields of an image reference (R279). -/
def refKind (r : Nat) : Nat := bitsOf r 15 14
def refLevel (r : Nat) : Nat := bitsOf r 13 11
def refEng (r : Nat) : Nat := bitsOf r 10 8
def refIndex (r : Nat) : Nat := bitsOf r 7 0

/-- The cameras a job reads. -/
def JobCfg.cams (j : JobCfg) : List Nat := ([j.in0, j.in1].filter fun r => refKind r == 0).map refIndex

/-- The valid predecessors of a job: engine and job. -/
def JobCfg.preds (j : JobCfg) : List (Nat × Nat) :=
  ([j.pred0, j.pred1].filter fun p => bitOf p 15).map fun p => (bitsOf p 11 8, bitsOf p 3 0)

/-- The output ports a job streams on. -/
def JobCfg.ports (j : JobCfg) : List Nat := [0, 1].filter fun p => bitOf j.outPorts p

/-! ## Surfaces (R277, R278) -/

/-- The size of level n of a dimension. -/
def levelDim (d n : Nat) : Nat := (d + 2 ^ n - 1) / 2 ^ n

/-- The bytes of a pixel of a surface. -/
def SurfCfg.bpp (s : SurfCfg) : Nat := if s.fmt = 0x0E then 1 else 2
def SurfCfg.pitch (s : SurfCfg) (n : Nat) : Nat := up64 (levelDim s.w n * s.bpp)
def SurfCfg.maskPitch (s : SurfCfg) (n : Nat) : Nat := up64 ((levelDim s.w n + 7) / 8)
def SurfCfg.levelBytes (s : SurfCfg) (n : Nat) : Nat := levelDim s.h n * (s.pitch n + s.maskPitch n)

/-- The bytes of a copy, and where level n of it starts. -/
def SurfCfg.copyBytes (s : SurfCfg) : Nat := ((List.range s.levels).map s.levelBytes).foldl (· + ·) 0
def SurfCfg.levelOfs (s : SurfCfg) (n : Nat) : Nat := ((List.range n).map s.levelBytes).foldl (· + ·) 0

/-- The roles of a surface's copies. -/
def Leaf.surf (l : Leaf) (e s : Nat) : SurfRun := (alGet l.vis.surfs (16 * e + s)).getD {}

/-- A leaf's vision state replaced. -/
def Leaf.setVis (l : Leaf) (v : VisState) : Leaf := { l with vis := v }

/-- The DRAM address of level n of copy c of a surface. -/
def Leaf.surfAddr (l : Leaf) (s : SurfCfg) (c n : Nat) : Nat :=
  (match l.obj s.obj with | some o => o.dram | none => 0) + s.ofs + c * s.copyBytes + s.levelOfs n

/-- The copy that an image reference of KIND 1 or 2 reads, and the copy that a writing job writes. -/
def SurfCfg.readCopy (s : SurfCfg) (r : SurfRun) (prev : Bool) : Nat := if s.nbuf = 1 then 0 else if prev then 1 - r.cur else r.cur
def SurfCfg.writeCopy (s : SurfCfg) (r : SurfRun) : Nat := if s.nbuf = 1 then 0 else 1 - r.cur

/-- The pixels of a level as an image: SAT_LEVEL makes a pixel invalid (R280). -/
def Leaf.readSurf (l : Leaf) (s : SurfCfg) (c n sat : Nat) : Img :=
  let a := l.surfAddr s c n
  let w := levelDim s.w n
  let h := levelDim s.h n
  let m := a + h * s.pitch n
  Img.tab w h fun x y =>
    let v := leNat (l.dramRead (a + y * s.pitch n + x * s.bpp) s.bpp)
    (v, bitOf (l.dramByte (m + y * s.maskPitch n + x / 8)).toNat (x % 8) && decide (v < sat))

/-- The presented frame of a camera as an image: lines by the line-valid bitmap; of YUV422 the Y bytes (R280). PRESUMED: Y is the
second byte of each pair, as CSI-2 sends it. -/
def Leaf.readCam (l : Leaf) (n sat : Nat) : Img :=
  let slot := match (l.cam n).cur with | some f => f.slot | none => 0
  let a := l.camSlot n slot
  let w := l.camW n
  let yuv := l.get (Fld.SNS_CAM_CFG_DT n) == 0x1E
  Img.tab w (l.camH n) fun x y =>
    let p := a + 384 + 2 * (y * w + x)
    let v := if yuv then (l.dramByte (p + 1)).toNat else leNat (l.dramRead p 2)
    (v, bitOf (l.dramByte (a + 64 + y / 8)).toNat (y % 8) && decide (v < sat))

/-- A level of a surface written: pixel rows and mask rows. -/
def Leaf.writeSurf (s : SurfCfg) (c n : Nat) (i : Img) (l : Leaf) : Leaf :=
  let a := l.surfAddr s c n
  (List.range i.h).foldl (fun (m : Leaf) y =>
    let row := (List.range i.w).flatMap fun x => leBytes s.bpp (i.px.getD (y * i.w + x) 0)
    (m.store (a + y * s.pitch n) row).store (a + i.h * s.pitch n + y * s.maskPitch n) (i.maskRow y)) l

/-! ## Jobs (R273 to R276) -/

/-- A job of the tick. -/
def Leaf.vjob (l : Leaf) (e j : Nat) : Option VJob := alGet l.vis.jobs (16 * e + j)

/-- A job of the tick replaced. -/
def Leaf.setVjob (l : Leaf) (e j : Nat) (v : VJob) : Leaf := l.setVis { l.vis with jobs := alSet (16 * e + j) v l.vis.jobs }

/-- The queue of an engine. -/
def Leaf.vqueue (l : Leaf) (e : Nat) : List Nat := (alGet l.vis.queues e).getD []
def Leaf.setVqueue (l : Leaf) (e : Nat) (q : List Nat) : Leaf := l.setVis { l.vis with queues := alSet e q l.vis.queues }

/-- Tokens sent on each output port of a job. -/
def Leaf.visSend (e : Nat) (c : JobCfg) (ts : List Token) (l : Leaf) : Leaf :=
  c.ports.foldl (fun m p => m.engineSend e p ts) l

/-- A job skipped (R273). -/
def Leaf.visSkip (e j : Nat) (c : JobCfg) (l : Leaf) : Leaf :=
  let l1 := (l.setVjob e j { st := .skipped }).setVqueue e ((l.vqueue e).filter (· != j))
  ((l1.visSend e c (tokensOf {} false false [])).inc (Fld.VIS_ENG_SKIP_COUNT (e - 1))).bump 10 (e - 1)

/-- A job ends with an engine error (R297). -/
def Leaf.visError (e j code : Nat) (c : JobCfg) (l : Leaf) : Leaf :=
  let running : Bool := match l.vjob e j with | some v => v.st == JobSt.running | none => false
  let l1 := (l.setVjob e j { st := .failed }).setVqueue e ((l.vqueue e).filter (· != j))
  let l2 := (l1.visSend e c [poisonEnd false]).inc (Fld.VIS_ENG_ERRCNT_COUNT (e - 1))
  let l3 := ((l2.put (Fld.VIS_ENG_STAT_ERR_CODE (e - 1)) code).put (Fld.VIS_ENG_STAT_ERR_JOB (e - 1)) j).flagEvent
    (Fld.VIS_ENG_STAT_ERR (e - 1)) (0x067 + e)
  if running then l3.putB (Fld.VIS_ENG_STAT_BUSY (e - 1)) false else l3

/-- What stands in the way of a job's start. -/
inductive VStart where
  | run
  | skip
  | pred
  | notYet
  deriving DecidableEq, Repr

/-- A PREV copy that the reference reads has been completed, or it reads none. -/
def Leaf.prevOk (l : Leaf) (r : Nat) : Bool := refKind r != 2 || (l.surf (refEng r) (refIndex r)).prevOk

/-- Whether a job starts, is skipped or fails (R273, R275). DEDUCED: a skip goes before an error of another predecessor. -/
def Leaf.visCheck (c : JobCfg) (l : Leaf) : VStart :=
  let ps := if c.trig = 1 then c.preds.map fun p => (l.vjob p.1 p.2).map (·.st) else []
  if c.trig == 0 && c.cams.any fun n => (l.cam n).cur.isNone then .skip
  else if ps.any fun s => s == none || s == some .skipped then .skip
  else if ps.any fun s => s == some .failed then .pred
  else if ps.any fun s => s != some .done then .notYet
  else if !(l.prevOk c.in0 && l.prevOk c.in1) then .skip
  else .run

/-- The jobs of all engines, with their codes. -/
def Leaf.visAll (l : Leaf) : List (Nat × JobCfg) :=
  (List.range 7).flatMap fun k => match l.visBlock (k + 1) with | some b => (visJobs b.body).map fun j => (k + 1, j) | none => []

/-- Jobs that have become ready wait in the queue of their engine, the lower index first (R274). -/
def Leaf.visQueueReady (l : Leaf) : Leaf :=
  l.visAll.foldl (fun m e =>
    match m.vjob e.1 e.2.job with
    | some v =>
      if v.st = .armed ∧ m.visCheck e.2 = .run then
        (m.setVjob e.1 e.2.job { v with st := .queued }).setVqueue e.1 (m.vqueue e.1 ++ [e.2.job])
      else m
    | none => m) l

/-- Arming at step 10 (R273). -/
def visMhz (op : Nat) : Nat := [200, 250, 300, 350, 400, 450, 475, 500].getD op 0

def Leaf.visArm (l : Leaf) : Leaf :=
  let l0 := (l.setVis { l.vis with jobs := [], queues := [], held := [] }).put Fld.VIS_CLK_MHZ (visMhz (l.get Fld.TICK_OP_OP))
  let l1 := (List.range 7).foldl (fun m k => (m.wr (Reg.VIS_ENG_ARMED k) 0).wr (Reg.VIS_ENG_DONE k) 0) l0
  let l2 := l1.visAll.foldl (fun m e =>
    match alGet m.tick.sel e.2.pipe with
    | some v =>
      if bitOf e.2.vmask v then
        let f := Fld.VIS_ENG_ARMED_JOBS (e.1 - 1)
        (m.setVjob e.1 e.2.job { st := .armed }).put f (m.get f ||| 2 ^ e.2.job)
      else m
    | none => m) l1
  l2.visQueueReady

/-! ## Sizes (R282) -/

/-- The size of the image a reference reads. -/
def Leaf.refSize (l : Leaf) (r : Nat) : Option (Nat × Nat) :=
  match refKind r with
  | 0 => some (l.camW (refIndex r), l.camH (refIndex r))
  | 3 => none
  | _ => (l.visSurf (refEng r) (refIndex r)).map fun s => (levelDim s.w (refLevel r), levelDim s.h (refLevel r))

/-- The size of level 0 of a warp job's output. -/
def JobCfg.outSize (c : JobCfg) : Nat × Nat := if c.get 20 1 = 1 then (c.w, c.h) else (c.get 28 2, c.get 30 2)

/-- Every image a job reads or writes has the size the job assumes. -/
def Leaf.visSizeOk (e : Nat) (c : JobCfg) (l : Leaf) : Bool :=
  let inOk (r : Nat) : Bool := match l.refSize r with | some s => s == (c.w, c.h) | none => true
  let outOk : Bool :=
    if bitOf c.outSurf 15 then
      match l.visSurf e (c.outSurf % 16) with
      | some s => decide ((s.w, s.h) = c.outSize) && s.fmt == c.get 22 1
      | none => false
    else true
  inOk c.in0 && inOk c.in1 && outOk

/-- The earliest capture time and DESYNC of a job's inputs (R276). -/
def Leaf.visCarry (c : JobCfg) (l : Leaf) : Carry :=
  if c.trig = 0 then
    c.cams.foldl (fun (a : Carry) n =>
      match (l.cam n).cur with
      | some f => a.join { desync := leAt (l.dramRead (l.camSlot n f.slot) 64) 32 1 == 5, oldest := some f.cap }
      | none => a) {}
  else
    c.preds.foldl (fun (a : Carry) p =>
      match l.vjob p.1 p.2 with
      | some v => a.join { desync := v.desync, oldest := v.oldest }
      | none => a) {}

/-- VISION_JOB_START (R273 to R275, R282). -/
def Leaf.visStart (e j : Nat) (l : Leaf) : Leaf :=
  match l.visJob e j, l.vjob e j with
  | some c, some v =>
    if l.vis.held.contains e || !(v.st == .armed || v.st == .queued) then l
    else
      match l.visCheck c with
      | .notYet => l
      | .skip => l.visSkip e j c
      | .pred => l.visError e j 0x04 c
      | .run =>
        if l.bit (Fld.VIS_ENG_STAT_BUSY (e - 1)) || (l.vqueue e).head? != some j then l
        else if !l.visSizeOk e c then l.visError e j 0x01 c
        else
          let k := l.visCarry c
          let l1 := (l.setVjob e j { st := .running, oldest := k.oldest, desync := k.desync }).setVqueue e (l.vqueue e).tail
          (l1.putB (Fld.VIS_ENG_STAT_BUSY (e - 1)) true).put (Fld.VIS_ENG_STAT_JOB (e - 1)) j
  | _, _ => l

/-! ## What a job computes -/

/-- The image a reference reads at a level, with the job's SAT_LEVEL. -/
def Leaf.readRef (l : Leaf) (r level sat : Nat) : Img :=
  match refKind r with
  | 0 => l.readCam (refIndex r) sat
  | k =>
    match l.visSurf (refEng r) (refIndex r) with
    | some s => l.readSurf s (s.readCopy (l.surf (refEng r) (refIndex r)) (k == 2)) level sat
    | none => Img.tab 0 0 fun _ _ => (0, false)

/-- A camera slot or surface that the job reads holds an uncorrectable word. -/
def Leaf.refBad (l : Leaf) (r : Nat) : Bool :=
  match refKind r with
  | 0 =>
    match (l.cam (refIndex r)).cur with
    | some f => l.badRange (l.camSlot (refIndex r) f.slot) (384 + 2 * l.camW (refIndex r) * l.camH (refIndex r))
    | none => false
  | 3 => false
  | k =>
    match l.visSurf (refEng r) (refIndex r) with
    | some s => l.badRange (l.surfAddr s (s.readCopy (l.surf (refEng r) (refIndex r)) (k == 2)) 0) s.copyBytes
    | none => false

/-- 16-bit words as payloads of a tensor. -/
def wordTokens (ws : List Nat) : List (List Byte) := chunks 64 (ws.flatMap fun w => leBytes 2 w)

/-- What a job gives: the payloads by output port, the levels it writes, and the pixels or candidates it counts. -/
structure VOut where
  ports : List (Nat × List (List Byte))
  levels : List Img := []
  count : Nat := 0

/-- A job of a stereo, flow or feature engine. -/
def Leaf.visCompute (e : Nat) (c : JobCfg) (l : Leaf) : VOut :=
  if e ≤ 2 then
    let sat := c.get 24 2
    let p : StereoPar := { p1 := c.get 20 1, p2 := c.get 21 1, uniq := c.get 22 1, lrTol := c.get 23 1 }
    { ports := [(0, wordTokens (stereo p (l.readRef c.in0 (refLevel c.in0) sat) (l.readRef c.in1 (refLevel c.in1) sat)))] }
  else if e ≤ 4 then
    let sat := c.get 26 2
    let lv := refLevel c.in0
    let p : FlowPar := { rad := c.get 20 1, uniq := c.get 22 1, fb := c.get 23 1 == 1, fbTol := c.get 24 2 }
    let coarse := ((List.range (c.get 21 1 - lv)).map fun k => lv + 1 + k).reverse
    let r := flow p (l.readRef c.in0 lv sat) (l.readRef c.in1 lv sat)
      (coarse.map fun n => (l.readRef c.in0 n sat, l.readRef c.in1 n sat))
    { ports := [(0, wordTokens r.1), (1, chunks 64 (r.2.map fun s => BitVec.ofNat 8 s))] }
  else
    let p : FeatPar :=
      { t := c.get 20 2, steer := c.get 22 1 == 1, perCell := c.get 23 1, maxf := c.get 24 2, cell := c.get 26 2, level := refLevel c.in0 }
    let pat := match l.visBlock e with | some b => visPattern b.body | none => []
    let r := features p pat (l.readRef c.in0 (refLevel c.in0) (c.get 28 2))
    { ports := [(0, chunks 64 r.1)], count := r.2 }

/-- A warp job, given its map object's bytes (R294, R295). DEDUCED: in MODE 1, level 0 is the input in the output format. DESIGN
CHOICE: the mask plane is streamed as rows of ceil(W / 8) bytes. -/
def Leaf.warpCompute (c : JobCfg) (m : List Byte) (levels : Nat) (l : Leaf) : VOut :=
  let mode := c.get 20 1
  let p : WarpPar := { gsh := c.get 21 1, fmt8 := c.get 22 1 == 0x0E, shift := c.get 23 1, wo := c.get 28 2, ho := c.get 30 2 }
  let i := l.readRef c.in0 (refLevel c.in0) (c.get 26 2)
  let base := if mode = 1 then
      Img.tab i.w i.h fun x y => let k := y * i.w + x; if i.ok.getD k false then (p.conv (i.px.getD k 0), true) else (0, false)
    else remap p m.toArray i
  let ls := if mode = 0 then [base] else pyramid levels base
  let bpp := if p.fmt8 then 1 else 2
  { ports := [(0, chunks 64 (base.px.toList.flatMap fun v => leBytes bpp v)),
              (1, chunks 64 ((List.range base.h).flatMap base.maskRow))]
    levels := ls, count := base.invalid }

/-- A running job complete: outputs sent, surface written and its copies swapped, successors queued (R274, R278). -/
def Leaf.visDone (e j : Nat) (c : JobCfg) (o : VOut) (l : Leaf) : Leaf :=
  let v := (l.vjob e j).getD { st := .running }
  let k : Carry := { desync := v.desync, oldest := v.oldest }
  let l1 := c.ports.foldl (fun m p => m.engineSend e p (tokensOf k false false ((alGet o.ports p).getD []))) l
  let l2 := if bitOf c.outSurf 15 then
      match l1.visSurf e (c.outSurf % 16) with
      | some s =>
        let r := l1.surf e (c.outSurf % 16)
        let w := s.writeCopy r
        let m := ((List.range (min s.levels o.levels.length)).zip o.levels).foldl (fun (m : Leaf) x => m.writeSurf s w x.1 x.2) l1
        m.setVis { m.vis with surfs := alSet (16 * e + c.outSurf % 16) { cur := w, curOk := true, prevOk := r.curOk && s.nbuf == 2 } m.vis.surfs }
      | none => l1
    else l1
  let f := Fld.VIS_ENG_DONE_JOBS (e - 1)
  let l3 := ((l2.setVjob e j { v with st := .done }).put f (l2.get f ||| 2 ^ j)).putB (Fld.VIS_ENG_STAT_BUSY (e - 1)) false
  ((l3.countBy 10 (e - 1) o.count).putFree (Fld.VIS_ENG_LASTJ_NS (e - 1))).visQueueReady

/-- VISION_JOB_COMPLETE (R274, R297): `ue` says that a read of the job was uncorrectable. A map object that still has granules to
fetch keeps the job running. -/
def Leaf.visComplete (e j : Nat) (ue : Bool) (l : Leaf) : Leaf :=
  match l.visJob e j, l.vjob e j with
  | some c, some v =>
    if v.st != .running then l
    else if ue || l.refBad c.in0 || l.refBad c.in1 then l.visError e j 0x03 c
    else if e ≤ 5 then l.visDone e j c (l.visCompute e c)
    else
      let levels := if bitOf c.outSurf 15 then (match l.visSurf e (c.outSurf % 16) with | some s => s.levels | none => 1) else 1
      if c.get 20 1 = 1 then l.visDone e j c (l.warpCompute c [] levels)
      else
        let g := 2 ^ c.get 21 1
        let n := 4 * (((c.get 28 2 + g - 1) / g + 1) * ((c.get 30 2 + g - 1) / g + 1))
        match l.readObj (0xFF00 + e) (c.get 24 2) 0 n false with
        | (.wait, l1) => l1
        | (.poison, l1) => l1.visError e j 0x02 c
        | (.data m, l1) => l1.visDone e j c (l1.warpCompute c m levels)
  | _, _ => l

/-! ## Boundary and reset (R275, R298) -/

/-- The jobs that are running or queued. -/
def Leaf.visBusyJobs (l : Leaf) : List (Nat × JobCfg) :=
  l.visAll.filter fun e => match l.vjob e.1 e.2.job with | some v => v.st == .running || v.st == .queued | none => false

/-- Step 1: every running or queued job is abandoned (R275). -/
def Leaf.visCut (l : Leaf) : Leaf :=
  let l1 := l.visBusyJobs.foldl (fun m e =>
    (((m.setVjob e.1 e.2.job { st := .cut }).inc (Fld.VIS_ENG_CUT_COUNT (e.1 - 1))).bump 10 (e.1 - 1)).putB
      (Fld.VIS_ENG_STAT_BUSY (e.1 - 1)) false) l
  l1.setVis { l1.vis with queues := [] }

/-- A write of VIS_ENGe_CTRL: RESET (R298). -/
def Leaf.visReset (e : Nat) (l : Leaf) : Leaf :=
  if e = 0 || decide (7 < e) || l.bit (Fld.VIS_ENG_STAT_RST_BUSY (e - 1)) then l
  else
    let l1 := (l.visBusyJobs.filter fun x => x.1 == e).foldl (fun m x => m.visError e x.2.job 0x05 x.2) l
    (l1.setVis { l1.vis with held := e :: l1.vis.held.filter (· != e) }).putB (Fld.VIS_ENG_STAT_RST_BUSY (e - 1)) true
def Leaf.writeVisCtrl (e w : Nat) (l : Leaf) : Leaf := if bitOf w 31 then l.visReset e else l

/-- The reset of an engine ends. -/
def Leaf.visResetDone (e : Nat) (l : Leaf) : Leaf :=
  if e = 0 ∨ 7 < e then l else l.putB (Fld.VIS_ENG_STAT_RST_BUSY (e - 1)) false

/-- The vision engines at a whole-image glaze (R278, R300). -/
def Leaf.visClear (l : Leaf) : Leaf :=
  (List.range 7).foldl (fun m k => (m.wr (Reg.VIS_ENG_ARMED k) 0).wr (Reg.VIS_ENG_DONE k) 0) (l.setVis {})

end Sys2Proof.Machine
end

