-- ==== Sys2Proof/Machine/Fusion.lean ====
section
/-!
DEFINITION. The fusion unit (R301 to R328): projection, alignment tables and calibration, the occupancy grid, demotion, tracks,
degradation steps.
-/
namespace Sys2Proof.Machine

/-! ## Configuration (R301, R302) -/

/-- The body of Table 11.1. -/
structure FusCfg where
  method : Nat
  nev : Nat
  npj : Nat
  pipe : Nat
  gridObj : Nat
  trkObj : Nat
  dsObj : Nat
  slotObj : Nat
  pose : Nat
  x0 : F32
  y0 : F32
  evSrc : List Nat
  pj : List (Nat × Nat)
  deriving DecidableEq, Repr

/-- A body read. -/
def fusCfgOf (b : List Byte) : FusCfg where
  method := leAt b 0 1
  nev := min 16 (leAt b 1 1)
  npj := min 8 (leAt b 2 1)
  pipe := leAt b 3 1
  gridObj := leAt b 4 2
  trkObj := leAt b 6 2
  dsObj := leAt b 8 2
  slotObj := leAt b 10 2
  pose := leAt b 12 2
  x0 := BitVec.ofNat 32 (leAt b 16 4)
  y0 := BitVec.ofNat 32 (leAt b 20 4)
  evSrc := (List.range (min 16 (leAt b 1 1))).map fun e => leAt b (32 + e) 1
  pj := (List.range (min 8 (leAt b 2 1))).map fun j => (leAt b (48 + 4 * j) 1, leAt b (49 + 4 * j) 1)

/-- The fusion unit of the glazed image. -/
def Leaf.fusCfg (l : Leaf) : Option FusCfg := (l.glz.image.bind fun im => im.engine 8).map fun b => fusCfgOf b.body

/-- A leaf's fusion state replaced. -/
def Leaf.setFus (l : Leaf) (f : FusState) : Leaf := { l with fus := f }

/-! ## Alignment tables (R307, R308) -/

/-- The live table of sensor index k. -/
def Leaf.senTable (l : Leaf) (k : Nat) : SenTable := (alGet l.fus.live k).getD {}

/-- The 22 values of a table in the order of R328: R, t, fx to cy, k1 to p2, ZMIN. -/
def SenTable.values (t : SenTable) : List F64 := t.rot.flatten ++ t.t ++ t.intr ++ t.dist

/-- The sensor indices that have a table. -/
def senIndices : List Nat := List.range 6 ++ (List.range 8).map (· + 8)

/-- A staged table, widened. -/
def Leaf.stagedTable (l : Leaf) (k : Nat) : SenTable :=
  let v (j : Nat) : F64 := f64ofF32 (BitVec.ofNat 32 (l.rd (Reg.FUS_SEN k j)))
  { rot := mTab 3 3 fun i j => v (3 * i + j), t := [v 9, v 10, v 11], intr := (List.range 4).map fun i => v (12 + i),
    dist := (List.range 6).map fun i => v (16 + i) }

/-- FUS_LIVEk shows the live table rounded to binary32. -/
def Leaf.showLive (l : Leaf) (k : Nat) : Leaf :=
  ((List.range 22).zip (l.senTable k).values).foldl (fun m e => m.wr (Reg.FUS_LIVE k e.1) (f32ofF64 e.2).toNat) l

/-- A live table replaced. -/
def Leaf.setTable (k : Nat) (t : SenTable) (l : Leaf) : Leaf := (l.setFus { l.fus with live := alSet k t l.fus.live }).showLive k

/-- Every staged table loaded, every cumulative correction 0 (R307). -/
def Leaf.loadTables (l : Leaf) : Leaf :=
  let l1 := senIndices.foldl (fun m k => m.setTable k (m.stagedTable k)) l
  (l1.setFus { l1.fus with cum := [] }).putB Fld.FUS_TBL_CMD_PENDING false

/-- FUS_TBL_CMD.COMMIT (R307). -/
def Leaf.tblCommit (l : Leaf) : Leaf := if l.ticking then l.putB Fld.FUS_TBL_CMD_PENDING true else l.loadTables
def Leaf.writeTblCmd (w : Nat) (l : Leaf) : Leaf := if bitOf w 31 then l.tblCommit else l

/-- The composed transform of camera c and lidar template j, in binary32 (R308). -/
def Leaf.composed (l : Leaf) (c j : Nat) : List (List F32) × List F32 :=
  let tc := l.senTable c
  let tl := l.senTable (8 + j)
  let rt := mT tc.rot
  ((mMul rt tl.rot).map fun r => r.map f32ofF64, (mVec rt (vSub3 tl.t tc.t)).map f32ofF64)

/-! ## Projection (R304, R305) -/

/-- A point record's coordinate i in metres. -/
def pointCoord (r : List Byte) (i : Nat) : F32 := f32b (fpMulX (fpOfInt (signedOf 24 (leAt r (3 * i) 3))) (.fin false 1 (-10)))

/-- A value × 2^k rounded to nearest, ties to even, where 16 unsigned bits hold it. -/
def q16 (x : F32) (k : Int) : Option Nat :=
  match fpRneInt (fpMulX (f32v x) (.fin false 1 k)) with
  | some i => if 0 ≤ i ∧ i < 65536 then some i.toNat else none
  | none => none

/-- The projection of R304: pc[2], u, v. -/
def projectPoint (m : List (List F32) × List F32) (t : SenTable) (p : List F32) : F32 × F32 × F32 :=
  let g (v : List F32) (i : Nat) : F32 := v.getD i 0
  let row (i : Nat) : F32 :=
    let r := m.1.getD i []
    f32add (f32add (f32add (f32mul (g r 0) (g p 0)) (f32mul (g r 1) (g p 1))) (f32mul (g r 2) (g p 2))) (g m.2 i)
  let n (i : Nat) : F32 := f32ofF64 (vGet t.intr i)
  let d (i : Nat) : F32 := f32ofF64 (vGet t.dist i)
  let two : F32 := f32ofNat 2
  let rz := f32recip (row 2)
  let xn := f32mul (row 0) rz
  let yn := f32mul (row 1) rz
  let r2 := f32add (f32mul xn xn) (f32mul yn yn)
  let rad := f32add (f32ofNat 1) (f32mul r2 (f32add (d 0) (f32mul r2 (f32add (d 1) (f32mul r2 (d 2))))))
  let xd := f32add (f32mul xn rad)
    (f32add (f32mul (f32mul (f32mul two (d 3)) xn) yn) (f32mul (d 4) (f32add r2 (f32mul (f32mul two xn) xn))))
  let yd := f32add (f32mul yn rad)
    (f32add (f32mul (d 3) (f32add r2 (f32mul (f32mul two yn) yn))) (f32mul (f32mul (f32mul two (d 4)) xn) yn))
  (row 2, f32add (f32mul (n 0) xd) (n 2), f32add (f32mul (n 1) yd) (n 3))

/-- The STATUS of a projection (R305). -/
def projStatus (zmin : F32) (w h : Nat) (x : F32 × F32 × F32) : Nat :=
  if f32le x.1 zmin then 1
  else if fpLt (.fin false 65535 (-6)) (f32v x.1) then 3
  else if f32le 0 x.2.1 && f32lt x.2.1 (f32ofNat w) && f32le 0 x.2.2 && f32lt x.2.2 (f32ofNat h) then 0 else 2

/-- A 16-bit field of a projection record; a value that it cannot hold is a free value, as the spec states none. -/
def Leaf.projField (v : Option Nat) (l : Leaf) : Nat × Leaf :=
  match v with
  | some n => (n, l)
  | none => let r := l.freeDraw; (r.1 % 65536, r.2)

/-- The record of a point in camera c (R305), counted by its status. -/
def Leaf.projRecord (j c : Nat) (pt : List Byte) (l : Leaf) : List Byte × Leaf :=
  let t := l.senTable c
  let x := projectPoint (l.composed c j) t [pointCoord pt 0, pointCoord pt 1, pointCoord pt 2]
  let s := projStatus (f32ofF64 (vGet t.dist 5)) (l.camW c) (l.camH c) x
  let a := l.projField (if s = 0 then q16 x.2.1 4 else some 0xFFFF)
  let b := a.2.projField (if s = 0 then q16 x.2.2 4 else some 0xFFFF)
  let d := b.2.projField (if s = 1 then some 0 else if s = 3 then some 0xFFFF else q16 x.1 6)
  (leBytes 2 a.1 ++ leBytes 2 b.1 ++ leBytes 2 d.1 ++ leBytes 1 s ++ leBytes 1 c, d.2.bump 11 (4 + s))

/-- The records of points, in point order and within a point in camera order. -/
def Leaf.projPoints (j mask : Nat) : List (List Byte) → Leaf → List Byte × Leaf
  | [], l => ([], l)
  | p :: t, l =>
    let a := ((List.range 6).filter fun c => bitOf mask c).foldl
      (fun (a : List Byte × Leaf) c => let r := a.2.projRecord j c p; (a.1 ++ r.1, r.2)) ([], l)
    let b := Leaf.projPoints j mask t a.2
    (a.1 ++ b.1, b.2)

/-- A projection job's run. -/
def Leaf.pjRun (l : Leaf) (k : Nat) : PjRun := (alGet l.fus.pj k).getD {}

/-- Projection job j works on the tokens that have arrived, blind or not, and sends what it has (R304, R305). -/
def Leaf.project (blind : Bool) (j : Nat) (l : Leaf) : Leaf :=
  match l.fusCfg.bind fun c => c.pj[j]? with
  | none => l
  | some (tmpl, mask) =>
    let key := j + 8 * b2n blind
    let e := l.engPort (blindCode 8 blind) (20 + j)
    let x := l.pjRun key
    if x.ended then l
    else if e.poison then
      (l.engineSend 8 j [poisonEnd blind]).setFus { l.fus with pj := alSet key { x with ended := true } l.fus.pj }
    else
      let pts := chunks 16 (e.toks.drop x.taken).flatten
      let r := l.projPoints tmpl mask pts
      let all := x.left ++ r.1
      let n := if e.ended then all.length else all.length / 64 * 64
      let mk (bs : List Byte) : Token :=
        { bytes := bs, last := false, poison := false, blind := blind, stale := e.carry.stale, desync := e.carry.desync,
          oldest := e.carry.oldest }
      let ts := if e.ended then tokensOf e.carry false blind (chunks 64 all) else (chunks 64 (all.take n)).map mk
      (r.2.engineSend 8 j ts).setFus
        { r.2.fus with pj := alSet key { taken := e.toks.length, left := all.drop n, ended := e.ended } r.2.fus.pj }

/-- PROJECTION_JOB: the work that has arrived for job j, of the tick in progress and blind. -/
def Leaf.projectJob (j : Nat) (l : Leaf) : Leaf :=
  if l.ticking then
    let l1 := if (alGet l.fab.ports (8 * 64 + 20 + j)).isSome then l.project false j else l
    if (alGet l1.fab.ports (72 * 64 + 20 + j)).isSome then l1.project true j else l1
  else l

/-! ## Rings in leaf DRAM (R104) -/

/-- The registers of a ring. -/
structure RingRegs where
  lo : Nat
  hi : Nat
  size : FieldRef
  wr : FieldRef
  rd : FieldRef
  drop : FieldRef

/-- The calibration ring and the tick report ring. -/
def calRing : RingRegs :=
  { lo := Reg.FUS_CAL_RING_BASE_LO, hi := Reg.FUS_CAL_RING_BASE_HI, size := Fld.FUS_CAL_RING_SIZE_SLOTS, wr := Fld.FUS_CAL_RING_WR_WR,
    rd := Fld.FUS_CAL_RING_RD_RD, drop := Fld.FUS_CAL_RING_DROP_COUNT }
def rptRing : RingRegs :=
  { lo := Reg.TICK_RPT_BASE_LO, hi := Reg.TICK_RPT_BASE_HI, size := Fld.TICK_RPT_SIZE_SLOTS, wr := Fld.TICK_RPT_WR_WR,
    rd := Fld.TICK_RPT_RD_RD, drop := Fld.TICK_RPT_DROP_COUNT }

/-- A record written to a ring with slots of `slot` bytes (R104): false when it was dropped. -/
def Leaf.ringPut (g : RingRegs) (slot : Nat) (bs : List Byte) (l : Leaf) : Bool × Leaf :=
  let n := l.get g.size
  if n ≤ 1 then (true, l)
  else
    let w := l.get g.wr
    let next := (w + 1) % n
    if next = l.get g.rd then (false, l.inc g.drop)
    else
      let base := l.rd g.lo / 64 * 64 + 2 ^ 32 * l.rd g.hi
      (true, (l.store (base + w * slot) bs).put g.wr next)

/-- WR and RD of a ring set to 0 (R107). -/
def Leaf.ringClear (g : RingRegs) (l : Leaf) : Leaf := (l.put g.wr 0).put g.rd 0

/-! ## Calibration (R309, R310) -/

/-- A calibration proposal: sensor index, δθ, δt and (cameras) δfx, δfy, δcx, δcy. -/
structure Proposal where
  k : Nat
  dth : List F64
  dt : List F64
  di : List F64
  deriving DecidableEq, Repr

/-- A limit in millionths as binary64. -/
def micro64 (n : Nat) : F64 := f64mul (f64ofNat n) (dec64 1 1000000)

/-- Some |v| lies above the limit. -/
def anyAbove (vs : List F64) (lim : F64) : Bool := vs.any fun v => f64lt lim (f64abs v)

/-- The tests of REJECT_STEP and REJECT_CUM. -/
def outOfLimits (cam : Bool) (t : SenTable) (v : List F64) (rot trans intr : Nat) : Bool :=
  anyAbove (v.take 3) (micro64 rot) || anyAbove ((v.drop 3).take 3) (micro64 trans)
    || (cam && ((List.range 4).any fun i =>
      f64lt (f64mul (micro64 intr) (f64abs (vGet t.intr (if i = 1 then 1 else 0)))) (f64abs (vGet v (6 + i)))))

/-- Rodrigues' formula. DESIGN CHOICE: the order of its operations, and the identity for a zero vector. -/
def rodrigues (th : List F64) : List (List F64) :=
  let n := vNorm th
  if f64eq n 0 then mId 3
  else
    let k := skew th
    let a := f64div (f64sin n) n
    let b := f64div (f64sub one64 (f64cos n)) (f64mul n n)
    mAdd (mAdd (mId 3) (k.map fun r => vScale r a)) ((mMul k k).map fun r => vScale r b)

/-- One Gram-Schmidt pass over the rows, in order. -/
def gramSchmidt : List (List F64) → List (List F64) → List (List F64)
  | done, [] => done
  | done, r :: t =>
    let p := done.foldl (fun v d => vSub3 v (vScale d (dotSum ((r.zip d).map fun e => f64mul e.1 e.2)))) r
    let n := vNorm p
    gramSchmidt (done ++ [p.map fun x => f64div x n]) t

/-- The decision on a proposal (R309). -/
def Leaf.calDecision (superseded : Bool) (p : Proposal) (v cum : List F64) (l : Leaf) : Nat :=
  let cam := decide (p.k < 6)
  let t := l.senTable p.k
  if v.any fun x => !f64finite x then 5
  else if superseded then 4
  else if outOfLimits cam t v (l.get Fld.FUS_CAL_TR_ROT_STEP) (l.get Fld.FUS_CAL_TR_TRANS_STEP) (l.get Fld.FUS_CAL_TRI_INTR_STEP) then 2
  else if outOfLimits cam t ((cum.zip v).map fun e => f64add e.1 e.2) (l.get Fld.FUS_CAL_TRC_ROT_CUM) (l.get Fld.FUS_CAL_TRC_TRANS_CUM)
    (l.get Fld.FUS_CAL_TRI_INTR_CUM) then 3
  else 1

/-- One proposal judged, and applied when its decision says so (R309, R310). -/
def Leaf.judgeProposal (tick : Nat) (superseded : Bool) (l : Leaf) (p : Proposal) : Leaf :=
  let en := if p.k < 6 then bitOf (l.get Fld.FUS_CAL_EN_CAM) p.k else bitOf (l.get Fld.FUS_CAL_EN_LIDAR) (p.k - 8)
  if !en then l
  else
    let v := p.dth ++ p.dt ++ (if p.k < 6 then p.di else List.replicate 4 0)
    let cum := (alGet l.fus.cum p.k).getD (List.replicate 10 0)
    let d := l.calDecision superseded p v cum
    let rec' := padTo 64 (leBytes 8 tick ++ leBytes 1 p.k ++ leBytes 1 d ++ leBytes 6 0
      ++ v.flatMap fun x => leBytes 4 (f32ofF64 x).toNat)
    let l1 := if d = 1 then
        let t := l.senTable p.k
        let t1 : SenTable := { t with
          rot := gramSchmidt [] (mMul t.rot (rodrigues p.dth)), t := vAdd3 t.t p.dt, intr := vAdd3 t.intr (v.drop 6) }
        let m := l.setTable p.k t1
        ((m.setFus { m.fus with cum := alSet p.k ((cum.zip v).map fun e => f64add e.1 e.2) m.fus.cum }).inc
          Fld.FUS_CAL_APPLIED_COUNT).flagEvent Fld.FUS_CAL_STAT_APPLY_EV 0x073
      else (l.inc Fld.FUS_CAL_REJECTED_COUNT).flagEvent Fld.FUS_CAL_STAT_REJECT_EV 0x074
    let r := l1.ringPut calRing 64 rec'
    if r.1 then r.2 else r.2.flagEvent Fld.FUS_CAL_STAT_RING_DROP 0x075

/-- Step 7: a pending COMMIT loads the tables, and the proposals of the solve of the ended tick are judged in ascending order of
their sensors. A SUPERSEDED proposal is judged against the tables just loaded. -/
def Leaf.fusStep7 (tick : Nat) (ps : List Proposal) (l : Leaf) : Leaf :=
  let sup := l.bit Fld.FUS_TBL_CMD_PENDING
  let l1 := if sup then l.loadTables else l
  ps.foldl (Leaf.judgeProposal tick sup) l1

/-! ## The occupancy grid (R311 to R315) -/

/-- A source is demoted. -/
def Leaf.demoted (l : Leaf) (s : Nat) : Bool := decide (s < 128) && bitOf (l.rd (Reg.FUS_DEMOTE (s / 32))) (s % 32)

/-- The window code of a source for the tick (R228). -/
def Leaf.winCode (l : Leaf) (s : Nat) : Nat := (alGet l.sns.vector s).getD 0 % 8

/-- An evidence input as the unit takes it: number, source, its bytes, and why it is used, judged in shadow or not taken. -/
structure EvIn where
  e : Nat
  used : Bool
  shadow : Bool
  cells : Array Byte

/-- The evidence inputs of the tick (R312). -/
def Leaf.evIns (c : FusCfg) (l : Leaf) : List EvIn :=
  (List.range c.nev).map fun e =>
    let p := l.engPort 8 e
    let s := c.evSrc.getD e 0xFF
    let fit := (l.winCode s == 3 || l.winCode s == 4) && !p.poison
    { e := e, used := fit && !l.demoted s, shadow := fit && l.demoted s, cells := p.toks.flatten.toArray }

/-- Class and confidence of an evidence byte; a reserved class reads as UNKNOWN (R311). -/
def evClass (b : Byte) : Nat := let k := b.toNat / 32; if 5 ≤ k then 0 else k
def evConf (b : Byte) : Nat := b.toNat % 32

/-- A claim on a cell: input, class, confidence. -/
structure Claim where
  e : Nat
  cls : Nat
  conf : Nat
  deriving DecidableEq, Repr

/-- The claims of inputs on cell n. -/
def claimsOn (ins : List EvIn) (n : Nat) : List Claim :=
  ins.filterMap fun i =>
    let b := i.cells.getD n 0
    if evClass b = 0 ∨ evConf b = 0 then none else some { e := i.e, cls := evClass b, conf := evConf b }

/-- A bitmap of the inputs of claims. -/
def claimMask (cs : List Claim) : Nat := cs.foldl (fun m c => m ||| 2 ^ c.e) 0

/-- The highest confidence. -/
def maxConf (cs : List Claim) : Nat := cs.foldl (fun m c => max m c.conf) 0

/-- A decided cell (Table 11.4). -/
structure Cell where
  contrib : Nat
  dissent : Nat := 0
  cls : Nat
  conf : Nat
  contested : Bool := false
  dconf : Nat := 0
  dcls : Nat := 0
  deriving DecidableEq, Repr

/-- The common class of occupied claims, or 4 (R313). -/
def occClass (cs : List Claim) : Nat :=
  match cs with
  | [] => 4
  | c :: t => if t.all fun d => d.cls == c.cls then c.cls else 4

/-- The weak claim of the highest confidence, the lower input winning a tie. -/
def bestWeak (cs : List Claim) : Option Claim :=
  cs.foldl (fun (b : Option Claim) c =>
    match b with
    | none => some c
    | some x => if x.conf < c.conf then some c else some x) none

/-- A cell decided by its claims (R313). -/
def decideCell (confMin : Nat) (cs : List Claim) : Cell :=
  let strong := cs.filter fun c => decide (confMin ≤ c.conf)
  let free := strong.filter fun c => c.cls == 1
  let occ := strong.filter fun c => c.cls != 1
  let m := claimMask cs
  if !free.isEmpty && !occ.isEmpty then
    { contrib := m, dissent := claimMask free, cls := occClass occ, conf := maxConf occ, contested := true, dconf := maxConf free, dcls := 1 }
  else if !occ.isEmpty then { contrib := m, cls := occClass occ, conf := maxConf occ }
  else if !free.isEmpty then { contrib := m, cls := 1, conf := maxConf free }
  else
    match bestWeak cs with
    | some c => { contrib := m, cls := c.cls, conf := c.conf }
    | none => { contrib := m, cls := 0, conf := 0 }

/-- A cell as the grid object shows it; `cap` caps the confidence. -/
def Cell.bytes (cap : Nat) (c : Cell) : List Byte :=
  leBytes 2 c.contrib ++ leBytes 2 c.dissent ++ leBytes 1 (c.cls * 32 + 16 * b2n c.contested) ++ leBytes 1 (min cap c.conf)
    ++ leBytes 1 c.dconf ++ leBytes 1 c.dcls

/-- The inputs on the minority side of a contradiction among claims (R316). -/
def minoritySide (confMin : Nat) (cs : List Claim) : List Nat :=
  let strong := cs.filter fun c => decide (confMin ≤ c.conf)
  let free := strong.filter fun c => c.cls == 1
  let occ := strong.filter fun c => c.cls != 1
  if free.isEmpty || occ.isEmpty then []
  else if free.length < occ.length then free.map (·.e)
  else if occ.length < free.length then occ.map (·.e)
  else []

/-- The minority inputs of a cell: used inputs among the used ones; an input judged in shadow as if the shadow inputs were used
(DEDUCED). -/
def cellMinority (confMin : Nat) (used shadow : List EvIn) (n : Nat) : List Nat :=
  let cs := claimsOn used n
  let a := minoritySide confMin cs
  if shadow.isEmpty then a
  else a ++ (minoritySide confMin (cs ++ claimsOn shadow n)).filter fun e => shadow.any fun i => i.e == e

/-- CONF_MIN, FUS_GRID_CFG.CAP2 in DS2. -/
def Leaf.confMin (l : Leaf) : Nat := max 1 (l.get Fld.FUS_GRID_CFG_CONF_MIN)
def Leaf.confCap (l : Leaf) : Nat := if l.get Fld.FUS_DS_STAT_STEP = 2 then l.get Fld.FUS_GRID_CFG_CAP2 else 31

/-- Byte 9 of the headers: REDUCED_COVERAGE and INVALID. -/
def stepFlags (step : Nat) : Nat := b2n (decide (1 ≤ step)) + 2 * b2n (step == 4)

/-- The grid of the tick combined (R313 to R316). -/
def Leaf.gridUpdate (c : FusCfg) (l : Leaf) : Leaf :=
  let ins := l.evIns c
  let used := ins.filter (·.used)
  let shadow := ins.filter (·.shadow)
  let ign := ins.filter fun i => !i.used
  let mask (is : List EvIn) : Nat := is.foldl (fun m i => m ||| 2 ^ i.e) 0
  let cells := (List.range 262144).map fun n => decideCell l.confMin (claimsOn used n)
  let mins := (List.range 262144).foldl (fun (a : Array Nat) n =>
    (cellMinority l.confMin used shadow n).foldl (fun a e => a.setIfInBounds e (a.getD e 0 + 1)) a) (Array.replicate 16 0)
  let contested := (cells.filter (·.contested)).length
  let rsvd := (used.map fun i => (i.cells.toList.filter fun b => decide (5 ≤ b.toNat / 32)).length).foldl (· + ·) 0
  let step := l.get Fld.FUS_DS_STAT_STEP
  let head := padTo 64 (leBytes 8 l.tickNum ++ leBytes 1 step ++ leBytes 1 (stepFlags step) ++ leBytes 2 0 ++ leBytes 4 contested
    ++ leBytes 2 (mask used) ++ leBytes 2 (mask ign))
  let carry := used.foldl (fun (k : Carry) i => k.join (l.engPort 8 i.e).carry) {}
  let out : FusOut := { bytes := head ++ cells.flatMap (Cell.bytes l.confCap), contested := decide (0 < contested), carry := carry }
  ((l.countBy 11 0 ign.length).countBy 11 1 rsvd).setFus { l.fus with grid := some out, minority := mins.toList }

/-! ## Tracks (R317 to R322) -/

/-- A candidate record (R318). -/
structure TrkCand where
  index : Nat
  exist : Nat
  cls : Nat
  support : Nat
  body : List Byte
  deriving DecidableEq, Repr

/-- The candidates of the track input, in stream order. -/
def Leaf.trkCands (l : Leaf) : List TrkCand :=
  (chunks 48 (l.engPort 8 16).toks.flatten).map fun r =>
    { index := leAt r 0 2, exist := leAt r 2 1, cls := leAt r 3 1, support := leAt r 4 2, body := sliceBytes r 8 36 }

/-- The work on the track table: slots, births, releases, and the leaf. -/
structure TrkWork where
  slots : List (Nat × Track)
  born : Nat := 0
  released : Nat := 0

/-- A track ID drawn (R317); none once the counter is exhausted. -/
def Leaf.drawTrackId (l : Leaf) : Option Nat × Leaf :=
  if l.aon.trkNext = 0xFFFFFFFF then (none, (l.putB Fld.FUS_TRK_STAT_EXHAUSTED true).raise 0x076)
  else (some l.aon.trkNext, { l with aon := { l.aon with trkNext := l.aon.trkNext + 1 } })

/-- The class fields of a candidate say CONTESTED (R321). -/
def clsContested (cls : Nat) : Bool := cls / 16 != 0 && cls / 16 != cls % 16

/-- The DISSENT of the contested grid cell that holds a track, if it lies in one (R321). -/
def Leaf.trkCell (c : FusCfg) (body : List Byte) (l : Leaf) : Option Nat :=
  let ix (o : Nat) (org : F32) : Option Int :=
    fpFloorInt (f32v (f32mul (f32sub (BitVec.ofNat 32 (leAt body o 4)) org) (f32ofNat 5)))
  match ix 0 c.x0, ix 4 c.y0, l.fus.grid with
  | some i, some j, some g =>
    if 0 ≤ i ∧ i < 512 ∧ 0 ≤ j ∧ j < 512 then
      let o := 64 + (j.toNat * 512 + i.toNat) * 8
      if bitOf (leAt g.bytes (o + 4) 1) 4 then some (leAt g.bytes (o + 2) 2) else none
    else none
  | _, _, _ => none

/-- A track that candidate x updates; `t` is the track before, or none at its birth under ID `id`. -/
def Leaf.updTrack (c : FusCfg) (x : TrkCand) (id age miss : Nat) (isNew : Bool) (l : Leaf) : Track :=
  let cell := l.trkCell c x.body
  let con := clsContested x.cls || cell.isSome
  { id := id, isNew := isNew, updated := true, contested := con, coasting := false, cls := x.cls, age := age, miss := miss,
    exist := x.exist, support := x.support, dissent := if con then cell.getD 0 else 0, body := x.body,
    oldest := (l.engPort 8 16).carry.oldest.getD 0 }

/-- MAX_MISS as it acts. -/
def Leaf.maxMiss (l : Leaf) : Nat := max 1 (l.get Fld.FUS_TRK_CFG_MAX_MISS)

/-- A track placed in slot s, or released when its miss count has reached MAX_MISS. -/
def TrkWork.place (w : TrkWork) (maxMiss s : Nat) (t : Track) : TrkWork :=
  if maxMiss ≤ t.miss then { w with slots := alDel s w.slots, released := w.released + 1 } else { w with slots := alSet s t w.slots }

/-- A track without a record: it coasts (R321). -/
def Track.coast (t : Track) : Track :=
  { t with isNew := false, updated := false, coasting := true, age := (t.age + 1) % 2 ^ 32, miss := t.miss + 1 }

/-- A birth in slot s. -/
def Leaf.birth (c : FusCfg) (x : TrkCand) (s : Nat) (w : TrkWork) (l : Leaf) : TrkWork × Leaf :=
  match l.drawTrackId with
  | (some id, l1) => ({ w with slots := alSet s (l1.updTrack c x id 0 0 true) w.slots, born := w.born + 1 }, l1)
  | (none, l1) => (w, l1)

/-- One slot in network-memory mode (R319). -/
def Leaf.slotStep (c : FusCfg) (cs : List (Nat × TrkCand)) (a : TrkWork × Leaf) (s : Nat) : TrkWork × Leaf :=
  let l := a.2
  match alGet a.1.slots s, alGet cs s with
  | none, none => a
  | none, some x => if l.get Fld.FUS_TRK_CFG_BIRTH ≤ x.exist then l.birth c x s a.1 else a
  | some t, none => (a.1.place l.maxMiss s t.coast, l)
  | some t, some x =>
    let miss := if l.get Fld.FUS_TRK_CFG_DEATH ≤ x.exist then 0 else t.miss + 1
    (a.1.place l.maxMiss s (l.updTrack c x t.id ((t.age + 1) % 2 ^ 32) miss false), l)

/-- The last candidate of each index. -/
def lastByIndex (cs : List TrkCand) : List (Nat × TrkCand) := cs.foldl (fun m c => alSet c.index c m) []

/-- The tracks in network-memory mode (R319). -/
def Leaf.trkNetwork (c : FusCfg) (l : Leaf) : TrkWork × Leaf :=
  let all := l.trkCands
  let ok := all.filter fun x => decide (x.index < 2048)
  let l1 := l.countBy 11 2 (all.length - ok.length)
  (List.range 2048).foldl (Leaf.slotStep c (lastByIndex ok)) ({ slots := l.fus.trks }, l1)

/-- The lowest free slot. -/
def freeTrkSlot (slots : List (Nat × Track)) : Option Nat := (List.range 2048).find? fun s => (alGet slots s).isNone

/-- The tracks in association mode (R320). -/
def Leaf.trkAssoc (c : FusCfg) (l : Leaf) : TrkWork × Leaf :=
  let all := l.trkCands
  let ok := all.filter fun x => decide (x.index < 512)
  let cs := lastByIndex ok
  let l0 := l.countBy 11 2 (all.length - ok.length)
  let rows := (l.fus.trks.map (·.1)).take 512
  let vec := (l.engPort 8 17).toks.flatten
  let cols : List (Nat × Int) := (List.range rows.length).map fun r =>
    (rows.getD r 0, if 4 * r + 4 ≤ vec.length then signedOf 32 (leAt vec (4 * r) 4) else -1)
  let given := cols.filter fun p => p.2 != -1
  let fault (p : Nat × Int) : Bool :=
    decide (p.2 < 0) || (alGet cs p.2.toNat).isNone || decide (1 < (given.filter fun q => q.2 == p.2).length)
  let bad := given.filter fault
  let good := (given.filter fun p => !fault p).map fun p => (p.1, p.2.toNat)
  let l1 := l0.countBy 11 3 bad.length
  let w := l.fus.trks.foldl (fun (w : TrkWork) e =>
    match (alGet good e.1).bind fun k => alGet cs k with
    | some x => w.place l1.maxMiss e.1 (l1.updTrack c x e.2.id ((e.2.age + 1) % 2 ^ 32) 0 false)
    | none => w.place l1.maxMiss e.1 e.2.coast) { slots := l.fus.trks }
  cs.foldl (fun (a : TrkWork × Leaf) e =>
    if good.any (fun g => g.2 == e.1) || decide (e.2.exist < a.2.get Fld.FUS_TRK_CFG_BIRTH) then a
    else
      match freeTrkSlot a.1.slots with
      | some s => a.2.birth c e.2 s a.1
      | none => (a.1, a.2.inc Fld.FUS_TRK_FULL_COUNT)) (w, l1)

/-- A track entry (Table 11.5). -/
def Track.bytes (s : Nat) (t : Track) : List Byte :=
  leBytes 4 t.id ++ leBytes 2 s
    ++ leBytes 1 (1 + 2 * b2n t.isNew + 4 * b2n t.updated + 8 * b2n t.contested + 16 * b2n t.coasting) ++ leBytes 1 t.cls
    ++ leBytes 4 t.age ++ leBytes 1 t.miss ++ leBytes 1 t.exist ++ leBytes 2 t.support ++ leBytes 2 t.dissent ++ leBytes 2 0
    ++ t.body ++ leBytes 8 t.oldest

/-- The track object (R321). -/
def trkBytes (tick step born released : Nat) (slots : List (Nat × Track)) : List Byte :=
  padTo 64 (leBytes 8 tick ++ leBytes 1 step ++ leBytes 1 (stepFlags step) ++ leBytes 2 slots.length ++ leBytes 2 born
    ++ leBytes 2 released)
    ++ (List.range 2048).flatMap fun s => match alGet slots s with | some t => t.bytes s | none => List.replicate 64 0

/-- The tracks of the tick (R319 to R322). -/
def Leaf.trkUpdate (c : FusCfg) (l : Leaf) : Leaf :=
  let p := l.engPort 8 16
  if p.poison || (c.method == 1 && (l.engPort 8 17).poison) then l.setFus { l.fus with trkOut := some { poison := true } }
  else
    let r := if c.method = 1 then l.trkAssoc c else l.trkNetwork c
    let slots := r.1.slots
    let oldest := slots.foldl (fun (o : Option Nat) e => earliest o (some e.2.oldest)) none
    let out : FusOut :=
      { bytes := trkBytes l.tickNum (l.get Fld.FUS_DS_STAT_STEP) r.1.born r.1.released slots
        contested := slots.any fun e => e.2.contested
        carry := { p.carry with oldest := oldest } }
    r.2.setFus { r.2.fus with trkOut := some out, work := slots }

/-- FUSION_GRID_UPDATE (R303): the grid once every declared evidence input and the track input have had END, then the tracks, in
association mode once the assignment vector has had END too. -/
def Leaf.fusUpdate (l : Leaf) : Leaf :=
  match l.fusCfg with
  | none => l
  | some c =>
    if !l.ticking then l
    else
      let ready := (List.range c.nev).all (fun e => (l.engPort 8 e).ended) && (l.engPort 8 16).ended
      let l1 := if ready && l.fus.grid.isNone then l.gridUpdate c else l
      if l1.fus.grid.isSome && l1.fus.trkOut.isNone && (c.method != 1 || (l1.engPort 8 17).ended) then l1.trkUpdate c else l1

/-- A software write of FUS_TRK_NEXT (R317). -/
def Leaf.writeTrkNext (w : Nat) (l : Leaf) : Leaf :=
  if l.aon.trkNext < w then { l with aon := { l.aon with trkNext := w } } else l.putB Fld.FUS_TRK_STAT_NEXT_REFUSED true

/-! ## Demotion at step 4 (R316) -/

/-- A source's DEM bit given a value. -/
def Leaf.putDemoted (s : Nat) (b : Bool) (l : Leaf) : Leaf :=
  if b then l.orReg (Reg.FUS_DEMOTE (s / 32)) (2 ^ (s % 32)) else l.andNotReg (Reg.FUS_DEMOTE (s / 32)) (2 ^ (s % 32))

/-- Demotion and restoration of one source. -/
def Leaf.demoteStep (disagreed : Nat → Bool) (l : Leaf) (s : Nat) : Leaf :=
  if l.demoted s then
    let n := if disagreed s then 0 else (alGet l.fus.agree s).getD 0 + 1
    let r := l.get Fld.FUS_DEMOTE_CFG_RESTORE
    if r ≠ 0 ∧ r ≤ n then
      ((l.putDemoted s false).setFus { l.fus with agree := alDel s l.fus.agree, dis := alDel s l.fus.dis }).flagEvent
        Fld.FUS_DS_STAT_RESTORE_EV 0x072
    else l.setFus { l.fus with agree := alSet s n l.fus.agree }
  else
    let n := if disagreed s then (alGet l.fus.dis s).getD 0 + 1 else 0
    let d := l.get Fld.FUS_DS_CFG_DEMOTE_N
    if d ≠ 0 ∧ d ≤ n then
      ((l.putDemoted s true).setFus { l.fus with dis := alDel s l.fus.dis, agree := alDel s l.fus.agree }).flagEvent
        Fld.FUS_DS_STAT_DEMOTE_EV 0x071
    else l.setFus { l.fus with dis := alSet s n l.fus.dis }

/-- The sources of the evidence inputs judged at a boundary. -/
def Leaf.demotions (l : Leaf) : Leaf :=
  match l.fusCfg with
  | none => l
  | some c =>
    let lim := max 1 (l.get Fld.FUS_DEMOTE_CFG_DIS_CELLS)
    let dis (s : Nat) : Bool := (List.range c.nev).any fun e => c.evSrc.getD e 0xFF == s && decide (lim ≤ l.fus.minority.getD e 0)
    ((c.evSrc.filter fun s => decide (s < 128)).dedup).foldl (Leaf.demoteStep dis) l

/-- A software write of FUS_DEMOTE word n: sources whose bit is cleared are restored (R316). -/
def Leaf.writeDemote (n w : Nat) (l : Leaf) : Leaf :=
  if 4 ≤ n then l
  else
    ((List.range 32).filter fun b => bitOf w b && bitOf (l.rd (Reg.FUS_DEMOTE n)) b).foldl (fun (m : Leaf) b =>
      let s := 32 * n + b
      ((m.putDemoted s false).setFus { m.fus with agree := alDel s m.fus.agree, dis := alDel s m.fus.dis }).flagEvent
        Fld.FUS_DS_STAT_RESTORE_EV 0x072) l

/-! ## Degradation steps (R323 to R326) -/

/-- A monitored source, and a lost one. -/
def Leaf.monitored (l : Leaf) (s : Nat) : Bool := bitOf (l.rd (Reg.FUS_MON (s / 32))) (s % 32)
def Leaf.srcLost (l : Leaf) (s : Nat) : Bool :=
  l.monitored s && ([0, 1, 2, 5].contains (l.winCode s) || l.demoted s)

/-- Monitored sources among a list, and whether there is one and all are lost. -/
def Leaf.allLost (l : Leaf) (ss : List Nat) : Bool :=
  let m := ss.filter l.monitored
  !m.isEmpty && m.all l.srcLost

/-- The source numbers of cameras, lidar templates and IMUs (Table 8.1). -/
def camSources : List Nat := List.range 6
def lidarSources : List Nat := (List.range 8).map (· + 8)
def imuSources : List Nat := [0x10, 0x11]

/-- The threshold records before `hi` taken (R323): a rising record makes its threshold active, a falling one ends that. -/
def Leaf.takeThresholds (hi : Nat) (l : Leaf) : Leaf :=
  let now := l.filt.recs.filter fun r => decide (r.at' < hi)
  let act := now.foldl (fun (a : List Nat) r =>
    let k := 2 * r.chan + r.thr
    if r.rising then (if a.contains k then a else a ++ [k]) else a.filter (· != k)) l.fus.active
  ({ l with filt := { l.filt with recs := l.filt.recs.filter fun r => decide (hi ≤ r.at') } }).setFus { l.fus with active := act }

/-- A threshold action of value v is active. -/
def Leaf.thrActive (l : Leaf) (v : Nat) : Bool :=
  l.fus.active.any fun k => bitsOf (l.rd (Reg.FUS_THRACT (k / 16))) (2 * (k % 16) + 1) (2 * (k % 16)) == v

/-- Localisation is suspended (R323). -/
def Leaf.locSuspended (l : Leaf) : Bool :=
  l.allLost (camSources ++ lidarSources) || decide (max 1 (l.get Fld.FUS_DS_CFG_LOC_TICKS) ≤ l.fus.locRun) || l.bit Fld.FUS_DS_CTRL_SUSPEND

/-- The raw step by Table 11.6, before the dead-reckoning timer. -/
def Leaf.rawStep (l : Leaf) : Nat :=
  let cams := (camSources.filter l.srcLost).length
  if l.bit Fld.FUS_DS_CTRL_FORCE4 || (l.locSuspended && l.allLost imuSources) || l.thrActive 3 then 4
  else if l.locSuspended || l.thrActive 2 then 3
  else if l.allLost lidarSources || decide (max 1 (l.get Fld.FUS_DS_CFG_CAM_MODAL) ≤ cams) then 2
  else if (List.range 128).any l.srcLost || l.thrActive 1 then 1
  else 0

/-- DR_MS in ns. -/
def Leaf.drNs (l : Leaf) : Nat := max 1 (l.rd Reg.FUS_DS_DR) * 1000000

/-- The dead-reckoning timer has run out at vehicle time b: b lies outside [T3, T3 + DR_MS) (R324). -/
def Leaf.drOut (l : Leaf) (b : Nat) : Bool :=
  match l.fus.t3 with
  | some t => decide (b < t) || decide (t + l.drNs ≤ b)
  | none => false

/-- The timer at a boundary at vehicle time b ns with raw step r: the raw step with an expiry in it. -/
def Leaf.drTimer (b r : Nat) (l : Leaf) : Nat × Leaf :=
  if r < 3 then (r, l.setFus { l.fus with t3 := none, expired := false })
  else
    match l.fus.t3 with
    | none => (r, l.setFus { l.fus with t3 := some b, expired := false })
    | some _ => if l.fus.expired || l.drOut b then (4, l.setFus { l.fus with expired := true }) else (r, l)

/-- DR_TIMER_EXPIRY: the interval has run out by now; r is 4 at the next boundary at which it would be 3 or above (R324). -/
def Leaf.drExpire (l : Leaf) : Leaf := if l.drOut l.nowNs then l.setFus { l.fus with expired := true } else l

/-- FUS_DS_DRLEFT (R328): whole ms left before expiry. -/
def Leaf.drLeft (l : Leaf) : Nat :=
  match l.fus.t3 with
  | some t => (t + l.drNs - l.nowNs) / 1000000 % 2 ^ 32
  | none => 0

/-- A 128-bit bitmap of sources. -/
def srcMask (p : Nat → Bool) : Nat := (List.range 128).foldl (fun m s => if p s then m + 2 ^ s else m) 0

/-- An engine or leaf object written at a boundary outside the commit: one that is not WRITABLE. -/
def Leaf.putObj (i : Nat) (bs : List Byte) (l : Leaf) : Leaf :=
  match l.obj i with
  | some o => l.store o.dram bs
  | none => l

/-- The slot-control words (R319). -/
def slotCtl (slots : List (Nat × Track)) : List Byte :=
  (List.range 2048).flatMap fun s => leBytes 4 (s + 2 ^ 31 * b2n (alGet slots s).isNone)

/-- Step 10, first part: the step of tick n, which starts at vehicle time b ns, decided and shown (R323 to R326). -/
def Leaf.decideStep (n b : Nat) (l : Leaf) : Leaf :=
  let a := l.drTimer b l.rawStep
  let r := a.1
  let l1 := a.2
  let hold := max 1 (l1.get Fld.FUS_DS_CFG_HOLD)
  let hist := ((l1.fus.hist.filter fun e => decide (n < e.1 + 255) && decide (e.1 < n))) ++ [(n, r)]
  let step := (hist.filter fun e => decide (n < e.1 + hold)).foldl (fun m e => max m e.2) 0
  let old := l1.get Fld.FUS_DS_STAT_STEP
  let lost := srcMask l1.srcLost
  let l2 := l1.setFus { l1.fus with hist := hist }
  let l3 := ((((l2.put Fld.FUS_DS_STAT_STEP step).put Fld.FUS_DS_STAT_RAW r).putB Fld.FUS_DS_STAT_DR_RUN l2.fus.t3.isSome).putB
    Fld.FUS_DS_STAT_SAFE (step == 4)).putB Fld.FUS_DS_STAT_LOC_SUSP l2.locSuspended
  let l4 := (List.range 4).foldl (fun m w => m.wr (Reg.FUS_LOST w) (lost / 2 ^ (32 * w) % 2 ^ 32)) l3
  let l5 := if old < step then l4.flagEvent Fld.FUS_DS_STAT_DS_UP 0x070 else l4
  match l5.fusCfg with
  | none => l5
  | some c =>
    let l6 := if c.dsObj = 0xFFFF then l5
      else l5.putObj c.dsObj (padTo 64 (leBytes 8 n ++ leBytes 1 step ++ leBytes 1 r ++ leBytes 6 0 ++ leBytes 16 lost
        ++ leBytes 16 (srcMask l5.demoted)))
    if c.method = 0 ∧ c.slotObj ≠ 0xFFFF then l6.putObj c.slotObj (slotCtl l6.fus.trks) else l6

/-- Step 10, arming (R303): the unit starts the tick with nothing done; blind projection work stays. -/
def Leaf.fusArm (l : Leaf) : Leaf :=
  l.setFus { l.fus with grid := none, minority := [], trkOut := none, work := [], pj := l.fus.pj.filter fun e => decide (8 ≤ e.1) }

/-- A change of FUS_CAL_RING_SIZE resets the ring at the next boundary (R107, R310). -/
def Leaf.writeCalSize (w : Nat) (l : Leaf) : Leaf :=
  let l1 := l.swWrite Reg.FUS_CAL_RING_SIZE w
  if l1.rd Reg.FUS_CAL_RING_SIZE = l.rd Reg.FUS_CAL_RING_SIZE then l1 else l1.setFus { l1.fus with ringReset := true }

/-- The unit as a whole-image glaze and a leaf reset leave it (R326): step 0, no history, no demotion, timer stopped. The tables
stay at a glaze. -/
def Leaf.fusClear (l : Leaf) : Leaf :=
  let l1 := l.setFus { live := l.fus.live, cum := l.fus.cum, active := l.fus.active, ringReset := l.fus.ringReset }
  let l2 := (List.range 4).foldl (fun m w => (m.wr (Reg.FUS_DEMOTE w) 0).wr (Reg.FUS_LOST w) 0) l1
  let l3 := ((((l2.put Fld.FUS_DS_STAT_STEP 0).put Fld.FUS_DS_STAT_RAW 0).putB Fld.FUS_DS_STAT_DR_RUN false).putB
    Fld.FUS_DS_STAT_SAFE false).putB Fld.FUS_DS_STAT_LOC_SUSP false
  (l3.put Fld.FUS_GRID_STAT_CONTESTED 0).put Fld.FUS_TRK_STAT_LIVE 0

end Sys2Proof.Machine
end

