-- ==== Sys2Proof/Machine/Search.lean ====
section
/-!
DEFINITION. The mullion engines (R367 to R394): the index on flash, walks and scans, queries and their contexts, side lists, merges,
index writes and attachment.
-/
namespace Sys2Proof.Machine

/-! ## The index on flash (R367 to R369) -/

/-- None as an item ID. -/
def noItem : Nat := 0xFFFFFFFFFF

/-- The channel, node address and descriptor address of item i (R368). -/
def IxHdr.ch (x : IxHdr) (i : Nat) : Nat := (x.ch0 + i % x.c) % 8
def IxHdr.nodeAddr (x : IxHdr) (i : Nat) : Nat :=
  let k := i / x.c
  x.ch i * 2 ^ 37 + (x.nodeOfs + k / 19 * 4096 + k % 19 * 208)
def IxHdr.descAddr (x : IxHdr) (i : Nat) : Nat := x.ch i * 2 ^ 37 + (x.descOfs + i / x.c * 256)

/-- Items on each channel, and the bytes of the node and descriptor streams on it. -/
def IxHdr.perCh (x : IxHdr) : Nat := (x.n + x.c - 1) / x.c
def IxHdr.nodeLen (x : IxHdr) : Nat := (x.perCh + 18) / 19 * 4096
def IxHdr.descLen (x : IxHdr) : Nat := x.perCh * 256

/-- The channels of an index. -/
def IxHdr.chans (x : IxHdr) : List Nat := (List.range x.c).map fun i => (x.ch0 + i) % 8

/-- A node record (Table 14.2). -/
structure INode where
  sketch : Nat
  nbrs : List Nat
  deleted : Bool
  tag : Nat
  deriving DecidableEq, Repr

/-- A node record read from its bytes. -/
def inodeOf (b : List Byte) : INode :=
  { sketch := leAt b 0 32, nbrs := ((List.range 32).map fun s => leAt b (32 + 5 * s) 5).takeWhile (· != noItem),
    deleted := bitOf (leAt b 197 1) 0, tag := leAt b 200 8 }

/-- A node record's bytes. -/
def INode.bytes (id : Nat) (n : INode) : List Byte :=
  leBytes 32 n.sketch ++ ((List.range 32).flatMap fun s => leBytes 5 (n.nbrs.getD s noItem)) ++ leBytes 5 id ++ leBytes 1 (b2n n.deleted)
    ++ leBytes 2 0 ++ leBytes 8 n.tag

/-- Node i of an index, and its descriptor. -/
def Leaf.inode (l : Leaf) (x : IxHdr) (i : Nat) : INode := inodeOf (l.flashRead (x.nodeAddr i) 208)
def Leaf.idesc (l : Leaf) (x : IxHdr) (i : Nat) : List Byte := l.flashRead (x.descAddr i) 256

/-- A header's fields. -/
def ixHdrOf (addr : Nat) (b : List Byte) : IxHdr :=
  { at' := addr, c := leAt b 6 1, ch0 := leAt b 7 1, n := leAt b 8 8, nodeOfs := leAt b 16 8, descOfs := leAt b 24 8,
    eps := (List.range (min 64 (leAt b 32 2))).map fun e => (leAt b (64 + 40 * e) 5, leAt b (72 + 40 * e) 32) }

/-! ## Distances (R370) -/

/-- The sketch distance. -/
def sketchDist (a b : Nat) : Nat := ((List.range 256).filter fun i => bitOf a i != bitOf b i).length

/-- An E4M3 value times 2^9. -/
def e4m3x512 (b : Byte) : Int :=
  let v := b.toNat
  let e := v / 8 % 16
  let m := v % 8
  let a : Nat := if e = 0 then m else (8 + m) * 2 ^ (e - 1)
  if 128 ≤ v then -(a : Int) else (a : Int)

/-- A descriptor holds a NaN. -/
def descNan (d : List Byte) : Bool := d.any fun b => b.toNat % 128 == 127

/-- The exact distance. -/
def exactD (q x : List Byte) : Nat :=
  ((q.zip x).map fun p => let t := e4m3x512 p.1 - e4m3x512 p.2; (t * t).toNat).foldl (· + ·) 0

/-! ## Query records (R376) -/

/-- A field of a query record. -/
def Query.fld (q : Query) (o n : Nat) : Nat := leAt q.rec' o n

/-- K, the query's sketch and its descriptor. -/
def Query.k (q : Query) : Nat := q.fld 2 2
def Query.sketch (q : Query) : Nat := q.fld 64 32
def Query.desc (q : Query) : List Byte := sliceBytes q.rec' 96 256

/-- A query is blind. -/
def Query.blind (q : Query) : Bool := match q.owner with | .row _ _ _ b => b | .host _ => false
def Query.isHost (q : Query) : Bool := match q.owner with | .host _ => true | .row _ _ _ _ => false

/-- The search state replaced. -/
def Leaf.setSrch (l : Leaf) (s : SrchState) : Leaf := { l with srch := s }

/-- An attached slot that takes queries. -/
def Leaf.idxSlot (l : Leaf) (x : Nat) : Option IdxSlot := alGet l.srch.slots x
def Leaf.idxOpen (l : Leaf) (x : Nat) : Option IdxSlot := (l.idxSlot x).filter fun s => !s.detaching

/-- A slot replaced. -/
def Leaf.setIdx (x : Nat) (s : IdxSlot) (l : Leaf) : Leaf := l.setSrch { l.srch with slots := alSet x s l.srch.slots }

/-- The filter object of a row is fit: RESIDENT_DRAM and not WRITABLE. -/
def Leaf.filterObjOk (l : Leaf) (i : Nat) : Bool :=
  match l.obj i with | some o => o.place == 0 && !o.writable | none => false

/-- A query is INVALID (R377): `kmax` bounds K of a row. -/
def Leaf.queryBad (host : Bool) (kmax : Nat) (r : List Byte) (l : Leaf) : Bool :=
  let f (o n : Nat) := leAt r o n
  let k := f 2 2
  let x := f 0 1 % 4
  let flt := f 16 8
  match l.idxOpen x with
  | none => true
  | some s =>
    decide (4 ≤ f 0 1) || decide (1 < f 1 1) || decide (k < 1) || decide (256 < k) || decide (kmax < k)
      || decide (f 4 2 < 16) || decide (512 < f 4 2) || decide (f 6 2 < 1) || decide (1024 < f 6 2)
      || decide (f 8 1 < 1) || decide (s.hdr.eps.length < f 8 1) || decide (46 < f 9 1)
      || decide (f 10 2 < k) || decide (256 < f 10 2) || decide (f 4 2 < f 8 1) || descNan (sliceBytes r 96 256)
      || (f 1 1 == 1 && (decide (f 40 8 < 1) || decide (2 ^ 31 < f 40 8)))
      || (if host then
            decide (flt % 64 ≠ 0) || decide (softEnd ≤ flt) || decide (f 56 8 % 64 ≠ 0) || decide (softEnd < f 56 8 + 32 + 16 * k)
          else decide (0x1000 ≤ flt) || (flt != 0xFFF && !l.filterObjOk flt))

/-- The FP filter of a query lets an item through (R371). -/
def Leaf.allowedBy (l : Leaf) (q : Query) (id : Nat) : Bool :=
  let n := q.fld 24 8
  let flt := q.fld 16 8
  let inItems := decide (id < (if n = 0 then 2 ^ 40 else n))
  let bit := if q.isHost then
      flt == 0 || bitOf (l.dramByte (flt + id / 8)).toNat (id % 8)
    else
      flt == 0xFFF || (match l.obj flt with
        | some o => decide (id / 8 < o.size) && bitOf (l.dramByte (o.dram + id / 8)).toNat (id % 8)
        | none => false)
  inItems && bit

/-- No delete of an item stands in a visible side list. -/
def notDeleted (side : List SideEntry) (id : Nat) : Bool := !side.any fun e => !e.insert && e.id == id

/-- The visible inserts of a side list. -/
def sideInserts (side : List SideEntry) : List SideEntry := side.filter fun e => e.insert && notDeleted side e.id

/-! ## The walk (R372) -/

/-- (key, ID) order. -/
def before (k1 i1 k2 i2 : Nat) : Bool := decide (k1 < k2) || (k1 == k2 && decide (i1 < i2))

/-- An entry put into the candidate queue of at most n entries. -/
def qPut (n : Nat) (e : QEnt) (q : List QEnt) : List QEnt :=
  ((q.takeWhile fun x => !before e.key e.id x.key x.id) ++ [e] ++ q.dropWhile fun x => !before e.key e.id x.key x.id).take n

/-- An entry put into the allowed list of at most n entries. -/
def aPut (n h id : Nat) (a : List (Nat × Nat)) : List (Nat × Nat) :=
  ((a.takeWhile fun x => !before h id x.1 x.2) ++ [(h, id)] ++ a.dropWhile fun x => !before h id x.1 x.2).take n

/-- The entry points nearest to a sketch. -/
def nearestEps (x : IxHdr) (qs n : Nat) : List (Nat × Nat) :=
  ((x.eps.map fun e => (sketchDist qs e.2, e.1)).mergeSort fun a b => !before b.1 b.2 a.1 a.2).take n

/-- What reading node `e` does to the candidate queue: it moves under its own distance, and its unseen neighbours join under it. -/
def expand (qlen qs n : Nat) (readIds : List Nat) (e : QEnt) (nd : INode) (q : List QEnt) : List QEnt :=
  let h := sketchDist qs nd.sketch
  nd.nbrs.foldl (fun (q : List QEnt) m =>
    if decide (n ≤ m) || m == e.id || (q.any fun x => x.id == m) || readIds.contains m then q
    else qPut qlen { key := h, id := m, read := false } q) (qPut qlen { key := h, id := e.id, read := true } q)

/-- consider() of R372. -/
def Leaf.consider (l : Leaf) (q : Query) (h id : Nat) : Query :=
  if l.allowedBy q id && notDeleted q.side id then { q with allowed := aPut (q.fld 10 2) h id q.allowed } else q

/-- The first unread entry. -/
def Query.next (q : Query) : Option QEnt := q.queue.find? fun e => !e.read

/-- The walk ends when it has made MAX_HOPS hops or nothing unread is left; the re-rank then starts. -/
def Query.walkEnd (q : Query) : Query :=
  if q.phase = .walk ∧ (q.fld 6 2 ≤ q.hops ∨ q.next = none) then
    { q with phase := .rank, hopLimit := decide (q.fld 6 2 ≤ q.hops), todo := q.allowed.map (·.2) }
  else q

/-- The seeding of a walk. -/
def Leaf.walkSeed (l : Leaf) (q : Query) : Query :=
  let q1 := { q with
    queue := (nearestEps q.ix q.sketch (q.fld 8 1)).foldl (fun a e => qPut (q.fld 4 2) { key := e.1, id := e.2, read := false } a) [] }
  ((sideInserts q.side).foldl (fun (a : Query) e => l.consider a (sketchDist q.sketch e.sketch) e.id) q1).walkEnd

/-! ## Reads of index codewords (R390) -/

/-- BADCW_CNT and BADCW_FULL show the table. -/
def Leaf.showBadcw (l : Leaf) : Leaf := l.put Fld.SRCH_BADCW_CNT_COUNT l.srch.bad.length

/-- A read of the codeword at an address by a query: false when it is unreadable. -/
def Leaf.srchRead (addr : Nat) (blind : Bool) (r : ReadOutcome) (l : Leaf) : Bool × Leaf :=
  let a := addr / 4096 * 4096
  if l.srch.bad.contains a then (false, if blind then l.bump 12 6 else l.bump 14 16)
  else
    match (if l.mem.lost.contains a then none else r.primary) with
    | some lvl =>
      if blind then (true, l.bump 12 5)
      else
        let l1 := if lvl = 0 then l else l.bump 14 (7 + min 8 lvl)
        (true, if 5 ≤ lvl then { l1 with mem := { l1.mem with refresh := l1.mem.refresh ++ [flashPage a] } } else l1)
    | none =>
      if blind then (false, l.bump 12 6)
      else
        let l1 := if l.srch.badLog.contains a then l
          else (l.memError 0x05 a 0xFFFF (if l.mem.lost.contains a then 0 else 8) 0 0).setSrch { l.srch with badLog := l.srch.badLog ++ [a] }
        let l2 := if l1.srch.bad.length < 64 then (l1.setSrch { l1.srch with bad := l1.srch.bad ++ [a] }).showBadcw
          else l1.putB Fld.SRCH_STAT_BADCW_FULL true
        (false, l2.raise 0x08F)

/-! ## Re-ranking and scanning (R373, R374) -/

/-- An item ranked by its descriptor; one with a NaN is left out and counted. -/
def Leaf.rankOne (q : Query) (id : Nat) (d : List Byte) (l : Leaf) : Query × Leaf :=
  if descNan d then (q, if q.blind then l else l.bump 14 17) else ({ q with ranked := q.ranked ++ [(exactD q.desc d, id)] }, l)

/-- Leading items of the side list are ranked without a flash read; then the query waits for a read or is done. -/
def Leaf.rankSide : Nat → Query → Leaf → Query × Leaf
  | 0, q, l => (q, l)
  | n + 1, q, l =>
    match q.phase, q.todo with
    | .rank, [] => ({ q with phase := .done }, l)
    | .rank, id :: t =>
      match q.side.find? fun e => e.insert && e.id == id with
      | some e =>
        let r := l.rankOne { q with todo := t } id e.desc
        Leaf.rankSide n r.1 r.2
      | none => (q, l)
    | _, _ => (q, l)

/-- The end of a scan's range. -/
def Query.scanEnd (q : Query) : Nat := min q.ix.n (q.fld 32 8 + q.fld 40 8)

/-- A scan that has passed its graph items goes on to the visible inserts of its range. -/
def Leaf.scanSide (l : Leaf) (q : Query) : Query :=
  if q.phase = .scan ∧ q.scanEnd ≤ q.scanAt then
    let ids := ((sideInserts q.side).map (·.id)).filter fun i =>
      decide (q.fld 32 8 ≤ i) && decide (i < q.fld 32 8 + q.fld 40 8) && l.allowedBy q i
    { q with phase := .rank, todo := ids }
  else q

/-- A query after its work has moved: a walk or scan that has ended turns to ranking, and ranking goes on as far as it can. -/
def Leaf.settleQuery (q : Query) (l : Leaf) : Query × Leaf :=
  let q1 := l.scanSide q.walkEnd
  l.rankSide (q1.todo.length + 1) q1 |> fun f => f

/-- One codeword read of a query completes (R372 to R374). -/
def Leaf.queryRead (q : Query) (r : ReadOutcome) (l : Leaf) : Query × Leaf :=
  let cnt (m : Leaf) (i : Nat) : Leaf := if q.blind then m else m.bump 14 i
  match q.phase with
  | .walk =>
    match q.next with
    | none => l.settleQuery q
    | some e =>
      let a := l.srchRead (q.ix.nodeAddr e.id) q.blind r
      let l1 := cnt (cnt a.2 6) 7
      let ids := q.readIds ++ [e.id]
      let q1 := { q with hops := q.hops + 1, reads := q.reads + 1, readIds := ids, queue := q.queue.filter fun x => x != e }
      if a.1 then
        let nd := l1.inode q.ix e.id
        let q2 := if nd.deleted then q1 else l1.consider q1 (sketchDist q.sketch nd.sketch) e.id
        l1.settleQuery { q2 with queue := expand (q.fld 4 2) q.sketch q.ix.n ids e nd q1.queue }
      else l1.settleQuery { q1 with poison := true }
  | .rank =>
    match q.todo with
    | [] => l.settleQuery q
    | id :: t =>
      let a := l.srchRead (q.ix.descAddr id) q.blind r
      let l1 := cnt a.2 7
      let q1 := { q with todo := t, reads := q.reads + 1 }
      if a.1 then
        let b := l1.rankOne q1 id (l1.idesc q.ix id)
        b.2.settleQuery b.1
      else l1.settleQuery { q1 with poison := true }
  | .scan =>
    let id := q.scanAt
    if q.scanDesc then
      let a := l.srchRead (q.ix.descAddr id) q.blind r
      let q1 := { q with scanAt := id + 1, scanDesc := false }
      let l1 := cnt a.2 7
      if a.1 then
        let b := l1.rankOne q1 id (l1.idesc q.ix id)
        b.2.settleQuery b.1
      else l1.settleQuery { q1 with poison := true }
    else
      let a := l.srchRead (q.ix.nodeAddr id) q.blind r
      let l1 := cnt a.2 7
      if a.1 then
        let take := !(l1.inode q.ix id).deleted && notDeleted q.side id && l1.allowedBy q id
        l1.settleQuery (if take then { q with scanDesc := true } else { q with scanAt := id + 1 })
      else l1.settleQuery { q with scanAt := id + 1, poison := true }
  | _ => (q, l)

/-! ## Result blocks (R378) -/

/-- An empty slot. -/
def emptySlot : List Byte := leBytes 5 noItem ++ leBytes 1 0 ++ leBytes 2 0xFFFF ++ leBytes 8 0

/-- A result block of n slots. -/
def resultBlock (n status s hops reads flags : Nat) (slots : List (List Byte)) : List Byte :=
  padTo 32 (leBytes 2 slots.length ++ leBytes 2 status ++ leBytes 4 0 ++ leBytes 8 s ++ leBytes 4 hops ++ leBytes 4 reads ++ leBytes 1 flags)
    ++ slots.flatten ++ (List.replicate (n - slots.length) emptySlot).flatten

/-- A reported item's slot. -/
def Leaf.resultSlot (l : Leaf) (q : Query) (r : Nat × Nat) : List Byte :=
  let e := q.side.find? fun e => e.insert && e.id == r.2
  let tag := match e with | some e => e.tag | none => (l.inode q.ix r.2).tag
  leBytes 5 r.2 ++ leBytes 1 (b2n e.isSome) ++ leBytes 2 (min 0xFFFE (r.1 / 2 ^ q.fld 9 1)) ++ leBytes 8 tag

/-- The status and the block of a finished query, with n slots. -/
def Leaf.queryBlock (l : Leaf) (n : Nat) (q : Query) : Nat × List Byte :=
  if q.phase = .invalid then (0x0B, resultBlock n 0x0B q.s 0 0 0 [])
  else
    let top := (q.ranked.mergeSort fun a b => !before b.1 b.2 a.1 a.2).take q.k
    let st := if q.poison then 0x09 else if top.length < q.k then 0x01 else 0x00
    let reads := if q.fld 1 1 = 1 then Config.scanReads q.ix.n (q.fld 32 8) (q.fld 40 8) % 2 ^ 32 else q.reads
    (st, resultBlock n st q.s q.hops reads (b2n q.poison + 2 * b2n q.hopLimit) (top.map (l.resultSlot q)))

/-! ## Contexts (R388) -/

/-- Free contexts of engine e. -/
def Leaf.freeCtx (l : Leaf) (e : Nat) : Nat := 256 - (l.srch.ctxs.filter fun c => c.1 / 256 == e).length

/-- The registers that show contexts and admitted queries. -/
def Leaf.showCtx (l : Leaf) : Leaf :=
  let l1 := (List.range 8).foldl (fun m e => m.put (Fld.SRCH_ENG_FREE e) (m.freeCtx e)) l
  let l2 := l1.put Fld.SRCH_CTX_FREE_FREE (2048 - l1.srch.ctxs.length)
  (List.range 4).foldl (fun m x =>
    m.put (Fld.SRCH_IDX_ACTIVE_COUNT x) (m.srch.ctxs.filter fun c => c.2.x == x && c.2.phase != .invalid).length) l2

/-- The engine with the most free contexts among those beside an index's channels; the lower number wins a tie. -/
def Leaf.bestEngine (l : Leaf) (chans : List Nat) : Option Nat :=
  (((List.range 8).filter fun e => chans.contains e && decide (0 < l.freeCtx e)).foldl
    (fun (b : Option Nat) e => match b with
      | none => some e
      | some x => if l.freeCtx x < l.freeCtx e then some e else some x) none)

/-- The registers of a slot. -/
def Leaf.showSlot (x : Nat) (l : Leaf) : Leaf :=
  match l.idxSlot x with
  | none =>
    (((((l.putB (Fld.SRCH_IDX_STAT_ATTACHED x) false).putB (Fld.SRCH_IDX_STAT_DETACHING x) false).putB
      (Fld.SRCH_IDX_STAT_SWAP_PEND x) false).wr64 (Reg.SRCH_IDX_N_LO x) (Reg.SRCH_IDX_N_HI x) 0).wr64 (Reg.SRCH_IDX_SEQ_LO x)
      (Reg.SRCH_IDX_SEQ_HI x) 0).wr64 (Reg.SRCH_IDX_NEXT_LO x) (Reg.SRCH_IDX_NEXT_HI x) 0 |>.put (Fld.SRCH_IDX_SIDE_CNT_COUNT x) 0
  | some s =>
    (((((l.putB (Fld.SRCH_IDX_STAT_ATTACHED x) true).putB (Fld.SRCH_IDX_STAT_DETACHING x) s.detaching).putB
      (Fld.SRCH_IDX_STAT_SWAP_PEND x) (l.srch.swap.contains x)).wr64 (Reg.SRCH_IDX_N_LO x) (Reg.SRCH_IDX_N_HI x) s.hdr.n).wr64
      (Reg.SRCH_IDX_SEQ_LO x) (Reg.SRCH_IDX_SEQ_HI x) s.seq).wr64 (Reg.SRCH_IDX_NEXT_LO x) (Reg.SRCH_IDX_NEXT_HI x) s.next
      |>.put (Fld.SRCH_IDX_SIDE_CNT_COUNT x) s.side.length

/-- A detaching slot without admitted queries is free again. -/
def Leaf.finishDetach (l : Leaf) : Leaf :=
  (List.range 4).foldl (fun (m : Leaf) x =>
    match m.idxSlot x with
    | some s =>
      if s.detaching && !(m.srch.ctxs.any fun c => c.2.x == x && c.2.phase != .invalid) then
        (m.setSrch { m.srch with slots := alDel x m.srch.slots, swap := m.srch.swap.filter (· != x) }).showSlot x
      else m
    | none => m) l

/-- A context released. -/
def Leaf.releaseCtx (ctx : Nat) (l : Leaf) : Leaf := ((l.setSrch { l.srch with ctxs := alDel ctx l.srch.ctxs }).showCtx).finishDetach

/-- The current sequence number of a slot. -/
def Leaf.idxSeq (l : Leaf) (x : Nat) : Nat := match l.idxSlot x with | some s => s.seq | none => 0

/-- A query as it is admitted (R377, R379, R382). -/
def Leaf.newQuery (o : QOwner) (r : List Byte) (kmax s : Nat) (l : Leaf) : Query :=
  let x := leAt r 0 1 % 4
  let host : Bool := match o with | .host _ => true | .row _ _ _ _ => false
  match l.idxOpen x with
  | none => { owner := o, rec' := r, x := x, ix := {}, side := [], s := s, start := l.count, phase := .invalid }
  | some sl =>
    let q : Query := { owner := o, rec' := r, x := x, ix := sl.hdr, side := sl.side.filter fun e => decide (e.seq ≤ s), s := s,
                       start := l.count, phase := .walk }
    if l.queryBad host kmax r then { q with phase := .invalid }
    else if leAt r 1 1 = 1 then { q with phase := .scan, scanAt := leAt r 32 8 }
    else l.walkSeed q

/-- A query placed in a context. -/
def Leaf.placeQuery (ctx : Nat) (q : Query) (l : Leaf) : Leaf :=
  let r := l.settleQuery q
  let l1 := (r.2.setSrch { r.2.srch with ctxs := alSet ctx r.1 r.2.srch.ctxs }).showCtx
  if q.blind then l1.bump 14 18 else l1.bump 14 0

/-- KMAX of a source. -/
def Leaf.kmax (l : Leaf) (q : Nat) : Nat := l.get (Fld.SRCH_QSRC_RES_KMAX q)

/-- The channels that a record's index spans; all for a record without one. -/
def Leaf.recChans (l : Leaf) (r : List Byte) : List Nat :=
  match l.idxOpen (leAt r 0 1 % 4) with | some s => s.hdr.chans | none => List.range 8

/-- A list without its first element equal to x. -/
def dropOne {α : Type} [DecidableEq α] (x : α) (l : List α) : List α := dropFirst (fun y => decide (y = x)) l

/-- A blind run has read the side list of its query's slot (R343). -/
def Leaf.noteSide (q x s : Nat) (l : Leaf) : Leaf :=
  match l.stages.find? fun e => e.2.id == l.get (Fld.SRCH_QSRC_CFG_STAGE q) with
  | some e =>
    match l.runOf true e.1 with
    | some r => l.setRun true e.1 { r with vers := r.vers ++ [(versSide x, s)] }
    | none => l
  | none => l

/-- QUERY_ADMIT (R388): the first waiting row of the lowest source, then the first host command, that the rules place on the engine
of context ctx. -/
def Leaf.queryAdmit (ctx : Nat) (l : Leaf) : Leaf :=
  if decide (2048 ≤ ctx) || (alGet l.srch.ctxs ctx).isSome then l
  else
    let heads := (List.range 4).filterMap fun q => l.srch.rows.find? fun r => r.q == q
    match heads.find? fun r => l.bestEngine (l.recChans r.rec') == some (ctx / 256) with
    | some r =>
      let x := leAt r.rec' 0 1 % 4
      let s := if r.blind then l.idxSeq x else r.s
      let q := l.newQuery (.row r.q r.tick r.row r.blind) r.rec' (l.kmax r.q) s
      let l1 := (l.setSrch { l.srch with rows := dropOne r l.srch.rows }).placeQuery ctx q
      if r.blind then l1.noteSide r.q x s else l1
    | none =>
      match l.srch.host with
      | [] => l
      | c :: t =>
        let r := l.dramRead c.addr0 352
        if heads.isEmpty || l.bestEngine (l.recChans r) == some (ctx / 256) then
          if l.bestEngine (l.recChans r) == some (ctx / 256) then
            let q := l.newQuery (.host c) r 256 (l.idxSeq (leAt r 0 1 % 4))
            (l.setSrch { l.srch with host := t }).placeQuery ctx q
          else l
        else l

/-- WALK_READ_DONE. -/
def Leaf.walkRead (ctx : Nat) (r : ReadOutcome) (l : Leaf) : Leaf :=
  match alGet l.srch.ctxs ctx with
  | none => l
  | some q => let a := l.queryRead q r; a.2.setSrch { a.2.srch with ctxs := alSet ctx a.1 a.2.srch.ctxs }

/-! ## Completion (R379, R380, R383) -/

/-- The counter of a completion status. -/
def statusIndex (st : Nat) : Nat := if st = 0 then 1 else if st = 1 then 2 else if st = 9 then 3 else if st = 0x0B then 4 else 5

/-- A row's block recorded in its delivery. -/
def Leaf.fillRow (q tick row : Nat) (blind : Bool) (st : Nat) (b : List Byte) (l : Leaf) : Leaf :=
  l.setSrch { l.srch with deliv := l.srch.deliv.map fun d =>
    if d.q == q && d.tick == tick && d.blind == blind then { d with rows := modAt d.rows row fun r => { r with block := some (st, b) } }
    else d }

/-- A host query ends: its block and its completion record are written. -/
def Leaf.hostQueryEnd (c : HostCmd) (q : Query) (st : Nat) (b : List Byte) (l : Leaf) : Leaf :=
  let l1 := if q.fld 56 8 % 64 = 0 ∧ q.fld 56 8 + b.length ≤ softEnd then l.store (q.fld 56 8) b else l
  let l2 := l1.setCmds (dropOne c l1.host.cmds)
  (l2.cmdRecord c st 0x10 (q.fld 48 8) (crc64 b)).bump 14 (statusIndex st)

/-- The slots of a host query's block: K, at most 256. -/
def Query.hostSlots (q : Query) : Nat := min 256 q.k

/-- QUERY_COMPLETE: a query that has finished its work ends. -/
def Leaf.queryComplete (ctx : Nat) (l : Leaf) : Leaf :=
  match alGet l.srch.ctxs ctx with
  | none => l
  | some q =>
    if q.phase = .done ∨ q.phase = .invalid then
      match q.owner with
      | .host c => let b := l.queryBlock q.hostSlots q; (l.hostQueryEnd c q b.1 b.2).releaseCtx ctx
      | .row s tick row blind =>
        let b := l.queryBlock (l.kmax s) q
        let l1 := (l.fillRow s tick row blind b.1 b.2).releaseCtx ctx
        if blind then l1 else l1.bump 14 (statusIndex b.1)
    else l

/-- QUERY_DEADLINE (R380): a host query that runs DEADLINE_US after its admission is abandoned. -/
def Leaf.queryDeadline (ctx : Nat) (l : Leaf) : Leaf :=
  match alGet l.srch.ctxs ctx with
  | none => l
  | some q =>
    match q.owner with
    | .host c =>
      if q.fld 12 4 ≠ 0 ∧ q.start + countsOfUs (q.fld 12 4) ≤ l.count ∧ q.phase ≠ .done ∧ q.phase ≠ .invalid then
        (l.hostQueryEnd c q 0x0C (resultBlock q.hostSlots 0x0C q.s 0 0 0 [])).releaseCtx ctx
      else l
    | .row _ _ _ _ => l

/-- A host search dropped without a record: ABORT and queue disabling write it (R495, R499). -/
def Leaf.srchDrop (c : HostCmd) (l : Leaf) : Leaf :=
  let l1 := l.setSrch { l.srch with host := l.srch.host.filter (· != c) }
  match l1.srch.ctxs.find? fun e => e.2.owner == .host c with
  | some e => l1.releaseCtx e.1
  | none => l1

/-! ## Query sources (R381, R382) -/

/-- A source is enabled, and its stage. -/
def Leaf.srcOn (l : Leaf) (q : Nat) : Bool := l.bit (Fld.SRCH_QSRC_CFG_ENABLE q)
def Leaf.srcStage (l : Leaf) (q : Nat) : Option (Nat × StageDesc) :=
  l.stages.find? fun e => e.2.id == l.get (Fld.SRCH_QSRC_CFG_STAGE q)

/-- The rows a stage's output gives. -/
def queryRows (toks : List (List Byte)) : List (List Byte) := (chunks 352 toks.flatten).take 256

/-- The rows of the output of a finished run join the queue of source q (R382). -/
def Leaf.feedRun (q tick : Nat) (blind : Bool) (x : StageRun) (l : Leaf) : Leaf :=
  let rows := queryRows (x.full.getD (l.get (Fld.SRCH_QSRC_CFG_PORT q)) [])
  let empty := resultBlock (l.kmax q) 0 0 0 0 0 []
  let d : Deliv := { q := q, tick := tick, blind := blind, rows := rows.map fun r =>
    { capture := leAt r 48 8, block := if leAt r 2 2 = 0 then some (0, empty) else none } }
  let w := ((List.range rows.length).zip rows).filter fun e => leAt e.2 2 2 != 0
  let ws := w.map fun e => ({ q := q, tick := tick, row := e.1, blind := blind, s := (alGet l.srch.latch (leAt e.2 0 1 % 4)).getD 0,
                              rec' := e.2 } : WaitRow)
  l.setSrch { l.srch with rows := l.srch.rows ++ ws, deliv := l.srch.deliv ++ [d] }

/-- A delivery of a tick exists already. -/
def Leaf.fed (l : Leaf) (q tick : Nat) : Bool := l.srch.deliv.any fun d => d.q == q && d.tick == tick

/-- Sources whose stage has finished get their rows. -/
def Leaf.feedSources (l : Leaf) : Leaf :=
  (List.range 4).foldl (fun (m : Leaf) q =>
    match m.srcStage q with
    | some (ix, _) =>
      if !m.srcOn q then m
      else
        let m1 := match m.runOf false ix with
          | some x => if x.finished && !x.poisoned && !m.fed q m.tickNum then m.feedRun q m.tickNum false x else m
          | none => m
        match m1.runOf true ix with
        | some x => if x.finished && !x.poisoned && !m1.fed q (m1.tickNum + 1) then m1.feedRun q (m1.tickNum + 1) true x else m1
        | none => m1
    | none => m) l

/-- The blind queries of a stage confirmed or released with it (R340, R341). -/
def Leaf.confirmRows (id : Nat) (l : Leaf) : Leaf :=
  let mine (q : Nat) : Bool := l.srcOn q && l.get (Fld.SRCH_QSRC_CFG_STAGE q) == id
  l.setSrch { l.srch with
    rows := l.srch.rows.map fun r => if mine r.q then { r with blind := false } else r
    deliv := l.srch.deliv.map fun d => if mine d.q then { d with blind := false } else d
    ctxs := l.srch.ctxs.map fun c => match c.2.owner with
      | .row q t r _ => if mine q then (c.1, { c.2 with owner := .row q t r false }) else c
      | .host _ => c }
def Leaf.releaseRows (id : Nat) (l : Leaf) : Leaf :=
  let mine (q : Nat) (b : Bool) : Bool := b && l.srcOn q && l.get (Fld.SRCH_QSRC_CFG_STAGE q) == id
  let dead := l.srch.ctxs.filter fun c => match c.2.owner with | .row q _ _ b => mine q b | .host _ => false
  let l1 := l.setSrch { l.srch with rows := l.srch.rows.filter fun r => !mine r.q r.blind, deliv := l.srch.deliv.filter fun d => !mine d.q d.blind }
  dead.foldl (fun (m : Leaf) c => ((m.releaseCtx c.1).bump 12 17).bump 14 19) l1

/-- A blind query of the stage read an uncorrectable codeword (R382). -/
def Leaf.blindQueryPoison (id : Nat) (l : Leaf) : Bool :=
  l.srch.ctxs.any (fun c => match c.2.owner with
    | .row q _ _ b => b && c.2.poison && l.get (Fld.SRCH_QSRC_CFG_STAGE q) == id
    | .host _ => false)
  || l.srch.deliv.any fun d => d.blind && l.get (Fld.SRCH_QSRC_CFG_STAGE d.q) == id && d.rows.any fun r =>
    match r.block with | some (st, _) => st == 9 | none => false

/-- The highest precedence of Table 19.7 among statuses. -/
def precedence (st : Nat) : Nat :=
  match st with
  | 0x00 => 15 | 0x01 => 14 | 0x02 => 12 | 0x03 => 11 | 0x04 => 13 | 0x05 => 10 | 0x06 => 9 | 0x07 => 8 | 0x08 => 7 | 0x09 => 6
  | 0x0A => 5 | 0x0B => 4 | 0x0C => 3 | 0x0D => 2 | _ => 1
def worseOf (a b : Nat) : Nat := if precedence b < precedence a then b else a

/-- A record that step 5 writes for a source: source, tick, status, earliest CAPTURE, digest. -/
structure SrcRecord where
  q : Nat
  tick : Nat
  status : Nat
  oldest : Option Nat
  digest : Nat
  bytes : Nat
  deriving DecidableEq, Repr

/-- The end of tick k at step 1: a source whose stage did not finish delivers empty rows (R383). -/
def Leaf.closeSources (k : Nat) (l : Leaf) : Leaf :=
  (List.range 4).foldl (fun (m : Leaf) q =>
    if !m.srcOn q || m.fed q k then m
    else
      let n := match m.srcStage q with
        | some (_, s) => match s.desc 1 (m.get (Fld.SRCH_QSRC_CFG_PORT q)) with | some d => min 256 (d.dims.getD 1 0) | none => 0
        | none => 0
      let row : DRow := { block := some (0, resultBlock (m.kmax q) 0 0 0 0 0 []) }
      m.setSrch { m.srch with deliv := m.srch.deliv ++ [{ q := q, tick := k, blind := false, rows := List.replicate n row }] }) l

/-- DELIVER as it acts. -/
def Leaf.deliver' (l : Leaf) (q : Nat) : Nat := clampNat 1 8 (l.get (Fld.SRCH_QSRC_CFG_DELIVER q))

/-- A delivery made at step 4 (R383): rows without a result are abandoned with TIMEOUT. -/
def Leaf.deliverOne (a : List SrcRecord × Leaf) (d : Deliv) : List SrcRecord × Leaf :=
  let l := a.2
  let live := l.srch.ctxs.filter fun c => match c.2.owner with | .row q t _ _ => q == d.q && t == d.tick | .host _ => false
  let l0 := l.setSrch { l.srch with
    deliv := dropOne d l.srch.deliv, rows := l.srch.rows.filter fun r => !(r.q == d.q && r.tick == d.tick) }
  let l1 := live.foldl (fun (m : Leaf) c => m.releaseCtx c.1) l0
  let late := (d.rows.filter fun r => r.block.isNone).length
  let km := l1.kmax d.q
  let blocks := d.rows.map fun r => r.block.getD (0x0C, resultBlock km 0x0C 0 0 0 0 [])
  let bs := padTo 64 (leBytes 8 d.tick ++ leBytes 4 d.rows.length) ++ blocks.flatMap fun b => padTo (32 + 16 * km) b.2
  let l2 := (l1.putObj (l1.get (Fld.SRCH_QSRC_RES_RES_OBJ d.q)) bs).countBy 14 5 late
  let st := blocks.foldl (fun s b => worseOf s b.1) 0
  (a.1 ++ [{ q := d.q, tick := d.tick, status := st, oldest := d.rows.foldl (fun o r => earliest o (some r.capture)) none,
             digest := crc64 bs, bytes := bs.length }], l2)

/-- Step 4 of the boundary that ends tick k: the deliveries that are due, the records of step 5 for them (R383). -/
def Leaf.srchStep4 (k : Nat) (l : Leaf) : List SrcRecord × Leaf :=
  let due := l.srch.deliv.filter fun d => decide (d.tick + l.deliver' d.q ≤ k) && !d.blind
  due.foldl Leaf.deliverOne ([], l)

/-- The sequence numbers latched at a boundary (R382). -/
def Leaf.latchSeqs (l : Leaf) : Leaf := l.setSrch { l.srch with latch := l.srch.slots.map fun s => (s.1, s.2.seq) }

/-- A source may name a stage, port, object and KMAX (R381). -/
def Leaf.srcFit (stage port obj km : Nat) (l : Leaf) : Bool :=
  match l.stages.find? fun e => e.2.id == stage with
  | none => false
  | some (_, s) =>
    match s.desc 1 port, l.obj obj with
    | some d, some o =>
      let rows := d.dims.getD 1 0
      s.commit && d.fmt == 0x0E && d.dims.getD 0 0 == 352 && decide (rows ≤ 256) && o.place == 0 && !o.writable
        && decide (64 + rows * (32 + 16 * km) ≤ o.size) && (l.stagesNaming 3 obj).isEmpty && decide (1 ≤ km) && decide (km ≤ 256)
    | _, _ => false

/-- A write of SRCH_QSRCq_CFG or SRCH_QSRCq_RES (R381). -/
def Leaf.writeQsrc (q : Nat) (res : Bool) (w : Nat) (l : Leaf) : Leaf :=
  let a := if res then Reg.SRCH_QSRC_RES q else Reg.SRCH_QSRC_CFG q
  let l1 := l.swWrite a w
  let fit := l1.srcFit (l1.get (Fld.SRCH_QSRC_CFG_STAGE q)) (l1.get (Fld.SRCH_QSRC_CFG_PORT q)) (l1.get (Fld.SRCH_QSRC_RES_RES_OBJ q)) (l1.kmax q)
  if l.ticking || (l1.srcOn q && !fit) then l.flagEvent Fld.SRCH_STAT_CFG_REFUSED 0x090 else l1

/-! ## The side list (R384, R385) -/

/-- SRCH_SIDE_CMD.GO; one written while a command runs does nothing. -/
def Leaf.sideGo (l : Leaf) : Leaf :=
  if l.bit Fld.SRCH_SIDE_STAT_BUSY then l
  else
    (l.setSrch { l.srch with side := some (l.get Fld.SRCH_SIDE_CMD_OP, l.get Fld.SRCH_SIDE_CMD_INDEX,
      l.rd64 Reg.SRCH_SIDE_SRC_LO Reg.SRCH_SIDE_SRC_HI / 64 * 64, l.rd64 Reg.SRCH_SIDE_ID_LO Reg.SRCH_SIDE_ID_HI % 2 ^ 40) }).putB
      Fld.SRCH_SIDE_STAT_BUSY true
def Leaf.writeSideCmd (w : Nat) (l : Leaf) : Leaf :=
  let l1 := l.swWrite Reg.SRCH_SIDE_CMD w
  if bitOf w 31 then l1.sideGo else l1

/-- An item is visible at the slot's current sequence number (R371). -/
def Leaf.visibleNow (l : Leaf) (s : IdxSlot) (id : Nat) : Bool :=
  notDeleted s.side id && ((decide (id < s.hdr.n) && !(l.inode s.hdr id).deleted) || s.side.any fun e => e.insert && e.id == id)

/-- The bytes of a side-list entry in DRAM. -/
def SideEntry.bytes (e : SideEntry) : List Byte :=
  padTo 384 (leBytes 8 e.seq ++ leBytes 1 (if e.insert then 1 else 2) ++ leBytes 7 0 ++ leBytes 5 e.id ++ leBytes 3 0 ++ leBytes 8 e.tag
    ++ leBytes 32 e.sketch ++ padTo 256 e.desc)

/-- An entry that succeeds: SEQ, the list in SRAM and in DRAM. DESIGN CHOICE: the entry of sequence number s stands at place
(s − 1) mod 16,384 of the DRAM region. -/
def Leaf.sideAdd (x : Nat) (s : IdxSlot) (e : SideEntry) (next : Nat) (l : Leaf) : Leaf :=
  let base := l.rd64 (Reg.SRCH_IDX_SIDE_LO x) (Reg.SRCH_IDX_SIDE_HI x) / 64 * 64
  let l1 := l.store (base + 384 * ((e.seq - 1) % 16384)) e.bytes
  ((l1.setIdx x { s with side := s.side ++ [e], seq := e.seq, next := next }).showSlot x).wr64 Reg.SRCH_SIDE_ID_LO Reg.SRCH_SIDE_ID_HI e.id

/-- The command carried out: its status. -/
def Leaf.sideApply (op x src id : Nat) (l : Leaf) : Nat × Leaf :=
  match l.idxOpen x with
  | none => (0x0B, l)
  | some s =>
    if 16384 ≤ s.side.length then (0x0B, l.putB (Fld.SRCH_IDX_STAT_SIDE_FULL x) true)
    else if op = 1 then
      let r := l.dramRead src 320
      let d := sliceBytes r 32 256
      if descNan d then (0x0B, l)
      else (0, l.sideAdd x s { seq := s.seq + 1, insert := true, id := s.next, tag := leAt r 288 8, sketch := leAt r 0 32, desc := d } (s.next + 1))
    else if op = 2 then
      if l.visibleNow s id then (0, l.sideAdd x s { seq := s.seq + 1, insert := false, id := id } s.next) else (0x0B, l)
    else (0x0B, l)

/-- SIDE_CMD_DONE. -/
def Leaf.sideDone (l : Leaf) : Leaf :=
  match l.srch.side with
  | none => l
  | some (op, x, src, id) =>
    let a := l.sideApply op x src id
    let l1 := a.2.setSrch { a.2.srch with side := none }
    ((l1.putB Fld.SRCH_SIDE_STAT_BUSY false).put Fld.SRCH_SIDE_STAT_STATUS a.1).flagEvent Fld.SRCH_SIDE_STAT_DONE 0x088

/-! ## Extents on flash -/

/-- An extent: channel, first offset, bytes. -/
abbrev Extent := Nat × Nat × Nat

/-- Two extents share a byte. -/
def overlap (a b : Extent) : Bool := a.1 == b.1 && decide (a.2.1 < b.2.1 + b.2.2) && decide (b.2.1 < a.2.1 + a.2.2)

/-- The boot partition (R193). -/
def bootExtents : List Extent := [(0, 0, 2 ^ 28), (1, 0, 2 ^ 28)]

/-- The extents of an index. -/
def IxHdr.extents (x : IxHdr) : List Extent :=
  (x.at' / 2 ^ 37, x.at' % 2 ^ 37, 4096) :: x.chans.flatMap fun c => [(c, x.nodeOfs, x.nodeLen), (c, x.descOfs, x.descLen)]

/-- The extents of an object's flash copies (R194, R195). -/
def ObjDesc.extents (o : ObjDesc) : List Extent :=
  let one (b : Nat) : Extent := (b / 2 ^ 37 % 8, b % 2 ^ 37, o.size)
  (if o.primary = 0 then []
   else if o.striped then
     (List.range 8).map fun c => (c, o.primary % 2 ^ 37, ((o.size + 65535) / 65536 + 7) / 8 * 65536)
   else [one o.primary]) ++ (if o.mirrored then [one o.mirror] else [])

/-- The flash extents that an index may not touch: boot partition, other attached indexes, bindings of the glazed image. -/
def Leaf.takenExtents (l : Leaf) (except : Option Nat) : List Extent :=
  bootExtents ++ ((l.srch.slots.filter fun s => some s.1 != except).flatMap fun s => s.2.hdr.extents)
    ++ l.objects.flatMap fun o => o.2.extents

/-- Some extent of one list overlaps one of the other. -/
def anyOverlap (a b : List Extent) : Bool := a.any fun x => b.any fun y => overlap x y

/-! ## Attaching (R392) -/

/-- A header's MAGIC, VERSION, CRC and fields lie within Table 14.1. -/
def headerOk (addr : Nat) (b : List Byte) : Bool :=
  let f (o n : Nat) := leAt b o n
  f 0 4 == 0x5849504B && f 4 2 == 1 && [1, 2, 4, 8].contains (f 6 1) && decide (f 7 1 < 8) && decide (1 ≤ f 8 8) && decide (f 8 8 ≤ 2 ^ 31)
    && f 16 8 % 16384 == 0 && f 24 8 % 16384 == 0 && decide (f 16 8 < 2 ^ 37) && decide (f 24 8 < 2 ^ 37)
    && decide (1 ≤ f 32 2) && decide (f 32 2 ≤ 64) && f 4088 8 == crc64 (b.take 4088)
    && ((List.range 64).all fun e => decide (e < f 32 2) || (f (64 + 40 * e) 32 == 0 && f (96 + 40 * e) 8 == 0))
    && addr % 2 ^ 37 % 16384 == 0 && decide (addr < 2 ^ 40)

/-- SRCH_IDXx_CTRL.ATTACH; on an attached slot it is refused with INVALID. -/
def Leaf.attach (x : Nat) (l : Leaf) : Leaf :=
  if 4 ≤ x then l
  else if (l.idxSlot x).isSome then l.put (Fld.SRCH_IDX_STAT_STATUS x) 0x0B
  else if l.srch.attach.contains x then l
  else l.setSrch { l.srch with attach := l.srch.attach ++ [x] }

/-- The status that the checks of R392 give, for a header that can be read. -/
def Leaf.attachStatus (l : Leaf) (addr : Nat) (b : List Byte) : Nat :=
  let h := ixHdrOf addr b
  let total := (l.srch.slots.map fun s => s.2.hdr.n).foldl (· + ·) 0
  if !headerOk addr b || (h.eps.any fun e => decide (h.n ≤ e.1)) || anyOverlap h.extents (l.takenExtents none)
      || decide (2 ^ 31 < total + h.n) then 0x0B else 0

/-- ATTACH_DONE: the header is read and checked. -/
def Leaf.attachDone (x : Nat) (r : ReadOutcome) (l : Leaf) : Leaf :=
  if !l.srch.attach.contains x then l
  else
    let addr := l.rd64 (Reg.SRCH_IDX_HDR_LO x) (Reg.SRCH_IDX_HDR_HI x)
    let l0 := l.setSrch { l.srch with attach := l.srch.attach.filter (· != x) }
    let ok := !l0.srch.bad.contains addr && !l0.mem.lost.contains addr && r.primary.isSome
    let l1 := match r.primary with
      | some (n + 1) => if l0.srch.bad.contains addr then l0 else l0.bump 14 (8 + min 7 n)
      | _ => l0
    let b := l1.flashRead addr 4096
    let st := if !ok then 0x09 else l1.attachStatus addr b
    let h := ixHdrOf addr b
    let l2 := if st = 0 then (l1.setIdx x { hdr := h, next := h.n }).showSlot x else l1
    (l2.put (Fld.SRCH_IDX_STAT_STATUS x) st).raise (0x08B + x)

/-- A merge of a slot abandoned. -/
def Leaf.dropMerge (l : Leaf) : Leaf := (l.setSrch { l.srch with merge := none }).putB Fld.SRCH_MRG_STAT_BUSY false

/-- SRCH_IDXx_CTRL.DETACH: no more admissions; the slot detaches with its last query. -/
def Leaf.detach (x : Nat) (l : Leaf) : Leaf :=
  match l.idxSlot x with
  | none => l
  | some s =>
    let l1 := match l.srch.merge with | some m => if m.x = x then l.dropMerge else l | none => l
    let l2 := l1.setSrch { l1.srch with merged := l1.srch.merged.filter fun m => m.1 != x, swap := l1.srch.swap.filter (· != x) }
    ((l2.setIdx x { s with detaching := true, side := [] }).showSlot x).finishDetach

/-! ## Index writes (R391) -/

/-- The extent of a flash write is refused. -/
def Leaf.fwBad (src dst len : Nat) (l : Leaf) : Bool :=
  let o := dst % 2 ^ 37
  decide (len % 16384 ≠ 0) || len == 0 || decide (o % 16384 ≠ 0) || decide (2 ^ 37 < o + len) || decide (2 ^ 40 ≤ dst)
    || decide (softEnd < src + len) || anyOverlap [(dst / 2 ^ 37, o, len)] (l.takenExtents none)

/-- SRCH_FW_CTRL.GO. A refused command ends at once with INVALID. -/
def Leaf.fwGo (l : Leaf) : Leaf :=
  if l.bit Fld.SRCH_FW_STAT_BUSY then l
  else
    let src := l.rd64 Reg.SRCH_FW_SRC_LO Reg.SRCH_FW_SRC_HI
    let dst := l.rd64 Reg.SRCH_FW_DST_LO Reg.SRCH_FW_DST_HI
    let len := l.rd Reg.SRCH_FW_LEN
    if l.fwBad src dst len || l.bit (Fld.MEM_FLASH_WEAR_RO (dst / 2 ^ 37 % 8)) then
      (l.put Fld.SRCH_FW_STAT_STATUS 0x0B).flagEvent Fld.SRCH_FW_STAT_DONE 0x089
    else (l.setSrch { l.srch with fw := some { src := src, dst := dst, len := len } }).putB Fld.SRCH_FW_STAT_BUSY true

/-- Bad-codeword entries and lost markers that a flash write covers are removed. -/
def Leaf.coverFlash (es : List Extent) (l : Leaf) : Leaf :=
  let inE (a : Nat) : Bool := es.any fun e => overlap e (a / 2 ^ 37, a % 2 ^ 37, 4096)
  let l1 := l.setSrch { l.srch with bad := l.srch.bad.filter fun a => !inE a, badLog := l.srch.badLog.filter fun a => !inE a }
  (((l1.dropLost inE).showBadcw)).putB Fld.SRCH_STAT_BADCW_FULL (l1.bit Fld.SRCH_STAT_BADCW_FULL && l1.srch.bad.length == 64)

/-- SRCH_FW_DONE: OK, POISON for an uncorrectable source, INVALID when the channel ran out of spare blocks (R217). -/
def Leaf.fwDone (outs : List WriteOutcome) (l : Leaf) : Leaf :=
  match l.srch.fw with
  | none => l
  | some c =>
    let l0 := l.setSrch { l.srch with fw := none }
    let fin (st : Nat) (m : Leaf) : Leaf :=
      ((m.putB Fld.SRCH_FW_STAT_BUSY false).put Fld.SRCH_FW_STAT_STATUS st).flagEvent Fld.SRCH_FW_STAT_DONE 0x089
    if l0.badRange c.src c.len then fin 0x09 l0
    else
      let l1 := ((List.range outs.length).zip outs).foldl (fun (m : Leaf) e => m.writeFail (c.dst + 16384 * e.1) 0xFFFF e.2) l0
      if outs.any fun w => w.failed && !w.spareLeft then fin 0x0B l1
      else fin 0 ((l1.flashWrite c.dst (l1.dramRead c.src c.len)).coverFlash [(c.dst / 2 ^ 37, c.dst % 2 ^ 37, c.len)])

/-! ## Merging (R386, R387) -/

/-- SRCH_MRG_CTRL.GO; an unattached slot or an unfit target ends with INVALID. -/
def Leaf.mergeGo (l : Leaf) : Leaf :=
  if l.bit Fld.SRCH_MRG_STAT_BUSY then l
  else
    let x := l.get Fld.SRCH_MRG_CTRL_INDEX
    let hdr := l.rd64 Reg.SRCH_MRG_HDR_LO Reg.SRCH_MRG_HDR_HI
    let node := l.rd64 Reg.SRCH_MRG_NODE_LO Reg.SRCH_MRG_NODE_HI
    let desc := l.rd64 Reg.SRCH_MRG_DESC_LO Reg.SRCH_MRG_DESC_HI
    let bad (m : Leaf) : Leaf := (m.put Fld.SRCH_MRG_STAT_STATUS 0x0B).flagEvent Fld.SRCH_MRG_STAT_DONE 0x08A
    match l.idxOpen x with
    | none => bad l
    | some s =>
      let t : IxHdr := { s.hdr with at' := hdr, n := s.next, nodeOfs := node, descOfs := desc }
      if decide (hdr % 2 ^ 37 % 16384 ≠ 0) || decide (2 ^ 40 ≤ hdr) || decide (node % 16384 ≠ 0) || decide (desc % 16384 ≠ 0)
          || decide (2 ^ 37 < node + t.nodeLen) || decide (2 ^ 37 < desc + t.descLen) || decide (2 ^ 31 < s.next)
          || anyOverlap t.extents (l.takenExtents none) then bad l
      else
        let m : MergeRun := { x := x, m := s.seq, n := s.next, hdr := hdr, node := node, desc := desc, pipe := l.get Fld.SRCH_MRG_CTRL_PIPE,
                              qlen := clampNat 32 512 (l.get Fld.SRCH_MRG_CFG_QLEN), hops := max 1 (l.get Fld.SRCH_MRG_CFG_HOPS) }
        (((l.setSrch { l.srch with merge := some m, merged := none }).putB Fld.SRCH_MRG_STAT_BUSY true).wr Reg.SRCH_MRG_PROG 0).wr64
          Reg.SRCH_MRG_SEQ_LO Reg.SRCH_MRG_SEQ_HI s.seq

/-- SRCH_MRG_CTRL.ABORT. -/
def Leaf.mergeAbort (l : Leaf) : Leaf := if l.srch.merge.isSome then l.dropMerge else l

/-- A write of SRCH_MRG_CTRL. DESIGN CHOICE: with both bits written the ABORT comes first. -/
def Leaf.writeMrgCtrl (w : Nat) (l : Leaf) : Leaf :=
  let l1 := l.swWrite Reg.SRCH_MRG_CTRL w
  let l2 := if bitOf w 30 then l1.mergeAbort else l1
  if bitOf w 31 then l2.mergeGo else l2

/-- The walk of step 3: the candidate queue at its end. -/
def Leaf.mergeWalk (x : IxHdr) (qs qlen : Nat) (l : Leaf) : Nat → List Nat → List QEnt → List QEnt
  | 0, _, q => q
  | fuel + 1, ids, q =>
    match q.find? fun e => !e.read with
    | none => q
    | some e =>
      let ids1 := ids ++ [e.id]
      Leaf.mergeWalk x qs qlen l fuel ids1 (expand qlen qs x.n ids1 e (l.inode x e.id) (q.filter fun y => y != e))

/-- The neighbours of a new node. -/
def Leaf.mergeNbrs (x : IxHdr) (m : MergeRun) (qs : Nat) (l : Leaf) : List Nat :=
  let q0 := (nearestEps x qs x.eps.length).foldl (fun a e => qPut m.qlen { key := e.1, id := e.2, read := false } a) []
  (((l.mergeWalk x qs m.qlen m.hops [] q0).filter (·.read)).map (·.id)).take 32

/-- The node that a list of changed nodes, else the old index, gives. -/
def Leaf.mergeNode (x : IxHdr) (new : List (Nat × INode)) (l : Leaf) (i : Nat) : INode :=
  match alGet new i with | some n => n | none => l.inode x i

/-- Step 4 for neighbour y of new node x: the lists as they stand. -/
def Leaf.backLink (ix : IxHdr) (x : Nat) (l : Leaf) (new : List (Nat × INode)) (y : Nat) : List (Nat × INode) :=
  let nx := l.mergeNode ix new x
  let ny := l.mergeNode ix new y
  if ny.nbrs.contains x then new
  else if ny.nbrs.length < 32 then alSet y { ny with nbrs := ny.nbrs ++ [x] } new
  else
    let dist (i : Nat) : Nat := sketchDist ny.sketch (l.mergeNode ix new i).sketch
    let worst := ny.nbrs.foldl (fun (b : Option (Nat × Nat)) i =>
      match b with
      | none => some (dist i, i)
      | some w => if before w.1 w.2 (dist i) i then some (dist i, i) else some w) none
    match worst with
    | some (d, w) =>
      if sketchDist ny.sketch nx.sketch < d then alSet y { ny with nbrs := ny.nbrs.map fun i => if i = w then x else i } new else new
    | none => new

/-- The nodes that differ from the old index's, new ones among them (R386, steps 1 to 4). -/
def Leaf.mergeNodes (s : IdxSlot) (m : MergeRun) (l : Leaf) : List (Nat × INode) :=
  let side := s.side.filter fun e => decide (e.seq ≤ m.m)
  let ins := side.filter (·.insert)
  let dels := ((side.filter fun e => !e.insert && decide (e.id < s.hdr.n)).map (·.id)).dedup
  let old := dels.foldl (fun (a : List (Nat × INode)) i => alSet i { l.inode s.hdr i with deleted := true } a) []
  let new := ins.foldl (fun (a : List (Nat × INode)) e =>
    alSet e.id { sketch := e.sketch, nbrs := l.mergeNbrs s.hdr m e.sketch, deleted := !notDeleted side e.id, tag := e.tag } a) old
  ((ins.map (·.id)).mergeSort fun a b => decide (a ≤ b)).foldl (fun (a : List (Nat × INode)) x =>
    (l.mergeNode s.hdr a x).nbrs.foldl (l.backLink s.hdr x) a) new

/-- The header of the merged index. -/
def mergedHeader (old : List Byte) (m : MergeRun) : List Byte :=
  let b := putBytes (putBytes (putBytes old 8 (leBytes 8 m.n)) 16 (leBytes 8 m.node)) 24 (leBytes 8 m.desc)
  putBytes b 4088 (leBytes 8 (crc64 (b.take 4088)))

/-- The merged index written: descriptors, nodes by codeword, header. -/
def Leaf.writeMerged (s : IdxSlot) (m : MergeRun) (l : Leaf) : IxHdr × Leaf :=
  let t : IxHdr := { s.hdr with at' := m.hdr, n := m.n, nodeOfs := m.node, descOfs := m.desc }
  let new := l.mergeNodes s m
  let item (ch k : Nat) : Nat := k * t.c + ch
  let nodeB (i : Nat) : List Byte := if i < m.n then (l.mergeNode s.hdr new i).bytes i else List.replicate 208 0
  let descB (i : Nat) : List Byte :=
    if i < s.hdr.n then l.idesc s.hdr i
    else match s.side.find? fun e => e.insert && e.id == i with | some e => padTo 256 e.desc | none => List.replicate 256 0
  let l1 := (List.range t.c).foldl (fun (a : Leaf) ch =>
    let base := (t.ch0 + ch) % 8 * 2 ^ 37
    let a1 := (List.range (t.nodeLen / 4096)).foldl (fun (b : Leaf) g =>
      b.flashWrite (base + m.node + 4096 * g) (padTo 4096 ((List.range 19).flatMap fun j => nodeB (item ch (19 * g + j))))) a
    (List.range t.perCh).foldl (fun (b : Leaf) k => b.flashWrite (base + m.desc + 256 * k) (descB (item ch k))) a1) l
  let l2 := l1.flashWrite m.hdr (mergedHeader (l.flashRead s.hdr.at' 4096) m)
  (t, l2.coverFlash t.extents)

/-- A merge advances: the leaf is not TICKING, or the pipeline's variant is not its leanest (R387). -/
def Leaf.mergeMoves (l : Leaf) (p : Nat) : Bool :=
  if !l.ticking then true
  else
    match l.glz.image.bind fun im => im.pipe p, alGet l.tick.sel p with
    | some d, some v => decide (v + 1 < d.nvar)
    | _, _ => true

/-- MERGE_DONE: OK, or POISON when a codeword of the old index cannot be read. -/
def Leaf.mergeDone (readable : Bool) (l : Leaf) : Leaf :=
  match l.srch.merge with
  | none => l
  | some m =>
    if !l.mergeMoves m.pipe then l
    else
      let fin (st : Nat) (a : Leaf) : Leaf :=
        (((a.setSrch { a.srch with merge := none }).putB Fld.SRCH_MRG_STAT_BUSY false).put Fld.SRCH_MRG_STAT_STATUS st).flagEvent
          Fld.SRCH_MRG_STAT_DONE 0x08A
      match l.idxSlot m.x with
      | none => fin 0x0B l
      | some s =>
        if !readable then fin 0x09 l
        else
          let w := l.writeMerged s m
          let n := (s.side.filter fun e => e.insert && decide (e.seq ≤ m.m)).length
          fin 0 ((w.2.setSrch { w.2.srch with merged := some (m.x, m.m, w.1) }).wr Reg.SRCH_MRG_PROG n)

/-- The slot uses the merged index and a side list without the merged entries (R387). -/
def Leaf.doSwap (x : Nat) (l : Leaf) : Leaf :=
  match l.srch.merged, l.idxSlot x with
  | some (y, m, h), some s =>
    if y = x then
      let l1 := l.setSrch { l.srch with merged := none, swap := l.srch.swap.filter (· != x) }
      (l1.setIdx x { s with hdr := h, side := s.side.filter fun e => decide (m < e.seq) }).showSlot x
    else l
  | _, _ => l

/-- SRCH_IDXx_CTRL.SWAP after DONE. -/
def Leaf.swapIdx (x : Nat) (l : Leaf) : Leaf :=
  match l.srch.merged, l.idxOpen x with
  | some (y, _, _), some _ =>
    if y ≠ x then l
    else if l.ticking then
      (l.setSrch { l.srch with swap := x :: l.srch.swap.filter (· != x) }).putB (Fld.SRCH_IDX_STAT_SWAP_PEND x) true
    else l.doSwap x
  | _, _ => l

/-- A write of SRCH_IDXx_CTRL. DESIGN CHOICE: ATTACH, DETACH and SWAP in this order. -/
def Leaf.writeIdxCtrl (x w : Nat) (l : Leaf) : Leaf :=
  let l1 := if bitOf w 31 then l.attach x else l
  let l2 := if bitOf w 30 then l1.detach x else l1
  if bitOf w 29 then l2.swapIdx x else l2

/-- Step 7: pending swaps. -/
def Leaf.srchStep7 (l : Leaf) : Leaf := l.srch.swap.foldl (fun m x => m.doSwap x) l

/-- A whole-image glaze: sources off, their rows and queries gone; attached indexes stay (R381, R392). -/
def Leaf.srchGlaze (l : Leaf) : Leaf :=
  let dead := l.srch.ctxs.filter fun c => !c.2.isHost
  let l1 := l.setSrch { l.srch with rows := [], deliv := [] }
  let l2 := dead.foldl (fun (m : Leaf) c => m.releaseCtx c.1) l1
  (List.range 4).foldl (fun m q => m.putB (Fld.SRCH_QSRC_CFG_ENABLE q) false) l2

end Sys2Proof.Machine
end

