-- ==== Sys2Proof/Machine/SolverArith.lean ====
section
/-!
DEFINITION. Arithmetic of the solver engine: the Cholesky factor with clamped pivots (R406), the Levenberg-Marquardt loop (R408), the
problems of its jobs (R409 to R416) and the assignment unit (R419).
-/
namespace Sys2Proof.Machine

/-! ## Dense Cholesky with clamped pivots (R406) -/

/-- A factor: the rows of L, and the columns whose pivot was clamped. -/
structure Factor where
  rows : Array (Array F64) := #[]
  clamped : Array Bool := #[]

/-- s minus the products of two rows over their first n columns, in ascending order. -/
def subProds (s : F64) (a b : Array F64) (n : Nat) : F64 :=
  (List.range n).foldl (fun s k => f64sub s (f64mul (a.getD k 0) (b.getD k 0))) s

/-- L[i][j]. -/
def Factor.at (f : Factor) (i j : Nat) : F64 := (f.rows.getD i #[]).getD j 0

/-- Row i of the factor of a front of which c columns are eliminated. -/
def cholRow (c i : Nat) (tau : F64) (a : Nat → F64) (f : Factor) : Array F64 × Bool :=
  let off := (List.range (min i c)).foldl (fun (r : Array F64) j =>
    r.push (if f.clamped.getD j false then 0 else f64div (subProds (a j) r (f.rows.getD j #[]) j) (f.at j j))) #[]
  if i < c then
    let d := subProds (a i) off off i
    if f64le d tau then (off.push (f64sqrt tau), true) else (off.push (f64sqrt d), false)
  else (off, false)

/-- The factor of c columns of a symmetric matrix of n rows, given by its lower triangle. -/
def cholFront (c n : Nat) (tau : F64) (a : Nat → Nat → F64) : Factor :=
  (List.range n).foldl (fun (f : Factor) i =>
    let r := cholRow c i tau (a i) f
    { rows := f.rows.push r.1, clamped := f.clamped.push r.2 }) {}

/-- τ for the diagonal of a system. -/
def tauOf (eps : Nat) (diag : List F64) : F64 :=
  f64max (f64mul (f64b (.fin false 1 (-(eps : Int)))) (diag.tail.foldl f64max (diag.headD 0))) 0x0010000000000000

/-- The factor of a whole system. -/
def cholesky (eps n : Nat) (a : Nat → Nat → F64) : Factor := cholFront n n (tauOf eps ((List.range n).map fun j => a j j)) a

/-- Every entry is finite. -/
def Factor.finite (f : Factor) : Bool := f.rows.all fun r => r.all f64finite

/-- The clamped columns. -/
def Factor.marks (f : Factor) : List Nat := (List.range f.clamped.size).filter fun j => f.clamped.getD j false

/-- The forward pass. -/
def Factor.forward (f : Factor) (n : Nat) (b : Nat → F64) : List F64 :=
  (List.range n).foldl (fun (y : List F64) j =>
    y ++ [if f.clamped.getD j false then 0
      else f64div (f64sub (b j) (dotSum ((List.range j).map fun k => f64mul (f.at j k) (vGet y k)))) (f.at j j)]) []

/-- The backward pass. -/
def Factor.backward (f : Factor) (n : Nat) (y : List F64) : List F64 :=
  (List.range n).foldr (fun j (xs : List F64) =>
    (if f.clamped.getD j false then 0
      else f64div (f64sub (vGet y j) (dotSum ((List.range xs.length).map fun k => f64mul (f.at (j + 1 + k) j) (vGet xs k)))) (f.at j j))
      :: xs) []

/-- The solution of A x = b. -/
def Factor.solve (f : Factor) (n : Nat) (b : Nat → F64) : List F64 := f.backward n (f.forward n b)

/-- Every value of a vector is finite. -/
def vFinite (v : List F64) : Bool := v.all f64finite

/-! ## The Levenberg-Marquardt loop (R408) -/

/-- What solving the damped system at a point gives. -/
inductive LmStep (α : Type) where
  | step (x : α) (clamps : Nat) (marks : List Nat)
  | nonfinite
  | invalid

/-- The loop: the point, its cost, the damping, iterations made and accepted, clamped pivots, the states clamped in the last accepted step. -/
structure LmRun (α : Type) where
  x : α
  f : F64
  lam : F64
  it : Nat := 0
  acc : Nat := 0
  clamps : Nat := 0
  marks : List Nat := []

/-- How the loop ends. -/
inductive LmEnd (α : Type) where
  | ok (r : LmRun α)
  | nonfinite
  | invalid

/-- At most n iterations. -/
def lmLoop {α : Type} (cost : α → F64) (step : α → F64 → LmStep α) (tol : F64) : Nat → LmRun α → LmEnd α
  | 0, r => .ok r
  | n + 1, r =>
    match step r.x r.lam with
    | .nonfinite => .nonfinite
    | .invalid => .invalid
    | .step y clamps marks =>
      let fn := cost y
      if !f64finite fn then .nonfinite
      else if f64lt fn r.f then
        let dec := f64sub r.f fn
        let r1 : LmRun α :=
          { x := y, f := fn, lam := f64max (f64mul r.lam (dec64 1 4)) (dec64 1 1000000000000), it := r.it + 1, acc := r.acc + 1,
            clamps := r.clamps + clamps, marks := marks }
        if f64le dec (f64mul tol (f64add fn dec)) then .ok r1 else lmLoop cost step tol n r1
      else
        let r1 := { r with it := r.it + 1, lam := f64mul r.lam (dec64 8 1), clamps := r.clamps + clamps }
        if f64lt (dec64 1000000000000 1) r1.lam then .ok r1 else lmLoop cost step tol n r1

/-- ρ of the squared whitened norm of a block, and the block's weight. -/
def rho (h e2 : F64) : F64 :=
  let e := f64sqrt e2
  if f64eq h 0 || f64le e h then e2 else f64sub (f64mul (f64mul two64 h) e) (f64mul h h)
def weight (h e2 : F64) : F64 :=
  let e := f64sqrt e2
  if f64eq h 0 || f64le e h then one64 else f64div h e

/-- The squared norm of a residual. -/
def sqNorm (r : List F64) : F64 := dotSum (r.map fun x => f64mul x x)

/-- J_a'·w·J_b of a block's rows, and J'·w·r. -/
def jtwj (w : F64) (a b : List (List F64)) : List (List F64) :=
  mTab (a.headD []).length (b.headD []).length fun i j => dotSum ((a.zip b).map fun e => f64mul (f64mul (vGet e.1 i) w) (vGet e.2 j))
def jtwr (w : F64) (a : List (List F64)) (r : List F64) : List F64 :=
  (List.range (a.headD []).length).map fun i => dotSum ((a.zip r).map fun e => f64mul (f64mul (vGet e.1 i) w) e.2)

/-- Sums in order, of matrices and of vectors. -/
def sumMats (r c : Nat) (ms : List (List (List F64))) : List (List F64) := ms.tail.foldl mAdd (ms.headD (mZero r c))
def sumVecs (n : Nat) (vs : List (List F64)) : List F64 := vs.tail.foldl vAdd3 (vs.headD (List.replicate n 0))

/-- A diagonal entry as the loop damps it. -/
def damped (lam h : F64) : F64 := f64mul h (f64add one64 lam)

/-- A pose moved by a step of six: p + δp, q ← normalise(qmul(q, dq(δθ))). -/
def movePose (a d : List F64) : List F64 :=
  vAdd3 (poseP a) (d.take 3) ++ qNorm (qMul (poseQ a) (dqOf ((d.drop 3).map fun x => f64div x two64)))

/-! ## EGO_UPDATE (R410) -/

/-- Rows of measurements: innovation, row of H, variance. -/
structure MeasRow where
  nu : F64
  h : List F64
  r : F64

/-- A row of H with three entries from column c. -/
def rowAt (c : Nat) (v : List F64) : List F64 := List.replicate c 0 ++ v ++ List.replicate (12 - c) 0

/-- vec() of a quaternion: x, y, z after the sign of w has been made non-negative. -/
def qVec (q : List F64) : List F64 := if f64lt (vGet q 0) 0 then (q.drop 1).map f64neg else q.drop 1

/-- dq of a rotation vector. -/
def dqVec (th : List F64) : List F64 := dqOf (th.map fun x => f64div x two64)

/-- An angle wrapped once to [−π, π) as in R330. -/
def wrapPi (y : F64) : F64 :=
  let tau := f64mul two64 pi64
  if f64le pi64 y then f64sub y tau else if f64lt y (f64neg pi64) then f64add y tau else y

/-- The working pose as a list. -/
def Pose.list (p : Pose) : List F64 := [p.px, p.py, p.pz, p.qw, p.qx, p.qy, p.qz]

/-- The rows of a record; none for an unknown kind. -/
def measRows (wp : Pose) (n : List F64) (rec' : List Byte) : Option (List MeasRow) :=
  let v (i : Nat) : F64 := f64ofF32 (BitVec.ofNat 32 (leAt rec' (4 + 4 * i) 4))
  let var (i : Nat) : F64 := let s := f64ofF32 (BitVec.ofNat 32 (leAt rec' (28 + 4 * i) 4)); f64div one64 (f64mul s s)
  let unit (i : Nat) : List F64 := (List.range 3).map fun k => if k = i then one64 else 0
  let p := nom3 n 0
  let q := nomQ n
  let rt := mT (rotOf q)
  let w := wp.list
  let pos := (List.range 3).map fun i =>
    { nu := f64sub (f64add (vGet w i) (v i)) (vGet p i), h := rowAt 0 (unit i), r := var i : MeasRow }
  let bv := mVec rt (nom3 n 3)
  match leAt rec' 0 1 with
  | 1 =>
    let e := qVec (qMul (qMul (qConj q) (poseQ w)) (dqVec [v 3, v 4, v 5]))
    some (pos ++ (List.range 3).map fun i => { nu := f64mul two64 (vGet e i), h := rowAt 6 (unit i), r := var (3 + i) })
  | 2 => some pos
  | 3 =>
    let yaw (a : List F64) : F64 := (poseOf (mkNom [0, 0, 0] [0, 0, 0] a [0, 0, 0] [0, 0, 0])).yaw
    some [{ nu := wrapPi (f64sub (f64add (yaw (poseQ w)) (v 0)) (yaw q)), h := rowAt 6 ((rotOf q).getD 2 []), r := var 0 }]
  | 4 =>
    some ((List.range 3).map fun i =>
      { nu := f64sub (v i) (vGet bv i), h := rowAt 3 (rt.getD i []) |>.take 6 |> (· ++ (skew bv).getD i [] ++ List.replicate 6 0),
        r := var i })
  | _ => none

/-- The wheel row of the tick. -/
def wheelRow (sigma : F64) (n : List F64) (ws : List (Nat × F64)) : List MeasRow :=
  if ws.isEmpty then []
  else
    let c := f64ofNat ws.length
    let rt := mT (rotOf (nomQ n))
    let bv := mVec rt (nom3 n 3)
    let s := f64div sigma (f64sqrt c)
    [{ nu := f64sub (f64div (dotSum (ws.map (·.2))) c) (vGet bv 0),
       h := (rowAt 3 (rt.getD 0 [])).take 6 ++ (skew bv).getD 0 [] ++ List.replicate 6 0, r := f64mul s s }]

/-- δx, P+, the clamped rows of S; none where a value is not finite. -/
def egoSolve (eps : Nat) (cov : List (List F64)) (rows : List MeasRow) : Option (List F64 × List (List F64) × List Nat) :=
  let m := rows.length
  if m = 0 then some (List.replicate 15 0, cov, [])
  else
    let h := rows.map (·.h)
    let pht := mMul cov (mT h)
    let s0 := mMul (mMul h cov) (mT h)
    let s := mTab m m fun i j => if i = j then f64add (mGet s0 i j) (match rows[i]? with | some x => x.r | none => 0) else mGet s0 i j
    let f := cholesky eps m (mGet s)
    let k := pht.map fun r => f.solve m (vGet r)
    let dx := mVec k (rows.map (·.nu))
    let a := mTab 15 15 fun i j => let kh := mGet (mMul k h) i j; f64sub (if i = j then one64 else 0) kh
    let rk := mTab m 15 fun i j => f64mul (match rows[i]? with | some x => x.r | none => 0) (mGet k j i)
    let p := mAdd (mMul (mMul a cov) (mT a)) (mMul k rk)
    let ps := mTab 15 15 fun i j => f64mul (f64add (mGet p i j) (mGet p j i)) half64
    if f.finite && vFinite dx && ps.all vFinite && (rows.all fun r => f64finite r.nu) then some (dx, ps, f.marks) else none

/-! ## WINDOW (R409, R412) -/

/-- An observation: the pose variable (none: held fixed) or the fixed pose itself, the landmark by its rank, the camera's rotation,
translation and ZMIN, the coordinates and the information. -/
structure WinObs where
  var : Option Nat
  fixed : List F64
  lmk : Nat
  tab : SenTable
  xn : F64
  yn : F64
  s : F64

/-- The unknowns: poses (the current frame, then the keyframes without the oldest) and landmark positions. -/
structure WinX where
  poses : List (List F64)
  lmks : List (List F64)

/-- An observation linearised. -/
structure WinBlk where
  var : Option Nat
  lmk : Nat
  jp : List (List F64)
  jl : List (List F64)
  r : List F64
  w : F64

/-- The point of an observation in the body frame and in the camera frame. -/
def WinObs.points (o : WinObs) (x : WinX) : List F64 × List F64 :=
  let a := match o.var with | some v => x.poses.getD v [] | none => o.fixed
  let y := mVec (mT (rotOf (poseQ a))) (vSub3 (x.lmks.getD o.lmk []) (poseP a))
  (y, mVec (mT o.tab.rot) (vSub3 y o.tab.t))

/-- The residual; none when the point lies at or below ZMIN. -/
def WinObs.resid (o : WinObs) (x : WinX) : Option (List F64) :=
  let c := (o.points x).2
  let z := vGet c 2
  if f64le z (vGet o.tab.dist 5) then none
  else some [f64mul o.s (f64sub (f64div (vGet c 0) z) o.xn), f64mul o.s (f64sub (f64div (vGet c 1) z) o.yn)]

/-- F of R408. -/
def winCost (h : F64) (obs : List WinObs) (x : WinX) : F64 :=
  dotSum (obs.filterMap fun o => (o.resid x).map fun r => rho h (sqNorm r))

/-- An observation linearised at x. DESIGN CHOICE: the order of the operations of the Jacobian. -/
def WinObs.linear (h : F64) (x : WinX) (o : WinObs) : Option WinBlk :=
  (o.resid x).map fun r =>
    let (y, c) := o.points x
    let z := vGet c 2
    let iz := f64div o.s z
    let dc : List (List F64) :=
      [[iz, 0, f64neg (f64div (f64mul iz (vGet c 0)) z)], [0, iz, f64neg (f64div (f64mul iz (vGet c 1)) z)]]
    let a := match o.var with | some v => x.poses.getD v [] | none => o.fixed
    let dy := mMul dc (mT o.tab.rot)
    let dx := mMul dy (mT (rotOf (poseQ a)))
    let jt := mMul dy (skew y)
    { var := o.var, lmk := o.lmk, jp := (dx.zip jt).map fun e => e.1.map f64neg ++ e.2, jl := dx, r := r, w := weight h (sqNorm r) }

/-- A landmark eliminated: its factor, the poses that see it with their blocks of H_pl and of H_ll⁻¹·H_lp (by columns), and its right
side. -/
structure Elim where
  f : Factor
  removed : Bool
  ps : List (Nat × List (List F64) × List (List F64))
  bl : List F64
  hb : List F64

/-- The elimination of landmark l. -/
def elimLmk (eps : Nat) (lam : F64) (bs : List WinBlk) : Elim :=
  let hll := sumMats 3 3 (bs.map fun b => jtwj b.w b.jl b.jl)
  let a (i j : Nat) : F64 := if i = j then damped lam (mGet hll i j) else mGet hll i j
  let f := cholesky eps 3 a
  let bl := (sumVecs 3 (bs.map fun b => jtwr b.w b.jl b.r)).map f64neg
  let vars := (bs.filterMap (·.var)).dedup.mergeSort
  { f := f, removed := !f.marks.isEmpty, bl := bl, hb := f.solve 3 (vGet bl)
    ps := vars.map fun v =>
      let hpl := sumMats 6 3 ((bs.filter fun b => b.var == some v).map fun b => jtwj b.w b.jp b.jl)
      (v, hpl, hpl.map fun r => f.solve 3 (vGet r)) }

/-- The landmarks that see both poses. -/
def Elim.of (e : Elim) (v : Nat) : Option (List (List F64) × List (List F64)) := alGet e.ps v

/-- One damped step of the window. -/
def winStep (eps : Nat) (h : F64) (obs : List WinObs) (x : WinX) (lam : F64) : LmStep WinX :=
  let bs := obs.filterMap (WinObs.linear h x)
  let np := x.poses.length
  let els := (List.range x.lmks.length).map fun l => elimLmk eps lam (bs.filter fun b => b.lmk == l)
  let live := els.filter fun e => !e.removed
  let hpp := (List.range np).map fun v => sumMats 6 6 ((bs.filter fun b => b.var == some v).map fun b => jtwj b.w b.jp b.jp)
  let gp := (List.range np).map fun v => sumVecs 6 ((bs.filter fun b => b.var == some v).map fun b => jtwr b.w b.jp b.r)
  let s (i j : Nat) : F64 :=
    let base := if i / 6 = j / 6 then mGet (hpp.getD (i / 6) []) (i % 6) (j % 6) else 0
    live.foldl (fun acc e =>
      match e.of (i / 6), e.of (j / 6) with
      | some a, some b => f64sub acc (dotSum (((a.1.getD (i % 6) []).zip (b.2.getD (j % 6) [])).map fun q => f64mul q.1 q.2))
      | _, _ => acc) (if i = j then damped lam base else base)
  let b (i : Nat) : F64 :=
    live.foldl (fun acc e =>
      match e.of (i / 6) with
      | some a => f64sub acc (dotSum (((a.1.getD (i % 6) []).zip e.hb).map fun q => f64mul q.1 q.2))
      | none => acc) (f64neg (vGet (gp.getD (i / 6) []) (i % 6)))
  let n := 6 * np
  let sm := mTab n n s
  let f := cholesky eps n (mGet sm)
  let dp := f.solve n b
  let dl := els.map fun e =>
    if e.removed then [0, 0, 0]
    else e.f.solve 3 fun k =>
      f64sub (vGet e.bl k) (dotSum (e.ps.flatMap fun p => (List.range 6).map fun i => f64mul (mGet p.2.1 i k) (vGet dp (6 * p.1 + i))))
  let y : WinX :=
    { poses := ((List.range np).zip x.poses).map fun e => movePose e.2 ((dp.drop (6 * e.1)).take 6)
      lmks := (x.lmks.zip dl).map fun e => vAdd3 e.1 e.2 }
  let marks := ((f.marks.map fun j => j / 6).dedup)
    ++ ((List.range els.length).zip els).filterMap fun e => if e.2.removed then some (np + e.1) else none
  if f.finite && (els.all fun e => e.f.finite) && y.poses.all vFinite && y.lmks.all vFinite then
    .step y (f.marks.length + ((els.map fun e => e.f.marks.length).foldl (· + ·) 0)) marks
  else .nonfinite

/-! ## DENSE_LS (R414) -/

/-- δ and the clamped parameters of P parameters, from rows of P + 2 values. -/
def denseSolve (eps p : Nat) (lam : F64) (rows : List (List F64)) : Option (List F64 × List Nat) :=
  let term (r : List F64) (i : Nat) : F64 := let s := vGet r (p + 1); f64mul (vGet r i) (f64mul s s)
  let h := mTab p p fun i j => if j ≤ i then dotSum (rows.map fun r => f64mul (term r i) (vGet r j)) else 0
  let g := (List.range p).map fun i => dotSum (rows.map fun r => f64mul (term r i) (vGet r p))
  let f := cholesky eps p fun i j => if i = j then damped lam (mGet h i j) else mGet h i j
  let d := f.solve p fun i => f64neg (vGet g i)
  if f.finite && vFinite d && rows.all vFinite then some (d, f.marks) else none

/-! ## GRAPH (R415, R416) -/

/-- A residual block of an edge at x: its free nodes with their 6 × 6 Jacobians, its residual and weight. -/
structure GTerm where
  js : List (Nat × List (List F64))
  r : List F64
  w : F64

/-- The whitened residual of an edge: the translation error, and 2·vec() of the rotation error. -/
def edgeResid (e : GEdge) (a b : List F64) : List F64 :=
  let q := relPose a b
  let err := vSub3 (poseP q) (poseP e.dpose) ++ (qVec (qMul (qConj (poseQ e.dpose)) (poseQ q))).map fun x => f64mul two64 x
  (err.zip e.info).map fun x => f64mul x.2 x.1

/-- F of R408 over the edges. -/
def graphCost (h : F64) (es : List GEdge) (x : List (List F64)) : F64 :=
  dotSum (es.map fun e => rho h (sqNorm (edgeResid e (x.getD e.a []) (x.getD e.b []))))

/-- An edge linearised. DESIGN CHOICE: the order of the operations of the Jacobian. -/
def edgeTerm (h : F64) (free : Nat → Bool) (x : List (List F64)) (e : GEdge) : GTerm :=
  let a := x.getD e.a []
  let b := x.getD e.b []
  let rt := mT (rotOf (poseQ a))
  let q := relPose a b
  let er := qMul (qConj (poseQ e.dpose)) (poseQ q)
  let sg : F64 := if f64lt (vGet er 0) 0 then f64neg one64 else one64
  let zero : List F64 := [0, 0, 0]
  let basis (k : Nat) : List F64 := (0 : F64) :: (List.range 3).map fun i => if i = k then one64 else 0
  let white (j : List (List F64)) : List (List F64) := (j.zip e.info).map fun r => r.1.map fun v => f64mul r.2 v
  let st := skew (poseP q)
  let colsB := (List.range 3).map fun k => ((qMul er (basis k)).drop 1).map fun v => f64mul sg v
  let colsA := (List.range 3).map fun k =>
    ((qMul (qMul (qConj (poseQ e.dpose)) (basis k)) (poseQ q)).drop 1).map fun v => f64neg (f64mul sg v)
  let ja := (List.range 3).map (fun i => (rt.getD i []).map f64neg ++ st.getD i [])
    ++ (List.range 3).map fun i => zero ++ colsA.map fun c => vGet c i
  let jb := (List.range 3).map (fun i => rt.getD i [] ++ zero) ++ (List.range 3).map fun i => zero ++ colsB.map fun c => vGet c i
  let r := edgeResid e a b
  { js := (if free e.a then [(e.a, white ja)] else []) ++ (if free e.b then [(e.b, white jb)] else []), r := r, w := weight h (sqNorm r) }

/-- Block (a, b) of J'WJ. -/
def gBlock (ts : List GTerm) (a b : Nat) : List (List F64) :=
  sumMats 6 6 (ts.flatMap fun t =>
    (t.js.filter fun j => j.1 == a).flatMap fun ja => (t.js.filter fun j => j.1 == b).map fun jb => jtwj t.w ja.2 jb.2)

/-- The part of J'Wr of node a. -/
def gGrad (ts : List GTerm) (a : Nat) : List F64 :=
  sumVecs 6 (ts.flatMap fun t => (t.js.filter fun j => j.1 == a).map fun ja => jtwr t.w ja.2 t.r)

/-- A sorted set without repeats. -/
def sortSet (l : List Nat) : List Nat := l.dedup.mergeSort

/-- The neighbours of the free nodes. -/
def graphAdj (free : List Nat) (es : List GEdge) : List (Nat × List Nat) :=
  free.map fun a => (a, sortSet ((es.flatMap fun e => (if e.a = a then [e.b] else []) ++ (if e.b = a then [e.a] else [])).filter
    fun b => b != a && free.contains b))

/-- Exact minimum degree: the nodes in elimination order, each with its remaining neighbours (R416). -/
def minDegree : Nat → List (Nat × List Nat) → List (Nat × List Nat)
  | 0, _ => []
  | fuel + 1, adj =>
    match adj.foldl (fun (b : Option (Nat × List Nat)) e =>
      match b with
      | none => some e
      | some x => if e.2.length < x.2.length then some e else b) none with
    | none => []
    | some (v, ns) =>
      let rest := (adj.filter fun e => e.1 != v).map fun e =>
        if ns.contains e.1 then (e.1, sortSet ((e.2 ++ ns).filter fun b => b != e.1 && b != v)) else e
      (v, ns) :: minDegree fuel rest

/-- Supernodes: consecutive nodes whose remaining neighbours are equal once each other is excluded, at most 256 (R416). -/
def supernodes (order : List (Nat × List Nat)) : List (List Nat × List Nat) :=
  order.foldl (fun (acc : List (List Nat × List Nat)) e =>
    match acc.getLast? with
    | some (vs, ns) =>
      if ns.filter (· != e.1) = e.2 ∧ vs.length < 256 then acc.dropLast ++ [(vs ++ [e.1], e.2)] else acc ++ [([e.1], e.2)]
    | none => [([e.1], e.2)]) []

/-- A front: eliminated nodes, remaining nodes in elimination order. -/
structure Front where
  vs : List Nat
  ns : List Nat

/-- The fronts of a graph. -/
def frontsOf (free : List Nat) (es : List GEdge) : List Front :=
  let order := minDegree free.length (graphAdj free es)
  let pos := order.map (·.1)
  (supernodes order).map fun s => { vs := s.1, ns := pos.filter fun n => s.2.contains n }

/-- Dimensions of a front, eliminated and total. -/
def Front.dims (f : Front) : Nat × Nat := (6 * f.vs.length, 6 * (f.vs.length + f.ns.length))

/-- An update matrix that waits for its parent: its nodes and its lower triangle. -/
structure Update where
  ns : List Nat
  at' : Array (Array F64)

/-- A factored front with its part of y. -/
structure Solved where
  fr : Front
  f : Factor
  y : List F64

/-- An entry of an update matrix for a pair of nodes and their coordinates. -/
def Update.get (u : Update) (a ii b jj : Nat) : Option F64 :=
  if u.ns.contains a && u.ns.contains b then
    let i := 6 * u.ns.idxOf a + ii
    let j := 6 * u.ns.idxOf b + jj
    some ((u.at'.getD (max i j) #[]).getD (min i j) 0)
  else none

/-- The state of a multifrontal factorisation: fronts done, updates that wait, and the running sums of the forward pass by node. -/
structure MfState where
  done : List Solved := []
  ups : List Update := []
  sums : List (Nat × List F64) := []

/-- One front assembled, factored, and taken through the forward pass. -/
def mfFront (tau : F64) (blk : Nat → Nat → List (List F64)) (rhs : Nat → List F64) (st : MfState) (fr : Front) : MfState :=
  let fs := fr.vs ++ fr.ns
  let c := 6 * fr.vs.length
  let n := 6 * fs.length
  let mine := st.ups.filter fun u => match u.ns.head? with | some a => fr.vs.contains a | none => false
  let entry (i j : Nat) : F64 :=
    let a := fs.getD (i / 6) 0
    let b := fs.getD (j / 6) 0
    let base := if j < c then mGet (blk a b) (i % 6) (j % 6) else 0
    mine.foldl (fun acc u => match u.get a (i % 6) b (j % 6) with | some x => f64add acc x | none => acc) base
  let m : Array (Array F64) := ((List.range n).map fun i => ((List.range (i + 1)).map (entry i)).toArray).toArray
  let f := cholFront c n tau fun i j => (m.getD i #[]).getD j 0
  let sum0 (i : Nat) : F64 := vGet ((alGet st.sums (fs.getD (i / 6) 0)).getD []) (i % 6)
  let y := (List.range c).foldl (fun (y : List F64) j =>
    let s := (List.range j).foldl (fun s k => f64add s (f64mul (f.at j k) (vGet y k))) (sum0 j)
    y ++ [if f.clamped.getD j false then 0 else f64div (f64sub (vGet (rhs (fs.getD (j / 6) 0)) (j % 6)) s) (f.at j j)]) []
  let sums := fr.ns.foldl (fun (m : List (Nat × List F64)) a =>
    let k := fs.idxOf a
    alSet a ((List.range 6).map fun ii =>
      (List.range c).foldl (fun s j => f64add s (f64mul (f.at (6 * k + ii) j) (vGet y j))) (sum0 (6 * k + ii))) m) st.sums
  let up : Update :=
    { ns := fr.ns
      at' := ((List.range (n - c)).map fun i => ((List.range (i + 1)).map fun j =>
        subProds ((m.getD (c + i) #[]).getD (c + j) 0) (f.rows.getD (c + i) #[]) (f.rows.getD (c + j) #[]) c).toArray).toArray }
  { done := st.done ++ [{ fr := fr, f := f, y := y }]
    ups := (st.ups.filter fun u => match u.ns.head? with | some a => !fr.vs.contains a | none => false) ++ (if fr.ns.isEmpty then [] else [up])
    sums := sums }

/-- The backward pass through a front: the steps of its nodes put before those already known. -/
def mfBack (x : List (Nat × List F64)) (s : Solved) : List (Nat × List F64) :=
  let c := 6 * s.fr.vs.length
  let tail := s.fr.ns.flatMap fun a => (alGet x a).getD (List.replicate 6 0)
  let xs := (List.range c).foldr (fun j (xs : List F64) =>
    (if s.f.clamped.getD j false then 0
      else f64div (f64sub (vGet s.y j) (dotSum ((List.range xs.length).map fun k => f64mul (s.f.at (j + 1 + k) j) (vGet xs k))))
        (s.f.at j j)) :: xs) tail
  (((List.range s.fr.vs.length).zip s.fr.vs).foldl (fun m e => alSet e.2 ((xs.drop (6 * e.1)).take 6) m) x)

/-- One damped step of the graph. DEDUCED: τ is that of the whole system. -/
def graphStep (eps : Nat) (h : F64) (free : List Nat) (frs : List Front) (es : List GEdge) (x : List (List F64)) (lam : F64) :
    LmStep (List (List F64)) :=
  let ts := es.map (edgeTerm h (fun a => free.contains a) x)
  let blk (a b : Nat) : List (List F64) :=
    let m := gBlock ts a b
    if a = b then mTab 6 6 fun i j => if i = j then damped lam (mGet m i j) else mGet m i j else m
  let tau := tauOf eps (free.flatMap fun a => (List.range 6).map fun i => mGet (blk a a) i i)
  let st := frs.foldl (mfFront tau blk fun a => (gGrad ts a).map f64neg) {}
  let d := st.done.reverse.foldl mfBack []
  let y := ((List.range x.length).zip x).map fun e => match alGet d e.1 with | some s => movePose e.2 s | none => e.2
  let marks := st.done.flatMap fun s => (s.f.marks.map fun j => s.fr.vs.getD (j / 6) 0).dedup
  if (st.done.all fun s => s.f.finite) && y.all vFinite then
    .step y ((st.done.map fun s => s.f.marks.length).foldl (· + ·) 0) marks
  else .nonfinite

/-- The free nodes of a snapshot: those not FIXED, or all but node 0 when none is. -/
def freeNodes (ns : List GNode) : List Nat :=
  let all := List.range ns.length
  if ns.any (·.fixed) then all.filter fun i => match ns[i]? with | some n => !n.fixed | none => false else all.drop 1

/-! ## The assignment unit (R418, R419) -/

/-- The cost of row i and extended column j: none where it is not allowed. -/
def asgCost (g : F64) (c : Nat) (m : Array F64) (i j : Nat) : Option F64 :=
  if j < c then
    let x := m.getD (i * c + j) 0
    if f64finite x && f64le x g then some x else none
  else if j = c + i then some g else none

/-- The unit: dual potentials of rows and columns, and the row that each column is assigned to. -/
structure AsgState where
  u : List F64
  v : List F64
  own : List (Option Nat)

/-- A search: distances and predecessor rows of the columns reached, and the labelled columns with their distances. -/
structure AsgSearch where
  reach : List (Nat × F64 × Nat) := []
  lab : List (Nat × F64 × Nat) := []

/-- Columns reached from row i at distance d. DESIGN CHOICE: a reduced distance is d + ((c − u) − v). -/
def asgRelax (cost : Nat → Nat → Option F64) (n : Nat) (s : AsgState) (i : Nat) (d : F64) (q : AsgSearch) : AsgSearch :=
  (List.range n).foldl (fun (q : AsgSearch) j =>
    match cost i j with
    | none => q
    | some c =>
      if q.lab.any fun e => e.1 == j then q
      else
        let nd := f64add d (f64sub (f64sub c (vGet s.u i)) (vGet s.v j))
        match alGet q.reach j with
        | some (od, _) => if f64lt nd od then { q with reach := alSet j (nd, i) q.reach } else q
        | none => { q with reach := alSet j (nd, i) q.reach }) q

/-- The unlabelled column of least distance, the lower index winning a tie. -/
def asgPick (q : AsgSearch) : Option (Nat × F64 × Nat) :=
  (q.reach.filter fun e => !q.lab.any fun x => x.1 == e.1).foldl (fun b e =>
    match b with
    | none => some e
    | some x => if f64lt e.2.1 x.2.1 then some e else b) none

/-- The search from a row: it ends at a free column. -/
def asgSearch (cost : Nat → Nat → Option F64) (n : Nat) (s : AsgState) : Nat → Nat → F64 → AsgSearch → Option (Nat × AsgSearch)
  | 0, _, _, _ => none
  | fuel + 1, i, d, q =>
    let q1 := asgRelax cost n s i d q
    match asgPick q1 with
    | none => none
    | some (j, dj, pi) =>
      let q2 := { q1 with lab := q1.lab ++ [(j, dj, pi)] }
      match s.own.getD j none with
      | none => some (j, q2)
      | some k => asgSearch cost n s fuel k dj q2

/-- The columns along the path to row i0 take over their new rows. -/
def asgFlip (q : AsgSearch) (i0 : Nat) : Nat → Nat → List (Option Nat) → List (Option Nat)
  | 0, _, own => own
  | fuel + 1, j, own =>
    match alGet q.lab j with
    | none => own
    | some (_, i) =>
      let own1 := setAt own j (some i)
      if i = i0 then own1
      else
        match (List.range own.length).find? fun k => k != j && own.getD k none == some i with
        | some k => asgFlip q i0 fuel k own1
        | none => own1

/-- Row i augmented: a search, the potentials, the path. -/
def asgRow (cost : Nat → Nat → Option F64) (n : Nat) (s : AsgState) (i : Nat) : AsgState :=
  match asgSearch cost n s (n + 1) i 0 {} with
  | none => s
  | some (j, q) =>
    let dEnd := match alGet q.lab j with | some e => e.1 | none => 0
    let s1 := q.lab.foldl (fun (s1 : AsgState) e =>
      let t := f64sub e.2.1 dEnd
      match s.own.getD e.1 none with
      | some k => { s1 with v := modAt s1.v e.1 fun x => f64add x t, u := modAt s1.u k fun x => f64sub x t }
      | none => s1) s
    { s1 with u := modAt s1.u i fun x => f64add x dEnd, own := asgFlip q i (n + 1) j s.own }

/-- The assignment: the column of each row, or none. -/
def assign (g : F64) (r c : Nat) (m : Array F64) : List (Option Nat) :=
  let n := c + r
  let s0 : AsgState := { u := List.replicate r 0, v := List.replicate n 0, own := List.replicate n none }
  let s := (List.range r).foldl (asgRow (asgCost g c m) n) s0
  (List.range r).map fun i => (List.range c).find? fun j => s.own.getD j none == some i

end Sys2Proof.Machine
end

