-- ==== Sys2Proof/Machine/Solver.lean ====
section
/-!
DEFINITION. The solver engine and the assignment unit (R395 to R424): jobs, their results and fallbacks, pose-graph requests, reset.
-/
namespace Sys2Proof.Machine

/-! ## Jobs in the image (R398) -/

/-- A job descriptor (Table 15.3); `rsvd` tells whether a reserved byte or bit is not 0. -/
structure SolvDesc where
  job : Nat
  kind : Nat
  pipe : Nat
  vmask : Nat
  port : Nat
  flags : Nat
  resObj : Nat
  maxit : Nat
  nparam : Nat
  lambda0 : F32
  huber : F32
  tol : F32
  gate : F32
  gticks : Nat
  calmap : List (Nat × Nat)
  rsvd : Bool
  deriving DecidableEq, Repr

/-- A descriptor read. -/
def solvDescOf (b : List Byte) : SolvDesc :=
  let f (o : Nat) : F32 := BitVec.ofNat 32 (leAt b o 4)
  { job := leAt b 0 1, kind := leAt b 1 1, pipe := leAt b 2 1, vmask := leAt b 3 1, port := leAt b 4 1, flags := leAt b 5 1,
    resObj := leAt b 6 2, maxit := leAt b 8 1, nparam := leAt b 10 2, lambda0 := f 12, huber := f 16, tol := f 20, gate := f 24,
    gticks := leAt b 28 4, calmap := (List.range 14).map fun i => (leAt b (32 + 4 * i) 1, leAt b (34 + 4 * i) 2)
    rsvd := leAt b 9 1 != 0 || leAt b 88 8 != 0 || (List.range 14).any fun i => leAt b (33 + 4 * i) 1 != 0 }

/-- The descriptors of a block, and its scratch object. -/
def solvDescs (body : List Byte) : List SolvDesc :=
  (List.range (min 8 (leAt body 0 1))).map fun i => solvDescOf (sliceBytes body (16 + 96 * i) 96)
def solvScratch (body : List Byte) : Nat := leAt body 2 2

/-- The solver block of the glazed image. -/
def Leaf.solvBlock (l : Leaf) : Option EngineBlock := l.glz.image.bind fun im => im.engine 9
def Leaf.solvJobs (l : Leaf) : List SolvDesc := match l.solvBlock with | some b => solvDescs b.body | none => []

/-- CALIB. -/
def SolvDesc.calib (d : SolvDesc) : Bool := bitOf d.flags 0

/-- A leaf's solver state replaced; a job; a job replaced. -/
def Leaf.setSolv (l : Leaf) (s : SolvState) : Leaf := { l with solv := s }
def Leaf.sjob (l : Leaf) (j : Nat) : SolvJob := (alGet l.solv.jobs j).getD {}
def Leaf.setSjob (j : Nat) (x : SolvJob) (l : Leaf) : Leaf := l.setSolv { l.solv with jobs := alSet j x l.solv.jobs }

/-- EPS_EXP as it acts. -/
def Leaf.epsExp (l : Leaf) : Nat := clampNat 20 52 (l.get Fld.SOLV_CFG_EPS_EXP)

/-- The solver clock of an operating point (Table 15.1). -/
def solvMhz (op : Nat) : Nat := [400, 500, 600, 700, 800, 900, 950, 1000].getD op 0

/-! ## Arming and requests (R401, R415) -/

/-- The graph bits of SOLV_STAT. -/
def Leaf.showGraph (l : Leaf) : Leaf :=
  (l.putB Fld.SOLV_STAT_GRAPH_RUN l.solv.graph.isSome).putB Fld.SOLV_STAT_GRAPH_HELD l.solv.held

/-- A request becomes active for tick n, or is refused (R399, R415). -/
def Leaf.graphActivate (n : Nat) (l : Leaf) : Leaf :=
  match l.graphObj with
  | none => (l.flagEvent Fld.SOLV_STAT_INVALID_EV 0x09B).bump 15 5
  | some _ => l.setSolv { l.solv with graph := some { tick := n, nodes := l.map.nodes, edges := l.map.edges } }

/-- The requests of step 10: one that is held, one of the map block, one of software. -/
def Leaf.graphRequests (n : Nat) (l : Leaf) : Leaf :=
  let new := l.solv.req || l.map.wantSolve
  let l0 := (l.setSolv { l.solv with req := false }).setMap { l.map with wantSolve := false }
  let has := l0.solvJobs.any fun d => d.kind == 4
  let l1 : Leaf :=
    if !has then l0.setSolv { l0.solv with held := false }
    else if l0.solv.graph.isSome then l0.setSolv { l0.solv with held := l0.solv.held || new }
    else if l0.solv.held || new then (l0.setSolv { l0.solv with held := false }).graphActivate n
    else l0
  l1.showGraph

/-- Step 10 for tick n: jobs armed (R401). A pose-graph solve that runs goes on. -/
def Leaf.solvArm (n : Nat) (l : Leaf) : Leaf :=
  let rst := l.bit Fld.SOLV_STAT_RST_BUSY
  let l0 := (l.setSolv { l.solv with asg := 0 }).put Fld.SOLV_CLK_MHZ (solvMhz (l.get Fld.TICK_OP_OP))
  let l1 := l0.solvJobs.foldl (fun (m : Leaf) d =>
    let x := m.sjob d.job
    let on : Bool := d.kind == 1 || d.kind == 4
      || (match alGet m.tick.sel d.pipe with | some v => bitOf d.vmask v | none => false)
    let goes := d.kind == 4 && x.st == .running && m.solv.graph.isSome
    let st : SolvSt := if goes then .running else if !on then .idle else if rst then .noFallback else .armed
    ((m.setSjob d.job { x with st := st, res := none }).putB (Fld.SOLV_JOB_STAT_ARMED d.job) on).putB
      (Fld.SOLV_JOB_STAT_DONE d.job) false) l0
  l1.graphRequests n

/-! ## Starting (R401) -/

/-- The input port of a job has had END. -/
def Leaf.solvEnded (l : Leaf) (p : Nat) : Bool := (l.engPort 9 p).ended

/-- A route leads into an input port. -/
def Leaf.solvRouted (l : Leaf) (p : Nat) : Bool := (l.glz.image.bind fun im => im.routeInto 0xFF09 p).isSome

/-- The inputs of an armed job are present. -/
def Leaf.solvReady (l : Leaf) (d : SolvDesc) : Bool :=
  (l.sjob d.job).st == .armed &&
    match d.kind with
    | 1 =>
      (match l.ego.hand, l.spec.work with
        | some h, some w => h.tick + 1 == l.tickNum && w.tick == l.tickNum
        | _, _ => false) && (!l.solvRouted d.port || l.solvEnded d.port)
    | 4 => match l.solv.graph with | some g => g.res.isNone | none => false
    | 2 => l.solvEnded d.port
    | 3 => l.solvEnded d.port
    | _ => false

/-- The order among ready jobs: EGO_UPDATE, WINDOW, DENSE_LS by job, GRAPH. -/
def SolvDesc.rank (d : SolvDesc) : Nat := match d.kind with | 1 => 0 | 2 => 1 | 3 => 2 + d.job | _ => 100

/-- The job that the lanes run. -/
def Leaf.solvRunning (l : Leaf) : Option SolvDesc := l.solvJobs.find? fun d => (l.sjob d.job).st == .running

/-- A job put on the lanes; EPS_EXP is latched at the start of a solve (R424). -/
def Leaf.solvRun (d : SolvDesc) (l : Leaf) : Leaf :=
  let old : Bool := d.kind == 4 && match l.solv.graph with | some g => g.started | none => false
  let x := l.sjob d.job
  let l1 := l.setSjob d.job { x with st := .running, eps := if old then x.eps else l.epsExp }
  let l2 := if d.kind = 4 then l1.setSolv { l1.solv with graph := l1.solv.graph.map fun g => { g with started := true } } else l1
  (l2.putB Fld.SOLV_STAT_BUSY true).put Fld.SOLV_STAT_JOB d.job

/-- SOLVER_JOB_START: a ready job that no other ready job goes before takes the lanes; a GRAPH job yields them. -/
def Leaf.solvStart (j : Nat) (l : Leaf) : Leaf :=
  match l.solvJobs.find? fun d => d.job == j with
  | none => l
  | some d =>
    let first := l.solvJobs.all fun e => !(l.solvReady e) || decide (d.rank ≤ e.rank)
    if !l.ticking || !l.solvReady d || !first || l.bit Fld.SOLV_STAT_RST_BUSY then l
    else
      match l.solvRunning with
      | none => l.solvRun d
      | some r =>
        if r.kind = 4 then (l.setSjob r.job { l.sjob r.job with st := .armed }).solvRun d else l

/-! ## Bodies of results (Table 15.5) -/

/-- A bitmap of n bytes with the bits of a list set. -/
def bitmap (n : Nat) (ms : List Nat) : List Byte := leBytes n (ms.dedup.foldl (fun a i => a + 2 ^ i) 0)

def egoBody (dx : List F64) (cov : List (List F64)) (rows unobs : Nat) : List Byte :=
  f64Bytes dx ++ cov.flatMap f64Bytes ++ leBytes 2 rows ++ leBytes 2 0 ++ leBytes 4 unobs

/-- A landmark record: slot, GEN, position in f32, and its bit in the bitmap. -/
structure WinLmk where
  slot : Nat
  gen : Nat
  pos : List F32
  unobs : Bool

def winBody (cur : List F64) (curUn : Bool) (kfs : List (Nat × Bool × List F64)) (ls : List WinLmk) : List Byte :=
  f64Bytes cur ++ leBytes 8 (b2n curUn)
    ++ padTo 2048 (kfs.flatMap fun k => leBytes 4 k.1 ++ leBytes 4 (b2n k.2.1) ++ f64Bytes k.2.2)
    ++ leBytes 4 ls.length ++ leBytes 12 0
    ++ bitmap 2048 (((List.range ls.length).zip ls).filterMap fun e => if e.2.unobs then some e.1 else none)
    ++ ls.flatMap fun r => leBytes 2 r.slot ++ leBytes 2 r.gen ++ r.pos.flatMap fun x => leBytes 4 x.toNat

def denseBody (d : List F64) (p : Nat) (un : List Nat) : List Byte := f64Bytes d ++ bitmap ((p + 7) / 8) un

def graphBody (n : Nat) (un : List Nat) : List Byte := leBytes 4 n ++ leBytes 4 un.length ++ bitmap 4096 un

/-! ## Inputs -/

/-- The records of n bytes of an input port. -/
def Leaf.solvRecs (l : Leaf) (p n : Nat) : List (List Byte) := (chunks n (l.engPort 9 p).toks.flatten).filter fun r => r.length == n

/-- A WINDOW problem: its start, its observations, the landmarks with slot and GEN, and the records skipped. -/
structure WinProb where
  x : WinX
  obs : List WinObs
  lmks : List (Nat × Nat)
  skipped : Nat

/-- Where the current frame starts (R403). -/
def Leaf.winStart (l : Leaf) (j : Nat) : List F64 :=
  let warm := (l.sjob j).warm
  match l.ego.hand with
  | none => if warm.isEmpty then ({} : Pose).list else warm
  | some h =>
    if warm.isEmpty then (poseOf h.nom).list
    else vAdd3 (poseP warm) (mVec (rotOf (poseQ warm)) h.dp) ++ qNorm (qMul (poseQ warm) h.dq)

/-- An observation record names a keyframe of the window or the current frame, a camera, and a VALID landmark of its GEN. DESIGN
CHOICE: a record whose camera is not 0 to 5 is skipped too. -/
def Leaf.winRecOk (l : Leaf) (r : List Byte) : Bool :=
  let e := l.map.lmk (leAt r 4 2)
  (leAt r 0 4 == 0 || l.map.kfs.any fun k => k.id == leAt r 0 4) && e.valid && e.gen == leAt r 6 2 && decide (leAt r 8 1 < 6)

/-- The problem of a WINDOW job (R412). -/
def Leaf.winProb (l : Leaf) (d : SolvDesc) : WinProb :=
  let all := l.solvRecs d.port 24
  let ok := (all.take 131072).filter l.winRecOk
  let slots := (sortSet (ok.map fun r => leAt r 4 2)).take 16384
  let used := ok.filter fun r => slots.contains (leAt r 4 2)
  let kfs := l.map.kfs
  let f (r : List Byte) (o : Nat) : F64 := f64ofF32 (BitVec.ofNat 32 (leAt r o 4))
  let obs := used.map fun r =>
    let k := (kfs.map (·.id)).idxOf (leAt r 0 4)
    { var := if leAt r 0 4 = 0 then some 0 else if k = 0 then none else some k
      fixed := match kfs.head? with | some k0 => k0.pose | none => []
      lmk := slots.idxOf (leAt r 4 2), tab := l.senTable (leAt r 8 1), xn := f r 12, yn := f r 16, s := f r 20 : WinObs }
  { x := { poses := l.winStart d.job :: (kfs.drop 1).map (·.pose)
           lmks := slots.map fun s => let e := l.map.lmk s; [f64ofF32 e.x, f64ofF32 e.y, f64ofF32 e.z] }
    obs := obs, lmks := slots.map fun s => (s, (l.map.lmk s).gen), skipped := all.length - used.length }

/-- The body of a window at a point, with marks by unknown. -/
def Leaf.winResult (l : Leaf) (p : WinProb) (x : WinX) (marks : List Nat) : List Byte :=
  let np := x.poses.length
  let kfs := ((List.range l.map.kfs.length).zip l.map.kfs).map fun e =>
    (e.2.id, marks.contains e.1 && e.1 != 0, if e.1 = 0 then e.2.pose else x.poses.getD e.1 [])
  let ls := ((List.range p.lmks.length).zip p.lmks).map fun e =>
    let un := marks.contains (np + e.1)
    let pos := if un then p.x.lmks.getD e.1 [] else x.lmks.getD e.1 []
    { slot := e.2.1, gen := e.2.2, pos := pos.map f32ofF64, unobs := un : WinLmk }
  winBody (x.poses.headD []) (marks.contains 0) kfs ls

/-! ## Fallbacks (R402, R403) -/

/-- The fallback of a job with a status. DEDUCED: the working copy is not visible before the commit, so it is formed there, when the
hand-off of the tick has arrived; DENSE_LS and GRAPH keep the body committed last. -/
def Leaf.solvFallback (d : SolvDesc) (status : Nat) (l : Leaf) : SolvRes :=
  let c := BitVec.ofNat 64 (Config.noCost d.kind)
  let base : SolvRes := { status := status, flags := 1, cost0 := c, cost1 := c, carry := (l.sjob d.job).out.carry }
  let prev := (l.sjob d.job).prev
  match d.kind with
  | 1 =>
    let cov := match l.ego.hand with | some h => h.cov | none => l.ego.cov
    { base with body := egoBody (List.replicate 15 0) cov 0 0, vec := List.replicate 15 0, rows := cov }
  | 2 =>
    let e := l.engPort 9 d.port
    let p := if e.ended && !e.poison then l.winProb d
      else { x := { poses := l.winStart d.job :: (l.map.kfs.drop 1).map (·.pose), lmks := [] }, obs := [], lmks := [], skipped := 0 }
    { base with body := l.winResult p p.x [], vec := p.x.poses.headD [] }
  | 3 => { base with body := if prev.isEmpty then denseBody (List.replicate d.nparam 0) d.nparam [] else prev }
  | _ => { base with body := if prev.isEmpty then graphBody 0 [] else prev }

/-! ## Solving -/

/-- A scratch use in bytes noted in SOLV_SCRATCH, and whether it fits (R397). -/
def Leaf.scratch (bytes : Nat) (l : Leaf) : Bool × Leaf :=
  let kib := (bytes + 1023) / 1024
  let size := match l.solvBlock.bind fun b => l.obj (solvScratch b.body) with | some o => o.size | none => 0
  let l1 := (l.wr Reg.SOLV_SCRATCH kib).countBy 15 4 (kib - l.solv.peak)
  (decide (bytes ≤ size), l1.setSolv { l1.solv with peak := max l1.solv.peak kib })

/-- The status of a solve that completed. -/
def solvStatus (clamps : Nat) : Nat := if clamps = 0 then 0 else 4

/-- EGO_UPDATE (R404, R410). -/
def Leaf.solveEgo (d : SolvDesc) (ue : Bool) (l : Leaf) : SolvRes × Leaf :=
  let bad := ue || (l.engPort 9 d.port).poison
  let drop := bad || decide (3 ≤ l.get Fld.FUS_DS_STAT_STEP)
  match l.ego.hand, l.spec.work with
  | some h, some w =>
    let recs := if drop || !l.solvRouted d.port then [] else (l.solvRecs d.port 64).take 16
    let rows := (recs.filterMap (measRows w.pose h.nom)).flatten ++ wheelRow (f64ofF32 d.gate) h.nom h.wheels
    let l1 := l.countBy 15 0 (recs.filter fun r => (measRows w.pose h.nom r).isNone).length
    let ok := vFinite h.nom && h.cov.all vFinite && rows.all fun r => f64finite r.r && vFinite r.h
    match if ok then egoSolve (l.sjob d.job).eps h.cov rows else none with
    | none => (l.solvFallback d 7, l1)
    | some (dx, cov, marks) =>
      let c := BitVec.ofNat 64 (Config.noCost 1)
      let un := if marks.isEmpty then 0 else Config.egoUnobs (marks.foldl (fun a i => a + 2 ^ i) 0) % 2 ^ 15
      ({ status := if bad then 9 else solvStatus marks.length, flags := 2 * b2n drop, clamps := marks.length, cost0 := c, cost1 := c
         body := egoBody dx cov (rows.length - marks.length) un
         carry := if drop then {} else (l.engPort 9 d.port).carry, vec := dx, rows := cov }, l1)
  | _, _ => (l.solvFallback d 6, l)

/-- WINDOW (R409, R412, R413). -/
def Leaf.solveWindow (d : SolvDesc) (ue : Bool) (l : Leaf) : SolvRes × Leaf :=
  let e := l.engPort 9 d.port
  let p := l.winProb d
  if ue || e.poison || p.lmks.any fun s => l.map.ue.contains s.1 then (l.solvFallback d 9, l)
  else
    let l1 := l.countBy 15 0 p.skipped
    let h := f64ofF32 d.huber
    let f0 := winCost h p.obs p.x
    let ok := f64finite f0 && p.x.poses.all vFinite && p.x.lmks.all vFinite && vFinite (p.obs.flatMap fun o => [o.xn, o.yn, o.s])
    let r := if ok then
        lmLoop (winCost h p.obs) (winStep (l.sjob d.job).eps h p.obs) (f64ofF32 d.tol) d.maxit { x := p.x, f := f0, lam := f64ofF32 d.lambda0 }
      else .nonfinite
    match r with
    | .ok r =>
      ({ status := solvStatus r.clamps, iters := r.acc, clamps := r.clamps, cost0 := f0, cost1 := r.f
         body := l.winResult p r.x r.marks, carry := e.carry, vec := r.x.poses.headD [], rows := r.x.poses.drop 1
         ids := (l.map.kfs.drop 1).map (·.id) }, l1.countBy 15 2 r.it)
    | _ => (l.solvFallback d 7, l1)

/-- DENSE_LS (R414). -/
def Leaf.solveDense (d : SolvDesc) (ue : Bool) (l : Leaf) : SolvRes × Leaf :=
  let e := l.engPort 9 d.port
  if ue || e.poison then (l.solvFallback d 9, l)
  else
    let big := decide (1024 < d.nparam)
    let s := if big then l.scratch (Config.factorBytes [(d.nparam, d.nparam)]) else (true, l.wr Reg.SOLV_SCRATCH 0)
    if !s.1 then (l.solvFallback d 11, s.2)
    else
      let n := d.nparam + 2
      let rows := ((l.solvRecs d.port (4 * n)).take 65536).map fun r =>
        (List.range n).map fun i => f64ofF32 (BitVec.ofNat 32 (leAt r (4 * i) 4))
      match denseSolve (l.sjob d.job).eps d.nparam (f64ofF32 d.lambda0) rows with
      | none => (l.solvFallback d 7, s.2)
      | some (x, marks) =>
        let c := BitVec.ofNat 64 (Config.noCost 3)
        ({ status := solvStatus marks.length, clamps := marks.length, cost0 := c, cost1 := c, body := denseBody x d.nparam marks
           carry := e.carry, vec := x, unobs := marks }, s.2)

/-- GRAPH (R415, R416). -/
def Leaf.solveGraph (d : SolvDesc) (ue : Bool) (g : GraphRun) (l : Leaf) : SolvRes × Leaf :=
  let bad := match l.graphObj with | some i => l.poisoned i | none => false
  if ue || bad then (l.solvFallback d 9, l)
  else
    let free := freeNodes g.nodes
    let frs := frontsOf free g.edges
    let l1 := l.countBy 15 3 frs.length
    let s := l1.scratch (Config.factorBytes (frs.map Front.dims))
    if !s.1 || frs.any fun f => decide (1536 < f.dims.2) then (l.solvFallback d 11, s.2)
    else
      let h := f64ofF32 d.huber
      let x := g.nodes.map (·.pose)
      let f0 := graphCost h g.edges x
      let ok := f64finite f0 && x.all vFinite && g.edges.all fun e => vFinite e.dpose && vFinite e.info
      let r := if ok then
          lmLoop (graphCost h g.edges) (graphStep (l.sjob d.job).eps h free frs g.edges) (f64ofF32 d.tol) d.maxit
            { x := x, f := f0, lam := f64ofF32 d.lambda0 }
        else .nonfinite
      match r with
      | .ok r =>
        ({ status := solvStatus r.clamps, iters := r.acc, clamps := r.clamps, cost0 := f0, cost1 := r.f
           body := graphBody g.nodes.length r.marks, rows := r.x }, s.2.countBy 15 2 r.it)
      | _ => (l.solvFallback d 7, s.2)

/-- The events of a result. -/
def Leaf.solvEvents (r : SolvRes) (l : Leaf) : Leaf :=
  let l1 := if r.clamps = 0 then l else l.flagEvent Fld.SOLV_STAT_CLAMP_EV 0x098
  let l2 := if r.status = 7 then l1.flagEvent Fld.SOLV_STAT_NONFIN_EV 0x099 else l1
  if r.status = 11 then l2.flagEvent Fld.SOLV_STAT_INVALID_EV 0x09B else l2

/-- A job has its result. -/
def Leaf.solvFinish (d : SolvDesc) (r : SolvRes) (l : Leaf) : Leaf :=
  let l1 := l.setSjob d.job { l.sjob d.job with st := .done, res := some r }
  let l2 := if d.kind = 4 then l1.setSolv { l1.solv with graph := l1.solv.graph.map fun g => { g with res := some r } } else l1
  ((((l2.solvEvents r).putB (Fld.SOLV_JOB_STAT_DONE d.job) true).putB Fld.SOLV_STAT_BUSY false).putFree
    (Fld.SOLV_JOB_LAST_NS d.job))

/-- SOLVER_JOB_COMPLETE (R405): `ue` says that a word the job owns or reads is uncorrectable (R404, R422). -/
def Leaf.solvComplete (j : Nat) (ue : Bool) (l : Leaf) : Leaf :=
  match l.solvJobs.find? fun d => d.job == j with
  | none => l
  | some d =>
    if (l.sjob j).st != .running then l
    else
      match d.kind, l.solv.graph with
      | 1, _ => let r := l.solveEgo d ue; r.2.solvFinish d r.1
      | 2, _ => let r := l.solveWindow d ue; r.2.solvFinish d r.1
      | 3, _ => let r := l.solveDense d ue; r.2.solvFinish d r.1
      | 4, some g => let r := l.solveGraph d ue g; r.2.solvFinish d r.1
      | _, _ => l

/-! ## The boundary (R402, R411, R417) -/

/-- A record of step 5 and an entry of the digest ring for a unit: its ID (Table 16.2), pipeline, source, status, what it carries,
its digest, its digested bytes, whether it was cut off, and whether it wrote nothing. -/
structure UnitRec where
  unit : Nat
  pipe : Option Nat
  source : Nat
  status : Nat
  carry : Carry
  digest : Nat
  bytes : Nat
  cut : Bool := false
  empty : Bool := false
  deriving DecidableEq, Repr

/-- What step 4 made of the solver: records, the keyframe poses of a window solve, the node poses of a graph solve, proposals. -/
structure SolvStep4 where
  recs : List UnitRec := []
  win : Option (List (Nat × List F64)) := none
  graph : Option (List (List F64)) := none
  props : List Proposal := []

/-- The header of a result (Table 15.4). -/
def SolvRes.header (r : SolvRes) (tick kind : Nat) : List Byte :=
  padTo 64 (leBytes 8 tick ++ leBytes 2 r.status ++ leBytes 1 kind ++ leBytes 1 r.flags ++ leBytes 2 (min 65535 r.iters)
    ++ leBytes 2 (min 65535 r.clamps) ++ leBytes 8 r.cost0.toNat ++ leBytes 8 r.cost1.toNat)

/-- The proposals of a CALIB job: a sensor none of whose parameters is unobservable. DEDUCED: no fallback gives a proposal. -/
def proposalsOf (d : SolvDesc) (r : SolvRes) : List Proposal :=
  if !d.calib || bitOf r.flags 0 then []
  else
    (d.calmap.filter fun e => e.1 != 0xFF).filterMap fun e =>
      let n := if e.1 < 6 then 10 else 6
      if r.unobs.any fun u => decide (e.2 ≤ u) && decide (u < e.2 + n) then none
      else
        let v (o k : Nat) : List F64 := (r.vec.drop (e.2 + o)).take k
        some { k := e.1, dth := v 0 3, dt := v 3 3, di := v 6 (n - 6) }

/-- The result that a job commits at the boundary that ends tick k, and the tick of its solve. -/
def Leaf.solvDue (d : SolvDesc) (k : Nat) (l : Leaf) : SolvRes × Nat :=
  if d.kind = 4 then
    match l.solv.graph with
    | some g =>
      match g.res with
      | some r => if g.tick + d.gticks ≤ k + 1 then ({ r with flags := r.flags + 4 * b2n g.late }, g.tick) else (l.solvFallback d 6, k)
      | none => (l.solvFallback d 6, k)
    | none => (l.solvFallback d 6, k)
  else
    match (l.sjob d.job).res with
    | some r => (r, k)
    | none => (l.solvFallback d (if d.kind != 1 && (l.engPort 9 d.port).poison && (l.sjob d.job).st != .gone then 9 else 6), k)

/-- The graph solve at the boundary that ends tick k: done when its result has been committed, late when its due boundary passes. -/
def Leaf.graphBound (d : SolvDesc) (k : Nat) (l : Leaf) : Leaf :=
  match l.solv.graph with
  | none => l
  | some g =>
    if k + 1 < g.tick + d.gticks then l
    else if g.res.isSome then l.setSolv { l.solv with graph := none }
    else l.setSolv { l.solv with graph := some { g with late := true } }

/-- A result committed: object, registers, warm start. -/
def Leaf.solvCommit (d : SolvDesc) (r : SolvRes) (tick : Nat) (l : Leaf) : UnitRec × Leaf :=
  let l1 := (l.objWrite d.resObj 0 (r.header tick d.kind ++ r.body)).swapHalf d.resObj
  let size := match l1.obj d.resObj with | some o => o.size | none => 0
  let dig := crc64 (l1.objBytes d.resObj 0 size)
  let x := l1.sjob d.job
  let l2 := l1.setSjob d.job { x with prev := r.body, warm := if d.kind = 2 then r.vec else x.warm, out := { carry := r.carry, digest := dig } }
  let l3 := (((l2.put (Fld.SOLV_JOB_STAT_STATUS d.job) r.status).put (Fld.SOLV_JOB_STAT_ITER d.job) r.iters).put
    (Fld.SOLV_JOB_CLAMP_COUNT d.job) (min 65535 r.clamps)).wr (Reg.SOLV_JOB_COST d.job) (f32ofF64 r.cost1).toNat
  let l4 := if bitOf r.flags 0 then (l3.inc (Fld.SOLV_JOB_SHIFT_COUNT d.job)).flagEvent Fld.SOLV_STAT_SHIFT_EV 0x09A else l3
  let l5 := if r.status = 7 then l4.inc (Fld.SOLV_JOB_NONFIN_COUNT d.job) else l4
  ({ unit := 0xFF20 + d.job, pipe := some d.pipe, source := 9, status := r.status, carry := r.carry, digest := dig, bytes := size }, l5)

/-- One job at step 4 of the boundary that ends tick k. -/
def Leaf.solvOne (k : Nat) (a : SolvStep4 × Leaf) (d : SolvDesc) : SolvStep4 × Leaf :=
  let l := a.2
  let x := l.sjob d.job
  if d.kind = 5 then a
  else
    match x.st with
    | .idle =>
      ({ a.1 with recs := a.1.recs ++ [{ unit := 0xFF20 + d.job, pipe := none, source := 9, status := 0, carry := {}, digest := 0,
                                          bytes := 0, empty := true }] }, l)
    | .noFallback =>
      ({ a.1 with recs := a.1.recs ++ [{ unit := 0xFF20 + d.job, pipe := some d.pipe, source := 9, status := 8
                                         carry := { x.out.carry with stale := true }, digest := x.out.digest, bytes := 0, cut := true }] }, l)
    | _ =>
      let r := l.solvDue d k
      let c := (if d.kind = 4 then l.graphBound d k else l).solvCommit d r.1 r.2
      let l1 : Leaf := match d.kind, c.2.ego.hand with
        | 1, some h =>
          { c.2 with ego := { c.2.ego with corr := c.2.ego.corr ++ [{ tick := h.tick, dx := r.1.vec, cov := r.1.rows, status := r.1.status }] } }
        | _, _ => c.2
      let good := r.1.status == 0 || r.1.status == 4
      ({ recs := a.1.recs ++ [c.1]
         win := if d.kind = 2 && good then some (r.1.ids.zip r.1.rows) else a.1.win
         graph := if d.kind = 4 && good then some r.1.rows else a.1.graph
         props := if d.kind = 3 then a.1.props ++ proposalsOf d r.1 else a.1.props }, l1)

/-- Step 4 of the boundary that ends tick k. -/
def Leaf.solvStep4 (k : Nat) (l : Leaf) : SolvStep4 × Leaf :=
  let r := l.solvJobs.foldl (Leaf.solvOne k) ({}, l)
  (r.1, r.2.showGraph)

/-- Step 1: jobs that have not completed are stopped; a GRAPH job goes on. -/
def Leaf.solvCut (l : Leaf) : Leaf :=
  let run := l.solvRunning
  let l1 := match run with
    | some d => if d.kind = 4 then l else l.putB Fld.SOLV_STAT_BUSY false
    | none => l
  l1.putB Fld.SOLV_ASG_STAT_BUSY false

/-! ## The assignment unit (R418 to R420) -/

/-- The ASSIGN job of the tick. -/
def Leaf.asgJob (l : Leaf) : Option SolvDesc := l.solvJobs.find? fun d => d.kind == 5 && (l.sjob d.job).st == .armed

/-- ASSIGN_START. -/
def Leaf.asgStart (l : Leaf) : Leaf :=
  match l.asgJob with
  | none => l
  | some _ =>
    if l.ticking && l.solvEnded 8 && l.solv.asg == 0 && !l.bit Fld.SOLV_STAT_RST_BUSY then
      (l.setSolv { l.solv with asg := 1 }).putB Fld.SOLV_ASG_STAT_BUSY true
    else l

/-- The vector of the cost matrix in the input port: a column or −1 for each row, the non-finite entries, and whether the input is
bad. DESIGN CHOICE: a row count past 512 is cut to 512. -/
def asgVector (g : F64) (toks : List (List Byte)) : List (Option Nat) × Nat × Bool :=
  let h := toks.headD []
  let r := leAt h 0 4
  let c := leAt h 4 4
  let bs := (toks.drop 1).flatten
  if r = 0 || decide (512 < r) || c = 0 || decide (512 < c) || decide (bs.length < 4 * r * c) then
    (List.replicate (min 512 r) none, 0, true)
  else
    let m := ((List.range (r * c)).map fun i => f64ofF32 (BitVec.ofNat 32 (leAt bs (4 * i) 4))).toArray
    (assign g r c m, (m.toList.filter fun x => !f64finite x).length, false)

/-- ASSIGN_COMPLETE. -/
def Leaf.asgComplete (l : Leaf) : Leaf :=
  match l.asgJob with
  | none => l
  | some d =>
    if l.solv.asg != 1 then l
    else
      let e := l.engPort 9 8
      let l0 := ((l.setSjob d.job { l.sjob d.job with st := .done }).setSolv
        { (l.setSjob d.job { l.sjob d.job with st := .done }).solv with asg := 2 }).putB Fld.SOLV_ASG_STAT_BUSY false
      let l1 := (l0.putB (Fld.SOLV_JOB_STAT_DONE d.job) true).putFree Fld.SOLV_ASG_LAST_NS
      if e.poison then l1.engineSend 9 8 [poisonEnd false]
      else
        let v := asgVector (f64ofF32 d.gate) e.toks
        let toks := chunks 64 (v.1.flatMap fun o => leBytes 4 (patternOf 32 (match o with | some c => (c : Int) | none => -1)))
        let l2 := (l1.engineSend 9 8 (tokensOf e.carry false false toks)).countBy 15 1 v.2.1
        let l3 := (l2.put Fld.SOLV_ASG_STAT_ROWS v.1.length).put Fld.SOLV_ASG_STAT_UNASSIGNED (v.1.filter Option.isNone).length
        if v.2.2 then (l3.flagEvent Fld.SOLV_STAT_ASG_BAD 0x09C).bump 15 6 else l3

/-! ## Reset and registers (R422, R424) -/

/-- SOLV_CTRL.RESET. -/
def Leaf.solvReset (l : Leaf) : Leaf :=
  if l.bit Fld.SOLV_STAT_RST_BUSY then l
  else
    let asg := l.asgJob.isSome
    let l1 := l.solvJobs.foldl (fun (m : Leaf) d =>
      let x := m.sjob d.job
      if x.st == .armed || x.st == .running then m.setSjob d.job { x with st := .gone } else m) l
    let run : Bool := match l1.solv.graph with | some g => g.res.isNone | none => false
    let l2 := if run then l1.setSolv { l1.solv with graph := none, held := true } else l1
    let l3 := if asg then (l2.engineSend 9 8 [poisonEnd false]).setSolv { (l2.engineSend 9 8 [poisonEnd false]).solv with asg := 2 } else l2
    let l4 := (List.range 9).foldl (fun (m : Leaf) p => m.setEngPort 9 p { ended := (m.engPort 9 p).ended }) l3
    (((l4.putB Fld.SOLV_STAT_BUSY false).putB Fld.SOLV_ASG_STAT_BUSY false).putB Fld.SOLV_STAT_RST_BUSY true).showGraph

/-- GRAPH_REQ. -/
def Leaf.graphReq (l : Leaf) : Leaf := l.setSolv { l.solv with req := true }

/-- A write of SOLV_CTRL. -/
def Leaf.writeSolvCtrl (w : Nat) (l : Leaf) : Leaf :=
  let l1 := if bitOf w 31 then l.solvReset else l
  if bitOf w 30 then l1.graphReq else l1

/-- The reset ends. -/
def Leaf.solvResetDone (l : Leaf) : Leaf := l.putB Fld.SOLV_STAT_RST_BUSY false

/-- The solver at a whole-image glaze: job registers and warm starts cleared. -/
def Leaf.solvClear (l : Leaf) : Leaf :=
  let l1 := (l.setSolv {}).showGraph
  (List.range 8).foldl (fun (m : Leaf) j => (List.range 6).foldl (fun (m : Leaf) k => m.wr (Reg.SOLV_JOB_STAT j + 4 * k) 0) m) l1

end Sys2Proof.Machine
end

