-- ==== Sys2Proof/Machine/Blind.lean ====
section
/-!
DEFINITION. The decision on blind work (R338 to R343): causes, confirmation, squash.
-/
namespace Sys2Proof.Machine

/-! ## Causes (R339, R343) -/

/-- The version of a versioned state now. -/
def Leaf.versNow (l : Leaf) (k : Nat) : Nat :=
  if k < 4096 then l.objVers k else if k < 8192 then (alGet l.map.vers (k - 4096)).getD 0 else l.idxSeq (k - 8192)

/-- A versioned state that a run read has changed since, or its object has been poisoned. -/
def Leaf.staleRead (l : Leaf) (x : StageRun) : Bool :=
  x.vers.any fun v => l.versNow v.1 != v.2 || (decide (v.1 < 4096) && l.poisoned v.1)

/-- The first of the causes 1 to 6 that applies to the blind run of stage ix. -/
def Leaf.ownCause (outside : Bool) (l : Leaf) (ix : Nat) (x : StageRun) : Option Nat :=
  match l.stage ix with
  | none => some 3
  | some s =>
    if outside then some 1
    else if l.spec.disabled.contains ix then some 2
    else if !l.listed s then some 3
    else if x.poisoned || x.poisonIn || l.blindQueryPoison s.id then some 4
    else if x.rngTop.isSome then some 5
    else if l.staleRead x then some 6
    else none

/-- The stage IDs that feed a stage, straight or through the projection engine (R332). -/
def Leaf.blindProducers (l : Leaf) (id : Nat) : List Nat :=
  match l.glz.image with
  | none => []
  | some im =>
    (im.routes.filter fun d => d.dst == id).flatMap fun d =>
      if d.src = 0xFF08 then (im.routes.filter fun e => e.dst == 0xFF08 && e.dstPort == 20 + d.srcPort).map (·.src) else [d.src]

/-- One round of UPSTREAM over the causes so far, by stage index. -/
def Leaf.upstream (l : Leaf) (cs : List (Nat × Option Nat)) : List (Nat × Option Nat) :=
  let dead := cs.filterMap fun c => if c.2.isSome then (l.stage c.1).map (·.id) else none
  cs.map fun c =>
    match c.2, l.stage c.1 with
    | none, some s => if (l.blindProducers s.id).any fun p => dead.contains p then (c.1, some 7) else c
    | _, _ => c

/-- The cause of every blind stage, if it has one. -/
def Leaf.causes (outside : Bool) (l : Leaf) : List (Nat × Option Nat) :=
  Nat.repeat l.upstream l.fab.blinds.length (l.fab.blinds.map fun b => (b.1, l.ownCause outside b.1 b.2))

/-! ## Tokens of a blind producer -/

/-- A token that is no longer blind. -/
def Token.clear (t : Token) : Token := { t with blind := false }

/-- The routes of all output ports of a producer, and those of one port. -/
def Leaf.routesOf (l : Leaf) (p : RouteDesc → Bool) : List Nat :=
  match l.glz.image with
  | none => []
  | some im => (((List.range im.routes.length).zip im.routes).filter fun e => p e.2 && !e.2.committed).map (·.1)

/-- BLIND cleared on the tokens of a route. -/
def RouteRun.confirm (x : RouteRun) : RouteRun :=
  { x with waiting := x.waiting.map Token.clear, flight := x.flight.map Token.clear, buf := x.buf.map Token.clear }

/-- The blind tokens of a route discarded, with their credits returned (Table 6.9). -/
def RouteRun.discard (x : RouteRun) : RouteRun :=
  let keep (ts : List Token) : List Token := ts.filter fun t => !t.blind
  let gone := (x.flight.length + x.buf.length) - ((keep x.flight).length + (keep x.buf).length)
  RouteRun.pump { x with waiting := keep x.waiting, flight := keep x.flight, buf := keep x.buf, credits := x.credits + gone }

/-- Tokens put in front of all others of a route, which sends them again as credits allow. -/
def RouteRun.again (x : RouteRun) (ts : List Token) : RouteRun :=
  if ts.isEmpty then x
  else
    RouteRun.pump { x with
      credits := x.credits + x.flight.length + x.buf.length, waiting := ts ++ x.buf ++ x.flight ++ x.waiting, flight := [], buf := [] }

/-- Routes changed by f. -/
def Leaf.onRoutes (rs : List Nat) (f : RouteRun → RouteRun) (l : Leaf) : Leaf := rs.foldl (fun (m : Leaf) r => m.setRoute r (f (m.route r))) l

/-- The projection ports that a stage feeds. -/
def Leaf.projFed (l : Leaf) (id : Nat) : List Nat :=
  match l.glz.image with
  | none => []
  | some im => ((im.routes.filter fun d => d.src == id && blindPort d).map fun d => d.dstPort - 20).dedup

/-- A projection job's blind work becomes work of the tick. -/
def Leaf.projConfirm (l : Leaf) (j : Nat) : Leaf :=
  let b := l.engPort 72 (20 + j)
  let l1 := l.setFab { l.fab with ports := alDel (72 * 64 + 20 + j) l.fab.ports }
  let l2 := (l1.setEngPort 8 (20 + j) b).setFus
    { l1.fus with pj := alSet j ((alGet l1.fus.pj (8 + j)).getD {}) (alDel (8 + j) l1.fus.pj) }
  l2.onRoutes (l2.routesOf fun d => d.src == 0xFF08 && d.srcPort == j) RouteRun.confirm

/-- A projection job's blind work discarded. -/
def Leaf.projSquash (l : Leaf) (j : Nat) : Leaf :=
  let l1 := l.setFab { l.fab with ports := alDel (72 * 64 + 20 + j) l.fab.ports }
  let l2 := l1.setFus { l1.fus with pj := alDel (8 + j) l1.fus.pj }
  l2.onRoutes (l2.routesOf fun d => d.src == 0xFF08 && d.srcPort == j) RouteRun.discard

/-! ## Confirmation and squash (R340, R341) -/

/-- A stage confirmed: its blind run is the run of the tick. -/
def Leaf.confirmStage (l : Leaf) (ix : Nat) : Leaf :=
  match l.stage ix, alGet l.fab.blinds ix with
  | some s, some x =>
    let y := { x with confirmed := true, outs := x.outs.map fun ts => ts.map Token.clear }
    let l1 := l.setFab { l.fab with blinds := alDel ix l.fab.blinds, runs := alSet ix y l.fab.runs }
    let l2 := l1.onRoutes (l1.routesOf fun d => d.src == s.id) RouteRun.confirm
    let l3 := (l2.projFed s.id).foldl Leaf.projConfirm l2
    let l4 := (l3.putSlots ix Fld.PANE_SSTAT_BLIND 0).putSlots ix Fld.PANE_SSTAT_FINISHED (b2n y.finished)
    (l4.confirmRows s.id).inc Fld.SPEC_CONFIRM_CNT_COUNT
  | _, _ => l

/-- The tokens that a squashed stage took from producers that are confirmed are sent again (DEDUCED: the rerun of R341 needs them). -/
def Leaf.sendAgain (dead : List Nat) (s : StageDesc) (x : StageRun) (l : Leaf) : Leaf :=
  (List.range s.nin).foldl (fun (m : Leaf) p =>
    match m.glz.image.bind fun im => im.routeInto s.id p with
    | none => m
    | some (r, d) =>
      let from' := if d.src = 0xFF08 then (m.blindProducers s.id) else [d.src]
      if from'.any fun q => dead.contains q then m
      else
        let i := x.ins.getD p {}
        let ts := (tokensOf x.carry false false i.toks).map fun t => { t with last := t.last && i.ended }
        m.setRoute r ((m.route r).again (if i.toks.isEmpty && !i.ended then [] else ts))) l

/-- A stage squashed with a cause; `rerun` says that it is armed afresh if its variant lists it. -/
def Leaf.squashStage (dead : List Nat) (rerun : Bool) (l : Leaf) (c : Nat × Nat) : Leaf :=
  match l.stage c.1, alGet l.fab.blinds c.1 with
  | some s, some x =>
    let l1 := l.setFab { l.fab with blinds := alDel c.1 l.fab.blinds }
    let l2 := l1.onRoutes (l1.routesOf fun d => d.src == s.id) RouteRun.discard
    let l3 := (l2.projFed s.id).foldl Leaf.projSquash l2
    let l4 := (l3.sendAgain dead s x).putSlots c.1 Fld.PANE_SSTAT_BLIND 0
    let e := l4.freeDraw
    let l5 := ((((e.2.countBy 12 18 e.1).releaseRows s.id).bump 12 (7 + c.2)).inc Fld.SPEC_SQUASH_CNT_COUNT)
    if rerun && l5.listed s && (l5.runOf false c.1).isNone then
      (l5.setRun false c.1 s.fresh).putSlots c.1 Fld.PANE_SSTAT_ARMED 1
    else l5
  | _, _ => l

/-- Every blind stage confirmed or squashed by its cause; squashes first, so that no discarded token counts as confirmed. -/
def Leaf.settleBlind (rerun : Bool) (cs : List (Nat × Option Nat)) (l : Leaf) : Leaf :=
  let dead := cs.filterMap fun c => if c.2.isSome then (l.stage c.1).map (·.id) else none
  let l1 := (cs.filterMap fun c => c.2.map fun k => (c.1, k)).foldl (Leaf.squashStage dead rerun) l
  let l2 := (cs.filter fun c => c.2.isNone).foldl (fun (m : Leaf) c => m.confirmStage c.1) l1
  ({ l2 with spec := { l2.spec with disabled := [] } }).putB Fld.SPEC_STAT_BLIND_RUN false

/-! ## The decision (R338) -/

/-- The decision for the blind work of a tick whose working pose is known. -/
def Leaf.specDecide (rerun : Bool) (tick : Nat) (l : Leaf) : Leaf :=
  match l.spec.work with
  | none => l
  | some w =>
    if w.tick != tick then l
    else
      let outside := w.source != 0
      let dec := if !w.pred then 3 else if outside then 2 else 1
      let l1 := ((((l.put Fld.SPEC_STAT_DEC dec).wr64 Reg.SPEC_DEC_TICK_LO Reg.SPEC_DEC_TICK_HI tick).wr Reg.SPEC_LAST_DPOS w.dpos).wr
        Reg.SPEC_LAST_DYAW w.dyaw)
      let l2 := if dec = 2 then l1.flagEvent Fld.SPEC_STAT_GATE_EV 0x078 else l1
      let l3 := l2.settleBlind rerun (l2.causes outside)
      ({ l3 with spec := { l3.spec with pending := none, decided := some tick } }).putB Fld.SPEC_STAT_PENDING false

/-- The decision that step 3 leaves pending for a tick. -/
def Leaf.specPend (tick : Nat) (l : Leaf) : Leaf :=
  ({ l with spec := { l.spec with pending := some tick } }).putB Fld.SPEC_STAT_PENDING true

/-- SPEC_DECISION: a pending decision is made once the pose has arrived. -/
def Leaf.specDecision (l : Leaf) : Leaf :=
  match l.spec.pending with
  | none => l
  | some k => l.specDecide true k

/-- All blind work squashed at a boundary with cause HALT or NO_POSE. -/
def Leaf.squashAll (cause : Nat) (l : Leaf) : Leaf :=
  let l1 := l.settleBlind false (l.fab.blinds.map fun b => (b.1, some cause))
  let l2 := if cause = 9 && !l.fab.blinds.isEmpty then l1.flagEvent Fld.SPEC_STAT_NO_POSE_EV 0x079 else l1
  ({ l2 with spec := { l2.spec with pending := none } }).putB Fld.SPEC_STAT_PENDING false

/-- Step 1 of a boundary that ends tick k: a decision still pending for it is made when the pose is there, or squashes with NO_POSE. -/
def Leaf.specStep1 (l : Leaf) : Leaf :=
  match l.spec.pending with
  | none => l
  | some k =>
    let l1 := l.specDecide true k
    if l1.spec.pending.isSome then l1.squashAll 9 else l1

/-- Step 3 for the tick that starts, run when its variants have been selected (step 9): a pose that is available decides, otherwise the
decision stays pending; at a halting boundary all is squashed. -/
def Leaf.specStep3 (halting : Bool) (next : Nat) (l : Leaf) : Leaf :=
  if halting then l.squashAll 8
  else
    let l1 := l.specDecide false next
    if l1.spec.decided == some next then l1 else l1.specPend next

/-- Speculation at a whole-image glaze and a leaf reset: all blind state is discarded without a decision. -/
def Leaf.specClear (l : Leaf) : Leaf := (({ l with spec := {} }).putB Fld.SPEC_STAT_PENDING false).putB Fld.SPEC_STAT_BLIND_RUN false

end Sys2Proof.Machine
end

