-- ==== Sys2Proof/Machine/StageCheck.lean ====
section
/-!
DEFINITION. What a glaze requires of stages and engine blocks: the rules for parameter blocks (R179, R182 to R185, R563, Table 6.7),
speculable stages (R332), vision blocks (R277, R281, R293), the fusion block (R301) and the solver block (R397 to R399).
-/
namespace Sys2Proof.Machine

/-! ## Parameter blocks -/

/-- A number between two bounds. -/
def within (lo hi n : Nat) : Bool := decide (lo ≤ n) && decide (n ≤ hi)

/-- Some element of a list occurs earlier in it. -/
def repeats (xs : List Nat) : Bool := decide (xs.dedup.length < xs.length)

/-- A tensor descriptor by itself (Table 6.5, R140, R141). -/
def TDesc.sound (d : TDesc) : Bool :=
  within 0 0x10 d.fmt && within 1 4 d.rank && decide (d.kind ≤ 3) && d.rsvd == 0 && (decide (2 ≤ d.kind) || d.obj == 0)
    && ((d.dims.drop d.rank).all fun n => n == 1)
    && (!fmtMx d.fmt || d.dims.getD 0 1 % 32 == 0)
    && d.count * fmtBits d.fmt % (if fmtBits d.fmt = 6 then 24 else 8) == 0

/-- The format holds numbers (all but RECORD16). -/
def fmtNum (c : Nat) : Bool := decide (c ≤ 0x0F)

/-- The operand slots of an operator and the KIND each takes (Table 6.7). -/
def operandSlots : Nat → List (Nat × Nat)
  | 0x01 | 0x02 | 0x03 | 0x04 => [(0, 2), (1, 2), (2, 2)]
  | 0x05 | 0x09 => [(0, 2)]
  | 0x0A => [(0, 3)]
  | 0x0E => [(0, 3), (1, 2), (2, 2)]
  | _ => []

/-- A field of the operator body. -/
def StageDesc.par (s : StageDesc) (o n : Nat) : Nat := leAt s.body o n

/-- The descriptor of an operand slot, whatever its KIND. -/
def StageDesc.slotDesc (s : StageDesc) (k : Nat) : Option TDesc := s.descs.find? fun d => decide (2 ≤ d.kind) && d.port == k

/-- The slot is named. -/
def StageDesc.hasSlot (s : StageDesc) (k : Nat) : Bool := (s.slotDesc k).isSome

/-- A descriptor meets a condition; false where it is missing. -/
def okDesc (d : Option TDesc) (p : TDesc → Bool) : Bool := match d with | some x => p x | none => false

/-- The dimensions of a descriptor. -/
def dimsAre (d : Option TDesc) (ds : List Nat) : Bool := okDesc d fun x => x.dims == ds

/-- The numbers of ports. -/
def StageDesc.portsAre (s : StageDesc) (i o : Nat) : Bool := s.nin == i && s.nout == o

/-- The input ports carry numbers, as do the output ports. -/
def StageDesc.numeric (s : StageDesc) : Bool := s.descs.all fun d => decide (2 ≤ d.kind) || fmtNum d.fmt

/-- The bias and requant slots are named exactly when their EPI bits are set, with their shapes (R184). -/
def StageDesc.epiOk (s : StageDesc) (epi chans : Nat) : Bool :=
  decide (epi ≤ 3)
    && (if bitOf epi 0 then okDesc (s.slotDesc 1) fun d => d.fmt == 0x0D && d.rank == 1 && d.dims.getD 0 0 == chans
        else !s.hasSlot 1)
    && (if bitOf epi 1 then
          okDesc (s.slotDesc 2) fun d => d.fmt == 0x0E && d.rank == 2 && d.dims.getD 0 0 == 12 && d.dims.getD 1 0 == chans
        else !s.hasSlot 2)

/-- The pair of formats is one of Table 5.1 (R136). -/
def pairOk (a b : Option TDesc) : Bool := okDesc a fun x => okDesc b fun y => macGroup x.fmt y.fmt != 0

/-- MATMUL. -/
def StageDesc.matmulOk (s : StageDesc) : Bool :=
  let m := s.par 0 4
  let n := s.par 4 4
  let k := s.par 8 4
  let b := if s.nin = 2 then s.desc 0 1 else s.slotDesc 0
  s.body.length == 16 && s.par 14 2 == 0 && decide (s.par 12 1 ≤ 1) && within 1 16777216 m && within 1 16777216 n
    && within 1 16777216 k && (s.portsAre 1 1 || s.portsAre 2 1) && (s.nin == 2) == !s.hasSlot 0
    && dimsAre (s.desc 0 0) [k, m, 1, 1] && dimsAre b [k, n, 1, 1] && dimsAre (s.desc 1 0) [n, m, 1, 1]
    && pairOk (s.desc 0 0) b && s.numeric && s.epiOk (s.par 13 1) n

/-- The extent of a convolution or pooling output; none where the window does not fit. -/
def convOut (n before after k step : Nat) : Option Nat :=
  if n + before + after < k then none else some ((n + before + after - k) / max 1 step + 1)

/-- CONV2D and DWCONV. DEDUCED: the weights have DIM0 = Cin / GROUPS and as many elements as the kernels need; the output is what the
strides, dilations and padding leave. -/
def StageDesc.convOk (s : StageDesc) (dw : Bool) : Bool :=
  okDesc (s.desc 0 0) fun i => okDesc (s.desc 1 0) fun o => okDesc (s.slotDesc 0) fun w =>
    let d (k : Nat) : Nat := i.dims.getD k 1
    let cout := o.dims.getD 0 1
    let kh := (s.par 0 1 - 1) * s.par 4 1 + 1
    let kw := (s.par 1 1 - 1) * s.par 5 1 + 1
    let grp := if dw then d 0 else s.par 10 2
    let cg := d 0 / max 1 grp
    s.body.length == 16 && s.par 14 2 == 0 && s.portsAre 1 1 && s.numeric && within 1 7 (s.par 0 1) && within 1 7 (s.par 1 1)
      && ([2, 3, 4, 5].all fun k => within 1 4 (s.par k 1))
      && ([6, 7].all fun k => decide (s.par k 1 ≤ (s.par 0 1 - 1) * s.par 4 1))
      && ([8, 9].all fun k => decide (s.par k 1 ≤ (s.par 1 1 - 1) * s.par 5 1)) && decide (s.par 13 1 ≤ 1)
      && decide (d 0 ≤ 16384) && decide (d 1 ≤ 16384) && decide (d 2 ≤ 8192)
      && grp != 0 && d 0 % max 1 grp == 0 && cout % max 1 grp == 0 && (!dw || cout == d 0)
      && o.dims.getD 3 1 == d 3 && some (o.dims.getD 1 1) == convOut (d 1) (s.par 8 1) (s.par 9 1) kw (s.par 3 1)
      && some (o.dims.getD 2 1) == convOut (d 2) (s.par 6 1) (s.par 7 1) kh (s.par 2 1)
      && w.dims.getD 0 1 == cg && w.count == cg * s.par 0 1 * s.par 1 1 * cout && macGroup i.fmt w.fmt != 0
      && s.epiOk (s.par 12 1) cout

/-- The place of the object a descriptor names. -/
def Image.placeOf (im : Image) (d : TDesc) : Nat := match im.objects[d.obj]? with | some o => o.place | none => 4

/-- ATTENTION. -/
def StageDesc.attentionOk (s : StageDesc) (im : Image) : Bool :=
  let e := s.par 0 2 * s.par 2 2
  s.body.length == 20 && s.portsAre 1 1 && s.numeric && within 1 64 (s.par 0 2) && within 16 256 (s.par 2 2) && s.par 2 2 % 16 == 0
    && within 1 65536 (s.par 4 4) && within 1 65536 (s.par 8 4) && ([64, 128, 256, 512].contains (s.par 12 2))
    && decide (s.par 14 1 ≤ 2) && decide (s.par 15 1 ≤ 1)
    && (okDesc (s.desc 0 0) fun q => okDesc (s.slotDesc 0) fun k => okDesc (s.slotDesc 1) fun v =>
      fmtFloat q.fmt && fmtFloat k.fmt && fmtFloat v.fmt && q.count == e * s.par 4 4 && k.count == e * s.par 8 4
        && v.count == e * s.par 8 4 && macGroup q.fmt k.fmt != 0 && macGroup v.fmt v.fmt != 0
        && decide (im.placeOf k ≤ 1) && decide (im.placeOf v ≤ 1))
    && (okDesc (s.desc 1 0) fun o => o.count == e * s.par 4 4)
    && (if s.par 14 1 = 2 then okDesc (s.slotDesc 2) fun d => decide (s.par 4 4 * s.par 8 4 ≤ 8 * tenExtent d.fmt d.count)
        else !s.hasSlot 2)

/-- NORM. -/
def StageDesc.normOk (s : StageDesc) : Bool :=
  s.body.length == 8 && s.portsAre 1 1 && s.numeric && decide (s.par 0 1 ≤ 1) && decide (s.par 1 1 ≤ 1) && within 1 1024 (s.par 2 2)
    && (okDesc (s.desc 0 0) fun i =>
      let d0 := i.dims.getD 0 1
      decide (d0 ≤ 65536) && d0 % max 1 (s.par 2 2) == 0 && dimsAre (s.desc 1 0) i.dims
        && (if s.par 1 1 = 1 then okDesc (s.slotDesc 0) fun g => g.fmt == 0x0D && g.count == 2 * d0 else !s.hasSlot 0))

/-- POOL. -/
def StageDesc.poolOk (s : StageDesc) : Bool :=
  s.body.length == 8 && s.par 6 2 == 0 && s.portsAre 1 1 && s.numeric && decide (s.par 0 1 ≤ 3)
    && ([1, 2, 3, 4].all fun k => within 1 8 (s.par k 1)) && decide (s.par 5 1 ≤ 3)
    && (okDesc (s.desc 0 0) fun i => okDesc (s.desc 1 0) fun o =>
      let d (k : Nat) : Nat := i.dims.getD k 1
      let e (k : Nat) : Nat := o.dims.getD k 1
      e 0 == d 0 && e 3 == d 3
        && (if s.par 0 1 < 2 then
              some (e 1) == convOut (d 1) (s.par 5 1) (s.par 5 1) (s.par 2 1) (s.par 4 1)
                && some (e 2) == convOut (d 2) (s.par 5 1) (s.par 5 1) (s.par 1 1) (s.par 3 1)
            else e 1 == 1 && e 2 == 1))

/-- RESAMPLE. -/
def StageDesc.resampleOk (s : StageDesc) : Bool :=
  s.body.length == 12 && s.par 2 2 == 0 && s.portsAre 1 1 && s.numeric && decide (s.par 0 1 ≤ 1) && decide (s.par 1 1 ≤ 1)
    && within 1 8192 (s.par 4 4) && within 1 8192 (s.par 8 4)
    && (okDesc (s.desc 0 0) fun i => dimsAre (s.desc 1 0) [i.dims.getD 0 1, s.par 4 4, s.par 8 4, i.dims.getD 3 1])

/-- The sources a micro-op reads (Table 6.8). -/
def MicroOp.reads (m : MicroOp) : List Nat :=
  if [1, 8, 9, 0xA, 0xB, 0xC, 0xD, 0x12, 0x13, 0x14].contains m.code then [m.a]
  else if [5, 0x11, 0x15].contains m.code then [m.a, m.b, m.c]
  else [m.a, m.b]

/-- A source is readable: a port below NIN, a temporary written before, a constant below NK. -/
def srcOk (nin nk : Nat) (written : List Nat) (a : Nat) : Bool :=
  if a < 8 then decide (a < nin) else if a < 16 then written.contains a else decide (a - 16 < nk)

/-- The micro-op sequence (R185): `written` are the destinations so far. -/
def microsOk (nin nout nk : Nat) : List Nat → List Nat → Bool
  | written, [] => (List.range nout).all fun p => written.count p == 1
  | written, w :: t =>
    let m := microOp w
    within 1 0x15 m.code && w % 64 == 0 && (m.reads.all (srcOk nin nk written)) && decide (m.d < 16)
      && (decide (8 ≤ m.d) || decide (m.d < nout)) && microsOk nin nout nk (written ++ [m.d]) t

/-- ELEMENTWISE (R185). -/
def StageDesc.elementwiseOk (s : StageDesc) : Bool :=
  let nops := s.par 0 1
  let nk := s.par 1 1
  within 1 32 nops && decide (nk ≤ 16) && s.par 2 2 == 0 && s.body.length == 4 + 4 * (nops + nk) && s.numeric
    && microsOk s.nin s.nout nk [] ((List.range nops).map fun i => s.par (4 + 4 * i) 4)
    && (s.descs.filter fun d => decide (d.kind < 2)).all fun d => (s.descs.filter fun e => decide (e.kind < 2)).all fun e => d.count == e.count

/-- GATHER. -/
def StageDesc.gatherOk (s : StageDesc) : Bool :=
  s.body.length == 12 && s.par 9 3 == 0 && s.portsAre 1 1 && within 1 4096 (s.par 0 4) && within 1 (2 ^ 31) (s.par 4 4)
    && decide (s.par 8 1 ≤ 1)
    && (okDesc (s.desc 0 0) fun i => okDesc (s.desc 1 0) fun o => okDesc (s.slotDesc 0) fun t =>
      i.fmt == 2 && !fmtMx t.fmt && !fmtMx o.fmt && tenExtent t.fmt t.count == s.par 4 4 * s.par 0 4
        && tenExtent o.fmt o.count == i.count * s.par 0 4)

/-- SCATTER. DEDUCED: its row gives it no output port. -/
def StageDesc.scatterOk (s : StageDesc) : Bool :=
  s.body.length == 12 && s.par 9 3 == 0 && s.portsAre 2 0 && within 1 4096 (s.par 0 4) && within 1 (2 ^ 31) (s.par 4 4)
    && decide (s.par 8 1 ≤ 2)
    && (okDesc (s.desc 0 0) fun i => okDesc (s.desc 0 1) fun r => okDesc (s.slotDesc 0) fun t =>
      i.fmt == 2 && !fmtMx t.fmt && !fmtMx r.fmt && tenExtent t.fmt t.count == s.par 4 4 * s.par 0 4
        && tenExtent r.fmt r.count == i.count * s.par 0 4
        && (s.par 8 1 == 0 || (t.fmt == 0x0D && r.fmt == 0x0D && s.par 0 4 % 4 == 0)))

/-- A binary32 field above 0 (finite or not). -/
def posF32 (w : Nat) : Bool := fpLt (fpOfNat 0) (f32v (BitVec.ofNat 32 w))

/-- VOXELIZE. -/
def StageDesc.voxelizeOk (s : StageDesc) : Bool :=
  s.body.length == 36 && s.portsAre 1 1 && (okDesc (s.desc 0 0) fun i => i.fmt == 0x10)
    && ([12, 16, 20].all fun k => posF32 (s.par k 4)) && within 1 1024 (s.par 24 2) && within 1 1024 (s.par 26 2)
    && within 1 64 (s.par 28 2) && within 1 64 (s.par 30 1) && decide (s.par 31 1 ≤ 2) && within 1 65536 (s.par 32 4)

/-- TOPK. DEDUCED: the input is runs of N elements, each output K elements of every run. -/
def StageDesc.topkOk (s : StageDesc) : Bool :=
  let k := s.par 0 4
  let n := s.par 4 4
  s.body.length == 12 && s.par 10 2 == 0 && within 1 4096 k && within k 16777216 n && decide (s.par 8 1 ≤ 1)
    && decide (s.par 9 1 ≤ 2) && s.portsAre 1 (if s.par 9 1 = 0 then 2 else 1) && s.numeric
    && (okDesc (s.desc 0 0) fun i => i.count % max 1 n == 0
      && ((List.range s.nout).all fun p => okDesc (s.desc 1 p) fun o => o.count == i.count / max 1 n * k))

/-- REDUCE. -/
def StageDesc.reduceOk (s : StageDesc) : Bool :=
  s.body.length == 4 && s.par 3 1 == 0 && s.portsAre 1 1 && s.numeric && decide (s.par 0 1 ≤ 4) && decide (s.par 1 1 ≤ 15)
    && decide (s.par 2 1 ≤ 1)
    && (okDesc (s.desc 0 0) fun i => okDesc (s.desc 1 0) fun o =>
      o.count == dimProd ((List.range 4).map fun k => if bitOf (s.par 1 1) k then 1 else i.dims.getD k 1))

/-- RECUR. -/
def StageDesc.recurOk (s : StageDesc) : Bool :=
  let dim := s.par 2 2
  let per := if s.par 4 1 = 1 then 2 * dim else dim
  let gates := if s.par 4 1 = 1 then 4 else 3
  s.body.length == 8 && s.par 5 1 == 0 && s.portsAre 2 1 && s.numeric && within 1 2048 (s.par 0 2) && within 16 1024 dim && dim % 16 == 0
    && decide (s.par 4 1 ≤ 1) && within 16 1024 (s.par 6 2)
    && (okDesc (s.desc 0 0) fun i => okDesc (s.desc 0 1) fun f => okDesc (s.desc 1 0) fun o => okDesc (s.slotDesc 0) fun t =>
      okDesc (s.slotDesc 1) fun w =>
        i.fmt == 2 && f.count == i.count * s.par 6 2 && o.count == i.count * per && t.fmt == 0x0D && t.count == s.par 0 2 * per
          && fmtNum w.fmt && macGroup w.fmt w.fmt != 0 && w.count == gates * dim * (s.par 6 2 + dim))
    && (!s.hasSlot 2 || (okDesc (s.slotDesc 2) fun b => b.fmt == 0x0D && b.count == gates * dim))

/-- The operator's row of Table 6.7. -/
def StageDesc.opOk (s : StageDesc) (im : Image) : Bool :=
  match s.opcode with
  | 0x01 => s.matmulOk
  | 0x02 => s.convOk false
  | 0x03 => s.convOk true
  | 0x04 => s.attentionOk im
  | 0x05 => s.normOk
  | 0x06 => s.poolOk
  | 0x07 => s.resampleOk
  | 0x08 => s.elementwiseOk
  | 0x09 => s.gatherOk
  | 0x0A => s.scatterOk
  | 0x0B => s.voxelizeOk
  | 0x0C => s.topkOk
  | 0x0D => s.reduceOk
  | 0x0E => s.recurOk
  | _ => false

/-- The bytes that a descriptor's object must hold: those of the tensor, or of its 2:4 form for a sparse operand B (R150). -/
def StageDesc.needs (s : StageDesc) (d : TDesc) : Nat :=
  if bitOf s.hflags 0 && d.port == 0 then
    let lay := Config.sparseLayout d.fmt (d.count / 2)
    max (packedBytes d.fmt (d.count / 2)) (max (lay.1 + d.count / 8) (if fmtMx d.fmt then lay.2 + d.count / 32 else 0))
  else d.extent

/-- A descriptor of KIND 2 or 3 and its object (R179, R183, R563). -/
def StageDesc.objOk (s : StageDesc) (im : Image) (d : TDesc) : Bool :=
  match im.objects[d.obj]? with
  | none => false
  | some o =>
    (operandSlots s.opcode).contains (d.port, d.kind) && (d.kind == 2 || o.writable) && decide (s.needs d ≤ o.size)
      && (o.place != 3 || bitOf s.panes o.pane)

/-- Rules 1 and 2 of R332. -/
def StageDesc.specOk (s : StageDesc) (im : Image) : Bool :=
  !s.spec || s.descs.all fun d => d.kind != 3 && (d.kind != 2 || !((im.objects[d.obj]?).any fun o => o.hostVisible))

/-- Step 1 of R562 for a stage: R115 other than its port rule, R179, R182 to R185, R563, its operator, R332. `secLen` is the length of
the section. -/
def StageDesc.ok (s : StageDesc) (im : Image) (secLen : Nat) : Bool :=
  decide (s.id ≤ 0xFEFF) && decide (s.pipe < im.pipes.length) && decide (s.sflags < 16) && decide (s.nin ≤ 8) && decide (s.nout ≤ 8)
    && s.rsvd == 0 && s.panes != 0 && decide (s.panes < 2 ^ im.l) && s.pofs % 4 == 0 && decide (s.pofs + s.plen ≤ secLen)
    && decide (16 + 24 * s.ndesc ≤ s.plen) && decide (s.ndesc ≤ 16) && decide (s.hflags ≤ 1) && s.hrsvd == 0
    && (!bitOf s.hflags 0 || s.opcode == 1 || s.opcode == 2)
    && ((List.range 8).all fun p => if p < s.nout then within 1 16 (s.outMax.getD p 0) else s.outMax.getD p 0 == 0)
    && (s.descs.all fun d => d.sound && (if d.kind < 2 then decide (d.port < (if d.kind = 0 then s.nin else s.nout)) else s.objOk im d))
    && ((List.range s.nin).all fun p => (s.descs.filter fun d => d.kind == 0 && d.port == p).length == 1)
    && ((List.range s.nout).all fun p => (s.descs.filter fun d => d.kind == 1 && d.port == p).length == 1)
    && !repeats ((s.descs.filter fun d => decide (2 ≤ d.kind)).map fun d => d.port)
    && (im.routes.all fun r => r.src != s.id || decide (s.nout ≤ r.srcPort) || decide (s.outMax.getD r.srcPort 0 ≤ r.credits))
    && s.opOk im && s.specOk im

/-! ## Vision blocks -/

/-- The object may hold surfaces (R277): RESIDENT_DRAM, not WRITABLE, no primary flash address, named by no stage. -/
def Image.surfObjOk (im : Image) (i : Nat) : Bool :=
  match im.objects[i]? with
  | none => false
  | some o => o.place == 0 && !o.writable && o.primary == 0
      && im.stages.all fun s => s.descs.all fun d => decide (d.kind < 2) || d.obj != i

/-- A surface entry (Table 10.1). -/
def SurfCfg.ok (im : Image) (s : SurfCfg) : Bool :=
  im.surfObjOk s.obj && (s.fmt == 0x0E || s.fmt == 0x0F) && within 1 6 s.levels && within 1 2 s.nbuf && s.rsvd == 0 && within 16 4096 s.w
    && within 16 2304 s.h && s.ofs % 64 == 0
    && (im.objects[s.obj]?).any fun o => decide (s.ofs + s.nbuf * s.copyBytes ≤ o.size)

/-- The jobs and surfaces of an engine of the image. -/
def Image.visJobsOf (im : Image) (e : Nat) : List JobCfg :=
  if within 1 7 e then match im.engine e with | some b => visJobs b.body | none => [] else []
def Image.surfOf (im : Image) (e i : Nat) : Option SurfCfg := (im.engine e).bind fun b => (visSurfs b.body)[i]?

/-- An image reference (R279): a camera 0 to 5, a surface that is declared, with a level it has, PREV only with two copies; or none
where the engine takes no second image. -/
def Image.refOk (im : Image) (none? : Bool) (r : Nat) : Bool :=
  match refKind r with
  | 0 => refLevel r == 0 && refEng r == 0 && decide (refIndex r ≤ 5)
  | 3 => none?
  | k =>
    (refEng r == 6 || refEng r == 7)
      && (im.surfOf (refEng r) (refIndex r)).any fun s => decide (refLevel r < s.levels) && (k == 1 || s.nbuf == 2)

/-- The parameters of a job (Table 10.4): ranges, and every unused byte 0. -/
def JobCfg.parOk (im : Image) (e : Nat) (j : JobCfg) : Bool :=
  let zero (o : Nat) : Bool := (j.par.drop (o - 20)).all fun b => b == 0
  if e ≤ 2 then decide (j.get 20 1 ≤ j.get 21 1) && decide (j.get 22 1 ≤ 100) && zero 26
  else if e ≤ 4 then
    within 1 8 (j.get 20 1) && decide (j.get 21 1 ≤ 5) && decide (j.get 22 1 ≤ 100) && decide (j.get 23 1 ≤ 1) && zero 28
  else if e = 5 then
    within 1 255 (j.get 23 1) && within 1 2048 (j.get 24 2) && (j.get 26 2 == 0 || within 16 512 (j.get 26 2))
      && decide (j.get 22 1 ≤ 1) && zero 30
  else
    decide (j.get 20 1 ≤ 2) && decide (j.get 21 1 ≤ 4) && (j.get 22 1 == 0x0E || j.get 22 1 == 0x0F) && decide (j.get 23 1 ≤ 8)
      && zero 32 && (j.get 20 1 == 1 || decide (j.get 24 2 < im.objects.length))

/-- A predecessor reference: 0, or VALID with an engine and a job that has a block. -/
def Image.predOk (im : Image) (p : Nat) : Bool :=
  p == 0 || (bitOf p 15 && bitsOf p 14 12 == 0 && bitsOf p 7 4 == 0 && ((im.visJobsOf (bitsOf p 11 8))[bitsOf p 3 0]?).isSome)

/-- A job descriptor of engine e at a position (Table 10.3). -/
def Image.jobOk (im : Image) (e pos : Nat) (j : JobCfg) : Bool :=
  j.job == pos && decide (j.pipe < im.pipes.length) && decide (j.trig ≤ 1)
    && (if j.trig = 0 then j.pred0 == 0 && j.pred1 == 0 else im.predOk j.pred0 && im.predOk j.pred1)
    && im.refOk false j.in0 && im.refOk (decide (3 ≤ e)) j.in1
    && (if 6 ≤ e then
          j.outSurf == 0 || (bitOf j.outSurf 15 && bitsOf j.outSurf 14 4 == 0 && (im.surfOf e (bitsOf j.outSurf 3 0)).isSome)
        else j.outSurf == 0)
    && decide (j.outPorts ≤ 3) && j.rsvd == 0 && j.parOk im e

/-- Whether the predecessors of a job lead, within `fuel` steps, only to jobs without predecessors. -/
def Image.chainEnds (im : Image) : Nat → Nat → Nat → Bool
  | 0, _, _ => false
  | fuel + 1, e, j =>
    match (im.visJobsOf e)[j]? with
    | none => true
    | some d => [d.pred0, d.pred1].all fun p => !bitOf p 15 || im.chainEnds fuel (bitsOf p 11 8) (bitsOf p 3 0)

/-- A vision block (R281). -/
def Image.visOk (im : Image) (b : EngineBlock) : Bool :=
  let nj := leAt b.body 0 2
  let ns := leAt b.body 2 2
  b.version == 1 && within 1 16 nj && decide (ns ≤ (if 6 ≤ b.code then 16 else 0))
    && b.body.length == 16 + 16 * ns + 64 * nj + (if b.code = 5 then 1024 else 0)
    && ((sliceBytes b.body 4 12).all fun x => x == 0) && ((visSurfs b.body).all (SurfCfg.ok im))
    && (((List.range nj).zip (visJobs b.body)).all fun p => im.jobOk b.code p.1 p.2 && im.chainEnds 113 b.code p.1)
    && (b.code != 5 || (visPattern b.body).all fun x => decide ((signedOf 8 x.toNat).natAbs ≤ 15))

/-! ## Fusion and solver blocks -/

/-- A RESIDENT_DRAM object that no stage names with KIND 3 (R301), of a size, WRITABLE or not. -/
def Image.unitObj (im : Image) (i size : Nat) (writable : Bool) : Bool :=
  match im.objects[i]? with
  | none => false
  | some o => o.place == 0 && o.writable == writable && decide (size ≤ o.size)
      && im.stages.all fun s => s.descs.all fun d => d.kind != 3 || d.obj != i

/-- The fusion block (R301, Table 11.1). -/
def Image.fusOk (im : Image) (b : EngineBlock) : Bool :=
  let y (o n : Nat) : Nat := leAt b.body o n
  b.version == 1 && b.body.length == 80 && decide (y 0 1 ≤ 1) && decide (y 1 1 ≤ 16) && decide (y 2 1 ≤ 8)
    && decide (y 3 1 < im.pipes.length) && im.unitObj (y 4 2) 2097216 true && im.unitObj (y 6 2) 131136 true
    && (y 8 2 == 0xFFFF || im.unitObj (y 8 2) 64 false)
    && (if y 0 1 = 0 then im.unitObj (y 10 2) 8192 false else y 10 2 == 0xFFFF)
    && (y 12 2 == 0xFFFF || (im.stage (y 12 2)).isSome || (decide (0xFF01 ≤ y 12 2) && decide (y 12 2 ≤ 0xFF09)))
    && y 14 2 == 0 && y 24 8 == 0
    && ((List.range 16).all fun e => if e < y 1 1 then decide (y (32 + e) 1 ≤ 5) || vectorSources.contains (y (32 + e) 1) else y (32 + e) 1 == 0xFF)
    && ((List.range 8).all fun j =>
      if j < y 2 1 then decide (y (48 + 4 * j) 1 ≤ 7) && decide (y (49 + 4 * j) 1 < 64) && y (50 + 4 * j) 2 == 0
      else y (50 + 4 * j) 2 == 0)

/-- The smallest RES_OBJ of a kind (Table 15.5). -/
def SolvDesc.resSize (d : SolvDesc) : Nat :=
  match d.kind with
  | 1 => 2048
  | 2 => 266384
  | 3 => 64 + 8 * d.nparam + 192
  | _ => 4168

/-- The CALMAP entries in use, as first parameter and count: three angles, three translations and, for a camera, four intrinsics. -/
def SolvDesc.calRanges (d : SolvDesc) : List (Nat × Nat) :=
  (d.calmap.filter fun e => e.1 != 0xFF).map fun e => (e.2, if e.1 < 6 then 10 else 6)

/-- No CALMAP entry reaches past NPARAM and no two overlap (R399). -/
def SolvDesc.calOk (d : SolvDesc) : Bool :=
  let rs := d.calRanges
  (d.calmap.all fun e => e.1 == 0xFF || decide (e.1 ≤ 5) || within 8 15 e.1)
    && (rs.all fun r => decide (r.1 + r.2 ≤ d.nparam))
    && (List.range rs.length).all fun i => (List.range i).all fun k =>
      let a := rs.getD i (0, 0)
      let b := rs.getD k (0, 0)
      decide (a.1 + a.2 ≤ b.1) || decide (b.1 + b.2 ≤ a.1)

/-- A solver job descriptor at a position (Table 15.3). -/
def Image.solvJobOk (im : Image) (pos : Nat) (d : SolvDesc) : Bool :=
  d.job == pos && within 1 5 d.kind && decide (d.pipe < im.pipes.length) && !d.rsvd
    && (if d.kind = 5 then d.port == 8 else decide (d.port ≤ 7) || d.port == 0xFF)
    && decide (d.flags ≤ (if d.kind = 3 then 1 else 0))
    && (if d.kind = 5 then d.resObj == 0xFFFF else im.unitObj d.resObj d.resSize true)
    && ((d.kind != 2 && d.kind != 4) || within 1 64 d.maxit)
    && (if d.kind = 3 then within 1 1536 d.nparam else d.nparam == 0)
    && (d.kind != 4 || within 1 1000 d.gticks) && (d.kind != 3 || d.calOk)

/-- The scratch object (R397). -/
def Image.scratchOk (im : Image) (i : Nat) : Bool :=
  match im.objects[i]? with
  | none => false
  | some o => o.place == 0 && !o.writable && !o.hostVisible && o.primary == 0 && decide (134217728 ≤ o.size)
      && im.stages.all fun s => s.descs.all fun d => decide (d.kind < 2) || d.obj != i

/-- The solver block (R398, R399). -/
def Image.solvOk (im : Image) (b : EngineBlock) : Bool :=
  let nj := leAt b.body 0 1
  let ds := solvDescs b.body
  let scr := solvScratch b.body
  let needs := ds.any fun d => d.kind == 4 || (d.kind == 3 && decide (1024 < d.nparam))
  b.version == 1 && within 1 8 nj && b.body.length == 16 + 96 * nj && leAt b.body 1 1 == 0
    && ((sliceBytes b.body 4 12).all fun x => x == 0)
    && (((List.range nj).zip ds).all fun p => im.solvJobOk p.1 p.2)
    && ([1, 2, 4, 5].all fun k => decide ((ds.filter fun d => d.kind == k).length ≤ 1))
    && decide ((ds.filter fun d => d.calib).length ≤ 1)
    && (if scr = 0xFFFF then !needs else im.scratchOk scr)

/-- Step 4 of R562 for a block: R117 and the body rules of its engine. -/
def Image.blockOk (im : Image) (b : EngineBlock) : Bool :=
  b.rsvd == 0
    && (if within 1 7 b.code then im.visOk b else if b.code = 8 then im.fusOk b else if b.code = 9 then im.solvOk b else false)

end Sys2Proof.Machine
end

