-- ==== Sys2Proof/Machine/GlazeCheck.lean ====
section
/-!
DEFINITION. The checks of a load (Table 4.8, R126, R562): each answers the DETAIL and FAILPOS of its first breach.
-/
namespace Sys2Proof.Machine

/-- A failed check: STATUS, DETAIL and FAILPOS. -/
structure LoadFail where
  status : Nat
  detail : Nat
  pos : Nat
  deriving DecidableEq, Repr

/-- The first failure of a list of checks. -/
def firstFail : List (Option LoadFail) → Option LoadFail
  | [] => none
  | some f :: _ => some f
  | none :: t => firstFail t

/-- The position of the first item that breaks a rule. -/
def firstBad {α : Type} (ok : α → Bool) (pos : α → Nat) (xs : List α) : Option Nat := (xs.find? fun x => !ok x).map pos

/-- The first of two positions. -/
def orPos (a b : Option Nat) : Option Nat := match a with | some x => some x | none => b

/-! ## SECTION (row 6) -/

/-- The section kinds that are known. -/
def knownKinds : List Nat := [1, 2, 3, 4, 5, 6, 0xFF]

/-- The kinds an image must have (Table 4.2). -/
def requiredKinds (update : Bool) : List Nat := if update then [4, 5, 0xFF] else knownKinds

/-- A section's LENGTH fits its COUNT (R111). -/
def Section.fits (s : Section) : Bool :=
  match s.kind with
  | 1 => decide (s.count * 32 ≤ s.len)
  | 2 => s.len == s.count * 16
  | 3 => decide (s.count * 8 ≤ s.len)
  | 4 => decide (s.count * 176 ≤ s.len)
  | 6 => s.len == s.count * 64
  | 0xFF => s.len == 144 && s.count == 1
  | _ => true

/-- Two byte ranges share a byte. -/
def rangesMeet (a n b m : Nat) : Bool := decide (a < b + m) && decide (b < a + n)

/-- The header (R109, R110): the offset of the first field out of range. -/
def headerBad (b : Array Byte) (len : Nat) (update : Bool) : Option Nat :=
  let n := imgAt b 14 2
  let so := imgAt b 56 4
  if !within 1 64 (imgAt b 12 1) then some 12
  else if imgAt b 13 1 != b2n update then some 13
  else if !within 2 16 n then some 14
  else if !update && (imgBytes b 16 32).any (fun x => x != 0) then some 16
  else if so % 16 != 0 || decide (so < 64) || decide (len < so + 16 * n) then some 56
  else if imgAt b 60 4 != 0 then some 60
  else none

/-- A section table entry among the ones before it (R109, R111, R112). The signature must be last and end at LENGTH. -/
def sectionOk (len tabAt tabLen nsect : Nat) (update : Bool) (before : List Section) (i : Nat) (s : Section) : Bool :=
  decide (s.sflags ≤ 1) && s.start % 64 == 0 && decide (s.start + s.len ≤ len) && decide (64 ≤ s.start)
    && !rangesMeet s.start s.len tabAt tabLen && (before.all fun t => !rangesMeet s.start s.len t.start t.len && t.kind != s.kind)
    && (if knownKinds.contains s.kind then (requiredKinds update).contains s.kind else bitOf s.sflags 0)
    && s.fits && ((s.kind == 0xFF) == (i + 1 == nsect)) && (s.kind != 0xFF || s.start + s.len == len)

/-- The section table: the offset of the first entry that breaks a rule; for a required section that is missing, NSECT. DESIGN CHOICE:
the spec names no item for a missing section. -/
def sectionsBad (len : Nat) (b : Array Byte) (update : Bool) : Option Nat :=
  let ss := readSections b
  let n := ss.length
  let at' := imgAt b 56 4
  orPos (((List.range n).find? fun i =>
      !(match ss[i]? with | some s => sectionOk len at' (16 * n) n update (ss.take i) i s | none => false)).map fun i => at' + 16 * i)
    (if (requiredKinds update).all fun k => ss.any fun s => s.kind == k then none else some 14)

/-- The energy table (R109, R120): its header and its length. -/
def energyBad (b : Array Byte) : Option Nat :=
  let ss := readSections b
  match findSection ss 5, findSection ss 4 with
  | some e, some v =>
    let nv := ((List.range v.count).map fun i => imgAt b (v.start + 176 * i + 33) 1).foldl (· + ·) 0
    if decide (e.len < 16) || e.len != 16 + 32 * nv || e.count != v.count then some e.ofs
    else if imgAt b e.start 2 != v.count then some e.start
    else if (imgBytes b (e.start + 2) 14).any (fun x => x != 0) then some (e.start + 2)
    else none
  | _, _ => none

/-- Row 6. -/
def sectionBad (b : Array Byte) (len : Nat) (update : Bool) : Option Nat :=
  orPos (headerBad b len update) (orPos (sectionsBad len b update) (energyBad b))

/-! ## KEY and SIGNATURE (rows 7, 8) -/

/-- Row 7 (R124): the slot is present and not revoked, and its hash is that of the key. -/
def keyBad (f : Fuses) (b : Array Byte) (at' : Nat) : Option Nat :=
  let slot := imgAt b at' 1
  let hash := sha256 (imgBytes b (at' + 4) 64)
  if !((slot == 0 && f.present0 && !f.revoked0) || (slot == 1 && f.present1 && !f.revoked1)) then some at'
  else if hash != (if slot = 0 then f.keyHash0 else f.keyHash1) then some (at' + 4)
  else none

/-- Row 8 (R123, R124): the algorithm, the reserved bytes, the signature over the bytes before the section. -/
def signatureBad (b : Array Byte) (at' : Nat) : Option Nat :=
  let n (o : Nat) : Nat := beNat (imgBytes b (at' + o) 32)
  if imgAt b (at' + 1) 1 != 1 then some (at' + 1)
  else
    match (([2, 3] ++ (List.range 12).map (· + 132)).find? fun o => imgAt b (at' + o) 1 != 0) with
    | some o => some (at' + o)
    | none => if ecdsaVerify (imgBytes b 0 at') (n 4) (n 36) (n 68) (n 100) then none else some (at' + 68)

/-! ## LIMIT (row 10) -/

/-- The table entry of a section, for FAILPOS. -/
def secOfs (ss : List Section) (kind : Nat) : Nat := match findSection ss kind with | some s => s.ofs | none => 0

/-- The COUNT of a section. -/
def secCount (ss : List Section) (kind : Nat) : Nat := match findSection ss kind with | some s => s.count | none => 0

/-- The limits on pipelines, variants and stage lists (Table 4.3). -/
def pipesLimit (im : Image) : Bool :=
  within 1 64 (secCount im.sections 4)
    && ((List.range im.pipes.length).all fun i => (im.pipes.filter fun p => p.num == i).length == 1)
    && (im.pipes.all fun p => within 1 8 p.nvar)
    && decide ((im.pipes.map fun p => (p.variants.map fun v => v.stages.length).foldl (· + ·) 0).foldl (· + ·) 0 ≤ 8192)

/-- A stage within the limits of panes and routes: at most 16 stages on each of its panes so far, 64 routes from it and to it. -/
def stageLimit (im : Image) (i : Nat) (s : StageDesc) : Bool :=
  (s.paneList.all fun p => decide (((im.stages.take (i + 1)).filter fun t => bitOf t.panes p).length ≤ 16))
    && decide ((im.routes.filter fun r => r.src == s.id).length ≤ 64)
    && decide ((im.routes.filter fun r => r.dst == s.id).length ≤ 64)

/-- Row 10. -/
def limitBad (update : Bool) (im : Image) : Option Nat :=
  let ss := im.sections
  if !update && decide (1024 < secCount ss 1) then some (secOfs ss 1)
  else if !update && decide (8192 < secCount ss 2) then some (secOfs ss 2)
  else if !update && (decide (9 < secCount ss 3) || repeats (im.engines.map fun b => b.code)) then some (secOfs ss 3)
  else if !pipesLimit im then some (secOfs ss 4)
  else if !update && decide (4095 < secCount ss 6) then some (secOfs ss 6)
  else (((List.range im.stages.length).zip im.stages).find? fun e => !stageLimit im e.1 e.2).map fun e => e.2.ofs

/-! ## REFERENCE (row 11, R562) -/

/-- Step 1: stages. The second stage with an ID breaks its uniqueness (Table 4.4). -/
def stagesBad (im : Image) : Option Nat :=
  let len := match findSection im.sections 1 with | some s => s.len | none => 0
  (((List.range im.stages.length).zip im.stages).find? fun e =>
    !(e.2.ok im len && (im.stages.take e.1).all fun t => t.id != e.2.id)).map fun e => e.2.ofs

/-- The engine of a pseudo-stage ID, when it has a block. -/
def Image.pseudo (im : Image) (id : Nat) : Option EngineBlock := if 0xFF00 ≤ id then im.engine (id - 0xFF00) else none

/-- A producer port exists: of a stage, a vision stream, a projection output, the assignment vector (R116, R302, R400). -/
def Image.srcPortOk (im : Image) (r : RouteDesc) : Bool :=
  match im.stage r.src, im.pseudo r.src with
  | some s, _ => decide (r.srcPort < s.nout)
  | none, some b =>
    if b.code = 8 then decide (r.srcPort < (fusCfgOf b.body).npj)
    else if b.code = 9 then r.srcPort == 8
    else decide (r.srcPort ≤ 1)
  | none, none => false

/-- A consumer port exists (R116, R272, R302, R400). -/
def Image.dstPortOk (im : Image) (r : RouteDesc) : Bool :=
  match im.stage r.dst, im.pseudo r.dst with
  | some s, _ => decide (r.dstPort < s.nin)
  | none, some b =>
    if b.code = 8 then
      let c := fusCfgOf b.body
      decide (r.dstPort < c.nev) || r.dstPort == 16 || (r.dstPort == 17 && c.method == 1 && r.src == 0xFF09)
        || (decide (20 ≤ r.dstPort) && decide (r.dstPort < 20 + c.npj))
    else b.code == 9 && decide (r.dstPort ≤ 8)
  | none, none => false

/-- The stage of an ID is speculable. -/
def Image.isSpec (im : Image) (id : Nat) : Bool := (im.stage id).any fun s => s.spec

/-- Rules 3 to 5 of R332 for a route. -/
def Image.specRoute (im : Image) (r : RouteDesc) : Bool :=
  (!im.isSpec r.dst
    || (!r.committed && (im.isSpec r.src
      || (r.src == 0xFF08 && im.routes.any fun q => q.dst == 0xFF08 && q.dstPort == 20 + r.srcPort && im.isSpec q.src))))
    && (!im.isSpec r.src || (im.stage r.dst).isSome || (r.dst == 0xFF08 && within 20 27 r.dstPort))

/-- Step 2: a route. -/
def Image.routeOk (im : Image) (r : RouteDesc) : Bool :=
  im.srcPortOk r && im.dstPortOk r && decide (r.rflags ≤ 1) && decide (r.vc ≤ 3) && within 1 256 r.credits && r.rsvd == 0
    && (!r.committed || (im.stage r.src).any fun s => s.commit) && im.specRoute r

/-- Step 3: every declared port is connected, an input port by exactly one route (R115). -/
def Image.portsOk (im : Image) (s : StageDesc) : Bool :=
  ((List.range s.nin).all fun p => (im.routes.filter fun r => r.dst == s.id && r.dstPort == p).length == 1)
    && ((List.range s.nout).all fun p => im.routes.any fun r => r.src == s.id && r.srcPort == p)

/-- The bytes an image may use of a pane's SRAM (R178). -/
def paneSramMax : Nat := 2031616

/-- A demand on pane SRAM: its item's offset, and the panes with the bytes each gives up. -/
def Image.sramDemands (im : Image) : List (Nat × List Nat × Nat) :=
  (im.stages.map fun s => (s.ofs, s.paneList, s.sram))
    ++ (im.routes.filterMap fun r => (im.stage r.dst).map fun s => (r.ofs, [s.entry], 64 * r.credits))
    ++ ((im.objects.filter fun o => o.place == 3).map fun o => (o.ofs, [o.pane], (if o.writable then 2 else 1) * o.size))

/-- The bytes demanded of pane p by a list of demands. -/
def sramTotal (ds : List (Nat × List Nat × Nat)) (p : Nat) : Nat :=
  ((ds.filter fun d => d.2.1.contains p).map fun d => d.2.2).foldl (· + ·) 0

/-- Step 5: the first demand that takes a pane past its limit. -/
def Image.sramBad (im : Image) : Option Nat :=
  let ds := im.sramDemands
  (((List.range ds.length).zip ds).find? fun e => e.2.2.1.any fun p => decide (paneSramMax < sramTotal (ds.take (e.1 + 1)) p)).map
    fun e => e.2.1

/-- The tokens in which a tensor is sent (R167): a scale token for every 64 blocks of an MX tensor, and its element tokens. -/
def TDesc.tokens (d : TDesc) : Nat :=
  if fmtMx d.fmt then
    let blocks := d.count / 32
    ((List.range ((blocks + 63) / 64)).map fun g =>
      1 + (packedBytes d.fmt (32 * min 64 (blocks - 64 * g)) + 63) / 64).foldl (· + ·) 0
  else (packedBytes d.fmt d.count + 63) / 64

/-- The bytes of the committed-output region that a stage takes: two buffers a port, three for a speculable stage (R180, R333). -/
def StageDesc.commitBytes (s : StageDesc) : Nat :=
  if s.commit then
    (if s.spec then 3 else 2) * ((List.range s.nout).map fun p => match s.desc 1 p with | some d => 64 * d.tokens | none => 0).foldl (· + ·) 0
  else 0

/-- Step 6: the first stage that takes the region past 256 MiB. -/
def Image.regionBad (im : Image) : Option Nat :=
  (((List.range im.stages.length).zip im.stages).find? fun e =>
    decide (2 ^ 28 < ((im.stages.take (e.1 + 1)).map fun s => s.commitBytes).foldl (· + ·) 0) && decide (0 < e.2.commitBytes)).map
    fun e => e.2.ofs

/-- A variant's stage list against the stages and routes (R119). -/
def Image.listOk (im : Image) (n : Nat) (v : Variant) : Bool :=
  (v.stages.all fun id => (im.stage id).any fun s => s.pipe == n)
    && (im.stages.all fun s => s.pipe != n || !s.commit || v.stages.contains s.id)
    && (im.routes.all fun r => r.committed || !v.stages.contains r.dst || isEngine r.src || v.stages.contains r.src)

/-- The reserved fields of a pipeline entry and of its variant records, and the records past NVAR (R109, R118). -/
def pipeRsvd (b : Array Byte) (p : PipeDesc) : Option Nat :=
  if p.rsvd != 0 then some p.ofs
  else
    orPos ((p.variants.find? fun v => v.rsvd != 0).map fun v => v.ofs)
      (((List.range 8).find? fun v => decide (p.nvar ≤ v) && (imgBytes b (p.ofs + 48 + 16 * v) 16).any fun x => x != 0).map
        fun v => p.ofs + 48 + 16 * v)

/-- Step 7: pipelines in number order, each entry and then its variants. `st` are the stages and routes that the lists are held
against. -/
def variantsBad (b : Array Byte) (st im : Image) : Option Nat :=
  ((List.range im.pipes.length).zip im.pipes).foldl (fun acc e =>
    orPos acc (orPos (if e.2.num != e.1 then some e.2.ofs else none)
      (orPos (pipeRsvd b e.2) (firstBad (st.listOk e.2.num) (fun v => v.ofs) e.2.variants)))) none

/-- Step 4: engine blocks in section order; a block that the section has no room for breaks R117. -/
def enginesBad (im : Image) : Option Nat :=
  let stop := match findSection im.sections 3 with | some s => s.start + s.len | none => 0
  orPos (firstBad (fun x => im.blockOk x && decide (x.ofs + 8 + x.body.length ≤ stop)) (fun x => x.ofs) im.engines)
    (if im.engines.length = secCount im.sections 3 then none else some stop)

/-- Row 11 of a whole image: the seven steps in order. -/
def referenceBad (b : Array Byte) (im : Image) : Option Nat :=
  orPos (stagesBad im)
    (orPos (firstBad im.routeOk (fun r => r.ofs) im.routes)
      (orPos (firstBad im.portsOk (fun s => s.ofs) im.stages)
        (orPos (enginesBad im)
          (orPos im.sramBad (orPos im.regionBad (variantsBad b im im))))))

/-! ## OBJECT (row 12) -/

/-- The DRAM extent of an object: address and bytes; empty where it has no DRAM address (R195). -/
def ObjDesc.dramExtent (o : ObjDesc) : Nat × Nat := (o.dram, if o.dram = 0 then 0 else o.dramEnd - o.dram)

/-- The bindings an object's placement needs and the flags it allows (R121, R122, Table 7.3). -/
def ObjDesc.placed (o : ObjDesc) (l : Nat) : Bool :=
  (o.mirror != 0) == o.mirrored && !(bitOf o.oflags 0 && bitOf o.oflags 1)
    && (match o.place with
      | 0 => true
      | 1 | 2 => !o.writable && !o.hostVisible && o.primary != 0 && o.dram == 0
      | 3 => !bitOf o.oflags 0 && !bitOf o.oflags 1 && !o.hostVisible && decide (o.pane < l) && o.dram == 0
      | _ => false)
    && (o.place == 3 || o.pane == 0) && (!o.mirrored || o.primary != 0)

/-- The alignment and channel rules of an object's flash addresses (R195). -/
def ObjDesc.flashOk (o : ObjDesc) : Bool :=
  let one (a : Nat) : Bool :=
    decide (a < 2 ^ 40) && a % 2 ^ 37 % (if o.striped then 65536 else 16384) == 0
      && decide (a % 2 ^ 37 + (if o.striped then ((o.size + 65535) / 65536 + 7) / 8 * 65536 else o.size) ≤ 2 ^ 37)
  (o.primary == 0 || one o.primary) && (!o.mirrored || (one o.mirror && o.mirror / 2 ^ 37 != o.primary / 2 ^ 37))
    && !anyOverlap o.extents bootExtents

/-- The DRAM address of a RESIDENT_DRAM object lies in software's range, aligned, outside the cache partition (R195). -/
def ObjDesc.dramOk (o : ObjDesc) (cacheAt cacheLen : Nat) : Bool :=
  o.place != 0
    || (o.dram % (if o.hostVisible then 4096 else 64) == 0 && decide (o.dramEnd ≤ 0xB60000000)
      && !rangesMeet o.dram (o.dramEnd - o.dram) cacheAt cacheLen)

/-- Object i with its binding, against the objects before it (R121, R122, R195, R196). -/
def objectOk (im : Image) (cacheAt cacheLen i : Nat) (o : ObjDesc) : Bool :=
  decide (1 ≤ o.size) && decide (o.oflags < 16) && o.rsvd == 0 && o.bindIdx == i && o.bindRsvd == 0 && o.placed im.l && o.flashOk
    && o.dramOk cacheAt cacheLen
    && (im.objects.take i).all fun p => p.name != o.name && !anyOverlap p.extents o.extents
      && (p.place != 0 || o.place != 0 || !rangesMeet p.dram (p.dramEnd - p.dram) o.dram (o.dramEnd - o.dram))

/-- Row 12: BIND_CNT against COUNT, then the objects in index order. FAILPOS is the object index. -/
def objectBad (im : Image) (bindCnt cacheAt cacheLen : Nat) : Option Nat :=
  let n := secCount im.sections 6
  if bindCnt != n then some (min bindCnt n)
  else (((List.range im.objects.length).zip im.objects).find? fun e => !objectOk im cacheAt cacheLen e.1 e.2).map fun e => e.1

/-! ## BASE (row 13) -/

/-- Row 13 of a variant-only image (R131). -/
def baseBad (cur : Image) (hash : Nat) (im : Image) : Option Nat :=
  if im.l != cur.l then some 12
  else if im.baseHash != hash then some 16
  else if im.pipes.length != cur.pipes.length then
    some (((findSection im.sections 4).map fun s => s.start).getD 0 + 176 * min im.pipes.length cur.pipes.length)
  else
    ((List.range im.pipes.length).zip im.pipes).foldl (fun acc e =>
      orPos acc (firstBad (cur.listOk e.2.num) (fun v => v.ofs) e.2.variants)) none

/-! ## The load -/

/-- The image of a staged copy. -/
def Staged.image (s : Staged) : Image := readImage s.bytes s.bind

/-- The hash of the variant and energy tables of a staged copy (Table 1.21). -/
def Staged.varHash (s : Staged) : Nat :=
  let b := s.bytes.toArray
  let ss := readSections b
  let bs (k : Nat) : List Byte := match findSection ss k with | some x => imgBytes b x.start x.len | none => []
  sha256 (bs 4 ++ bs 5)

/-- A row of Table 4.8. -/
def row (status detail : Nat) (pos : Option Nat) : Option LoadFail := pos.map fun p => ⟨status, detail, p⟩

/-- A row with FAILPOS 0. -/
def row0 (status detail : Nat) (bad : Bool) : Option LoadFail := if bad then some ⟨status, detail, 0⟩ else none

/-- The checks of rows 2 to 13 of Table 4.8 on a staged copy. -/
def Leaf.loadCheck (l : Leaf) (s : Staged) : Option LoadFail :=
  let b := s.bytes.toArray
  let im := s.image
  let sig := match findSection im.sections 0xFF with | some x => x.start | none => 0
  firstFail
    [row0 0x09 0x0F s.poison,
     row0 0x0B 0x02 (decide (2 ^ 26 < s.len) || decide (s.len < 64) || s.len != im.length),
     row0 0x0B 0x03 (imgBytes b 0 4 != [0x4B, 0x47, 0x4C, 0x5A]),
     row0 0x0B 0x04 (imgAt b 4 2 != 1),
     row 0x0B 0x05 (sectionBad b s.len s.update),
     row 0x0E 0x06 (keyBad l.fuses b sig),
     row 0x0E 0x07 (signatureBad b sig),
     if s.update then none else row 0x0D 0x08 (if l.get Fld.LEAF_ID_PANES < im.l then some 12 else none),
     row 0x0B 0x09 (limitBad s.update im),
     if s.update then row 0x0B 0x0A ((im.pipes.map (pipeRsvd b)).foldl orPos none) else row 0x0B 0x0A (referenceBad b im),
     if s.update then none else row 0x0B 0x0B (objectBad im s.bindCnt l.cacheBase (l.cacheSize * 2 ^ 21)),
     if s.update then
       match l.glz.image with
       | some cur => row 0x0B 0x0C (baseBad cur (beNat ((List.range 8).flatMap fun i => leBytes 4 (l.rd (Reg.LEAF_GLZ_HASH i)))) im)
       | none => some ⟨0x0B, 0x0C, 16⟩
     else none]

end Sys2Proof.Machine
end

