-- ==== Sys2Proof/Machine/Glaze.lean ====
section
/-!
DEFINITION. Glazing (R109 to R135): the load and update commands, the key fuses, and the commit of an image or an update.
-/
namespace Sys2Proof.Machine

/-- A leaf's glazing state replaced. -/
def Leaf.setGlz (l : Leaf) (g : GlzState) : Leaf := { l with glz := g }

/-- A command ends (R126, R135): status, detail and FAILPOS set, DONE set, BUSY clear, GLAZE_DONE raised. -/
def Leaf.glzEnd (status detail pos : Nat) (l : Leaf) : Leaf :=
  let l1 := ((l.put Fld.LEAF_GLZ_STAT_STATUS status).put Fld.LEAF_GLZ_STAT_DETAIL detail).put Fld.LEAF_GLZ_FAILPOS_POS pos
  ((l1.putB Fld.LEAF_GLZ_STAT_BUSY false).putB Fld.LEAF_GLZ_STAT_DONE true).raise 0x008

/-! ## The commands (R126, R129, R130, R132) -/

/-- The copy that a LOAD or UPDATE makes at the command (R126, R130). -/
def Leaf.stagedCopy (update : Bool) (l : Leaf) : Staged :=
  let a := l.rd64 Reg.LEAF_GLZ_ADDR_LO Reg.LEAF_GLZ_ADDR_HI
  let n := l.get Fld.LEAF_GLZ_LEN_LEN
  let ba := l.rd64 Reg.LEAF_GLZ_BIND_LO Reg.LEAF_GLZ_BIND_HI
  let bn := if update then 0 else 32 * l.get Fld.LEAF_GLZ_BIND_CNT_CNT
  let target := l.rd64 Reg.LEAF_GLZ_TARGET_LO Reg.LEAF_GLZ_TARGET_HI
  { bytes := l.dramRead a n, bind := l.dramRead ba bn, update := update, poison := l.badRange a n || l.badRange ba bn, len := n,
    bindCnt := l.get Fld.LEAF_GLZ_BIND_CNT_CNT, target := target
    missed := update && l.ticking && decide (target ≤ l.tickNum) }

/-- A LOAD or UPDATE (row 1 of Table 4.8, R129). -/
def Leaf.glzCommand (update : Bool) (l : Leaf) : Leaf :=
  if l.bit Fld.LEAF_GLZ_STAT_BUSY || l.bit Fld.LEAF_GLZ_STAT_PENDING then l.putB Fld.LEAF_GLZ_STAT_CMD_REFUSED true
  else
    let l1 := l.putB Fld.LEAF_GLZ_STAT_LAST_UPD update
    if (if update then [3, 4, 5] else [2, 3, 5]).contains l.state then
      (l1.setGlz { l1.glz with staged := some (l.stagedCopy update) }).putB Fld.LEAF_GLZ_STAT_BUSY true
    else l1.glzEnd 0x0B 0x01 0

/-- CANCEL while PENDING discards the update (R132). -/
def Leaf.glzCancel (l : Leaf) : Leaf :=
  if l.bit Fld.LEAF_GLZ_STAT_PENDING then
    (((l.setGlz { l.glz with pend := none }).putB Fld.LEAF_GLZ_STAT_PENDING false).glzEnd 0x00 0x10 (l.rd Reg.LEAF_GLZ_FAILPOS))
  else l

/-- A write to LEAF_GLZ_CMD. DESIGN CHOICE: LOAD and UPDATE written together act as LOAD. -/
def Leaf.writeGlzCmd (w : Nat) (l : Leaf) : Leaf :=
  let l1 := if bitOf w 31 then l.glzCommand false else if bitOf w 30 then l.glzCommand true else l
  if bitOf w 29 then l1.glzCancel else l1

/-! ## Key slots (R124, R125) -/

/-- A write to LEAF_GLZ_KUNLOCK arms the value for the next write to KCTL. -/
def Leaf.writeKunlock (w : Nat) (l : Leaf) : Leaf := (l.swWrite Reg.LEAF_GLZ_KUNLOCK w).setGlz { l.glz with unlock := some w }

/-- The hash in LEAF_GLZ_KPROG0 to 7, as a big-endian number (R135). -/
def Leaf.kprogHash (l : Leaf) : Nat := beNat ((List.range 8).flatMap fun i => leBytes 4 (l.rd (Reg.LEAF_GLZ_KPROG i)))

/-- The fuse operation that a write to KCTL with an unlock value calls for; none where it is not allowed. -/
def Leaf.fuseOpOf (w : Nat) (l : Leaf) : Option FuseOp :=
  if !([2, 3, 5].contains l.state) || l.bit Fld.LEAF_GLZ_STAT_BUSY || l.glz.fuse.isSome then none
  else if l.glz.unlock = some 0x474F5250 then
    if bitOf w 31 && !l.fuses.present1 then some (.prog1 l.kprogHash) else none
  else if l.glz.unlock = some 0x4B564552 then
    if bitOf w 30 || bitOf w 29 then some (.revoke (bitOf w 29) (bitOf w 30)) else none
  else none

/-- A write to LEAF_GLZ_KCTL: the unlock value is consumed; the operation starts, or KEY_REFUSED is set. -/
def Leaf.writeKctl (w : Nat) (l : Leaf) : Leaf :=
  let l1 := (l.swWrite Reg.LEAF_GLZ_KCTL w).setGlz { l.glz with unlock := none }
  if w / 2 ^ 29 = 0 then l1
  else
    match l.fuseOpOf w with
    | some f => (l1.setGlz { l1.glz with fuse := some f }).putB Fld.LEAF_GLZ_KCTL_FUSE_BUSY true
    | none => l1.putB Fld.LEAF_GLZ_KCTL_KEY_REFUSED true

/-- The fuse bits as LEAF_GLZ_KCTL and LEAF_GLZ_KHASH1 show them. -/
def Leaf.showFuses (l : Leaf) : Leaf :=
  let l1 := (l.putB Fld.LEAF_GLZ_KCTL_PRESENT1 l.fuses.present1).putB Fld.LEAF_GLZ_KCTL_REVOKED0 l.fuses.revoked0
  let l2 := l1.putB Fld.LEAF_GLZ_KCTL_REVOKED1 l.fuses.revoked1
  (List.range 8).foldl (fun (m : Leaf) i => m.wr (Reg.LEAF_GLZ_KHASH1 i) (leAt (beBytes 32 l.fuses.keyHash1) (4 * i) 4)) l2

/-- The fuse operation ends. -/
def Leaf.fuseDone (l : Leaf) : Leaf :=
  match l.glz.fuse with
  | none => l
  | some op =>
    let f := match op with
      | .prog1 h => { l.fuses with keyHash1 := h, present1 := true }
      | .revoke r0 r1 => { l.fuses with revoked0 := l.fuses.revoked0 || r0, revoked1 := l.fuses.revoked1 || r1 }
    ((({ l with fuses := f }).setGlz { l.glz with fuse := none }).putB Fld.LEAF_GLZ_KCTL_FUSE_BUSY false).showFuses

/-! ## The commit of a load (R128) -/

/-- A hash shown in eight registers from address a on (R135). -/
def Leaf.putHash (a h : Nat) (l : Leaf) : Leaf :=
  (List.range 8).foldl (fun (m : Leaf) i => m.wr (a + 4 * i) (leAt (beBytes 32 h) (4 * i) 4)) l

/-- The registers of a logical pane for a new image (R157, R178, R190). -/
def Leaf.glazePane (im : Image) (l : Leaf) (p : Nat) : Leaf :=
  let ss := im.stages.filter fun s => bitOf s.panes p
  let inI := decide (p < im.l)
  let l1 := (l.putB (Fld.PANE_ID_IN_IMAGE p) inI).put (Fld.PANE_STATE_NSTAGE p) ss.length
  let l2 := (l1.put (Fld.PANE_SRAM_USED p) (sramTotal im.sramDemands p)).putB (Fld.PANE_STATE_CLK_STOP p) (!inI)
  (List.range 16).foldl (fun (m : Leaf) k =>
    let v := match ss[k]? with | some s => 2 ^ 31 + s.id | none => 0
    ((((((m.wr (Reg.PANE_SSTAT p k) v).wr (Reg.PANE_SFIRE p k) 0).wr (Reg.PANE_SWTOK p k) 0).wr (Reg.PANE_SWCRD p k) 0).wr
      (Reg.PANE_ASLOT p k) v).wr (Reg.PANE_ASTAT p k) 0)) l2

/-- The memory tiers for a new image: no poison, an empty cache, the lower halves in use (R197, R201, R210). -/
def Leaf.glazeMem (l : Leaf) : Leaf :=
  let l1 := { l with mem := { l.mem with repairs := [], clears := [], receipts := [], sram := [], vers := [] } }
  let l2 := (List.range 128).foldl (fun (m : Leaf) k => (m.wr (Reg.MEM_POISON_MAP k) 0).wr (Reg.MEM_WHALF k) 0) l1
  (((l2.wr Reg.MEM_POISON_PIPE_LO 0).wr Reg.MEM_POISON_PIPE_HI 0).showPoison).emptyCache

/-- One codeword of a fill (R128 step 4, R203 to R205): the copy of one that poisons a RESIDENT_DRAM object reads as uncorrectable. -/
def Leaf.fillWord (i : Nat) (o : ObjDesc) (k : Nat) (a : List ReadOutcome × Leaf) : List ReadOutcome × Leaf :=
  let r := a.1.headD ⟨some 0, none⟩
  let x := a.2.codeword i o (flashAddr o.primary (4096 * k) o.striped) false r
  if x.1 || o.place != 0 then (a.1.tail, x.2)
  else (a.1.tail, x.2.setBad (x.2.mem.bad ++ (List.range 128).filterMap fun j =>
    if 4096 * k + 32 * j < o.size then some ((o.dram + 4096 * k) / 32 * 32 + 32 * j) else none))

/-- An object filled at glaze (R128 step 4, R196, R197). -/
def Leaf.fillObj (a : List ReadOutcome × Leaf) (e : Nat × ObjDesc) : List ReadOutcome × Leaf :=
  let o := e.2
  if o.place != 0 && o.place != 3 then a
  else if o.primary = 0 then
    if o.place = 0 && o.writable then (a.1, a.2.dramWrite (o.dram + up64 o.size) (a.2.dramRead o.dram o.size)) else a
  else
    let l1 := a.2.refill e.1 o 0 o.size
    (List.range ((o.size + 4095) / 4096)).foldl (fun x k => Leaf.fillWord e.1 o k x) (a.1, l1)

/-- The tick registers of the pipelines at a glaze: reset values, then NVAR (R106, R128 step 5). -/
def Leaf.glazePipes (im : Image) (l : Leaf) : Leaf :=
  let l1 := (List.range 64).foldl (fun (m : Leaf) n =>
    (((m.wr (Reg.TICK_PIPE_CFG n) 0x700).wr (Reg.TICK_PIPE_STAT n) 0).wr (Reg.TICK_PIPE_EST n) 0).wr (Reg.TICK_PIPE_OVR n) 0) l
  im.pipes.foldl (fun (m : Leaf) p => m.put (Fld.TICK_PIPE_STAT_NVAR p.num) p.nvar) l1

/-- CLAMPED of the pipelines: FLOOR or PIN lies beyond the leanest variant (R99). -/
def Leaf.reclamp (l : Leaf) : Leaf :=
  match l.glz.image with
  | none => l
  | some im => im.pipes.foldl (fun (m : Leaf) p => m.putB (Fld.TICK_PIPE_STAT_CLAMPED p.num)
      (decide (p.nvar ≤ m.get (Fld.TICK_PIPE_CFG_FLOOR p.num)) || decide (p.nvar ≤ m.get (Fld.TICK_PIPE_CFG_PIN p.num)))) l

/-- What a whole-image glaze discards and returns to its reset value in the blocks (R128 steps 1 and 2, R229, R258, R326, R331, R347,
R381, R430, R431). -/
def Leaf.discardImage (l : Leaf) : Leaf :=
  let l1 := (((((l.specClear).visClear).solvClear).fusClear).clearMap).srchGlaze
  let l2 := (l1.glazeSources).glazeMem
  let l3 := (List.range 32).foldl (fun (m : Leaf) c => m.put (Fld.FILT_CH_CFG_OBJ c) 0xFFF) l2
  let l4 := (l3.put Fld.LEAF_RNG_OBJ_OBJ 0xFFF).put Fld.SPEC_CFG_POSE_OBJ 0xFFF
  (l4.setFab {}).setGlz { l4.glz with image := none }

/-- An image commits (R128), with its hash and that of its tables. `reads` are the outcomes of the codeword reads of the fill, in
order. -/
def Leaf.glazeImage (im : Image) (hash varHash : Nat) (reads : List ReadOutcome) (l : Leaf) : Leaf :=
  let l1 := l.discardImage
  let l2 := l1.setGlz
    { l1.glz with image := some im, staged := none, varHash := varHash, base := im.pipes, baseHash := varHash }
  let l3 := l2.setFab { routes := im.routes.map fun r => { credits := r.credits } }
  let l4 := { l3 with tick := { l3.tick with sel := [], ovrRaised := [] } }
  let l5 := ((((List.range im.objects.length).zip im.objects).foldl Leaf.fillObj (reads, l4)).2).glazePipes im
  let l6 := (List.range 64).foldl (Leaf.glazePane im) l5
  let l7 := ((l6.putHash (Reg.LEAF_GLZ_HASH 0) hash).putHash (Reg.LEAF_GLZ_UHASH 0) 0).wr64 Reg.LEAF_GLZ_BUILD_LO
    Reg.LEAF_GLZ_BUILD_HI im.buildId
  (((l7.put Fld.LEAF_GLZ_INFO_NPIPE im.pipes.length).put Fld.LEAF_GLZ_INFO_L im.l).setState 3).glzEnd 0 0 0

/-- A load commits (R128). -/
def Leaf.glazeCommit (s : Staged) (reads : List ReadOutcome) (l : Leaf) : Leaf :=
  l.glazeImage s.image (sha256 s.bytes) s.varHash reads

/-- The checks of a load end (R126 to R128). -/
def Leaf.glazeChecksDone (reads : List ReadOutcome) (l : Leaf) : Leaf :=
  match l.glz.staged with
  | none => l
  | some s =>
    if s.update then l
    else
      match l.loadCheck s with
      | some f => (l.setGlz { l.glz with staged := none }).glzEnd f.status f.detail f.pos
      | none => l.glazeCommit s reads

/-! ## Variant-only updates (R130 to R132) -/

/-- An update is applied (R106, R132). -/
def Leaf.applyUpdate (u : PendUpdate) (l : Leaf) : Leaf :=
  match l.glz.image with
  | none => l
  | some im =>
    let l1 := l.setGlz { l.glz with image := some { im with pipes := u.pipes }, pend := none, varHash := u.varHash }
    let l2 := (u.pipes.foldl (fun (m : Leaf) p => m.put (Fld.TICK_PIPE_STAT_NVAR p.num) p.nvar) l1).reclamp
    let l3 := (l2.putHash (Reg.LEAF_GLZ_UHASH 0) u.hash).putB Fld.LEAF_GLZ_STAT_PENDING false
    ({ l3 with tick := { l3.tick with updateApplied := true } }).glzEnd 0 0 0

/-- An update is refused because its target boundary was missed. -/
def Leaf.missUpdate (l : Leaf) : Leaf :=
  ((l.setGlz { l.glz with pend := none }).putB Fld.LEAF_GLZ_STAT_PENDING false).glzEnd 0x0C 0x0D 0

/-- Verification of an update ends (R132): it fails, is refused, waits for its boundary, or applies at once. -/
def Leaf.updateVerified (l : Leaf) : Leaf :=
  match l.glz.staged with
  | none => l
  | some s =>
    if !s.update then l
    else
      let l1 := l.setGlz { l.glz with staged := none }
      match l.loadCheck s with
      | some f => l1.glzEnd f.status f.detail f.pos
      | none =>
        let u : PendUpdate := { pipes := s.image.pipes, hash := sha256 s.bytes, varHash := s.varHash, target := s.target }
        if s.missed then l1.missUpdate
        else if l.ticking then
          ((l1.setGlz { l1.glz with pend := some u }).putB Fld.LEAF_GLZ_STAT_BUSY false).putB Fld.LEAF_GLZ_STAT_PENDING true
        else l1.applyUpdate u

/-- The boundary that starts tick k, or ends tick k − 1 and halts, meets an update (R132): one that is still being verified and one whose
boundary halts miss it. DESIGN CHOICE: an update whose boundary has passed while the leaf was not TICKING is missed too. -/
def Leaf.updateStep7 (k : Nat) (halting : Bool) (l : Leaf) : Leaf :=
  let l1 := match l.glz.staged with
    | some s => if s.update && decide (s.target ≤ k) then l.setGlz { l.glz with staged := some { s with missed := true } } else l
    | none => l
  match l1.glz.pend with
  | none => l1
  | some u =>
    if u.target < k || (u.target == k && halting) then l1.missUpdate
    else if u.target = k then l1.applyUpdate u
    else l1

end Sys2Proof.Machine
end

