-- ==== Sys2Proof/Machine/Power.lean ====
section
/-!
DEFINITION. The power manager (R443 to R469): operating points and ceilings, the average cap, stretch, temperature, coolant, region
skew, throttle reasons, sleep and wake; and the lifetime counters (R539, R540).
-/
namespace Sys2Proof.Machine

/-- A leaf's power state replaced. -/
def Leaf.setPwr (l : Leaf) (p : PwrState) : Leaf := { l with pwr := p }

/-- The pane clock of an operating point in MHz (Table 17.1). -/
def paneMhz (op : Nat) : Nat := [400, 500, 600, 700, 800, 900, 950, 1000].getD op 0

/-! ## Lifetime counters (R539, R540) -/

/-- The profile limits of Table 21.9. -/
def lifeLimits : List (Option Nat) :=
  [some 72000000, none, some 4320000, some 17280000, some 43200000, some 6480000, some 720000, some 60000, none, some 100,
   some 4503599627370496, some 2000]

/-- A counter has reached its profile limit; counter 11 is signed. -/
def Leaf.lifeOver (l : Leaf) (n : Nat) : Bool :=
  match lifeLimits.getD n none with
  | none => false
  | some m => decide ((m : Int) ≤ signedOf 64 (l.aon.life.getD n 0))

/-- Counters newly at their limit are shown, with LIFE_EV and event 0x01C (R540). -/
def Leaf.checkLife (l : Leaf) : Leaf :=
  (List.range 12).foldl (fun (m : Leaf) n =>
    if m.lifeOver n && !bitOf (m.rd Reg.FLT_LIFE_OVER) n then (m.orReg Reg.FLT_LIFE_OVER (2 ^ n)).flagEvent Fld.FLT_STAT_LIFE_EV 0x01C
    else m) l

/-- The band counter of the present Tj (Table 21.8). -/
def Leaf.tjBand (l : Leaf) : Nat :=
  let t := signedOf 16 (l.get Fld.PWR_TJ_MAX)
  if t < 0 then 2 else if t < 960 then 3 else if t < 1600 then 4 else if t < 1840 then 5 else 6

/-- Local counts added to time counter n: whole seconds go to the counter. -/
def Leaf.lifeCounts (n d : Nat) (l : Leaf) : Leaf :=
  let r := l.aon.lifeRem.getD n 0 + d
  { l with aon := { l.aon with life := modAt l.aon.life n (· + r / 781250000), lifeRem := setAt l.aon.lifeRem n (r % 781250000) } }

/-- The time counters brought up to the present count: S0 and S1 with the Tj band, or S2 and S3. -/
def Leaf.lifeTime (l : Leaf) : Leaf :=
  let d := l.count - l.flt.lifeAt
  let l1 := { l with flt := { l.flt with lifeAt := l.count } }
  (if l.sleep < 2 then (l1.lifeCounts 0 d).lifeCounts l.tjBand d else l1.lifeCounts 1 d).checkLife

/-- The lifetime record written to channels 0 and 1 in turn (R539). DESIGN CHOICE: the record of 112 bytes opens the 16 KiB. -/
def Leaf.writeLife (l : Leaf) : Leaf :=
  let l1 := l.lifeTime
  let s := l1.aon.lifeSeq + 1
  let l2 := l1.flashWrite (lifeAddr l1.aon.lifeChan) (padTo 16384 (lifeRecord s l1.aon.life))
  ({ l2 with aon := { l2.aon with lifeSeq := s, lifeChan := 1 - l2.aon.lifeChan } }).checkLife

/-! ## Throttle reasons (R461) -/

/-- COOL_HOT: the inlet temperature exceeds INLET_MAX (R458). -/
def Leaf.coolHot (l : Leaf) : Bool :=
  decide (((l.get Fld.PWR_COOL_CFG_INLET_MAX * 10 : Nat) : Int) < signedOf 16 (l.get Fld.PWR_COOL_IN_T))

/-- The reasons active now, given whether AVG_CAP and CAP_UNATTAINABLE are (Table 17.4). -/
def Leaf.reasons (avg cap : Bool) (l : Leaf) : Nat :=
  b2n (l.get Fld.PWR_STAT_STRETCH != 0) + 2 * b2n avg + 4 * b2n (decide (l.pwr.ceilTj < 7))
    + 8 * b2n (decide (l.get Fld.PWR_COOL_BUDGET_MW < l.get Fld.PWR_CAP_SHARE_MW) || l.coolHot || l.bit Fld.PWR_STAT_COOL_STALE)
    + 16 * b2n (l.get Fld.PWR_SKEW_STAT_ACTIVE != 0)
    + 32 * b2n (decide (l.get Fld.PWR_OP_CEIL_HOST < l.get Fld.PWR_OP_REQ)) + 64 * b2n cap

/-- Reason r begins or ends: its event, and its active time. -/
def Leaf.reasonEdge (old new r : Nat) (l : Leaf) : Leaf :=
  let t := l.pwr.thr.getD r {}
  if bitOf new r && !bitOf old r then
    ((l.setPwr { l.pwr with thr := setAt l.pwr.thr r { t with since := some l.count } }).orReg Reg.PWR_THR_EV (2 ^ r)).raise (0x040 + r)
  else if bitOf old r && !bitOf new r then
    l.setPwr { l.pwr with thr := setAt l.pwr.thr r { acc := t.acc + (l.count - t.since.getD l.count), since := none } }
  else l

/-- PWR_STAT brought in line with the ceilings and the reasons. -/
def Leaf.setReasons (avg cap : Bool) (l : Leaf) : Leaf :=
  let old := l.get Fld.PWR_STAT_ACTIVE
  let new := l.reasons avg cap
  let l1 := ((l.put Fld.PWR_STAT_ACTIVE new).putB Fld.PWR_STAT_COOL_HOT l.coolHot).put Fld.PWR_STAT_CEIL
    (min l.pwr.ceilAvg (min l.pwr.ceilTj l.pwr.ceilCool))
  (List.range 7).foldl (fun m r => Leaf.reasonEdge old new r m) l1

/-- AVG_CAP and CAP_UNATTAINABLE are active. -/
def Leaf.avgActive (l : Leaf) : Bool := bitOf (l.get Fld.PWR_STAT_ACTIVE) 1
def Leaf.capActive (l : Leaf) : Bool := bitOf (l.get Fld.PWR_STAT_ACTIVE) 6

/-- The reasons brought up to date; AVG_CAP and CAP_UNATTAINABLE stay. -/
def Leaf.refreshPwr (l : Leaf) : Leaf := l.setReasons l.avgActive l.capActive

/-- PWR_THRr_US: the active time in whole microseconds. -/
def Leaf.thrUs (l : Leaf) (r : Nat) : Nat :=
  let t := l.pwr.thr.getD r {}
  (t.acc + (match t.since with | some c => l.count - c | none => 0)) * 128 / 100000 % 2 ^ 64

/-! ## Clock stops of panes (R134, R450, R457, Table 6.10) -/

/-- A pane's stages that were armed have all finished. -/
def Leaf.paneIdle (l : Leaf) (p : Nat) : Bool :=
  l.fab.runs.all fun e => !e.2.armed || e.2.finished || !((l.stage e.1).any fun s => bitOf s.panes p)

/-- PANE_STATE.CLK_STOP of every pane: no part of the image, a trip, sleep, or gated while idle. -/
def Leaf.showClk (l : Leaf) : Leaf :=
  let n := l.get Fld.LEAF_GLZ_INFO_L
  let all := l.bit Fld.PWR_TRIP_TRIPPED || l.sleep != 0
  let gate := l.bit Fld.PWR_STAT_PANE_GATE
  (List.range 64).foldl (fun (m : Leaf) p => m.putB (Fld.PANE_STATE_CLK_STOP p) (all || decide (n ≤ p) || (gate && l.paneIdle p))) l

/-! ## Evaluations (R444 to R447, R450, R452, R456, R458) -/

/-- WINDOW_S as it acts. -/
def Leaf.windowS (l : Leaf) : Nat := clampNat 1 10 (l.get Fld.PWR_CAP_WINDOW_S)

/-- The effective share S in mW (R446). -/
def Leaf.share (l : Leaf) : Nat :=
  let s := min (l.get Fld.PWR_CAP_SHARE_MW) (l.get Fld.PWR_COOL_BUDGET_MW)
  if l.bit Fld.PWR_STAT_COOL_STALE then min s (l.get Fld.PWR_COOL_STALE_MW) else s

/-- P_tick in mW for an E_win in µJ (R447). -/
def Leaf.pTick (l : Leaf) (ewin : Nat) : Nat := min 110000 (2 * l.share - ewin / (1000 * l.windowS))

/-- E_win of the present evaluation: DESIGN CHOICE, a free value, since the coefficients are fused and not in the spec (R449). -/
def Leaf.drawEwin (l : Leaf) : Nat × Leaf :=
  let r := l.freeDraw
  let e := r.1 % 2 ^ 64
  (e, r.2.wr64 Reg.PWR_EWIN_LO Reg.PWR_EWIN_HI e)

/-- A ceiling lowered or raised by one operating point. -/
def ceilStep (down up : Bool) (c : Nat) : Nat := if down then c - 1 else if up then min 7 (c + 1) else c

/-- The TJ_LIMIT and COOLANT ceilings at an evaluation (R456, R458). -/
def Leaf.ceilings (l : Leaf) : Leaf :=
  let tj := signedOf 16 (l.get Fld.PWR_TJ_MAX)
  let lim : Int := (16 * l.get Fld.PWR_TEMP_CFG_LIMIT : Nat)
  let hyst : Int := (16 * max 1 (l.get Fld.PWR_TEMP_CFG_HYST) : Nat)
  let cool : Int := (10 * l.get Fld.PWR_COOL_CFG_INLET_MAX : Nat)
  let down : Bool := decide (lim ≤ tj)
  let up : Bool := decide (tj < lim - hyst)
  let coolUp : Bool := decide (signedOf 16 (l.get Fld.PWR_COOL_IN_T) ≤ cool - 20)
  l.setPwr { l.pwr with ceilTj := ceilStep down up l.pwr.ceilTj, ceilCool := ceilStep l.coolHot coolUp l.pwr.ceilCool }

/-- The stretch levels that keep the pane clock at or above 200 MHz (R453). -/
def stretchMax (op : Nat) : Nat := min 6 ((paneMhz op * 8 - 1600) / max 1 (paneMhz op))

/-- EFF after an evaluation (R444, R445): a step down at once, a step up voltage first. -/
def Leaf.stepOp (l : Leaf) : Leaf :=
  let p := l.pwr
  let t := min (min (l.get Fld.PWR_OP_REQ) (l.get Fld.PWR_OP_CEIL_HOST)) (min p.ceilAvg (min p.ceilTj p.ceilCool))
  let eff := l.get Fld.PWR_OP_EFF
  let set (n : Nat) (m : Leaf) : Leaf :=
    let m1 := m.put Fld.PWR_OP_EFF n
    m1.put Fld.PWR_STAT_STRETCH (min (m1.get Fld.PWR_STAT_STRETCH) (stretchMax n))
  if t ≤ eff then set t (l.setPwr { p with want := none, settled := false })
  else
    match p.want with
    | none => l.setPwr { p with want := some (t, l.count), settled := false }
    | some (w, _) =>
      if p.settled then
        let l1 := set (min w t) l
        l1.setPwr { p with want := if w < t then some (t, l.count) else none, settled := false }
      else l

/-- An evaluation of the effective operating point: the ceilings, then EFF, then the reasons. -/
def Leaf.evalOp (l : Leaf) : Leaf :=
  let l1 := (l.ceilings).stepOp
  (l1.setPwr { l1.pwr with evaluated := true }).refreshPwr

/-- The evaluation of a leaf that is not TICKING: AVG_CAP by E_win as well (R450, R452). -/
def Leaf.idleEval (l : Leaf) : Leaf :=
  let r := l.drawEwin
  let ovr := decide (1000 * l.share * l.windowS < r.1)
  let l1 := r.2.setPwr { r.2.pwr with ceilAvg := ceilStep ovr (!ovr) r.2.pwr.ceilAvg }
  let l2 := if ovr then l1.setReasons true l1.capActive else (l1.putB Fld.PWR_STAT_PANE_GATE false).setReasons false false
  l2.evalOp.showClk

/-- OP_EVALUATION: every 10 ms while not TICKING (R444). -/
def Leaf.opEvaluation (l : Leaf) : Leaf := if l.ticking || l.sleep != 0 || l.state == 1 then l else l.idleEval

/-- The first evaluation, when the leaf first reaches IDLE (R444). -/
def Leaf.firstEval (l : Leaf) : Leaf := if l.state == 2 && !l.pwr.evaluated then l.idleEval else l

/-- What step 8 reports: P_tick, E_fixed and E_budget of the tick that starts (R100, R447, R448). The leakage is a free value: its model
is fused. -/
def Leaf.pwrStep8 (l : Leaf) : Leaf :=
  let r := l.drawEwin
  let l1 := r.2.evalOp
  let k := l1.freeDraw
  let us := l.pwr.unatt
  let p := l1.pTick r.1
  let per := l.rd Reg.TICK_PERIOD
  let fixed := k.1 * per / 1000000 + (us.foldl (· + ·) 0) / max 1 us.length
  (((k.2.wr Reg.TICK_PTICK p).wr Reg.TICK_FIXED fixed).wr Reg.TICK_BUDGET (p * per / 1000000 - fixed % 2 ^ 32)).wr Reg.TICK_OP
    (k.2.get Fld.PWR_OP_EFF)

/-- After step 9 (R450, R452): `ovr` is FLOOR_OVER or PIN_OVER, `nextFits` that the floors or pins at the next higher point fit the
budget. -/
def Leaf.pwrStep9 (ovr nextFits : Bool) (l : Leaf) : Leaf :=
  let p := l.pwr
  if ovr then
    let gate := l.avgActive && p.ceilAvg == 0
    let l1 := (l.putB Fld.PWR_STAT_PANE_GATE (gate || l.bit Fld.PWR_STAT_PANE_GATE)).setPwr { p with ceilAvg := p.ceilAvg - 1 }
    let cap := l.capActive || l.bit Fld.PWR_STAT_PANE_GATE
    l1.setReasons true cap
  else
    let ok := nextFits && decide (l.rd64 Reg.PWR_EWIN_LO Reg.PWR_EWIN_HI ≤ 1000 * l.share * l.windowS)
    ((l.putB Fld.PWR_STAT_PANE_GATE false).setPwr { p with ceilAvg := ceilStep false ok p.ceilAvg }).setReasons false false

/-- The unattributed energy of the ended tick, a free value (R448, R449). -/
def Leaf.endTickEnergy (l : Leaf) : Leaf :=
  let r := l.freeDraw
  let e := r.1 % 2 ^ 32
  (r.2.wr Reg.PWR_EUNATT e).setPwr { r.2.pwr with unatt := (e :: r.2.pwr.unatt).take 16 }

/-- RAIL_SETTLED (R445). -/
def Leaf.railSettled (l : Leaf) : Leaf := if l.pwr.want.isSome then l.setPwr { l.pwr with settled := true } else l

/-- VRAIL: a requested rail has not settled for 1 ms (R445). -/
def Leaf.vrail (l : Leaf) : Leaf :=
  match l.pwr.want with
  | none => l
  | some (_, at') =>
    if l.pwr.settled || decide (l.count < at' + countsOfMs 1) then l
    else (l.setPwr { l.pwr with want := none }).notify 0x05 { block := 0x05 }

/-- PEAK_EVALUATION (R453): the projected energy, a free value, moves the stretch level at most once in 2 µs. -/
def Leaf.peakEvaluation (l : Leaf) : Leaf :=
  let r := l.freeDraw
  let lv := l.get Fld.PWR_STAT_STRETCH
  let new := if 108500 < r.1 then min (stretchMax (l.get Fld.PWR_OP_EFF)) (lv + 1) else if r.1 < 97650 then lv - 1 else lv
  if l.count < l.pwr.lastStretch + countsOfUs 2 || new = lv then r.2
  else ((r.2.put Fld.PWR_STAT_STRETCH new).setPwr { r.2.pwr with lastStretch := l.count }).refreshPwr

/-! ## Region skew (R459, R460) -/

/-- Crossing k is beyond its limit, or within it again. -/
def Leaf.setCross (k : Nat) (on : Bool) (l : Leaf) : Leaf :=
  let old := l.get Fld.PWR_SKEW_STAT_ACTIVE
  if on == bitOf old k then l
  else if on then
    let l1 := (l.put Fld.PWR_SKEW_STAT_ACTIVE (old + 2 ^ k)).setPwr { l.pwr with cross := alSet k l.count l.pwr.cross }
    (if old = 0 then l1.inc Fld.PWR_SKEW_CNT_COUNT else l1).refreshPwr
  else
    ((l.put Fld.PWR_SKEW_STAT_ACTIVE (old - 2 ^ k)).setPwr
      { l.pwr with cross := alDel k l.pwr.cross, skewLogged := l.pwr.skewLogged.filter fun x => x != k }).refreshPwr

/-- VOLTAGE_CHECK: the core and SRAM rails differ by more than 200 mV, or not. -/
def Leaf.voltageCheck (core sram : Nat) (l : Leaf) : Leaf := l.setCross 2 (decide (200 < core - sram) || decide (200 < sram - core))

/-- REGION_SKEW: crossings beyond their limits for 1 ms are logged once each (R460). -/
def Leaf.regionSkew (l : Leaf) : Leaf :=
  (l.pwr.cross.filter fun e => decide (e.2 + countsOfMs 1 ≤ l.count) && !l.pwr.skewLogged.contains e.1).foldl (fun (m : Leaf) e =>
    ((m.setPwr { m.pwr with skewLogged := m.pwr.skewLogged ++ [e.1] }).notify 0x07 { block := 0x05, inst := e.1 }).raise 0x048) l

/-! ## Temperature and coolant (R455 to R458) -/

/-- TEMP_SAMPLE: the sixteen readings, each a 16-bit pattern in 1/16 °C; Tj, the adjacent crossings, a trip (R455 to R457, R460). -/
def Leaf.tempSample (temps : List Nat) (l : Leaf) : Leaf :=
  let t (s : Nat) : Int := signedOf 16 (temps.getD s 0)
  let hi := (List.range 16).foldl (fun m s => max m (t s)) (t 0)
  let lo := (List.range 16).foldl (fun m s => min m (t s)) (t 0)
  let l0 := l.lifeTime
  let l1 := (List.range 16).foldl (fun (m : Leaf) s => m.put (Fld.PWR_TSENS_T s) (temps.getD s 0)) l0
  let l2 := (l1.put Fld.PWR_TJ_MAX (patternOf 16 hi)).put Fld.PWR_TJ_MIN (patternOf 16 lo)
  let old := signedOf 64 (l2.aon.life.getD 11 0)
  let l3 := ({ l2 with aon := { l2.aon with life := setAt l2.aon.life 11 (patternOf 64 (max old hi)) } }).checkLife
  let far := (List.range 16).any fun a => (List.range 16).any fun b => Config.adjacent a b && decide (480 < t a - t b)
  let l4 := l3.setCross 3 far
  match (List.range 16).find? fun s => decide (2080 ≤ t s) with
  | none => l4
  | some s =>
    if l4.bit Fld.PWR_TRIP_TRIPPED then l4
    else
      (((((l4.putB Fld.PWR_TRIP_TRIPPED true).put Fld.PWR_TRIP_SENSOR s).lifeAdd 9 1).checkLife).stop 0x06
        { block := 0x05, inst := s }).showClk

/-- PWR_TRIP.CLEAR (R457). -/
def Leaf.tripClear (l : Leaf) : Leaf :=
  let cool := (List.range 16).all fun s =>
    decide (signedOf 16 (l.get (Fld.PWR_TSENS_T s)) < ((16 * l.get Fld.PWR_TEMP_CFG_LIMIT : Nat) : Int))
  if l.state == 6 && l.bit Fld.PWR_TRIP_TRIPPED && l.get Fld.FLT_STAT_STOP_CODE == 6 && cool then
    let l1 := (l.leaveFault).putB Fld.PWR_TRIP_TRIPPED false
    ((l1.setPwr { l1.pwr with ceilTj := 0 }).refreshPwr).showClk
  else l.flagEvent Fld.PWR_TRIP_REFUSED 0x04B

/-- A write to PWR_TRIP. -/
def Leaf.writeTrip (w : Nat) (l : Leaf) : Leaf :=
  let l1 := l.swWrite Reg.PWR_TRIP w
  if bitOf w 31 then l1.tripClear else l1

/-- A write of the coolant data: the staleness timer restarts (R458). -/
def Leaf.coolantWrite (budget : Bool) (w : Nat) (l : Leaf) : Leaf :=
  let l1 := l.swWrite (if budget then Reg.PWR_COOL_BUDGET else Reg.PWR_COOL_IN) w
  ((l1.setPwr { l1.pwr with lastCool := l.count }).putB Fld.PWR_STAT_COOL_STALE false).refreshPwr

/-- COOL_STALE: neither register written for TIMEOUT_MS (R458). -/
def Leaf.coolStale (l : Leaf) : Leaf :=
  if l.count < l.pwr.lastCool + countsOfMs (max 1 (l.get Fld.PWR_COOL_CFG_TIMEOUT_MS)) then l
  else (l.putB Fld.PWR_STAT_COOL_STALE true).refreshPwr

/-- A write to PWR_OP, PWR_CAP, PWR_TEMP_CFG, PWR_COOL_CFG or PWR_COOL_STALE: SHARE_MW and LIMIT are clamped (R446, R456). -/
def Leaf.writePwrCfg (a w : Nat) (l : Leaf) : Leaf :=
  let l1 := l.swWrite a w
  let l2 := l1.put Fld.PWR_CAP_SHARE_MW (clampNat 20000 82500 (l1.get Fld.PWR_CAP_SHARE_MW))
  (l2.put Fld.PWR_TEMP_CFG_LIMIT (clampNat 60 120 (l2.get Fld.PWR_TEMP_CFG_LIMIT))).refreshPwr

/-! ## Sleep (R462 to R467) -/

/-- Entry and wake times of a sleep state in µs (Table 17.5). -/
def entryUs (s : Nat) : Nat := [0, 10, 2000, 80000].getD s 0
def wakeUs (s : Nat) : Nat := [0, 20, 3000, 600000].getD s 0

/-- The known events of R465 in ns of vehicle time, each with its wake source; the alarm first. -/
def Leaf.knownEvents (l : Leaf) : List (Nat × Nat) :=
  (if l.bit Fld.PWR_SLEEP_CFG_ALARM_EN then [(l.rd64 Reg.PWR_WAKE_AT_LO Reg.PWR_WAKE_AT_HI, 5)] else [])
    ++ (l.time.trigs.filterMap fun t => t.nextAt.map fun n => (n / 65536, 6))
    ++ ((List.range 6).filterMap fun n =>
      if l.bit (Fld.SNS_CAM_TRIG_EN n) then (l.sns.cams[n]?).bind fun c => c.trigNext.map fun t => (t, 6) else none)
    ++ (match l.filt.armed with | some k => [(k * l.rd Reg.TICK_PERIOD, 6)] | none => [])

/-- The earliest known event; the alarm where it is as early as any other. -/
def earliestEvent : List (Nat × Nat) → Option (Nat × Nat)
  | [] => none
  | e :: t => match earliestEvent t with
    | none => some e
    | some f => if f.1 < e.1 then some f else some e

/-- The state a request leads to, with the wake the leaf gives itself (R465); none where no state fits. -/
def Leaf.sleepChoice (l : Leaf) : Option SleepEntry :=
  let top := max 1 (l.get Fld.PWR_SLEEP_CFG_MAX_STATE)
  let margin := l.get Fld.PWR_SLEEP_CFG_MARGIN_US
  match earliestEvent l.knownEvents with
  | none => some { state := top, wake := none }
  | some (t, src) =>
    let fits (s : Nat) : Bool := decide (l.nowNs + 1000 * (entryUs s + wakeUs s + margin) ≤ t)
    (([3, 2, 1].filter fun s => decide (s ≤ top)).find? fits).map fun s =>
      { state := s, wake := some (t - 1000 * (margin + wakeUs s), src) }

/-- A glaze, memory, search-write, merge or side-list command is BUSY (R464). -/
def Leaf.sleepBusy (l : Leaf) : Bool :=
  l.bit Fld.LEAF_GLZ_STAT_BUSY || l.bit Fld.MEM_RW_STAT_BUSY || l.srch.fw.isSome || l.srch.merge.isSome || l.srch.side.isSome

/-- REFUSED of PWR_SLEEP_STAT, with its event. -/
def Leaf.sleepRefused (l : Leaf) : Leaf := l.flagEvent Fld.PWR_SLEEP_STAT_REFUSED 0x04B

/-- PWR_SLEEP_CTRL.REQ (R464, R465, R467). -/
def Leaf.sleepReq (l : Leaf) : Leaf :=
  if l.sleep != 0 || l.pwr.entry.isSome || l.ticking || l.bit Fld.TICK_STAT_START_PEND || l.sleepBusy then l.sleepRefused
  else
    match l.sleepChoice with
    | none => l.sleepRefused
    | some e => l.setPwr { l.pwr with entry := some e }

/-- A wake source fires (R466, R467): it aborts an entry before its commit point, or begins the wake of a sleeping leaf. -/
def Leaf.wakeBy (src : Nat) (l : Leaf) : Leaf :=
  if l.pwr.entry.isSome then
    let l1 := (l.orReg Reg.PWR_WAKE_PEND (2 ^ src)).setPwr { l.pwr with entry := none }
    ((l1.put Fld.PWR_SLEEP_STAT_WAKE_SRC src).put Fld.PWR_SLEEP_STAT_ABORT_SRC src).flagEvent Fld.PWR_SLEEP_STAT_ABORT 0x04A
  else if l.sleep = 0 then l
  else
    let l1 := l.orReg Reg.PWR_WAKE_PEND (2 ^ src)
    if l.pwr.waking then l1 else (l1.put Fld.PWR_SLEEP_STAT_WAKE_SRC src).setPwr { l.pwr with waking := true }

/-- The leaf can be woken by a source that works in states S1 to `deepest`, or aborted by it. -/
def Leaf.wakeable (l : Leaf) (deepest : Nat) : Bool := l.pwr.entry.isSome || (decide (1 ≤ l.sleep) && decide (l.sleep ≤ deepest))

/-- The registers that outlive S3 (Table 17.6); vehicle time goes on following its domain. -/
def keptInS3 (a : Nat) : Bool :=
  (decide (0x100 ≤ a) && decide (a < 0x200)) || (decide (0x500100 ≤ a) && decide (a < 0x500120)) || a == Reg.TIME_VT_STAT

/-- What S3 loses (Table 17.6, R463). -/
def Leaf.loseS3 (l : Leaf) : Leaf :=
  let kept := l.regs.filter fun e => keptInS3 e.1
  let regs := kept.foldl (fun m e => sparseSet regReset e.1 e.2 m) (resetRegs l.id l.fuses)
  { Leaf.inReset l.id l.fuses l.aon l.flash l.boot.fw0 l.boot.fw1 with
    regs := regs, count := l.count, boot := l.boot, free := l.free, glz := { l.glz with staged := none, pend := none }
    time := { l.time with trigs := List.replicate 16 {}, gtrig := List.replicate 16 false }
    flt := { firstIdle := l.flt.firstIdle, safeN := l.flt.safeN, lifeAt := l.flt.lifeAt,
             agreeHold := l.flt.agreeHold }
    pwr := { l.pwr with ceilAvg := 7, ceilTj := 7, ceilCool := 7, want := none, settled := false, evaluated := false, unatt := [],
                        thr := List.replicate 7 {}, cross := [], skewLogged := [] } }

/-- SLEEP_ENTRY_DONE: the commit point is passed and the leaf is in its sleep state; enabled sources are DOWN (R463, R467). -/
def Leaf.sleepEntryDone (l : Leaf) : Leaf :=
  match l.pwr.entry with
  | none => l
  | some e =>
    let l0 := l.lifeTime
    let l1 := ((List.range 128).filter fun s => srcExists s && l0.bit (Fld.SNS_SRC_CFG_ENABLE s)).foldl (fun (m : Leaf) s => m.srcDown s) l0
    let l2 := l1.setPwr { l1.pwr with entry := none, selfWake := e.wake, waking := false }
    let l3 := ((l2.put Fld.PWR_SLEEP_STAT_STATE e.state).put Fld.PWR_SLEEP_STAT_LAST e.state).showClk
    if e.state = 3 then l3.writeLife.loseS3 else l3

/-- The leaf glazed again from the image that S3 entry saved (R463), or IDLE where there was none. DESIGN CHOICE: the reads of the fill
succeed at level 0, since the row gives none. -/
def Leaf.reglaze (l : Leaf) : Leaf :=
  match l.glz.image with
  | none => (l.setState 2).firstEval
  | some im =>
    let h := beNat ((List.range 8).flatMap fun i => leBytes 4 (l.rd (Reg.LEAF_GLZ_HASH i)))
    (l.glazeImage { im with pipes := l.glz.base } h l.glz.baseHash []).idleEval

/-- WAKE_COMPLETE: the leaf is in S0 again. -/
def Leaf.wakeComplete (l : Leaf) : Leaf :=
  if !l.pwr.waking then l
  else
    let l0 := l.lifeTime
    let l1 := (l0.put Fld.PWR_SLEEP_STAT_STATE 0).setPwr { l0.pwr with waking := false, selfWake := none }
    let l2 := if l.sleep = 3 then l1.reglaze else l1
    ((l2.showClk).raise 0x04C).takeLatches

/-- A write to PWR_SLEEP_CTRL: REQ, then WAKE (R467: a wake in the cycle of the request wins). -/
def Leaf.writeSleepCtrl (w : Nat) (l : Leaf) : Leaf :=
  let l1 := if bitOf w 31 then l.sleepReq else l
  if bitOf w 30 then l1.wakeBy 4 else l1

/-- WAKE_ALARM: PWR_WAKE_AT is reached, or the wake that the leaf gave itself for it (R465, R466). -/
def Leaf.wakeAlarm (l : Leaf) : Leaf :=
  let due := (l.bit Fld.PWR_SLEEP_CFG_ALARM_EN && decide (l.rd64 Reg.PWR_WAKE_AT_LO Reg.PWR_WAKE_AT_HI ≤ l.nowNs))
    || (match l.pwr.selfWake with | some (t, s) => s == 5 && decide (t ≤ l.nowNs) | none => false)
  if due && l.wakeable 3 then l.wakeBy 5 else l

/-- WAKE_EVENT_TIMER: the wake that the leaf gave itself before another known event. -/
def Leaf.wakeEvent (l : Leaf) : Leaf :=
  match l.pwr.selfWake with
  | some (t, s) => if s == 6 && decide (t ≤ l.nowNs) && l.wakeable 3 then l.wakeBy 6 else l
  | none => l

/-- CAN_BUS_WAKE of a controller. -/
def Leaf.canWake (ctrl : Nat) (l : Leaf) : Leaf :=
  if ctrl < 2 && bitOf (l.get Fld.PWR_WAKE_CFG_CAN_EN) ctrl && l.wakeable 2 then l.wakeBy (7 + ctrl) else l

/-- A frame delivered to port P5 (source FRAME, S1). -/
def Leaf.frameWake (l : Leaf) : Leaf := if l.bit Fld.PWR_WAKE_CFG_FRAME_EN && l.wakeable 1 then l.wakeBy 9 else l

/-- An access to another window of a sleeping leaf (source ACCESS, S1 and S2). -/
def Leaf.accessWake (l : Leaf) : Leaf := if l.wakeable 2 && l.sleep != 0 then l.wakeBy 10 else l

/-- WKUP_EDGE: an edge of the chosen polarity is caught by the latch; it wakes the leaf when enabled (R466, R479). -/
def Leaf.wkupEdge (n : Nat) (falling : Bool) (l : Leaf) : Leaf :=
  if 4 ≤ n || bitOf (l.get Fld.PWR_WAKE_CFG_POL) n != falling then l
  else
    let l1 := { l with aon := { l.aon with wakeLatch := setAt l.aon.wakeLatch n true } }
    let l2 := if bitOf (l.get Fld.PWR_WAKE_CFG_EN) n then l1.wakeBy n else l1
    l2.takeLatches

end Sys2Proof.Machine
end

