-- ==== Sys2Proof/Machine/Det.lean ====
section
/-!
DEFINITION. How stages close a tick and what is digested and recorded of it (R91 to R94, R158 to R160, R432 to R436, R500 to R502), and the
barrier (R438 to R440).
-/
namespace Sys2Proof.Machine

/-! ## How a stage ended the tick (R92, R188) -/

/-- Not armed; cut off; finished poisoned; finished. -/
inductive StEnd where
  | idle
  | cut
  | poison
  | fin
  deriving DecidableEq, Repr

/-- How the run of stage ix ended. -/
def Leaf.stEnd (l : Leaf) (ix : Nat) : StEnd :=
  match alGet l.fab.runs ix with
  | none => .idle
  | some x => if !x.finished then .cut else if x.poisoned then .poison else .fin

/-- The committed output ports of a stage. -/
def StageDesc.commitPorts (s : StageDesc) : List Nat := if s.commit then List.range s.nout else []

/-- A stage is digested: COMMIT, or a descriptor of KIND 3 (R433). -/
def StageDesc.digested (s : StageDesc) : Bool := s.commit || s.descs.any fun d => d.kind == 3

/-- The tokens of a zero-filled output port (R89, R92). -/
def StageDesc.zeroToks (s : StageDesc) (n : Nat) : List (List Byte) :=
  match s.desc 1 n with
  | none => []
  | some d => (Ten.mk d.fmt d.dims (Array.replicate d.count 0) (if fmtMx d.fmt then Array.replicate (d.count / 32) 0 else #[])).toTokens

/-- The committed output of port n of stage ix, or the zero-filled one. -/
def Leaf.commitOut (l : Leaf) (ix n : Nat) (s : StageDesc) : CommitOut :=
  match alGet l.fab.outs (8 * ix + n) with
  | some o => o
  | none =>
    let all := s.commitPorts.flatMap fun p => (s.zeroToks p).flatten
    { toks := s.zeroToks n, carry := { oldest := some 0 }, digest := crc64 all, bytes := all.length }

/-! ## The pane registers of the ended tick (R158 to R160, R190) -/

/-- What step 1 shows of a stage: CUT, POISONED, and the waiting cycles, which are free values. -/
def Leaf.showEnd (l : Leaf) (ix : Nat) : Leaf :=
  let e := l.stEnd ix
  let l1 := (l.putSlots ix Fld.PANE_SSTAT_CUT (b2n (e == .cut))).putSlots ix Fld.PANE_SSTAT_POISONED (b2n (e == .poison))
  (l1.slotsOf ix).foldl (fun (m : Leaf) p =>
    if e == .idle then (m.put (Fld.PANE_SWTOK_CYCLES p.1 p.2) 0).put (Fld.PANE_SWCRD_CYCLES p.1 p.2) 0
    else (m.putFree (Fld.PANE_SWTOK_CYCLES p.1 p.2)).putFree (Fld.PANE_SWCRD_CYCLES p.1 p.2)) l1

/-- The six flags of an arithmetic shadow, ACC_SAT first. -/
def Ev.marks (e : Ev) : List Nat := [e.accSat, e.cvtSat, e.nanOut, e.ftzHit, e.scaleNan, e.sparseErr]

/-- The flag bits of PANE_ASTAT for a shadow. -/
def Ev.word (e : Ev) : Nat :=
  ((List.range 6).map fun i => if e.marks.getD i 0 = 0 then 0 else 2 ^ (31 - i)).foldl (· + ·) 0

/-- A shadow set into one slot (R158). -/
def Leaf.orShadow (e : Ev) (drops : Nat) (l : Leaf) (p : Nat × Nat) : Leaf :=
  let a := Reg.PANE_ASTAT p.1 p.2
  let l1 := if e.word = 0 then l
    else (l.wr a (l.rd a ||| e.word)).incSat (Fld.PANE_ASTAT_EVT_TICKS p.1 p.2)
  let l2 := if e.idxOob = 0 then l1 else l1.putB (Fld.PANE_SSTAT_IDX_OOB p.1 p.2) true
  if e.drop = 0 ∧ drops = 0 then l2 else l2.putB (Fld.PANE_SSTAT_DROP p.1 p.2) true

/-- The counts of a shadow, kept with the stage's entry pane. -/
def Leaf.countShadow (s : StageDesc) (e : Ev) (drops : Nat) (l : Leaf) : Leaf :=
  let l1 := (List.range 6).foldl (fun (m : Leaf) j => m.countBy 16 (paneCounter s.entry j) (e.marks.getD j 0)) l
  l1.countBy 16 (paneCounter s.entry 6) drops

/-- The shadows of the work committed at the boundary, and one ARITH event when a flag goes from 0 to 1 (R158, R160). DESIGN CHOICE: a
flag is shown on every pane of the stage, since the spec does not say on which of them the work raised it. -/
def Leaf.commitShadows (l : Leaf) : Leaf :=
  let fin := (l.fab.runs.filter fun e => l.stEnd e.1 == .fin).filterMap fun e => (l.stage e.1).map fun s => (e.1, s, e.2)
  let rise := fin.any fun f => (l.slotsOf f.1).any fun p =>
    (l.rd (Reg.PANE_ASTAT p.1 p.2) / 2 ^ 26) ||| (f.2.2.ev.word / 2 ^ 26) != l.rd (Reg.PANE_ASTAT p.1 p.2) / 2 ^ 26
  let l1 := fin.foldl (fun (m : Leaf) f =>
    ((m.slotsOf f.1).foldl (Leaf.orShadow f.2.2.ev f.2.2.dropPts) m).countShadow f.2.1 f.2.2.ev f.2.2.dropPts) l
  l1.raiseIf rise 0x009

/-! ## Commit of object writes and random counters (R180, R197, R431) -/

/-- The writes of the tick applied, and the copies of each written object swapped. -/
def Leaf.commitWrites (l : Leaf) : Leaf :=
  let ws := l.tickWrites
  let l1 := ws.foldl (fun (m : Leaf) w => m.objWrite w.obj w.ofs w.bytes) l
  ((ws.map (·.obj)).dedup).foldl (fun (m : Leaf) i => m.swapHalf i) l1

/-- The random counters after a tick: stages that finished unpoisoned and read the random object. -/
def Leaf.commitRng (l : Leaf) : Leaf :=
  l.fab.runs.foldl (fun (m : Leaf) e =>
    match m.stEnd e.1, e.2.rngTop, m.stage e.1 with
    | .fin, some w, some s => m.setFab { m.fab with rng := alSet s.id (u64 (m.rngCtr s.id + 1 + w)) m.fab.rng }
    | _, _, _ => m) l

/-! ## Digests of stages (R433) -/

/-- The lines of WRITABLE objects that writes touch, by object and line, ascending. -/
def linesOf (ws : List ObjWrite) : List (Nat × Nat) :=
  let keys := ws.flatMap fun w =>
    if w.bytes.isEmpty then []
    else (List.range ((w.ofs + w.bytes.length - 1) / 64 + 1 - w.ofs / 64)).map fun i => w.obj * 2 ^ 58 + (w.ofs / 64 + i)
  (keys.foldl (fun (m : List (Nat × Unit)) k => alSet k () m) []).map fun e => (e.1 / 2 ^ 58, e.1 % 2 ^ 58)

/-- The bytes that a finished stage's digest covers. -/
def Leaf.digestBytes (s : StageDesc) (x : StageRun) (l : Leaf) : List Byte :=
  (s.commitPorts.flatMap fun n => (x.full.getD n []).flatten)
    ++ (linesOf x.writes).flatMap fun e => leBytes 2 e.1 ++ leBytes 8 (64 * e.2) ++ l.objBytes e.1 (64 * e.2) 64

/-- An entry of the digest ring (R435): ID, kind, digest, flags, bytes digested, pipeline. -/
structure DigEntry where
  id : Nat
  kind : Nat
  digest : Nat
  flags : Nat
  bytes : Nat
  pipe : Nat
  deriving DecidableEq, Repr

/-- The bytes of an entry. -/
def DigEntry.toBytes (tick : Nat) (e : DigEntry) : List Byte :=
  padTo 32 (leBytes 8 tick ++ leBytes 8 e.digest ++ leBytes 2 e.id ++ leBytes 1 e.kind ++ leBytes 1 e.flags
    ++ leBytes 4 (min (2 ^ 32 - 1) e.bytes) ++ leBytes 1 e.pipe)

/-! ## Completion records (R500 to R502) -/

/-- A record of a committed output: its TAG's ID, port and pipeline, source, status, what it carries, its digest. -/
structure OutDone where
  id : Nat
  port : Nat
  pipe : Nat
  source : Nat
  status : Nat
  carry : Carry
  digest : Nat
  deriving DecidableEq, Repr

/-- The status of an output that was committed, by what it carries. -/
def Carry.status (c : Carry) : Nat := worseOf (if c.stale then 0x02 else 0) (if c.desync then 0x05 else 0)

/-- INVALID in a tick of step 4, unless a status of precedence 1 to 3 applies (R502). -/
def ds4Status (step st : Nat) : Nat := if step = 4 ∧ 3 < precedence st then 0x0B else st

/-- A record written to the queue of its pipeline, if the mapping and the pair are on (R501); `t` is the boundary in ns. -/
def Leaf.outRecord (t : Nat) (l : Leaf) (o : OutDone) : Leaf :=
  let q := l.get (Fld.LEAF_PIPE_CQ_CQ o.pipe)
  let step := l.get Fld.FUS_DS_STAT_STEP
  if o.pipe < 64 && l.bit (Fld.LEAF_PIPE_CQ_EN o.pipe) && l.bit (Fld.LEAF_Q_CFG_EN q) then
    l.addRecord q (recordBytes (2 ^ 31 + o.port * 2 ^ 24 + o.pipe * 2 ^ 16 + o.id) (ds4Status step o.status)
      (128 * l.id.toNat + o.source) (8 * b2n o.carry.stale + step) t (o.carry.oldest.getD 0) o.digest)
  else l

/-! ## Closing the stages at step 4 -/

/-- What step 4 made of the stages so far: digest entries, records, and the leaf. -/
structure Closing where
  digs : List DigEntry := []
  outs : List OutDone := []

/-- One stage closed: its outputs committed, or handed on (R91, R92, R188). -/
def Leaf.closeStage (a : Closing × Leaf) (e : Nat × StageDesc) : Closing × Leaf :=
  let l := a.2
  let ix := e.1
  let s := e.2
  let x := (alGet l.fab.runs ix).getD {}
  let rec' (n st : Nat) (c : CommitOut) : OutDone :=
    { id := s.id, port := n, pipe := s.pipe, source := 0, status := st, carry := c.carry, digest := c.digest }
  let dig (d flags bytes : Nat) : List DigEntry :=
    if s.digested then [{ id := s.id, kind := 1, digest := d, flags := flags, bytes := bytes, pipe := s.pipe }] else []
  match l.stEnd ix with
  | .idle => ({ a.1 with digs := a.1.digs ++ dig 0 16 0 }, l)
  | .fin =>
    let bs := l.digestBytes s x
    let c (n : Nat) : CommitOut := { toks := x.full.getD n [], carry := x.carry, digest := crc64 bs, bytes := bs.length }
    let l1 := s.commitPorts.foldl (fun (m : Leaf) n => m.setFab { m.fab with outs := alSet (8 * ix + n) (c n) m.fab.outs }) l
    ({ digs := a.1.digs ++ dig (crc64 bs) (b2n x.carry.stale + 8 * b2n x.confirmed + 16 * b2n bs.isEmpty) bs.length
       outs := a.1.outs ++ s.commitPorts.map fun n => rec' n x.carry.status (c n) }, l1)
  | .cut | .poison =>
    let poisoned := l.stEnd ix == .poison
    let c (n : Nat) : CommitOut := let o := l.commitOut ix n s; { o with carry := { o.carry with stale := true } }
    let l1 := s.commitPorts.foldl (fun (m : Leaf) n => m.setFab { m.fab with outs := alSet (8 * ix + n) (c n) m.fab.outs }) l
    let flag := if poisoned then 4 else 2
    let d := if s.commit then dig (c 0).digest (1 + flag) (c 0).bytes else dig 0 (flag + 16) 0
    ({ digs := a.1.digs ++ d
       outs := a.1.outs ++ s.commitPorts.map fun n => rec' n (if poisoned then 0x09 else 0x08) (c n) }, l1)

/-- Every stage closed, in descriptor order. -/
def Leaf.closeStages (l : Leaf) : Closing × Leaf := l.stages.foldl Leaf.closeStage ({}, l)

/-- The pipelines and the committed outputs of stages that were cut off. -/
def Leaf.cutStages (l : Leaf) : List (Nat × Nat) :=
  l.stages.filterMap fun e => if l.stEnd e.1 == .cut && !e.2.commitPorts.isEmpty then some (e.2.pipe, e.2.commitPorts.length) else none

/-! ## The digest ring and the messages to the hinge (R32, R34, R434 to R436) -/

/-- The configuration digest of the tick (Table 1.21). -/
def Leaf.configDigest (l : Leaf) : Nat :=
  crc64 (((List.range 8).flatMap fun i => leBytes 4 (l.rd (Reg.LEAF_GLZ_HASH i))) ++ beBytes 32 l.glz.varHash
    ++ leBytes 4 (b2n (l.bit Fld.TICK_CFG_LOCKED)) ++ leBytes 4 (l.rd Reg.TICK_PERIOD)
    ++ leBytes 8 (l.get Fld.TICK_CFG_SUB_RATIO))

/-- A unit's entry. -/
def UnitRec.entry (u : UnitRec) : DigEntry :=
  { id := u.unit, kind := 2, digest := u.digest
    flags := b2n u.carry.stale + 2 * b2n u.cut + 4 * b2n (u.status == 9) + 16 * b2n u.empty
    bytes := u.bytes, pipe := u.pipe.getD 0xFF }

/-- A unit's record, if it writes one. -/
def UnitRec.done (u : UnitRec) : Option OutDone :=
  match u.pipe with
  | some p =>
    if u.empty then none
    else some { id := u.unit, port := 0, pipe := p, source := u.source, status := u.status, carry := u.carry, digest := u.digest }
  | none => none

/-- A group written to the digest ring, whole or not at all (R436). -/
def Leaf.digRing (es : List (List Byte)) (l : Leaf) : Leaf :=
  let n := l.get Fld.LEAF_DIG_SIZE_SLOTS
  if n = 0 then l
  else
    let w := l.get Fld.LEAF_DIG_WR_WR
    if (l.get Fld.LEAF_DIG_RD_RD + n - w - 1) % n < es.length then
      (l.inc Fld.LEAF_DIG_DROP_COUNT).flagEvent Fld.LEAF_DET_STAT_DIG_DROP 0x00A
    else
      let base := l.rd Reg.LEAF_DIG_BASE_LO / 64 * 64 + 2 ^ 32 * l.rd Reg.LEAF_DIG_BASE_HI
      (((List.range es.length).zip es).foldl (fun (m : Leaf) e => m.store (base + 32 * ((w + e.1) % n)) e.2) l).put
        Fld.LEAF_DIG_WR_WR ((w + es.length) % n)

/-- A digest as it is sent to the hinge; an injected error of kind 3 corrupts one bit of it (R537), which bit being a free value. -/
def Leaf.sendDigest (tick : Nat) (l : Leaf) (e : DigEntry) : Leaf :=
  let hit := e.kind == 1 && l.flt.inject == some (3, e.id)
  let r := l.freeDraw
  let l1 := if hit then r.2.injDone else l
  let m : DigestMsg :=
    { tick := tick, id := if e.kind = 0 then none else some e.id
      digest := if hit then e.digest ^^^ 2 ^ (r.1 % 64) else e.digest
      locked := l.bit Fld.TICK_CFG_LOCKED, injected := hit }
  { l1 with tick := { l1.tick with outDigests := l1.tick.outDigests ++ [m] } }

/-- The entries of tick k written to the ring and, in mirror mode, sent to the hinge (step 4). -/
def Leaf.enterDigests (k : Nat) (es : List DigEntry) (l : Leaf) : Leaf :=
  let cfg : DigEntry := { id := 0xFFFF, kind := 0, digest := l.configDigest, flags := 0, bytes := es.length + 1, pipe := 0xFF }
  let l1 := l.digRing ((cfg :: es).map fun e => e.toBytes k)
  if l1.bit Fld.LEAF_STATUS_MIRROR then (cfg :: es).foldl (Leaf.sendDigest k) l1 else l1

/-! ## The barrier (R438 to R440) -/

/-- HINGE_BAR_CTRL.FIRE: a pulse scheduled in the middle of a tick of the leaf that SRC names, ignored while one is pending. -/
def State.barFire (s : State) : State :=
  let h := s.hinge
  let i : LeafId := if h.bit Fld.HINGE_BAR_CTRL_SRC then .B else .A
  let l := s.leaf i
  let p := l.rd Reg.TICK_PERIOD
  if h.bit Fld.HINGE_BAR_STAT_PENDING then s
  else if h.up i && (l.state == 3 || l.state == 4 || l.state == 5) && p != 0 then
    let least := l.now + 65536 * p
    let half := 65536 * (p / 2)
    let k := (least - half + 65536 * p - 1) / (65536 * p)
    s.setHinge (({ h with barrier := { h.barrier with fireLeaf := i, fireAt := some (k * p + p / 2) } }).putB Fld.HINGE_BAR_STAT_PENDING true)
  else s.setHinge ((h.putB Fld.HINGE_BAR_STAT_REFUSED true).message 0 128)

/-- HINGE_BAR_CTRL.CANCEL. -/
def Hinge.barCancel (h : Hinge) : Hinge :=
  ({ h with barrier := { h.barrier with fireAt := none } }).putB Fld.HINGE_BAR_STAT_PENDING false

/-- A write of HINGE_BAR_CTRL. DESIGN CHOICE: with both bits written the CANCEL comes first. -/
def State.writeBarCtrl (w : Nat) (s : State) : State :=
  let s1 := s.onHinge fun h => h.swWrite Reg.HINGE_BAR_CTRL w
  let s2 := if bitOf w 30 then s1.onHinge Hinge.barCancel else s1
  if bitOf w 31 then s2.barFire else s2

/-- The pulse starts when its instant is reached on the leaf's clock (R439). -/
def State.barPulse (s : State) : State :=
  let h := s.hinge
  match h.barrier.fireAt with
  | none => s
  | some t =>
    let now := (s.leaf h.barrier.fireLeaf).now
    if now < 65536 * t then s
    else
      let w := 8 * max 0x0D (h.get Fld.HINGE_BAR_CTRL_WIDTH)
      s.setHinge (({ h with barrier := { h.barrier with fireAt := none, out := true, outEnd := some (65536 * (t + w)) } }).putB
        Fld.HINGE_BAR_STAT_PENDING false)

/-- The pulse ends. -/
def State.barPulseEnd (s : State) : State :=
  let h := s.hinge
  match h.barrier.outEnd with
  | none => s
  | some t =>
    if (s.leaf h.barrier.fireLeaf).now < t then s
    else s.setHinge { h with barrier := { h.barrier with out := false, outEnd := none } }

end Sys2Proof.Machine
end

