-- ==== Sys2Proof/Machine/Tick.lean ====
section
/-!
DEFINITION. The tick controller (R82 to R108): TICK_OUT, starting and halting, the boundary sequence, the selection of variants, the
tick report.
-/
namespace Sys2Proof.Machine

/-- The tick state of a leaf replaced. -/
def Leaf.setTick (l : Leaf) (t : TickState) : Leaf := { l with tick := t }

/-! ## TICK_OUT (R103) -/

/-- A pulse of a width in ns starts. -/
def Leaf.tickOutPulse (width : Nat) (l : Leaf) : Leaf :=
  l.setTick { l.tick with outActive := true, outEnd := some (l.now + 65536 * width) }

/-- TICK_OUT at a tick boundary: TICK_OUT_CFG applies from here on. -/
def Leaf.tickOutBoundary (l : Leaf) : Leaf :=
  let cfg := l.rd Reg.TICK_OUT_CFG
  let l1 := l.setTick { l.tick with outCfg := cfg }
  let w := max 100 (cfg / 65536)
  if cfg % 4 = 1 then l1.tickOutPulse w
  else if cfg % 4 = 2 then l1.tickOutPulse (min w (l.subPeriod / 2))
  else l1

/-- TICK_OUT at another sub-tick boundary. -/
def Leaf.tickOutSub (l : Leaf) : Leaf := if l.tick.outCfg % 4 = 2 then l.tickOutPulse 100 else l

/-- A pulse on TICK_OUT ends when its width has elapsed. -/
def Leaf.tickOutEnd (l : Leaf) : Leaf :=
  match l.tick.outEnd with
  | none => l
  | some t => if l.now < t then l else l.setTick { l.tick with outActive := false, outEnd := none }

/-! ## Starting and halting (R85 to R90) -/

/-- CMD_REFUSED with its event. -/
def Leaf.tickCmdRefused (l : Leaf) : Leaf := l.flagEvent Fld.TICK_STAT_CMD_REFUSED 0x007

/-- TICK_PERIOD and SUB_RATIO meet R82. -/
def Leaf.tickCfgOk (l : Leaf) : Bool :=
  let p := l.rd Reg.TICK_PERIOD
  let n := l.get Fld.TICK_CFG_SUB_RATIO
  decide (5000000 ≤ p) && decide (p ≤ 100000000) && decide (0 < n) && p % n == 0 && decide (250000 ≤ p / n) && decide (p / n ≤ 1000000)

/-- The first boundary scheduled for vehicle time now (R86). -/
def Leaf.tickSchedule (l : Leaf) : Leaf :=
  let p := l.rd Reg.TICK_PERIOD
  let start := l.rd64 Reg.TICK_START_LO Reg.TICK_START_HI
  let k := max ((start + p - 1) / p) ((l.now + 2 * 65536 * p - 1) / (65536 * p))
  (l.setTick { l.tick with nextAt := some (k * p), first := true, halt := false, held := false, heldBarrier := false }).putB
    Fld.TICK_STAT_START_PEND true

/-- A START that LOCKED does not hold: it waits for BARRIER_IN, or is scheduled (R86, R87). -/
def Leaf.tickGo (barrier : Bool) (l : Leaf) : Leaf :=
  let l1 := (l.setTick { l.tick with held := false, heldBarrier := false }).putB Fld.LEAF_STATUS_WAIT_MODE false
  if barrier then l1.putB Fld.TICK_STAT_BARRIER_WAIT true else l1.tickSchedule

/-- The leaf is GLAZED or HALTED. -/
def Leaf.mayStart (l : Leaf) : Bool := l.state == 3 || l.state == 5

/-- TICK_CTRL.START with HINGE_MODE.LOCKED as `locked` (R85 to R88), refused while a load or update is BUSY (R129). DESIGN CHOICE: a START while an earlier one is held or waits for the
barrier is ignored like one while START_PEND is 1. -/
def Leaf.startCmd (locked : Bool) (l : Leaf) : Leaf :=
  if !l.mayStart || l.bit Fld.LEAF_GLZ_STAT_BUSY then l.tickCmdRefused
  else if l.bit Fld.TICK_STAT_START_PEND || l.bit Fld.TICK_STAT_BARRIER_WAIT || l.tick.held then l
  else if !l.tickCfgOk then l.tickCmdRefused
  else
    let barrier := l.bit Fld.TICK_CTRL_BARRIER
    if locked then l.tickGo barrier
    else (l.setTick { l.tick with held := true, heldBarrier := barrier }).putB Fld.LEAF_STATUS_WAIT_MODE true

/-- A held START when the mode is locked (R88). -/
def Leaf.tickRelease (l : Leaf) : Leaf := if l.tick.held && l.mayStart then l.tickGo l.tick.heldBarrier else l

/-- A BARRIER_IN edge reaches a leaf that waits for it (R87, R438). -/
def Leaf.tickBarrier (l : Leaf) : Leaf :=
  if l.bit Fld.TICK_STAT_BARRIER_WAIT then (l.putB Fld.TICK_STAT_BARRIER_WAIT false).tickSchedule else l

/-- TICK_CTRL.HALT (R90). -/
def Leaf.tickHalt (l : Leaf) : Leaf := if l.ticking then l.setTick { l.tick with halt := true } else l.tickCmdRefused

/-- A write of TICK_CTRL. DESIGN CHOICE: START comes first. -/
def Leaf.writeTickCtrl (locked : Bool) (w : Nat) (l : Leaf) : Leaf :=
  let l1 := l.swWrite Reg.TICK_CTRL w
  let l2 := if bitOf w 31 then l1.startCmd locked else l1
  if bitOf w 30 then l2.tickHalt else l2

/-- A write of TICK_PERIOD or TICK_CFG (R85). -/
def Leaf.writeTickCfg (a w : Nat) (l : Leaf) : Leaf :=
  if l.ticking then l.flagEvent Fld.TICK_STAT_CFG_REFUSED 0x006 else l.swWrite a w

/-- A write of TICK_RPT_SIZE resets the ring at the next boundary when it changes the size (R107). -/
def Leaf.writeRptSize (w : Nat) (l : Leaf) : Leaf :=
  let l1 := l.swWrite Reg.TICK_RPT_SIZE w
  if l1.rd Reg.TICK_RPT_SIZE = l.rd Reg.TICK_RPT_SIZE then l1 else l1.setTick { l1.tick with ringReset := true }

/-- The image has a pipeline n; the windows of others read 0 and ignore writes (R106). -/
def Leaf.hasPipe (l : Leaf) (n : Nat) : Bool := ((l.glz.image.bind fun im => im.pipe n).isSome)

/-- A write of TICK_PIPEn_CFG. -/
def Leaf.writePipeCfg (n w : Nat) (l : Leaf) : Leaf :=
  if l.hasPipe n then (l.swWrite (Reg.TICK_PIPE_CFG n) w).reclamp else l

/-! ## The sub-tick (R83) -/

/-- SUB_TICK_BOUNDARY: the newest sub-tick boundary that vehicle time has reached. One that is not due has no effect, nor has one that
a tick boundary still to come precedes. -/
def Leaf.subTick (l : Leaf) : Leaf :=
  let sub := l.subPeriod
  let t := l.nowNs / sub * sub
  let early := match l.tick.nextSub with | some s => decide (t < s) | none => false
  let late := match l.ticking, l.tick.nextAt with | true, some b => decide (b ≤ t) | _, _ => false
  if early || late || !l.tickCfgOk then l
  else
    let i := t % l.rd Reg.TICK_PERIOD / sub
    let l1 := (l.setTick { l.tick with nextSub := some (t + sub) }).put Fld.TICK_SUBIDX_IDX i
    if l.ticking && i != 0 then l1.tickOutSub else l1

/-! ## Step 1: cut-off (R92 to R95) -/

/-- The committed outputs of units that were cut off, by pipeline. -/
def Leaf.cutUnits (l : Leaf) : List (Nat × Nat) :=
  let fus := match l.fusCfg with
    | none => []
    | some c => [(c.pipe, b2n l.fus.grid.isNone + b2n l.fus.trkOut.isNone)]
  let solv := (l.solvJobs.filter fun d => d.kind != 5 && (l.sjob d.job).st == .noFallback).map fun d => (d.pipe, 1)
  (fus ++ solv).filter fun e => e.2 != 0

/-- OVR_RUN of pipeline n after a tick in which an output was cut off, or none (R95). -/
def Leaf.overrunRun (cut : Bool) (l : Leaf) (n : Nat) : Leaf :=
  if cut then
    let l1 := ((l.incSat (Fld.TICK_PIPE_STAT_OVR_RUN n)).inc (Fld.TICK_PIPE_OVR_COUNT n)).bump 1 n
    let lim := l.get Fld.TICK_CFG_OVR_LIMIT
    if lim != 0 && decide (lim ≤ l1.get (Fld.TICK_PIPE_STAT_OVR_RUN n)) && !l1.tick.ovrRaised.contains n then
      (l1.setTick { l1.tick with ovrRaised := l1.tick.ovrRaised ++ [n] }).raise 0x002
    else l1
  else (l.put (Fld.TICK_PIPE_STAT_OVR_RUN n) 0).setTick { l.tick with ovrRaised := l.tick.ovrRaised.filter (· != n) }

/-- The cut-off outputs counted, with the OVERRUN event. -/
def Leaf.countCuts (cuts : List (Nat × Nat)) (l : Leaf) : Leaf :=
  let total := (cuts.map (·.2)).foldl (· + ·) 0
  let l1 := (l.incBy Fld.TICK_OVR_CNT_COUNT total).raiseIf (total != 0) 0x001
  match l.glz.image with
  | none => l1
  | some im => (im.pipes.map (·.num)).foldl (fun (m : Leaf) n => m.overrunRun (cuts.any fun e => e.1 == n) n) l1

/-- The tokens still on the fabric discarded and counted, but blind ones (R94, R186, R335). -/
def Leaf.discardTokens (l : Leaf) : Leaf :=
  let gone := l.fab.routes.map fun x => (x.drain fun t => t.blind).2
  let d := l.drainRoutes true
  let l1 := if d.2 = 0 then d.1 else d.1.countBy 1 64 d.2
  (List.range gone.length).foldl (fun (m : Leaf) r =>
    let n := gone.getD r 0
    if n = 0 then m
    else
      match (m.routeDesc r).bind fun e => (m.stages.find? fun s => s.2.id == e.dst) with
      | some s => m.countBy 16 (paneCounter s.2.entry 8) n
      | none => m) l1

/-- Step 1 of the boundary that ends tick k: the pipelines and numbers of outputs cut off, and the leaf. -/
def Leaf.bndStep1 (k : Nat) (l : Leaf) : List (Nat × Nat) × Leaf :=
  let l1 := ((l.specStep1.visCut).solvCut).closeSources k
  let l2 := l1.stages.foldl (fun (m : Leaf) e => m.showEnd e.1) l1
  let cuts := l2.cutStages ++ l2.cutUnits
  (cuts, (l2.discardTokens).countCuts cuts)

/-! ## Step 4: commit, hand-on, digests (R91 to R93, R433, R434) -/

/-- The fusion object and unit of the grid or of the tracks. -/
def fusUnit (grid : Bool) : Nat := if grid then 0xFF30 else 0xFF31

/-- The bytes of the grid or track object that are digested (Table 16.2). -/
def fusSize (grid : Bool) : Nat := if grid then 2097216 else 131136

/-- The committed grid or track output kept for the next boundary. -/
def Leaf.setFusOut (grid : Bool) (o : CommitOut) (l : Leaf) : Leaf :=
  l.setFus (if grid then { l.fus with outGrid := o } else { l.fus with outTrk := o })

/-- The grid or the tracks committed, or handed on: the entry and record, and the leaf (R303, R434). -/
def Leaf.fusClose (grid : Bool) (c : FusCfg) (l : Leaf) : UnitRec × Leaf :=
  let old := if grid then l.fus.outGrid else l.fus.outTrk
  let mk (st : Nat) (cut : Bool) (o : CommitOut) : UnitRec :=
    { unit := fusUnit grid, pipe := some c.pipe, source := 8, status := st, carry := o.carry, digest := o.digest, bytes := o.bytes, cut := cut }
  let hand (st : Nat) : UnitRec × Leaf :=
    let n := fusSize grid
    let o0 : CommitOut := if old.bytes = 0 then { carry := { oldest := some 0 }, digest := crc64 (List.replicate n 0), bytes := n } else old
    let o : CommitOut := { o0 with carry := { o0.carry with stale := true } }
    (mk st (st == 8) o, l.setFusOut grid o)
  match if grid then l.fus.grid else l.fus.trkOut with
  | none => hand 8
  | some x =>
    if x.poison then hand 9
    else
      let obj := if grid then c.gridObj else c.trkObj
      let o : CommitOut := { carry := x.carry, digest := crc64 x.bytes, bytes := x.bytes.length }
      let l1 := ((l.objWrite obj 0 x.bytes).swapHalf obj).setFusOut grid o
      let l2 := if grid then l1.put Fld.FUS_GRID_STAT_CONTESTED (leAt x.bytes 12 4)
        else (l1.setFus { l1.fus with trks := l1.fus.work }).put Fld.FUS_TRK_STAT_LIVE l1.fus.work.length
      (mk (worseOf (if x.contested then 3 else 0) x.carry.status) false o, l2)

/-- The fusion unit at step 4, with the demotions judged on the tick's grid (R316). -/
def Leaf.fusStep4 (l : Leaf) : List UnitRec × Leaf :=
  match l.fusCfg with
  | none => ([], l)
  | some c =>
    let g := l.fusClose true c
    let t := g.2.fusClose false c
    ([g.1, t.1], t.2.demotions)

/-- The entries of the query sources: a delivery's, or an empty one (R383, R434). -/
def Leaf.srcEntries (rs : List SrcRecord) (l : Leaf) : List UnitRec :=
  (List.range 4).flatMap fun q =>
    if !l.srcOn q then []
    else
      let pipe := match l.srcStage q with | some e => e.2.pipe | none => 0xFF
      let mine := rs.filter fun r => r.q == q
      let none' : UnitRec :=
        { unit := 0xFF10 + q, pipe := none, source := 0x10, status := 0, carry := {}, digest := 0, bytes := 0, empty := true }
      if mine.isEmpty then [none']
      else mine.map fun r => { unit := 0xFF10 + q, pipe := some pipe, source := 0x10, status := r.status
                               carry := { oldest := r.oldest }, digest := r.digest, bytes := r.bytes }

/-- The status of the localisation pose's committed output at this boundary (R323). -/
def Leaf.poseStatus (outs : List OutDone) (us : List UnitRec) (l : Leaf) : Option Nat :=
  match l.fusCfg with
  | none => none
  | some c =>
    if c.pose = 0xFFFF then none
    else if c.pose = 0xFF09 then
      let job (kind : Nat) : Option Nat := (l.solvJobs.find? fun d => d.kind == kind).map (·.job)
      let rec' (j : Nat) : Option Nat := (us.find? fun u => u.unit == 0xFF20 + j && !u.empty).map (·.status)
      match job 1 with
      | some j => rec' j
      | none => (job 2).bind rec'
    else (outs.find? fun o => o.id == c.pose).map (·.status)

/-- The run of boundaries at which the pose had a status that suspends localisation. -/
def Leaf.countPose (st : Option Nat) (l : Leaf) : Leaf :=
  match st with
  | none => l
  | some s => l.setFus { l.fus with locRun := if [6, 7, 8, 9].contains s then l.fus.locRun + 1 else 0 }

/-- What step 4 hands to steps 5 and 7: the records of stages and of units, and the calibration proposals. -/
structure Step4 where
  outs : List OutDone
  units : List UnitRec
  props : List Proposal

/-- Step 4 of the boundary that ends tick k. -/
def Leaf.bndStep4 (k : Nat) (halting : Bool) (l : Leaf) : Step4 × Leaf :=
  let per := l.rd Reg.TICK_PERIOD
  let l1 := ((l.commitShadows).commitWrites).commitRng
  let c := l1.closeStages
  let l2 := c.2.closeWindows k (k * per) ((k + 1) * per)
  let f := l2.fusStep4
  let s := f.2.solvStep4 k
  let m := s.2.mapStep4 k s.1.win s.1.graph
  let l3 := if halting then m.2 else m.2.startVerify k
  let q := l3.srchStep4 k
  let named := l.lmkObj.isSome || l.kfvObj.isSome || l.graphObj.isSome
  let map : List UnitRec :=
    if named then [{ unit := 0xFF40, pipe := none, source := 0, status := 0, carry := {}, digest := crc64 m.1, bytes := m.1.length,
                     empty := m.1.isEmpty }]
    else []
  let solvRecs := (List.range 8).flatMap fun j => s.1.recs.filter fun u => u.unit == 0xFF20 + j
  let units := q.2.srcEntries q.1 ++ solvRecs ++ f.1 ++ map
  let l4 := q.2.countPose (q.2.poseStatus c.1.outs units)
  ({ outs := c.1.outs, units := units, props := s.1.props }, l4.enterDigests k (c.1.digs ++ units.map UnitRec.entry))

/-- Step 5: the records of the committed outputs, stages in descriptor order and then units; `t` is the boundary in ns. -/
def Leaf.bndStep5 (t : Nat) (s : Step4) (l : Leaf) : Leaf :=
  (s.outs ++ s.units.filterMap UnitRec.done).foldl (Leaf.outRecord t) l

/-! ## Step 9: the selection of variants (R99 to R102, R209) -/

/-- E(n, v) of a pipeline at an operating point. -/
def PipeDesc.energy (p : PipeDesc) (op v : Nat) : Nat := ((p.variants[v]?).map fun x => x.energy.getD op 0).getD 0

/-- D(n, v) ≤ W: cycles of the pane clock against the work window. -/
def PipeDesc.fits (p : PipeDesc) (per mhz v : Nat) : Bool :=
  match p.variants[v]? with
  | some x => decide (x.dur * 1000 ≤ (per - 240000) * mhz)
  | none => false

/-- Variant v of a pipeline reads a poisoned object, by a stage it lists or by a vision job it runs. -/
def Leaf.readsPoison (p : PipeDesc) (v : Nat) (l : Leaf) : Bool :=
  let ids := ((p.variants[v]?).map (·.stages)).getD []
  let stage := l.stages.any fun e => ids.contains e.2.id && e.2.descs.any fun d => decide (2 ≤ d.kind) && l.poisoned d.obj
  let job := l.visAll.any fun e => (e.1 == 6 || e.1 == 7) && e.2.pipe == p.num && bitOf e.2.vmask v && l.poisoned (e.2.get 24 2)
  stage || job

/-- The floor or the pin in effect, after clamping. -/
def Leaf.baseVariant (l : Leaf) (p : PipeDesc) : Nat :=
  min (if l.bit Fld.TICK_CFG_LOCKED then l.get (Fld.TICK_PIPE_CFG_PIN p.num) else l.get (Fld.TICK_PIPE_CFG_FLOOR p.num)) (p.nvar - 1)

/-- A fast-mode pipeline that poison holds at its floor (R209). -/
def Leaf.heldByPoison (l : Leaf) (p : PipeDesc) : Bool :=
  let f := l.baseVariant p
  !l.bit Fld.TICK_CFG_LOCKED && !l.readsPoison p f && (List.range f).any fun v => l.readsPoison p v

/-- One pipeline of the raising loop of R101: the slack and the selection. -/
def raiseOne (op per mhz : Nat) (a : Int × List (Nat × Nat)) (e : PipeDesc × Nat) : Int × List (Nat × Nat) :=
  let p := e.1
  let cost (v : Nat) : Int := (p.energy op v : Int) - (p.energy op e.2 : Int)
  match (List.range e.2).find? fun v => p.fits per mhz v && decide (cost v ≤ a.1) with
  | some v => (a.1 - cost v, alSet p.num v a.2)
  | none => a

/-- The variants that step 9 selects, from floors or pins `base`. When the floors exceed the budget every pipeline stays at its
floor. DEDUCED: R101 raises pipelines only out of slack. -/
def Leaf.chooseVariants (l : Leaf) (base : List (PipeDesc × Nat)) (held : List Nat) (excess : Bool) : List (Nat × Nat) :=
  let op := l.get Fld.TICK_OP_OP
  let start := base.foldl (fun (m : List (Nat × Nat)) e => alSet e.1.num e.2 m) []
  if l.bit Fld.TICK_CFG_LOCKED || excess then start
  else
    let floors : Nat := (base.map fun (e : PipeDesc × Nat) => e.1.energy op e.2).foldl (fun (x y : Nat) => x + y) 0
    let budget : Nat := l.rd Reg.TICK_BUDGET
    let slack : Int := (budget : Int) - (floors : Int)
    let order := (List.range 16).reverse.flatMap fun pr =>
      base.filter fun e => l.get (Fld.TICK_PIPE_CFG_PRIO e.1.num) == pr && !held.contains e.1.num
    (order.foldl (raiseOne op (l.rd Reg.TICK_PERIOD) (paneMhz op)) (slack, start)).2

/-- The registers of a selected pipeline. -/
def Leaf.showVariant (sel : List (Nat × Nat)) (l : Leaf) (e : PipeDesc × Nat) : Leaf :=
  let n := e.1.num
  let op := l.get Fld.TICK_OP_OP
  let v := (alGet sel n).getD e.2
  ((l.put (Fld.TICK_PIPE_STAT_VARIANT n) v).wr (Reg.TICK_PIPE_EST n) (e.1.energy op v)).putB (Fld.TICK_PIPE_STAT_LONG n)
    (v == e.2 && !e.1.fits (l.rd Reg.TICK_PERIOD) (paneMhz op) v)

/-- A flag of TICK_STAT for the tick, with its event when it becomes 1 (R105). -/
def Leaf.overFlag (f : FieldRef) (src : Nat) (on : Bool) (l : Leaf) : Leaf := (l.putB f on).raiseIf (on && !l.bit f) src

/-- Step 9. -/
def Leaf.bndStep9 (l : Leaf) : Leaf :=
  match l.glz.image with
  | none => l
  | some im =>
    let op := l.get Fld.TICK_OP_OP
    let locked := l.bit Fld.TICK_CFG_LOCKED
    let base := im.pipes.map fun p => (p, l.baseVariant p)
    let total (o : Nat) : Nat := (base.map fun e => e.1.energy o e.2).foldl (· + ·) 0
    let budget := l.rd Reg.TICK_BUDGET
    let excess : Bool := decide (budget < total op)
    let held := (im.pipes.filter l.heldByPoison).map (·.num)
    let sel := l.chooseVariants base held excess
    let mask := held.foldl (fun m n => m ||| 2 ^ n) 0
    let l1 := (l.overFlag Fld.TICK_STAT_FLOOR_OVER 0x003 (excess && !locked)).overFlag Fld.TICK_STAT_PIN_OVER 0x004 (excess && locked)
    let l2 := (base.foldl (Leaf.showVariant sel) l1).reclamp
    let l3 := l2.wr64 Reg.MEM_POISON_PIPE_LO Reg.MEM_POISON_PIPE_HI mask
    (l3.setTick { l3.tick with sel := sel }).pwrStep9 excess (decide (total (min 7 (op + 1)) ≤ budget))

/-! ## Step 10: arming and the report (R89, R104) -/

/-- A stage armed if its variant lists it; one whose blind run was confirmed keeps it. -/
def Leaf.armStage (l : Leaf) (e : Nat × StageDesc) : Leaf :=
  let ix := e.1
  let show' (armed : Bool) (x : StageRun) (m : Leaf) : Leaf :=
    ((m.putSlots ix Fld.PANE_SSTAT_ARMED (b2n armed)).putSlots ix Fld.PANE_SSTAT_FINISHED (b2n x.finished)).putSlots ix
      Fld.PANE_SFIRE_FIRINGS x.firings
  if !l.listed e.2 then show' false {} l
  else
    match l.runOf false ix, l.runOf true ix with
    | some x, _ => show' true x l
    | none, some x => show' true x l
    | none, none => show' true {} (l.setRun false ix e.2.fresh)

/-- The committed outputs of a stage offered on its committed edges to the consumers that are armed (R91); zero-filled and STALE in the
first tick (R89). R227: DESYNC is not carried across ticks. -/
def Leaf.offerCommitted (first : Bool) (l : Leaf) (e : Nat × StageDesc) : Leaf :=
  e.2.commitPorts.foldl (fun (m : Leaf) n =>
    let o : CommitOut := if first then { toks := e.2.zeroToks n, carry := { stale := true, oldest := some 0 } } else m.commitOut e.1 n e.2
    let ts := tokensOf { o.carry with desync := false } false false o.toks
    (m.commitRoutes e.2.id n).foldl (fun (m : Leaf) r =>
      match m.routeDesc r with
      | none => m
      | some d =>
        let armed := isEngine d.dst || m.stages.any fun s => s.2.id == d.dst && m.listed s.2
        if armed then m.offer r ts else m) m) l

/-- The stages and engines armed for tick n, which starts at `t` ns. -/
def Leaf.bndArm (n t : Nat) (first : Bool) (l : Leaf) : Leaf :=
  let l0 := (l.takeThresholds t).decideStep n t
  let l1 := l0.stages.foldl Leaf.armStage l0
  let l2 := l1.stages.foldl (Leaf.offerCommitted first) l1
  (((l2.visArm).solvArm n).latchSeqs).feedSources.showClk

/-- A free 32-bit value. -/
def Leaf.free32 (l : Leaf) : Nat × Leaf :=
  let r := l.freeDraw
  (r.1 % 2 ^ 32, r.2)

/-- The report's entry of pipeline p (Table 3.4): energies and durations are free values, 0 in the first tick's report. -/
def Leaf.reportPipe (first halting cut : Bool) (p : PipeDesc) (l : Leaf) : List Byte × Leaf :=
  let e := l.free32
  let d := e.2.free32
  let n := p.num
  let flags := b2n cut * 16 + (if halting then 0 else b2n (l.bit (Fld.TICK_PIPE_STAT_CLAMPED n)) * 64
    + b2n (l.bit (Fld.TICK_PIPE_STAT_LONG n)) * 32 + l.get (Fld.TICK_PIPE_CFG_PRIO n))
  let sel := if halting then leBytes 1 0xFF ++ leBytes 1 0 else leBytes 1 (l.get (Fld.TICK_PIPE_STAT_VARIANT n)) ++ leBytes 1 (l.baseVariant p)
  let est := if halting then 0 else l.rd (Reg.TICK_PIPE_EST n)
  let energy := if first then 0 else e.1
  let dur := if first then 0 else if cut then 0xFFFFFFFF else d.1
  (sel ++ leBytes 1 flags ++ leBytes 1 0 ++ leBytes 4 est ++ leBytes 4 energy ++ leBytes 4 dur, d.2)

/-- The entries of all pipelines, 64 of them. -/
def Leaf.reportPipes (first halting : Bool) (cuts : List (Nat × Nat)) (l : Leaf) : List Byte × Leaf :=
  let ps := (l.glz.image.map (·.pipes)).getD []
  (List.range 64).foldl (fun (a : List Byte × Leaf) n =>
    match ps.find? fun p => p.num == n with
    | none => (a.1 ++ List.replicate 16 0, a.2)
    | some p =>
      let r := a.2.reportPipe first halting (cuts.any fun c => c.1 == n) p
      (a.1 ++ r.1, r.2)) ([], l)

/-- The tick report of boundary n at `t` ns written to its ring, and the TICK event (R90, R104). -/
def Leaf.report (n t : Nat) (first halting : Bool) (cuts : List (Nat × Nat)) (l : Leaf) : Leaf :=
  let e := l.free32
  let z (v : Nat) : Nat := if halting then 0 else v
  let flags := b2n (l.bit Fld.TICK_CFG_LOCKED) + 2 * b2n (l.bit Fld.TICK_STAT_FLOOR_OVER) + 4 * b2n (l.bit Fld.TICK_STAT_PIN_OVER)
    + 8 * b2n first + 16 * b2n l.tick.updateApplied + 32 * b2n halting
  let head := leBytes 8 n ++ leBytes 8 t ++ leBytes 4 (z (l.rd Reg.TICK_PTICK)) ++ leBytes 4 (z (l.rd Reg.TICK_FIXED))
    ++ leBytes 4 (z (l.rd Reg.TICK_BUDGET)) ++ leBytes 4 (if first then 0 else e.1) ++ leBytes 4 (l.rd Reg.TICK_BOUND_LAST)
    ++ leBytes 4 ((cuts.map (·.2)).foldl (· + ·) 0) ++ leBytes 4 (l.rd Reg.CNT_EPOCH) ++ leBytes 1 (z (l.get Fld.TICK_OP_OP))
    ++ leBytes 1 (((l.glz.image.map (·.pipes.length)).getD 0)) ++ leBytes 1 flags ++ leBytes 1 (l.get Fld.FUS_DS_STAT_STEP)
  let ps := e.2.reportPipes first halting cuts
  let r := ps.2.ringPut rptRing 1088 (padTo 64 head ++ ps.1)
  let l1 := if r.1 then r.2 else r.2.flagEvent Fld.TICK_STAT_REPORT_DROP 0x005
  (l1.setTick { l1.tick with updateApplied := false }).raise 0x000

/-! ## The boundary (R96) -/

/-- A snapshot (R483): BUSY until every shadow is written. -/
def Leaf.takeSnapshot (l : Leaf) : Leaf := l.snapshot.putB Fld.CNT_STAT_BUSY true

/-- The rings whose size has changed start at 0 (R107, R310, R435). -/
def Leaf.ringResets (l : Leaf) : Leaf :=
  let l1 := if l.tick.ringReset then (l.setTick { l.tick with ringReset := false }).ringClear rptRing else l
  let l2 := if l1.tick.digReset then ((l1.setTick { l1.tick with digReset := false }).put Fld.LEAF_DIG_WR_WR 0).put Fld.LEAF_DIG_RD_RD 0
    else l1
  if l2.fus.ringReset then (l2.setFus { l2.fus with ringReset := false }).ringClear calRing else l2

/-- The duration of the boundary phase, a free value at most 240,000 ns, or above it where the phase is late (R97): BOUND_LATE is then
set and the STOP fault raised (Table 21.2). -/
def Leaf.boundPhase (late : Bool) (l : Leaf) : Leaf :=
  let r := l.free32
  let ns := if late then 240001 + r.1 % (2 ^ 32 - 240001) else r.1 % 240001
  let l1 := (r.2.wr Reg.TICK_BOUND_LAST ns).wr Reg.TICK_BOUND_MAX (max ns (r.2.rd Reg.TICK_BOUND_MAX))
  if late then (l1.putB Fld.TICK_STAT_BOUND_LATE true).stop 0x02 { block := 0x01 } else l1

/-- What a tick leaves behind when the next one starts: no runs, no engine input. -/
def Leaf.clearTick (l : Leaf) : Leaf :=
  ({ l with mem := { l.mem with receipts := [] } }.setFab { l.fab with runs := [], ports := l.fab.ports.filter fun e => decide (4096 ≤ e.1) }).fusArm

/-- The end of a halting boundary: HALTED, or FAULT after a STOP fault (R90, R526). -/
def Leaf.haltEnd (l : Leaf) : Leaf :=
  let l1 := l.stages.foldl (fun (m : Leaf) e => m.putSlots e.1 Fld.PANE_SSTAT_ARMED 0) l
  let l2 := (l1.setTick { l1.tick with halt := false, nextAt := none, first := false, sel := [] }).putB Fld.TICK_STAT_RUNNING false
  (if l2.flt.stopPend then l2.enterFault 5 else l2.setState 5).showClk

/-- Steps 1 to 6 of the boundary at t ns that starts tick n: what was cut off, the hand-over of step 4, whether the boundary halts, the
leaf. In the first tick after a START steps 1, 4 and 5 are left out, but windows close (R89, R228). DESIGN CHOICE: a phase that is late
is found to be so before step 3. -/
def Leaf.bndClose (n t : Nat) (first late : Bool) (l : Leaf) : List (Nat × Nat) × Step4 × Bool × Leaf :=
  let k := n - 1
  let a := if first then ([], l) else l.bndStep1 k
  let l1 := (a.2.creditCheck).boundPhase late
  let halting := l1.tick.halt || l1.flt.stopPend
  let l2 := if halting then l1.specStep3 true n else l1
  let b : Step4 × Leaf := if first then ({ outs := [], units := [], props := [] }, l2.closeWindows k (k * l.rd Reg.TICK_PERIOD) t)
    else l2.bndStep4 k halting
  (a.1, b.1, halting, ((b.2.bndStep5 t b.1).takeSnapshot))

/-- Steps 7 to 10 of a boundary that does not halt. -/
def Leaf.bndOpen (n t : Nat) (first : Bool) (cuts : List (Nat × Nat)) (s : Step4) (l : Leaf) : Leaf :=
  let l1 := ((((l.updateStep7 n false).fusStep7 (n - 1) s.props).runClears).srchStep7).clearTick
  let l2 := ((if first then l1 else l1.endTickEnergy).pwrStep8).bndStep9
  let l3 := ((l2.specStep3 false n).bndArm n t first).put Fld.TICK_SUBIDX_IDX 0
  let l4 := l3.setTick { l3.tick with nextAt := some (t + l3.rd Reg.TICK_PERIOD), nextSub := some (t + l3.subPeriod), first := false }
  l4.report n t first false cuts

/-- The boundary at t ns. -/
def Leaf.boundary (t : Nat) (late : Bool) (l : Leaf) : Leaf :=
  let n := t / max 1 (l.rd Reg.TICK_PERIOD)
  let first := l.tick.first
  let l0 := (l.tickOutBoundary).ringResets
  let l1 : Leaf := if first then
      (((l0.setState 4).putB Fld.TICK_STAT_RUNNING true).putB Fld.TICK_STAT_START_PEND false).setPwr { l0.pwr with unatt := [] }
    else l0.feedSources
  let c := (l1.wr64 Reg.TICK_NUM_LO Reg.TICK_NUM_HI n).bndClose n t first late
  if c.2.2.1 then (((c.2.2.2.updateStep7 n true).clearTick).report n t first true c.1).haltEnd
  else c.2.2.2.bndOpen n t first c.1 c.2.1

/-- TICK_BOUNDARY: the boundary that is due takes place (R83); one that is not due has no effect. -/
def Leaf.tickBoundary (late : Bool) (l : Leaf) : Leaf :=
  match l.tick.nextAt with
  | none => l
  | some t =>
    let due := decide (65536 * t ≤ l.now) && (l.ticking || l.bit Fld.TICK_STAT_START_PEND)
    if due then l.boundary t late else l

/-! ## Both leaves -/

/-- Comparison starts at the first boundary at which both leaves are TICKING after the mode was locked to mirror or REARM was written
(R36); n is the tick that starts. -/
def State.agreeStart (n : Nat) (s : State) : State :=
  let h := s.hinge
  if h.mirror && !h.active && h.agree.mayStart && s.leafA.ticking && s.leafB.ticking then
    let h1 := { h with agree := { h.agree with mayStart := false, startTick := n } }
    let clear (l : Leaf) : Leaf := { l with sns := { l.sns with stampSeq := [] } }
    ((s.setHinge ((h1.putB Fld.HINGE_AGREE_STAT_ACTIVE true).putB Fld.HINGE_AGREE_STAT_SINGLE false)).onLeaf .A clear).onLeaf .B clear
  else s

/-- A boundary of leaf i, then the agreement checker. -/
def State.tickBoundary (i : LeafId) (late : Bool) (s : State) : State :=
  let old := (s.leaf i).tickNum
  let was := (s.leaf i).ticking
  let s1 := s.onLeaf i (Leaf.tickBoundary late)
  let n := (s1.leaf i).tickNum
  if (s1.leaf i).ticking && (n != old || !was) then s1.agreeStart n else s1

/-- A BARRIER_IN edge: counted, and V to every leaf that waits (R87, R438). -/
def State.barrierIn (s : State) : State :=
  let s1 := s.onHinge fun h => ((h.inc Fld.HINGE_BAR_CNT_COUNT).putB Fld.HINGE_BAR_STAT_SEEN true).message 0 128
  (s1.onLeaf .A Leaf.tickBarrier).onLeaf .B Leaf.tickBarrier

end Sys2Proof.Machine
end

