-- ==== Sys2Proof/Machine/FaultCmds.lean ====
section
/-!
DEFINITION. Commands of the faults block: leaving FAULT (R526), the faults that leaf control and the parity scan detect (Table 21.2,
R531), fault injection (R537), the lifetime record (R539).
-/
namespace Sys2Proof.Machine

/-- The leaf controller and its monitors run: out of reset and not in S2 or S3. -/
def Leaf.monitors (l : Leaf) : Bool := !l.boot.held && decide (l.sleep ≤ 1)

/-- FLT_CTRL.CLEAR: allowed for BOUND_LATE alone (Table 21.2); otherwise CLR_REFUSED. -/
def Leaf.faultClear (l : Leaf) : Leaf :=
  if l.state == 6 && l.get Fld.FLT_STAT_STOP_CODE == 2 then l.leaveFault else l.flagEvent Fld.FLT_STAT_CLR_REFUSED 0x01E

/-- A write of FLT_CTRL. -/
def Leaf.writeFltCtrl (w : Nat) (l : Leaf) : Leaf :=
  let l1 := l.swWrite Reg.FLT_CTRL w
  if bitOf w 31 then l1.faultClear else l1

/-- The clock monitor finds the reference clock or PLL out of range: later records carry CLK_SUSPECT (R528). -/
def Leaf.clockFault (l : Leaf) : Leaf :=
  if !l.monitors then l
  else
    let l1 := l.stop 0x09 { block := 0x00 }
    { l1 with flt := { l1.flt with clkSuspect := true } }

/-- A parity scan: an injected error of kind 5 is found, and one in the block that the command reports. -/
def Leaf.parityScan (block : Option Nat) (l : Leaf) : Leaf :=
  if !l.monitors then l
  else
    let l1 := match l.flt.inject with
      | some (5, b) => (l.stop 0x0A { block := b, flags := 4 }).injDone
      | _ => l
    match block with
    | some b => if b ≤ 0x12 then l1.stop 0x0A { block := b } else l1
    | none => l1

/-- A DRAM channel answers no request for 100 µs. -/
def Leaf.dramChan (chan : Nat) (l : Leaf) : Leaf :=
  if l.monitors && decide (chan < 16) then l.stop 0x0D { block := 0x06, inst := chan } else l

/-- The hinge's heartbeat arrives: it ends a loss (R531). -/
def Leaf.heartbeat (l : Leaf) : Leaf := l.putB Fld.FLT_STAT_HINGE_LOST false

/-- No heartbeat for 1 ms (R531). -/
def Leaf.lostHinge (l : Leaf) : Leaf :=
  if !l.monitors || l.bit Fld.FLT_STAT_HINGE_LOST then l
  else (l.putB Fld.FLT_STAT_HINGE_LOST true).notify 0x0F { block := 0x00 }

/-! ## Fault injection (R537) -/

/-- A write of FLT_INJ_KEY: the key arms the next write of FLT_INJ. -/
def Leaf.writeInjKey (w : Nat) (l : Leaf) : Leaf :=
  let l1 := l.swWrite Reg.FLT_INJ_KEY w
  { l1 with flt := { l1.flt with injKey := w == 0x494E4A54 } }

/-- The PINNED_SRAM object of a pane with the lowest index. -/
def Leaf.paneObj (p : Nat) (l : Leaf) : Option Nat :=
  (l.objects.find? fun e => e.2.place == 3 && e.2.pane == p).map (·.1)

/-- A pane holds a stage. -/
def Leaf.paneStage (p : Nat) (l : Leaf) : Bool := l.stages.any fun e => e.2.paneList.contains p

/-- A link exists: a mesh link between two physical panes, or an edge port. -/
def linkExists (t : Nat) : Bool :=
  if t < 256 then
    let p := t / 4
    match t % 4 with
    | 0 => decide (8 ≤ p)
    | 1 => p % 8 != 7
    | 2 => decide (p < 56)
    | _ => p % 8 != 0
  else decide (t < 0x110)

/-- TARGET names something of its kind. -/
def Leaf.injTarget (kind t : Nat) (l : Leaf) : Bool :=
  let glazed := l.glz.image.isSome
  match kind with
  | 1 => glazed && decide (t < l.fab.routes.length)
  | 2 => glazed && decide (t < l.fuses.panes) && (l.paneStage t || (l.paneObj t).isSome)
  | 3 => glazed && l.stages.any fun e => e.2.id == t && e.2.digested
  | 4 => glazed && linkExists t
  | 5 => decide (t ≤ 0x12)
  | _ => false

/-- The injection acts: kind 2 at once in a PINNED_SRAM object of the pane, every other one at its next occasion. -/
def Leaf.inject (kind t : Nat) (l : Leaf) : Leaf :=
  match kind, l.paneObj t with
  | 2, some i => (l.bump 16 (paneCounter t 7)).sramUe 4 i
  | _, _ => ({ l with flt := { l.flt with inject := some (kind, t) } }).putB Fld.FLT_INJ_BUSY true

/-- A write of FLT_INJ: it consumes the key; GO injects, or sets INJ_REFUSED. -/
def Leaf.writeInj (w : Nat) (l : Leaf) : Leaf :=
  let l1 := l.swWrite Reg.FLT_INJ w
  let l2 : Leaf := { l1 with flt := { l1.flt with injKey := false } }
  if !bitOf w 31 then l2
  else
    let kind := bitsOf w 27 24
    let t := bitsOf w 15 0
    if l.flt.injKey && !l.bit Fld.FLT_INJ_BUSY && l.injTarget kind t then l2.inject kind t
    else l2.flagEvent Fld.FLT_STAT_INJ_REFUSED 0x01E

/-! ## Lifetime (R539) -/

/-- The hourly lifetime record of a leaf in S0 or S1. -/
def Leaf.hourlyLife (l : Leaf) : Leaf := if l.monitors && l.flt.firstIdle then l.writeLife else l

end Sys2Proof.Machine
end

