-- ==== Sys2Proof/Machine/HostCmds.lean ====
section
/-!
DEFINITION. What the host does to the device beside register accesses, and what its commands do: queue pairs, doorbells and
host commands (R494 to R503), the DRAM aperture and the PF1 windows (R491 to R493, R506), the link and the functions (R489,
R504, R505).
-/
namespace Sys2Proof.Machine

/-! ## Queue pairs (R494, R499) -/

/-- DB_ERR of a pair set (R494, R499). -/
def Leaf.dbErr (q : Nat) (l : Leaf) : Leaf := l.putB (Fld.LEAF_Q_STAT_DB_ERR q) true

/-- EN of pair q written 0: fetching stops, the fetched SEARCH and COPY commands end SQUASHED, BUSY until their records are
placed (R499). DEDUCED: this is the one write that acts while EN is 1; its other fields are ignored (R494). -/
def Leaf.disablePair (q : Nat) (l : Leaf) : Leaf :=
  let dead := l.host.cmds.filter fun c => c.q == q && c.opcode == 1
  let l1 := dead.foldl (fun (m : Leaf) c => m.srchDrop c) l
  ((l1.squashPair q).putB (Fld.LEAF_Q_CFG_EN q) false).putB (Fld.LEAF_Q_CFG_BUSY q) true

/-- A write of LEAF_Qq_CFG (R494, R499). DESIGN CHOICE: enabling a pair while its disable is in progress is refused with
DB_ERR. -/
def Leaf.writeQCfg (q w : Nat) (l : Leaf) : Leaf :=
  let en := bitOf w 31
  if l.bit (Fld.LEAF_Q_CFG_EN q) then if en then l.dbErr q else l.disablePair q
  else if en && l.bit (Fld.LEAF_Q_CFG_BUSY q) then l.dbErr q
  else
    let l1 := l.swWrite (Reg.LEAF_Q_CFG q) w
    if en then l1.startPair q else l1

/-- A write of a base register of pair q: ignored while EN is 1 (R494). -/
def Leaf.writeQBase (q a w : Nat) (l : Leaf) : Leaf :=
  if l.bit (Fld.LEAF_Q_CFG_EN q) then l.dbErr q else l.swWrite a w

/-! ## Doorbells (R498, R499) -/

/-- The access that a doorbell write came by: BAR offset, function, window (R506). -/
structure Via where
  ofs : Nat
  fn : Nat
  win : Nat
  deriving DecidableEq, Repr

/-- A refused doorbell: dropped, DB_ERR, logged (R499, R506). -/
def State.doorbellBad (i : LeafId) (q : Nat) (v : Via) (s : State) : State :=
  (s.onLeaf i (Leaf.dbErr q)).onHinge (Hinge.violation v.ofs 5 v.fn true v.win)

/-- A write of the submission tail doorbell of pair q. -/
def State.sqDoorbell (i : LeafId) (q w : Nat) (v : Via) (s : State) : State :=
  let x := w % 4096
  if (s.leaf i).sqBad q x then s.doorbellBad i q v
  else s.onLeaf i fun l => l.put (Fld.LEAF_Q_SQDB_TAIL q) x

/-- A write of the completion head doorbell of pair q. -/
def State.cqDoorbell (i : LeafId) (q w : Nat) (v : Via) (s : State) : State :=
  let x := w % 4096
  if (s.leaf i).cqBad q x then s.doorbellBad i q v
  else s.onLeaf i fun l => l.put (Fld.LEAF_Q_CQDB_HEAD q) x

/-! ## Fetching (R495, R496) -/

/-- A submission entry read (Table 19.4). The record's TAG has bit 31 clear (Table 19.6). -/
def cmdOf (q : Nat) (pf1 : Option Nat) (e : List Byte) : HostCmd :=
  let z (o n : Nat) : Bool := (sliceBytes e o n).all fun b => b == 0
  let opcode := leAt e 0 1
  { q := q, opcode := opcode, rsvdOk := z 1 3 && z 32 32 && !bitOf (leAt e 4 4) 31 && decide (opcode ≤ 4),
    tag := leAt e 4 4 % 2 ^ 31, addr0 := leAt e 8 8, addr1 := leAt e 16 8, len := leAt e 24 8, pf1 := pf1 }

/-- The unit of a command's record: the search block or the command engine (Table 19.6). -/
def HostCmd.unit (c : HostCmd) : Nat := if c.opcode = 1 then 0x10 else 0x20

/-- A command ends: its record is written and it is gone (R495, R500). -/
def Leaf.endCmd (c : HostCmd) (status digest : Nat) (l : Leaf) : Leaf :=
  (l.setCmds (dropOne c l.host.cmds)).cmdRecord c status c.unit 0 digest

/-- The window whose rights the commands of a pair have (R492). -/
def Hinge.cmdWindow (h : Hinge) (i : LeafId) (q : Nat) : Option Nat :=
  let w := windowOf i (q / 8)
  if h.winOn w then some w else none

/-- COMMAND_FETCH: the next entry of pair q is fetched when a completion slot is free that no command has reserved (R496).
`entry` is what host memory holds there; an entry in leaf DRAM is read from it. A reserved opcode completes at once. -/
def State.commandFetch (i : LeafId) (q : Nat) (entry : List Byte) (s : State) : State :=
  let l := s.leaf i
  let head := l.get (Fld.LEAF_Q_STAT_SQ_HEAD q)
  let loc := l.bit (Fld.LEAF_Q_CFG_SQ_LOC q)
  if decide (64 ≤ q) || !l.bit (Fld.LEAF_Q_CFG_EN q) || head == l.get (Fld.LEAF_Q_SQDB_TAIL q)
      || decide (l.cqFreeSlots q ≤ l.reserved q) || l.sleep != 0 || !(loc || s.hinge.canDma (s.hinge.queueFn i q)) then s
  else
    let e := if loc then l.dramRead (l.sqBase q + 64 * head) 64 else padTo 64 entry
    let c := cmdOf q (s.hinge.cmdWindow i q) e
    let l1 := (l.put (Fld.LEAF_Q_STAT_SQ_HEAD q) ((head + 1) % l.sqSize q)).setCmds (l.host.cmds ++ [c])
    s.setLeaf i (if c.opcode ≤ 4 then l1 else l1.endCmd c 0x0B 0)

/-- The fetched command of a pair with an opcode and a tag that has not started. -/
def Leaf.waitingCmd (l : Leaf) (q op tag : Nat) : Option HostCmd :=
  l.host.cmds.find? fun c => c.q == q && c.opcode == op && c.tag == tag && !c.started

/-- A command replaced by one that has started. -/
def Leaf.markStarted (c : HostCmd) (l : Leaf) : Leaf :=
  l.setCmds (l.host.cmds.map fun x => if x = c then { c with started := true } else x)

/-! ## The range of a PF1 command (R492, R495, R506) -/

/-- An extent of leaf DRAM lies inside a window's range. -/
def Hinge.inWindow (h : Hinge) (w a n : Nat) : Bool :=
  decide ((h.winRange w).1 ≤ a) && decide (a + n ≤ (h.winRange w).2)

/-- The first of a command's extents (address and length) that its window's range does not hold. -/
def Hinge.rangeFault (h : Hinge) (c : HostCmd) (es : List (Nat × Nat)) : Option Nat :=
  match c.pf1 with
  | none => none
  | some w => (es.find? fun e => !h.inWindow w e.1 e.2).map (·.1)

/-- A command ends with ACCESS: PF1 named DRAM outside its window's range (R495, R506). -/
def State.cmdAccess (i : LeafId) (c : HostCmd) (addr : Nat) (write : Bool) (s : State) : State :=
  (s.onLeaf i (Leaf.endCmd c 0x0E 0)).onHinge (Hinge.violation addr 6 1 write (c.pf1.getD 0))

/-! ## The commands (R495) -/

/-- NOP. -/
def State.cmdNop (i : LeafId) (q tag : Nat) (s : State) : State :=
  match (s.leaf i).waitingCmd q 0 tag with
  | none => s
  | some c => s.onLeaf i (Leaf.endCmd c (if c.rsvdOk then 0 else 0x0B) 0)

/-- The items of a host query's filter bitmap that its walk can read: up to FLT_ITEMS and up to the item IDs in use. -/
def Leaf.filterItems (r : List Byte) (l : Leaf) : Nat :=
  let n := if leAt r 24 8 = 0 then 2 ^ 40 else leAt r 24 8
  min n (match l.idxSlot (leAt r 0 1 % 4) with | none => 1 | some x => x.next)

/-- The extents that a SEARCH names beside its record: the result block and the filter bitmap (Table 14.3). -/
def Leaf.searchExtents (r : List Byte) (l : Leaf) : List (Nat × Nat) :=
  [(leAt r 56 8, 32 + 16 * min 256 (leAt r 2 2))] ++ (if leAt r 16 8 = 0 then [] else [(leAt r 16 8, (l.filterItems r + 7) / 8)])

/-- SEARCH: the query record's address is checked and the command waits for a context (R379, R495). DEDUCED: a PF1 command
is confined in its record, its result block and its filter. -/
def State.cmdSearch (i : LeafId) (q tag : Nat) (s : State) : State :=
  let l := s.leaf i
  match l.waitingCmd q 1 tag with
  | none => s
  | some c =>
    match s.hinge.rangeFault c [(c.addr0, 352)] with
    | some a => s.cmdAccess i c a false
    | none =>
      if !c.rsvdOk || c.addr0 % 64 != 0 || decide (softEnd < c.addr0 + 352) then s.onLeaf i (Leaf.endCmd c 0x0B 0)
      else
        match s.hinge.rangeFault c (l.searchExtents (l.dramRead c.addr0 352)) with
        | some a => s.cmdAccess i c a false
        | none =>
          let l1 := l.markStarted c
          s.setLeaf i (l1.setSrch { l1.srch with host := l1.srch.host ++ [{ c with started := true }] })

/-- The leaf DRAM address of a COPY. -/
def HostCmd.copyAddr (c : HostCmd) : Nat := if c.opcode = 2 then c.addr1 else c.addr0

/-- The operands of a COPY are refused. DEDUCED: the alignment asked for is that of the leaf DRAM address, 64 bytes. -/
def HostCmd.copyBad (c : HostCmd) : Bool :=
  !c.rsvdOk || c.len % 64 != 0 || decide (c.len < 64) || decide (2 ^ 26 < c.len) || c.copyAddr % 64 != 0
    || decide (softEnd < c.copyAddr + c.len)

/-- COPY_IN and COPY_OUT start. -/
def State.cmdCopy (i : LeafId) (op q tag : Nat) (s : State) : State :=
  match (s.leaf i).waitingCmd q op tag with
  | none => s
  | some c =>
    match s.hinge.rangeFault c [(c.copyAddr, c.len)] with
    | some a => s.cmdAccess i c a (decide (op = 2))
    | none => s.onLeaf i (if c.copyBad then Leaf.endCmd c 0x0B 0 else Leaf.markStarted c)

/-- COPY_DONE: a copy that has started completes, or goes on waiting while host memory cannot be reached (R489). `data` are
the bytes that host memory holds, `hostErr` a completion with UR or CA, `poison` an uncorrectable word found by the read. -/
def State.copyDone (i : LeafId) (q tag : Nat) (data : List Byte) (hostErr poison : Bool) (s : State) : State :=
  let l := s.leaf i
  match l.host.cmds.find? fun c => c.q == q && c.tag == tag && c.started && (c.opcode == 2 || c.opcode == 3) with
  | none => s
  | some c =>
    let fn := if c.pf1.isSome then 1 else 0
    if !s.hinge.canDma fn || l.sleep != 0 then s
    else if c.opcode = 2 then
      if hostErr then s.onLeaf i (Leaf.endCmd c 0x0E 0)
      else
        let bs := padTo c.len data
        s.setLeaf i ((l.store c.addr1 bs).endCmd c 0 (crc64 bs))
    else
      let bs := l.dramRead c.addr0 c.len
      let bad := poison || l.badRange c.addr0 c.len
      let l1 := if poison then l.dramUe 1 c.addr0 else l
      let s1 := s.setLeaf i (l1.endCmd c (if bad then 9 else 0) (crc64 bs))
      s1.onHinge fun h => { h with sent := h.sent ++ [HostOut.memWrite fn c.addr1 bs] }

/-- ABORT: the named SEARCH or COPY ends SQUASHED and ABORT completes OK; one that does not exist gives INVALID (R495).
DESIGN CHOICE: bits of ADDR0 above the queue number, and operands a command does not use, are ignored. -/
def State.cmdAbort (i : LeafId) (q tag : Nat) (s : State) : State :=
  let l := s.leaf i
  match l.waitingCmd q 4 tag with
  | none => s
  | some c =>
    if !c.rsvdOk then s.onLeaf i (Leaf.endCmd c 0x0B 0)
    else
      match l.host.cmds.find? fun t => t.q == c.addr0 / 2 ^ 32 % 64 && t.tag == c.addr0 % 2 ^ 32
          && (t.opcode == 1 || t.opcode == 2 || t.opcode == 3) with
      | none => s.onLeaf i (Leaf.endCmd c 0x0B 0)
      | some t =>
        let l1 := if t.opcode = 1 then l.srchDrop t else l
        s.setLeaf i ((l1.endCmd t 0x0A 0).endCmd c 0 0)

/-! ## The hold and the groups (R497, R503) -/

/-- HOLD_DRAIN. -/
def State.holdDrain (i : LeafId) (s : State) : State :=
  let hl := drainHold s.hinge (s.leaf i)
  ({ s with hinge := hl.1 }).setLeaf i hl.2

/-- CQ_COALESCE_TIMEOUT of group g. -/
def State.groupTimeout (g : Nat) (s : State) : State :=
  if g < 16 then s.onHinge fun h => h.groupPump g (s.leaf (if g < 8 then .A else .B)).count else s

/-! ## Accesses to a leaf (R20, R464) -/

/-- A leaf answers accesses other than to its PWR_ window. -/
def State.answers (i : LeafId) (s : State) : Bool := s.hinge.up i && (s.leaf i).sleep == 0

/-- An access that a leaf does not answer: counted, and wake source ACCESS (R20, R464). -/
def State.noAnswer (i : LeafId) (s : State) : State :=
  let s1 := s.onHinge fun h => h.countDrop i
  if s.hinge.up i then s1.onLeaf i Leaf.accessWake else s1

/-- The completion of the last read. -/
def State.complete (data : List Byte) (ep abort : Bool) (s : State) : State :=
  s.onHinge fun h => { h with completion := { data := data, ep := ep, abort := abort } }

/-- All ones, the answer for a leaf that is not up. -/
def allOnes (n : Nat) : List Byte := List.replicate n 0xFF

/-! ## The DRAM aperture (R491, R506) -/

/-- The leaf and the DRAM address of offset o of the aperture. -/
def Hinge.apTarget (h : Hinge) (o : Nat) : LeafId × Nat :=
  let half := 2 ^ h.apLog2 / 2
  if o < half then (.A, h.rd Reg.HINGE_PCIE_APA_LO + 2 ^ 32 * h.rd Reg.HINGE_PCIE_APA_HI + o)
  else (.B, h.rd Reg.HINGE_PCIE_APB_LO + 2 ^ 32 * h.rd Reg.HINGE_PCIE_APB_HI + (o - half))

/-- A refused aperture access: a read gets Completer Abort, a write is dropped. -/
def State.apRefused (addr cause : Nat) (write : Bool) (s : State) : State :=
  let s1 := s.onHinge (Hinge.violation addr cause 0 write 0)
  if write then s1 else s1.complete [] false true

/-- Some byte of a range lies in the cache partition. -/
def Leaf.touchesCache (l : Leaf) (a n : Nat) : Bool := l.inCache a || l.inCache (a + n - 1)

/-- APERTURE_ACCESS: `out` is what reading the first word finds. An offset outside the aperture reaches nothing. -/
def State.aperture (o : Nat) (acc : HostAccess) (out : WordOutcome) (s : State) : State :=
  let t := s.hinge.apTarget o
  let l := s.leaf t.1
  if 2 ^ s.hinge.apLog2 ≤ o then s
  else
    match acc with
    | .read n =>
      if softEnd < t.2 + n then s.apRefused t.2 1 false
      else if !s.answers t.1 then (s.noAnswer t.1).complete (allOnes n) false false
      else
        let l1 := l.dramOutcome 1 t.2 out
        (s.setLeaf t.1 l1).complete (l1.dramRead t.2 n) (l1.badRange t.2 n) false
    | .write bs =>
      if softEnd < t.2 + bs.length then s.apRefused t.2 1 true
      else if !s.answers t.1 then s.noAnswer t.1
      else if l.touchesCache t.2 bs.length then s.apRefused t.2 2 true
      else s.setLeaf t.1 (l.store t.2 bs)

/-! ## PF1 windows (R492, R493, R506) -/

/-- A status word of Table 19.3: the leaf register that it copies. -/
def statusCopy (g x : Nat) : Option Nat :=
  if 0x1000 ≤ x ∧ x < 0x1020 then some (Reg.LEAF_Q_STAT (8 * g + (x - 0x1000) / 4))
  else if x = 0x1100 then some Reg.TICK_NUM_LO
  else if x = 0x1104 then some Reg.TICK_NUM_HI
  else if x = 0x1108 then some Reg.LEAF_STATUS
  else if x = 0x110C then some Reg.FUS_DS_STAT
  else none

/-- CQ_FULL as it reads: no free completion slot. -/
def Leaf.qStat (l : Leaf) (q : Nat) : Nat := setBits (l.rd (Reg.LEAF_Q_STAT q)) 30 30 (b2n (!l.cqFree q))

/-- What a read of offset x of a window serving group g of a leaf returns. -/
def Leaf.windowRead (l : Leaf) (g x : Nat) : Nat :=
  if x < 0x100 ∧ x % 0x20 = 0 then l.rd (Reg.LEAF_Q_SQDB (8 * g + x / 0x20))
  else if x < 0x100 ∧ x % 0x20 = 4 then l.rd (Reg.LEAF_Q_CQDB (8 * g + x / 0x20))
  else if 0x1000 ≤ x ∧ x < 0x1020 then l.qStat (8 * g + (x - 0x1000) / 4)
  else match statusCopy g x with | some a => l.rd a | none => 0

/-- PF1_WINDOW_ACCESS: an aligned word of PF1's BAR 0. DEDUCED: a read of a window whose leaf is not up answers all ones, as
PF0's reads do (R20). -/
def State.pf1Access (o : Nat) (acc : HostAccess) (s : State) : State :=
  let w := o / 65536
  let x := o % 65536
  let i : LeafId := if w < 8 then .A else .B
  let g := w % 8
  let v : Via := { ofs := o, fn := 1, win := w }
  if decide (2 ^ 20 ≤ o) || o % 4 != 0 then s
  else
    match acc with
    | .read n =>
      if n ≠ 4 then s
      else if !s.hinge.winOn w then (s.onHinge (Hinge.violation o 4 1 false w)).complete [] false true
      else if !s.answers i then (s.noAnswer i).complete (allOnes 4) false false
      else s.complete (leBytes 4 ((s.leaf i).windowRead g x)) false false
    | .write bs =>
      if bs.length ≠ 4 then s
      else if !s.hinge.winOn w then s.onHinge (Hinge.violation o 4 1 true w)
      else if (statusCopy g x).isSome then s.onHinge (Hinge.violation o 3 1 true w)
      else if !s.answers i then s.noAnswer i
      else if x < 0x100 ∧ x % 0x20 = 0 then s.sqDoorbell i (8 * g + x / 0x20) (leAt bs 0 4) v
      else if x < 0x100 ∧ x % 0x20 = 4 then s.cqDoorbell i (8 * g + x / 0x20) (leAt bs 0 4) v
      else s

/-! ## The link and the functions (R489, R504, R505) -/

/-- HINGE_PCIE_LINK shows the functions' power states. -/
def Hinge.showFn (h : Hinge) : Hinge :=
  (h.put Fld.HINGE_PCIE_LINK_D_PF0 (if h.fn0.d3hot then 3 else 0)).put Fld.HINGE_PCIE_LINK_D_PF1 (if h.fn1.d3hot then 3 else 0)

/-- A list with an element added or taken away. -/
def setMember (x : Nat) (on : Bool) (l : List Nat) : List Nat :=
  if on then (if l.contains x then l else l ++ [x]) else l.filter (· != x)

/-- A configuration write's effect on a function's state. -/
def FnState.config (op : PcieCfg) (f : FnState) : FnState :=
  match op with
  | .pmcsr d3 => { f with d3hot := d3 }
  | .pmeEn on => { f with pmeEn := on }
  | .pmeStatusClear => { f with pmeStatus := false }
  | .busMaster on => { f with busMaster := on }
  | .msixEnable on => { f with msixEn := on }
  | .functionMask on => { f with fnMask := on }
  | .vectorMask vec on => { f with vecMask := setMember vec on f.vecMask }
  | .requesterId _ => f
  | .apertureLog2 _ => f

/-- What a configuration write changes beside a function's state: its requester ID, PF0's aperture size of 1 to 64 GiB. -/
def Hinge.configSide (fn : Nat) (op : PcieCfg) (h : Hinge) : Hinge :=
  match op with
  | .requesterId rid => if fn = 0 then { h with rid0 := rid % 65536 } else { h with rid1 := rid % 65536 }
  | .apertureLog2 n => if fn = 0 ∧ 30 ≤ n ∧ n ≤ 36 then { h with apLog2 := n } else h
  | _ => h

/-- PCIE_CONFIG_WRITE: held messages whose condition has ended go out (R504). None reaches a function while PERST_N or the
hinge reset is asserted. -/
def Hinge.configWrite (fn : Nat) (op : PcieCfg) (h : Hinge) : Hinge :=
  if h.held || h.perst || decide (1 < fn) then h
  else (((h.setFn fn ((h.fn fn).config op)).configSide fn op).showFn).release

/-- FLR of a function (R489). -/
def Hinge.flr (fn : Nat) (h : Hinge) : Hinge :=
  if h.held || h.perst || decide (1 < fn) then h
  else
    let h1 := (h.setFn fn {}).showFn
    if fn = 0 then { h1 with apLog2 := 30 } else h1

/-- PERST_N asserted: link and functions in reset, held messages stay (R489, R19). DESIGN CHOICE: the requester IDs are 0 and
1 until the host numbers the bus again. -/
def Hinge.perstAssert (h : Hinge) : Hinge :=
  let h1 := { h with fn0 := {}, fn1 := {}, perst := true, apLog2 := 30, rid0 := 0, rid1 := 1 }
  (((h1.put Fld.HINGE_PCIE_LINK_SPEED 0).put Fld.HINGE_PCIE_LINK_WIDTH 0).put Fld.HINGE_PCIE_LINK_LSTATE 3).showFn

/-- PERST_N released: the link trains; LINK_STATE_CHANGE reports L0. -/
def Hinge.perstRelease (h : Hinge) : Hinge := { h with perst := false }

/-- PME_Status set in a function whose message is held (R505). -/
def Hinge.markPme (h : Hinge) : Hinge :=
  let mark (fn : Nat) (f : FnState) : FnState := if h.heldMsgs.any fun m => m.1 == fn then { f with pmeStatus := true } else f
  { h with fn0 := mark 0 h.fn0, fn1 := mark 1 h.fn1 }

/-- LINK_STATE_CHANGE: the link's speed, width and state; at L0 WAKE_N ends and held messages go on (R504, R505). -/
def Hinge.linkChange (speed width lstate : Nat) (h : Hinge) : Hinge :=
  if h.held || h.perst || decide (5 < speed) || decide (8 < width) || decide (3 < lstate) then h
  else
    let h1 := ((h.put Fld.HINGE_PCIE_LINK_SPEED speed).put Fld.HINGE_PCIE_LINK_WIDTH width).put Fld.HINGE_PCIE_LINK_LSTATE lstate
    let h2 := if h1.wakeN && lstate == 0 then ({ h1 with wakeN := false }).markPme else h1
    h2.release

/-- HINGE_VIOL_STAT written: VALID is write-1-to-clear (R506). -/
def Hinge.writeViolStat (w : Nat) (h : Hinge) : Hinge := h.swWrite Reg.HINGE_VIOL_STAT w

end Sys2Proof.Machine
end

