-- ==== Sys2Proof/Machine/Stamps.lean ====
section
/-!
DEFINITION. Arrival stamps and digests between the leaves and the hinge (R29 to R36), the mode (R24, R25), the agreement
registers (R38, R39, R45), and the edges of PPS and FILT_SYNC (R77, R255).
-/
namespace Sys2Proof.Machine

/-! ## Stamps (R29 to R31) -/

/-- Every item that waits for a reconciled stamp goes on with its own one (R31). -/
def Leaf.releaseStamps (l : Leaf) : Leaf :=
  let l1 := l.sns.pend.foldl (fun (m : Leaf) it => m.stampKnown it.src it.seq it.vt) l
  { l1 with sns := { l1.sns with outStamps := [] } }

/-- A reset of one leaf (R19, R35): when it ends reconciliation, the other leaf's waiting items go on with their own stamps. -/
def State.resetLeaf (i : LeafId) (c : Nat) (fault : Option (Nat × Nat)) (s : State) : State :=
  let s1 := s.leafReset i c fault
  if s.hinge.active && !s1.hinge.active then s1.onLeaf i.other Leaf.releaseStamps else s1

/-- The stamp waiting at the hinge that pairs with one of leaf `i`. -/
def AgreeState.stampPartner (a : AgreeState) (i : LeafId) (m : StampMsg) : Option StampMsg :=
  (a.stamps.find? fun e => e.1 == i.other && e.2.src == m.src && e.2.seq == m.seq).map (·.2)

/-- The waiting stamps without those of a source and number. -/
def AgreeState.dropStamps (a : AgreeState) (src seq : Nat) : AgreeState :=
  { a with stamps := a.stamps.filter fun e => !(e.2.src == src && e.2.seq == seq) }

/-- Two stamps differ by more than STAMP_TOL ns (R30). -/
def Hinge.stampsDiffer (h : Hinge) (a b : Nat) : Bool :=
  decide (h.get Fld.HINGE_AGREE_CFG_STAMP_TOL * 65536 < ((a : Int) - (b : Int)).natAbs)

/-- A pair of stamps is complete: the earlier one is returned to both leaves; too large a difference is a STAMP fault (R30).
DESIGN CHOICE: the tick logged with a stamp fault is the one in progress in the leaf whose stamp completed the pair. -/
def State.stampPair (i : LeafId) (m p : StampMsg) (s : State) : State :=
  let vt := min m.vt p.vt
  let s1 := s.onHinge fun h => { h with agree := h.agree.dropStamps m.src m.seq }
  let s2 := if s1.hinge.stampsDiffer m.vt p.vt then
      s1.agreeFault { cause := 3, tick := (s.leaf i).tickNum, kind := 1, index := m.src }
    else s1
  (s2.onLeaf .A (Leaf.stampKnown m.src m.seq vt)).onLeaf .B (Leaf.stampKnown m.src m.seq vt)

/-- STAMP_TO_HINGE: the oldest stamp that leaf i has sent arrives (R29); while the checker is not ACTIVE the leaf uses its own
(R31). -/
def State.stampToHinge (i : LeafId) (s : State) : State :=
  match (s.leaf i).sns.outStamps with
  | [] => s
  | m :: t =>
    let s1 := s.onLeaf i fun l => { l with sns := { l.sns with outStamps := t } }
    if !s.hinge.active then s1.onLeaf i (Leaf.stampKnown m.src m.seq m.vt)
    else
      match s.hinge.agree.stampPartner i m with
      | none => s1.onHinge fun h => { h with agree := { h.agree with stamps := h.agree.stamps ++ [(i, m)] } }
      | some p => s1.stampPair i m p

/-- STAMP_UNPAIRED: PAIR_WIN has passed without a partner: the leaf uses its own stamp, fault UNPAIRED (R30). -/
def State.stampUnpaired (i : LeafId) (src seq : Nat) (s : State) : State :=
  match s.hinge.agree.stamps.find? fun e => e.1 == i && e.2.src == src && e.2.seq == seq with
  | none => s
  | some e =>
    let s1 := s.onHinge fun h => { h with agree := { h.agree with
      stamps := h.agree.stamps.filter fun x => !(x.1 == i && x.2.src == src && x.2.seq == seq) } }
    let s2 := s1.agreeFault { cause := 4, tick := (s.leaf i).tickNum, kind := 1, index := src }
    s2.onLeaf i (Leaf.stampKnown src seq e.2.vt)

/-- DIGEST_TO_HINGE: the oldest digest that leaf i has sent arrives (R34). -/
def State.digestToHinge (i : LeafId) (s : State) : State :=
  match (s.leaf i).tick.outDigests with
  | [] => s
  | m :: t => (s.onLeaf i fun l => { l with tick := { l.tick with outDigests := t } }).digestArrives i m

/-! ## Mode and agreement registers (R24, R25, R36, R38, R39, R45) -/

/-- A write of HINGE_MODE (R24). The first one fixes MODE, lets comparison start in mirror mode (R36) and lets go the STARTs
that wait for it (R25, R88). -/
def State.writeMode (w : Nat) (s : State) : State :=
  if s.hinge.bit Fld.HINGE_MODE_LOCKED then s.onHinge fun h => h.putB Fld.HINGE_MODE_LATE_WR (!bitOf w 1)
  else
    let h := (s.hinge.putB Fld.HINGE_MODE_MODE (bitOf w 0)).putB Fld.HINGE_MODE_LOCKED true
    let s1 := s.setHinge { h with agree := { h.agree with mayStart := bitOf w 0 } }
    (s1.onLeaf .A Leaf.tickRelease).onLeaf .B Leaf.tickRelease

/-- A write of HINGE_AGREE_CFG: ignored once the mode is locked (R45). -/
def Hinge.writeAgreeCfg (w : Nat) (h : Hinge) : Hinge :=
  if h.bit Fld.HINGE_MODE_LOCKED then h else h.swWrite Reg.HINGE_AGREE_CFG w

/-- A write of HINGE_AGREE_CTRL: REARM lets comparison start again after SINGLE (R36). -/
def Hinge.writeAgreeCtrl (w : Nat) (h : Hinge) : Hinge :=
  if bitOf w 0 && h.bit Fld.HINGE_AGREE_STAT_SINGLE then { h with agree := { h.agree with mayStart := true } } else h

/-- A write of HINGE_AGREE_STAT: clearing FAULT re-arms the log and releases SAFE_N (R38, R39). CAUSE reads 0 from then on
(Table 1.4). -/
def State.writeAgreeStat (w : Nat) (s : State) : State :=
  if bitOf w 0 then
    let s1 := s.onHinge fun h => (h.putB Fld.HINGE_AGREE_STAT_FAULT false).put Fld.HINGE_AGREE_STAT_CAUSE 0
    let free (l : Leaf) : Leaf := { l with flt := { l.flt with agreeHold := false } }
    (s1.onLeaf .A free).onLeaf .B free
  else s

/-! ## Edges (R77, R255) -/

/-- PPS_EDGE: while PPS capture is on, an edge of the chosen polarity of a pulse of at least 100 ns is captured and, in mirror mode, its stamp is sent
to the hinge (R29, R77). -/
def Leaf.ppsEdge (active falling : Bool) (c8 widthNs : Nat) (l : Leaf) : Leaf :=
  if decide (widthNs < 100) || !l.bit Fld.TIME_PPS_CFG_ENABLE || l.bit Fld.TIME_PPS_CFG_EDGE != falling then l
  else
    let l1 := l.ppsCapture c8
    if l1.sleep = 0 then l1.arrive active 0x21 c8 .edge else l1

/-- FILT_SYNC_EDGE: an active edge of a pulse of at least 100 ns; its stamp makes a phase reset (R255). -/
def Leaf.filtSyncEdge (active : Bool) (c8 : Nat) (l : Leaf) : Leaf :=
  if l.bit Fld.FILT_SYNC_CTRL_PIN_EN then l.arrive active 0x22 c8 .edge else l

end Sys2Proof.Machine
end

