-- ==== Sys2Proof/Machine/RegAccess.lean ====
section
/-!
DEFINITION. Accesses of PF0 to the register view (R9, R20, R40, R41, R464): what a write does beside setting its fields, block by
block, and what a read returns.
-/
namespace Sys2Proof.Machine

/-- The index of the element of a register array that lies at address a. -/
def arrIx (base stride n a : Nat) : Option Nat :=
  if base ≤ a ∧ (a - base) % stride = 0 ∧ (a - base) / stride < n then some ((a - base) / stride) else none

/-! ## Writes, block by block -/

/-- Leaf control (R126, R125, R135, R430, R431, R435, R494, R524). -/
def Leaf.writeLeafBlk (a w : Nat) (l : Leaf) : Leaf :=
  if a = Reg.LEAF_GLZ_CMD then l.writeGlzCmd w
  else if a = Reg.LEAF_GLZ_KCTL then l.writeKctl w
  else if a = Reg.LEAF_GLZ_KUNLOCK then l.writeKunlock w
  else if a = Reg.LEAF_FWU_CTRL then l.writeFwuCtrl w
  else if a = Reg.LEAF_SEED_LO ∨ a = Reg.LEAF_SEED_HI then l.writeSeed a w
  else if a = Reg.LEAF_RNG_OBJ then l.writeRngObj w
  else if a = Reg.LEAF_RNG_CIDX then l.writeRngIdx w
  else if a = Reg.LEAF_DIG_SIZE then
    let l1 := l.swWrite a w
    if l1.rd a = l.rd a then l1 else l1.setTick { l1.tick with digReset := true }
  else if 0x1000 ≤ a ∧ a < 0x1800 then
    let q := (a - 0x1000) / 0x20
    let o := a % 0x20
    if o < 0x10 then l.writeQBase q a w else if o = 0x10 then l.writeQCfg q w else l.swWrite a w
  else l.swWrite a w

/-- The next exposure trigger of each receiver, after TICK_PERIOD or vehicle time has changed: never later than the one already
scheduled, so that an instant passed over is counted when it is reached (R234). -/
def Leaf.retrigAll (l : Leaf) : Leaf :=
  (List.range 6).foldl (fun (m : Leaf) n =>
    match (m.cam n).trigNext, ((m.retrig n).cam n).trigNext with
    | some old, some new => if new < old then m.retrig n else m
    | _, _ => m) l

/-- Tick and schedule (R85, R106, R107). TICK_CTRL is written by State.leafWrite. -/
def Leaf.writeTickBlk (a w : Nat) (l : Leaf) : Leaf :=
  if a = Reg.TICK_CFG then l.writeTickCfg a w
  else if a = Reg.TICK_PERIOD then
    let l1 := l.writeTickCfg a w
    if l1.rd a = l.rd a then l1
    else (List.range 6).foldl (fun (m : Leaf) n => if m.bit (Fld.SNS_CAM_TRIG_MODE n) then m else m.retrig n) l1
  else if a = Reg.TICK_RPT_SIZE then l.writeRptSize w
  else match arrIx 0x101000 0x10 64 a with
    | some n => l.writePipeCfg n w
    | none => l.swWrite a w

/-- Time unit (R50, R56 to R58, R62, R74 to R76, R79). -/
def Leaf.writeTimeBlk (a w : Nat) (l : Leaf) : Leaf :=
  if a = Reg.TIME_CAPTURE then (if bitOf w 0 then l.capture else l)
  else if a = Reg.TIME_VT_CTRL then l.writeVtCtrl w
  else if 0x200100 ≤ a ∧ a < 0x200200 then
    let d := (a - 0x200100) / 0x80
    if a = Reg.TIME_D_CFG d then l.writeDomCfg d w
    else if a = Reg.TIME_D_COMMIT d then (l.writeCommit d w).retrigAll
    else if a = Reg.TIME_D_STAT d then l.writeDomStat d w
    else l.swWrite a w
  else if 0x200400 ≤ a ∧ a < 0x200600 then
    let n := (a - 0x200400) / 0x20
    let o := a % 0x20
    if o = 0 then l.writeTrigCtrl n w else if o < 0x18 then l.reprogram n a w else l.swWrite a w
  else l.swWrite a w

/-- Switch (R69, R71). -/
def Leaf.writeSwBlk (a w : Nat) (l : Leaf) : Leaf :=
  if a = Reg.SW_FDB_CMD then l.writeFdbCmd w
  else match arrIx 0x30100C 0x100 6 a with
    | some p => l.writeQbvCtrl p w
    | none => l.swWrite a w

/-- Interrupt controller (R471, R472, R474 to R477). -/
def Leaf.writeIrqBlk (a w : Nat) (l : Leaf) : Leaf :=
  match arrIx 0x400000 4 16 a, arrIx 0x400040 4 16 a, arrIx 0x400080 4 16 a, arrIx 0x400800 4 512 a with
  | some i, _, _, _ => l.writePend i w
  | _, some i, _, _ => l.writeRaw i w
  | _, _, some i, _ => l.writeMask i w
  | _, _, _, some s => l.writeTgt s w
  | none, none, none, none => if a = Reg.IRQ_EOI then (l.swWrite a w).eoi (w % 512) else l.swWrite a w

/-- Power manager (R446, R456 to R458, R464). -/
def Leaf.writePwrBlk (a w : Nat) (l : Leaf) : Leaf :=
  if a = Reg.PWR_OP ∨ a = Reg.PWR_CAP ∨ a = Reg.PWR_TEMP_CFG ∨ a = Reg.PWR_COOL_CFG ∨ a = Reg.PWR_COOL_STALE then l.writePwrCfg a w
  else if a = Reg.PWR_TRIP then l.writeTrip w
  else if a = Reg.PWR_COOL_IN then l.coolantWrite false w
  else if a = Reg.PWR_COOL_BUDGET then l.coolantWrite true w
  else if a = Reg.PWR_SLEEP_CTRL then l.writeSleepCtrl w
  else l.swWrite a w

/-- Memory tiers (R202, R212, R213). -/
def Leaf.writeMemBlk (a w : Nat) (l : Leaf) : Leaf :=
  if a = Reg.MEM_CACHE_BASE_LO ∨ a = Reg.MEM_CACHE_BASE_HI ∨ a = Reg.MEM_CACHE_SIZE then l.writeCacheReg a w
  else if a = Reg.MEM_RW_CTRL then l.writeRwCtrl w
  else l.swWrite a w

/-- An exposure-trigger register of receiver n other than TRIG: a configuration register of its source (R243), on which the
next instant depends (R234). -/
def Leaf.writeTrigCfg (n a w : Nat) (l : Leaf) : Leaf :=
  if l.bit (Fld.SNS_SRC_CFG_ENABLE n) then l.snsRefused
  else if a = Reg.SNS_CAM_TOFS n then l.writeTrig n a w
  else (l.swWrite a w).retrig n

/-- Sensor ingress (R225, R230, R234, R242, R243). Windows of source indices without a source read 0 and ignore writes. -/
def Leaf.writeSnsBlk (a w : Nat) (l : Leaf) : Leaf :=
  if 0x701000 ≤ a ∧ a < 0x703000 then
    let s := (a - 0x701000) / 0x40
    if !srcExists s then l
    else if a = Reg.SNS_SRC_CFG s then l.writeSrcCfg s w
    else if a = Reg.SNS_SRC_STAT s then l.swWrite a w
    else l.writeSnsCfg a w
  else if 0x705000 ≤ a ∧ a < 0x705180 then
    let n := (a - 0x705000) / 0x40
    if a = Reg.SNS_CAM_TRIG n then l.writeTrig n a w
    else if a = Reg.SNS_CAM_TOFS n ∨ a = Reg.SNS_CAM_TPER n ∨ a = Reg.SNS_CAM_TLEAD n then l.writeTrigCfg n a w
    else if a = Reg.SNS_CAM_I2C n then l.writeI2c n w
    else l.writeSnsCfg a w
  else if a = Reg.SNS_UART_TX then l.uartTx w
  else l.writeSnsCfg a w

/-- A write of FILT_SYNC_CTRL (R255). DESIGN CHOICE: with both bits written the CANCEL comes last. -/
def Leaf.writeSyncCtrl (w : Nat) (l : Leaf) : Leaf :=
  let l1 := l.swWrite Reg.FILT_SYNC_CTRL w
  let l2 := if bitOf w 31 then l1.syncArm else l1
  if bitOf w 30 then l2.syncCancel else l2

/-- Filter chain (R255, R267). -/
def Leaf.writeFiltBlk (a w : Nat) (l : Leaf) : Leaf :=
  if a = Reg.FILT_SYNC_CTRL then l.writeSyncCtrl w
  else if 0x801000 ≤ a ∧ a < 0x803000 then
    let c := (a - 0x801000) / 0x100
    let o := a % 0x100
    if o = 0 then l.writeChCfg c w else if o = 4 ∨ 0x40 ≤ o then l.writeChProg c a w else l.swWrite a w
  else l.swWrite a w

/-- Vision engines (R298). -/
def Leaf.writeVisBlk (a w : Nat) (l : Leaf) : Leaf :=
  match arrIx 0xA01000 0x100 7 a with
  | some k => l.writeVisCtrl (k + 1) w
  | none => l.swWrite a w

/-- A sensor index of the fusion block without tables. -/
def noTable (a base : Nat) : Bool := decide (base + 0x300 ≤ a) && decide (a < base + 0x400)

/-- Fusion (R309, R310, R316, R320, R328). -/
def Leaf.writeFusBlk (a w : Nat) (l : Leaf) : Leaf :=
  if a = Reg.FUS_TBL_CMD then l.writeTblCmd w
  else if a = Reg.FUS_TRK_NEXT then l.writeTrkNext w
  else if a = Reg.FUS_CAL_RING_SIZE then l.writeCalSize w
  else if noTable a 0xB01000 then l
  else match arrIx 0xB00040 4 4 a with
    | some n => l.writeDemote n w
    | none => l.swWrite a w

/-- Speculation (R331, R346). -/
def Leaf.writeSpecBlk (a w : Nat) (l : Leaf) : Leaf :=
  if a = Reg.SPEC_CTRL then l.writeSpecCtrl w
  else if a = Reg.SPEC_CFG then l.writeSpecCfg w
  else l.swWrite a w

/-- Landmarks and map (R347, R354). -/
def Leaf.writeMapBlk (a w : Nat) (l : Leaf) : Leaf :=
  match arrIx 0xD00000 4 3 a with
  | some n => l.writeMapObj n w
  | none => if a = Reg.MAP_LMK_RD_IDX then l.writeLmkIdx w else l.swWrite a w

/-- Mullion engines (R381, R384 to R392). -/
def Leaf.writeSrchBlk (a w : Nat) (l : Leaf) : Leaf :=
  if a = Reg.SRCH_SIDE_CMD then l.writeSideCmd w
  else if a = Reg.SRCH_MRG_CTRL then l.writeMrgCtrl w
  else if a = Reg.SRCH_FW_CTRL then (if bitOf w 31 then l.fwGo else l)
  else match arrIx 0xE01010 0x100 4 a, arrIx 0xE02000 0x40 4 a, arrIx 0xE02004 0x40 4 a with
    | some x, _, _ => l.writeIdxCtrl x w
    | _, some q, _ => l.writeQsrc q false w
    | _, _, some q => l.writeQsrc q true w
    | none, none, none => l.swWrite a w

/-- Pane array: windows of panes at or beyond the image's L ignore writes (R190). -/
def Leaf.writePaneBlk (a w : Nat) (l : Leaf) : Leaf :=
  if (a - 0x1000000) / 0x10000 < l.get Fld.LEAF_GLZ_INFO_L then l.swWrite a w else l

/-- CNT_CTRL.SNAP (R483, R484): refused while BUSY. -/
def Leaf.snapCmd (l : Leaf) : Leaf :=
  if l.bit Fld.CNT_STAT_BUSY then l.putB Fld.CNT_STAT_SNAP_REFUSED true else l.takeSnapshot

/-- Counters (R483, R484). -/
def Leaf.writeCntBlk (a w : Nat) (l : Leaf) : Leaf :=
  if a = Reg.CNT_CTRL then (if bitOf w 31 then l.snapCmd else l) else l.swWrite a w

/-- Faults and safety (R526, R537). -/
def Leaf.writeFltBlk (a w : Nat) (l : Leaf) : Leaf :=
  if a = Reg.FLT_CTRL then l.writeFltCtrl w
  else if a = Reg.FLT_INJ_KEY then l.writeInjKey w
  else if a = Reg.FLT_INJ then l.writeInj w
  else l.swWrite a w

/-- A write to the leaf window, apart from doorbells and TICK_CTRL: the blocks of Table 1.7. -/
def Leaf.writeReg (a w : Nat) (l : Leaf) : Leaf :=
  match a / 2 ^ 20 with
  | 0x00 => l.writeLeafBlk a w
  | 0x01 => l.writeTickBlk a w
  | 0x02 => l.writeTimeBlk a w
  | 0x03 => l.writeSwBlk a w
  | 0x04 => l.writeIrqBlk a w
  | 0x05 => l.writePwrBlk a w
  | 0x06 => l.writeMemBlk a w
  | 0x07 => l.writeSnsBlk a w
  | 0x08 => l.writeFiltBlk a w
  | 0x09 => if a = Reg.EGO_CTRL then l.writeEgoCtrl w else l.swWrite a w
  | 0x0A => l.writeVisBlk a w
  | 0x0B => l.writeFusBlk a w
  | 0x0C => l.writeSpecBlk a w
  | 0x0D => l.writeMapBlk a w
  | 0x0E => l.writeSrchBlk a w
  | 0x0F => if a = Reg.SOLV_CTRL then l.writeSolvCtrl w else l.swWrite a w
  | 0x10 | 0x11 | 0x12 | 0x13 => l.writePaneBlk a w
  | 0x18 => l.writeCntBlk a w
  | 0x1C => l.writeFltBlk a w
  | _ => l

/-! ## Reads -/

/-- The counter window (R482, R483): shadows, and descriptors whose names, instances and units are open. -/
def Leaf.cntRead (a : Nat) (l : Leaf) : Nat :=
  let c := (a - 0x1800000) / 0x10000
  let o := a % 0x10000
  let n := l.get (Fld.CNT_CLASS_NCNT c)
  if o < 0x4000 then
    let v := (alGet l.ctr.shadow (counterKey c (o / 8))).getD 0
    if o / 8 < n then (if o % 8 = 0 then v % 2 ^ 32 else v / 2 ^ 32 % 2 ^ 32) else 0
  else
    let i := (o - 0x4000) / 16
    let j := o % 16 / 4
    let d := Config.counterDesc c i j
    if i < n then (if j = 3 then d % 65536 + d / 65536 % 6 * 65536 else d % 2 ^ 32) else 0

/-- The bridging offset as TIME_BRIDGE shows it (R54). -/
def Leaf.bridgeReg (l : Leaf) : Nat := patternOf 64 (l.bridgeQ16 l.count)

/-- A register of the time unit as it reads. -/
def Leaf.readTime (a : Nat) (l : Leaf) : Nat :=
  if a = Reg.TIME_BRIDGE_LO then l.bridgeReg % 2 ^ 32
  else if a = Reg.TIME_BRIDGE_HI then l.bridgeReg / 2 ^ 32
  else if a = Reg.TIME_VT_STAT then setBits (l.swRead a) 1 1 (b2n (l.bridgeAt l.count != 0))
  else match arrIx 0x20011C 0x80 2 a with
    | some d => setBits (l.swRead a) 5 5 (b2n (l.healthy d))
    | none => l.swRead a

/-- A register of the interrupt controller as it reads: WAIT while events are counted and no message is due. -/
def Leaf.readIrq (a : Nat) (l : Leaf) : Nat :=
  match arrIx 0x401004 8 64 a with
  | some v => setBits (l.swRead a) 31 31 (b2n (l.get (Fld.IRQ_VEC_STAT_ACC v) != 0 && !l.vecDue v (l.ofVec v l.deliverable)))
  | none => l.swRead a

/-- A register of the power manager as it reads: the active times. -/
def Leaf.readPwr (a : Nat) (l : Leaf) : Nat :=
  match arrIx 0x500020 8 7 a, arrIx 0x500024 8 7 a with
  | some r, _ => l.thrUs r % 2 ^ 32
  | _, some r => l.thrUs r / 2 ^ 32
  | none, none => l.swRead a

/-- A register of the filter chain as it reads: a coefficient is sign-extended (R249). -/
def Leaf.readFilt (a : Nat) (l : Leaf) : Nat :=
  let o := a % 0x100
  let v := l.swRead a
  if 0x801000 ≤ a ∧ a < 0x803000 ∧ 0x40 ≤ o ∧ (o - 0x40) % 0x18 < 0x14 then patternOf 32 (signedOf 24 v) else v

/-- A register of the fusion block as it reads. -/
def Leaf.readFus (a : Nat) (l : Leaf) : Nat :=
  if a = Reg.FUS_DS_DRLEFT then l.drLeft
  else if a = Reg.FUS_TRK_NEXT then l.aon.trkNext
  else if noTable a 0xB01000 || noTable a 0xB02000 then 0
  else l.swRead a

/-- A register of a pane as it reads (R190). -/
def Leaf.readPane (a : Nat) (l : Leaf) : Nat :=
  let p := (a - 0x1000000) / 0x10000
  let o := a % 0x10000
  if o = 0 then l.swRead a
  else if l.get Fld.LEAF_GLZ_INFO_L ≤ p then 0
  else match arrIx 0x400 4 4 o with
    | some d => l.paneLink p d
    | none => l.swRead a

/-- A register of the faults block as it reads: FLT_PREV and the lifetime counters lie in the always-on domain. -/
def Leaf.readFlt (a : Nat) (l : Leaf) : Nat :=
  match arrIx 0x1C00040 4 8 a, arrIx 0x1C00100 8 12 a, arrIx 0x1C00104 8 12 a with
  | some i, _, _ => leAt l.aon.prev (4 * i) 4
  | _, some n, _ => l.aon.life.getD n 0 % 2 ^ 32
  | _, _, some n => l.aon.life.getD n 0 / 2 ^ 32 % 2 ^ 32
  | none, none, none => l.swRead a

/-- A register of the leaf control block as it reads: CQ_FULL of a queue pair. -/
def Leaf.readLeaf (a : Nat) (l : Leaf) : Nat :=
  match arrIx 0x101C 0x20 64 a with
  | some q => l.qStat q
  | none => l.swRead a

/-- What a read of the leaf window returns. -/
def Leaf.readReg (a : Nat) (l : Leaf) : Nat :=
  match a / 2 ^ 20 with
  | 0x00 => l.readLeaf a
  | 0x01 =>
    if 0x101000 ≤ a ∧ a < 0x101400 then (if l.hasPipe ((a - 0x101000) / 0x10) then l.swRead a else 0) else l.swRead a
  | 0x02 => l.readTime a
  | 0x04 => l.readIrq a
  | 0x05 => l.readPwr a
  | 0x07 =>
    if 0x701000 ≤ a ∧ a < 0x703000 then (if srcExists ((a - 0x701000) / 0x40) then l.swRead a else 0) else l.swRead a
  | 0x08 => l.readFilt a
  | 0x0B => l.readFus a
  | 0x10 | 0x11 | 0x12 | 0x13 => l.readPane a
  | 0x18 | 0x19 | 0x1A | 0x1B => if a < 0x1800200 then l.swRead a else l.cntRead a
  | 0x1C => l.readFlt a
  | _ => l.swRead a

/-- What a read of the leaf window changes: the set-since-read mask of a PEND word (R476), the unread PPS capture (R77). -/
def Leaf.afterRead (a : Nat) (l : Leaf) : Leaf :=
  match arrIx 0x400000 4 16 a with
  | some i => l.readPend i
  | none => if a = Reg.TIME_PPS_VT_LO then { l with time := { l.time with ppsUnread := false } } else l

/-! ## The PF0 register view (R20, R40, R464) -/

/-- Where an address of the register view lies: a leaf and an offset of its window, or the hinge. -/
def leafOf (addr : Nat) : Option (LeafId × Nat) :=
  if addr < 0x4000000 then some (.A, addr) else if addr < 0x8000000 then some (.B, addr - 0x4000000) else none

/-- The base of a leaf's window in the register view (Table 1.6). -/
def leafBase (i : LeafId) : Nat := i.toNat * 0x4000000

/-- An access to an offset of a leaf's window is answered: the leaf is up, and awake unless the offset lies in the PWR_ window. -/
def State.opens (i : LeafId) (a : Nat) (s : State) : Bool := s.hinge.up i && ((s.leaf i).sleep == 0 || a / 2 ^ 20 == 5)

/-- A write to a leaf's window. -/
def State.leafWrite (i : LeafId) (a w : Nat) (s : State) : State :=
  let v : Via := { ofs := leafBase i + a, fn := 0, win := 0 }
  if !s.opens i a then s.noAnswer i
  else match arrIx 0x1014 0x20 64 a, arrIx 0x1018 0x20 64 a with
    | some q, _ => s.sqDoorbell i q w v
    | _, some q => s.cqDoorbell i q w v
    | none, none =>
      if a = Reg.TICK_CTRL then s.onLeaf i (Leaf.writeTickCtrl (s.hinge.bit Fld.HINGE_MODE_LOCKED) w)
      else s.onLeaf i (Leaf.writeReg a w)

/-- A write of HINGE_LEAF_CTRL (R19, R23). -/
def State.writeLeafCtrl (w : Nat) (s : State) : State :=
  let s1 := if bitOf w 0 then s.resetLeaf .A 1 none else s
  if bitOf w 1 then s1.resetLeaf .B 1 none else s1

/-- A write of HINGE_HBOOT_CTRL (R520). -/
def State.writeHboot (w : Nat) (s : State) : State :=
  let s1 := if bitOf w 0 then s.hostBootGo .A else s
  if bitOf w 1 then s1.hostBootGo .B else s1

/-- A write of a group's COAL: a message may fall due at once (R503). -/
def State.writeCoal (g w : Nat) (s : State) : State :=
  (s.onHinge fun h => h.swWrite (Reg.HINGE_PCIE_CQG_COAL g) w).groupTimeout g

/-- A write to the hinge window. -/
def State.hingeWrite (addr w : Nat) (s : State) : State :=
  if s.hinge.held then s
  else if addr = Reg.HINGE_MODE then s.writeMode w
  else if addr = Reg.HINGE_LEAF_CTRL then s.writeLeafCtrl w
  else if addr = Reg.HINGE_BAR_CTRL then s.writeBarCtrl w
  else if addr = Reg.HINGE_HBOOT_CTRL then s.writeHboot w
  else if addr = Reg.HINGE_AGREE_CFG then s.onHinge (Hinge.writeAgreeCfg w)
  else if addr = Reg.HINGE_AGREE_CTRL then s.onHinge (Hinge.writeAgreeCtrl w)
  else if addr = Reg.HINGE_AGREE_STAT then s.writeAgreeStat w
  else match arrIx 0x8300200 8 16 addr with
    | some g => s.writeCoal g w
    | none => s.onHinge fun h => h.swWrite addr w

/-- A PF0 write of an aligned word of the register view. -/
def State.pf0Write (addr w : Nat) (s : State) : State :=
  if addr % 4 ≠ 0 then s
  else match leafOf addr with
    | some (i, a) => s.leafWrite i a w
    | none => s.hingeWrite addr w

/-- A PF0 read of an aligned word of the register view; its data are the last completion's. -/
def State.pf0Read (addr : Nat) (s : State) : State :=
  if addr % 4 ≠ 0 then s
  else match leafOf addr with
    | some (i, a) =>
      if !s.opens i a then (s.noAnswer i).complete (allOnes 4) false false
      else (s.onLeaf i (Leaf.afterRead a)).complete (leBytes 4 ((s.leaf i).readReg a)) false false
    | none => if s.hinge.held then s else s.complete (leBytes 4 (s.hinge.swRead addr)) false false

/-- A PF0 write of a register of a leaf's window, named by its leaf and offset. -/
def State.regWrite (i : LeafId) (a w : Nat) (s : State) : State := s.pf0Write (leafBase i + a) w

end Sys2Proof.Machine
end

