-- ==== Sys2Proof/Machine/Operands.lean ====
section
/-!
DEFINITION. The operand forms of commands: a register write with a field that the command's name fixes, an event of a leaf at a local
count, an index that must name something; and how a command ends.
-/
namespace Sys2Proof.Machine

/-- A command ends in a next state, with everything that follows at once (State.settle). -/
def State.done (s : State) : Host.Outcome State Fault Refusal := .next s.settle

/-- The word of a register write, with the field that the command's name calls for given its value. -/
def wordWith (w : Word) (f : FieldRef) (v : Nat) : Nat := setBits w.toNat f.hi f.lo v

/-- A command that is a PF0 write of a leaf register with one field fixed. -/
def State.fieldWrite (i : LeafId) (f : FieldRef) (v : Nat) (w : Word) (s : State) : State := s.regWrite i f.addr (wordWith w f v)

/-- A command that is a PF0 write of a hinge register with one field fixed. -/
def State.hingeField (f : FieldRef) (v : Nat) (w : Word) (s : State) : State := s.pf0Write f.addr (wordWith w f v)

/-- A command whose operand names one of `n` things; with any other operand it names nothing and does nothing. -/
def State.indexed (n x : Nat) (f : State → State) (s : State) : State := if x < n then f s else s

/-- The leaf has booted, and is not in reset. -/
def Leaf.booted (l : Leaf) : Bool := !l.boot.held && l.flt.firstIdle

/-- The leaf's blocks run: booted, and in S0 (Table 17.5). -/
def Leaf.runs (l : Leaf) : Bool := l.booted && l.sleep == 0

/-- The time unit and the switch run: booted, and in S0 or S1 (Table 17.5). -/
def Leaf.timed (l : Leaf) : Bool := l.booted && decide (l.sleep ≤ 1)

/-- An event of a leaf at local count `c`: the count is brought up to it, and the event acts on a leaf of which `ok` holds. -/
def State.event (i : LeafId) (c : Nat) (ok : Leaf → Bool) (f : Leaf → Leaf) (s : State) : State :=
  s.onLeaf i fun l => let l1 := l.adv c; if ok l1 then f l1 else l1

/-- An event of a leaf that carries no count of its own. -/
def State.eventNow (i : LeafId) (ok : Leaf → Bool) (f : Leaf → Leaf) (s : State) : State :=
  s.onLeaf i fun l => if ok l then f l else l

end Sys2Proof.Machine
end

