-- ==== Sys2Proof/Machine/ExecDevice.lean ====
section
/-!
DEFINITION. The meanings of the commands of resets, booting, the agreement checker, the barrier and plain register access.
-/
namespace Sys2Proof.Machine

/-- POWER_ON (R509). -/
def execPowerOn (s : State) : Host.Outcome State Fault Refusal := s.powerOn.done

/-- A cause of a hinge reset: ignored while the hinge reset is in force, as R23 says of a leaf. DEDUCED. -/
def State.hingeCause (c : Nat) (s : State) : State := if s.hinge.held then s else s.hingeReset c

/-- RESET_N_LOW (R556, R19). -/
def execResetNLow (s : State) : Host.Outcome State Fault Refusal := (s.hingeCause 1).done

/-- RESET_N_RELEASE (R556, R513). -/
def execResetNRelease (s : State) : Host.Outcome State Fault Refusal := s.hingeRelease.done

/-- RAIL_UNDERVOLTAGE (R549, R512): a VDD_CORE rail resets its leaf with cause 0x4 and is the RESET fault UNDERVOLT; any other rail
causes a hinge reset. DEDUCED: HINGE_RST_STAT shows cause 2 for each of them. -/
def execRailUndervoltage (rail : Rail) (s : State) : Host.Outcome State Fault Refusal :=
  match rail with
  | .vddCore i => (s.resetLeaf i 4 (some (0x0E, 0x05))).done
  | .vddIo18 | .vddSram | .vddqDram | .vccFlash | .vccqFlash | .vddPhy => (s.hingeCause 2).done

/-- RST_A (R23): HINGE_LEAF_CTRL written with RST_A set. -/
def execRstA (w : Word) (s : State) : Host.Outcome State Fault Refusal := (s.hingeField Fld.HINGE_LEAF_CTRL_RST_A 1 w).done

/-- RST_B (R23): HINGE_LEAF_CTRL written with RST_B set. -/
def execRstB (w : Word) (s : State) : Host.Outcome State Fault Refusal := (s.hingeField Fld.HINGE_LEAF_CTRL_RST_B 1 w).done

/-- LOCKSTEP (R19, Table 21.2): while the leaf controller runs, cause 0x2 and fault 0x03. -/
def execLockstep (l : LeafId) (s : State) : Host.Outcome State Fault Refusal :=
  (if (s.leaf l).sleep = 0 then s.resetLeaf l 2 (some (0x03, 0x00)) else s).done

/-- WATCHDOG (R529): servicing lapses in S0; cause 0x3 and fault 0x04. -/
def execWatchdog (l : LeafId) (c : Nat) (s : State) : Host.Outcome State Fault Refusal :=
  let s1 := s.onLeaf l fun x => x.adv c
  (if (s1.leaf l).sleep = 0 then s1.resetLeaf l 3 (some (0x04, 0x00)) else s1).done

/-- PERST_N_ASSERT (R489). -/
def execPerstNAssert (s : State) : Host.Outcome State Fault Refusal := (s.onHinge Hinge.perstAssert).done

/-- PERST_N_RELEASE (R505). -/
def execPerstNRelease (s : State) : Host.Outcome State Fault Refusal := (s.onHinge Hinge.perstRelease).done

/-- FLR (R489). -/
def execFlr (fn : Nat) (s : State) : Host.Outcome State Fault Refusal := (s.onHinge (Hinge.flr fn)).done

/-- PCIE_CONFIG_WRITE (R505). -/
def execPcieConfigWrite (fn : Nat) (op : PcieCfg) (s : State) : Host.Outcome State Fault Refusal :=
  (s.onHinge (Hinge.configWrite fn op)).done

/-- LINK_STATE_CHANGE (R504). -/
def execLinkStateChange (speed width lstate : Nat) (s : State) : Host.Outcome State Fault Refusal :=
  (s.onHinge (Hinge.linkChange speed width lstate)).done

/-- HINGE_MODE_WRITE (R24). -/
def execHingeModeWrite (w : Word) (s : State) : Host.Outcome State Fault Refusal := (s.pf0Write Reg.HINGE_MODE w.toNat).done

/-- STAMP_TO_HINGE (R29). -/
def execStampToHinge (l : LeafId) (s : State) : Host.Outcome State Fault Refusal := (s.stampToHinge l).done

/-- STAMP_UNPAIRED (R30). -/
def execStampUnpaired (l : LeafId) (src seq : Nat) (s : State) : Host.Outcome State Fault Refusal := (s.stampUnpaired l src seq).done

/-- DIGEST_TO_HINGE (R34). -/
def execDigestToHinge (l : LeafId) (s : State) : Host.Outcome State Fault Refusal := (s.digestToHinge l).done

/-- DIGEST_MISSING (R34). -/
def execDigestMissing (l : LeafId) (tick : Nat) (id : Option Nat) (s : State) : Host.Outcome State Fault Refusal :=
  (s.digestMissing l tick id).done

/-- REARM (R36): HINGE_AGREE_CTRL written with REARM set. -/
def execRearm (w : Word) (s : State) : Host.Outcome State Fault Refusal := (s.hingeField Fld.HINGE_AGREE_CTRL_REARM 1 w).done

/-- AGREE_FAULT_CLEAR (R39): HINGE_AGREE_STAT written with FAULT set. -/
def execAgreeFaultClear (w : Word) (s : State) : Host.Outcome State Fault Refusal := (s.hingeField Fld.HINGE_AGREE_STAT_FAULT 1 w).done

/-- REGISTER_WRITE (R10): a PF0 write of an aligned word. -/
def execRegisterWrite (addr : Nat) (w : Word) (s : State) : Host.Outcome State Fault Refusal := (s.pf0Write addr w.toNat).done

/-- REGISTER_READ (R476): a PF0 read of an aligned word. -/
def execRegisterRead (addr : Nat) (s : State) : Host.Outcome State Fault Refusal := (s.pf0Read addr).done

/-- FIRE (R439): HINGE_BAR_CTRL written with FIRE set. -/
def execBarFire (w : Word) (s : State) : Host.Outcome State Fault Refusal := (s.hingeField Fld.HINGE_BAR_CTRL_FIRE 1 w).done

/-- BARRIER_CANCEL (R440): HINGE_BAR_CTRL written with CANCEL set. -/
def execBarrierCancel (w : Word) (s : State) : Host.Outcome State Fault Refusal := (s.hingeField Fld.HINGE_BAR_CTRL_CANCEL 1 w).done

/-- BARRIER_OUT_PULSE (R439), at a local count of the leaf that times the pulse. -/
def execBarrierOutPulse (c : Nat) (s : State) : Host.Outcome State Fault Refusal :=
  ((s.onLeaf s.hinge.barrier.fireLeaf fun x => x.adv c).barPulse).done

/-- BARRIER_IN_EDGE (R438), at local counts of Leaf A and of Leaf B. While the hinge reset is in force nothing is counted. -/
def execBarrierInEdge (ca cb : Nat) (s : State) : Host.Outcome State Fault Refusal :=
  let s1 := (s.onLeaf .A fun x => x.adv ca).onLeaf .B fun x => x.adv cb
  (if s1.hinge.held then s1 else s1.barrierIn).done

/-- BOOT_PHASE_DONE (R513): a leaf that reaches IDLE makes its first evaluation of the operating point (R444). -/
def execBootPhaseDone (l : LeafId) (c us : Nat) (out : BootOutcome) (s : State) : Host.Outcome State Fault Refusal :=
  ((s.bootPhaseDone l c us out).eventNow l Leaf.booted Leaf.firstEval).done

/-- GO_A (R520): HINGE_HBOOT_CTRL written with GO_A set. -/
def execGoA (w : Word) (s : State) : Host.Outcome State Fault Refusal := (s.hingeField Fld.HINGE_HBOOT_CTRL_GO_A 1 w).done

/-- GO_B (R520): HINGE_HBOOT_CTRL written with GO_B set. -/
def execGoB (w : Word) (s : State) : Host.Outcome State Fault Refusal := (s.hingeField Fld.HINGE_HBOOT_CTRL_GO_B 1 w).done

/-- HOST_BOOT_FETCH_DONE (R520). -/
def execHostBootFetchDone (l : LeafId) (hostErr : Bool) (image : List Byte) (s : State) : Host.Outcome State Fault Refusal :=
  (s.hostBootDone l hostErr image).done

/-- FWU_GO (R521): LEAF_FWU_CTRL written with GO set. -/
def execFwuGo (l : LeafId) (w : Word) (s : State) : Host.Outcome State Fault Refusal := (s.fieldWrite l Fld.LEAF_FWU_CTRL_GO 1 w).done

/-- FWU_DONE (R524). -/
def execFwuDone (l : LeafId) (ok : Bool) (s : State) : Host.Outcome State Fault Refusal :=
  (s.eventNow l Leaf.runs (Leaf.fwuDone ok)).done

/-- VIOL_LOG_CLEAR (R506): HINGE_VIOL_STAT written with VALID set. -/
def execViolLogClear (w : Word) (s : State) : Host.Outcome State Fault Refusal := (s.hingeField Fld.HINGE_VIOL_STAT_VALID 1 w).done

/-- PULSE_END (R74, R103, R439): the pin returns to its inactive level. -/
def execPulseEnd (pin : Pin) (c : Nat) (s : State) : Host.Outcome State Fault Refusal :=
  match pin with
  | .gtrig i n => (s.event i c Leaf.timed fun x => if n < 16 then x.endTrigPulse n else x).done
  | .tickOut i => (s.event i c Leaf.timed Leaf.tickOutEnd).done
  | .barrierOut => ((s.onLeaf s.hinge.barrier.fireLeaf fun x => x.adv c).barPulseEnd).done

end Sys2Proof.Machine
end

