-- ==== Sys2Proof/Machine/ExecFabric.lean ====
section
/-!
DEFINITION. The meanings of the commands of the pane array, the token fabric and the memory tiers (R136 to R218, R334, R431, R539).
-/
namespace Sys2Proof.Machine

/-- What follows a firing: a source that the stage feeds gets its rows (R382), and the pane clocks follow. -/
def Leaf.fireAndFeed (ix : Nat) (emit : List (Nat × Nat)) (l : Leaf) : Leaf := ((l.stageFire ix emit).feedSources).showClk

/-- STAGE_FIRE (R162). -/
def execStageFire (l : LeafId) (stage : Nat) (emit : List (Nat × Nat)) (s : State) : Host.Outcome State Fault Refusal :=
  (s.eventNow l Leaf.runs (Leaf.fireAndFeed stage emit)).done

/-- TOKEN_ARRIVAL (R171). -/
def execTokenArrival (l : LeafId) (route : Nat) (crcBad : List Nat) (s : State) : Host.Outcome State Fault Refusal :=
  (s.eventNow l Leaf.runs (Leaf.tokenArrival route crcBad)).done

/-- CREDIT_RETURN (R168). -/
def execCreditReturn (l : LeafId) (route : Nat) (crcBad : List Nat) (s : State) : Host.Outcome State Fault Refusal :=
  (s.eventNow l Leaf.runs (Leaf.creditReturn route crcBad)).done

/-- BLIND_START (R334). -/
def execBlindStart (l : LeafId) (stage : Nat) (s : State) : Host.Outcome State Fault Refusal :=
  (s.eventNow l Leaf.runs (Leaf.blindStart stage)).done

/-- GRANULE_FETCH_DONE (R200). -/
def execGranuleFetchDone (l : LeafId) (obj granule : Nat) (reads : List ReadOutcome) (s : State) : Host.Outcome State Fault Refusal :=
  (s.eventNow l Leaf.runs (Leaf.fetchDone obj granule reads)).done

/-- FLASH_READ_DONE (R203). -/
def execFlashReadDone (l : LeafId) (addr : Nat) (read : ReadOutcome) (s : State) : Host.Outcome State Fault Refusal :=
  (s.eventNow l Leaf.runs (Leaf.flashReadDone addr read)).done

/-- DRAM_READ_DONE (R206). -/
def execDramReadDone (l : LeafId) (addr : Nat) (out : WordOutcome) (s : State) : Host.Outcome State Fault Refusal :=
  (s.eventNow l Leaf.runs (Leaf.dramOutcome 0x01 addr out)).done

/-- DRAM_SCRUB_PASS (R206): the scrub runs in S0 and, like the flash manager, in S1. -/
def execDramScrubPass (l : LeafId) (addr : Nat) (out : WordOutcome) (s : State) : Host.Outcome State Fault Refusal :=
  (s.eventNow l Leaf.timed (Leaf.scrub addr out)).done

/-- DRAM_REPAIR_DONE (R206). -/
def execDramRepairDone (l : LeafId) (obj : Nat) (read : ReadOutcome) (s : State) : Host.Outcome State Fault Refusal :=
  (s.eventNow l Leaf.runs (Leaf.repairDone obj read)).done

/-- REWRITE (R212): MEM_RW_CTRL written with REWRITE set. -/
def execRewrite (l : LeafId) (w : Word) (s : State) : Host.Outcome State Fault Refusal := (s.fieldWrite l Fld.MEM_RW_CTRL_REWRITE 1 w).done

/-- WRITEBACK (R213): MEM_RW_CTRL written with WRITEBACK set. -/
def execWriteback (l : LeafId) (w : Word) (s : State) : Host.Outcome State Fault Refusal :=
  (s.fieldWrite l Fld.MEM_RW_CTRL_WRITEBACK 1 w).done

/-- MEM_RW_DONE (R214). -/
def execMemRwDone (l : LeafId) (writes : List WriteOutcome) (s : State) : Host.Outcome State Fault Refusal :=
  (s.eventNow l Leaf.runs (Leaf.rwDone writes)).done

/-- FLASH_REFRESH (R215): in S0 and S1. -/
def execFlashRefresh (l : LeafId) (addr : Nat) (lost : Bool) (s : State) : Host.Outcome State Fault Refusal :=
  (s.eventNow l Leaf.timed (Leaf.flashRefresh addr lost)).done

/-- GO_RD (R431): LEAF_RNG_CIDX written with GO_RD set. -/
def execClutchRead (l : LeafId) (w : Word) (s : State) : Host.Outcome State Fault Refusal := (s.fieldWrite l Fld.LEAF_RNG_CIDX_GO_RD 1 w).done

/-- GO_WR (R431): LEAF_RNG_CIDX written with GO_WR set. -/
def execClutchWrite (l : LeafId) (w : Word) (s : State) : Host.Outcome State Fault Refusal := (s.fieldWrite l Fld.LEAF_RNG_CIDX_GO_WR 1 w).done

/-- LIFETIME_RECORD_WRITE (R539). -/
def execLifetimeRecordWrite (l : LeafId) (c : Nat) (s : State) : Host.Outcome State Fault Refusal :=
  (s.event l c Leaf.timed fun x => x.lifeTime.hourlyLife).done

end Sys2Proof.Machine
end

