-- ==== Sys2Proof/Machine/ExecHost.lean ====
section
/-!
DEFINITION. The meanings of the commands of the host interface and of the faults block (R487 to R540).
-/
namespace Sys2Proof.Machine

/-- SQ_DOORBELL (R499): a PF0 write of the submission tail doorbell of a pair. -/
def execSqDoorbell (l : LeafId) (q : Nat) (w : Word) (s : State) : Host.Outcome State Fault Refusal :=
  (s.indexed 64 q fun t => t.regWrite l (Reg.LEAF_Q_SQDB q) w.toNat).done

/-- CQ_DOORBELL (R498): a PF0 write of the completion head doorbell of a pair. -/
def execCqDoorbell (l : LeafId) (q : Nat) (w : Word) (s : State) : Host.Outcome State Fault Refusal :=
  (s.indexed 64 q fun t => t.regWrite l (Reg.LEAF_Q_CQDB q) w.toNat).done

/-- A command of a queue pair of a leaf that runs. -/
def State.queueCmd (l : LeafId) (q : Nat) (f : State → State) (s : State) : State :=
  if (s.leaf l).runs = true ∧ q < 64 then f s else s

/-- COMMAND_FETCH (R496). -/
def execCommandFetch (l : LeafId) (q : Nat) (entry : List Byte) (s : State) : Host.Outcome State Fault Refusal :=
  (s.queueCmd l q (State.commandFetch l q entry)).done

/-- NOP (R495). -/
def execNop (l : LeafId) (q tag : Nat) (s : State) : Host.Outcome State Fault Refusal := (s.queueCmd l q (State.cmdNop l q tag)).done

/-- SEARCH (R379). -/
def execSearch (l : LeafId) (q tag : Nat) (s : State) : Host.Outcome State Fault Refusal := (s.queueCmd l q (State.cmdSearch l q tag)).done

/-- COPY_IN (R495). -/
def execCopyIn (l : LeafId) (q tag : Nat) (s : State) : Host.Outcome State Fault Refusal := (s.queueCmd l q (State.cmdCopy l 2 q tag)).done

/-- COPY_OUT (R495). -/
def execCopyOut (l : LeafId) (q tag : Nat) (s : State) : Host.Outcome State Fault Refusal := (s.queueCmd l q (State.cmdCopy l 3 q tag)).done

/-- ABORT (R495). -/
def execAbort (l : LeafId) (q tag : Nat) (s : State) : Host.Outcome State Fault Refusal := (s.queueCmd l q (State.cmdAbort l q tag)).done

/-- COPY_DONE (R500). -/
def execCopyDone (l : LeafId) (q tag : Nat) (data : List Byte) (hostErr poison : Bool) (s : State) : Host.Outcome State Fault Refusal :=
  (s.queueCmd l q (State.copyDone l q tag data hostErr poison)).done

/-- QUEUE_ENABLE (R494): LEAF_Qq_CFG written with EN set. -/
def execQueueEnable (l : LeafId) (q : Nat) (w : Word) (s : State) : Host.Outcome State Fault Refusal :=
  (s.indexed 64 q fun t => t.fieldWrite l (Fld.LEAF_Q_CFG_EN q) 1 w).done

/-- QUEUE_DISABLE (R499): LEAF_Qq_CFG written with EN clear. -/
def execQueueDisable (l : LeafId) (q : Nat) (w : Word) (s : State) : Host.Outcome State Fault Refusal :=
  (s.indexed 64 q fun t => t.fieldWrite l (Fld.LEAF_Q_CFG_EN q) 0 w).done

/-- HOLD_DRAIN (R497). -/
def execHoldDrain (l : LeafId) (s : State) : Host.Outcome State Fault Refusal := (if (s.leaf l).runs then s.holdDrain l else s).done

/-- CQ_COALESCE_TIMEOUT (R503) of group g, at a local count of the group's leaf: groups 0 to 7 are Leaf A's. -/
def execCqCoalesceTimeout (g c : Nat) (s : State) : Host.Outcome State Fault Refusal :=
  (s.indexed 16 g fun t => (t.onLeaf (if g < 8 then .A else .B) fun x => x.adv c).groupTimeout g).done

/-- APERTURE_ACCESS (R491). -/
def execApertureAccess (o : Nat) (acc : HostAccess) (out : WordOutcome) (s : State) : Host.Outcome State Fault Refusal :=
  (s.aperture o acc out).done

/-- PF1_WINDOW_ACCESS (R493). -/
def execPf1WindowAccess (o : Nat) (acc : HostAccess) (s : State) : Host.Outcome State Fault Refusal := (s.pf1Access o acc).done

/-! ## Faults block -/

/-- CLEAR (R526): FLT_CTRL written with CLEAR set. -/
def execFaultClear (l : LeafId) (w : Word) (s : State) : Host.Outcome State Fault Refusal := (s.fieldWrite l Fld.FLT_CTRL_CLEAR 1 w).done

/-- CLOCK (R552). -/
def execClockFault (l : LeafId) (c : Nat) (s : State) : Host.Outcome State Fault Refusal := (s.event l c Leaf.monitors Leaf.clockFault).done

/-- CFG_PARITY_SCAN (R530): `block` is the code of a block in which the scan finds an error. -/
def execCfgParityScan (l : LeafId) (c : Nat) (block : Option Nat) (s : State) : Host.Outcome State Fault Refusal :=
  (s.event l c Leaf.monitors (Leaf.parityScan block)).done

/-- DRAM_CHAN (R527). -/
def execDramChan (l : LeafId) (chan c : Nat) (s : State) : Host.Outcome State Fault Refusal :=
  (s.event l c Leaf.monitors (Leaf.dramChan chan)).done

/-- HINGE_HEARTBEAT (R531). -/
def execHingeHeartbeat (l : LeafId) (c : Nat) (s : State) : Host.Outcome State Fault Refusal :=
  (s.event l c Leaf.monitors Leaf.heartbeat).done

/-- HINGE_LOST (R531). -/
def execHingeLost (l : LeafId) (c : Nat) (s : State) : Host.Outcome State Fault Refusal := (s.event l c Leaf.monitors Leaf.lostHinge).done

/-- FLT_INJ_KEY_WRITE (R537): a write of FLT_INJ_KEY. -/
def execFltInjKeyWrite (l : LeafId) (w : Word) (s : State) : Host.Outcome State Fault Refusal := (s.regWrite l Reg.FLT_INJ_KEY w.toNat).done

/-- An injection: FLT_INJ written with GO set and a KIND (R537). -/
def State.injectCmd (l : LeafId) (kind : Nat) (w : Word) (s : State) : State :=
  s.regWrite l Reg.FLT_INJ (setBits (wordWith w Fld.FLT_INJ_GO 1) 27 24 kind)

/-- INJECT_CREDIT_SUM (R537): KIND 1. -/
def execInjectCreditSum (l : LeafId) (w : Word) (s : State) : Host.Outcome State Fault Refusal := (s.injectCmd l 1 w).done

/-- INJECT_SRAM_ERROR (R537): KIND 2. -/
def execInjectSramError (l : LeafId) (w : Word) (s : State) : Host.Outcome State Fault Refusal := (s.injectCmd l 2 w).done

/-- INJECT_DIGEST_BIT (R537): KIND 3. -/
def execInjectDigestBit (l : LeafId) (w : Word) (s : State) : Host.Outcome State Fault Refusal := (s.injectCmd l 3 w).done

/-- INJECT_LINK_CRC (R537): KIND 4. -/
def execInjectLinkCrc (l : LeafId) (w : Word) (s : State) : Host.Outcome State Fault Refusal := (s.injectCmd l 4 w).done

/-- INJECT_CFG_PARITY (R537): KIND 5. -/
def execInjectCfgParity (l : LeafId) (w : Word) (s : State) : Host.Outcome State Fault Refusal := (s.injectCmd l 5 w).done

end Sys2Proof.Machine
end

