-- ==== Sys2Proof/Machine/ExecPower.lean ====
section
/-!
DEFINITION. The meanings of the commands of the power manager, the interrupt controller and the counters (R443 to R486).
-/
namespace Sys2Proof.Machine

/-- OP_EVALUATION (R444). -/
def execOpEvaluation (l : LeafId) (c : Nat) (s : State) : Host.Outcome State Fault Refusal := (s.event l c Leaf.runs Leaf.opEvaluation).done

/-- RAIL_SETTLED (R445). -/
def execRailSettled (l : LeafId) (s : State) : Host.Outcome State Fault Refusal := (s.eventNow l Leaf.runs Leaf.railSettled).done

/-- VRAIL (R445). -/
def execVrail (l : LeafId) (c : Nat) (s : State) : Host.Outcome State Fault Refusal := (s.event l c Leaf.runs Leaf.vrail).done

/-- PEAK_EVALUATION (R453). -/
def execPeakEvaluation (l : LeafId) (c : Nat) (s : State) : Host.Outcome State Fault Refusal :=
  (s.event l c Leaf.runs Leaf.peakEvaluation).done

/-- TEMP_SAMPLE (R455). -/
def execTempSample (l : LeafId) (c : Nat) (temps : List Nat) (s : State) : Host.Outcome State Fault Refusal :=
  (s.event l c Leaf.runs (Leaf.tempSample temps)).done

/-- TRIP_CLEAR (R457): PWR_TRIP written with CLEAR set. -/
def execTripClear (l : LeafId) (w : Word) (s : State) : Host.Outcome State Fault Refusal := (s.fieldWrite l Fld.PWR_TRIP_CLEAR 1 w).done

/-- COOLANT_WRITE (R458): a write of PWR_COOL_BUDGET or of PWR_COOL_IN. -/
def execCoolantWrite (l : LeafId) (budget : Bool) (w : Word) (s : State) : Host.Outcome State Fault Refusal :=
  (s.regWrite l (if budget then Reg.PWR_COOL_BUDGET else Reg.PWR_COOL_IN) w.toNat).done

/-- COOL_STALE (R458). -/
def execCoolStale (l : LeafId) (c : Nat) (s : State) : Host.Outcome State Fault Refusal := (s.event l c Leaf.runs Leaf.coolStale).done

/-- REGION_SKEW (R460). -/
def execRegionSkew (l : LeafId) (c : Nat) (s : State) : Host.Outcome State Fault Refusal := (s.event l c Leaf.runs Leaf.regionSkew).done

/-- VOLTAGE_CHECK (R460). -/
def execVoltageCheck (l : LeafId) (c coreMv sramMv : Nat) (s : State) : Host.Outcome State Fault Refusal :=
  (s.event l c Leaf.runs (Leaf.voltageCheck coreMv sramMv)).done

/-- SLEEP_REQ (R464): PWR_SLEEP_CTRL written with REQ set. -/
def execSleepReq (l : LeafId) (w : Word) (s : State) : Host.Outcome State Fault Refusal := (s.fieldWrite l Fld.PWR_SLEEP_CTRL_REQ 1 w).done

/-- SLEEP_ENTRY_DONE (R467). -/
def execSleepEntryDone (l : LeafId) (c : Nat) (s : State) : Host.Outcome State Fault Refusal :=
  (s.event l c Leaf.runs Leaf.sleepEntryDone).done

/-- WAKE (R466): PWR_SLEEP_CTRL written with WAKE set. -/
def execWake (l : LeafId) (w : Word) (s : State) : Host.Outcome State Fault Refusal := (s.fieldWrite l Fld.PWR_SLEEP_CTRL_WAKE 1 w).done

/-- WAKE_ALARM (R466). -/
def execWakeAlarm (l : LeafId) (c : Nat) (s : State) : Host.Outcome State Fault Refusal := (s.event l c Leaf.booted Leaf.wakeAlarm).done

/-- WAKE_EVENT_TIMER (R465). -/
def execWakeEventTimer (l : LeafId) (c : Nat) (s : State) : Host.Outcome State Fault Refusal := (s.event l c Leaf.booted Leaf.wakeEvent).done

/-- CAN_BUS_WAKE (R466). -/
def execCanBusWake (l : LeafId) (ctrl c : Nat) (s : State) : Host.Outcome State Fault Refusal :=
  (s.event l c Leaf.booted (Leaf.canWake ctrl)).done

/-- WKUP_EDGE (R479): the latches work in every state, also while the leaf is in reset. -/
def execWkupEdge (l : LeafId) (n : Nat) (falling : Bool) (c : Nat) (s : State) : Host.Outcome State Fault Refusal :=
  (s.event l c (fun _ => true) (Leaf.wkupEdge n falling)).done

/-- WAKE_COMPLETE (R463). -/
def execWakeComplete (l : LeafId) (c : Nat) (s : State) : Host.Outcome State Fault Refusal := (s.event l c Leaf.booted Leaf.wakeComplete).done

/-! ## Interrupt controller and counters -/

/-- IRQ_EOI (R475): a write of IRQ_EOI. -/
def execIrqEoi (l : LeafId) (w : Word) (s : State) : Host.Outcome State Fault Refusal := (s.regWrite l Reg.IRQ_EOI w.toNat).done

/-- IRQ_PEND_WRITE (R476): a write of IRQ_PENDn. -/
def execIrqPendWrite (l : LeafId) (n : Nat) (w : Word) (s : State) : Host.Outcome State Fault Refusal :=
  (s.indexed 16 n fun t => t.regWrite l (Reg.IRQ_PEND n) w.toNat).done

/-- IRQ_MASK_WRITE (R474): a write of IRQ_MASKn. -/
def execIrqMaskWrite (l : LeafId) (n : Nat) (w : Word) (s : State) : Host.Outcome State Fault Refusal :=
  (s.indexed 16 n fun t => t.regWrite l (Reg.IRQ_MASK n) w.toNat).done

/-- IRQ_TGT_WRITE (R472): a write of IRQ_TGTs. -/
def execIrqTgtWrite (l : LeafId) (src : Nat) (w : Word) (s : State) : Host.Outcome State Fault Refusal :=
  (s.indexed 512 src fun t => t.regWrite l (Reg.IRQ_TGT src) w.toNat).done

/-- IRQ_COALESCE_TIMEOUT (R474): by count c the first event counted for a vector may be TIME_US old; its message then goes out
(State.settle sends every message that is due). -/
def execIrqCoalesceTimeout (l : LeafId) (v c : Nat) (s : State) : Host.Outcome State Fault Refusal :=
  (s.indexed 64 v fun t => t.event l c (fun x => x.vecAged v) Leaf.pump).done

/-- SNAP (R483): CNT_CTRL written with SNAP set. -/
def execSnap (l : LeafId) (w : Word) (s : State) : Host.Outcome State Fault Refusal := (s.fieldWrite l Fld.CNT_CTRL_SNAP 1 w).done

/-- SNAPSHOT_DONE (R483): BUSY clears. -/
def execSnapshotDone (l : LeafId) (c : Nat) (s : State) : Host.Outcome State Fault Refusal :=
  (s.event l c Leaf.runs fun x => x.putB Fld.CNT_STAT_BUSY false).done

end Sys2Proof.Machine
end

