-- ==== Sys2Proof/Machine/ExecSearch.lean ====
section
/-!
DEFINITION. The meanings of the commands of the Mullion engines and of the solver (R365 to R424).
-/
namespace Sys2Proof.Machine

/-- QUERY_ADMIT (R388). -/
def execQueryAdmit (l : LeafId) (ctx : Nat) (s : State) : Host.Outcome State Fault Refusal :=
  (s.eventNow l Leaf.runs (Leaf.queryAdmit ctx)).done

/-- WALK_READ_DONE (R372). -/
def execWalkReadDone (l : LeafId) (ctx : Nat) (read : ReadOutcome) (s : State) : Host.Outcome State Fault Refusal :=
  (s.eventNow l Leaf.runs (Leaf.walkRead ctx read)).done

/-- QUERY_COMPLETE (R373). -/
def execQueryComplete (l : LeafId) (ctx : Nat) (s : State) : Host.Outcome State Fault Refusal :=
  (s.eventNow l Leaf.runs (Leaf.queryComplete ctx)).done

/-- QUERY_DEADLINE (R380). -/
def execQueryDeadline (l : LeafId) (ctx c : Nat) (s : State) : Host.Outcome State Fault Refusal :=
  (s.event l c Leaf.runs (Leaf.queryDeadline ctx)).done

/-- A side-list command: SRCH_SIDE_CMD written with GO set and an OP. -/
def State.sideCmd (l : LeafId) (op : Nat) (w : Word) (s : State) : State :=
  s.regWrite l Reg.SRCH_SIDE_CMD (setBits (wordWith w Fld.SRCH_SIDE_CMD_GO 1) 30 29 op)

/-- SIDE_INSERT (R384). -/
def execSideInsert (l : LeafId) (w : Word) (s : State) : Host.Outcome State Fault Refusal := (s.sideCmd l 1 w).done

/-- SIDE_DELETE (R384). -/
def execSideDelete (l : LeafId) (w : Word) (s : State) : Host.Outcome State Fault Refusal := (s.sideCmd l 2 w).done

/-- SIDE_CMD_DONE (R384). -/
def execSideCmdDone (l : LeafId) (s : State) : Host.Outcome State Fault Refusal := (s.eventNow l Leaf.runs Leaf.sideDone).done

/-- MERGE_GO (R386): SRCH_MRG_CTRL written with GO set. -/
def execMergeGo (l : LeafId) (w : Word) (s : State) : Host.Outcome State Fault Refusal := (s.fieldWrite l Fld.SRCH_MRG_CTRL_GO 1 w).done

/-- MERGE_ABORT (R387): SRCH_MRG_CTRL written with ABORT set. -/
def execMergeAbort (l : LeafId) (w : Word) (s : State) : Host.Outcome State Fault Refusal := (s.fieldWrite l Fld.SRCH_MRG_CTRL_ABORT 1 w).done

/-- MERGE_DONE (R386). -/
def execMergeDone (l : LeafId) (readable : Bool) (s : State) : Host.Outcome State Fault Refusal :=
  (s.eventNow l Leaf.runs (Leaf.mergeDone readable)).done

/-- SWAP (R387): SRCH_IDXx_CTRL written with SWAP set. -/
def execSwap (l : LeafId) (x : Nat) (w : Word) (s : State) : Host.Outcome State Fault Refusal :=
  (s.indexed 4 x fun t => t.fieldWrite l (Fld.SRCH_IDX_CTRL_SWAP x) 1 w).done

/-- SRCH_FW_GO (R391): SRCH_FW_CTRL written with GO set. -/
def execSrchFwGo (l : LeafId) (w : Word) (s : State) : Host.Outcome State Fault Refusal := (s.fieldWrite l Fld.SRCH_FW_CTRL_GO 1 w).done

/-- SRCH_FW_DONE (R391). -/
def execSrchFwDone (l : LeafId) (writes : List WriteOutcome) (s : State) : Host.Outcome State Fault Refusal :=
  (s.eventNow l Leaf.runs (Leaf.fwDone writes)).done

/-- ATTACH (R392): SRCH_IDXx_CTRL written with ATTACH set. -/
def execAttach (l : LeafId) (x : Nat) (w : Word) (s : State) : Host.Outcome State Fault Refusal :=
  (s.indexed 4 x fun t => t.fieldWrite l (Fld.SRCH_IDX_CTRL_ATTACH x) 1 w).done

/-- ATTACH_DONE (R392). -/
def execAttachDone (l : LeafId) (x : Nat) (read : ReadOutcome) (s : State) : Host.Outcome State Fault Refusal :=
  (s.indexed 4 x fun t => t.eventNow l Leaf.runs (Leaf.attachDone x read)).done

/-- DETACH (R392): SRCH_IDXx_CTRL written with DETACH set. -/
def execDetach (l : LeafId) (x : Nat) (w : Word) (s : State) : Host.Outcome State Fault Refusal :=
  (s.indexed 4 x fun t => t.fieldWrite l (Fld.SRCH_IDX_CTRL_DETACH x) 1 w).done

/-! ## Solver -/

/-- SOLVER_JOB_START (R401). -/
def execSolverJobStart (l : LeafId) (job : Nat) (s : State) : Host.Outcome State Fault Refusal :=
  (s.eventNow l Leaf.runs (Leaf.solvStart job)).done

/-- SOLVER_JOB_COMPLETE (R405). -/
def execSolverJobComplete (l : LeafId) (job : Nat) (ue : Bool) (s : State) : Host.Outcome State Fault Refusal :=
  (s.eventNow l Leaf.runs (Leaf.solvComplete job ue)).done

/-- GRAPH_REQ (R415): SOLV_CTRL written with GRAPH_REQ set. -/
def execGraphReq (l : LeafId) (w : Word) (s : State) : Host.Outcome State Fault Refusal := (s.fieldWrite l Fld.SOLV_CTRL_GRAPH_REQ 1 w).done

/-- ASSIGN_START (R420). -/
def execAssignStart (l : LeafId) (s : State) : Host.Outcome State Fault Refusal := (s.eventNow l Leaf.runs Leaf.asgStart).done

/-- ASSIGN_COMPLETE (R419). -/
def execAssignComplete (l : LeafId) (s : State) : Host.Outcome State Fault Refusal := (s.eventNow l Leaf.runs Leaf.asgComplete).done

/-- SOLVER_RESET (R422): SOLV_CTRL written with RESET set. -/
def execSolverReset (l : LeafId) (w : Word) (s : State) : Host.Outcome State Fault Refusal := (s.fieldWrite l Fld.SOLV_CTRL_RESET 1 w).done

/-- SOLVER_RESET_DONE (R422). -/
def execSolverResetDone (l : LeafId) (s : State) : Host.Outcome State Fault Refusal := (s.eventNow l Leaf.runs Leaf.solvResetDone).done

end Sys2Proof.Machine
end

