-- ==== Sys2Proof/Machine/ExecSensors.lean ====
section
/-!
DEFINITION. The meanings of the commands of sensor ingress, the filter chain and ego-motion (R219 to R268).
-/
namespace Sys2Proof.Machine

/-- The registers of a source exist (Table 8.1). -/
def sourceNamed (src : Nat) (f : State → State) (s : State) : State := if src < 128 ∧ srcExists src = true then f s else s

/-- SOURCE_ENABLE (R225): SNS_SRCs_CFG written with ENABLE set. -/
def execSourceEnable (l : LeafId) (src : Nat) (w : Word) (s : State) : Host.Outcome State Fault Refusal :=
  (sourceNamed src (fun t => t.fieldWrite l (Fld.SNS_SRC_CFG_ENABLE src) 1 w) s).done

/-- SOURCE_DISABLE (R225): SNS_SRCs_CFG written with ENABLE clear. -/
def execSourceDisable (l : LeafId) (src : Nat) (w : Word) (s : State) : Host.Outcome State Fault Refusal :=
  (sourceNamed src (fun t => t.fieldWrite l (Fld.SNS_SRC_CFG_ENABLE src) 0 w) s).done

/-- SOURCE_LINK_LOST (R225). -/
def execSourceLinkLost (l : LeafId) (src c : Nat) (s : State) : Host.Outcome State Fault Refusal :=
  (sourceNamed src (fun t => t.event l c Leaf.runs (Leaf.linkLost src)) s).done

/-- SOURCE_ITEM_TIMEOUT (R225). -/
def execSourceItemTimeout (l : LeafId) (src c : Nat) (s : State) : Host.Outcome State Fault Refusal :=
  (sourceNamed src (fun t => t.event l c Leaf.runs (Leaf.itemTimeout src)) s).done

/-- CAMERA_PACKET (R231): from a receiver that has lock. -/
def execCameraPacket (l : LeafId) (cam c8 : Nat) (p : CsiPacket) (s : State) : Host.Outcome State Fault Refusal :=
  (s.indexed 6 cam fun t =>
    t.event l (c8 / 8) (fun x => x.runs && x.bit (Fld.SNS_CAM_STAT_LOCK cam)) (Leaf.camPacket t.hinge.active cam c8 p)).done

/-- CAMERA_FRAME_DUE (R232). -/
def execCameraFrameDue (l : LeafId) (cam c : Nat) (s : State) : Host.Outcome State Fault Refusal :=
  (s.indexed 6 cam fun t => t.event l c Leaf.runs (Leaf.camDue cam)).done

/-- EXPOSURE_TRIGGER (R234). -/
def execExposureTrigger (l : LeafId) (cam c : Nat) (s : State) : Host.Outcome State Fault Refusal :=
  (s.indexed 6 cam fun t => t.event l c Leaf.runs (Leaf.exposure cam)).done

/-- I2C_GO (R230): SNS_CAMn_I2C written with GO set. -/
def execI2cGo (l : LeafId) (cam : Nat) (w : Word) (s : State) : Host.Outcome State Fault Refusal :=
  (s.indexed 6 cam fun t => t.fieldWrite l (Fld.SNS_CAM_I2C_GO cam) 1 w).done

/-- I2C_DONE (R230). -/
def execI2cDone (l : LeafId) (cam : Nat) (nack : Bool) (data : Nat) (s : State) : Host.Outcome State Fault Refusal :=
  (s.indexed 6 cam fun t => t.eventNow l Leaf.runs (Leaf.i2cDone cam nack data)).done

/-- LIDAR_DATAGRAM (R235). -/
def execLidarDatagram (l : LeafId) (s : State) : Host.Outcome State Fault Refusal :=
  (s.eventNow l Leaf.runs (Leaf.lidarDatagram s.hinge.active)).done

/-- IMU_DATA_READY (R238). -/
def execImuDataReady (l : LeafId) (port c8 : Nat) (s : State) : Host.Outcome State Fault Refusal :=
  (s.indexed 2 port fun t => t.event l (c8 / 8) Leaf.runs (Leaf.dataReady port c8)).done

/-- SPI_TRANSACTION_DONE (R238). -/
def execSpiTransactionDone (l : LeafId) (port : Nat) (miso : List Byte) (s : State) : Host.Outcome State Fault Refusal :=
  (s.indexed 2 port fun t => t.eventNow l Leaf.runs (Leaf.spiDone t.hinge.active port miso)).done

/-- CAN_FRAME_RECEIVED (R241). -/
def execCanFrameReceived (l : LeafId) (ctrl c8 : Nat) (f : CanFrame) (s : State) : Host.Outcome State Fault Refusal :=
  (s.indexed 2 ctrl fun t => t.event l (c8 / 8) Leaf.runs (Leaf.canFrame t.hinge.active ctrl c8 f)).done

/-- CAN_BUS_RECOVERY (R240). -/
def execCanBusRecovery (l : LeafId) (ctrl c : Nat) (s : State) : Host.Outcome State Fault Refusal :=
  (s.indexed 2 ctrl fun t => t.event l c Leaf.runs (Leaf.canRecover ctrl)).done

/-- UART_MESSAGE (R242). -/
def execUartMessage (l : LeafId) (c8 : Nat) (msg : List Byte) (ok : Bool) (s : State) : Host.Outcome State Fault Refusal :=
  (s.event l (c8 / 8) Leaf.runs (Leaf.uartMessage s.hinge.active c8 msg ok)).done

/-- UART_TX (R242): a write of SNS_UART_TX. -/
def execUartTx (l : LeafId) (w : Word) (s : State) : Host.Outcome State Fault Refusal := (s.regWrite l Reg.SNS_UART_TX w.toNat).done

/-- UART_BYTE_SENT (R242). -/
def execUartByteSent (l : LeafId) (c : Nat) (s : State) : Host.Outcome State Fault Refusal := (s.event l c Leaf.runs Leaf.uartSent).done

/-- FILT_CHANNEL_ENABLE (R253): FILT_CHc_CFG written with ENABLE set. -/
def execFiltChannelEnable (l : LeafId) (ch : Nat) (w : Word) (s : State) : Host.Outcome State Fault Refusal :=
  (s.indexed 32 ch fun t => t.fieldWrite l (Fld.FILT_CH_CFG_ENABLE ch) 1 w).done

/-- FILT_SYNC_EDGE (R255, R29): an active edge of a pulse of at least 100 ns. -/
def execFiltSyncEdge (l : LeafId) (c8 : Nat) (s : State) : Host.Outcome State Fault Refusal :=
  (s.event l (c8 / 8) Leaf.runs (Leaf.filtSyncEdge s.hinge.active c8)).done

/-- FILT_SYNC_TICK_RESET (R255). -/
def execFiltSyncTickReset (l : LeafId) (c : Nat) (s : State) : Host.Outcome State Fault Refusal := (s.event l c Leaf.runs Leaf.syncTick).done

/-- FILT_SYNC_ARM (R255): FILT_SYNC_CTRL written with ARM set. -/
def execFiltSyncArm (l : LeafId) (w : Word) (s : State) : Host.Outcome State Fault Refusal := (s.fieldWrite l Fld.FILT_SYNC_CTRL_ARM 1 w).done

/-- FILT_SYNC_CANCEL (R255): FILT_SYNC_CTRL written with CANCEL set. -/
def execFiltSyncCancel (l : LeafId) (w : Word) (s : State) : Host.Outcome State Fault Refusal :=
  (s.fieldWrite l Fld.FILT_SYNC_CTRL_CANCEL 1 w).done

/-- EGO_PROPAGATION (R260, R329). -/
def execEgoPropagation (l : LeafId) (c : Nat) (s : State) : Host.Outcome State Fault Refusal := (s.event l c Leaf.runs Leaf.propagate).done

/-- EGO_RESET (R266): EGO_CTRL written with RESET set. -/
def execEgoReset (l : LeafId) (w : Word) (s : State) : Host.Outcome State Fault Refusal := (s.fieldWrite l Fld.EGO_CTRL_RESET 1 w).done

end Sys2Proof.Machine
end

