-- ==== Sys2Proof/Machine/ExecTick.lean ====
section
/-!
DEFINITION. The meanings of the commands of the tick and of glazing (R82 to R135).
-/
namespace Sys2Proof.Machine

/-- START (R86): TICK_CTRL written with START set. -/
def execStart (l : LeafId) (w : Word) (s : State) : Host.Outcome State Fault Refusal := (s.fieldWrite l Fld.TICK_CTRL_START 1 w).done

/-- HALT (R90): TICK_CTRL written with HALT set. -/
def execHalt (l : LeafId) (w : Word) (s : State) : Host.Outcome State Fault Refusal := (s.fieldWrite l Fld.TICK_CTRL_HALT 1 w).done

/-- A boundary of a leaf that runs, at local count c; `late` says that its boundary phase runs past 240,000 ns. -/
def State.boundaryAt (l : LeafId) (c : Nat) (late : Bool) (s : State) : State :=
  let s1 := s.onLeaf l fun x => x.adv c
  if (s1.leaf l).runs then s1.tickBoundary l late else s1

/-- TICK_BOUNDARY (R96). -/
def execTickBoundary (l : LeafId) (c : Nat) (s : State) : Host.Outcome State Fault Refusal := (s.boundaryAt l c false).done

/-- BOUND_LATE (R97): a boundary that runs late. -/
def execBoundLate (l : LeafId) (c : Nat) (s : State) : Host.Outcome State Fault Refusal := (s.boundaryAt l c true).done

/-- SUB_TICK_BOUNDARY (R83). -/
def execSubTickBoundary (l : LeafId) (c : Nat) (s : State) : Host.Outcome State Fault Refusal :=
  (s.event l c Leaf.runs Leaf.subTick).done

/-- LOAD (R126): LEAF_GLZ_CMD written with LOAD set. -/
def execLoad (l : LeafId) (w : Word) (s : State) : Host.Outcome State Fault Refusal := (s.fieldWrite l Fld.LEAF_GLZ_CMD_LOAD 1 w).done

/-- GLAZE_CHECKS_DONE (R128): the clock state of the panes follows. -/
def execGlazeChecksDone (l : LeafId) (reads : List ReadOutcome) (s : State) : Host.Outcome State Fault Refusal :=
  (s.eventNow l Leaf.runs fun x => (x.glazeChecksDone reads).showClk).done

/-- UPDATE (R130): LEAF_GLZ_CMD written with UPDATE set. -/
def execUpdate (l : LeafId) (w : Word) (s : State) : Host.Outcome State Fault Refusal := (s.fieldWrite l Fld.LEAF_GLZ_CMD_UPDATE 1 w).done

/-- UPDATE_VERIFIED (R132). -/
def execUpdateVerified (l : LeafId) (s : State) : Host.Outcome State Fault Refusal := (s.eventNow l Leaf.runs Leaf.updateVerified).done

/-- CANCEL (R132): LEAF_GLZ_CMD written with CANCEL set. -/
def execCancel (l : LeafId) (w : Word) (s : State) : Host.Outcome State Fault Refusal := (s.fieldWrite l Fld.LEAF_GLZ_CMD_CANCEL 1 w).done

/-- KEY_UNLOCK (R125): a write of LEAF_GLZ_KUNLOCK. -/
def execKeyUnlock (l : LeafId) (w : Word) (s : State) : Host.Outcome State Fault Refusal := (s.regWrite l Reg.LEAF_GLZ_KUNLOCK w.toNat).done

/-- PROG1 (R125): LEAF_GLZ_KCTL written with PROG1 set. -/
def execProg1 (l : LeafId) (w : Word) (s : State) : Host.Outcome State Fault Refusal := (s.fieldWrite l Fld.LEAF_GLZ_KCTL_PROG1 1 w).done

/-- REVOKE0 (R125): LEAF_GLZ_KCTL written with REVOKE0 set. -/
def execRevoke0 (l : LeafId) (w : Word) (s : State) : Host.Outcome State Fault Refusal := (s.fieldWrite l Fld.LEAF_GLZ_KCTL_REVOKE0 1 w).done

/-- REVOKE1 (R125): LEAF_GLZ_KCTL written with REVOKE1 set. -/
def execRevoke1 (l : LeafId) (w : Word) (s : State) : Host.Outcome State Fault Refusal := (s.fieldWrite l Fld.LEAF_GLZ_KCTL_REVOKE1 1 w).done

/-- FUSE_OPERATION_DONE (R125). -/
def execFuseOperationDone (l : LeafId) (s : State) : Host.Outcome State Fault Refusal := (s.eventNow l Leaf.booted Leaf.fuseDone).done

end Sys2Proof.Machine
end

