-- ==== Sys2Proof/Machine/ExecTime.lean ====
section
/-!
DEFINITION. The meanings of the commands of the time unit and the switch (R47 to R81).
-/
namespace Sys2Proof.Machine

/-- RATE (R50): TIME_Dd_COMMIT written with RATE set. -/
def execDomRate (l : LeafId) (d : Nat) (s : State) : Host.Outcome State Fault Refusal :=
  (s.indexed 2 d fun t => t.regWrite l (Reg.TIME_D_COMMIT d) 1).done

/-- STEP (R51): TIME_Dd_COMMIT written with STEP set. -/
def execDomStep (l : LeafId) (d : Nat) (s : State) : Host.Outcome State Fault Refusal :=
  (s.indexed 2 d fun t => t.regWrite l (Reg.TIME_D_COMMIT d) 2).done

/-- SET (R51): TIME_Dd_COMMIT written with SET set. -/
def execDomSet (l : LeafId) (d : Nat) (s : State) : Host.Outcome State Fault Refusal :=
  (s.indexed 2 d fun t => t.regWrite l (Reg.TIME_D_COMMIT d) 4).done

/-- BRIDGE_SLEW_END (R54): by now the bridging offset has slewed to exactly 0, or as far as the elapsed time lets it. -/
def execBridgeSlewEnd (l : LeafId) (c : Nat) (s : State) : Host.Outcome State Fault Refusal :=
  (s.event l c Leaf.booted Leaf.rebaseBridge).done

/-- VT_SEL_WRITE (R58): a write of TIME_VT_CTRL. -/
def execVtSelWrite (l : LeafId) (w : Word) (s : State) : Host.Outcome State Fault Refusal := (s.regWrite l Reg.TIME_VT_CTRL w.toNat).done

/-- VT_AUTO_SWITCH (R57). -/
def execVtAutoSwitch (l : LeafId) (c : Nat) (s : State) : Host.Outcome State Fault Refusal :=
  (s.event l c Leaf.timed Leaf.autoSwitch).done

/-- A gPTP frame of one of the message types reaches an external port that is enabled (R67, R70). -/
def Leaf.takesPtp (port : Nat) (types : List Nat) (f : List Byte) (l : Leaf) : Bool :=
  l.timed && decide (port < 5) && l.bit (Fld.SW_P_CFG_EN port) && decide (frameType f = 0x88F7) && types.contains (ptpType f)

/-- SYNC_RECEIVED (R59, R70). -/
def execSyncReceived (l : LeafId) (port c8 : Nat) (frame : List Byte) (egress : List (Nat × Nat)) (s : State) :
    Host.Outcome State Fault Refusal :=
  (s.event l (c8 / 8) (Leaf.takesPtp port [0] frame) (Leaf.sync port c8 frame egress)).done

/-- FOLLOW_UP_RECEIVED (R70). -/
def execFollowUpReceived (l : LeafId) (port c8 : Nat) (frame : List Byte) (s : State) : Host.Outcome State Fault Refusal :=
  (s.event l (c8 / 8) (Leaf.takesPtp port [8] frame) (Leaf.followUp port c8 frame)).done

/-- PDELAY_MESSAGE_RECEIVED (R59). -/
def execPdelayMessageReceived (l : LeafId) (port c8 : Nat) (frame : List Byte) (egress8 : Nat) (s : State) :
    Host.Outcome State Fault Refusal :=
  (s.event l (c8 / 8) (Leaf.takesPtp port [2, 3, 10] frame) (Leaf.pdelayMsg port c8 frame egress8)).done

/-- PDELAY_INITIATE (R59). -/
def execPdelayInitiate (l : LeafId) (port egress8 : Nat) (s : State) : Host.Outcome State Fault Refusal :=
  (s.event l (egress8 / 8) Leaf.timed (Leaf.pdelayReq port egress8)).done

/-- SYNC_TIMEOUT (R56): the domain is LOST. Domains become LOST in S2 and S3 too (R463). -/
def execSyncTimeout (l : LeafId) (d c : Nat) (s : State) : Host.Outcome State Fault Refusal :=
  (s.indexed 2 d fun t => t.event l c (fun x => x.booted && x.syncLate d) fun x => x.putB (Fld.TIME_D_STAT_LOST d) true).done

/-- PATH_SUSPECT_CLEAR (R62): TIME_Dd_STAT written with PATH_SUSPECT set. -/
def execPathSuspectClear (l : LeafId) (d : Nat) (w : Word) (s : State) : Host.Outcome State Fault Refusal :=
  (s.indexed 2 d fun t => t.fieldWrite l (Fld.TIME_D_STAT_PATH_SUSPECT d) 1 w).done

/-- PPS_EDGE (R77, R29). -/
def execPpsEdge (l : LeafId) (falling : Bool) (c8 widthNs : Nat) (s : State) : Host.Outcome State Fault Refusal :=
  (s.event l (c8 / 8) Leaf.timed (Leaf.ppsEdge s.hinge.active falling c8 widthNs)).done

/-- CAP (R79): TIME_CAPTURE written with CAP set. -/
def execCap (l : LeafId) (s : State) : Host.Outcome State Fault Refusal := (s.regWrite l Reg.TIME_CAPTURE 1).done

/-- TRIGGER_ARM (R74): TIME_TRIGn_CTRL written with ARM set. -/
def execTriggerArm (l : LeafId) (n : Nat) (w : Word) (s : State) : Host.Outcome State Fault Refusal :=
  (s.indexed 16 n fun t => t.fieldWrite l (Fld.TIME_TRIG_CTRL_ARM n) 1 w).done

/-- TRIGGER_DISARM (R74): TIME_TRIGn_CTRL written with DISARM set. -/
def execTriggerDisarm (l : LeafId) (n : Nat) (w : Word) (s : State) : Host.Outcome State Fault Refusal :=
  (s.indexed 16 n fun t => t.fieldWrite l (Fld.TIME_TRIG_CTRL_DISARM n) 1 w).done

/-- TRIGGER_PULSE (R73, R74). -/
def execTriggerPulse (l : LeafId) (n c : Nat) (s : State) : Host.Outcome State Fault Refusal :=
  (s.indexed 16 n fun t => t.event l c Leaf.timed (Leaf.pulse n)).done

/-- The register of trigger n that TRIGGER_REPROGRAM names. -/
def trigRegAddr (n : Nat) : TrigReg → Nat
  | .startLo => Reg.TIME_TRIG_START_LO n
  | .startHi => Reg.TIME_TRIG_START_HI n
  | .startFrac => Reg.TIME_TRIG_START_FRAC n
  | .period => Reg.TIME_TRIG_PERIOD n
  | .width => Reg.TIME_TRIG_WIDTH n

/-- TRIGGER_REPROGRAM (R76). -/
def execTriggerReprogram (l : LeafId) (n : Nat) (r : TrigReg) (w : Word) (s : State) : Host.Outcome State Fault Refusal :=
  (s.indexed 16 n fun t => t.regWrite l (trigRegAddr n r) w.toNat).done

/-- A frame received on a port, and the wake source FRAME when one was delivered to P5 of a leaf in S1 (R466). -/
def Leaf.takeFrame (port c8 : Nat) (f : List Byte) (fcsOk : Bool) (l : Leaf) : Leaf :=
  let l1 := l.frameIn port c8 f fcsOk
  let n (x : Leaf) : Nat := ((x.port 5).queues.map List.length).sum
  if l.sleep = 1 ∧ n l < n l1 then l1.frameWake else l1

/-- FRAME_RECEIVED (R68 to R70). -/
def execFrameReceived (l : LeafId) (port c8 : Nat) (frame : List Byte) (fcsOk : Bool) (s : State) : Host.Outcome State Fault Refusal :=
  (s.event l (c8 / 8) Leaf.timed (Leaf.takeFrame port c8 frame fcsOk)).done

/-- FRAME_TRANSMIT (R71). -/
def execFrameTransmit (l : LeafId) (port c : Nat) (s : State) : Host.Outcome State Fault Refusal :=
  (s.event l c Leaf.timed (Leaf.transmit port)).done

/-- FDB_AGE_OUT (R69). -/
def execFdbAgeOut (l : LeafId) (index c : Nat) (s : State) : Host.Outcome State Fault Refusal :=
  (s.event l c Leaf.timed (Leaf.fdbAge index)).done

/-- A forwarding-table command: SW_FDB_CMD written with GO set and an OP. -/
def State.fdbCmd (l : LeafId) (op : Nat) (w : Word) (s : State) : State :=
  s.regWrite l Reg.SW_FDB_CMD (setBits (wordWith w Fld.SW_FDB_CMD_GO 1) 30 29 op)

/-- FDB_READ (R69). -/
def execFdbRead (l : LeafId) (w : Word) (s : State) : Host.Outcome State Fault Refusal := (s.fdbCmd l 0 w).done

/-- FDB_WRITE_STATIC (R69). -/
def execFdbWriteStatic (l : LeafId) (w : Word) (s : State) : Host.Outcome State Fault Refusal := (s.fdbCmd l 1 w).done

/-- FDB_DELETE (R69). -/
def execFdbDelete (l : LeafId) (w : Word) (s : State) : Host.Outcome State Fault Refusal := (s.fdbCmd l 2 w).done

/-- FDB_FLUSH_LEARNED (R69). -/
def execFdbFlushLearned (l : LeafId) (w : Word) (s : State) : Host.Outcome State Fault Refusal := (s.fdbCmd l 3 w).done

/-- QBV_GATE_EVENT (R71). -/
def execQbvGateEvent (l : LeafId) (port c : Nat) (s : State) : Host.Outcome State Fault Refusal :=
  (s.indexed 6 port fun t => t.event l c Leaf.timed (Leaf.gateEvent port)).done

/-- QBV_CHANGE (R72): SW_Pn_QBV_CTRL written with CHANGE set. -/
def execQbvChange (l : LeafId) (port : Nat) (w : Word) (s : State) : Host.Outcome State Fault Refusal :=
  (s.indexed 6 port fun t => t.fieldWrite l (Fld.SW_P_QBV_CTRL_CHANGE port) 1 w).done

/-- QBV_CONFIG_TAKE_EFFECT (R72). -/
def execQbvConfigTakeEffect (l : LeafId) (port c : Nat) (s : State) : Host.Outcome State Fault Refusal :=
  (s.indexed 6 port fun t => t.event l c Leaf.timed (Leaf.qbvEffect port)).done

/-- LINK_UP of an A-PHY receiver in gear 1 to 5 (R230): LOCK and GEAR. -/
def Leaf.camLock (n gear : Nat) (l : Leaf) : Leaf :=
  if n < 6 ∧ 1 ≤ gear ∧ gear ≤ 5 then (l.putB (Fld.SNS_CAM_STAT_LOCK n) true).put (Fld.SNS_CAM_STAT_GEAR n) gear else l

/-- LINK_UP of a switch port (R67). -/
def Leaf.portUp (p : Nat) (l : Leaf) : Leaf := if p < 6 then l.setPort p { l.port p with link := true } else l

/-- LINK_UP (R230). -/
def execLinkUp (l : LeafId) (link : LinkId) (s : State) : Host.Outcome State Fault Refusal :=
  match link with
  | .camera n gear => (s.eventNow l Leaf.runs (Leaf.camLock n gear)).done
  | .port p => (s.eventNow l Leaf.timed (Leaf.portUp p)).done

end Sys2Proof.Machine
end

