-- ==== Sys2Proof/Machine/ExecVision.lean ====
section
/-!
DEFINITION. The meanings of the commands of the vision engines, fusion, speculation and the map (R269 to R364).
-/
namespace Sys2Proof.Machine

/-- VISION_JOB_START (R274). -/
def execVisionJobStart (l : LeafId) (e job : Nat) (s : State) : Host.Outcome State Fault Refusal :=
  (s.eventNow l Leaf.runs (Leaf.visStart e job)).done

/-- VISION_JOB_COMPLETE (R274). -/
def execVisionJobComplete (l : LeafId) (e job : Nat) (ue : Bool) (s : State) : Host.Outcome State Fault Refusal :=
  (s.eventNow l Leaf.runs (Leaf.visComplete e job ue)).done

/-- VISION_ENGINE_RESET (R298): VIS_ENGe_CTRL of engine e, 1 to 7, written with RESET set. -/
def execVisionEngineReset (l : LeafId) (e : Nat) (w : Word) (s : State) : Host.Outcome State Fault Refusal :=
  (if e = 0 then s else s.indexed 8 e fun t => t.fieldWrite l (Fld.VIS_ENG_CTRL_RESET (e - 1)) 1 w).done

/-- VISION_RESET_DONE (R298). -/
def execVisionResetDone (l : LeafId) (e : Nat) (s : State) : Host.Outcome State Fault Refusal :=
  (s.eventNow l Leaf.runs (Leaf.visResetDone e)).done

/-- PROJECTION_JOB (R304). -/
def execProjectionJob (l : LeafId) (job : Nat) (s : State) : Host.Outcome State Fault Refusal :=
  (s.indexed 8 job fun t => t.eventNow l Leaf.runs (Leaf.projectJob job)).done

/-- FUSION_GRID_UPDATE (R313, R303). -/
def execFusionGridUpdate (l : LeafId) (s : State) : Host.Outcome State Fault Refusal := (s.eventNow l Leaf.runs Leaf.fusUpdate).done

/-- DR_TIMER_EXPIRY (R324). -/
def execDrTimerExpiry (l : LeafId) (c : Nat) (s : State) : Host.Outcome State Fault Refusal := (s.event l c Leaf.runs Leaf.drExpire).done

/-- FUS_TBL_COMMIT (R307): FUS_TBL_CMD written with COMMIT set. -/
def execFusTblCommit (l : LeafId) (w : Word) (s : State) : Host.Outcome State Fault Refusal :=
  (s.fieldWrite l Fld.FUS_TBL_CMD_COMMIT 1 w).done

/-- FUS_DEMOTE_CLEAR (R316): a write of word n of FUS_DEMOTE. -/
def execFusDemoteClear (l : LeafId) (n : Nat) (w : Word) (s : State) : Host.Outcome State Fault Refusal :=
  (s.indexed 4 n fun t => t.regWrite l (Reg.FUS_DEMOTE n) w.toNat).done

/-- FUS_TRK_NEXT_WRITE (R317): a write of FUS_TRK_NEXT. -/
def execFusTrkNextWrite (l : LeafId) (w : Word) (s : State) : Host.Outcome State Fault Refusal := (s.regWrite l Reg.FUS_TRK_NEXT w.toNat).done

/-- SPEC_DECISION (R338): a confirmed run that has finished feeds its sources. -/
def execSpecDecision (l : LeafId) (c : Nat) (s : State) : Host.Outcome State Fault Refusal :=
  (s.event l c Leaf.runs fun x => (x.specDecision.feedSources).showClk).done

/-- LOOP_VERIFICATION_DONE (R360). -/
def execLoopVerificationDone (l : LeafId) (cand : Nat) (s : State) : Host.Outcome State Fault Refusal :=
  (s.eventNow l Leaf.runs (Leaf.verifyDone cand)).done

/-- GO (R364): MAP_LMK_RD_IDX written with GO set. -/
def execLmkGo (l : LeafId) (w : Word) (s : State) : Host.Outcome State Fault Refusal := (s.fieldWrite l Fld.MAP_LMK_RD_IDX_GO 1 w).done

/-- LMK_READ_DONE (R364). -/
def execLmkReadDone (l : LeafId) (ue : Bool) (s : State) : Host.Outcome State Fault Refusal :=
  (s.eventNow l Leaf.runs (Leaf.lmkReadDone ue)).done

end Sys2Proof.Machine
end

