-- ==== Sys2Proof/Machine/Dispatch.lean ====
section
/-!
DEFINITION. The table of meanings: one arm per constructor of Instr, each a direct call of the meaning.
-/
namespace Sys2Proof.Machine

/-- The effect of a command on everything but the queue. -/
def exec (i : Instr) (s : State) : Host.Outcome State Fault Refusal :=
  match i with
  | .powerOn => Sys2Proof.Machine.execPowerOn s
  | .resetNLow => Sys2Proof.Machine.execResetNLow s
  | .railUndervoltage rail => Sys2Proof.Machine.execRailUndervoltage rail s
  | .rstA w => Sys2Proof.Machine.execRstA w s
  | .rstB w => Sys2Proof.Machine.execRstB w s
  | .lockstep l => Sys2Proof.Machine.execLockstep l s
  | .watchdog l c => Sys2Proof.Machine.execWatchdog l c s
  | .perstNAssert => Sys2Proof.Machine.execPerstNAssert s
  | .perstNRelease => Sys2Proof.Machine.execPerstNRelease s
  | .flr fn => Sys2Proof.Machine.execFlr fn s
  | .pcieConfigWrite fn op => Sys2Proof.Machine.execPcieConfigWrite fn op s
  | .linkStateChange speed width lstate => Sys2Proof.Machine.execLinkStateChange speed width lstate s
  | .hingeModeWrite w => Sys2Proof.Machine.execHingeModeWrite w s
  | .stampToHinge l => Sys2Proof.Machine.execStampToHinge l s
  | .stampUnpaired l src seq => Sys2Proof.Machine.execStampUnpaired l src seq s
  | .digestToHinge l => Sys2Proof.Machine.execDigestToHinge l s
  | .digestMissing l tick id => Sys2Proof.Machine.execDigestMissing l tick id s
  | .rearm w => Sys2Proof.Machine.execRearm w s
  | .agreeFaultClear w => Sys2Proof.Machine.execAgreeFaultClear w s
  | .registerWrite addr w => Sys2Proof.Machine.execRegisterWrite addr w s
  | .domRate l d => Sys2Proof.Machine.execDomRate l d s
  | .domStep l d => Sys2Proof.Machine.execDomStep l d s
  | .domSet l d => Sys2Proof.Machine.execDomSet l d s
  | .bridgeSlewEnd l c => Sys2Proof.Machine.execBridgeSlewEnd l c s
  | .vtSelWrite l w => Sys2Proof.Machine.execVtSelWrite l w s
  | .vtAutoSwitch l c => Sys2Proof.Machine.execVtAutoSwitch l c s
  | .syncReceived l port c8 frame egress => Sys2Proof.Machine.execSyncReceived l port c8 frame egress s
  | .followUpReceived l port c8 frame => Sys2Proof.Machine.execFollowUpReceived l port c8 frame s
  | .pdelayMessageReceived l port c8 frame egress8 => Sys2Proof.Machine.execPdelayMessageReceived l port c8 frame egress8 s
  | .pdelayInitiate l port egress8 => Sys2Proof.Machine.execPdelayInitiate l port egress8 s
  | .syncTimeout l d c => Sys2Proof.Machine.execSyncTimeout l d c s
  | .pathSuspectClear l d w => Sys2Proof.Machine.execPathSuspectClear l d w s
  | .ppsEdge l falling c8 widthNs => Sys2Proof.Machine.execPpsEdge l falling c8 widthNs s
  | .cap l => Sys2Proof.Machine.execCap l s
  | .triggerArm l n w => Sys2Proof.Machine.execTriggerArm l n w s
  | .triggerDisarm l n w => Sys2Proof.Machine.execTriggerDisarm l n w s
  | .triggerPulse l n c => Sys2Proof.Machine.execTriggerPulse l n c s
  | .triggerReprogram l n r w => Sys2Proof.Machine.execTriggerReprogram l n r w s
  | .frameReceived l port c8 frame fcsOk => Sys2Proof.Machine.execFrameReceived l port c8 frame fcsOk s
  | .frameTransmit l port c => Sys2Proof.Machine.execFrameTransmit l port c s
  | .fdbAgeOut l index c => Sys2Proof.Machine.execFdbAgeOut l index c s
  | .fdbRead l w => Sys2Proof.Machine.execFdbRead l w s
  | .fdbWriteStatic l w => Sys2Proof.Machine.execFdbWriteStatic l w s
  | .fdbDelete l w => Sys2Proof.Machine.execFdbDelete l w s
  | .fdbFlushLearned l w => Sys2Proof.Machine.execFdbFlushLearned l w s
  | .qbvGateEvent l port c => Sys2Proof.Machine.execQbvGateEvent l port c s
  | .qbvChange l port w => Sys2Proof.Machine.execQbvChange l port w s
  | .qbvConfigTakeEffect l port c => Sys2Proof.Machine.execQbvConfigTakeEffect l port c s
  | .start l w => Sys2Proof.Machine.execStart l w s
  | .halt l w => Sys2Proof.Machine.execHalt l w s
  | .barrierInEdge ca cb => Sys2Proof.Machine.execBarrierInEdge ca cb s
  | .tickBoundary l c => Sys2Proof.Machine.execTickBoundary l c s
  | .boundLate l c => Sys2Proof.Machine.execBoundLate l c s
  | .subTickBoundary l c => Sys2Proof.Machine.execSubTickBoundary l c s
  | .load l w => Sys2Proof.Machine.execLoad l w s
  | .glazeChecksDone l reads => Sys2Proof.Machine.execGlazeChecksDone l reads s
  | .update l w => Sys2Proof.Machine.execUpdate l w s
  | .updateVerified l => Sys2Proof.Machine.execUpdateVerified l s
  | .cancel l w => Sys2Proof.Machine.execCancel l w s
  | .keyUnlock l w => Sys2Proof.Machine.execKeyUnlock l w s
  | .prog1 l w => Sys2Proof.Machine.execProg1 l w s
  | .revoke0 l w => Sys2Proof.Machine.execRevoke0 l w s
  | .revoke1 l w => Sys2Proof.Machine.execRevoke1 l w s
  | .fuseOperationDone l => Sys2Proof.Machine.execFuseOperationDone l s
  | .stageFire l stage emit => Sys2Proof.Machine.execStageFire l stage emit s
  | .tokenArrival l route crcBad => Sys2Proof.Machine.execTokenArrival l route crcBad s
  | .creditReturn l route crcBad => Sys2Proof.Machine.execCreditReturn l route crcBad s
  | .granuleFetchDone l obj granule reads => Sys2Proof.Machine.execGranuleFetchDone l obj granule reads s
  | .flashReadDone l addr read => Sys2Proof.Machine.execFlashReadDone l addr read s
  | .dramScrubPass l addr out => Sys2Proof.Machine.execDramScrubPass l addr out s
  | .dramRepairDone l obj read => Sys2Proof.Machine.execDramRepairDone l obj read s
  | .rewrite l w => Sys2Proof.Machine.execRewrite l w s
  | .writeback l w => Sys2Proof.Machine.execWriteback l w s
  | .memRwDone l writes => Sys2Proof.Machine.execMemRwDone l writes s
  | .flashRefresh l addr lost => Sys2Proof.Machine.execFlashRefresh l addr lost s
  | .sourceEnable l src w => Sys2Proof.Machine.execSourceEnable l src w s
  | .sourceDisable l src w => Sys2Proof.Machine.execSourceDisable l src w s
  | .sourceLinkLost l src c => Sys2Proof.Machine.execSourceLinkLost l src c s
  | .sourceItemTimeout l src c => Sys2Proof.Machine.execSourceItemTimeout l src c s
  | .cameraPacket l cam c8 p => Sys2Proof.Machine.execCameraPacket l cam c8 p s
  | .cameraFrameDue l cam c => Sys2Proof.Machine.execCameraFrameDue l cam c s
  | .exposureTrigger l cam c => Sys2Proof.Machine.execExposureTrigger l cam c s
  | .i2cGo l cam w => Sys2Proof.Machine.execI2cGo l cam w s
  | .i2cDone l cam nack data => Sys2Proof.Machine.execI2cDone l cam nack data s
  | .lidarDatagram l => Sys2Proof.Machine.execLidarDatagram l s
  | .imuDataReady l port c8 => Sys2Proof.Machine.execImuDataReady l port c8 s
  | .spiTransactionDone l port miso => Sys2Proof.Machine.execSpiTransactionDone l port miso s
  | .canFrameReceived l ctrl c8 f => Sys2Proof.Machine.execCanFrameReceived l ctrl c8 f s
  | .canBusRecovery l ctrl c => Sys2Proof.Machine.execCanBusRecovery l ctrl c s
  | .uartMessage l c8 msg ok => Sys2Proof.Machine.execUartMessage l c8 msg ok s
  | .uartTx l w => Sys2Proof.Machine.execUartTx l w s
  | .uartByteSent l c => Sys2Proof.Machine.execUartByteSent l c s
  | .filtChannelEnable l ch w => Sys2Proof.Machine.execFiltChannelEnable l ch w s
  | .filtSyncEdge l c8 => Sys2Proof.Machine.execFiltSyncEdge l c8 s
  | .filtSyncTickReset l c => Sys2Proof.Machine.execFiltSyncTickReset l c s
  | .filtSyncArm l w => Sys2Proof.Machine.execFiltSyncArm l w s
  | .filtSyncCancel l w => Sys2Proof.Machine.execFiltSyncCancel l w s
  | .egoPropagation l c => Sys2Proof.Machine.execEgoPropagation l c s
  | .egoReset l w => Sys2Proof.Machine.execEgoReset l w s
  | .visionJobStart l e job => Sys2Proof.Machine.execVisionJobStart l e job s
  | .visionJobComplete l e job ue => Sys2Proof.Machine.execVisionJobComplete l e job ue s
  | .visionEngineReset l e w => Sys2Proof.Machine.execVisionEngineReset l e w s
  | .visionResetDone l e => Sys2Proof.Machine.execVisionResetDone l e s
  | .projectionJob l job => Sys2Proof.Machine.execProjectionJob l job s
  | .fusionGridUpdate l => Sys2Proof.Machine.execFusionGridUpdate l s
  | .drTimerExpiry l c => Sys2Proof.Machine.execDrTimerExpiry l c s
  | .fusTblCommit l w => Sys2Proof.Machine.execFusTblCommit l w s
  | .fusDemoteClear l n w => Sys2Proof.Machine.execFusDemoteClear l n w s
  | .fusTrkNextWrite l w => Sys2Proof.Machine.execFusTrkNextWrite l w s
  | .blindStart l stage => Sys2Proof.Machine.execBlindStart l stage s
  | .specDecision l c => Sys2Proof.Machine.execSpecDecision l c s
  | .loopVerificationDone l cand => Sys2Proof.Machine.execLoopVerificationDone l cand s
  | .lmkGo l w => Sys2Proof.Machine.execLmkGo l w s
  | .lmkReadDone l ue => Sys2Proof.Machine.execLmkReadDone l ue s
  | .queryAdmit l ctx => Sys2Proof.Machine.execQueryAdmit l ctx s
  | .walkReadDone l ctx read => Sys2Proof.Machine.execWalkReadDone l ctx read s
  | .queryComplete l ctx => Sys2Proof.Machine.execQueryComplete l ctx s
  | .queryDeadline l ctx c => Sys2Proof.Machine.execQueryDeadline l ctx c s
  | .sideInsert l w => Sys2Proof.Machine.execSideInsert l w s
  | .sideDelete l w => Sys2Proof.Machine.execSideDelete l w s
  | .sideCmdDone l => Sys2Proof.Machine.execSideCmdDone l s
  | .mergeGo l w => Sys2Proof.Machine.execMergeGo l w s
  | .mergeAbort l w => Sys2Proof.Machine.execMergeAbort l w s
  | .mergeDone l readable => Sys2Proof.Machine.execMergeDone l readable s
  | .swap l x w => Sys2Proof.Machine.execSwap l x w s
  | .srchFwGo l w => Sys2Proof.Machine.execSrchFwGo l w s
  | .srchFwDone l writes => Sys2Proof.Machine.execSrchFwDone l writes s
  | .attach l x w => Sys2Proof.Machine.execAttach l x w s
  | .attachDone l x read => Sys2Proof.Machine.execAttachDone l x read s
  | .detach l x w => Sys2Proof.Machine.execDetach l x w s
  | .solverJobStart l job => Sys2Proof.Machine.execSolverJobStart l job s
  | .solverJobComplete l job ue => Sys2Proof.Machine.execSolverJobComplete l job ue s
  | .graphReq l w => Sys2Proof.Machine.execGraphReq l w s
  | .assignStart l => Sys2Proof.Machine.execAssignStart l s
  | .assignComplete l => Sys2Proof.Machine.execAssignComplete l s
  | .solverReset l w => Sys2Proof.Machine.execSolverReset l w s
  | .solverResetDone l => Sys2Proof.Machine.execSolverResetDone l s
  | .clutchRead l w => Sys2Proof.Machine.execClutchRead l w s
  | .clutchWrite l w => Sys2Proof.Machine.execClutchWrite l w s
  | .barFire w => Sys2Proof.Machine.execBarFire w s
  | .barrierCancel w => Sys2Proof.Machine.execBarrierCancel w s
  | .barrierOutPulse c => Sys2Proof.Machine.execBarrierOutPulse c s
  | .opEvaluation l c => Sys2Proof.Machine.execOpEvaluation l c s
  | .railSettled l => Sys2Proof.Machine.execRailSettled l s
  | .vrail l c => Sys2Proof.Machine.execVrail l c s
  | .peakEvaluation l c => Sys2Proof.Machine.execPeakEvaluation l c s
  | .tempSample l c temps => Sys2Proof.Machine.execTempSample l c temps s
  | .tripClear l w => Sys2Proof.Machine.execTripClear l w s
  | .coolantWrite l budget w => Sys2Proof.Machine.execCoolantWrite l budget w s
  | .coolStale l c => Sys2Proof.Machine.execCoolStale l c s
  | .regionSkew l c => Sys2Proof.Machine.execRegionSkew l c s
  | .sleepReq l w => Sys2Proof.Machine.execSleepReq l w s
  | .sleepEntryDone l c => Sys2Proof.Machine.execSleepEntryDone l c s
  | .wake l w => Sys2Proof.Machine.execWake l w s
  | .wakeAlarm l c => Sys2Proof.Machine.execWakeAlarm l c s
  | .wakeEventTimer l c => Sys2Proof.Machine.execWakeEventTimer l c s
  | .canBusWake l ctrl c => Sys2Proof.Machine.execCanBusWake l ctrl c s
  | .wkupEdge l n falling c => Sys2Proof.Machine.execWkupEdge l n falling c s
  | .wakeComplete l c => Sys2Proof.Machine.execWakeComplete l c s
  | .irqEoi l w => Sys2Proof.Machine.execIrqEoi l w s
  | .irqPendWrite l n w => Sys2Proof.Machine.execIrqPendWrite l n w s
  | .irqMaskWrite l n w => Sys2Proof.Machine.execIrqMaskWrite l n w s
  | .irqTgtWrite l src w => Sys2Proof.Machine.execIrqTgtWrite l src w s
  | .irqCoalesceTimeout l v c => Sys2Proof.Machine.execIrqCoalesceTimeout l v c s
  | .snap l w => Sys2Proof.Machine.execSnap l w s
  | .snapshotDone l c => Sys2Proof.Machine.execSnapshotDone l c s
  | .sqDoorbell l q w => Sys2Proof.Machine.execSqDoorbell l q w s
  | .cqDoorbell l q w => Sys2Proof.Machine.execCqDoorbell l q w s
  | .commandFetch l q entry => Sys2Proof.Machine.execCommandFetch l q entry s
  | .nop l q tag => Sys2Proof.Machine.execNop l q tag s
  | .search l q tag => Sys2Proof.Machine.execSearch l q tag s
  | .copyIn l q tag => Sys2Proof.Machine.execCopyIn l q tag s
  | .copyOut l q tag => Sys2Proof.Machine.execCopyOut l q tag s
  | .abort l q tag => Sys2Proof.Machine.execAbort l q tag s
  | .copyDone l q tag data hostErr poison => Sys2Proof.Machine.execCopyDone l q tag data hostErr poison s
  | .queueEnable l q w => Sys2Proof.Machine.execQueueEnable l q w s
  | .queueDisable l q w => Sys2Proof.Machine.execQueueDisable l q w s
  | .holdDrain l => Sys2Proof.Machine.execHoldDrain l s
  | .cqCoalesceTimeout g c => Sys2Proof.Machine.execCqCoalesceTimeout g c s
  | .apertureAccess o acc out => Sys2Proof.Machine.execApertureAccess o acc out s
  | .pf1WindowAccess o acc => Sys2Proof.Machine.execPf1WindowAccess o acc s
  | .violLogClear w => Sys2Proof.Machine.execViolLogClear w s
  | .bootPhaseDone l c us out => Sys2Proof.Machine.execBootPhaseDone l c us out s
  | .goA w => Sys2Proof.Machine.execGoA w s
  | .goB w => Sys2Proof.Machine.execGoB w s
  | .hostBootFetchDone l hostErr image => Sys2Proof.Machine.execHostBootFetchDone l hostErr image s
  | .fwuGo l w => Sys2Proof.Machine.execFwuGo l w s
  | .fwuDone l ok => Sys2Proof.Machine.execFwuDone l ok s
  | .faultClear l w => Sys2Proof.Machine.execFaultClear l w s
  | .clockFault l c => Sys2Proof.Machine.execClockFault l c s
  | .cfgParityScan l c block => Sys2Proof.Machine.execCfgParityScan l c block s
  | .dramChan l chan c => Sys2Proof.Machine.execDramChan l chan c s
  | .hingeHeartbeat l c => Sys2Proof.Machine.execHingeHeartbeat l c s
  | .hingeLost l c => Sys2Proof.Machine.execHingeLost l c s
  | .fltInjKeyWrite l w => Sys2Proof.Machine.execFltInjKeyWrite l w s
  | .injectCreditSum l w => Sys2Proof.Machine.execInjectCreditSum l w s
  | .injectSramError l w => Sys2Proof.Machine.execInjectSramError l w s
  | .injectDigestBit l w => Sys2Proof.Machine.execInjectDigestBit l w s
  | .injectLinkCrc l w => Sys2Proof.Machine.execInjectLinkCrc l w s
  | .injectCfgParity l w => Sys2Proof.Machine.execInjectCfgParity l w s
  | .lifetimeRecordWrite l c => Sys2Proof.Machine.execLifetimeRecordWrite l c s
  | .resetNRelease => Sys2Proof.Machine.execResetNRelease s
  | .registerRead addr => Sys2Proof.Machine.execRegisterRead addr s
  | .dramReadDone l addr out => Sys2Proof.Machine.execDramReadDone l addr out s
  | .voltageCheck l c coreMv sramMv => Sys2Proof.Machine.execVoltageCheck l c coreMv sramMv s
  | .pulseEnd pin c => Sys2Proof.Machine.execPulseEnd pin c s
  | .linkUp l link => Sys2Proof.Machine.execLinkUp l link s

end Sys2Proof.Machine
end

