-- ==== Sys2Proof/Machine/Step.lean ====
section
/-!
DEFINITION. The step: the command at the front of the queue runs; on an empty queue time passes.
-/
namespace Sys2Proof.Machine

/-- The idle step: one local count passes in each leaf whose count runs (R47). DESIGN CHOICE: the table has no row for a
tick of the local clock. -/
def idle (s : State) : State :=
  { s with leafA := s.leafA.adv (s.leafA.count + 1), leafB := s.leafB.adv (s.leafB.count + 1) }

/-- One step: the command at the front of the queue, with the queue's rest; with no command waiting, an idle step. -/
def step (s : State) : Host.Outcome State Fault Refusal :=
  match s.pending with
  | [] => .next (idle s)
  | c :: rest => exec c { s with pending := rest }

/-- The state with the command a table word spells put in front of the queue. -/
def State.withFetchWord (s : State) (nbits w : Nat) : State :=
  match decodeTableWord nbits w with
  | none => s
  | some c => { s with pending := c :: s.pending }

end Sys2Proof.Machine
end

