-- ==== Sys2Proof/WellFormed.lean ====
section
/-!
DEFINITION. Which commands are well formed: every operand in the range of the thing it names. A command outside its ranges names nothing
the device has, and exec gives it no effect of its own.
-/
namespace Sys2Proof

/-- What can be wrong with a command's operands. -/
inductive IllFormed where
  /-- Raised for a PCIe function other than PF0 and PF1 (R486). -/
  | function
  /-- Raised for a vector or an aperture size that a function does not have. -/
  | configOperand
  /-- Raised for a link speed code above 5. -/
  | linkSpeed
  /-- Raised for a link width that its field cannot hold. -/
  | linkWidth
  /-- Raised for a link state code above 3. -/
  | linkState
  /-- Raised for a sensor source index that Table 8.1 leaves out. -/
  | source
  /-- Raised for a register address that is not an aligned word of the 256 MiB register view (R490). -/
  | address
  /-- Raised for a time domain other than 0 and 1. -/
  | domain
  /-- Raised for a switch port that the leaf does not have, or that takes no part in gPTP. -/
  | port
  /-- Raised for a general trigger above 15. -/
  | trigger
  /-- Raised for a forwarding entry above 4,095. -/
  | fdbEntry
  /-- Raised for a read level above 8 (R203). -/
  | readLevel
  /-- Raised for a stage index above 1,023. -/
  | stage
  /-- Raised for a route index above 8,191. -/
  | route
  /-- Raised for an object index above 0xFFE. -/
  | object
  /-- Raised for a flash address outside 1 TiB. -/
  | flashAddress
  /-- Raised for a DRAM address outside the leaf (R192). -/
  | dramAddress
  /-- Raised for a camera above 5. -/
  | camera
  /-- Raised for a CSI-2 virtual channel above 15 or data type above 0x3F. -/
  | packet
  /-- Raised for a byte above 255. -/
  | byteValue
  /-- Raised for an SPI port above 1. -/
  | imuPort
  /-- Raised for a CAN controller above 1. -/
  | canController
  /-- Raised for a CAN identifier wider than its form, or more than 64 data bytes. -/
  | canFrame
  /-- Raised for a filter channel above 31. -/
  | filterChannel
  /-- Raised for a vision engine outside the block. -/
  | visionEngine
  /-- Raised for a job index that the engine does not have. -/
  | job
  /-- Raised for a word index past the register array. -/
  | word
  /-- Raised for a verification candidate above 15. -/
  | candidate
  /-- Raised for a query context above 2,047. -/
  | queryContext
  /-- Raised for a search index above 3. -/
  | index
  /-- Raised for other than sixteen 16-bit readings (R455). -/
  | readings
  /-- Raised for a WKUP input above 3. -/
  | wakeInput
  /-- Raised for an interrupt source above 511. -/
  | interrupt
  /-- Raised for an interrupt vector above 63. -/
  | vector
  /-- Raised for a queue pair above 63. -/
  | queue
  /-- Raised for a submission entry that is not 64 bytes (R495). -/
  | entryLength
  /-- Raised for a tag of more than 31 bits. -/
  | tag
  /-- Raised for a coalescing group above 15. -/
  | group
  /-- Raised for a host access of no bytes or more than 4 KiB. -/
  | hostAccess
  /-- Raised for a block code above 31. -/
  | blockCode
  /-- Raised for a DRAM channel above 15. -/
  | dramChannel
  /-- Raised for a receiver or port that the leaf does not have, or a gear outside 1 to 5. -/
  | link
  deriving DecidableEq, Repr

/-- The sensor sources of Table 8.1. -/
def isSource (s : Nat) : Bool :=
  decide (s < 6) || decide (8 ≤ s ∧ s < 0x12) || decide (0x20 ≤ s ∧ s < 0x23) || decide (0x40 ≤ s ∧ s < 0x80)

/-- An aligned word of the register view of PF0, 256 MiB (R490). -/
def wordAddress (a : Nat) : Bool := decide (a % 4 = 0 ∧ a < 2 ^ 28)

/-- An address of a leaf's DRAM (R192). -/
def dramAddress (a : Nat) : Bool := decide (a < 0xBA0000000)

/-- Read levels 0 to 8 (R203). -/
def ReadOutcome.wf (r : ReadOutcome) : Bool :=
  (r.primary.all fun v => decide (v ≤ 8)) && r.mirror.all fun v => decide (v ≤ 8)

/-- A vector of the function (145 in PF0, 16 in PF1), a 16-bit requester ID, an aperture of 1 to 64 GiB (R490). -/
def PcieCfg.wf (fn : Nat) (op : PcieCfg) : Bool :=
  match op with
  | .vectorMask vec _ => decide (vec < if fn = 0 then 145 else 16)
  | .requesterId rid => decide (rid < 2 ^ 16)
  | .apertureLog2 n => decide (30 ≤ n ∧ n ≤ 36)
  | .pmcsr _ | .pmeEn _ | .pmeStatusClear | .busMaster _ | .msixEnable _ | .functionMask _ => true

/-- Virtual channels 0 to 15, data types 0 to 0x3F (R231). -/
def CsiPacket.wf (p : CsiPacket) : Bool :=
  match p with
  | .frameStart vc | .frameEnd vc => decide (vc < 16)
  | .long vc dt _ _ => decide (vc < 16 ∧ dt < 64)
  | .other => true

/-- An identifier of 11 or 29 bits and at most 64 bytes (R240). -/
def CanFrame.wf (f : CanFrame) : Bool :=
  decide (f.id < if f.ide then 2 ^ 29 else 2 ^ 11) && decide (f.data.length ≤ 64)

/-- An access of 1 to 4,096 bytes. -/
def HostAccess.wf (a : HostAccess) : Bool :=
  match a with
  | .read n => decide (0 < n ∧ n ≤ 4096)
  | .write bs => decide (0 < bs.length ∧ bs.length ≤ 4096)

/-- A receiver in gear 1 to 5, or a port (R230). -/
def LinkId.wf (k : LinkId) : Bool :=
  match k with
  | .camera n gear => decide (n < 6 ∧ 1 ≤ gear ∧ gear ≤ 5)
  | .port p => decide (p < 6)

/-- The checks of a command: each names what is wrong where it does not hold. -/
def Instr.checks (i : Instr) : List (IllFormed × Bool) :=
  match i with
  | .powerOn => []
  | .resetNLow => []
  | .railUndervoltage _ => []
  | .rstA _ => []
  | .rstB _ => []
  | .lockstep _ => []
  | .watchdog _ _ => []
  | .perstNAssert => []
  | .perstNRelease => []
  | .flr fn => [(.function, decide (fn < 2))]
  | .pcieConfigWrite fn op => [(.function, decide (fn < 2)), (.configOperand, op.wf fn)]
  | .linkStateChange speed width lstate =>
      [(.linkSpeed, decide (speed < 6)), (.linkWidth, decide (width < 16)), (.linkState, decide (lstate < 4))]
  | .hingeModeWrite _ => []
  | .stampToHinge _ => []
  | .stampUnpaired _ src _ => [(.source, isSource src)]
  | .digestToHinge _ => []
  | .digestMissing _ _ _ => []
  | .rearm _ => []
  | .agreeFaultClear _ => []
  | .registerWrite addr _ => [(.address, wordAddress addr)]
  | .domRate _ d => [(.domain, decide (d < 2))]
  | .domStep _ d => [(.domain, decide (d < 2))]
  | .domSet _ d => [(.domain, decide (d < 2))]
  | .bridgeSlewEnd _ _ => []
  | .vtSelWrite _ _ => []
  | .vtAutoSwitch _ _ => []
  | .syncReceived _ port _ _ _ => [(.port, decide (port < 5))]
  | .followUpReceived _ port _ _ => [(.port, decide (port < 5))]
  | .pdelayMessageReceived _ port _ _ _ => [(.port, decide (port < 5))]
  | .pdelayInitiate _ port _ => [(.port, decide (port < 5))]
  | .syncTimeout _ d _ => [(.domain, decide (d < 2))]
  | .pathSuspectClear _ d _ => [(.domain, decide (d < 2))]
  | .ppsEdge _ _ _ _ => []
  | .cap _ => []
  | .triggerArm _ n _ => [(.trigger, decide (n < 16))]
  | .triggerDisarm _ n _ => [(.trigger, decide (n < 16))]
  | .triggerPulse _ n _ => [(.trigger, decide (n < 16))]
  | .triggerReprogram _ n _ _ => [(.trigger, decide (n < 16))]
  | .frameReceived _ port _ _ _ => [(.port, decide (port < 6))]
  | .frameTransmit _ port _ => [(.port, decide (port < 6))]
  | .fdbAgeOut _ index _ => [(.fdbEntry, decide (index < 4096))]
  | .fdbRead _ _ => []
  | .fdbWriteStatic _ _ => []
  | .fdbDelete _ _ => []
  | .fdbFlushLearned _ _ => []
  | .qbvGateEvent _ port _ => [(.port, decide (port < 6))]
  | .qbvChange _ port _ => [(.port, decide (port < 6))]
  | .qbvConfigTakeEffect _ port _ => [(.port, decide (port < 6))]
  | .start _ _ => []
  | .halt _ _ => []
  | .barrierInEdge _ _ => []
  | .tickBoundary _ _ => []
  | .boundLate _ _ => []
  | .subTickBoundary _ _ => []
  | .load _ _ => []
  | .glazeChecksDone _ reads => [(.readLevel, reads.all ReadOutcome.wf)]
  | .update _ _ => []
  | .updateVerified _ => []
  | .cancel _ _ => []
  | .keyUnlock _ _ => []
  | .prog1 _ _ => []
  | .revoke0 _ _ => []
  | .revoke1 _ _ => []
  | .fuseOperationDone _ => []
  | .stageFire _ stage _ => [(.stage, decide (stage < 1024))]
  | .tokenArrival _ route _ => [(.route, decide (route < 8192))]
  | .creditReturn _ route _ => [(.route, decide (route < 8192))]
  | .granuleFetchDone _ obj _ reads => [(.object, decide (obj < 4095)), (.readLevel, reads.all ReadOutcome.wf)]
  | .flashReadDone _ addr read => [(.flashAddress, decide (addr < 2 ^ 40)), (.readLevel, read.wf)]
  | .dramScrubPass _ addr _ => [(.dramAddress, dramAddress addr)]
  | .dramRepairDone _ obj read => [(.object, decide (obj < 4095)), (.readLevel, read.wf)]
  | .rewrite _ _ => []
  | .writeback _ _ => []
  | .memRwDone _ _ => []
  | .flashRefresh _ addr _ => [(.flashAddress, decide (addr < 2 ^ 40))]
  | .sourceEnable _ src _ => [(.source, isSource src)]
  | .sourceDisable _ src _ => [(.source, isSource src)]
  | .sourceLinkLost _ src _ => [(.source, isSource src)]
  | .sourceItemTimeout _ src _ => [(.source, isSource src)]
  | .cameraPacket _ cam _ p => [(.camera, decide (cam < 6)), (.packet, p.wf)]
  | .cameraFrameDue _ cam _ => [(.camera, decide (cam < 6))]
  | .exposureTrigger _ cam _ => [(.camera, decide (cam < 6))]
  | .i2cGo _ cam _ => [(.camera, decide (cam < 6))]
  | .i2cDone _ cam _ data => [(.camera, decide (cam < 6)), (.byteValue, decide (data < 256))]
  | .lidarDatagram _ => []
  | .imuDataReady _ port _ => [(.imuPort, decide (port < 2))]
  | .spiTransactionDone _ port _ => [(.imuPort, decide (port < 2))]
  | .canFrameReceived _ ctrl _ f => [(.canController, decide (ctrl < 2)), (.canFrame, f.wf)]
  | .canBusRecovery _ ctrl _ => [(.canController, decide (ctrl < 2))]
  | .uartMessage _ _ _ _ => []
  | .uartTx _ _ => []
  | .uartByteSent _ _ => []
  | .filtChannelEnable _ ch _ => [(.filterChannel, decide (ch < 32))]
  | .filtSyncEdge _ _ => []
  | .filtSyncTickReset _ _ => []
  | .filtSyncArm _ _ => []
  | .filtSyncCancel _ _ => []
  | .egoPropagation _ _ => []
  | .egoReset _ _ => []
  | .visionJobStart _ e job => [(.visionEngine, decide (e < 8)), (.job, decide (job < 16))]
  | .visionJobComplete _ e job _ => [(.visionEngine, decide (e < 8)), (.job, decide (job < 16))]
  | .visionEngineReset _ e _ => [(.visionEngine, decide (0 < e ∧ e < 8))]
  | .visionResetDone _ e => [(.visionEngine, decide (e < 8))]
  | .projectionJob _ job => [(.job, decide (job < 8))]
  | .fusionGridUpdate _ => []
  | .drTimerExpiry _ _ => []
  | .fusTblCommit _ _ => []
  | .fusDemoteClear _ n _ => [(.word, decide (n < 4))]
  | .fusTrkNextWrite _ _ => []
  | .blindStart _ stage => [(.stage, decide (stage < 1024))]
  | .specDecision _ _ => []
  | .loopVerificationDone _ cand => [(.candidate, decide (cand < 16))]
  | .lmkGo _ _ => []
  | .lmkReadDone _ _ => []
  | .queryAdmit _ ctx => [(.queryContext, decide (ctx < 2048))]
  | .walkReadDone _ ctx read => [(.queryContext, decide (ctx < 2048)), (.readLevel, read.wf)]
  | .queryComplete _ ctx => [(.queryContext, decide (ctx < 2048))]
  | .queryDeadline _ ctx _ => [(.queryContext, decide (ctx < 2048))]
  | .sideInsert _ _ => []
  | .sideDelete _ _ => []
  | .sideCmdDone _ => []
  | .mergeGo _ _ => []
  | .mergeAbort _ _ => []
  | .mergeDone _ _ => []
  | .swap _ x _ => [(.index, decide (x < 4))]
  | .srchFwGo _ _ => []
  | .srchFwDone _ _ => []
  | .attach _ x _ => [(.index, decide (x < 4))]
  | .attachDone _ x read => [(.index, decide (x < 4)), (.readLevel, read.wf)]
  | .detach _ x _ => [(.index, decide (x < 4))]
  | .solverJobStart _ job => [(.job, decide (job < 8))]
  | .solverJobComplete _ job _ => [(.job, decide (job < 8))]
  | .graphReq _ _ => []
  | .assignStart _ => []
  | .assignComplete _ => []
  | .solverReset _ _ => []
  | .solverResetDone _ => []
  | .clutchRead _ _ => []
  | .clutchWrite _ _ => []
  | .barFire _ => []
  | .barrierCancel _ => []
  | .barrierOutPulse _ => []
  | .opEvaluation _ _ => []
  | .railSettled _ => []
  | .vrail _ _ => []
  | .peakEvaluation _ _ => []
  | .tempSample _ _ temps => [(.readings, decide (temps.length = 16) && temps.all fun t => decide (t < 65536))]
  | .tripClear _ _ => []
  | .coolantWrite _ _ _ => []
  | .coolStale _ _ => []
  | .regionSkew _ _ => []
  | .sleepReq _ _ => []
  | .sleepEntryDone _ _ => []
  | .wake _ _ => []
  | .wakeAlarm _ _ => []
  | .wakeEventTimer _ _ => []
  | .canBusWake _ ctrl _ => [(.canController, decide (ctrl < 2))]
  | .wkupEdge _ n _ _ => [(.wakeInput, decide (n < 4))]
  | .wakeComplete _ _ => []
  | .irqEoi _ _ => []
  | .irqPendWrite _ n _ => [(.word, decide (n < 16))]
  | .irqMaskWrite _ n _ => [(.word, decide (n < 16))]
  | .irqTgtWrite _ src _ => [(.interrupt, decide (src < 512))]
  | .irqCoalesceTimeout _ v _ => [(.vector, decide (v < 64))]
  | .snap _ _ => []
  | .snapshotDone _ _ => []
  | .sqDoorbell _ q _ => [(.queue, decide (q < 64))]
  | .cqDoorbell _ q _ => [(.queue, decide (q < 64))]
  | .commandFetch _ q entry => [(.queue, decide (q < 64)), (.entryLength, decide (entry.length = 64))]
  | .nop _ q tag => [(.queue, decide (q < 64)), (.tag, decide (tag < 2 ^ 31))]
  | .search _ q tag => [(.queue, decide (q < 64)), (.tag, decide (tag < 2 ^ 31))]
  | .copyIn _ q tag => [(.queue, decide (q < 64)), (.tag, decide (tag < 2 ^ 31))]
  | .copyOut _ q tag => [(.queue, decide (q < 64)), (.tag, decide (tag < 2 ^ 31))]
  | .abort _ q tag => [(.queue, decide (q < 64)), (.tag, decide (tag < 2 ^ 31))]
  | .copyDone _ q tag _ _ _ => [(.queue, decide (q < 64)), (.tag, decide (tag < 2 ^ 31))]
  | .queueEnable _ q _ => [(.queue, decide (q < 64))]
  | .queueDisable _ q _ => [(.queue, decide (q < 64))]
  | .holdDrain _ => []
  | .cqCoalesceTimeout g _ => [(.group, decide (g < 16))]
  | .apertureAccess _ acc _ => [(.hostAccess, acc.wf)]
  | .pf1WindowAccess _ acc => [(.hostAccess, acc.wf)]
  | .violLogClear _ => []
  | .bootPhaseDone _ _ _ _ => []
  | .goA _ => []
  | .goB _ => []
  | .hostBootFetchDone _ _ _ => []
  | .fwuGo _ _ => []
  | .fwuDone _ _ => []
  | .faultClear _ _ => []
  | .clockFault _ _ => []
  | .cfgParityScan _ _ block => [(.blockCode, match block with | none => true | some b => decide (b < 32))]
  | .dramChan _ chan _ => [(.dramChannel, decide (chan < 16))]
  | .hingeHeartbeat _ _ => []
  | .hingeLost _ _ => []
  | .fltInjKeyWrite _ _ => []
  | .injectCreditSum _ _ => []
  | .injectSramError _ _ => []
  | .injectDigestBit _ _ => []
  | .injectLinkCrc _ _ => []
  | .injectCfgParity _ _ => []
  | .lifetimeRecordWrite _ _ => []
  | .resetNRelease => []
  | .registerRead addr => [(.address, wordAddress addr)]
  | .dramReadDone _ addr _ => [(.dramAddress, dramAddress addr)]
  | .voltageCheck _ _ _ _ => []
  | .pulseEnd pin _ => [(.trigger, match pin with | .gtrig _ n => decide (n < 16) | .tickOut _ => true | .barrierOut => true)]
  | .linkUp _ link => [(.link, link.wf)]

/-- The first check that a command fails. -/
def Instr.illFormed (i : Instr) : Option IllFormed := (i.checks.find? fun e => !e.2).map (·.1)

/-- A command whose operands are all in range. -/
def Instr.wf (i : Instr) : Bool := i.illFormed.isNone

end Sys2Proof
end

