-- ==== Sys2Proof/Safety.lean ====
section
/-!
DEFINITION. What counts as a safe run, in the terms the statements use: a step that goes on, a leaf whose SAFE_N pin shows the conditions
of R532, a leaf that shows the mode of the hinge, a memory in canonical form.
-/
namespace Sys2Proof.Machine

/-- A step that goes on: it answers a next state. -/
def goesOn (o : Host.Outcome State Fault Refusal) : Prop := ∃ t, o = .next t

/-- A condition of R532 holds: the leaf is in reset, or one of the conditions that FLT_STAT.SAFE_WHY lists holds. -/
def Leaf.mustBeSafe (l : Leaf) : Bool := l.boot.held || l.safeWhy != 0

/-- SAFE_N of a leaf out of reset is asserted exactly while a condition of R532 holds, and FLT_STAT.SAFE_WHY shows which. -/
def Leaf.safeShown (l : Leaf) : Prop :=
  l.boot.held = false → l.flt.safeN = l.mustBeSafe ∧ l.get Fld.FLT_STAT_SAFE_WHY = l.safeWhy

/-- LEAF_STATUS.MIRROR of a leaf out of reset shows whether the pair is locked to mirror mode (R25). -/
def State.mirrorShown (s : State) (i : LeafId) : Prop :=
  (s.leaf i).boot.held = false → (s.leaf i).bit Fld.LEAF_STATUS_MIRROR = s.hinge.mirror

/-- What every command leaves behind: of each leaf, SAFE_N, SAFE_WHY and MIRROR show what they stand for. -/
def State.Shown (s : State) : Prop := ∀ i, (s.leaf i).safeShown ∧ s.mirrorShown i

/-- A leaf's memories in canonical form, so that equal contents are equal data. -/
def Leaf.memWf (l : Leaf) : Prop := Memory.wf l.dram = true ∧ Memory.wf l.flash = true

/-- The memories of both leaves in canonical form. -/
def State.memWf (s : State) : Prop := s.leafA.memWf ∧ s.leafB.memWf

/-! ## What settling may change

After a command's own effect the same things always follow at once (State.settle): completion records are placed, HOLDOVER, the level
sources, SAFE_N and LEAF_STATUS.MIRROR follow their conditions, and messages that are due are sent. Nothing else changes. -/

/-- Bit i of leaf register a may change while the leaf settles. -/
def settles (a i : Nat) : Bool :=
  if a / 2 ^ 20 = 4 then true
  else if a = Reg.LEAF_STATUS then i == 14
  else if 0x1000 ≤ a ∧ a < 0x1800 then (a % 0x20 == 0x10 && i == 27) || (a % 0x20 == 0x1C && decide (16 ≤ i) && decide (i ≤ 29))
  else if a = Reg.TIME_VT_STAT then i == 2
  else if a = Reg.FLT_STAT then i == 1 || i == 3 || (decide (8 ≤ i) && decide (i ≤ 12))
  else a == Reg.LEAF_CQ_HOLD || a == Reg.LEAF_CQ_HOLD_DROP || a == Reg.FLT_LOG_HEAD || a == Reg.FLT_LOG_DROP
    || (decide (0x1C01000 ≤ a) && decide (a < 0x1C01800))

/-- Bit i of hinge register a may change while a leaf settles. -/
def hingeSettles (a i : Nat) : Bool :=
  if a = Reg.HINGE_PCIE_LINK then i == 16 || i == 17
  else a == Reg.HINGE_PCIE_HELD_CNT || a == Reg.HINGE_PCIE_HELD_NOW
    || (decide (0x8300200 ≤ a) && decide (a < 0x8300280) && a % 8 == 4)

/-- m is l but for what settling may change: its queues and records, its interrupt controller and counters, the bits of `settles`. The
DRAM changes only where a completion record on its way lies in leaf DRAM. -/
structure Leaf.Kept (l m : Leaf) : Prop where
  bits : ∀ a i, settles a i = false → (m.rd a).testBit i = (l.rd a).testBit i
  dram : l.host.toPlace = [] → m.dram = l.dram
  cmds : m.host.cmds = l.host.cmds
  flt : m.flt = { l.flt with safeN := m.flt.safeN }
  time : m.time = { l.time with autoRefused := m.time.autoRefused }
  id : m.id = l.id
  flash : m.flash = l.flash
  count : m.count = l.count
  fuses : m.fuses = l.fuses
  aon : m.aon = l.aon
  boot : m.boot = l.boot
  sw : m.sw = l.sw
  tick : m.tick = l.tick
  glz : m.glz = l.glz
  fab : m.fab = l.fab
  mem : m.mem = l.mem
  spec : m.spec = l.spec
  sns : m.sns = l.sns
  filt : m.filt = l.filt
  ego : m.ego = l.ego
  map : m.map = l.map
  vis : m.vis = l.vis
  fus : m.fus = l.fus
  srch : m.srch = l.srch
  solv : m.solv = l.solv
  pwr : m.pwr = l.pwr
  free : m.free = l.free

/-- k is h but for what settling may change: messages held and sent, and the bits of `hingeSettles`. -/
structure Hinge.Kept (h k : Hinge) : Prop where
  bits : ∀ a i, hingeSettles a i = false → (k.rd a).testBit i = (h.rd a).testBit i
  fn0 : k.fn0 = h.fn0
  fn1 : k.fn1 = h.fn1
  rid0 : k.rid0 = h.rid0
  rid1 : k.rid1 = h.rid1
  apLog2 : k.apLog2 = h.apLog2
  held : k.held = h.held
  perst : k.perst = h.perst
  aux : k.aux = h.aux
  completion : k.completion = h.completion
  agree : k.agree = h.agree
  barrier : k.barrier = h.barrier

/-- t is s but for what settling may change. -/
structure State.Kept (s t : State) : Prop where
  leaf : ∀ i, (s.leaf i).Kept (t.leaf i)
  hinge : s.hinge.Kept t.hinge
  pending : t.pending = s.pending

/-! ## Conservation of credits and tokens (R186) -/

/-- The credits of a route wherever they are: with the producer, with a token on the mesh or in the consumer's buffer, or on their way back. -/
def RouteRun.total (x : RouteRun) : Nat := x.credits + x.flight.length + x.buf.length + x.back

/-- A stage's run as firings leave it: one that met POISON is poisoned; a poisoned one has at most its END left to send on each port; one
that has computed is poisoned or has had END on every input. -/
def StageRun.sound (s : StageDesc) (x : StageRun) : Prop :=
  (x.poisonIn = true → x.poisoned = true)
  ∧ (x.poisoned = true → x.computed = true ∧ ∀ o ∈ x.outs, o.length ≤ 1)
  ∧ (x.computed = true → x.poisoned = true ∨ ∀ p < s.nin, (x.ins.getD p {}).ended = true)

/-- Every route of the glazed image has the credits that its CREDITS gives it, and every run is as firings leave it. In S3 nothing runs and
the fabric has lost its state; the image is glazed again on waking (R463). -/
def Leaf.conserved (l : Leaf) : Prop :=
  l.sleep ≠ 3 →
    (∀ r d, l.routeDesc r = some d → (l.route r).total = d.credits)
    ∧ ∀ e ∈ l.fab.runs ++ l.fab.blinds, ∀ s, l.stage e.1 = some s → e.2.sound s

/-! ## What one leaf's rows reach -/

/-- The leaf that a command concerns: the rows that name one leaf, but for those that reset it (LOCKSTEP, WATCHDOG), those that carry its
stamps and digests to the agreement checker, and the tick boundary, at which comparison of the pair can start. -/
def commandLeaf (c : Instr) : Option LeafId :=
  match c with
  | .domRate l .. | .domStep l .. | .domSet l .. | .bridgeSlewEnd l .. | .vtSelWrite l .. | .vtAutoSwitch l .. | .syncReceived l ..
    | .followUpReceived l .. | .pdelayMessageReceived l .. | .pdelayInitiate l .. | .syncTimeout l .. | .pathSuspectClear l ..
    | .ppsEdge l .. | .cap l .. | .triggerArm l .. | .triggerDisarm l .. | .triggerPulse l .. | .triggerReprogram l ..
    | .frameReceived l .. | .frameTransmit l .. | .fdbAgeOut l .. | .fdbRead l .. | .fdbWriteStatic l .. | .fdbDelete l ..
    | .fdbFlushLearned l .. | .qbvGateEvent l .. | .qbvChange l .. | .qbvConfigTakeEffect l .. | .start l .. | .halt l ..
    | .subTickBoundary l .. | .load l .. | .glazeChecksDone l .. | .update l .. | .updateVerified l .. | .cancel l .. | .keyUnlock l ..
    | .prog1 l .. | .revoke0 l .. | .revoke1 l .. | .fuseOperationDone l .. | .stageFire l .. | .tokenArrival l .. | .creditReturn l ..
    | .granuleFetchDone l .. | .flashReadDone l .. | .dramScrubPass l .. | .dramRepairDone l .. | .rewrite l .. | .writeback l ..
    | .memRwDone l .. | .flashRefresh l .. | .sourceEnable l .. | .sourceDisable l .. | .sourceLinkLost l .. | .sourceItemTimeout l ..
    | .cameraPacket l .. | .cameraFrameDue l .. | .exposureTrigger l .. | .i2cGo l .. | .i2cDone l .. | .lidarDatagram l ..
    | .imuDataReady l .. | .spiTransactionDone l .. | .canFrameReceived l .. | .canBusRecovery l .. | .uartMessage l .. | .uartTx l ..
    | .uartByteSent l .. | .filtChannelEnable l .. | .filtSyncEdge l .. | .filtSyncTickReset l .. | .filtSyncArm l ..
    | .filtSyncCancel l .. | .egoPropagation l .. | .egoReset l .. | .visionJobStart l .. | .visionJobComplete l ..
    | .visionEngineReset l .. | .visionResetDone l .. | .projectionJob l .. | .fusionGridUpdate l .. | .drTimerExpiry l ..
    | .fusTblCommit l .. | .fusDemoteClear l .. | .fusTrkNextWrite l .. | .blindStart l .. | .specDecision l ..
    | .loopVerificationDone l .. | .lmkGo l .. | .lmkReadDone l .. | .queryAdmit l .. | .walkReadDone l .. | .queryComplete l ..
    | .queryDeadline l .. | .sideInsert l .. | .sideDelete l .. | .sideCmdDone l .. | .mergeGo l .. | .mergeAbort l .. | .mergeDone l ..
    | .swap l .. | .srchFwGo l .. | .srchFwDone l .. | .attach l .. | .attachDone l .. | .detach l .. | .solverJobStart l ..
    | .solverJobComplete l .. | .graphReq l .. | .assignStart l .. | .assignComplete l .. | .solverReset l .. | .solverResetDone l ..
    | .clutchRead l .. | .clutchWrite l .. | .opEvaluation l .. | .railSettled l .. | .vrail l .. | .peakEvaluation l ..
    | .tempSample l .. | .tripClear l .. | .coolantWrite l .. | .coolStale l .. | .regionSkew l .. | .sleepReq l ..
    | .sleepEntryDone l .. | .wake l .. | .wakeAlarm l .. | .wakeEventTimer l .. | .canBusWake l .. | .wkupEdge l .. | .wakeComplete l ..
    | .irqEoi l .. | .irqPendWrite l .. | .irqMaskWrite l .. | .irqTgtWrite l .. | .irqCoalesceTimeout l .. | .snap l ..
    | .snapshotDone l .. | .sqDoorbell l .. | .cqDoorbell l .. | .commandFetch l .. | .nop l .. | .search l .. | .copyIn l ..
    | .copyOut l .. | .abort l .. | .copyDone l .. | .queueEnable l .. | .queueDisable l .. | .holdDrain l .. | .bootPhaseDone l ..
    | .hostBootFetchDone l .. | .fwuGo l .. | .fwuDone l .. | .faultClear l .. | .clockFault l .. | .cfgParityScan l .. | .dramChan l ..
    | .hingeHeartbeat l .. | .hingeLost l .. | .fltInjKeyWrite l .. | .injectCreditSum l .. | .injectSramError l ..
    | .injectDigestBit l .. | .injectLinkCrc l .. | .injectCfgParity l .. | .lifetimeRecordWrite l .. | .dramReadDone l ..
    | .voltageCheck l .. | .linkUp l .. => some l
  | _ => none

/-- Rows of one leaf in which the hinge has a part of its own: host commands it confines, doorbells, boot. -/
def commandReachesHinge (c : Instr) : Bool :=
  match c with
  | .search .. | .copyIn .. | .copyOut .. | .copyDone .. | .sqDoorbell .. | .cqDoorbell .. | .bootPhaseDone .. | .hostBootFetchDone .. => true
  | _ => false

/-! ## How statements speak of a command -/

/-- Leaf l answers accesses and its blocks run: HINGE_LEAF_STAT.UP, out of reset, booted, in S0. -/
def State.ready (l : LeafId) (s : State) : Bool := s.hinge.up l && (s.leaf l).runs

/-- Command c, run at s, answers a next state, and that one is s1 but for what settling may change: s1 says what the command does, and
everything s1 has from s is the command's frame. -/
def Answers (c : Instr) (s s1 : State) : Prop := ∃ t, exec c s = .next t ∧ s1.Kept t

/-- Command c, run at s, answers a next state of which P holds. -/
def AnswersWith (c : Instr) (s : State) (P : State → Prop) : Prop := ∃ t, exec c s = .next t ∧ P t

end Sys2Proof.Machine
end

