-- ==== Sys2Proof/Certificates/Slice0/Obligations.lean ====
section
/-!
DEFINITION. The statements for the provers. A command's statement says that exec answers a next state and what that state is
(Answers: all of it but what settling may change; AnswersWith: a property of it).
-/
open Sys2Proof Sys2Proof.Machine

/-- With command c at the front of the queue, step is exec of c on the state with the rest of the queue; with no command waiting one local count passes in each leaf whose count runs and nothing else changes (the idle step is the model's choice, log entry 2). (95_what_each_step_holds.md, 19_host_interface.md) -/
def Obligations.StepRunsFrontCommand : Prop :=
  (∀ (s : State) (c : Instr) (rest : List Instr), s.pending = c :: rest → step s = exec c { s with pending := rest })
  ∧ (∀ s : State, s.pending = [] → step s = .next { s with
      leafA := if s.leafA.boot.pll then { s.leafA with count := s.leafA.count + 1 } else s.leafA
      leafB := if s.leafB.boot.pll then { s.leafB with count := s.leafB.count + 1 } else s.leafB })

/-- Every command of the table, run at any state with any operands, answers a next state whose queue of waiting commands is the one it was given: no command ends the run and none changes the queue. (95_what_each_step_holds.md, R525) -/
def Obligations.EveryCommandCompletesAndLeavesQueue : Prop :=
  ∀ (c : Instr) (s : State), ∃ t, exec c s = .next t ∧ t.pending = s.pending

/-- If every leaf out of reset asserts SAFE_N exactly while a condition of R532 holds, shows those conditions in FLT_STAT.SAFE_WHY and shows the locked mode in LEAF_STATUS.MIRROR, then so it is after a step. The bit layout of SAFE_WHY is Table 21.6's; that the pins follow within the same step is the model's choice (log entry 29). (R532, R25, R39) -/
def Obligations.EveryStepShowsSafeAndMirror : Prop :=
  ∀ s t : State, step s = .next t → s.Shown → t.Shown

/-- Right after power-on SAFE_N is asserted in both leaves and the invariant of EveryStepShowsSafeAndMirror holds. (R532, R509) -/
def Obligations.ResetShowsSafeAndMirror : Prop :=
  State.reset.Shown ∧ (∀ i, (State.reset.leaf i).flt.safeN = true)

/-- After every command each leaf has placed every completion record it had on its way (in its queue or in the hold) and handed every due message to the hinge. (R473, R497) -/
def Obligations.EveryCommandDrains : Prop :=
  ∀ (c : Instr) (s t : State), exec c s = .next t → ∀ i, (t.leaf i).host.toPlace = [] ∧ (t.leaf i).host.irqMsgs = []

/-- Right after power-on both leaves are in reset with empty memory and local count 0, every register reads its table value or its fuse value, the hinge reset is in force, the link is down, and no command waits. (That LAST_RST and the fuse values stand as they do is the model's choice, log entry 8.) (R12, R509, R518) -/
def Obligations.ResetLeavesReset : Prop :=
  (∀ i, (State.reset.leaf i).boot.held = true ∧ (State.reset.leaf i).dram = [] ∧ (State.reset.leaf i).count = 0
    ∧ (State.reset.leaf i).rd Reg.TICK_PERIOD = (regReset Reg.TICK_PERIOD).toNat
    ∧ (State.reset.leaf i).rd Reg.LEAF_STATUS = (regReset Reg.LEAF_STATUS).toNat
    ∧ (State.reset.leaf i).rd Reg.LEAF_ID = 0x94411000 + 128 + i.toNat
    ∧ State.reset.hinge.up i = false ∧ (State.reset.leaf i).ticking = false)
  ∧ State.reset.hinge.held = true ∧ State.reset.hinge.perst = true ∧ State.reset.hinge.bit Fld.HINGE_MODE_LOCKED = false
  ∧ State.reset.pending = []

/-- POWER_ON puts hinge and both leaves in reset and keeps only fuses, flash and firmware copies. RESET_N_LOW and undervoltage of a rail other than VDD_CORE do the same and keep the always-on domains too; while the hinge reset is in force they change nothing. RESET_N_RELEASE lets the leaves start boot phase 1. The cause code 2 and the requester IDs kept are the model's choices (log entries 39, 40). (R19, R509, R549, R556) -/
def Obligations.HingeResetCommands : Prop :=
  (∀ s : State, Answers .powerOn s { s with
      leafA := Leaf.inReset .A s.leafA.fuses {} s.leafA.flash s.leafA.boot.fw0 s.leafA.boot.fw1
      leafB := Leaf.inReset .B s.leafB.fuses {} s.leafB.flash s.leafB.boot.fw0 s.leafB.boot.fw1
      hinge := Hinge.inReset s.leafA.fuses.bootSrc s.leafB.fuses.bootSrc 0 })
  ∧ (∀ (s : State) (c : Instr) (n : Nat), (c, n) ∈ [(Instr.resetNLow, 1), (.railUndervoltage .vddIo18, 2), (.railUndervoltage .vddSram, 2),
        (.railUndervoltage .vddqDram, 2), (.railUndervoltage .vccFlash, 2), (.railUndervoltage .vccqFlash, 2),
        (.railUndervoltage .vddPhy, 2)] →
      if s.hinge.held then Answers c s s
      else AnswersWith c s fun t =>
        t.hinge.held = true ∧ t.hinge.bit Fld.HINGE_MODE_LOCKED = false ∧ t.hinge.get Fld.HINGE_RST_STAT_CAUSE = n
        ∧ (∀ i, (t.leaf i).boot.held = true ∧ t.hinge.up i = false ∧ (t.leaf i).dram = [] ∧ (t.leaf i).tick = {} ∧ (t.leaf i).fab = {}
            ∧ (t.leaf i).fuses = (s.leaf i).fuses ∧ (t.leaf i).flash = (s.leaf i).flash
            ∧ (t.leaf i).aon.trkNext = (s.leaf i).aon.trkNext ∧ (t.leaf i).aon.training = (s.leaf i).aon.training))
  ∧ (∀ s : State, s.hinge.held = true → AnswersWith .resetNRelease s fun t =>
      t.hinge.held = false ∧ ∀ i, t.hinge.phase i = 1 ∧ (t.leaf i).boot.held = false)

/-- A leaf out of reset is reset: its blocks and memory are as after reset, fuses and flash stay, UP reads 0, LAST_RST shows the cause and boot phase 1 runs. While comparison is not active the other leaf is untouched. (R19, R20, R513, R529, R549, Table 1.15) -/
def Obligations.LeafResetCommands : Prop :=
  ∀ (s : State) (i : LeafId) (c : Instr) (cause : Nat), (s.leaf i).boot.held = false →
    ((∃ w, c = (match i with | .A => Instr.rstA w | .B => Instr.rstB w) ∧ cause = 1 ∧ s.hinge.held = false
        ∧ (match i with | .A => bitOf w.toNat 1 = false | .B => bitOf w.toNat 0 = false))
      ∨ (c = .lockstep i ∧ cause = 2 ∧ (s.leaf i).sleep = 0) ∨ (∃ n, c = .watchdog i n ∧ cause = 3 ∧ (s.leaf i).sleep = 0)
      ∨ (c = .railUndervoltage (.vddCore i) ∧ cause = 4)) →
    AnswersWith c s fun t =>
      t.hinge.up i = false ∧ t.hinge.phase i = 1
      ∧ (match i with | .A => t.hinge.get Fld.HINGE_LEAF_STAT_LAST_RST_A | .B => t.hinge.get Fld.HINGE_LEAF_STAT_LAST_RST_B) = cause
      ∧ (t.leaf i).dram = [] ∧ (t.leaf i).tick = {} ∧ (t.leaf i).fab = {} ∧ (t.leaf i).mem = {} ∧ (t.leaf i).count = 0
      ∧ (t.leaf i).fuses = (s.leaf i).fuses ∧ (t.leaf i).flash = (s.leaf i).flash
      ∧ (t.leaf i).boot = { fw0 := (s.leaf i).boot.fw0, fw1 := (s.leaf i).boot.fw1, held := false }
      ∧ (s.hinge.active = false → (s.leaf i.other).Kept (t.leaf i.other))

/-- A reset request for a leaf whose reset is asserted changes nothing, so LAST_RST keeps its cause. A write of HINGE_LEAF_CTRL with both bits set resets both leaves, each with cause 1. (R23) -/
def Obligations.ResetRequestInReset : Prop :=
  (∀ (s : State) (i : LeafId), (s.leaf i).boot.held = true →
    (∀ w, (match i with | .A => bitOf w.toNat 1 = false | .B => bitOf w.toNat 0 = false) →
      Answers (match i with | .A => .rstA w | .B => .rstB w) s s)
    ∧ Answers (.lockstep i) s s ∧ (∀ c, Answers (.watchdog i c) s (s.onLeaf i fun x => x.adv c)) ∧ Answers (.railUndervoltage (.vddCore i)) s s)
  ∧ (∀ (s : State) (w : Word), s.hinge.held = false → s.leafA.boot.held = false → s.leafB.boot.held = false → bitOf w.toNat 1 = true →
      AnswersWith (.rstA w) s fun t =>
        t.hinge.get Fld.HINGE_LEAF_STAT_LAST_RST_A = 1 ∧ t.hinge.get Fld.HINGE_LEAF_STAT_LAST_RST_B = 1
        ∧ ∀ i, t.hinge.up i = false ∧ (t.leaf i).dram = [] ∧ (t.leaf i).tick = {} ∧ t.hinge.phase i = 1)

/-- An error-free phase moves PHASE on, phase 1 starting the local count at 0 and phase 6 setting UP; a failed phase shows its code and PHASE 0xF. GO in host wait starts the fetch; a fetch that fails or is not authentic leaves an error code and host wait; an authentic image goes to phase 6. FWU_GO refuses an image over 32 MiB with INVALID; FWU_DONE replaces the named copy. (R513, R514, R516, R517, R520, R521, R524) -/
def Obligations.BootCommands : Prop :=
  (∀ (s : State) (l : LeafId) (c us : Nat), (s.leaf l).boot.held = false →
    (∀ p ∈ [1, 2, 3, 4], s.hinge.phase l = p → AnswersWith (.bootPhaseDone l c us .ok) s fun t =>
      t.hinge.phase l = p + 1 ∧ t.hinge.up l = s.hinge.up l ∧ (p = 1 → (t.leaf l).boot.pll = true ∧ (t.leaf l).count = 0))
    ∧ (s.hinge.phase l = 6 → ∀ b f, (s.leaf l).boot.booting = some (b, f) → AnswersWith (.bootPhaseDone l c us .ok) s fun t =>
      t.hinge.up l = true ∧ t.hinge.phase l = 7 ∧ (t.leaf l).flt.firstIdle = true)
    ∧ (∀ out p e, (out, p, e) ∈ [(BootOutcome.lockstepMismatch, 2, 1), (.dramTrain, 3, 2), (.mbist, 4, 3), (.lbist, 4, 4), (.initFailed, 6, 9)] →
      s.hinge.phase l = p → AnswersWith (.bootPhaseDone l c us out) s fun t =>
        t.hinge.phase l = 0xF ∧ t.hinge.get (Fld.HINGE_BOOT_STAT_ERR l.toNat) = e ∧ t.hinge.up l = s.hinge.up l))
  ∧ (∀ (s : State) (w : Word), s.hinge.held = false →
    (s.hinge.phase .A = 8 → bitOf w.toNat 1 = false →
      Answers (.goA w) s (s.onLeaf .A fun x => { x with boot := { x.boot with hostFetch := true } }))
    ∧ (s.hinge.phase .B = 8 → bitOf w.toNat 0 = false →
      Answers (.goB w) s (s.onLeaf .B fun x => { x with boot := { x.boot with hostFetch := true } })))
  ∧ (∀ (s : State) (l : LeafId) (im : List Byte), s.hinge.phase l = 8 → (s.leaf l).boot.hostFetch = true →
    AnswersWith (.hostBootFetchDone l true im) s (fun t =>
      t.hinge.phase l = 8 ∧ t.hinge.get (Fld.HINGE_BOOT_STAT_ERR l.toNat) = 8 ∧ (t.leaf l).boot.hostFetch = false)
    ∧ (fwAuthentic (s.leaf l).fuses.fwKeyHash (padTo (s.hinge.get Fld.HINGE_HBOOT_LEN_LEN) im) = true →
       (s.leaf l).fuses.minSvn ≤ (fwOf (padTo (s.hinge.get Fld.HINGE_HBOOT_LEN_LEN) im)).svn →
       AnswersWith (.hostBootFetchDone l false im) s fun t =>
         t.hinge.phase l = 6 ∧ (t.leaf l).boot.booting = some (2, fwOf (padTo (s.hinge.get Fld.HINGE_HBOOT_LEN_LEN) im))))
  ∧ (∀ (s : State) (l : LeafId), s.ready l = true →
    (∀ w, (s.leaf l).bit Fld.LEAF_FWU_STAT_BUSY = false → 2 ^ 25 < (s.leaf l).get Fld.LEAF_FWU_LEN_LEN →
      AnswersWith (.fwuGo l w) s fun t => (t.leaf l).get Fld.LEAF_FWU_STAT_STATUS = 0x0B ∧ (t.leaf l).bit Fld.LEAF_FWU_STAT_DONE = true
        ∧ (t.leaf l).boot = (s.leaf l).boot)
    ∧ (∀ copy f, (s.leaf l).boot.fwuPend = some (copy, f) → AnswersWith (.fwuDone l true) s fun t =>
        (if copy = 0 then (t.leaf l).boot.fw0 else (t.leaf l).boot.fw1) = f ∧ (t.leaf l).boot.fwuPend = none
        ∧ (t.leaf l).get Fld.LEAF_FWU_STAT_STATUS = 0 ∧ (t.leaf l).bit Fld.LEAF_FWU_STAT_BUSY = false))

/-- With LOCKED 0, a write of HINGE_MODE sets MODE to bit 0 and LOCKED to 1. With LOCKED 1 a write leaves both and sets LATE_WR if bit 1 is 0, clears it if bit 1 is 1. No step changes MODE or LOCKED of a locked hinge unless it puts the hinge in reset. (R24) -/
def Obligations.ModeSetOnceUntilHingeReset : Prop :=
  (∀ (s : State) (w : Word), s.hinge.held = false → AnswersWith (.hingeModeWrite w) s fun t =>
    t.hinge.bit Fld.HINGE_MODE_LOCKED = true
    ∧ (s.hinge.bit Fld.HINGE_MODE_LOCKED = false → t.hinge.bit Fld.HINGE_MODE_MODE = bitOf w.toNat 0
        ∧ t.hinge.bit Fld.HINGE_MODE_LATE_WR = s.hinge.bit Fld.HINGE_MODE_LATE_WR)
    ∧ (s.hinge.bit Fld.HINGE_MODE_LOCKED = true → t.hinge.bit Fld.HINGE_MODE_MODE = s.hinge.bit Fld.HINGE_MODE_MODE
        ∧ t.hinge.bit Fld.HINGE_MODE_LATE_WR = !bitOf w.toNat 1))
  ∧ (∀ s t : State, step s = .next t → s.hinge.bit Fld.HINGE_MODE_LOCKED = true →
      (t.hinge.bit Fld.HINGE_MODE_LOCKED = true ∧ t.hinge.bit Fld.HINGE_MODE_MODE = s.hinge.bit Fld.HINGE_MODE_MODE)
      ∨ (t.hinge.held = true ∧ t.hinge.bit Fld.HINGE_MODE_LOCKED = false ∧ t.hinge.bit Fld.HINGE_MODE_MODE = false))

/-- PERST_N resets the link and both functions and nothing in a leaf, and HINGE_MODE stays; its release ends that. FLR resets one function. A configuration write sets that function's state, a link change the link's; after either no held message is left that could be sent. (R489, R504, R505, R19) -/
def Obligations.LinkAndFunctionCommands : Prop :=
  (∀ s : State, AnswersWith .perstNAssert s fun t =>
    t.hinge.perst = true ∧ t.hinge.fn0 = {} ∧ t.hinge.fn1 = {} ∧ t.hinge.get Fld.HINGE_PCIE_LINK_SPEED = 0
    ∧ t.hinge.get Fld.HINGE_PCIE_LINK_WIDTH = 0 ∧ t.hinge.rd Reg.HINGE_MODE = s.hinge.rd Reg.HINGE_MODE ∧ ∀ i, (s.leaf i).Kept (t.leaf i))
  ∧ (∀ s : State, Answers .perstNRelease s (s.onHinge fun h => { h with perst := false }))
  ∧ (∀ (s : State) (fn : Nat), s.hinge.held = false → s.hinge.perst = false → fn < 2 →
      (AnswersWith (.flr fn) s fun t => t.hinge.fn fn = {} ∧ t.hinge.fn (1 - fn) = s.hinge.fn (1 - fn)
        ∧ (fn = 0 → t.hinge.apLog2 = 30) ∧ ∀ i, (s.leaf i).Kept (t.leaf i))
      ∧ (∀ op, AnswersWith (.pcieConfigWrite fn op) s fun t =>
          t.hinge.fn fn = (s.hinge.fn fn).config op ∧ t.hinge.fn (1 - fn) = s.hinge.fn (1 - fn)
          ∧ (t.hinge.linkOk = true → ∀ m ∈ t.hinge.heldMsgs, (t.hinge.fn m.1).canSend m.2 = false)
          ∧ ∀ i, (s.leaf i).Kept (t.leaf i)))
  ∧ (∀ (s : State) (speed width lstate : Nat), s.hinge.held = false → s.hinge.perst = false → speed ≤ 5 → width ≤ 8 → lstate ≤ 3 →
      AnswersWith (.linkStateChange speed width lstate) s fun t =>
        t.hinge.get Fld.HINGE_PCIE_LINK_SPEED = speed ∧ t.hinge.get Fld.HINGE_PCIE_LINK_WIDTH = width
        ∧ (lstate = 0 → t.hinge.wakeN = false)
        ∧ (t.hinge.linkOk = true → ∀ m ∈ t.hinge.heldMsgs, (t.hinge.fn m.1).canSend m.2 = false)
        ∧ ∀ i, (s.leaf i).Kept (t.leaf i))

/-- A PF0 read of an aligned word of a leaf's window while the leaf is not up completes with 0xFFFF_FFFF, a write changes nothing in the leaf, a doorbell write through an enabled PF1 window is dropped, and each counts in HINGE_LEAF_DROP. From a leaf's reset on, UP reads 0 until boot phase 6 ends. (R20, R513) -/
def Obligations.LeafWindowNotUp : Prop :=
  (∀ (s : State) (i : LeafId) (a : Nat), a < 0x4000000 → a % 4 = 0 → s.hinge.up i = false →
    (∀ w, Answers (.registerWrite (leafBase i + a) w) s (s.onHinge fun h => h.countDrop i))
    ∧ Answers (.registerRead (leafBase i + a)) s
        (s.onHinge fun h => { h.countDrop i with completion := { data := [0xFF, 0xFF, 0xFF, 0xFF], ep := false, abort := false } }))
  ∧ (∀ (s : State) (i : LeafId) (g k x : Nat) (bs : List Byte), g < 8 → k < 8 → (x = 0 ∨ x = 4) → bs.length = 4 →
      s.hinge.winOn (windowOf i g) = true → s.hinge.up i = false →
      Answers (.pf1WindowAccess (65536 * windowOf i g + 0x20 * k + x) (.write bs)) s (s.onHinge fun h => h.countDrop i))
  ∧ (∀ (s t : State) (i : LeafId), step s = .next t → s.hinge.up i = false → t.hinge.up i = true →
      s.hinge.phase i = 6 ∧ t.hinge.phase i = 7)

/-- Writing w to a field that holds v: RW, RWH and WO take the written bits; W1C clears the bits written 1 and keeps the others; RO and WS keep v. Bits outside the field stay. A WO or WS field and the bits that no field lists read 0. (R10, R9) -/
def Obligations.AccessTypes : Prop :=
  (∀ (f : RegField) (w v i : Nat), f.lo ≤ f.hi → (f.write w v).testBit i =
    if f.lo ≤ i ∧ i ≤ f.hi then
      (match f.acc with
        | .RW | .RWH | .WO => w.testBit i
        | .W1C => v.testBit i && !w.testBit i
        | .RO | .WS => v.testBit i)
    else v.testBit i)
  ∧ (∀ (r : RegRow) (f : RegField) (v : Nat), r.fields = [f] →
      r.read v = if f.acc = .WO ∨ f.acc = .WS then 0 else bitsOf v f.hi f.lo * 2 ^ f.lo)

/-- A write of a plain register of the ego-motion block sets its fields by access type and does nothing else; a read of the block returns its fields and changes nothing; an address without a register reads 0 and ignores writes; an access that is not word-aligned reaches nothing. A read of an IRQ_PEND word empties its set-since-read mask. (R9, R10, R40, R267, R476) -/
def Obligations.RegisterReadAndWrite : Prop :=
  (∀ (s : State) (i : LeafId) (a : Nat) (w : Word), s.ready i = true → a % 4 = 0 → a / 2 ^ 20 = 9 → a ≠ Reg.EGO_CTRL →
    Answers (.registerWrite (leafBase i + a) w) s (s.onLeaf i fun x =>
      match regAt a with
      | none => x
      | some r => x.wr a (r.1.write w.toNat (x.rd a))))
  ∧ (∀ (s : State) (i : LeafId) (a : Nat), s.ready i = true → a % 4 = 0 → a / 2 ^ 20 = 9 →
    Answers (.registerRead (leafBase i + a)) s (s.onHinge fun h => { h with completion :=
      { data := leBytes 4 (match regAt a with | none => 0 | some r => r.1.read ((s.leaf i).rd a)), ep := false, abort := false } }))
  ∧ (∀ (s : State) (addr : Nat) (w : Word), addr % 4 ≠ 0 → Answers (.registerWrite addr w) s s ∧ Answers (.registerRead addr) s s)
  ∧ (∀ (s : State) (i : LeafId) (n : Nat), s.ready i = true → n < 16 → AnswersWith (.registerRead (leafBase i + Reg.IRQ_PEND n)) s fun t =>
      t.hinge.completion.data = leBytes 4 ((s.leaf i).rd (Reg.IRQ_PEND n)))

/-- An aperture write inside software's DRAM and outside the cache partition stores its bytes there, and every other byte of memory reads as before; a read returns the bytes. An access that passes the end of software's range is refused and counted. Through an enabled PF1 window the tail doorbell of a pair is written; through a disabled one the access is refused and counted. (R491, R492, R493, R506, R192) -/
def Obligations.ApertureAndWindows : Prop :=
  (∀ (s : State) (o : Nat) (bs : List Byte) (out : WordOutcome), o < 2 ^ s.hinge.apLog2 →
    (s.hinge.apTarget o).2 + bs.length ≤ softEnd → s.ready (s.hinge.apTarget o).1 = true →
    (s.leaf (s.hinge.apTarget o).1).touchesCache (s.hinge.apTarget o).2 bs.length = false →
    (s.leaf (s.hinge.apTarget o).1).host.toPlace = [] →
    AnswersWith (.apertureAccess o (.write bs) out) s fun t =>
      (t.leaf (s.hinge.apTarget o).1).dramRead (s.hinge.apTarget o).2 bs.length = bs
      ∧ (∀ x, x < (s.hinge.apTarget o).2 ∨ (s.hinge.apTarget o).2 + bs.length ≤ x →
          (t.leaf (s.hinge.apTarget o).1).dramByte x = (s.leaf (s.hinge.apTarget o).1).dramByte x))
  ∧ (∀ (s : State) (o n : Nat), o < 2 ^ s.hinge.apLog2 →
    (softEnd < (s.hinge.apTarget o).2 + n → AnswersWith (.apertureAccess o (.read n) .clean) s fun t =>
      t.hinge.completion.abort = true ∧ t.hinge.get Fld.HINGE_VIOL_CNT_COUNT = (s.hinge.get Fld.HINGE_VIOL_CNT_COUNT + 1) % 2 ^ 32)
    ∧ ((s.hinge.apTarget o).2 + n ≤ softEnd → s.ready (s.hinge.apTarget o).1 = true →
      AnswersWith (.apertureAccess o (.read n) .clean) s fun t =>
        t.hinge.completion.data = (s.leaf (s.hinge.apTarget o).1).dramRead (s.hinge.apTarget o).2 n ∧ t.hinge.completion.abort = false))
  ∧ (∀ (s : State) (i : LeafId) (g k : Nat) (bs : List Byte), g < 8 → k < 8 → bs.length = 4 → s.ready i = true →
      s.hinge.winOn (windowOf i g) = true → (s.leaf i).sqBad (8 * g + k) (leNat bs % 4096) = false →
      Answers (.pf1WindowAccess (65536 * windowOf i g + 0x20 * k) (.write bs)) s
        (s.onLeaf i fun x => x.put (Fld.LEAF_Q_SQDB_TAIL (8 * g + k)) (leNat bs % 4096)))
  ∧ (∀ (s : State) (i : LeafId) (g x : Nat) (bs : List Byte), g < 8 → x < 65536 → x % 4 = 0 → bs.length = 4 →
      s.hinge.winOn (windowOf i g) = false →
      AnswersWith (.pf1WindowAccess (65536 * windowOf i g + x) (.write bs)) s fun t =>
        t.hinge.get Fld.HINGE_VIOL_CNT_COUNT = (s.hinge.get Fld.HINGE_VIOL_CNT_COUNT + 1) % 2 ^ 32 ∧ ∀ j, (s.leaf j).Kept (t.leaf j))

/-- While comparison is ACTIVE the first stamp or digest of a pair waits at the hinge; equal digests end the pair, different ones raise DIGEST; a stamp or digest without partner raises UNPAIRED or MISSING; each fault counts, and the first one's cause is logged. REARM after SINGLE lets comparison start again. Writing FAULT clears the log and releases SAFE_N in both leaves. Writing VALID clears the violation log. (R29, R30, R31, R34, R36, R38, R39, Table 1.4, R506) -/
def Obligations.AgreementCommands : Prop :=
  (∀ (s : State) (l : LeafId) (m : StampMsg) (q : List StampMsg), (s.leaf l).sns.outStamps = m :: q → s.hinge.active = true →
    s.hinge.agree.stampPartner l m = none →
    Answers (.stampToHinge l) s ((s.onLeaf l fun x => { x with sns := { x.sns with outStamps := q } }).onHinge fun h =>
      { h with agree := { h.agree with stamps := h.agree.stamps ++ [(l, m)] } }))
  ∧ (∀ (s : State) (l : LeafId) (m p : StampMsg) (q : List StampMsg), (s.leaf l).sns.outStamps = m :: q → s.hinge.active = true →
    s.hinge.agree.stampPartner l m = some p → AnswersWith (.stampToHinge l) s fun t =>
      t.hinge.agree.stamps = s.hinge.agree.stamps.filter fun e => !(e.2.src == m.src && e.2.seq == m.seq))
  ∧ (∀ (s : State) (l : LeafId) (src seq : Nat) (vt : Nat), (l, (⟨src, seq, vt⟩ : StampMsg)) ∈ s.hinge.agree.stamps →
    AnswersWith (.stampUnpaired l src seq) s fun t =>
      t.hinge.get Fld.HINGE_AGREE_CNT_COUNT = (s.hinge.get Fld.HINGE_AGREE_CNT_COUNT + 1) % 2 ^ 32 ∧ t.hinge.bit Fld.HINGE_AGREE_STAT_FAULT = true
      ∧ (s.hinge.bit Fld.HINGE_AGREE_STAT_FAULT = false → t.hinge.get Fld.HINGE_AGREE_STAT_CAUSE = 4))
  ∧ (∀ (s : State) (l : LeafId) (m : DigestMsg) (q : List DigestMsg), (s.leaf l).tick.outDigests = m :: q → s.hinge.active = true →
      s.hinge.agree.startTick ≤ m.tick →
      (s.hinge.agree.partner l m = none → Answers (.digestToHinge l) s ((s.onLeaf l fun x => { x with tick := { x.tick with outDigests := q } }).onHinge
        fun h => { h with agree := { h.agree with digests := h.agree.digests ++ [(l, m)] } }))
      ∧ (∀ p id, s.hinge.agree.partner l m = some p → m.id = some id →
          (p.digest = m.digest → Answers (.digestToHinge l) s ((s.onLeaf l fun x => { x with tick := { x.tick with outDigests := q } }).onHinge
            fun h => { h with agree := h.agree.dropDigests m.tick m.id }))
          ∧ (p.digest ≠ m.digest → AnswersWith (.digestToHinge l) s fun t =>
              t.hinge.bit Fld.HINGE_AGREE_STAT_FAULT = true
              ∧ (s.hinge.bit Fld.HINGE_AGREE_STAT_FAULT = false → t.hinge.get Fld.HINGE_AGREE_STAT_CAUSE = 1
                  ∧ t.hinge.rd Reg.HINGE_AGREE_STAGE = id % 2 ^ 16))))
  ∧ (∀ (s : State) (l : LeafId) (m p : DigestMsg) (q : List DigestMsg), (s.leaf l).tick.outDigests = m :: q → s.hinge.active = true →
      s.hinge.agree.startTick ≤ m.tick → s.hinge.agree.partner l m = some p → m.id = none →
      (p.digest ≠ m.digest ∨ m.locked = false ∨ p.locked = false) → AnswersWith (.digestToHinge l) s fun t =>
        t.hinge.bit Fld.HINGE_AGREE_STAT_FAULT = true
        ∧ (s.hinge.bit Fld.HINGE_AGREE_STAT_FAULT = false → t.hinge.get Fld.HINGE_AGREE_STAT_CAUSE = 6))
  ∧ (∀ (s : State) (l : LeafId) (m : DigestMsg), (l, m) ∈ s.hinge.agree.digests → AnswersWith (.digestMissing l m.tick m.id) s fun t =>
      t.hinge.bit Fld.HINGE_AGREE_STAT_FAULT = true
      ∧ (s.hinge.bit Fld.HINGE_AGREE_STAT_FAULT = false → t.hinge.get Fld.HINGE_AGREE_STAT_CAUSE = 2))
  ∧ (∀ (s : State) (w : Word), s.hinge.held = false →
      (s.hinge.bit Fld.HINGE_AGREE_STAT_SINGLE = true →
        Answers (.rearm w) s (s.onHinge fun h => { h with agree := { h.agree with mayStart := true } }))
      ∧ (AnswersWith (.agreeFaultClear w) s fun t => t.hinge.bit Fld.HINGE_AGREE_STAT_FAULT = false ∧ t.hinge.get Fld.HINGE_AGREE_STAT_CAUSE = 0
          ∧ ∀ i, (t.leaf i).flt.agreeHold = false)
      ∧ (AnswersWith (.violLogClear w) s fun t => t.hinge.bit Fld.HINGE_VIOL_STAT_VALID = false
          ∧ t.hinge.rd Reg.HINGE_VIOL_ADDR_LO = s.hinge.rd Reg.HINGE_VIOL_ADDR_LO ∧ ∀ i, (s.leaf i).Kept (t.leaf i)))

/-- A FIRE that names a leaf that is GLAZED, HALTED or TICKING sets PENDING and schedules the pulse in the middle of a tick, at the first such instant at least TICK_PERIOD later. CANCEL takes it back. The pulse, when due, drives BARRIER_OUT and clears PENDING; the pin returns when its width has passed. Each edge counts and sets SEEN. (R87, R438, R439, R440, R74) -/
def Obligations.BarrierCommands : Prop :=
  (∀ (s : State) (w : Word) (i : LeafId), s.hinge.held = false → bitOf w.toNat 30 = false → s.hinge.bit Fld.HINGE_BAR_STAT_PENDING = false →
    (bitsOf w.toNat Fld.HINGE_BAR_CTRL_SRC.hi Fld.HINGE_BAR_CTRL_SRC.lo = i.toNat) → s.hinge.up i = true →
    ((s.leaf i).state = 3 ∨ (s.leaf i).state = 4 ∨ (s.leaf i).state = 5) → (s.leaf i).rd Reg.TICK_PERIOD ≠ 0 →
    AnswersWith (.barFire w) s fun t => t.hinge.bit Fld.HINGE_BAR_STAT_PENDING = true ∧ t.hinge.barrier.fireLeaf = i
      ∧ ∃ k, t.hinge.barrier.fireAt = some (k * (s.leaf i).rd Reg.TICK_PERIOD + (s.leaf i).rd Reg.TICK_PERIOD / 2)
        ∧ (s.leaf i).now + 65536 * (s.leaf i).rd Reg.TICK_PERIOD ≤ 65536 * (k * (s.leaf i).rd Reg.TICK_PERIOD + (s.leaf i).rd Reg.TICK_PERIOD / 2)
        ∧ (1 ≤ k → 65536 * ((k - 1) * (s.leaf i).rd Reg.TICK_PERIOD + (s.leaf i).rd Reg.TICK_PERIOD / 2)
            < (s.leaf i).now + 65536 * (s.leaf i).rd Reg.TICK_PERIOD))
  ∧ (∀ (s : State) (w : Word), s.hinge.held = false → bitOf w.toNat 31 = false → AnswersWith (.barrierCancel w) s fun t =>
      t.hinge.barrier.fireAt = none ∧ t.hinge.bit Fld.HINGE_BAR_STAT_PENDING = false ∧ t.hinge.barrier.out = s.hinge.barrier.out)
  ∧ (∀ (s : State) (c at' : Nat), s.hinge.barrier.fireAt = some at' → 65536 * at' ≤ ((s.leaf s.hinge.barrier.fireLeaf).adv c).now →
      AnswersWith (.barrierOutPulse c) s fun t => t.hinge.barrier.out = true ∧ t.hinge.barrier.fireAt = none
        ∧ t.hinge.bit Fld.HINGE_BAR_STAT_PENDING = false)
  ∧ (∀ (s : State) (c e : Nat), s.hinge.barrier.outEnd = some e → e ≤ ((s.leaf s.hinge.barrier.fireLeaf).adv c).now →
      Answers (.pulseEnd .barrierOut c) s ((s.onLeaf s.hinge.barrier.fireLeaf fun x => x.adv c).onHinge fun h =>
        { h with barrier := { h.barrier with out := false, outEnd := none } }))
  ∧ (∀ (s : State) (ca cb : Nat), s.hinge.held = false → AnswersWith (.barrierInEdge ca cb) s fun t =>
      t.hinge.get Fld.HINGE_BAR_CNT_COUNT = (s.hinge.get Fld.HINGE_BAR_CNT_COUNT + 1) % 2 ^ 32 ∧ t.hinge.bit Fld.HINGE_BAR_STAT_SEEN = true
      ∧ ∀ i, (t.leaf i).bit Fld.TICK_STAT_BARRIER_WAIT = false)

/-- With a rate within 500 ppm, RATE moves the origin to now at the clock's own time and takes the new rate; STEP adds the written signed offset modulo 2^80; SET on a domain that no ticking leaf follows makes the clock read the written offset. A bad rate, and SET on the followed domain of a ticking leaf, set REFUSED and leave the clock as it was. (R49, R50, R51, R52) -/
def Obligations.DomainCommits : Prop :=
  ∀ (s : State) (l : LeafId) (d : Nat), s.ready l = true → d < 2 →
    (rateBad ((s.leaf l).writtenRate d) = false → AnswersWith (.domRate l d) s fun t =>
      ((t.leaf l).time.dom d).originQ16 = ((s.leaf l).time.dom d).time (s.leaf l).count
      ∧ ((t.leaf l).time.dom d).originCount = (s.leaf l).count ∧ ((t.leaf l).time.dom d).rateQ40 = (s.leaf l).writtenRate d)
    ∧ (rateBad ((s.leaf l).writtenRate d) = true → ∀ c ∈ [Instr.domRate l d, .domStep l d, .domSet l d], AnswersWith c s fun t =>
      (t.leaf l).time.dom d = (s.leaf l).time.dom d ∧ (t.leaf l).bit (Fld.TIME_D_STAT_REFUSED d) = true)
    ∧ (rateBad ((s.leaf l).writtenRate d) = false → (s.leaf l).followedTicking d = false → AnswersWith (.domStep l d) s fun t =>
      (((t.leaf l).time.dom d).originQ16 : Int)
        = ((((s.leaf l).time.dom d).time (s.leaf l).count : Int) + signedOf 80 ((s.leaf l).writtenOfs d)) % 2 ^ 80
      ∧ ((t.leaf l).time.dom d).originCount = (s.leaf l).count)
    ∧ (rateBad ((s.leaf l).writtenRate d) = false → (s.leaf l).followedTicking d = false → AnswersWith (.domSet l d) s fun t =>
      ((t.leaf l).time.dom d).time (s.leaf l).count = (s.leaf l).writtenOfs d)
    ∧ ((s.leaf l).followedTicking d = true → AnswersWith (.domSet l d) s fun t =>
      (t.leaf l).time.dom d = (s.leaf l).time.dom d ∧ (t.leaf l).bit (Fld.TIME_D_STAT_REFUSED d) = true)

/-- A write of SEL that names the other, healthy domain within range makes vehicle time follow it and counts; one that names an unhealthy domain is refused and SEL returns. The automatic switch does the same when it is called for. BRIDGE_SLEW_END keeps the offset reached by then. A sync timeout sets LOST; writing PATH_SUSPECT clears it. CAP captures the local count and vehicle time; a PPS edge of at least 100 ns is captured and counted, a shorter one ignored. (R54, R56, R57, R58, R62, R77, R79) -/
def Obligations.VehicleTimeCommands : Prop :=
  (∀ (s : State) (l : LeafId) (w : Word), s.ready l = true →
    (bitsOf w.toNat 0 0 ≠ (s.leaf l).follow → (s.leaf l).healthy (bitsOf w.toNat 0 0) = true →
      bridgeBad (((s.leaf l).rebaseBridge.swWrite Reg.TIME_VT_CTRL w.toNat).switchBridge (bitsOf w.toNat 0 0)) = false →
      AnswersWith (.vtSelWrite l w) s fun t => (t.leaf l).follow = bitsOf w.toNat 0 0
        ∧ (t.leaf l).get Fld.TIME_SWITCH_CNT_COUNT = ((s.leaf l).get Fld.TIME_SWITCH_CNT_COUNT + 1) % 2 ^ 32)
    ∧ (bitsOf w.toNat 0 0 ≠ (s.leaf l).follow → (s.leaf l).healthy (bitsOf w.toNat 0 0) = false →
      AnswersWith (.vtSelWrite l w) s fun t => (t.leaf l).follow = (s.leaf l).follow
        ∧ (t.leaf l).get Fld.TIME_VT_CTRL_SEL = (s.leaf l).follow ∧ (t.leaf l).bit Fld.TIME_VT_STAT_SEL_REFUSED = true))
  ∧ (∀ (s : State) (l : LeafId) (c : Nat), s.ready l = true →
    (((s.leaf l).adv c).autoCalls = true → bridgeBad (((s.leaf l).adv c).switchBridge (1 - (s.leaf l).follow)) = false →
      AnswersWith (.vtAutoSwitch l c) s fun t => (t.leaf l).follow = 1 - (s.leaf l).follow)
    ∧ Answers (.bridgeSlewEnd l c) s (s.onLeaf l fun x => { x.adv c with time := { (x.adv c).time with
        bridge := (x.adv c).bridgeAt (x.adv c).count, bridgeAt := (x.adv c).count } })
    ∧ (∀ d, d < 2 → ((s.leaf l).adv c).syncLate d = true →
        Answers (.syncTimeout l d c) s (s.onLeaf l fun x => (x.adv c).putB (Fld.TIME_D_STAT_LOST d) true)))
  ∧ (∀ (s : State) (l : LeafId) (d : Nat) (w : Word), s.ready l = true → d < 2 → AnswersWith (.pathSuspectClear l d w) s fun t =>
      (t.leaf l).bit (Fld.TIME_D_STAT_PATH_SUSPECT d) = false)
  ∧ (∀ (s : State) (l : LeafId), s.ready l = true → AnswersWith (.cap l) s fun t =>
      (t.leaf l).rd Reg.TIME_CAP_CNT_LO = (s.leaf l).count % 2 ^ 32 ∧ (t.leaf l).rd Reg.TIME_CAP_CNT_HI = (s.leaf l).count / 2 ^ 32 % 2 ^ 32
      ∧ (t.leaf l).rd Reg.TIME_CAP_VT_LO = (s.leaf l).now / 2 ^ 16 % 2 ^ 32)
  ∧ (∀ (s : State) (l : LeafId) (c8 ns : Nat) (falling : Bool), s.ready l = true → (s.leaf l).bit Fld.TIME_PPS_CFG_ENABLE = true →
      (s.leaf l).bit Fld.TIME_PPS_CFG_EDGE = falling →
      (100 ≤ ns → AnswersWith (.ppsEdge l falling c8 ns) s fun t => (t.leaf l).rd Reg.TIME_PPS_CNT_LO = c8 / 8 % 2 ^ 32
        ∧ (t.leaf l).get Fld.TIME_PPS_SEQ_COUNT = ((s.leaf l).get Fld.TIME_PPS_SEQ_COUNT + 1)
            % 2 ^ (Fld.TIME_PPS_SEQ_COUNT.hi + 1 - Fld.TIME_PPS_SEQ_COUNT.lo))
      ∧ (ns < 100 → Answers (.ppsEdge l falling c8 ns) s (s.onLeaf l fun x => x.adv (c8 / 8))))

/-- A Sync on the slave port of a domain ends LOST and restarts its timeout; a two-step one waits for its Follow_Up, which then ends the wait. A Pdelay_Req is answered with the response and its follow-up; the response and its follow-up to our own request are taken; PDELAY_INITIATE sends a request with the next sequence number. (R56, R59, R64, R70) -/
def Obligations.GptpCommands : Prop :=
  (∀ (s : State) (l : LeafId) (port c8 d : Nat) (f : List Byte) (eg : List (Nat × Nat)), s.ready l = true →
    ((s.leaf l).adv (c8 / 8)).takesPtp port [0] f = true → (s.leaf l).slaveDomain port (ptpDomain f) = some d →
    AnswersWith (.syncReceived l port c8 f eg) s fun t => (t.leaf l).bit (Fld.TIME_D_STAT_LOST d) = false
      ∧ ((t.leaf l).time.dom d).lastSync = some ((s.leaf l).adv (c8 / 8)).count
      ∧ (ptpTwoStep f = true → ∃ p, ((t.leaf l).time.dom d).pendSync = some p ∧ p.seqId = ptpSeq f ∧ p.ingress8 = c8 ∧ p.corr = ptpCorr f))
  ∧ (∀ (s : State) (l : LeafId) (port c8 d : Nat) (f : List Byte) (p : PendSync), s.ready l = true →
    ((s.leaf l).adv (c8 / 8)).takesPtp port [8] f = true → (s.leaf l).slaveDomain port (ptpDomain f) = some d →
    ((s.leaf l).time.dom d).pendSync = some p → p.seqId = ptpSeq f → c8 - p.ingress8 < 8 * countsOfMs 100 →
    AnswersWith (.followUpReceived l port c8 f) s fun t => ((t.leaf l).time.dom d).pendSync = none)
  ∧ (∀ (s : State) (l : LeafId) (port c8 e8 : Nat) (f : List Byte), s.ready l = true → port < (s.leaf l).sw.ports.length →
    ((s.leaf l).adv (c8 / 8)).takesPtp port [2, 3, 10] f = true →
    (ptpType f = 2 → AnswersWith (.pdelayMessageReceived l port c8 f e8) s fun t => (t.leaf l).sw.sent = (s.leaf l).sw.sent ++
      [.pdelayResp port (ptpSeq f) (localQ16 c8 - (s.leaf l).ingAsym port),
       .pdelayRespFollowUp port (ptpSeq f) (localQ16 e8 + (s.leaf l).egrAsym port)])
    ∧ (ptpType f = 3 → ((s.leaf l).port port).pd.reqSeq = some (ptpSeq f) → AnswersWith (.pdelayMessageReceived l port c8 f e8) s fun t =>
      ((t.leaf l).port port).pd.gotResp = true ∧ ((t.leaf l).port port).pd.t4 = localQ16 c8 - (s.leaf l).ingAsym port)
    ∧ (ptpType f = 10 → ((s.leaf l).port port).pd.reqSeq = some (ptpSeq f) → ((s.leaf l).port port).pd.gotResp = true →
      AnswersWith (.pdelayMessageReceived l port c8 f e8) s fun t =>
        ((t.leaf l).port port).pd.reqSeq = none ∧ ((t.leaf l).port port).pd.gotResp = false))
  ∧ (∀ (s : State) (l : LeafId) (port e8 : Nat), s.ready l = true → port < 5 → port < (s.leaf l).sw.ports.length →
    (s.leaf l).bit (Fld.SW_P_CFG_EN port) = true → AnswersWith (.pdelayInitiate l port e8) s fun t =>
      (t.leaf l).sw.sent = (s.leaf l).sw.sent ++ [.pdelayReq port ((s.leaf l).port port).pd.nextSeq]
      ∧ ((t.leaf l).port port).pd.reqSeq = some ((s.leaf l).port port).pd.nextSeq
      ∧ ((t.leaf l).port port).pd.nextSeq = (((s.leaf l).port port).pd.nextSeq + 1) % 65536)

/-- ARM of a single-shot trigger whose start is not past sets ARMED and schedules the start; DISARM takes it back; a due pulse of a single-shot trigger clears ARMED and starts the pulse, of a periodic one schedules the next instant; a register of a trigger that is not armed just takes its value; the pulse ends when its width has passed. (R73, R74, R75, R76, R103) -/
def Obligations.TriggerCommands : Prop :=
  ∀ (s : State) (l : LeafId) (n : Nat), s.ready l = true → n < 16 → n < (s.leaf l).time.trigs.length →
    (∀ w, bitOf w.toNat 30 = false → bitsOf w.toNat (Fld.TIME_TRIG_CTRL_MODE n).hi (Fld.TIME_TRIG_CTRL_MODE n).lo = 0 →
      ((s.leaf l).trig n).pulseEnd = none → (s.leaf l).now ≤ (s.leaf l).trigStart n → AnswersWith (.triggerArm l n w) s fun t =>
        (t.leaf l).bit (Fld.TIME_TRIG_CTRL_ARMED n) = true ∧ ((t.leaf l).trig n).nextAt = some ((s.leaf l).trigStart n)
        ∧ ((t.leaf l).trig n).single = true)
    ∧ (∀ w, bitOf w.toNat 31 = false → ((s.leaf l).trig n).pulseEnd = none → AnswersWith (.triggerDisarm l n w) s fun t =>
        (t.leaf l).bit (Fld.TIME_TRIG_CTRL_ARMED n) = false ∧ ((t.leaf l).trig n).nextAt = none)
    ∧ (∀ c at16, ((s.leaf l).trig n).nextAt = some at16 → at16 ≤ ((s.leaf l).adv c).now → ((s.leaf l).trig n).pulseEnd = none →
        AnswersWith (.triggerPulse l n c) s fun t => ((t.leaf l).trig n).pulseEnd.isSome = true
          ∧ (if ((s.leaf l).trig n).single then ((t.leaf l).trig n).nextAt = none ∧ (t.leaf l).bit (Fld.TIME_TRIG_CTRL_ARMED n) = false
             else ((t.leaf l).trig n).nextAt = some (at16 + (s.leaf l).trigPeriod n)))
    ∧ (∀ r w, ((s.leaf l).trig n).nextAt = none → Answers (.triggerReprogram l n r w) s
        (s.onLeaf l fun x => x.swWrite (trigRegAddr n r) w.toNat))
    ∧ (∀ c e, ((s.leaf l).trig n).pulseEnd = some e → e ≤ ((s.leaf l).adv c).count → ((s.leaf l).trig n).rearm = false →
        AnswersWith (.pulseEnd (.gtrig l n) c) s fun t => ((t.leaf l).trig n).pulseEnd = none)
    ∧ (∀ c e, (s.leaf l).tick.outEnd = some e → e ≤ ((s.leaf l).adv c).now → Answers (.pulseEnd (.tickOut l) c) s
        (s.onLeaf l fun x => { x.adv c with tick := { (x.adv c).tick with outActive := false, outEnd := none } }))

/-- A frame with a bad FCS leaves the switch as it was. A good one from an unknown source is learned on its port when an entry is free; one for a single port with room joins the end of its class queue there. FRAME_TRANSMIT takes the first frame of the highest class that may send and occupies the port. A dynamic entry not seen for AGE_S is removed. (R67, R68, R69, R71) -/
def Obligations.SwitchFrames : Prop :=
  (∀ (s : State) (l : LeafId) (p c8 : Nat) (f : List Byte), s.ready l = true →
    AnswersWith (.frameReceived l p c8 f false) s fun t => (t.leaf l).sw = (s.leaf l).sw ∧ (s.leaf l.other).Kept (t.leaf l.other))
  ∧ (∀ (s : State) (l : LeafId) (p c8 : Nat) (f : List Byte), s.ready l = true → p < 6 → (s.leaf l).bit (Fld.SW_P_CFG_EN p) = true →
    60 ≤ f.length → f.length ≤ 2044 → frameType f ≠ 0x88F7 →
    (s.leaf l).qciPass (frameDst f) ((s.leaf l).frameVid p f) ((s.leaf l).framePcp p f) = true →
    (∀ i, (s.leaf l).bit Fld.SW_CTRL_LEARN = true → frameSrc f / 2 ^ 40 % 2 = 0 →
      (s.leaf l).sw.fdbFind (frameSrc f) ((s.leaf l).frameVid p f) = none → (s.leaf l).sw.fdbFree (frameSrc f) ((s.leaf l).frameVid p f) = some i →
      AnswersWith (.frameReceived l p c8 f true) s fun t => alGet (t.leaf l).sw.fdb i =
        some { mac := frameSrc f, vid := (s.leaf l).frameVid p f, ports := 2 ^ p, static := false, seen := ((s.leaf l).adv (c8 / 8)).count })
    ∧ (∀ q, (s.leaf l).bit Fld.SW_CTRL_LEARN = false → (s.leaf l).egressPorts p (frameDst f) ((s.leaf l).frameVid p f) = [q] →
      q < (s.leaf l).sw.ports.length →
      (s.leaf l).classOf q ((s.leaf l).framePcp p f) < ((s.leaf l).port q).queues.length →
      ((((s.leaf l).port q).queues.getD ((s.leaf l).classOf q ((s.leaf l).framePcp p f)) []).map fun g => g.bytes.length + 4).sum
        ≤ Config.queueLimit q ((s.leaf l).classOf q ((s.leaf l).framePcp p f)) →
      (s.leaf l).packetBytes + f.length + 4 ≤ 2 ^ 21 →
      AnswersWith (.frameReceived l p c8 f true) s fun t =>
        ((t.leaf l).port q).queues.getD ((s.leaf l).classOf q ((s.leaf l).framePcp p f)) [] =
          ((s.leaf l).port q).queues.getD ((s.leaf l).classOf q ((s.leaf l).framePcp p f)) [] ++ [{ bytes := f, ingress8 := c8, port := p }]))
  ∧ (∀ (s : State) (l : LeafId) (p c k : Nat) (f : QFrame) (rest : List QFrame), s.ready l = true → p < 6 → p < (s.leaf l).sw.ports.length →
    (s.leaf l).bit (Fld.SW_P_CFG_EN p) = true → ((s.leaf l).port p).busyUntil ≤ ((s.leaf l).adv c).count →
    ((List.range 8).reverse).find? (fun t => ((s.leaf l).adv c).mayTx p t ((s.leaf l).adv c).count) = some k →
    k < ((s.leaf l).port p).queues.length → ((s.leaf l).port p).queues.getD k [] = f :: rest →
    AnswersWith (.frameTransmit l p c) s fun t => ((t.leaf l).port p).queues.getD k [] = rest
      ∧ ((s.leaf l).adv c).count ≤ ((t.leaf l).port p).busyUntil)
  ∧ (∀ (s : State) (l : LeafId) (i c : Nat) (e : FdbEntry), s.ready l = true → alGet (s.leaf l).sw.fdb i = some e → e.static = false →
    (s.leaf l).get Fld.SW_CTRL_AGE_S * countsOfMs 1000 ≤ ((s.leaf l).adv c).count - e.seen →
    Answers (.fdbAgeOut l i c) s (s.onLeaf l fun x => { x.adv c with sw := { (x.adv c).sw with fdb := alDel i (x.adv c).sw.fdb } }))

/-- A read puts the entry at INDEX into the FDB registers; a static write adds or replaces the entry of its MAC and VID, or sets FULL when no entry is free; a delete removes the entry of its MAC and VID; a flush removes every learned entry and keeps the static ones. (R69) -/
def Obligations.ForwardingTableCommands : Prop :=
  ∀ (s : State) (l : LeafId) (w : Word), s.ready l = true →
    (∀ e, alGet (s.leaf l).sw.fdb (bitsOf w.toNat Fld.SW_FDB_CMD_INDEX.hi Fld.SW_FDB_CMD_INDEX.lo) = some e → AnswersWith (.fdbRead l w) s fun t =>
      (t.leaf l).rd Reg.SW_FDB_MAC_LO = e.mac % 2 ^ 32 ∧ (t.leaf l).rd Reg.SW_FDB_MAC_HI2 = e.mac / 2 ^ 32 % 2 ^ 32
      ∧ (t.leaf l).sw.fdb = (s.leaf l).sw.fdb)
    ∧ ((s.leaf l).sw.fdbFind (s.leaf l).fdbMac ((s.leaf l).get Fld.SW_FDB_MAC_HI_VID) = none →
      (∀ i, (s.leaf l).sw.fdbFree (s.leaf l).fdbMac ((s.leaf l).get Fld.SW_FDB_MAC_HI_VID) = some i → AnswersWith (.fdbWriteStatic l w) s fun t =>
        alGet (t.leaf l).sw.fdb i = some ⟨(s.leaf l).fdbMac,
          (s.leaf l).get Fld.SW_FDB_MAC_HI_VID, (s.leaf l).get Fld.SW_FDB_MAC_HI_PORTS, true, (s.leaf l).count⟩
        ∧ (t.leaf l).bit Fld.SW_FDB_CMD_FULL = false)
      ∧ ((s.leaf l).sw.fdbFree (s.leaf l).fdbMac ((s.leaf l).get Fld.SW_FDB_MAC_HI_VID) = none → AnswersWith (.fdbWriteStatic l w) s fun t =>
        (t.leaf l).sw.fdb = (s.leaf l).sw.fdb ∧ (t.leaf l).bit Fld.SW_FDB_CMD_FULL = true))
    ∧ (∀ i, (s.leaf l).sw.fdbFind (s.leaf l).fdbMac ((s.leaf l).get Fld.SW_FDB_MAC_HI_VID) = some i → AnswersWith (.fdbDelete l w) s fun t =>
        (t.leaf l).sw.fdb = alDel i (s.leaf l).sw.fdb)
    ∧ (AnswersWith (.fdbFlushLearned l w) s fun t => (t.leaf l).sw.fdb = (s.leaf l).sw.fdb.filter fun e => e.2.static)

/-- A gate event sets the gates to what the running schedule says, all open with GATE_EN 0. CHANGE with a valid list makes it the pending schedule, with an invalid one sets CFG_ERR. A pending schedule whose start has come runs and CFG_PENDING clears. LINK_UP sets LOCK and GEAR of a receiver, or the link of a port. (R67, R71, R72, R230) -/
def Obligations.GateAndLinkCommands : Prop :=
  ∀ (s : State) (l : LeafId) (p : Nat), s.ready l = true → p < 6 → p < (s.leaf l).sw.ports.length →
    (∀ c, AnswersWith (.qbvGateEvent l p c) s fun t => ((t.leaf l).port p).gates =
      if (s.leaf l).bit (Fld.SW_P_QBV_CTRL_GATE_EN p) then ((s.leaf l).port p).oper.gatesAt ((s.leaf l).adv c).nowNs else 0xFF)
    ∧ (∀ w, ((s.leaf l).rd (Reg.SW_P_QBV_CYCLE p) < 1000 ∨ 1000000000 < (s.leaf l).rd (Reg.SW_P_QBV_CYCLE p)) →
      AnswersWith (.qbvChange l p w) s fun t => (t.leaf l).bit (Fld.SW_P_QBV_STAT_CFG_ERR p) = true
        ∧ ((t.leaf l).port p).admin = ((s.leaf l).port p).admin)
    ∧ (∀ (w : Word) (x : Leaf), x = (s.leaf l).swWrite (Reg.SW_P_QBV_CTRL p) (wordWith w (Fld.SW_P_QBV_CTRL_CHANGE p) 1) →
      (x.adminList p).isEmpty = false → (x.adminList p).length ≤ 256 → 1000 ≤ x.rd (Reg.SW_P_QBV_CYCLE p) →
      x.rd (Reg.SW_P_QBV_CYCLE p) ≤ 1000000000 → ((x.adminList p).map (·.2)).sum = x.rd (Reg.SW_P_QBV_CYCLE p) →
      AnswersWith (.qbvChange l p w) s fun t => (t.leaf l).bit (Fld.SW_P_QBV_STAT_CFG_PENDING p) = true
        ∧ ∃ g, ((t.leaf l).port p).admin = some g ∧ g.entries = x.adminList p ∧ g.cycle = x.rd (Reg.SW_P_QBV_CYCLE p))
    ∧ (∀ c g, ((s.leaf l).port p).admin = some g → g.startAt * 2 ^ 16 ≤ ((s.leaf l).adv c).now → AnswersWith (.qbvConfigTakeEffect l p c) s fun t =>
      ((t.leaf l).port p).oper = g ∧ ((t.leaf l).port p).admin = none ∧ (t.leaf l).bit (Fld.SW_P_QBV_STAT_CFG_PENDING p) = false)
    ∧ (AnswersWith (.linkUp l (.port p)) s fun t => ((t.leaf l).port p).link = true)
    ∧ (∀ gear, 1 ≤ gear → gear ≤ 5 → AnswersWith (.linkUp l (.camera p gear)) s fun t =>
      (t.leaf l).bit (Fld.SNS_CAM_STAT_LOCK p) = true ∧ (t.leaf l).get (Fld.SNS_CAM_STAT_GEAR p) = gear)

/-- START of a GLAZED or HALTED leaf with a legal configuration and no start pending, in a locked mode, waits for the barrier with BARRIER 1; otherwise it sets START_PEND and schedules the first boundary at the first multiple of TICK_PERIOD not before TICK_START and at least one period from now. Before the mode is locked the leaf waits in WAIT_MODE. A START while a load or update is BUSY is refused with CMD_REFUSED. HALT of a TICKING leaf makes the next boundary the halting one. (R86, R87, R88, R90, R129) -/
def Obligations.StartAndHalt : Prop :=
  (∀ (s : State) (l : LeafId) (w : Word) (p : Nat), s.ready l = true → bitOf w.toNat 30 = false → p = (s.leaf l).rd Reg.TICK_PERIOD →
    ((s.leaf l).state = 3 ∨ (s.leaf l).state = 5) → (s.leaf l).bit Fld.TICK_STAT_START_PEND = false →
    (s.leaf l).bit Fld.TICK_STAT_BARRIER_WAIT = false → (s.leaf l).tick.held = false → (s.leaf l).tickCfgOk = true →
    (s.leaf l).bit Fld.LEAF_GLZ_STAT_BUSY = false →
    (s.hinge.bit Fld.HINGE_MODE_LOCKED = false → AnswersWith (.start l w) s fun t =>
      (t.leaf l).bit Fld.LEAF_STATUS_WAIT_MODE = true ∧ (t.leaf l).tick.held = true ∧ (t.leaf l).tick.nextAt = (s.leaf l).tick.nextAt)
    ∧ (s.hinge.bit Fld.HINGE_MODE_LOCKED = true → bitsOf w.toNat Fld.TICK_CTRL_BARRIER.hi Fld.TICK_CTRL_BARRIER.lo = 1 →
      AnswersWith (.start l w) s fun t => (t.leaf l).bit Fld.TICK_STAT_BARRIER_WAIT = true ∧ (t.leaf l).tick.nextAt = (s.leaf l).tick.nextAt)
    ∧ (s.hinge.bit Fld.HINGE_MODE_LOCKED = true → bitsOf w.toNat Fld.TICK_CTRL_BARRIER.hi Fld.TICK_CTRL_BARRIER.lo = 0 →
      AnswersWith (.start l w) s fun t => (t.leaf l).bit Fld.TICK_STAT_START_PEND = true ∧ (t.leaf l).tick.first = true
        ∧ ∃ k, (t.leaf l).tick.nextAt = some (k * p)
          ∧ (s.leaf l).rd64 Reg.TICK_START_LO Reg.TICK_START_HI ≤ k * p ∧ (s.leaf l).now + 65536 * p ≤ 65536 * (k * p)
          ∧ (1 ≤ k → (k - 1) * p < (s.leaf l).rd64 Reg.TICK_START_LO Reg.TICK_START_HI ∨ 65536 * ((k - 1) * p) < (s.leaf l).now + 65536 * p)))
  ∧ (∀ (s : State) (l : LeafId) (w : Word), s.ready l = true → bitOf w.toNat 31 = true → bitOf w.toNat 30 = false →
      (s.leaf l).bit Fld.LEAF_GLZ_STAT_BUSY = true → AnswersWith (.start l w) s fun t =>
        (t.leaf l).bit Fld.TICK_STAT_CMD_REFUSED = true ∧ (t.leaf l).state = (s.leaf l).state ∧ (t.leaf l).tick.nextAt = (s.leaf l).tick.nextAt)
  ∧ (∀ (s : State) (l : LeafId) (w : Word), s.ready l = true → (s.leaf l).ticking = true → AnswersWith (.halt l w) s fun t =>
      (t.leaf l).tick.halt = true ∧ (t.leaf l).ticking = true ∧ (t.leaf l).tick.nextAt = (s.leaf l).tick.nextAt)

/-- A due boundary either schedules the next one a TICK_PERIOD later, or ends the ticking with the leaf HALTED or in FAULT. A first boundary that runs late ends it so. A boundary that is not due only advances the count. A sub-tick boundary shows its index and schedules the next. (R83, R90, R96, R97, R526) -/
def Obligations.Boundaries : Prop :=
  (∀ (s : State) (l : LeafId) (c at' : Nat) (late : Bool) (cmd : Instr), s.ready l = true → cmd = (if late then .boundLate l c else .tickBoundary l c) →
    (s.leaf l).tick.nextAt = some at' →
    (65536 * at' ≤ ((s.leaf l).adv c).now → ((s.leaf l).ticking = true ∨ (s.leaf l).bit Fld.TICK_STAT_START_PEND = true) →
      AnswersWith cmd s (fun t =>
        (t.leaf l).tick.nextAt = some (at' + (t.leaf l).rd Reg.TICK_PERIOD)
        ∨ ((t.leaf l).tick.nextAt = none ∧ ((t.leaf l).state = 5 ∨ (t.leaf l).state = 6)))
      ∧ (late = true → (s.leaf l).tick.first = true → AnswersWith cmd s fun t =>
        (t.leaf l).tick.nextAt = none ∧ ((t.leaf l).state = 5 ∨ (t.leaf l).state = 6)))
    ∧ (((s.leaf l).adv c).now < 65536 * at' → Answers cmd s (s.onLeaf l fun x => x.adv c)))
  ∧ (∀ (s : State) (l : LeafId) (c t0 sub : Nat), s.ready l = true → (s.leaf l).tickCfgOk = true → sub = (s.leaf l).subPeriod →
      t0 = ((s.leaf l).adv c).nowNs / sub * sub → (∀ x, (s.leaf l).tick.nextSub = some x → x ≤ t0) →
      ((s.leaf l).ticking = true → ∀ b, (s.leaf l).tick.nextAt = some b → t0 < b) →
      AnswersWith (.subTickBoundary l c) s fun t => (t.leaf l).tick.nextSub = some (t0 + sub)
        ∧ (t.leaf l).get Fld.TICK_SUBIDX_IDX = t0 % (s.leaf l).rd Reg.TICK_PERIOD / sub
            % 2 ^ (Fld.TICK_SUBIDX_IDX.hi + 1 - Fld.TICK_SUBIDX_IDX.lo))

/-- LOAD (in IDLE, GLAZED or HALTED) and UPDATE (in GLAZED, TICKING or HALTED), with none in progress or pending, set BUSY and stage a copy; in another state they end INVALID at once; one in progress or pending refuses them. A load whose checks fail ends with the failing row's status and detail and leaves the image alone, one whose checks pass makes the leaf GLAZED; a verified update of a ticking leaf waits as PENDING; CANCEL withdraws it. (R126, R128, R130, R132) -/
def Obligations.GlazingCommands : Prop :=
  ∀ (s : State) (l : LeafId), s.ready l = true →
    (∀ (w : Word) (c : Instr) (upd : Bool), bitOf w.toNat 29 = false →
      (c, upd) ∈ [(Instr.load l w, false)] ++ (if bitOf w.toNat 31 then [] else [(Instr.update l w, true)]) →
      ((s.leaf l).bit Fld.LEAF_GLZ_STAT_BUSY = false → (s.leaf l).bit Fld.LEAF_GLZ_STAT_PENDING = false →
        ((s.leaf l).state ∈ (if upd then [3, 4, 5] else [2, 3, 5]) → AnswersWith c s fun t =>
          (t.leaf l).bit Fld.LEAF_GLZ_STAT_BUSY = true ∧ (t.leaf l).glz.staged = some ((s.leaf l).stagedCopy upd)
          ∧ (t.leaf l).glz.image = (s.leaf l).glz.image)
        ∧ ((s.leaf l).state ∉ (if upd then [3, 4, 5] else [2, 3, 5]) → AnswersWith c s fun t =>
          (t.leaf l).get Fld.LEAF_GLZ_STAT_STATUS = 0x0B ∧ (t.leaf l).bit Fld.LEAF_GLZ_STAT_DONE = true ∧ (t.leaf l).glz = (s.leaf l).glz))
      ∧ (((s.leaf l).bit Fld.LEAF_GLZ_STAT_BUSY = true ∨ (s.leaf l).bit Fld.LEAF_GLZ_STAT_PENDING = true) →
        Answers c s (s.onLeaf l fun x => x.putB Fld.LEAF_GLZ_STAT_CMD_REFUSED true)))
    ∧ (∀ rs g f, (s.leaf l).glz.staged = some g → g.update = false → (s.leaf l).loadCheck g = some f →
      AnswersWith (.glazeChecksDone l rs) s fun t => (t.leaf l).glz.staged = none ∧ (t.leaf l).glz.image = (s.leaf l).glz.image
        ∧ (t.leaf l).bit Fld.LEAF_GLZ_STAT_BUSY = false ∧ (t.leaf l).bit Fld.LEAF_GLZ_STAT_DONE = true)
    ∧ (∀ rs g, (s.leaf l).glz.staged = some g → g.update = false → (s.leaf l).loadCheck g = none →
      AnswersWith (.glazeChecksDone l rs) s fun t => (t.leaf l).state = 3 ∧ (t.leaf l).get Fld.LEAF_GLZ_STAT_STATUS = 0
        ∧ (t.leaf l).bit Fld.LEAF_GLZ_STAT_BUSY = false ∧ (t.leaf l).bit Fld.LEAF_GLZ_STAT_DONE = true)
    ∧ (∀ g, (s.leaf l).glz.staged = some g → g.update = true → (s.leaf l).loadCheck g = none → g.missed = false → (s.leaf l).ticking = true →
      AnswersWith (.updateVerified l) s fun t => (t.leaf l).bit Fld.LEAF_GLZ_STAT_PENDING = true ∧ (t.leaf l).bit Fld.LEAF_GLZ_STAT_BUSY = false
        ∧ (t.leaf l).glz.pend.isSome = true ∧ (t.leaf l).glz.staged = none)
    ∧ (∀ w, (s.leaf l).bit Fld.LEAF_GLZ_STAT_PENDING = true → AnswersWith (.cancel l w) s fun t =>
        (t.leaf l).glz.pend = none ∧ (t.leaf l).bit Fld.LEAF_GLZ_STAT_PENDING = false ∧ (t.leaf l).get Fld.LEAF_GLZ_STAT_STATUS = 0
        ∧ (t.leaf l).bit Fld.LEAF_GLZ_STAT_DONE = true)

/-- KEY_UNLOCK keeps the word written. In IDLE, GLAZED or HALTED with no load or fuse operation in progress and the right key word just before, PROG1 on an empty slot and a revocation start the fuse operation and set FUSE_BUSY; with another key word they set KEY_REFUSED; either consumes the key. When the operation is done the fuses hold it and FUSE_BUSY clears. (R125) -/
def Obligations.KeyCommands : Prop :=
  ∀ (s : State) (l : LeafId), s.ready l = true →
    (∀ w, AnswersWith (.keyUnlock l w) s fun t => (t.leaf l).glz.unlock = some w.toNat ∧ (t.leaf l).fuses = (s.leaf l).fuses)
    ∧ (((s.leaf l).state = 2 ∨ (s.leaf l).state = 3 ∨ (s.leaf l).state = 5) → (s.leaf l).bit Fld.LEAF_GLZ_STAT_BUSY = false →
      (s.leaf l).glz.fuse = none → ∀ w : Word,
        ((s.leaf l).glz.unlock = some 0x474F5250 → (s.leaf l).fuses.present1 = false → AnswersWith (.prog1 l w) s fun t =>
          (t.leaf l).glz.fuse = some (.prog1 (s.leaf l).kprogHash) ∧ (t.leaf l).bit Fld.LEAF_GLZ_KCTL_FUSE_BUSY = true ∧ (t.leaf l).glz.unlock = none)
        ∧ ((s.leaf l).glz.unlock = some 0x4B564552 →
            (AnswersWith (.revoke0 l w) s fun t => (∃ r, (t.leaf l).glz.fuse = some (.revoke true r)) ∧ (t.leaf l).glz.unlock = none)
            ∧ (AnswersWith (.revoke1 l w) s fun t => (∃ r, (t.leaf l).glz.fuse = some (.revoke r true)) ∧ (t.leaf l).glz.unlock = none))
        ∧ ((s.leaf l).glz.unlock ≠ some 0x474F5250 → (s.leaf l).glz.unlock ≠ some 0x4B564552 →
            ∀ c ∈ [Instr.prog1 l w, .revoke0 l w, .revoke1 l w], AnswersWith c s fun t =>
              (t.leaf l).glz.fuse = none ∧ (t.leaf l).bit Fld.LEAF_GLZ_KCTL_KEY_REFUSED = true ∧ (t.leaf l).glz.unlock = none))
    ∧ (∀ h, (s.leaf l).glz.fuse = some (.prog1 h) → AnswersWith (.fuseOperationDone l) s fun t =>
        (t.leaf l).fuses = { (s.leaf l).fuses with keyHash1 := h, present1 := true } ∧ (t.leaf l).glz.fuse = none
        ∧ (t.leaf l).bit Fld.LEAF_GLZ_KCTL_FUSE_BUSY = false)
    ∧ (∀ r0 r1, (s.leaf l).glz.fuse = some (.revoke r0 r1) → AnswersWith (.fuseOperationDone l) s fun t =>
        (t.leaf l).fuses = { (s.leaf l).fuses with revoked0 := (s.leaf l).fuses.revoked0 || r0, revoked1 := (s.leaf l).fuses.revoked1 || r1 }
        ∧ (t.leaf l).glz.fuse = none)

/-- The oldest token of a route in flight reaches its consumer's buffer, unchanged, or with POISON when its CRC failed on the way. A credit on its way back reaches the producer, who sends what waits for it; with none on its way nothing happens. (R162, R163, R168, R171, R528) -/
def Obligations.TokensAndCredits : Prop :=
  ∀ (s : State) (l : LeafId) (r : Nat) (d : RouteDesc), s.ready l = true → (s.leaf l).routeDesc r = some d → (s.leaf l).flt.inject = none →
    (∀ tk rest, ((s.leaf l).route r).flight = tk :: rest → isEngine d.dst = false →
      Answers (.tokenArrival l r []) s (s.onLeaf l fun x => x.setRoute r
        { x.route r with flight := rest, buf := (x.route r).buf ++ [tk] })
      ∧ (∀ k, k ∈ (s.leaf l).routeLinks d → AnswersWith (.tokenArrival l r [k]) s fun t =>
          (t.leaf l).fab = ((s.leaf l).setRoute r
            { (s.leaf l).route r with flight := rest, buf := ((s.leaf l).route r).buf ++ [{ tk with poison := true }] }).fab))
    ∧ (((s.leaf l).route r).flight = [] → ∀ bad, Answers (.tokenArrival l r bad) s s)
    ∧ (((s.leaf l).route r).back = 0 → ∀ bad, Answers (.creditReturn l r bad) s s)
    ∧ (((s.leaf l).route r).back ≠ 0 → Answers (.creditReturn l r []) s (s.onLeaf l fun x => x.setRoute r
        (RouteRun.pump { x.route r with credits := (x.route r).credits + 1, back := (x.route r).back - 1 })))

/-- A stage that can fire has started after STAGE_FIRE and is finished exactly when every input has had END and every output has sent it; one that cannot fire leaves the fabric as it is. A speculable stage that has finished its tick starts a fresh blind run when speculation is on and a pose is predicted. (R162, R163, R334) -/
def Obligations.StageRuns : Prop :=
  ∀ (s : State) (l : LeafId) (ix : Nat) (sd : StageDesc) (x : StageRun), s.ready l = true → (s.leaf l).ticking = true →
    (s.leaf l).stage ix = some sd → (s.leaf l).runOf false ix = some x → (s.leaf l).runOf true ix = none →
    (∀ em, (s.leaf l).canFire false sd x = true → AnswersWith (.stageFire l ix em) s fun t =>
      ∃ y, (t.leaf l).runOf false ix = some y ∧ y.started = true ∧ y.finished = y.done ∧ x.firings ≤ y.firings)
    ∧ (∀ em, (s.leaf l).canFire false sd x = false → AnswersWith (.stageFire l ix em) s fun t => (t.leaf l).fab = (s.leaf l).fab)
    ∧ (sd.spec = true → (s.leaf l).bit Fld.SPEC_CTRL_ENABLE = true → (s.leaf l).spec.enabled = true →
      (∃ p, (s.leaf l).spec.pred = some ((s.leaf l).tickNum, p)) → x.finished = true → (s.leaf l).listed sd = true →
      (s.leaf l).spec.pending = none → AnswersWith (.blindStart l ix) s fun t =>
        (t.leaf l).runOf true ix = some sd.fresh ∧ (t.leaf l).runOf false ix = some x ∧ (t.leaf l).bit Fld.SPEC_STAT_BLIND_RUN = true)
    ∧ (x.finished = false → Answers (.blindStart l ix) s s)

/-- A fetched granule whose codewords read well enters the cache. A codeword that fails on both copies poisons its object. A clean DRAM word changes nothing, a corrected one is counted, an uncorrectable one poisons the object that holds it; the scrub does the same while SCRUB_EN is 1. A repair that is done leaves the list. A refreshed page leaves the refresh list, a lost codeword is marked. (R200, R203, R206, R207, R211, R215, R216) -/
def Obligations.MemoryReads : Prop :=
  ∀ (s : State) (l : LeafId), s.ready l = true →
    (∀ i g f o, (s.leaf l).mem.fetches.find? (fun e => e.obj == i && e.gran == g) = some f → f.blind = false → (s.leaf l).obj i = some o →
      (s.leaf l).mem.lost = [] → AnswersWith (.granuleFetchDone l i g []) s fun t =>
        (t.leaf l).mem.cache = (s.leaf l).mem.cache ++ [{ obj := i, gran := g, slot := f.slot, tick := (s.leaf l).tickNum }]
        ∧ (t.leaf l).mem.fetches = (s.leaf l).mem.fetches.filter fun e => !(e.obj == i && e.gran == g))
    ∧ (∀ i g rs, (s.leaf l).mem.fetches.find? (fun e => e.obj == i && e.gran == g) = none → Answers (.granuleFetchDone l i g rs) s s)
    ∧ (∀ addr i o m, (s.leaf l).objAtFlash (addr / 4096 * 4096) = some (i, o) → i < 4096 → o.mirrored = false ∨ m = none →
      AnswersWith (.flashReadDone l addr ⟨none, m⟩) s fun t => (t.leaf l).poisoned i = true)
    ∧ (∀ addr, Answers (.dramReadDone l addr .clean) s s ∧ Answers (.dramReadDone l addr .corrected) s (s.onLeaf l fun x => x.bump 6 0))
    ∧ (∀ addr, (s.leaf l).badWord addr = false →
      (∀ i o, (s.leaf l).objAtDram (addr / 32 * 32) = some (i, o) → i < 4096 →
        ∀ c ∈ [Instr.dramReadDone l addr .uncorrectable] ++
            (if (s.leaf l).bit Fld.MEM_DRAM_CFG_SCRUB_EN then [Instr.dramScrubPass l addr .uncorrectable] else []),
          AnswersWith c s fun t => (t.leaf l).poisoned i = true ∧ (t.leaf l).badWord addr = true)
      ∧ ((s.leaf l).objAtDram (addr / 32 * 32) = none → (s.leaf l).inCache (addr / 32 * 32) = false →
        AnswersWith (.dramReadDone l addr .uncorrectable) s fun t => (t.leaf l).badWord addr = true ∧ (t.leaf l).dram = (s.leaf l).dram
          ∨ (s.leaf l).host.toPlace ≠ []))
    ∧ (∀ addr out, (s.leaf l).bit Fld.MEM_DRAM_CFG_SCRUB_EN = false → Answers (.dramScrubPass l addr out) s s)
    ∧ (∀ i o rd, ((s.leaf l).mem.repairs.find? fun e => e.1 == i).isSome = true → (s.leaf l).obj i = some o →
      AnswersWith (.dramRepairDone l i rd) s fun t => (t.leaf l).mem.repairs = dropFirst (fun e => e.1 == i) (s.leaf l).mem.repairs)
    ∧ (∀ addr, AnswersWith (.flashRefresh l addr false) s fun t =>
        (t.leaf l).mem = { (s.leaf l).mem with refresh := (s.leaf l).mem.refresh.filter (· != flashPage (addr / 4096 * 4096)) }
        ∧ (t.leaf l).flash = (s.leaf l).flash)
    ∧ (∀ addr, AnswersWith (.flashRefresh l addr true) s fun t => addr / 4096 * 4096 ∈ (t.leaf l).mem.lost)

/-- REWRITE and WRITEBACK with BUSY 0 set BUSY and hold the object, source and kind (a rewrite of a TICKING leaf only for a poisoned object); with BUSY 1 they set REFUSED. When the work is done BUSY clears, DONE is set and STATUS shows the status; an object rewritten without a mirror reads from flash what the source in DRAM held. (R212, R213, R214) -/
def Obligations.RewriteAndWriteBack : Prop :=
  ∀ (s : State) (l : LeafId), s.ready l = true →
    (∀ w : Word, bitOf w.toNat 30 = false → (s.leaf l).bit Fld.MEM_RW_STAT_BUSY = false →
      ((s.leaf l).ticking = false ∨ (s.leaf l).poisoned ((s.leaf l).get Fld.MEM_RW_OBJ_OBJ) = true) → AnswersWith (.rewrite l w) s fun t =>
        (t.leaf l).bit Fld.MEM_RW_STAT_BUSY = true ∧ ∃ c, (t.leaf l).mem.rw = some c ∧ c.obj = (s.leaf l).get Fld.MEM_RW_OBJ_OBJ
          ∧ c.src = (s.leaf l).rd64 Reg.MEM_RW_SRC_LO Reg.MEM_RW_SRC_HI ∧ c.writeback = false)
    ∧ (∀ w : Word, bitOf w.toNat 31 = false → (s.leaf l).bit Fld.MEM_RW_STAT_BUSY = false → AnswersWith (.writeback l w) s fun t =>
        (t.leaf l).bit Fld.MEM_RW_STAT_BUSY = true ∧ ∃ c, (t.leaf l).mem.rw = some c ∧ c.obj = (s.leaf l).get Fld.MEM_RW_OBJ_OBJ
          ∧ c.writeback = true)
    ∧ ((s.leaf l).bit Fld.MEM_RW_STAT_BUSY = true → ∀ w : Word, ∀ c ∈ [Instr.rewrite l w, .writeback l w],
        Answers c s (s.onLeaf l fun x => x.putB Fld.MEM_RW_STAT_REFUSED true))
    ∧ ((s.leaf l).mem.rw = none → ∀ outs, Answers (.memRwDone l outs) s s)
    ∧ (∀ c outs, (s.leaf l).mem.rw = some c → AnswersWith (.memRwDone l outs) s fun t =>
        (t.leaf l).mem.rw = none ∧ (t.leaf l).bit Fld.MEM_RW_STAT_BUSY = false ∧ (t.leaf l).bit Fld.MEM_RW_STAT_DONE = true
        ∧ (c.status ≠ 0 → c.status < 16 → (s.leaf l).obj c.obj ≠ none → (t.leaf l).get Fld.MEM_RW_STAT_STATUS = c.status))
    ∧ (∀ c o, (s.leaf l).mem.rw = some c → (s.leaf l).obj c.obj = some o → c.status = 0 → c.writeback = false → o.mirrored = false →
      AnswersWith (.memRwDone l []) s fun t => (t.leaf l).get Fld.MEM_RW_STAT_STATUS = 0
        ∧ (t.leaf l).flashObj o 0 o.size = (s.leaf l).dramRead c.src o.size)

/-- GO_RD puts the random counter of the stage in STAGE into CVAL; GO_WR takes CVAL as that counter unless the leaf is TICKING, then it is refused and flagged. A lifetime record write advances the sequence number and changes the flash channel. (R431, R539) -/
def Obligations.CountersAndLifetime : Prop :=
  ∀ (s : State) (l : LeafId) (w : Word), s.ready l = true →
    (bitOf w.toNat 30 = false → AnswersWith (.clutchRead l w) s fun t =>
      (t.leaf l).rd Reg.LEAF_RNG_CVAL_LO = (s.leaf l).rngCtr (bitsOf w.toNat 15 0) % 2 ^ 32
      ∧ (t.leaf l).rd Reg.LEAF_RNG_CVAL_HI = (s.leaf l).rngCtr (bitsOf w.toNat 15 0) / 2 ^ 32 % 2 ^ 32 ∧ (t.leaf l).fab = (s.leaf l).fab)
    ∧ (bitOf w.toNat 31 = false → (s.leaf l).ticking = false → AnswersWith (.clutchWrite l w) s fun t =>
      (t.leaf l).rngCtr (bitsOf w.toNat 15 0) = (s.leaf l).rd64 Reg.LEAF_RNG_CVAL_LO Reg.LEAF_RNG_CVAL_HI)
    ∧ (bitOf w.toNat 31 = false → (s.leaf l).ticking = true → AnswersWith (.clutchWrite l w) s fun t =>
      (t.leaf l).fab = (s.leaf l).fab ∧ (t.leaf l).bit Fld.LEAF_DET_STAT_CFG_REFUSED = true)
    ∧ (∀ c, AnswersWith (.lifetimeRecordWrite l c) s fun t =>
      (t.leaf l).aon.lifeSeq = (s.leaf l).aon.lifeSeq + 1 ∧ (t.leaf l).aon.lifeChan = 1 - (s.leaf l).aon.lifeChan)

/-- Enabling a source that is off makes it DOWN with its event flag; enabling one that is on is refused. Disabling one that is on makes it OFF. A source that is not OFF goes DOWN when its link is lost, a camera receiver losing LOCK and GEAR, or when no item has come for 3 WIN. (R225, R229, R243) -/
def Obligations.SourceCommands : Prop :=
  ∀ (s : State) (l : LeafId) (n : Nat), s.ready l = true → n < 128 → srcExists n = true →
    (∀ w : Word, (s.leaf l).bit (Fld.SNS_SRC_CFG_ENABLE n) = false →
      (isCam n = true ∨ bitsOf w.toNat 11 0 = 0xFFF ∨ (s.leaf l).slotObjOk (bitsOf w.toNat 11 0) = true) →
      AnswersWith (.sourceEnable l n w) s fun t => (t.leaf l).bit (Fld.SNS_SRC_CFG_ENABLE n) = true ∧ (t.leaf l).srcState n = 1
        ∧ (t.leaf l).bit (Fld.SNS_SRC_STAT_DOWN_EV n) = true ∧ (t.leaf l).get (Fld.SNS_SRC_CFG_OBJ n) = bitsOf w.toNat 11 0)
    ∧ (∀ w : Word, (s.leaf l).bit (Fld.SNS_SRC_CFG_ENABLE n) = true → Answers (.sourceEnable l n w) s (s.onLeaf l Leaf.snsRefused)
      ∧ AnswersWith (.sourceDisable l n w) s fun t => (t.leaf l).bit (Fld.SNS_SRC_CFG_ENABLE n) = false ∧ (t.leaf l).srcState n = 0
        ∧ (t.leaf l).src n = {})
    ∧ (∀ c, (s.leaf l).srcState n ≠ 0 → AnswersWith (.sourceLinkLost l n c) s fun t => (t.leaf l).srcState n = 1
        ∧ (isCam n = true → (t.leaf l).bit (Fld.SNS_CAM_STAT_LOCK n) = false ∧ (t.leaf l).get (Fld.SNS_CAM_STAT_GEAR n) = 0))
    ∧ (∀ c, (s.leaf l).srcState n ≠ 0 → 3 * (s.leaf l).srcWin n * 100 ≤ (((s.leaf l).adv c).count - ((s.leaf l).src n).lastAt) * 128 →
      AnswersWith (.sourceItemTimeout l n c) s fun t => (t.leaf l).srcState n = 1
        ∧ ((s.leaf l).srcState n ≠ 1 → (t.leaf l).bit (Fld.SNS_SRC_STAT_DOWN_EV n) = true))
    ∧ (∀ c, ((((s.leaf l).adv c).count - ((s.leaf l).src n).lastAt) * 128 < 3 * (s.leaf l).srcWin n * 100 ∨ (s.leaf l).srcState n = 0) →
      Answers (.sourceItemTimeout l n c) s (s.onLeaf l fun x => x.adv c))

/-- A frame start opens a frame in a free slot; a packet of another virtual channel is counted; without lock nothing is received. A frame whose due instant is reached leaves the list and, when delivered, becomes the due one. A trigger that is due is sent once, or counted as missed, and the next is scheduled. I2C GO starts a transaction, its end clears BUSY and shows NACK and the byte read. (R230, R231, R232, R234) -/
def Obligations.CameraCommands : Prop :=
  ∀ (s : State) (l : LeafId) (n : Nat), s.ready l = true → n < 6 → n < (s.leaf l).sns.cams.length →
    (∀ c8 vc, (s.leaf l).bit (Fld.SNS_CAM_STAT_LOCK n) = true → (s.leaf l).srcState n ≠ 0 → vc = (s.leaf l).get (Fld.SNS_CAM_CFG_VC n) →
      ((s.leaf l).cam n).frames = [] → s.hinge.active = true → AnswersWith (.cameraPacket l n c8 (.frameStart vc)) s fun t =>
        ((t.leaf l).cam n).frames = [{ seq := (alGet (s.leaf l).sns.stampSeq n).getD 0, slot := ((s.leaf l).cam n).freeSlot, c8 := c8 }])
    ∧ (∀ c8 vc p, (s.leaf l).bit (Fld.SNS_CAM_STAT_LOCK n) = true → (s.leaf l).srcState n ≠ 0 → vc ≠ (s.leaf l).get (Fld.SNS_CAM_CFG_VC n) →
      p ∈ [CsiPacket.frameStart vc, .frameEnd vc] →
      Answers (.cameraPacket l n c8 p) s (s.onLeaf l fun x => (x.adv (c8 / 8)).bump 7 7))
    ∧ (∀ c8 p, (s.leaf l).bit (Fld.SNS_CAM_STAT_LOCK n) = false →
      Answers (.cameraPacket l n c8 p) s (s.onLeaf l fun x => x.adv (c8 / 8)))
    ∧ (∀ c f rest d, ((s.leaf l).cam n).frames = f :: rest → (s.leaf l).camDueAt n f = some d → d ≤ ((s.leaf l).adv c).nowNs →
      AnswersWith (.cameraFrameDue l n c) s fun t => ((t.leaf l).cam n).frames = rest
        ∧ ((t.leaf l).cam n).due = if f.ended && f.deliver then some f else ((s.leaf l).cam n).due)
    ∧ (∀ c x, (s.leaf l).bit (Fld.SNS_CAM_TRIG_EN n) = true → ((s.leaf l).cam n).trigNext = some x →
      x - (s.leaf l).get (Fld.SNS_CAM_TLEAD_NS n) ≤ ((s.leaf l).adv c).nowNs → AnswersWith (.exposureTrigger l n c) s fun t =>
        ((t.leaf l).cam n).trigNext = (s.leaf l).trigAfter n x
        ∧ (t.leaf l).sns.trigSent = if (s.leaf l).trigBlocked n || decide (x < ((s.leaf l).adv c).nowNs) then (s.leaf l).sns.trigSent
            else (s.leaf l).sns.trigSent ++ [(n, x)])
    ∧ (∀ w : Word, (s.leaf l).bit (Fld.SNS_CAM_I2C_BUSY n) = false → AnswersWith (.i2cGo l n w) s fun t =>
        (t.leaf l).bit (Fld.SNS_CAM_I2C_BUSY n) = true ∧ ((t.leaf l).cam n).i2c =
          some (bitOf w.toNat 28, bitsOf w.toNat 26 20, bitsOf w.toNat 19 8, bitsOf w.toNat 7 0))
    ∧ (∀ w : Word, (s.leaf l).bit (Fld.SNS_CAM_I2C_BUSY n) = true → Answers (.i2cGo l n w) s s)
    ∧ (∀ nack d rd a r v, ((s.leaf l).cam n).i2c = some (rd, a, r, v) → AnswersWith (.i2cDone l n nack d) s fun t =>
        (t.leaf l).bit (Fld.SNS_CAM_I2C_BUSY n) = false ∧ (t.leaf l).bit (Fld.SNS_CAM_I2C_NACK n) = nack ∧ ((t.leaf l).cam n).i2c = none
        ∧ (rd = true → nack = false → (t.leaf l).get (Fld.SNS_CAM_I2C_DATA n) = d % 256))

/-- A frame that is no UDP datagram goes to the host. A data-ready edge starts an SPI transaction, one during a transaction is counted; its end frees the port and passes on the bytes read. A CAN frame that an entry matches becomes an item of that entry, unless the controller is bus-off. A message becomes a GNSS item. A byte written for the UART joins its FIFO or sets TX_OVF; a byte sent leaves it. (R235, R238, R240, R241, R242) -/
def Obligations.BusCommands : Prop :=
  ∀ (s : State) (l : LeafId), s.ready l = true →
    (∀ f rest, (s.leaf l).sw.p5 = f :: rest → udpOf f.bytes = none → Answers (.lidarDatagram l) s
      (s.onLeaf l fun x => { x with sw := { x.sw with p5 := rest, hostFrames := x.sw.hostFrames ++ [f.bytes] } }))
    ∧ (∀ f rest, (s.leaf l).sw.p5 = f :: rest → AnswersWith (.lidarDatagram l) s fun t => (t.leaf l).sw.p5 = rest)
    ∧ (∀ p c8, p < 2 → ((s.leaf l).sns.spi.getD p none = none → Answers (.imuDataReady l p c8) s (s.onLeaf l fun x =>
          { x.adv (c8 / 8) with sns := { x.sns with spi := setAt x.sns.spi p (some ((x.adv (c8 / 8)).vt8 c8, c8)) } }))
        ∧ ((s.leaf l).sns.spi.getD p none ≠ none → Answers (.imuDataReady l p c8) s (s.onLeaf l fun x => (x.adv (c8 / 8)).bump 7 5)))
    ∧ (∀ p bs v c8, p < 2 → (s.leaf l).sns.spi.getD p none = some (v, c8) →
      AnswersWith (.spiTransactionDone l p bs) s (fun t => (t.leaf l).sns.spi.getD p none = none)
      ∧ (s.hinge.active = true → (s.leaf l).srcState (0x10 + p) ≠ 0 → (s.leaf l).bit (Fld.SNS_SPI_CFG_LISTEN p) = false →
        AnswersWith (.spiTransactionDone l p bs) s fun t => ∃ it, (t.leaf l).sns.pend = (s.leaf l).sns.pend ++ [it]
          ∧ it.src = 0x10 + p ∧ it.c8 = c8 ∧ it.body = .spi (padTo ((s.leaf l).get (Fld.SNS_SPI_CFG_RD_LEN p)) bs)))
    ∧ (∀ k c8 f, k < 2 → (s.leaf l).sns.busOff.getD k true = false → s.hinge.active = true → f.ok = true →
      ∀ e v, e < 64 → (s.leaf l).srcState (0x40 + e) ≠ 0 → (s.leaf l).canMatch k f e = true → (s.leaf l).canSignal f e = some v →
        AnswersWith (.canFrameReceived l k c8 f) s fun t => ∃ it ∈ (t.leaf l).sns.pend, it.src = 0x40 + e ∧ it.c8 = c8 ∧ it.body = .can v)
    ∧ (∀ k c8 f, k < 2 → (s.leaf l).sns.busOff.getD k true = true →
      Answers (.canFrameReceived l k c8 f) s (s.onLeaf l fun x => x.adv (c8 / 8)))
    ∧ (∀ k c, k < 2 → k < (s.leaf l).sns.busOff.length → AnswersWith (.canBusRecovery l k c) s fun t => (t.leaf l).sns.busOff.getD k true = false)
    ∧ (∀ c8 m ok, (s.leaf l).srcState 0x20 = 0 → Answers (.uartMessage l c8 m ok) s (s.onLeaf l fun x => x.adv (c8 / 8)))
    ∧ (∀ c8 m, (s.leaf l).srcState 0x20 ≠ 0 → s.hinge.active = true → 0 < m.length → m.length ≤ 1024 →
      AnswersWith (.uartMessage l c8 m true) s fun t => ∃ it, (t.leaf l).sns.pend = (s.leaf l).sns.pend ++ [it] ∧ it.src = 0x20 ∧ it.body = .gnss m)
    ∧ (∀ w : Word, AnswersWith (.uartTx l w) s fun t => if (s.leaf l).sns.uartTx.length < 64
        then (t.leaf l).sns.uartTx = (s.leaf l).sns.uartTx ++ [w.toNat % 256]
        else (t.leaf l).sns.uartTx = (s.leaf l).sns.uartTx ∧ (t.leaf l).bit Fld.SNS_UART_TX_TX_OVF = true)
    ∧ (∀ c b rest, (s.leaf l).sns.uartTx = b :: rest → Answers (.uartByteSent l c) s (s.onLeaf l fun x =>
        { x.adv c with sns := { x.sns with uartTx := rest, uartSent := x.sns.uartSent ++ [b] } }))

/-- A channel whose program and object are legal is on, with all its state 0; else it stays off and CFG_REFUSED is set. An edge with the pin enabled waits for its stamp in mirror mode. ARM of a tick to come is pending, else REFUSED; CANCEL and the boundary of the armed tick end it. A propagation that is due closes its window and sets RUNNING; RESET waits for the next one. (R248, R253, R254, R255, R260, R266) -/
def Obligations.FilterAndEgoCommands : Prop :=
  ∀ (s : State) (l : LeafId), s.ready l = true →
    (∀ (k : Nat) (w : Word), k < 32 → (s.leaf l).bit (Fld.FILT_CH_CFG_ENABLE k) = false →
      (mpBad ((s.leaf l).rd (Reg.FILT_CH_MPPROG k)) (bitsOf w.toNat 29 28) = false →
        (bitsOf w.toNat 11 0 = 0xFFF ∨ (s.leaf l).slotObjOk (bitsOf w.toNat 11 0) = true) → AnswersWith (.filtChannelEnable l k w) s fun t =>
          (t.leaf l).bit (Fld.FILT_CH_CFG_ENABLE k) = true ∧ (t.leaf l).bit (Fld.FILT_CH_STAT_SETTLED k) = false
          ∧ (t.leaf l).bit (Fld.FILT_CH_STAT_COARSE_VALID k) = false ∧ (t.leaf l).rd (Reg.FILT_CH_SCNT k) = 0
          ∧ (k < (s.leaf l).filt.chs.length → ((t.leaf l).ch k).sos = List.replicate 8 {} ∧ ((t.leaf l).ch k).lines = []
              ∧ ((t.leaf l).ch k).coarse = [] ∧ ((t.leaf l).ch k).slot = {} ∧ ((t.leaf l).ch k).preset = bitsOf w.toNat 25 24))
      ∧ (mpBad ((s.leaf l).rd (Reg.FILT_CH_MPPROG k)) (bitsOf w.toNat 29 28) = true → AnswersWith (.filtChannelEnable l k w) s fun t =>
          (t.leaf l).bit (Fld.FILT_CH_CFG_ENABLE k) = false ∧ (t.leaf l).bit Fld.FILT_STAT_CFG_REFUSED = true ∧ (t.leaf l).filt = (s.leaf l).filt))
    ∧ (∀ c8, ((s.leaf l).bit Fld.FILT_SYNC_CTRL_PIN_EN = false → Answers (.filtSyncEdge l c8) s (s.onLeaf l fun x => x.adv (c8 / 8)))
      ∧ ((s.leaf l).bit Fld.FILT_SYNC_CTRL_PIN_EN = true → s.hinge.active = true → AnswersWith (.filtSyncEdge l c8) s fun t =>
          ∃ it, (t.leaf l).sns.pend = (s.leaf l).sns.pend ++ [it] ∧ it.src = 0x22 ∧ it.c8 = c8 ∧ it.body = .edge))
    ∧ (∀ c k, (s.leaf l).filt.armed = some k → (k * (s.leaf l).rd Reg.TICK_PERIOD ≤ ((s.leaf l).adv c).nowNs →
        AnswersWith (.filtSyncTickReset l c) s fun t => (t.leaf l).filt.armed = none ∧ (t.leaf l).bit Fld.FILT_SYNC_CTRL_PENDING = false)
      ∧ (((s.leaf l).adv c).nowNs < k * (s.leaf l).rd Reg.TICK_PERIOD → Answers (.filtSyncTickReset l c) s (s.onLeaf l fun x => x.adv c)))
    ∧ (∀ (w : Word) (k : Nat), bitOf w.toNat 30 = false → k = (s.leaf l).rd64 Reg.FILT_SYNC_TICK_LO Reg.FILT_SYNC_TICK_HI → (s.leaf l).ticking = true →
      (((s.leaf l).tickNum < k → AnswersWith (.filtSyncArm l w) s fun t => (t.leaf l).filt.armed = some k
          ∧ (t.leaf l).bit Fld.FILT_SYNC_CTRL_PENDING = true)
      ∧ (k ≤ (s.leaf l).tickNum → AnswersWith (.filtSyncArm l w) s fun t => (t.leaf l).filt.armed = (s.leaf l).filt.armed
          ∧ (t.leaf l).bit Fld.FILT_SYNC_CTRL_REFUSED = true)))
    ∧ (∀ w : Word, AnswersWith (.filtSyncCancel l w) s fun t => (t.leaf l).filt.armed = none ∧ (t.leaf l).bit Fld.FILT_SYNC_CTRL_PENDING = false)
    ∧ (∀ c, ((s.leaf l).adv c).egoRuns = true →
      ((s.leaf l).adv c).egoNext + (s.leaf l).subPeriod + 1000 * (s.leaf l).holdUs ≤ ((s.leaf l).adv c).nowNs →
      AnswersWith (.egoPropagation l c) s fun t => (t.leaf l).ego.nextWin = some (((s.leaf l).adv c).egoNext + (s.leaf l).subPeriod)
        ∧ (t.leaf l).ego.resetReq = false ∧ (t.leaf l).bit Fld.EGO_STAT_RUNNING = true)
    ∧ (∀ c, ((s.leaf l).adv c).egoRuns = false → (s.leaf l).spec.conf = none →
      Answers (.egoPropagation l c) s (s.onLeaf l fun x => x.adv c))
    ∧ (∀ w : Word, AnswersWith (.egoReset l w) s fun t => (t.leaf l).ego.resetReq = true ∧ (t.leaf l).bit Fld.EGO_CTRL_ENABLE = bitOf w.toNat 0)

/-- A queued job at the head of its engine's queue, with its inputs ready and of the right size, runs and the engine is BUSY. A running job that completes is done, its bit of JOBS set and the engine free; with an uncorrectable read it has failed. A reset holds the engine and sets RST_BUSY until it ends. (R273, R274, R275, R278, R297, R298) -/
def Obligations.VisionCommands : Prop :=
  ∀ (s : State) (l : LeafId) (e : Nat), s.ready l = true → 1 ≤ e → e ≤ 7 →
    (∀ j c v, j < 16 → (s.leaf l).visJob e j = some c → (s.leaf l).vjob e j = some v →
      ((v.st = .armed ∨ v.st = .queued) → (s.leaf l).vis.held.contains e = false →
        ((s.leaf l).visCheck c = .run → (s.leaf l).bit (Fld.VIS_ENG_STAT_BUSY (e - 1)) = false → ((s.leaf l).vqueue e).head? = some j →
          (s.leaf l).visSizeOk e c = true → AnswersWith (.visionJobStart l e j) s fun t =>
            (t.leaf l).bit (Fld.VIS_ENG_STAT_BUSY (e - 1)) = true ∧ (t.leaf l).get (Fld.VIS_ENG_STAT_JOB (e - 1)) = j
            ∧ (t.leaf l).vqueue e = ((s.leaf l).vqueue e).tail ∧ ∃ v', (t.leaf l).vjob e j = some v' ∧ v'.st = .running)
        ∧ ((s.leaf l).visCheck c = .skip → AnswersWith (.visionJobStart l e j) s fun t => (t.leaf l).vjob e j = some { st := .skipped })
        ∧ ((s.leaf l).visCheck c = .notYet → Answers (.visionJobStart l e j) s s))
      ∧ (v.st = .running → AnswersWith (.visionJobComplete l e j true) s fun t =>
          (t.leaf l).vjob e j = some { st := .failed } ∧ (t.leaf l).bit (Fld.VIS_ENG_STAT_BUSY (e - 1)) = false
          ∧ (t.leaf l).bit (Fld.VIS_ENG_STAT_ERR (e - 1)) = true)
      ∧ (v.st = .running → e ≤ 5 → (s.leaf l).refBad c.in0 = false → (s.leaf l).refBad c.in1 = false →
          AnswersWith (.visionJobComplete l e j false) s fun t => (t.leaf l).vjob e j = some { v with st := .done }
            ∧ (t.leaf l).bit (Fld.VIS_ENG_STAT_BUSY (e - 1)) = false ∧ bitOf ((t.leaf l).get (Fld.VIS_ENG_DONE_JOBS (e - 1))) j = true)
      ∧ (v.st ≠ .running → ∀ ue, Answers (.visionJobComplete l e j ue) s s))
    ∧ (∀ w : Word, ((s.leaf l).bit (Fld.VIS_ENG_STAT_RST_BUSY (e - 1)) = false → AnswersWith (.visionEngineReset l e w) s fun t =>
          (t.leaf l).bit (Fld.VIS_ENG_STAT_RST_BUSY (e - 1)) = true ∧ (t.leaf l).vis.held.contains e = true)
        ∧ ((s.leaf l).bit (Fld.VIS_ENG_STAT_RST_BUSY (e - 1)) = true → Answers (.visionEngineReset l e w) s s))
    ∧ Answers (.visionResetDone l e) s (s.onLeaf l fun x => x.putB (Fld.VIS_ENG_STAT_RST_BUSY (e - 1)) false)

/-- A projection job takes what its input has and ends when the input has ended. The grid is made once every evidence input has ended. A dead-reckoning time that is out is noted. COMMIT loads the tables at once, or waits while TICKING. Writing ones to FUS_DEMOTE clears those bits alone. The next track number only rises, a smaller one is refused. (R303, R304, R307, R313, R316, R317, R324) -/
def Obligations.FusionCommands : Prop :=
  ∀ (s : State) (l : LeafId), s.ready l = true →
    (∀ j c p, j < 8 → (s.leaf l).ticking = true → (s.leaf l).fusCfg = some c → c.pj[j]? = some p →
      (alGet (s.leaf l).fab.ports (8 * 64 + 20 + j)).isSome = true → alGet (s.leaf l).fab.ports (72 * 64 + 20 + j) = none →
      ((s.leaf l).pjRun j).ended = false → ((s.leaf l).engPort 8 (20 + j)).poison = false → AnswersWith (.projectionJob l j) s fun t =>
        ((t.leaf l).pjRun j).taken = ((s.leaf l).engPort 8 (20 + j)).toks.length
        ∧ ((t.leaf l).pjRun j).ended = ((s.leaf l).engPort 8 (20 + j)).ended)
    ∧ (∀ c, (s.leaf l).ticking = true → (s.leaf l).fusCfg = some c → (s.leaf l).fus.grid = none →
      (((List.range c.nev).all (fun e => ((s.leaf l).engPort 8 e).ended) && ((s.leaf l).engPort 8 16).ended) = true →
        AnswersWith (.fusionGridUpdate l) s fun t => (t.leaf l).fus.grid.isSome = true)
      ∧ (((List.range c.nev).all (fun e => ((s.leaf l).engPort 8 e).ended) && ((s.leaf l).engPort 8 16).ended) = false →
        Answers (.fusionGridUpdate l) s s))
    ∧ (∀ c, Answers (.drTimerExpiry l c) s (s.onLeaf l fun x => if (x.adv c).drOut (x.adv c).nowNs
        then { x.adv c with fus := { x.fus with expired := true } } else x.adv c))
    ∧ (∀ w, Answers (.fusTblCommit l w) s (s.onLeaf l fun x => if x.ticking then x.putB Fld.FUS_TBL_CMD_PENDING true else x.loadTables))
    ∧ (∀ (n : Nat) (w : Word), n < 4 → AnswersWith (.fusDemoteClear l n w) s fun t => ∀ b < 32,
        bitOf ((t.leaf l).rd (Reg.FUS_DEMOTE n)) b = (bitOf ((s.leaf l).rd (Reg.FUS_DEMOTE n)) b && !bitOf w.toNat b))
    ∧ (∀ w : Word, Answers (.fusTrkNextWrite l w) s (s.onLeaf l fun x => if x.aon.trkNext < w.toNat
        then { x with aon := { x.aon with trkNext := w.toNat } } else x.putB Fld.FUS_TRK_STAT_NEXT_REFUSED true))

/-- The decision that is pending is made: DEC shows which of the three it is and PENDING clears. The first candidate of the verification leaves the list with its outcome. A landmark read holds BUSY, then shows the entry's 64 bytes in the data registers. (R338, R339, R360, R364) -/
def Obligations.SpeculationAndMapCommands : Prop :=
  ∀ (s : State) (l : LeafId), s.ready l = true →
    (∀ c k w, (s.leaf l).spec.pending = some k → (s.leaf l).spec.work = some w → w.tick = k → AnswersWith (.specDecision l c) s fun t =>
      (t.leaf l).get Fld.SPEC_STAT_DEC = (if w.pred = false then 3 else if w.source = 0 then 1 else 2)
      ∧ (t.leaf l).bit Fld.SPEC_STAT_PENDING = false ∧ (t.leaf l).spec.pending = none ∧ (t.leaf l).spec.decided = some k)
    ∧ (∀ v k x rest, (s.leaf l).map.verify = some v → v.cands = (k, x) :: rest → Answers (.loopVerificationDone l k) s (s.onLeaf l fun m =>
        m.setMap { m.map with verify := some { v with cands := rest, done := v.done ++ [(x, m.verifyCand v.tick k x)] } }))
    ∧ (∀ w : Word, AnswersWith (.lmkGo l w) s fun t => (t.leaf l).bit Fld.MAP_LMK_RD_IDX_BUSY = true
        ∧ (t.leaf l).get Fld.MAP_LMK_RD_IDX_SLOT = bitsOf w.toNat 15 0 ∧ (t.leaf l).map = (s.leaf l).map)
    ∧ ((s.leaf l).bit Fld.MAP_LMK_RD_IDX_BUSY = true → AnswersWith (.lmkReadDone l false) s fun t =>
        (t.leaf l).bit Fld.MAP_LMK_RD_IDX_BUSY = false ∧ (t.leaf l).map = (s.leaf l).map
        ∧ (t.leaf l).bit Fld.MAP_LMK_RD_IDX_UE = (s.leaf l).map.ue.contains ((s.leaf l).get Fld.MAP_LMK_RD_IDX_SLOT)
        ∧ ∀ i < 16, (t.leaf l).rd (Reg.MAP_LMK_RD_DATA i) =
            leAt ((s.leaf l).map.lmk ((s.leaf l).get Fld.MAP_LMK_RD_IDX_SLOT)).bytes (4 * i) 4)
    ∧ ((s.leaf l).bit Fld.MAP_LMK_RD_IDX_BUSY = false → ∀ ue, Answers (.lmkReadDone l ue) s s)

/-- A waiting row, or else the first host query, takes the free context of the engine that the rules choose. A read that is done carries the query of its context on. A query that has finished, or a host query past its deadline, leaves its context; a row's block goes to its delivery, a host command leaves the queue's list. (R371, R372, R373, R379, R380, R388) -/
def Obligations.QueryCommands : Prop :=
  ∀ (s : State) (l : LeafId) (ctx : Nat), s.ready l = true →
    (ctx < 2048 → alGet (s.leaf l).srch.ctxs ctx = none →
      (∀ r, (s.leaf l).srch.rows = [r] → r.q < 4 → (s.leaf l).bestEngine ((s.leaf l).recChans r.rec') = some (ctx / 256) →
        AnswersWith (.queryAdmit l ctx) s fun t => (t.leaf l).srch.rows = [] ∧ ∃ q, alGet (t.leaf l).srch.ctxs ctx = some q
          ∧ q.owner = .row r.q r.tick r.row r.blind)
      ∧ (∀ c rest, (s.leaf l).srch.rows = [] → (s.leaf l).srch.host = c :: rest →
        (s.leaf l).bestEngine ((s.leaf l).recChans ((s.leaf l).dramRead c.addr0 352)) = some (ctx / 256) →
        AnswersWith (.queryAdmit l ctx) s fun t => (t.leaf l).srch.host = rest ∧ ∃ q, alGet (t.leaf l).srch.ctxs ctx = some q ∧ q.owner = .host c)
      ∧ ((s.leaf l).srch.rows = [] → (s.leaf l).srch.host = [] → Answers (.queryAdmit l ctx) s s))
    ∧ ((alGet (s.leaf l).srch.ctxs ctx).isSome = true → Answers (.queryAdmit l ctx) s s)
    ∧ (∀ q rd, alGet (s.leaf l).srch.ctxs ctx = some q → AnswersWith (.walkReadDone l ctx rd) s fun t =>
        (t.leaf l).srch.ctxs = alSet ctx ((s.leaf l).queryRead q rd).1 (s.leaf l).srch.ctxs ∧ (t.leaf l).srch.slots = (s.leaf l).srch.slots)
    ∧ (∀ q, alGet (s.leaf l).srch.ctxs ctx = some q → q.phase ≠ .done → q.phase ≠ .invalid → Answers (.queryComplete l ctx) s s)
    ∧ (∀ q n tick row b, alGet (s.leaf l).srch.ctxs ctx = some q → q.phase = .done ∨ q.phase = .invalid → q.owner = .row n tick row b →
      AnswersWith (.queryComplete l ctx) s fun t => (t.leaf l).srch.ctxs = alDel ctx (s.leaf l).srch.ctxs
        ∧ (t.leaf l).srch.deliv = ((s.leaf l).fillRow n tick row b ((s.leaf l).queryBlock ((s.leaf l).kmax n) q).1
            ((s.leaf l).queryBlock ((s.leaf l).kmax n) q).2).srch.deliv)
    ∧ (∀ q c, alGet (s.leaf l).srch.ctxs ctx = some q → q.phase = .done ∨ q.phase = .invalid → q.owner = .host c →
      AnswersWith (.queryComplete l ctx) s fun t => (t.leaf l).srch.ctxs = alDel ctx (s.leaf l).srch.ctxs
        ∧ (t.leaf l).host.cmds = dropOne c (s.leaf l).host.cmds)
    ∧ (∀ q c k, alGet (s.leaf l).srch.ctxs ctx = some q → q.owner = .host c → q.phase ≠ .done → q.phase ≠ .invalid → q.fld 12 4 ≠ 0 →
      (q.start + countsOfUs (q.fld 12 4) ≤ ((s.leaf l).adv k).count → AnswersWith (.queryDeadline l ctx k) s fun t =>
        (t.leaf l).srch.ctxs = alDel ctx (s.leaf l).srch.ctxs ∧ (t.leaf l).host.cmds = dropOne c (s.leaf l).host.cmds)
      ∧ (((s.leaf l).adv k).count < q.start + countsOfUs (q.fld 12 4) →
        Answers (.queryDeadline l ctx k) s (s.onLeaf l fun x => x.adv k)))

/-- A side-list command with BUSY 0 sets BUSY and holds its operands; one written while BUSY starts nothing. When it is done BUSY clears, DONE is set and STATUS says how it ended; an insertion that succeeds appends the entry under the next ID and the next sequence number. (R384, R385) -/
def Obligations.SideListCommands : Prop :=
  ∀ (s : State) (l : LeafId), s.ready l = true →
    (∀ (w : Word) (c : Instr) (op : Nat), (c, op) ∈ [(Instr.sideInsert l w, 1), (.sideDelete l w, 2)] →
      ((s.leaf l).bit Fld.SRCH_SIDE_STAT_BUSY = false → AnswersWith c s fun t => (t.leaf l).bit Fld.SRCH_SIDE_STAT_BUSY = true
        ∧ (t.leaf l).srch.side = some (op, bitsOf w.toNat 1 0, (s.leaf l).rd64 Reg.SRCH_SIDE_SRC_LO Reg.SRCH_SIDE_SRC_HI / 64 * 64,
            (s.leaf l).rd64 Reg.SRCH_SIDE_ID_LO Reg.SRCH_SIDE_ID_HI % 2 ^ 40))
      ∧ ((s.leaf l).bit Fld.SRCH_SIDE_STAT_BUSY = true → AnswersWith c s fun t => (t.leaf l).srch = (s.leaf l).srch
        ∧ (t.leaf l).bit Fld.SRCH_SIDE_STAT_BUSY = true))
    ∧ ((s.leaf l).srch.side = none → Answers (.sideCmdDone l) s s)
    ∧ (∀ op x src id, x < 4 → (s.leaf l).srch.side = some (op, x, src, id) → AnswersWith (.sideCmdDone l) s fun t =>
        (t.leaf l).srch.side = none ∧ (t.leaf l).bit Fld.SRCH_SIDE_STAT_BUSY = false ∧ (t.leaf l).bit Fld.SRCH_SIDE_STAT_DONE = true
        ∧ (t.leaf l).get Fld.SRCH_SIDE_STAT_STATUS = ((s.leaf l).sideApply op x src id).1)
    ∧ (∀ x src id sl, x < 4 → (s.leaf l).srch.side = some (1, x, src, id) → (s.leaf l).idxOpen x = some sl → sl.side.length < 16384 →
      descNan (sliceBytes ((s.leaf l).dramRead src 320) 32 256) = false → AnswersWith (.sideCmdDone l) s fun t =>
        (t.leaf l).get Fld.SRCH_SIDE_STAT_STATUS = 0 ∧ (t.leaf l).idxSlot x = some { sl with
          side := sl.side ++ [{ seq := sl.seq + 1, insert := true, id := sl.next, tag := leAt ((s.leaf l).dramRead src 320) 288 8,
                                sketch := leAt ((s.leaf l).dramRead src 320) 0 32, desc := sliceBytes ((s.leaf l).dramRead src 320) 32 256 }]
          seq := sl.seq + 1, next := sl.next + 1 })
    ∧ (∀ x src id sl, x < 4 → (s.leaf l).srch.side = some (2, x, src, id) → (s.leaf l).idxOpen x = some sl → sl.side.length < 16384 →
      (s.leaf l).visibleNow sl id = false → AnswersWith (.sideCmdDone l) s fun t =>
        (t.leaf l).get Fld.SRCH_SIDE_STAT_STATUS = 0x0B ∧ (t.leaf l).idxSlot x = some sl)

/-- A merge of a slot that is not attached ends INVALID at once; a fit one sets BUSY. ABORT ends a running merge. A merge that is done clears BUSY, with POISON when the old index cannot be read, else with the merged index ready. SWAP of its slot puts the merged index in use, at a boundary when the leaf is TICKING. (R386, R387) -/
def Obligations.MergeCommands : Prop :=
  ∀ (s : State) (l : LeafId), s.ready l = true →
    (∀ w : Word, bitOf w.toNat 30 = false → (s.leaf l).bit Fld.SRCH_MRG_STAT_BUSY = false →
      ((s.leaf l).idxOpen (bitsOf w.toNat 1 0) = none → AnswersWith (.mergeGo l w) s fun t =>
        (t.leaf l).get Fld.SRCH_MRG_STAT_STATUS = 0x0B ∧ (t.leaf l).bit Fld.SRCH_MRG_STAT_DONE = true ∧ (t.leaf l).srch = (s.leaf l).srch)
      ∧ (∀ sl hdr node desc ix, (s.leaf l).idxOpen (bitsOf w.toNat 1 0) = some sl → hdr = (s.leaf l).rd64 Reg.SRCH_MRG_HDR_LO Reg.SRCH_MRG_HDR_HI →
        node = (s.leaf l).rd64 Reg.SRCH_MRG_NODE_LO Reg.SRCH_MRG_NODE_HI → desc = (s.leaf l).rd64 Reg.SRCH_MRG_DESC_LO Reg.SRCH_MRG_DESC_HI →
        ix = { sl.hdr with at' := hdr, n := sl.next, nodeOfs := node, descOfs := desc } → hdr % 16384 = 0 → hdr < 2 ^ 40 → node % 16384 = 0 →
        desc % 16384 = 0 → node + ix.nodeLen ≤ 2 ^ 37 → desc + ix.descLen ≤ 2 ^ 37 → sl.next ≤ 2 ^ 31 →
        anyOverlap ix.extents ((s.leaf l).takenExtents none) = false → AnswersWith (.mergeGo l w) s fun t =>
          (t.leaf l).bit Fld.SRCH_MRG_STAT_BUSY = true ∧ ∃ m, (t.leaf l).srch.merge = some m ∧ m.x = bitsOf w.toNat 1 0 ∧ m.m = sl.seq
            ∧ m.n = sl.next ∧ m.hdr = hdr ∧ m.node = node ∧ m.desc = desc))
    ∧ (∀ w : Word, bitOf w.toNat 31 = false → (s.leaf l).srch.merge.isSome = true → AnswersWith (.mergeAbort l w) s fun t =>
        (t.leaf l).srch.merge = none ∧ (t.leaf l).bit Fld.SRCH_MRG_STAT_BUSY = false)
    ∧ (∀ m, (s.leaf l).srch.merge = some m → (s.leaf l).mergeMoves m.pipe = false → ∀ rd, Answers (.mergeDone l rd) s s)
    ∧ (∀ m sl, (s.leaf l).srch.merge = some m → (s.leaf l).mergeMoves m.pipe = true → (s.leaf l).idxSlot m.x = some sl →
      AnswersWith (.mergeDone l false) s (fun t => (t.leaf l).srch = { (s.leaf l).srch with merge := none }
        ∧ (t.leaf l).bit Fld.SRCH_MRG_STAT_BUSY = false ∧ (t.leaf l).get Fld.SRCH_MRG_STAT_STATUS = 0x09
        ∧ (t.leaf l).bit Fld.SRCH_MRG_STAT_DONE = true)
      ∧ AnswersWith (.mergeDone l true) s fun t => (t.leaf l).srch.merge = none ∧ (t.leaf l).bit Fld.SRCH_MRG_STAT_BUSY = false
        ∧ (t.leaf l).get Fld.SRCH_MRG_STAT_STATUS = 0 ∧ (t.leaf l).srch.merged =
          some (m.x, m.m, { sl.hdr with at' := m.hdr, n := m.n, nodeOfs := m.node, descOfs := m.desc }))
    ∧ (∀ (x : Nat) (w : Word) m h sl, x < 4 → bitOf w.toNat 31 = false → bitOf w.toNat 30 = false → (s.leaf l).srch.merged = some (x, m, h) →
      (s.leaf l).idxOpen x = some sl →
      ((s.leaf l).ticking = true → AnswersWith (.swap l x w) s fun t => (t.leaf l).srch.swap.contains x = true
        ∧ (t.leaf l).bit (Fld.SRCH_IDX_STAT_SWAP_PEND x) = true ∧ (t.leaf l).idxSlot x = some sl)
      ∧ ((s.leaf l).ticking = false → AnswersWith (.swap l x w) s fun t => (t.leaf l).srch.merged = none
        ∧ (t.leaf l).idxSlot x = some { sl with hdr := h, side := sl.side.filter fun e => decide (m < e.seq) }))

/-- A flash write whose extent is legal sets BUSY, another ends INVALID at once; when it is done BUSY clears and the flash holds the bytes of the source, or nothing was written and the status is POISON. ATTACH of a free slot waits for the header; it ends with the slot attached, or with POISON. DETACH empties the side list and frees the slot once no query uses it. (R391, R392) -/
def Obligations.AttachAndFlashWriteCommands : Prop :=
  ∀ (s : State) (l : LeafId), s.ready l = true →
    (∀ (w : Word) src dst len, (s.leaf l).bit Fld.SRCH_FW_STAT_BUSY = false → src = (s.leaf l).rd64 Reg.SRCH_FW_SRC_LO Reg.SRCH_FW_SRC_HI →
      dst = (s.leaf l).rd64 Reg.SRCH_FW_DST_LO Reg.SRCH_FW_DST_HI → len = (s.leaf l).rd Reg.SRCH_FW_LEN →
      ((s.leaf l).fwBad src dst len = true → AnswersWith (.srchFwGo l w) s fun t => (t.leaf l).get Fld.SRCH_FW_STAT_STATUS = 0x0B
        ∧ (t.leaf l).bit Fld.SRCH_FW_STAT_DONE = true ∧ (t.leaf l).srch = (s.leaf l).srch)
      ∧ ((s.leaf l).fwBad src dst len = false → (s.leaf l).bit (Fld.MEM_FLASH_WEAR_RO (dst / 2 ^ 37 % 8)) = false →
        AnswersWith (.srchFwGo l w) s fun t => (t.leaf l).bit Fld.SRCH_FW_STAT_BUSY = true
          ∧ (t.leaf l).srch.fw = some { src := src, dst := dst, len := len }))
    ∧ (∀ c, (s.leaf l).srch.fw = some c →
      ((s.leaf l).badRange c.src c.len = true → ∀ outs, AnswersWith (.srchFwDone l outs) s fun t => (t.leaf l).srch.fw = none
        ∧ (t.leaf l).get Fld.SRCH_FW_STAT_STATUS = 0x09 ∧ (t.leaf l).bit Fld.SRCH_FW_STAT_BUSY = false ∧ (t.leaf l).flash = (s.leaf l).flash)
      ∧ ((s.leaf l).badRange c.src c.len = false → AnswersWith (.srchFwDone l []) s fun t => (t.leaf l).srch.fw = none
        ∧ (t.leaf l).get Fld.SRCH_FW_STAT_STATUS = 0 ∧ (t.leaf l).bit Fld.SRCH_FW_STAT_BUSY = false
        ∧ (t.leaf l).flashRead c.dst c.len = (s.leaf l).dramRead c.src c.len
        ∧ ∀ a, a < c.dst ∨ c.dst + c.len ≤ a → sparseGet memDefault (t.leaf l).flash a = sparseGet memDefault (s.leaf l).flash a))
    ∧ (∀ (x : Nat) (w : Word), x < 4 → bitOf w.toNat 30 = false → bitOf w.toNat 29 = false →
      ((s.leaf l).idxSlot x = none → (s.leaf l).srch.attach.contains x = false → AnswersWith (.attach l x w) s fun t =>
        (t.leaf l).srch = { (s.leaf l).srch with attach := (s.leaf l).srch.attach ++ [x] })
      ∧ ((s.leaf l).idxSlot x ≠ none → AnswersWith (.attach l x w) s fun t => (t.leaf l).get (Fld.SRCH_IDX_STAT_STATUS x) = 0x0B
        ∧ (t.leaf l).srch = (s.leaf l).srch))
    ∧ (∀ x a m, x < 4 → (s.leaf l).srch.attach.contains x = true → a = (s.leaf l).rd64 (Reg.SRCH_IDX_HDR_LO x) (Reg.SRCH_IDX_HDR_HI x) →
      AnswersWith (.attachDone l x ⟨none, m⟩) s (fun t => (t.leaf l).get (Fld.SRCH_IDX_STAT_STATUS x) = 0x09
        ∧ (t.leaf l).srch.slots = (s.leaf l).srch.slots)
      ∧ ((s.leaf l).srch.bad.contains a = false → (s.leaf l).mem.lost.contains a = false →
        (s.leaf l).attachStatus a ((s.leaf l).flashRead a 4096) = 0 → AnswersWith (.attachDone l x ⟨some 0, m⟩) s fun t =>
          (t.leaf l).get (Fld.SRCH_IDX_STAT_STATUS x) = 0 ∧ (t.leaf l).bit (Fld.SRCH_IDX_STAT_ATTACHED x) = true
          ∧ (t.leaf l).idxSlot x = some { hdr := ixHdrOf a ((s.leaf l).flashRead a 4096)
                                          next := (ixHdrOf a ((s.leaf l).flashRead a 4096)).n }))
    ∧ (∀ (x : Nat) (w : Word) sl, x < 4 → bitOf w.toNat 31 = false → bitOf w.toNat 29 = false → (s.leaf l).idxSlot x = some sl →
      (((s.leaf l).srch.ctxs.any fun c => c.2.x == x && c.2.phase != .invalid) = true → AnswersWith (.detach l x w) s fun t =>
        (t.leaf l).idxSlot x = some { sl with detaching := true, side := [] } ∧ (t.leaf l).bit (Fld.SRCH_IDX_STAT_DETACHING x) = true)
      ∧ (((s.leaf l).srch.ctxs.any fun c => c.2.x == x && c.2.phase != .invalid) = false →
        (s.leaf l).srch.slots.Pairwise (fun a b => a.1 < b.1) → AnswersWith (.detach l x w) s fun t =>
          (t.leaf l).idxSlot x = none ∧ (t.leaf l).bit (Fld.SRCH_IDX_STAT_ATTACHED x) = false))

/-- A ready job that no other goes before takes idle lanes; completed, it is done with its result and the lanes are free. GRAPH_REQ notes the request. An assignment starts once its input has ended and is done when complete. A reset ends the jobs of the tick and sets RST_BUSY until it is done. (R401, R405, R415, R419, R420, R422) -/
def Obligations.SolverCommands : Prop :=
  ∀ (s : State) (l : LeafId), s.ready l = true →
    (∀ j d, j < 8 → (s.leaf l).solvJobs.find? (fun e => e.job == j) = some d →
      ((s.leaf l).ticking = true → (s.leaf l).solvReady d = true → (s.leaf l).bit Fld.SOLV_STAT_RST_BUSY = false →
        ((s.leaf l).solvJobs.all fun e => !((s.leaf l).solvReady e) || decide (d.rank ≤ e.rank)) = true → (s.leaf l).solvRunning = none →
        AnswersWith (.solverJobStart l j) s fun t => ((t.leaf l).sjob j).st = .running ∧ (t.leaf l).bit Fld.SOLV_STAT_BUSY = true
          ∧ (t.leaf l).get Fld.SOLV_STAT_JOB = j)
      ∧ ((s.leaf l).solvReady d = false → Answers (.solverJobStart l j) s s)
      ∧ (((s.leaf l).sjob j).st = .running → d.kind = 1 ∨ d.kind = 2 ∨ d.kind = 3 → ∀ ue, AnswersWith (.solverJobComplete l j ue) s fun t =>
          ((t.leaf l).sjob j).st = .done ∧ ((t.leaf l).sjob j).res.isSome = true ∧ (t.leaf l).bit Fld.SOLV_STAT_BUSY = false
          ∧ (t.leaf l).bit (Fld.SOLV_JOB_STAT_DONE j) = true)
      ∧ (((s.leaf l).sjob j).st = .running → d.kind = 1 → ∀ ue, AnswersWith (.solverJobComplete l j ue) s fun t =>
          ((t.leaf l).sjob j).res = some ((s.leaf l).solveEgo d ue).1))
    ∧ (∀ w : Word, bitOf w.toNat 31 = false → Answers (.graphReq l w) s (s.onLeaf l fun x => { x with solv := { x.solv with req := true } }))
    ∧ (∀ d, (s.leaf l).asgJob = some d → d.job < 8 →
      ((s.leaf l).ticking = true → (s.leaf l).solvEnded 8 = true → (s.leaf l).solv.asg = 0 → (s.leaf l).bit Fld.SOLV_STAT_RST_BUSY = false →
        Answers (.assignStart l) s (s.onLeaf l fun x => { x with solv := { x.solv with asg := 1 } }.putB Fld.SOLV_ASG_STAT_BUSY true))
      ∧ ((s.leaf l).solv.asg = 1 → AnswersWith (.assignComplete l) s fun t => (t.leaf l).solv.asg = 2
        ∧ ((t.leaf l).sjob d.job).st = .done ∧ (t.leaf l).bit Fld.SOLV_ASG_STAT_BUSY = false
        ∧ (t.leaf l).bit (Fld.SOLV_JOB_STAT_DONE d.job) = true))
    ∧ (∀ w : Word, bitOf w.toNat 30 = false →
      ((s.leaf l).bit Fld.SOLV_STAT_RST_BUSY = true → Answers (.solverReset l w) s s)
      ∧ ((s.leaf l).bit Fld.SOLV_STAT_RST_BUSY = false → AnswersWith (.solverReset l w) s fun t =>
        (t.leaf l).bit Fld.SOLV_STAT_RST_BUSY = true ∧ (t.leaf l).bit Fld.SOLV_STAT_BUSY = false
        ∧ ∀ d ∈ (s.leaf l).solvJobs, ((s.leaf l).sjob d.job).st = .running → ((t.leaf l).sjob d.job).st = .gone))
    ∧ Answers (.solverResetDone l) s (s.onLeaf l fun x => x.putB Fld.SOLV_STAT_RST_BUSY false)

/-- An evaluation leaves the effective operating point no higher than the requested one and the host's ceiling; while TICKING it does not happen. A rail that has settled is noted; one that has not for 1 ms withdraws the request and is a fault. A peak evaluation moves the stretch level by at most one. (The energies are free values, log entry 121: the statement holds for each of their values.) (R444, R445, R450, R453) -/
def Obligations.OperatingPoint : Prop :=
  ∀ (s : State) (l : LeafId), s.ready l = true →
    (∀ c, (s.leaf l).ticking = false → (s.leaf l).state ≠ 1 → AnswersWith (.opEvaluation l c) s fun t =>
      (t.leaf l).get Fld.PWR_OP_EFF ≤ (t.leaf l).get Fld.PWR_OP_REQ ∧ (t.leaf l).get Fld.PWR_OP_EFF ≤ (t.leaf l).get Fld.PWR_OP_CEIL_HOST
      ∧ (t.leaf l).get Fld.PWR_OP_REQ = (s.leaf l).get Fld.PWR_OP_REQ ∧ (t.leaf l).get Fld.PWR_OP_CEIL_HOST = (s.leaf l).get Fld.PWR_OP_CEIL_HOST
      ∧ (t.leaf l).pwr.evaluated = true ∧ (t.leaf l).free = (s.leaf l).free + 1)
    ∧ (∀ c, (s.leaf l).ticking = true → Answers (.opEvaluation l c) s (s.onLeaf l fun x => x.adv c))
    ∧ ((s.leaf l).pwr.want.isSome = true → Answers (.railSettled l) s (s.onLeaf l fun x => { x with pwr := { x.pwr with settled := true } }))
    ∧ (∀ c n at', (s.leaf l).pwr.want = some (n, at') → (s.leaf l).pwr.settled = false →
      (at' + countsOfMs 1 ≤ ((s.leaf l).adv c).count → Answers (.vrail l c) s (s.onLeaf l fun x =>
        { x.adv c with pwr := { x.pwr with want := none } }.notify 0x05 { block := 0x05 }))
      ∧ (((s.leaf l).adv c).count < at' + countsOfMs 1 → Answers (.vrail l c) s (s.onLeaf l fun x => x.adv c)))
    ∧ (∀ c, (s.leaf l).get Fld.PWR_STAT_STRETCH ≤ stretchMax ((s.leaf l).get Fld.PWR_OP_EFF) → AnswersWith (.peakEvaluation l c) s fun t =>
      (t.leaf l).get Fld.PWR_STAT_STRETCH ≤ (s.leaf l).get Fld.PWR_STAT_STRETCH + 1
      ∧ (s.leaf l).get Fld.PWR_STAT_STRETCH ≤ (t.leaf l).get Fld.PWR_STAT_STRETCH + 1 ∧ (t.leaf l).free = (s.leaf l).free + 1
      ∧ (((s.leaf l).adv c).count < (s.leaf l).pwr.lastStretch + countsOfUs 2 →
          (t.leaf l).get Fld.PWR_STAT_STRETCH = (s.leaf l).get Fld.PWR_STAT_STRETCH))

/-- The readings of a sample show in PWR_TSENS; one of 130 °C or more trips. CLEAR ends a trip of a leaf in FAULT by it once every sensor is below LIMIT, and is refused otherwise. A coolant write restarts the timer and ends COOL_STALE; past the timeout COOL_STALE is set. Rails more than 200 mV apart set their bit of ACTIVE, and rails within that clear it; a crossing beyond its limit for 1 ms is logged. (R455, R457, R458, R460) -/
def Obligations.Thermal : Prop :=
  ∀ (s : State) (l : LeafId), s.ready l = true →
    (∀ c temps, AnswersWith (.tempSample l c temps) s fun t =>
      (∀ k < 16, (t.leaf l).get (Fld.PWR_TSENS_T k) = temps.getD k 0 % 2 ^ 16)
      ∧ ((∃ k < 16, 2080 ≤ signedOf 16 (temps.getD k 0)) → (t.leaf l).bit Fld.PWR_TRIP_TRIPPED = true)
      ∧ ((∀ k < 16, signedOf 16 (temps.getD k 0) < 2080) → (t.leaf l).bit Fld.PWR_TRIP_TRIPPED = (s.leaf l).bit Fld.PWR_TRIP_TRIPPED))
    ∧ (∀ w, (s.leaf l).state = 6 → (s.leaf l).bit Fld.PWR_TRIP_TRIPPED = true → (s.leaf l).get Fld.FLT_STAT_STOP_CODE = 6 →
      (∀ k < 16, signedOf 16 ((s.leaf l).get (Fld.PWR_TSENS_T k)) < ((16 * (s.leaf l).get Fld.PWR_TEMP_CFG_LIMIT : Nat) : Int)) →
      (s.leaf l).flt.returnTo < 8 → AnswersWith (.tripClear l w) s fun t => (t.leaf l).bit Fld.PWR_TRIP_TRIPPED = false
        ∧ (t.leaf l).state = (s.leaf l).flt.returnTo ∧ (t.leaf l).bit Fld.FLT_STAT_STOP = false)
    ∧ (∀ w, (s.leaf l).state ≠ 6 ∨ (s.leaf l).bit Fld.PWR_TRIP_TRIPPED = false ∨ (s.leaf l).get Fld.FLT_STAT_STOP_CODE ≠ 6 →
      AnswersWith (.tripClear l w) s fun t => (t.leaf l).bit Fld.PWR_TRIP_REFUSED = true ∧ (t.leaf l).state = (s.leaf l).state
        ∧ (t.leaf l).bit Fld.PWR_TRIP_TRIPPED = (s.leaf l).bit Fld.PWR_TRIP_TRIPPED)
    ∧ (∀ b w, AnswersWith (.coolantWrite l b w) s fun t => (t.leaf l).pwr.lastCool = (s.leaf l).count
        ∧ (t.leaf l).bit Fld.PWR_STAT_COOL_STALE = false)
    ∧ (∀ c k, k = (s.leaf l).pwr.lastCool + countsOfMs (max 1 ((s.leaf l).get Fld.PWR_COOL_CFG_TIMEOUT_MS)) →
      (k ≤ ((s.leaf l).adv c).count → AnswersWith (.coolStale l c) s fun t => (t.leaf l).bit Fld.PWR_STAT_COOL_STALE = true)
      ∧ (((s.leaf l).adv c).count < k → Answers (.coolStale l c) s (s.onLeaf l fun x => x.adv c)))
    ∧ (∀ c a b, AnswersWith (.voltageCheck l c a b) s fun t =>
        bitOf ((t.leaf l).get Fld.PWR_SKEW_STAT_ACTIVE) 2 = (decide (200 < a - b) || decide (200 < b - a)))
    ∧ (∀ c, AnswersWith (.regionSkew l c) s fun t => ∀ e ∈ (s.leaf l).pwr.cross, e.2 + countsOfMs 1 ≤ ((s.leaf l).adv c).count →
        (t.leaf l).pwr.skewLogged.contains e.1 = true)

/-- A request of an idle leaf begins the entry to the state that fits, or is refused. The entry done, the leaf is in that state. A wake source that is enabled and works in the state of a sleeping leaf begins its wake and is named in WAKE_SRC; during an entry it aborts it. The wake complete, the leaf is in S0. (R463, R464, R465, R466, R467, R479) -/
def Obligations.SleepAndWake : Prop :=
  ∀ (s : State) (l : LeafId),
    (s.ready l = true → ∀ w : Word, bitOf w.toNat 30 = false → (s.leaf l).pwr.entry = none →
      ((s.leaf l).ticking = false → (s.leaf l).bit Fld.TICK_STAT_START_PEND = false → (s.leaf l).sleepBusy = false →
        (∀ e, (s.leaf l).sleepChoice = some e → Answers (.sleepReq l w) s (s.onLeaf l fun x => { x with pwr := { x.pwr with entry := some e } }))
        ∧ ((s.leaf l).sleepChoice = none → Answers (.sleepReq l w) s (s.onLeaf l Leaf.sleepRefused)))
      ∧ ((s.leaf l).ticking = true ∨ (s.leaf l).bit Fld.TICK_STAT_START_PEND = true ∨ (s.leaf l).sleepBusy = true →
        Answers (.sleepReq l w) s (s.onLeaf l Leaf.sleepRefused)))
    ∧ (s.ready l = true → ∀ c e, (s.leaf l).pwr.entry = some e → e.state ≤ 3 → AnswersWith (.sleepEntryDone l c) s fun t =>
        (t.leaf l).sleep = e.state ∧ (t.leaf l).pwr.entry = none ∧ (t.leaf l).pwr.waking = false ∧ (t.leaf l).pwr.selfWake = e.wake)
    ∧ (s.ready l = true → ∀ w : Word, bitOf w.toNat 31 = false → (s.leaf l).pwr.entry.isSome = true → AnswersWith (.wake l w) s fun t =>
        (t.leaf l).pwr.entry = none ∧ (t.leaf l).bit Fld.PWR_SLEEP_STAT_ABORT = true ∧ (t.leaf l).get Fld.PWR_SLEEP_STAT_ABORT_SRC = 4)
    ∧ ((s.leaf l).booted = true → 1 ≤ (s.leaf l).sleep → (s.leaf l).pwr.entry = none → (s.leaf l).pwr.waking = false →
      (s.hinge.up l = true → ∀ w : Word, AnswersWith (.wake l w) s fun t => (t.leaf l).pwr.waking = true ∧ (t.leaf l).get Fld.PWR_SLEEP_STAT_WAKE_SRC = 4)
      ∧ (∀ c, (s.leaf l).bit Fld.PWR_SLEEP_CFG_ALARM_EN = true →
        (s.leaf l).rd64 Reg.PWR_WAKE_AT_LO Reg.PWR_WAKE_AT_HI ≤ ((s.leaf l).adv c).nowNs → AnswersWith (.wakeAlarm l c) s fun t =>
          (t.leaf l).pwr.waking = true ∧ (t.leaf l).get Fld.PWR_SLEEP_STAT_WAKE_SRC = 5)
      ∧ (∀ c k, (s.leaf l).pwr.selfWake = some (k, 6) → k ≤ ((s.leaf l).adv c).nowNs → AnswersWith (.wakeEventTimer l c) s fun t =>
          (t.leaf l).pwr.waking = true ∧ (t.leaf l).get Fld.PWR_SLEEP_STAT_WAKE_SRC = 6)
      ∧ (∀ n c, n < 2 → (s.leaf l).sleep ≤ 2 → bitOf ((s.leaf l).get Fld.PWR_WAKE_CFG_CAN_EN) n = true → AnswersWith (.canBusWake l n c) s fun t =>
          (t.leaf l).pwr.waking = true ∧ (t.leaf l).get Fld.PWR_SLEEP_STAT_WAKE_SRC = 7 + n)
      ∧ (∀ n f c, n < 4 → bitOf ((s.leaf l).get Fld.PWR_WAKE_CFG_POL) n = f → bitOf ((s.leaf l).get Fld.PWR_WAKE_CFG_EN) n = true →
        AnswersWith (.wkupEdge l n f c) s fun t => (t.leaf l).pwr.waking = true ∧ (t.leaf l).get Fld.PWR_SLEEP_STAT_WAKE_SRC = n))
    ∧ ((s.leaf l).booted = true → (s.leaf l).pwr.waking = true → ∀ c, AnswersWith (.wakeComplete l c) s fun t =>
        (t.leaf l).sleep = 0 ∧ (t.leaf l).pwr.waking = false)

/-- A completion ends the activity of its source, or counts as a bad one. A write of a PEND or MASK word makes it that word. IRQ_TGT takes a write while its source is masked and inactive and otherwise flags it. An aged vector's message goes out. A snapshot copies every counter, counts in EPOCH and is BUSY until done. (Messages that are due then follow at once: State.settle.) (R472, R473, R474, R475, R476, R483) -/
def Obligations.InterruptCommands : Prop :=
  ∀ (s : State) (l : LeafId), s.ready l = true →
    (∀ w : Word, ∃ x, exec (.irqEoi l w) s = .next (s.setLeaf l x).settle ∧
      if (s.leaf l).actBit (w.toNat % 512) then x.actBit (w.toNat % 512) = false
      else x.get Fld.IRQ_BAD_EOI_COUNT = ((s.leaf l).get Fld.IRQ_BAD_EOI_COUNT + 1) % 2 ^ 32)
    ∧ (∀ n (w : Word), n < 16 → ∃ x, exec (.irqPendWrite l n w) s = .next (s.setLeaf l x).settle ∧ x.rd (Reg.IRQ_PEND n) = w.toNat
        ∧ (∀ k < 16, k ≠ n → x.rd (Reg.IRQ_PEND k) = (s.leaf l).rd (Reg.IRQ_PEND k)))
    ∧ (∀ n (w : Word), n < 16 → ∃ x, exec (.irqMaskWrite l n w) s = .next (s.setLeaf l x).settle ∧ x.rd (Reg.IRQ_MASK n) = w.toNat
        ∧ (∀ k < 16, x.rd (Reg.IRQ_PEND k) = (s.leaf l).rd (Reg.IRQ_PEND k) ∧ x.rd (Reg.IRQ_ACT k) = (s.leaf l).rd (Reg.IRQ_ACT k)))
    ∧ (∀ n (w : Word), n < 512 → exec (.irqTgtWrite l n w) s = .next (s.onLeaf l fun x =>
        if x.maskBit n && !x.actBit n then x.swWrite (Reg.IRQ_TGT n) w.toNat else x.putB Fld.IRQ_STAT_CFG_REFUSED true).settle)
    ∧ (∀ v c, v < 64 → exec (.irqCoalesceTimeout l v c) s = .next (s.onLeaf l fun x => if (x.adv c).vecAged v then (x.adv c).pump else x.adv c).settle)
    ∧ (∀ w, (s.leaf l).bit Fld.CNT_STAT_BUSY = false → ∃ x, exec (.snap l w) s = .next (s.setLeaf l x).settle
        ∧ x.ctr.shadow = (s.leaf l).ctr.cnt ∧ x.ctr.cnt = (s.leaf l).ctr.cnt ∧ x.bit Fld.CNT_STAT_BUSY = true
        ∧ x.get Fld.CNT_EPOCH_EPOCH = ((s.leaf l).get Fld.CNT_EPOCH_EPOCH + 1) % 2 ^ 32)
    ∧ (∀ w, (s.leaf l).bit Fld.CNT_STAT_BUSY = true → Answers (.snap l w) s (s.onLeaf l fun x => x.putB Fld.CNT_STAT_SNAP_REFUSED true))
    ∧ (∀ c, Answers (.snapshotDone l c) s (s.onLeaf l fun x => (x.adv c).putB Fld.CNT_STAT_BUSY false))

/-- A doorbell value that is legal is taken, another sets DB_ERR and is logged. Enabling a pair that is off starts it at 0 with phase 1; disabling one drops its SEARCH and COPY commands. A fetch takes the entry at the head when a completion slot is free. A drain moves the first held record that can be placed to its queue. A group message that is due goes out. (R494, R496, R497, R498, R499, R503) -/
def Obligations.QueuePairCommands : Prop :=
  ∀ (s : State) (l : LeafId) (q : Nat), s.ready l = true → q < 64 →
    (∀ w : Word, ((s.leaf l).sqBad q (w.toNat % 4096) = false →
        Answers (.sqDoorbell l q w) s (s.onLeaf l fun x => x.put (Fld.LEAF_Q_SQDB_TAIL q) (w.toNat % 4096)))
      ∧ ((s.leaf l).cqBad q (w.toNat % 4096) = false →
        Answers (.cqDoorbell l q w) s (s.onLeaf l fun x => x.put (Fld.LEAF_Q_CQDB_HEAD q) (w.toNat % 4096)))
      ∧ ((s.leaf l).sqBad q (w.toNat % 4096) = true → AnswersWith (.sqDoorbell l q w) s fun t =>
          (t.leaf l).bit (Fld.LEAF_Q_STAT_DB_ERR q) = true ∧ (t.leaf l).rd (Reg.LEAF_Q_SQDB q) = (s.leaf l).rd (Reg.LEAF_Q_SQDB q)
          ∧ t.hinge.get Fld.HINGE_VIOL_CNT_COUNT = (s.hinge.get Fld.HINGE_VIOL_CNT_COUNT + 1) % 2 ^ 32)
      ∧ ((s.leaf l).cqBad q (w.toNat % 4096) = true → AnswersWith (.cqDoorbell l q w) s fun t =>
          (t.leaf l).bit (Fld.LEAF_Q_STAT_DB_ERR q) = true ∧ (t.leaf l).rd (Reg.LEAF_Q_CQDB q) = (s.leaf l).rd (Reg.LEAF_Q_CQDB q)))
    ∧ (∀ w : Word, ((s.leaf l).bit (Fld.LEAF_Q_CFG_EN q) = true → Answers (.queueEnable l q w) s (s.onLeaf l (Leaf.dbErr q)))
      ∧ ((s.leaf l).bit (Fld.LEAF_Q_CFG_EN q) = false → (s.leaf l).bit (Fld.LEAF_Q_CFG_BUSY q) = false →
        AnswersWith (.queueEnable l q w) s fun t => (t.leaf l).bit (Fld.LEAF_Q_CFG_EN q) = true ∧ (t.leaf l).get (Fld.LEAF_Q_SQDB_TAIL q) = 0
          ∧ (t.leaf l).get (Fld.LEAF_Q_CQDB_HEAD q) = 0 ∧ (t.leaf l).get (Fld.LEAF_Q_STAT_SQ_HEAD q) = 0
          ∧ (t.leaf l).get (Fld.LEAF_Q_CFG_SQ_LOG2 q) = bitsOf w.toNat 3 0 ∧ (t.leaf l).get (Fld.LEAF_Q_CFG_CQ_LOG2 q) = bitsOf w.toNat 11 8)
      ∧ ((s.leaf l).bit (Fld.LEAF_Q_CFG_EN q) = true → AnswersWith (.queueDisable l q w) s fun t =>
          (t.leaf l).bit (Fld.LEAF_Q_CFG_EN q) = false ∧ (t.leaf l).host.cmds = (s.leaf l).host.cmds.filter fun c =>
            !(c.q == q && (c.opcode == 1 || c.opcode == 2 || c.opcode == 3))))
    ∧ (∀ entry, (s.leaf l).bit (Fld.LEAF_Q_CFG_EN q) = true → (s.leaf l).bit (Fld.LEAF_Q_CFG_SQ_LOC q) = false →
      (s.leaf l).get (Fld.LEAF_Q_STAT_SQ_HEAD q) ≠ (s.leaf l).get (Fld.LEAF_Q_SQDB_TAIL q) → (s.leaf l).reserved q < (s.leaf l).cqFreeSlots q →
      s.hinge.canDma (s.hinge.queueFn l q) = true → leAt (padTo 64 entry) 0 1 ≤ 4 → AnswersWith (.commandFetch l q entry) s fun t =>
        (t.leaf l).host.cmds = (s.leaf l).host.cmds ++ [cmdOf q (s.hinge.cmdWindow l q) (padTo 64 entry)]
        ∧ (t.leaf l).get (Fld.LEAF_Q_STAT_SQ_HEAD q) = ((s.leaf l).get (Fld.LEAF_Q_STAT_SQ_HEAD q) + 1) % (s.leaf l).sqSize q)
    ∧ (∀ entry, (s.leaf l).bit (Fld.LEAF_Q_CFG_EN q) = false → Answers (.commandFetch l q entry) s s)
    ∧ (exec (.holdDrain l) s = .next (s.holdDrain l).settle
      ∧ ∀ r, (s.leaf l).host.hold = [r] → r.q < 64 → canPlace s.hinge (s.leaf l) r.q = true → (drainHold s.hinge (s.leaf l)).2.host.hold = [])
    ∧ (∀ g c, g < 16 → ∃ s1 : State, exec (.cqCoalesceTimeout g c) s = .next s1.settle
      ∧ (s.hinge.groupDue g ((s.leaf (if g < 8 then .A else .B)).adv c).count = true → s1.hinge.get (Fld.HINGE_PCIE_CQG_STAT_ACC g) = 0))

/-- A NOP completes. A SEARCH or COPY whose operands are legal starts, another ends INVALID. ABORT ends the named SEARCH or COPY SQUASHED and completes; it ends INVALID when there is none. A copy that has started stores its bytes in leaf DRAM, or sends them to host memory, and completes with their digest. (R495, R500, R379) -/
def Obligations.HostQueueCommands : Prop :=
  ∀ (s : State) (l : LeafId) (q tag : Nat), s.ready l = true → q < 64 →
    (∀ c, (s.leaf l).waitingCmd q 0 tag = some c → Answers (.nop l q tag) s (s.onLeaf l (Leaf.endCmd c (if c.rsvdOk then 0 else 0x0B) 0)))
    ∧ (∀ c, (s.leaf l).waitingCmd q 1 tag = some c → c.pf1 = none →
      (c.rsvdOk = true → c.addr0 % 64 = 0 → c.addr0 + 352 ≤ softEnd → AnswersWith (.search l q tag) s fun t =>
        (t.leaf l).srch.host = (s.leaf l).srch.host ++ [{ c with started := true }]
        ∧ (t.leaf l).host.cmds = (s.leaf l).host.cmds.map fun x => if x = c then { c with started := true } else x)
      ∧ (c.rsvdOk = false ∨ c.addr0 % 64 ≠ 0 ∨ softEnd < c.addr0 + 352 → Answers (.search l q tag) s (s.onLeaf l (Leaf.endCmd c 0x0B 0))))
    ∧ (∀ c cmd op, (cmd, op) ∈ [(Instr.copyIn l q tag, 2), (.copyOut l q tag, 3)] → (s.leaf l).waitingCmd q op tag = some c →
      (c.pf1 = none → Answers cmd s (s.onLeaf l (if c.copyBad then Leaf.endCmd c 0x0B 0 else Leaf.markStarted c)))
      ∧ (∀ w, c.pf1 = some w → s.hinge.inWindow w c.copyAddr c.len = false → AnswersWith cmd s fun t =>
          (t.leaf l).host.cmds = dropOne c (s.leaf l).host.cmds
          ∧ t.hinge.get Fld.HINGE_VIOL_CNT_COUNT = (s.hinge.get Fld.HINGE_VIOL_CNT_COUNT + 1) % 2 ^ 32))
    ∧ (∀ c, (s.leaf l).waitingCmd q 4 tag = some c → c.rsvdOk = true →
      (∀ x, (s.leaf l).host.cmds.find? (fun y => y.q == c.addr0 / 2 ^ 32 % 64 && y.tag == c.addr0 % 2 ^ 32
          && (y.opcode == 1 || y.opcode == 2 || y.opcode == 3)) = some x → AnswersWith (.abort l q tag) s fun t =>
        (t.leaf l).host.cmds = dropOne c (dropOne x (s.leaf l).host.cmds))
      ∧ ((s.leaf l).host.cmds.find? (fun y => y.q == c.addr0 / 2 ^ 32 % 64 && y.tag == c.addr0 % 2 ^ 32
          && (y.opcode == 1 || y.opcode == 2 || y.opcode == 3)) = none →
        Answers (.abort l q tag) s (s.onLeaf l (Leaf.endCmd c 0x0B 0))))
    ∧ (∀ c, (s.leaf l).host.cmds.find? (fun y => y.q == q && y.tag == tag && y.started && (y.opcode == 2 || y.opcode == 3)) = some c →
      s.hinge.canDma (if c.pf1.isSome then 1 else 0) = true →
      (c.opcode = 2 → ∀ data p, Answers (.copyDone l q tag data false p) s
          (s.onLeaf l fun x => (x.store c.addr1 (padTo c.len data)).endCmd c 0 (crc64 (padTo c.len data)))
        ∧ Answers (.copyDone l q tag data true p) s (s.onLeaf l (Leaf.endCmd c 0x0E 0)))
      ∧ (c.opcode = 3 → ∀ data e, AnswersWith (.copyDone l q tag data e false) s fun t =>
          (t.leaf l).host.cmds = dropOne c (s.leaf l).host.cmds
          ∧ HostOut.memWrite (if c.pf1.isSome then 1 else 0) c.addr1 ((s.leaf l).dramRead c.addr0 c.len) ∈ t.hinge.sent))

/-- CLEAR ends a FAULT by BOUND_LATE and is refused otherwise. A clock fault, a parity error and a silent DRAM channel are STOP faults: a leaf in IDLE, GLAZED or HALTED enters FAULT with the code in STOP_CODE, a TICKING one keeps ticking to its next boundary. A heartbeat ends HINGE_LOST, its loss sets it once. An injection with the key just written and a target of its kind is taken, another is refused. (R525, R526, R528, R530, R531, R537, Table 21.2) -/
def Obligations.FaultCommands : Prop :=
  ∀ (s : State) (l : LeafId), s.ready l = true →
    (∀ w, (s.leaf l).state = 6 → (s.leaf l).get Fld.FLT_STAT_STOP_CODE = 2 → (s.leaf l).flt.returnTo < 8 → AnswersWith (.faultClear l w) s fun t =>
      (t.leaf l).state = (s.leaf l).flt.returnTo ∧ (t.leaf l).bit Fld.FLT_STAT_STOP = false ∧ (t.leaf l).get Fld.FLT_STAT_STOP_CODE = 0)
    ∧ (∀ w, (s.leaf l).state ≠ 6 ∨ (s.leaf l).get Fld.FLT_STAT_STOP_CODE ≠ 2 → AnswersWith (.faultClear l w) s fun t =>
      (t.leaf l).state = (s.leaf l).state ∧ (t.leaf l).bit Fld.FLT_STAT_CLR_REFUSED = true)
    ∧ (∀ c (cmd : Instr) (code : Nat), (cmd, code) ∈ [(Instr.clockFault l c, 0x09)]
          ++ ((List.range 16).map fun k => (Instr.dramChan l k c, 0x0D)) ++ ((List.range 0x13).map fun b => (Instr.cfgParityScan l c (some b), 0x0A)) →
      (s.leaf l).flt.inject = none →
      ((s.leaf l).state = 2 ∨ (s.leaf l).state = 3 ∨ (s.leaf l).state = 5 → AnswersWith cmd s fun t => (t.leaf l).state = 6
        ∧ (t.leaf l).bit Fld.FLT_STAT_STOP = true ∧ (t.leaf l).flt.returnTo = (s.leaf l).state ∧ (t.leaf l).tick.nextAt = none
        ∧ ((s.leaf l).flt.stopCodeValid = false → (t.leaf l).get Fld.FLT_STAT_STOP_CODE = code))
      ∧ ((s.leaf l).state = 4 → AnswersWith cmd s fun t => (t.leaf l).state = 4 ∧ (t.leaf l).flt.stopPend = true))
    ∧ (∀ c, (s.leaf l).flt.inject = none → Answers (.cfgParityScan l c none) s (s.onLeaf l fun x => x.adv c))
    ∧ (∀ c, AnswersWith (.hingeHeartbeat l c) s (fun t => (t.leaf l).bit Fld.FLT_STAT_HINGE_LOST = false)
      ∧ AnswersWith (.hingeLost l c) s (fun t => (t.leaf l).bit Fld.FLT_STAT_HINGE_LOST = true)
      ∧ ((s.leaf l).bit Fld.FLT_STAT_HINGE_LOST = true → Answers (.hingeLost l c) s (s.onLeaf l fun x => x.adv c)))
    ∧ (∀ w : Word, AnswersWith (.fltInjKeyWrite l w) s fun t => (t.leaf l).flt.injKey = decide (w.toNat = 0x494E4A54))
    ∧ (∀ (w : Word) (cmd : Instr) (k : Nat), (cmd, k) ∈ [(Instr.injectCreditSum l w, 1), (.injectSramError l w, 2), (.injectDigestBit l w, 3),
          (.injectLinkCrc l w, 4), (.injectCfgParity l w, 5)] →
      ((s.leaf l).flt.injKey = true → (s.leaf l).bit Fld.FLT_INJ_BUSY = false → (s.leaf l).injTarget k (bitsOf w.toNat 15 0) = true →
        (k ≠ 2 ∨ (s.leaf l).paneObj (bitsOf w.toNat 15 0) = none → AnswersWith cmd s fun t =>
          (t.leaf l).flt.inject = some (k, bitsOf w.toNat 15 0) ∧ (t.leaf l).bit Fld.FLT_INJ_BUSY = true ∧ (t.leaf l).flt.injKey = false)
        ∧ (∀ i, k = 2 → (s.leaf l).paneObj (bitsOf w.toNat 15 0) = some i → i < 4096 → AnswersWith cmd s fun t =>
          (t.leaf l).poisoned i = true ∧ (t.leaf l).flt.inject = (s.leaf l).flt.inject))
      ∧ ((s.leaf l).flt.injKey = false → AnswersWith cmd s fun t =>
          (t.leaf l).bit Fld.FLT_STAT_INJ_REFUSED = true ∧ (t.leaf l).flt.inject = (s.leaf l).flt.inject))

/-- A command that concerns one leaf, other than a reset of it, a stamp or digest on its way to the agreement checker and a tick boundary at which comparison can start, leaves the other leaf as it was, its registers, memory, credits, tokens and results among it, but for what settling may change. Where the hinge has no part of its own in the row and the leaf runs, the hinge stays as it was too; so does it, and the other leaf, at a tick boundary outside mirror mode. (R17, R22) -/
def Obligations.OneLeafIsTouched : Prop :=
  (∀ (c : Instr) (l : LeafId) (s t : State), commandLeaf c = some l → exec c s = .next t →
    (s.leaf l.other).Kept (t.leaf l.other)
    ∧ (commandReachesHinge c = false → s.ready l = true → s.hinge.Kept t.hinge))
  ∧ (∀ (l : LeafId) (c : Nat) (late : Bool) (s t : State), s.hinge.mirror = false →
      exec (if late then .boundLate l c else .tickBoundary l c) s = .next t →
      (s.leaf l.other).Kept (t.leaf l.other) ∧ s.hinge.Kept t.hinge)

/-- If leaf DRAM and flash of both leaves are in canonical form (addresses strictly rising, no entry that holds what an unlisted byte reads as), they are so after a step, whatever the command, and the reset state has that form. The form is the model's own (log entry 12). (R192, R193) -/
def Obligations.EveryStepKeepsMemoryCanonical : Prop :=
  (∀ s t : State, step s = .next t → s.memWf → t.memWf) ∧ State.reset.memWf

/-- If, outside S3, on each route of a leaf's glazed image the credits with the producer, those that travel with tokens on the mesh, those that wait with tokens in the consumer's buffer and those on their way back add up to the route's CREDITS, and the stages' runs are as firings leave them (a run that met POISON is poisoned, a poisoned one has no more than one token left for each output, a computed one is poisoned or has had END on every input), then so it is after a step, for either leaf and whatever the command; and so it is right after reset. (R186, R168, R188, R463) -/
def Obligations.EveryStepConservesCredits : Prop :=
  (∀ (s t : State) (i : LeafId), step s = .next t → (s.leaf i).conserved → (t.leaf i).conserved) ∧ ∀ i, (State.reset.leaf i).conserved

/-- Writing CAP of a leaf that runs puts the local count into TIME_CAP_CNT, and vehicle time, D0 time and D1 time at that count into the LO, HI and FRAC registers: HI x 2^32 + LO ns and FRAC / 2^16 ns, each kept to the 80 bits that the registers hold. It changes no other register and nothing else. (R79) -/
def Obligations.CaptureLatches : Prop :=
  ∀ (s : State) (l : LeafId), s.ready l = true → AnswersWith (.cap l) s fun t =>
    (t.leaf l).rd64 Reg.TIME_CAP_CNT_LO Reg.TIME_CAP_CNT_HI = (s.leaf l).count % 2 ^ 64
    ∧ (∀ e ∈ [(Reg.TIME_CAP_VT_LO, Reg.TIME_CAP_VT_HI, Reg.TIME_CAP_VT_FRAC, (s.leaf l).vt (s.leaf l).count),
        (Reg.TIME_CAP_D0_LO, Reg.TIME_CAP_D0_HI, Reg.TIME_CAP_D0_FRAC, (s.leaf l).time.d0.time (s.leaf l).count),
        (Reg.TIME_CAP_D1_LO, Reg.TIME_CAP_D1_HI, Reg.TIME_CAP_D1_FRAC, (s.leaf l).time.d1.time (s.leaf l).count)],
        2 ^ 16 * (t.leaf l).rd64 e.1 e.2.1 + (t.leaf l).rd e.2.2.1 = e.2.2.2 % 2 ^ 80)
    ∧ (∀ a i, settles a i = false → (a < Reg.TIME_CAP_CNT_LO ∨ Reg.TIME_CAP_D1_FRAC < a) →
        ((t.leaf l).rd a).testBit i = ((s.leaf l).rd a).testBit i)
    ∧ (t.leaf l).time = { (s.leaf l).time with autoRefused := (t.leaf l).time.autoRefused } ∧ (t.leaf l).count = (s.leaf l).count
    ∧ (s.leaf l.other).Kept (t.leaf l.other) ∧ s.hinge.Kept t.hinge

/-- A write of TICK_PERIOD or TICK_CFG while the leaf is TICKING changes neither and sets CFG_REFUSED; otherwise it sets the register's fields by their access type and nothing else. START of a GLAZED or HALTED leaf with no start under way, whose TICK_PERIOD and SUB_RATIO break R82, sets CMD_REFUSED, schedules no boundary and leaves the state; so does START while TICKING, whose boundaries go on. (R85) -/
def Obligations.PeriodAndConfigWrites : Prop :=
  (∀ (s : State) (l : LeafId) (a : Nat) (w : Word), s.ready l = true → a ∈ [Reg.TICK_PERIOD, Reg.TICK_CFG] →
    ((s.leaf l).ticking = true → AnswersWith (.registerWrite (leafBase l + a) w) s fun t =>
      (t.leaf l).rd Reg.TICK_PERIOD = (s.leaf l).rd Reg.TICK_PERIOD ∧ (t.leaf l).rd Reg.TICK_CFG = (s.leaf l).rd Reg.TICK_CFG
      ∧ (t.leaf l).bit Fld.TICK_STAT_CFG_REFUSED = true ∧ (t.leaf l).tick = (s.leaf l).tick)
    ∧ ((s.leaf l).ticking = false → Answers (.registerWrite (leafBase l + a) w) s (s.onLeaf l fun x =>
        match regAt a with
        | none => x
        | some r => x.wr a (r.1.write w.toNat (x.rd a)))))
  ∧ (∀ (s : State) (l : LeafId) (w : Word), s.ready l = true → bitOf w.toNat 30 = false →
    (((s.leaf l).state = 3 ∨ (s.leaf l).state = 5) → (s.leaf l).bit Fld.TICK_STAT_START_PEND = false →
      (s.leaf l).bit Fld.TICK_STAT_BARRIER_WAIT = false → (s.leaf l).tick.held = false →
      ¬ (5000000 ≤ (s.leaf l).rd Reg.TICK_PERIOD ∧ (s.leaf l).rd Reg.TICK_PERIOD ≤ 100000000 ∧ 0 < (s.leaf l).get Fld.TICK_CFG_SUB_RATIO
          ∧ (s.leaf l).rd Reg.TICK_PERIOD % (s.leaf l).get Fld.TICK_CFG_SUB_RATIO = 0
          ∧ 250000 ≤ (s.leaf l).rd Reg.TICK_PERIOD / (s.leaf l).get Fld.TICK_CFG_SUB_RATIO
          ∧ (s.leaf l).rd Reg.TICK_PERIOD / (s.leaf l).get Fld.TICK_CFG_SUB_RATIO ≤ 1000000) →
      AnswersWith (.start l w) s fun t => (t.leaf l).bit Fld.TICK_STAT_CMD_REFUSED = true
        ∧ (t.leaf l).bit Fld.TICK_STAT_START_PEND = false ∧ (t.leaf l).tick = (s.leaf l).tick ∧ (t.leaf l).state = (s.leaf l).state)
    ∧ ((s.leaf l).ticking = true → AnswersWith (.start l w) s fun t => (t.leaf l).bit Fld.TICK_STAT_CMD_REFUSED = true
        ∧ (t.leaf l).tick = (s.leaf l).tick ∧ (t.leaf l).state = (s.leaf l).state))

/-- START of a GLAZED or HALTED leaf with a legal configuration, no load busy and no start under way, while LOCKED is 0, is held with WAIT_MODE 1. The write that locks the mode then schedules the first boundary of a held leaf as R86 says with V the vehicle time of that write, or makes it wait for the barrier, and clears WAIT_MODE. START in any state but GLAZED and HALTED changes nothing but CMD_REFUSED. A START while START_PEND is 1 schedules nothing and leaves CMD_REFUSED as it was, while no load is busy. (R88) -/
def Obligations.StartHeldUntilModeLocks : Prop :=
  (∀ (s : State) (l : LeafId) (w : Word), s.ready l = true → bitOf w.toNat 30 = false →
    (((s.leaf l).state = 3 ∨ (s.leaf l).state = 5) → (s.leaf l).bit Fld.LEAF_GLZ_STAT_BUSY = false →
      ((s.leaf l).bit Fld.TICK_STAT_START_PEND = false → (s.leaf l).bit Fld.TICK_STAT_BARRIER_WAIT = false → (s.leaf l).tick.held = false →
        (s.leaf l).tickCfgOk = true → s.hinge.bit Fld.HINGE_MODE_LOCKED = false → AnswersWith (.start l w) s fun t =>
          (t.leaf l).bit Fld.LEAF_STATUS_WAIT_MODE = true ∧ (t.leaf l).bit Fld.TICK_STAT_START_PEND = false
          ∧ (t.leaf l).tick = { (s.leaf l).tick with held := true, heldBarrier := bitOf w.toNat Fld.TICK_CTRL_BARRIER.lo })
      ∧ ((s.leaf l).bit Fld.TICK_STAT_START_PEND = true → AnswersWith (.start l w) s fun t =>
          (t.leaf l).tick = (s.leaf l).tick ∧ (t.leaf l).bit Fld.TICK_STAT_CMD_REFUSED = (s.leaf l).bit Fld.TICK_STAT_CMD_REFUSED
          ∧ (t.leaf l).bit Fld.TICK_STAT_START_PEND = true))
    ∧ ((s.leaf l).state ≠ 3 → (s.leaf l).state ≠ 5 → AnswersWith (.start l w) s fun t =>
        (t.leaf l).tick = (s.leaf l).tick ∧ (t.leaf l).bit Fld.TICK_STAT_CMD_REFUSED = true
        ∧ (t.leaf l).bit Fld.TICK_STAT_START_PEND = (s.leaf l).bit Fld.TICK_STAT_START_PEND
        ∧ (t.leaf l).bit Fld.TICK_STAT_BARRIER_WAIT = (s.leaf l).bit Fld.TICK_STAT_BARRIER_WAIT))
  ∧ (∀ (s : State) (l : LeafId) (w : Word) (p : Nat), s.hinge.held = false → s.hinge.bit Fld.HINGE_MODE_LOCKED = false →
      (s.leaf l).tick.held = true → ((s.leaf l).state = 3 ∨ (s.leaf l).state = 5) → p = (s.leaf l).rd Reg.TICK_PERIOD → 0 < p →
      AnswersWith (.hingeModeWrite w) s fun t => (t.leaf l).bit Fld.LEAF_STATUS_WAIT_MODE = false ∧ (t.leaf l).tick.held = false
        ∧ ((s.leaf l).tick.heldBarrier = true → (t.leaf l).bit Fld.TICK_STAT_BARRIER_WAIT = true
            ∧ (t.leaf l).tick.nextAt = (s.leaf l).tick.nextAt)
        ∧ ((s.leaf l).tick.heldBarrier = false → (t.leaf l).bit Fld.TICK_STAT_START_PEND = true
            ∧ ∃ k, (t.leaf l).tick.nextAt = some (k * p)
              ∧ (s.leaf l).rd64 Reg.TICK_START_LO Reg.TICK_START_HI ≤ k * p ∧ (s.leaf l).now + 65536 * p ≤ 65536 * (k * p)
              ∧ (1 ≤ k → (k - 1) * p < (s.leaf l).rd64 Reg.TICK_START_LO Reg.TICK_START_HI
                  ∨ 65536 * ((k - 1) * p) < (s.leaf l).now + 65536 * p)))
end

