-- ==== Sys2Proof/Laws/Sparse.lean ====
section
/-!
SUPPORT. Laws of sparse tables: a read after a write gives what was written, a write leaves every other key alone, and every
operation keeps the canonical form.
-/
namespace Sys2Proof

variable {α : Type}

@[simp] theorem sparseGet_del_same (d : Nat → α) (a : Nat) (m : List (Nat × α)) : sparseGet d (sparseDel a m) a = d a := by
  induction m with
  | nil => rfl
  | cons e t ih =>
    obtain ⟨k, w⟩ := e
    by_cases h : k = a <;> simp [sparseDel, sparseGet, h, ih]

theorem sparseGet_del_other (d : Nat → α) {a b : Nat} (h : a ≠ b) (m : List (Nat × α)) :
    sparseGet d (sparseDel a m) b = sparseGet d m b := by
  induction m with
  | nil => rfl
  | cons e t ih =>
    obtain ⟨k, w⟩ := e
    by_cases h1 : k = a
    · subst h1; simp [sparseDel, sparseGet, h, ih]
    · simp [sparseDel, sparseGet, h1, ih]

@[simp] theorem sparseGet_ins_same (d : Nat → α) (a : Nat) (v : α) (m : List (Nat × α)) :
    sparseGet d (sparseIns a v m) a = v := by
  induction m with
  | nil => simp [sparseIns, sparseGet]
  | cons e t ih =>
    obtain ⟨k, w⟩ := e
    by_cases h1 : k < a
    · simp [sparseIns, sparseGet, h1, Nat.ne_of_lt h1, ih]
    · by_cases h2 : k = a <;> simp [sparseIns, sparseGet, h1, h2]

theorem sparseGet_ins_other (d : Nat → α) {a b : Nat} (h : a ≠ b) (v : α) (m : List (Nat × α)) :
    sparseGet d (sparseIns a v m) b = sparseGet d m b := by
  induction m with
  | nil => simp [sparseIns, sparseGet, h]
  | cons e t ih =>
    obtain ⟨k, w⟩ := e
    by_cases h1 : k < a
    · simp [sparseIns, sparseGet, h1, ih]
    · by_cases h2 : k = a
      · subst h2; simp [sparseIns, sparseGet, h]
      · simp [sparseIns, sparseGet, h1, h2, h]

variable [DecidableEq α]

/-- A read after a write to the same key. -/
@[simp] theorem sparseGet_set_same (d : Nat → α) (a : Nat) (v : α) (m : List (Nat × α)) :
    sparseGet d (sparseSet d a v m) a = v := by
  unfold sparseSet; split
  · rename_i h; rw [sparseGet_del_same, h]
  · simp

/-- A write leaves every other key alone. -/
theorem sparseGet_set_other (d : Nat → α) {a b : Nat} (h : a ≠ b) (v : α) (m : List (Nat × α)) :
    sparseGet d (sparseSet d a v m) b = sparseGet d m b := by
  unfold sparseSet; split
  · exact sparseGet_del_other d h m
  · exact sparseGet_ins_other d h v m

theorem sparseWfFrom_mono (d : Nat → α) {lo lo' : Nat} (h : lo' ≤ lo) (m : List (Nat × α)) (hm : sparseWfFrom d lo m = true) :
    sparseWfFrom d lo' m = true := by
  cases m with
  | nil => rfl
  | cons e t => simp only [sparseWfFrom, Bool.and_eq_true, decide_eq_true_eq] at hm ⊢; exact ⟨⟨by omega, hm.1.2⟩, hm.2⟩

theorem sparseDel_wfFrom (d : Nat → α) (a : Nat) (m : List (Nat × α)) (lo : Nat) (hm : sparseWfFrom d lo m = true) :
    sparseWfFrom d lo (sparseDel a m) = true := by
  induction m generalizing lo with
  | nil => rfl
  | cons e t ih =>
    obtain ⟨k, w⟩ := e
    simp only [sparseWfFrom, Bool.and_eq_true, decide_eq_true_eq] at hm
    by_cases h : k = a
    · simp only [sparseDel, h, if_true]; exact ih lo (sparseWfFrom_mono d (by omega) t hm.2)
    · simp only [sparseDel, h, if_false, sparseWfFrom, Bool.and_eq_true, decide_eq_true_eq]; exact ⟨hm.1, ih _ hm.2⟩

theorem sparseIns_wfFrom (d : Nat → α) (a : Nat) (v : α) (hv : v ≠ d a) (m : List (Nat × α)) (lo : Nat) (ha : lo ≤ a)
    (hm : sparseWfFrom d lo m = true) : sparseWfFrom d lo (sparseIns a v m) = true := by
  induction m generalizing lo with
  | nil => simp [sparseIns, sparseWfFrom, ha, hv]
  | cons e t ih =>
    obtain ⟨k, w⟩ := e
    simp only [sparseWfFrom, Bool.and_eq_true, decide_eq_true_eq] at hm
    by_cases h1 : k < a
    · simp only [sparseIns, h1, if_true, sparseWfFrom, Bool.and_eq_true, decide_eq_true_eq]
      exact ⟨hm.1, ih _ (by omega) hm.2⟩
    · by_cases h2 : k = a
      · subst h2; simp only [sparseIns, h1, if_false, if_true, sparseWfFrom, Bool.and_eq_true, decide_eq_true_eq]
        exact ⟨⟨ha, by simpa using hv⟩, hm.2⟩
      · simp only [sparseIns, h1, h2, if_false, sparseWfFrom, Bool.and_eq_true, decide_eq_true_eq]
        exact ⟨⟨ha, by simpa using hv⟩, ⟨⟨by omega, hm.1.2⟩, hm.2⟩⟩

/-- A write keeps the canonical form. -/
theorem sparseSet_wf (d : Nat → α) (a : Nat) (v : α) (m : List (Nat × α)) (hm : sparseWf d m = true) :
    sparseWf d (sparseSet d a v m) = true := by
  unfold sparseSet; split
  · exact sparseDel_wfFrom d a m 0 hm
  · rename_i h; exact sparseIns_wfFrom d a v h m 0 (Nat.zero_le a) hm

end Sys2Proof
end

