-- ==== Sys2Proof/Laws/Memory.lean ====
section
/-!
SUPPORT. Laws of the leaf memories: what a store of bytes changes, that every memory operation keeps the canonical form, and
that memory at reset has it.
-/
namespace Sys2Proof.Machine

/-- A byte outside the stored range reads as before. -/
theorem memPutList_other (m : List Host.Cell) (a : Nat) (bs : List Byte) (x : Nat) (h : x < a ∨ a + bs.length ≤ x) :
    sparseGet memDefault (memPutList m a bs) x = sparseGet memDefault m x := by
  induction bs generalizing m a with
  | nil => rfl
  | cons b t ih =>
    simp only [List.length_cons] at h
    rw [memPutList, ih _ _ (by omega), sparseGet_set_other _ (by omega)]

/-- Byte i of a stored range reads as the byte stored. -/
theorem memPutList_same (m : List Host.Cell) (a : Nat) (bs : List Byte) (i : Nat) (h : i < bs.length) :
    sparseGet memDefault (memPutList m a bs) (a + i) = bs[i] := by
  induction bs generalizing m a i with
  | nil => simp at h
  | cons b t ih =>
    cases i with
    | zero => rw [memPutList, memPutList_other _ _ _ _ (by omega)]; simp
    | succ n =>
      have := ih (sparseSet memDefault a b m) (a + 1) n (by simpa using h)
      rw [memPutList, show a + (n + 1) = a + 1 + n by omega, this]; simp

theorem memPutList_wf (m : List Host.Cell) (a : Nat) (bs : List Byte) (h : Memory.wf m = true) :
    Memory.wf (memPutList m a bs) = true := by
  induction bs generalizing m a with
  | nil => exact h
  | cons b t ih => exact ih _ _ (sparseSet_wf _ _ _ _ h)

/-- A stored DRAM byte reads back, and every other byte reads as before. -/
theorem dramByte_dramPut (l : Leaf) (a x : Nat) (b : Byte) : (l.dramPut a b).dramByte x = if a = x then b else l.dramByte x := by
  by_cases h : a = x
  · subst h; simp [Leaf.dramByte, Leaf.dramPut]
  · simp [Leaf.dramByte, Leaf.dramPut, h, sparseGet_set_other]

theorem dramByte_dramWrite_other (l : Leaf) (a x : Nat) (bs : List Byte) (h : x < a ∨ a + bs.length ≤ x) :
    (l.dramWrite a bs).dramByte x = l.dramByte x := memPutList_other _ _ _ _ h

theorem dramByte_dramWrite_same (l : Leaf) (a i : Nat) (bs : List Byte) (h : i < bs.length) :
    (l.dramWrite a bs).dramByte (a + i) = bs[i] := memPutList_same _ _ _ _ h

theorem dramPut_wf (l : Leaf) (a : Nat) (b : Byte) (h : Memory.wf l.dram = true) : Memory.wf (l.dramPut a b).dram = true :=
  sparseSet_wf _ _ _ _ h

theorem dramWrite_wf (l : Leaf) (a : Nat) (bs : List Byte) (h : Memory.wf l.dram = true) :
    Memory.wf (l.dramWrite a bs).dram = true := memPutList_wf _ _ _ h

theorem flashWrite_wf (l : Leaf) (a : Nat) (bs : List Byte) (h : Memory.wf l.flash = true) :
    Memory.wf (l.flashWrite a bs).flash = true := memPutList_wf _ _ _ h

theorem flashObjPut_wf (bs : List Byte) (l : Leaf) (base ofs : Nat) (stripe : Bool) (h : Memory.wf l.flash = true) :
    Memory.wf (l.flashObjPut base stripe ofs bs).flash = true := by
  induction bs generalizing l ofs with
  | nil => exact h
  | cons b t ih => exact ih _ _ (sparseSet_wf _ _ _ _ h)

theorem sramWrite_wf (l : Leaf) (i ofs : Nat) (bs : List Byte) (h : Memory.wf l.mem.sram = true) :
    Memory.wf (l.sramWrite i ofs bs).mem.sram = true := memPutList_wf _ _ _ h

/-- Memory at reset is in canonical form: nothing is listed. -/
theorem reset_memWf : Memory.wf State.reset.leafA.dram = true ∧ Memory.wf State.reset.leafA.flash = true
    ∧ Memory.wf State.reset.leafB.dram = true ∧ Memory.wf State.reset.leafB.flash = true := ⟨rfl, rfl, rfl, rfl⟩

end Sys2Proof.Machine
end

