-- ==== Sys2Proof/Laws/State.lean ====
section
/-!
SUPPORT. Laws of state updates: one lemma per field per update, each true by rfl, so that no later proof unfolds a record update.
-/
namespace Sys2Proof.Machine

/-! ## A register write changes the registers alone -/

@[simp] theorem Leaf.wr_id (l : Leaf) (a v : Nat) : (l.wr a v).id = l.id := rfl
@[simp] theorem Leaf.wr_dram (l : Leaf) (a v : Nat) : (l.wr a v).dram = l.dram := rfl
@[simp] theorem Leaf.wr_flash (l : Leaf) (a v : Nat) : (l.wr a v).flash = l.flash := rfl
@[simp] theorem Leaf.wr_count (l : Leaf) (a v : Nat) : (l.wr a v).count = l.count := rfl
@[simp] theorem Leaf.wr_fuses (l : Leaf) (a v : Nat) : (l.wr a v).fuses = l.fuses := rfl
@[simp] theorem Leaf.wr_aon (l : Leaf) (a v : Nat) : (l.wr a v).aon = l.aon := rfl
@[simp] theorem Leaf.wr_boot (l : Leaf) (a v : Nat) : (l.wr a v).boot = l.boot := rfl
@[simp] theorem Leaf.wr_time (l : Leaf) (a v : Nat) : (l.wr a v).time = l.time := rfl
@[simp] theorem Leaf.wr_sw (l : Leaf) (a v : Nat) : (l.wr a v).sw = l.sw := rfl
@[simp] theorem Leaf.wr_irq (l : Leaf) (a v : Nat) : (l.wr a v).irq = l.irq := rfl
@[simp] theorem Leaf.wr_ctr (l : Leaf) (a v : Nat) : (l.wr a v).ctr = l.ctr := rfl
@[simp] theorem Leaf.wr_flt (l : Leaf) (a v : Nat) : (l.wr a v).flt = l.flt := rfl
@[simp] theorem Leaf.wr_host (l : Leaf) (a v : Nat) : (l.wr a v).host = l.host := rfl
@[simp] theorem Leaf.wr_tick (l : Leaf) (a v : Nat) : (l.wr a v).tick = l.tick := rfl
@[simp] theorem Leaf.wr_glz (l : Leaf) (a v : Nat) : (l.wr a v).glz = l.glz := rfl
@[simp] theorem Leaf.wr_fab (l : Leaf) (a v : Nat) : (l.wr a v).fab = l.fab := rfl
@[simp] theorem Leaf.wr_mem (l : Leaf) (a v : Nat) : (l.wr a v).mem = l.mem := rfl
@[simp] theorem Leaf.wr_spec (l : Leaf) (a v : Nat) : (l.wr a v).spec = l.spec := rfl
@[simp] theorem Leaf.wr_sns (l : Leaf) (a v : Nat) : (l.wr a v).sns = l.sns := rfl
@[simp] theorem Leaf.wr_filt (l : Leaf) (a v : Nat) : (l.wr a v).filt = l.filt := rfl
@[simp] theorem Leaf.wr_ego (l : Leaf) (a v : Nat) : (l.wr a v).ego = l.ego := rfl
@[simp] theorem Leaf.wr_map (l : Leaf) (a v : Nat) : (l.wr a v).map = l.map := rfl
@[simp] theorem Leaf.wr_vis (l : Leaf) (a v : Nat) : (l.wr a v).vis = l.vis := rfl
@[simp] theorem Leaf.wr_fus (l : Leaf) (a v : Nat) : (l.wr a v).fus = l.fus := rfl
@[simp] theorem Leaf.wr_srch (l : Leaf) (a v : Nat) : (l.wr a v).srch = l.srch := rfl
@[simp] theorem Leaf.wr_solv (l : Leaf) (a v : Nat) : (l.wr a v).solv = l.solv := rfl
@[simp] theorem Leaf.wr_pwr (l : Leaf) (a v : Nat) : (l.wr a v).pwr = l.pwr := rfl
@[simp] theorem Leaf.wr_free (l : Leaf) (a v : Nat) : (l.wr a v).free = l.free := rfl

@[simp] theorem Leaf.put_id (l : Leaf) (f : FieldRef) (v : Nat) : (l.put f v).id = l.id := rfl
@[simp] theorem Leaf.put_dram (l : Leaf) (f : FieldRef) (v : Nat) : (l.put f v).dram = l.dram := rfl
@[simp] theorem Leaf.put_flash (l : Leaf) (f : FieldRef) (v : Nat) : (l.put f v).flash = l.flash := rfl
@[simp] theorem Leaf.put_count (l : Leaf) (f : FieldRef) (v : Nat) : (l.put f v).count = l.count := rfl
@[simp] theorem Leaf.put_fuses (l : Leaf) (f : FieldRef) (v : Nat) : (l.put f v).fuses = l.fuses := rfl
@[simp] theorem Leaf.put_aon (l : Leaf) (f : FieldRef) (v : Nat) : (l.put f v).aon = l.aon := rfl
@[simp] theorem Leaf.put_boot (l : Leaf) (f : FieldRef) (v : Nat) : (l.put f v).boot = l.boot := rfl
@[simp] theorem Leaf.put_time (l : Leaf) (f : FieldRef) (v : Nat) : (l.put f v).time = l.time := rfl
@[simp] theorem Leaf.put_sw (l : Leaf) (f : FieldRef) (v : Nat) : (l.put f v).sw = l.sw := rfl
@[simp] theorem Leaf.put_irq (l : Leaf) (f : FieldRef) (v : Nat) : (l.put f v).irq = l.irq := rfl
@[simp] theorem Leaf.put_ctr (l : Leaf) (f : FieldRef) (v : Nat) : (l.put f v).ctr = l.ctr := rfl
@[simp] theorem Leaf.put_flt (l : Leaf) (f : FieldRef) (v : Nat) : (l.put f v).flt = l.flt := rfl
@[simp] theorem Leaf.put_host (l : Leaf) (f : FieldRef) (v : Nat) : (l.put f v).host = l.host := rfl
@[simp] theorem Leaf.put_tick (l : Leaf) (f : FieldRef) (v : Nat) : (l.put f v).tick = l.tick := rfl
@[simp] theorem Leaf.put_glz (l : Leaf) (f : FieldRef) (v : Nat) : (l.put f v).glz = l.glz := rfl
@[simp] theorem Leaf.put_fab (l : Leaf) (f : FieldRef) (v : Nat) : (l.put f v).fab = l.fab := rfl
@[simp] theorem Leaf.put_mem (l : Leaf) (f : FieldRef) (v : Nat) : (l.put f v).mem = l.mem := rfl
@[simp] theorem Leaf.put_spec (l : Leaf) (f : FieldRef) (v : Nat) : (l.put f v).spec = l.spec := rfl
@[simp] theorem Leaf.put_sns (l : Leaf) (f : FieldRef) (v : Nat) : (l.put f v).sns = l.sns := rfl
@[simp] theorem Leaf.put_filt (l : Leaf) (f : FieldRef) (v : Nat) : (l.put f v).filt = l.filt := rfl
@[simp] theorem Leaf.put_ego (l : Leaf) (f : FieldRef) (v : Nat) : (l.put f v).ego = l.ego := rfl
@[simp] theorem Leaf.put_map (l : Leaf) (f : FieldRef) (v : Nat) : (l.put f v).map = l.map := rfl
@[simp] theorem Leaf.put_vis (l : Leaf) (f : FieldRef) (v : Nat) : (l.put f v).vis = l.vis := rfl
@[simp] theorem Leaf.put_fus (l : Leaf) (f : FieldRef) (v : Nat) : (l.put f v).fus = l.fus := rfl
@[simp] theorem Leaf.put_srch (l : Leaf) (f : FieldRef) (v : Nat) : (l.put f v).srch = l.srch := rfl
@[simp] theorem Leaf.put_solv (l : Leaf) (f : FieldRef) (v : Nat) : (l.put f v).solv = l.solv := rfl
@[simp] theorem Leaf.put_pwr (l : Leaf) (f : FieldRef) (v : Nat) : (l.put f v).pwr = l.pwr := rfl
@[simp] theorem Leaf.put_free (l : Leaf) (f : FieldRef) (v : Nat) : (l.put f v).free = l.free := rfl

@[simp] theorem Leaf.putB_id (l : Leaf) (f : FieldRef) (b : Bool) : (l.putB f b).id = l.id := rfl
@[simp] theorem Leaf.putB_dram (l : Leaf) (f : FieldRef) (b : Bool) : (l.putB f b).dram = l.dram := rfl
@[simp] theorem Leaf.putB_flash (l : Leaf) (f : FieldRef) (b : Bool) : (l.putB f b).flash = l.flash := rfl
@[simp] theorem Leaf.putB_count (l : Leaf) (f : FieldRef) (b : Bool) : (l.putB f b).count = l.count := rfl
@[simp] theorem Leaf.putB_fuses (l : Leaf) (f : FieldRef) (b : Bool) : (l.putB f b).fuses = l.fuses := rfl
@[simp] theorem Leaf.putB_aon (l : Leaf) (f : FieldRef) (b : Bool) : (l.putB f b).aon = l.aon := rfl
@[simp] theorem Leaf.putB_boot (l : Leaf) (f : FieldRef) (b : Bool) : (l.putB f b).boot = l.boot := rfl
@[simp] theorem Leaf.putB_time (l : Leaf) (f : FieldRef) (b : Bool) : (l.putB f b).time = l.time := rfl
@[simp] theorem Leaf.putB_sw (l : Leaf) (f : FieldRef) (b : Bool) : (l.putB f b).sw = l.sw := rfl
@[simp] theorem Leaf.putB_irq (l : Leaf) (f : FieldRef) (b : Bool) : (l.putB f b).irq = l.irq := rfl
@[simp] theorem Leaf.putB_ctr (l : Leaf) (f : FieldRef) (b : Bool) : (l.putB f b).ctr = l.ctr := rfl
@[simp] theorem Leaf.putB_flt (l : Leaf) (f : FieldRef) (b : Bool) : (l.putB f b).flt = l.flt := rfl
@[simp] theorem Leaf.putB_host (l : Leaf) (f : FieldRef) (b : Bool) : (l.putB f b).host = l.host := rfl
@[simp] theorem Leaf.putB_tick (l : Leaf) (f : FieldRef) (b : Bool) : (l.putB f b).tick = l.tick := rfl
@[simp] theorem Leaf.putB_glz (l : Leaf) (f : FieldRef) (b : Bool) : (l.putB f b).glz = l.glz := rfl
@[simp] theorem Leaf.putB_fab (l : Leaf) (f : FieldRef) (b : Bool) : (l.putB f b).fab = l.fab := rfl
@[simp] theorem Leaf.putB_mem (l : Leaf) (f : FieldRef) (b : Bool) : (l.putB f b).mem = l.mem := rfl
@[simp] theorem Leaf.putB_spec (l : Leaf) (f : FieldRef) (b : Bool) : (l.putB f b).spec = l.spec := rfl
@[simp] theorem Leaf.putB_sns (l : Leaf) (f : FieldRef) (b : Bool) : (l.putB f b).sns = l.sns := rfl
@[simp] theorem Leaf.putB_filt (l : Leaf) (f : FieldRef) (b : Bool) : (l.putB f b).filt = l.filt := rfl
@[simp] theorem Leaf.putB_ego (l : Leaf) (f : FieldRef) (b : Bool) : (l.putB f b).ego = l.ego := rfl
@[simp] theorem Leaf.putB_map (l : Leaf) (f : FieldRef) (b : Bool) : (l.putB f b).map = l.map := rfl
@[simp] theorem Leaf.putB_vis (l : Leaf) (f : FieldRef) (b : Bool) : (l.putB f b).vis = l.vis := rfl
@[simp] theorem Leaf.putB_fus (l : Leaf) (f : FieldRef) (b : Bool) : (l.putB f b).fus = l.fus := rfl
@[simp] theorem Leaf.putB_srch (l : Leaf) (f : FieldRef) (b : Bool) : (l.putB f b).srch = l.srch := rfl
@[simp] theorem Leaf.putB_solv (l : Leaf) (f : FieldRef) (b : Bool) : (l.putB f b).solv = l.solv := rfl
@[simp] theorem Leaf.putB_pwr (l : Leaf) (f : FieldRef) (b : Bool) : (l.putB f b).pwr = l.pwr := rfl
@[simp] theorem Leaf.putB_free (l : Leaf) (f : FieldRef) (b : Bool) : (l.putB f b).free = l.free := rfl

@[simp] theorem Leaf.inc_id (l : Leaf) (f : FieldRef) : (l.inc f).id = l.id := rfl
@[simp] theorem Leaf.inc_dram (l : Leaf) (f : FieldRef) : (l.inc f).dram = l.dram := rfl
@[simp] theorem Leaf.inc_flash (l : Leaf) (f : FieldRef) : (l.inc f).flash = l.flash := rfl
@[simp] theorem Leaf.inc_count (l : Leaf) (f : FieldRef) : (l.inc f).count = l.count := rfl
@[simp] theorem Leaf.inc_fuses (l : Leaf) (f : FieldRef) : (l.inc f).fuses = l.fuses := rfl
@[simp] theorem Leaf.inc_aon (l : Leaf) (f : FieldRef) : (l.inc f).aon = l.aon := rfl
@[simp] theorem Leaf.inc_boot (l : Leaf) (f : FieldRef) : (l.inc f).boot = l.boot := rfl
@[simp] theorem Leaf.inc_time (l : Leaf) (f : FieldRef) : (l.inc f).time = l.time := rfl
@[simp] theorem Leaf.inc_sw (l : Leaf) (f : FieldRef) : (l.inc f).sw = l.sw := rfl
@[simp] theorem Leaf.inc_irq (l : Leaf) (f : FieldRef) : (l.inc f).irq = l.irq := rfl
@[simp] theorem Leaf.inc_ctr (l : Leaf) (f : FieldRef) : (l.inc f).ctr = l.ctr := rfl
@[simp] theorem Leaf.inc_flt (l : Leaf) (f : FieldRef) : (l.inc f).flt = l.flt := rfl
@[simp] theorem Leaf.inc_host (l : Leaf) (f : FieldRef) : (l.inc f).host = l.host := rfl
@[simp] theorem Leaf.inc_tick (l : Leaf) (f : FieldRef) : (l.inc f).tick = l.tick := rfl
@[simp] theorem Leaf.inc_glz (l : Leaf) (f : FieldRef) : (l.inc f).glz = l.glz := rfl
@[simp] theorem Leaf.inc_fab (l : Leaf) (f : FieldRef) : (l.inc f).fab = l.fab := rfl
@[simp] theorem Leaf.inc_mem (l : Leaf) (f : FieldRef) : (l.inc f).mem = l.mem := rfl
@[simp] theorem Leaf.inc_spec (l : Leaf) (f : FieldRef) : (l.inc f).spec = l.spec := rfl
@[simp] theorem Leaf.inc_sns (l : Leaf) (f : FieldRef) : (l.inc f).sns = l.sns := rfl
@[simp] theorem Leaf.inc_filt (l : Leaf) (f : FieldRef) : (l.inc f).filt = l.filt := rfl
@[simp] theorem Leaf.inc_ego (l : Leaf) (f : FieldRef) : (l.inc f).ego = l.ego := rfl
@[simp] theorem Leaf.inc_map (l : Leaf) (f : FieldRef) : (l.inc f).map = l.map := rfl
@[simp] theorem Leaf.inc_vis (l : Leaf) (f : FieldRef) : (l.inc f).vis = l.vis := rfl
@[simp] theorem Leaf.inc_fus (l : Leaf) (f : FieldRef) : (l.inc f).fus = l.fus := rfl
@[simp] theorem Leaf.inc_srch (l : Leaf) (f : FieldRef) : (l.inc f).srch = l.srch := rfl
@[simp] theorem Leaf.inc_solv (l : Leaf) (f : FieldRef) : (l.inc f).solv = l.solv := rfl
@[simp] theorem Leaf.inc_pwr (l : Leaf) (f : FieldRef) : (l.inc f).pwr = l.pwr := rfl
@[simp] theorem Leaf.inc_free (l : Leaf) (f : FieldRef) : (l.inc f).free = l.free := rfl

@[simp] theorem Leaf.incBy_id (l : Leaf) (f : FieldRef) (n : Nat) : (l.incBy f n).id = l.id := rfl
@[simp] theorem Leaf.incBy_dram (l : Leaf) (f : FieldRef) (n : Nat) : (l.incBy f n).dram = l.dram := rfl
@[simp] theorem Leaf.incBy_flash (l : Leaf) (f : FieldRef) (n : Nat) : (l.incBy f n).flash = l.flash := rfl
@[simp] theorem Leaf.incBy_count (l : Leaf) (f : FieldRef) (n : Nat) : (l.incBy f n).count = l.count := rfl
@[simp] theorem Leaf.incBy_fuses (l : Leaf) (f : FieldRef) (n : Nat) : (l.incBy f n).fuses = l.fuses := rfl
@[simp] theorem Leaf.incBy_aon (l : Leaf) (f : FieldRef) (n : Nat) : (l.incBy f n).aon = l.aon := rfl
@[simp] theorem Leaf.incBy_boot (l : Leaf) (f : FieldRef) (n : Nat) : (l.incBy f n).boot = l.boot := rfl
@[simp] theorem Leaf.incBy_time (l : Leaf) (f : FieldRef) (n : Nat) : (l.incBy f n).time = l.time := rfl
@[simp] theorem Leaf.incBy_sw (l : Leaf) (f : FieldRef) (n : Nat) : (l.incBy f n).sw = l.sw := rfl
@[simp] theorem Leaf.incBy_irq (l : Leaf) (f : FieldRef) (n : Nat) : (l.incBy f n).irq = l.irq := rfl
@[simp] theorem Leaf.incBy_ctr (l : Leaf) (f : FieldRef) (n : Nat) : (l.incBy f n).ctr = l.ctr := rfl
@[simp] theorem Leaf.incBy_flt (l : Leaf) (f : FieldRef) (n : Nat) : (l.incBy f n).flt = l.flt := rfl
@[simp] theorem Leaf.incBy_host (l : Leaf) (f : FieldRef) (n : Nat) : (l.incBy f n).host = l.host := rfl
@[simp] theorem Leaf.incBy_tick (l : Leaf) (f : FieldRef) (n : Nat) : (l.incBy f n).tick = l.tick := rfl
@[simp] theorem Leaf.incBy_glz (l : Leaf) (f : FieldRef) (n : Nat) : (l.incBy f n).glz = l.glz := rfl
@[simp] theorem Leaf.incBy_fab (l : Leaf) (f : FieldRef) (n : Nat) : (l.incBy f n).fab = l.fab := rfl
@[simp] theorem Leaf.incBy_mem (l : Leaf) (f : FieldRef) (n : Nat) : (l.incBy f n).mem = l.mem := rfl
@[simp] theorem Leaf.incBy_spec (l : Leaf) (f : FieldRef) (n : Nat) : (l.incBy f n).spec = l.spec := rfl
@[simp] theorem Leaf.incBy_sns (l : Leaf) (f : FieldRef) (n : Nat) : (l.incBy f n).sns = l.sns := rfl
@[simp] theorem Leaf.incBy_filt (l : Leaf) (f : FieldRef) (n : Nat) : (l.incBy f n).filt = l.filt := rfl
@[simp] theorem Leaf.incBy_ego (l : Leaf) (f : FieldRef) (n : Nat) : (l.incBy f n).ego = l.ego := rfl
@[simp] theorem Leaf.incBy_map (l : Leaf) (f : FieldRef) (n : Nat) : (l.incBy f n).map = l.map := rfl
@[simp] theorem Leaf.incBy_vis (l : Leaf) (f : FieldRef) (n : Nat) : (l.incBy f n).vis = l.vis := rfl
@[simp] theorem Leaf.incBy_fus (l : Leaf) (f : FieldRef) (n : Nat) : (l.incBy f n).fus = l.fus := rfl
@[simp] theorem Leaf.incBy_srch (l : Leaf) (f : FieldRef) (n : Nat) : (l.incBy f n).srch = l.srch := rfl
@[simp] theorem Leaf.incBy_solv (l : Leaf) (f : FieldRef) (n : Nat) : (l.incBy f n).solv = l.solv := rfl
@[simp] theorem Leaf.incBy_pwr (l : Leaf) (f : FieldRef) (n : Nat) : (l.incBy f n).pwr = l.pwr := rfl
@[simp] theorem Leaf.incBy_free (l : Leaf) (f : FieldRef) (n : Nat) : (l.incBy f n).free = l.free := rfl

@[simp] theorem Leaf.incSat_id (l : Leaf) (f : FieldRef) : (l.incSat f).id = l.id := rfl
@[simp] theorem Leaf.incSat_dram (l : Leaf) (f : FieldRef) : (l.incSat f).dram = l.dram := rfl
@[simp] theorem Leaf.incSat_flash (l : Leaf) (f : FieldRef) : (l.incSat f).flash = l.flash := rfl
@[simp] theorem Leaf.incSat_count (l : Leaf) (f : FieldRef) : (l.incSat f).count = l.count := rfl
@[simp] theorem Leaf.incSat_fuses (l : Leaf) (f : FieldRef) : (l.incSat f).fuses = l.fuses := rfl
@[simp] theorem Leaf.incSat_aon (l : Leaf) (f : FieldRef) : (l.incSat f).aon = l.aon := rfl
@[simp] theorem Leaf.incSat_boot (l : Leaf) (f : FieldRef) : (l.incSat f).boot = l.boot := rfl
@[simp] theorem Leaf.incSat_time (l : Leaf) (f : FieldRef) : (l.incSat f).time = l.time := rfl
@[simp] theorem Leaf.incSat_sw (l : Leaf) (f : FieldRef) : (l.incSat f).sw = l.sw := rfl
@[simp] theorem Leaf.incSat_irq (l : Leaf) (f : FieldRef) : (l.incSat f).irq = l.irq := rfl
@[simp] theorem Leaf.incSat_ctr (l : Leaf) (f : FieldRef) : (l.incSat f).ctr = l.ctr := rfl
@[simp] theorem Leaf.incSat_flt (l : Leaf) (f : FieldRef) : (l.incSat f).flt = l.flt := rfl
@[simp] theorem Leaf.incSat_host (l : Leaf) (f : FieldRef) : (l.incSat f).host = l.host := rfl
@[simp] theorem Leaf.incSat_tick (l : Leaf) (f : FieldRef) : (l.incSat f).tick = l.tick := rfl
@[simp] theorem Leaf.incSat_glz (l : Leaf) (f : FieldRef) : (l.incSat f).glz = l.glz := rfl
@[simp] theorem Leaf.incSat_fab (l : Leaf) (f : FieldRef) : (l.incSat f).fab = l.fab := rfl
@[simp] theorem Leaf.incSat_mem (l : Leaf) (f : FieldRef) : (l.incSat f).mem = l.mem := rfl
@[simp] theorem Leaf.incSat_spec (l : Leaf) (f : FieldRef) : (l.incSat f).spec = l.spec := rfl
@[simp] theorem Leaf.incSat_sns (l : Leaf) (f : FieldRef) : (l.incSat f).sns = l.sns := rfl
@[simp] theorem Leaf.incSat_filt (l : Leaf) (f : FieldRef) : (l.incSat f).filt = l.filt := rfl
@[simp] theorem Leaf.incSat_ego (l : Leaf) (f : FieldRef) : (l.incSat f).ego = l.ego := rfl
@[simp] theorem Leaf.incSat_map (l : Leaf) (f : FieldRef) : (l.incSat f).map = l.map := rfl
@[simp] theorem Leaf.incSat_vis (l : Leaf) (f : FieldRef) : (l.incSat f).vis = l.vis := rfl
@[simp] theorem Leaf.incSat_fus (l : Leaf) (f : FieldRef) : (l.incSat f).fus = l.fus := rfl
@[simp] theorem Leaf.incSat_srch (l : Leaf) (f : FieldRef) : (l.incSat f).srch = l.srch := rfl
@[simp] theorem Leaf.incSat_solv (l : Leaf) (f : FieldRef) : (l.incSat f).solv = l.solv := rfl
@[simp] theorem Leaf.incSat_pwr (l : Leaf) (f : FieldRef) : (l.incSat f).pwr = l.pwr := rfl
@[simp] theorem Leaf.incSat_free (l : Leaf) (f : FieldRef) : (l.incSat f).free = l.free := rfl

@[simp] theorem Leaf.wr64_id (l : Leaf) (lo hi v : Nat) : (l.wr64 lo hi v).id = l.id := rfl
@[simp] theorem Leaf.wr64_dram (l : Leaf) (lo hi v : Nat) : (l.wr64 lo hi v).dram = l.dram := rfl
@[simp] theorem Leaf.wr64_flash (l : Leaf) (lo hi v : Nat) : (l.wr64 lo hi v).flash = l.flash := rfl
@[simp] theorem Leaf.wr64_count (l : Leaf) (lo hi v : Nat) : (l.wr64 lo hi v).count = l.count := rfl
@[simp] theorem Leaf.wr64_fuses (l : Leaf) (lo hi v : Nat) : (l.wr64 lo hi v).fuses = l.fuses := rfl
@[simp] theorem Leaf.wr64_aon (l : Leaf) (lo hi v : Nat) : (l.wr64 lo hi v).aon = l.aon := rfl
@[simp] theorem Leaf.wr64_boot (l : Leaf) (lo hi v : Nat) : (l.wr64 lo hi v).boot = l.boot := rfl
@[simp] theorem Leaf.wr64_time (l : Leaf) (lo hi v : Nat) : (l.wr64 lo hi v).time = l.time := rfl
@[simp] theorem Leaf.wr64_sw (l : Leaf) (lo hi v : Nat) : (l.wr64 lo hi v).sw = l.sw := rfl
@[simp] theorem Leaf.wr64_irq (l : Leaf) (lo hi v : Nat) : (l.wr64 lo hi v).irq = l.irq := rfl
@[simp] theorem Leaf.wr64_ctr (l : Leaf) (lo hi v : Nat) : (l.wr64 lo hi v).ctr = l.ctr := rfl
@[simp] theorem Leaf.wr64_flt (l : Leaf) (lo hi v : Nat) : (l.wr64 lo hi v).flt = l.flt := rfl
@[simp] theorem Leaf.wr64_host (l : Leaf) (lo hi v : Nat) : (l.wr64 lo hi v).host = l.host := rfl
@[simp] theorem Leaf.wr64_tick (l : Leaf) (lo hi v : Nat) : (l.wr64 lo hi v).tick = l.tick := rfl
@[simp] theorem Leaf.wr64_glz (l : Leaf) (lo hi v : Nat) : (l.wr64 lo hi v).glz = l.glz := rfl
@[simp] theorem Leaf.wr64_fab (l : Leaf) (lo hi v : Nat) : (l.wr64 lo hi v).fab = l.fab := rfl
@[simp] theorem Leaf.wr64_mem (l : Leaf) (lo hi v : Nat) : (l.wr64 lo hi v).mem = l.mem := rfl
@[simp] theorem Leaf.wr64_spec (l : Leaf) (lo hi v : Nat) : (l.wr64 lo hi v).spec = l.spec := rfl
@[simp] theorem Leaf.wr64_sns (l : Leaf) (lo hi v : Nat) : (l.wr64 lo hi v).sns = l.sns := rfl
@[simp] theorem Leaf.wr64_filt (l : Leaf) (lo hi v : Nat) : (l.wr64 lo hi v).filt = l.filt := rfl
@[simp] theorem Leaf.wr64_ego (l : Leaf) (lo hi v : Nat) : (l.wr64 lo hi v).ego = l.ego := rfl
@[simp] theorem Leaf.wr64_map (l : Leaf) (lo hi v : Nat) : (l.wr64 lo hi v).map = l.map := rfl
@[simp] theorem Leaf.wr64_vis (l : Leaf) (lo hi v : Nat) : (l.wr64 lo hi v).vis = l.vis := rfl
@[simp] theorem Leaf.wr64_fus (l : Leaf) (lo hi v : Nat) : (l.wr64 lo hi v).fus = l.fus := rfl
@[simp] theorem Leaf.wr64_srch (l : Leaf) (lo hi v : Nat) : (l.wr64 lo hi v).srch = l.srch := rfl
@[simp] theorem Leaf.wr64_solv (l : Leaf) (lo hi v : Nat) : (l.wr64 lo hi v).solv = l.solv := rfl
@[simp] theorem Leaf.wr64_pwr (l : Leaf) (lo hi v : Nat) : (l.wr64 lo hi v).pwr = l.pwr := rfl
@[simp] theorem Leaf.wr64_free (l : Leaf) (lo hi v : Nat) : (l.wr64 lo hi v).free = l.free := rfl

/-! ## A hinge register write changes the hinge registers alone -/

@[simp] theorem Hinge.wr_fn0 (h : Hinge) (a v : Nat) : (h.wr a v).fn0 = h.fn0 := rfl
@[simp] theorem Hinge.wr_fn1 (h : Hinge) (a v : Nat) : (h.wr a v).fn1 = h.fn1 := rfl
@[simp] theorem Hinge.wr_rid0 (h : Hinge) (a v : Nat) : (h.wr a v).rid0 = h.rid0 := rfl
@[simp] theorem Hinge.wr_rid1 (h : Hinge) (a v : Nat) : (h.wr a v).rid1 = h.rid1 := rfl
@[simp] theorem Hinge.wr_apLog2 (h : Hinge) (a v : Nat) : (h.wr a v).apLog2 = h.apLog2 := rfl
@[simp] theorem Hinge.wr_held (h : Hinge) (a v : Nat) : (h.wr a v).held = h.held := rfl
@[simp] theorem Hinge.wr_perst (h : Hinge) (a v : Nat) : (h.wr a v).perst = h.perst := rfl
@[simp] theorem Hinge.wr_aux (h : Hinge) (a v : Nat) : (h.wr a v).aux = h.aux := rfl
@[simp] theorem Hinge.wr_wakeN (h : Hinge) (a v : Nat) : (h.wr a v).wakeN = h.wakeN := rfl
@[simp] theorem Hinge.wr_heldMsgs (h : Hinge) (a v : Nat) : (h.wr a v).heldMsgs = h.heldMsgs := rfl
@[simp] theorem Hinge.wr_sent (h : Hinge) (a v : Nat) : (h.wr a v).sent = h.sent := rfl
@[simp] theorem Hinge.wr_cqFirst (h : Hinge) (a v : Nat) : (h.wr a v).cqFirst = h.cqFirst := rfl
@[simp] theorem Hinge.wr_completion (h : Hinge) (a v : Nat) : (h.wr a v).completion = h.completion := rfl
@[simp] theorem Hinge.wr_agree (h : Hinge) (a v : Nat) : (h.wr a v).agree = h.agree := rfl
@[simp] theorem Hinge.wr_barrier (h : Hinge) (a v : Nat) : (h.wr a v).barrier = h.barrier := rfl

@[simp] theorem Hinge.put_fn0 (h : Hinge) (f : FieldRef) (v : Nat) : (h.put f v).fn0 = h.fn0 := rfl
@[simp] theorem Hinge.put_fn1 (h : Hinge) (f : FieldRef) (v : Nat) : (h.put f v).fn1 = h.fn1 := rfl
@[simp] theorem Hinge.put_rid0 (h : Hinge) (f : FieldRef) (v : Nat) : (h.put f v).rid0 = h.rid0 := rfl
@[simp] theorem Hinge.put_rid1 (h : Hinge) (f : FieldRef) (v : Nat) : (h.put f v).rid1 = h.rid1 := rfl
@[simp] theorem Hinge.put_apLog2 (h : Hinge) (f : FieldRef) (v : Nat) : (h.put f v).apLog2 = h.apLog2 := rfl
@[simp] theorem Hinge.put_held (h : Hinge) (f : FieldRef) (v : Nat) : (h.put f v).held = h.held := rfl
@[simp] theorem Hinge.put_perst (h : Hinge) (f : FieldRef) (v : Nat) : (h.put f v).perst = h.perst := rfl
@[simp] theorem Hinge.put_aux (h : Hinge) (f : FieldRef) (v : Nat) : (h.put f v).aux = h.aux := rfl
@[simp] theorem Hinge.put_wakeN (h : Hinge) (f : FieldRef) (v : Nat) : (h.put f v).wakeN = h.wakeN := rfl
@[simp] theorem Hinge.put_heldMsgs (h : Hinge) (f : FieldRef) (v : Nat) : (h.put f v).heldMsgs = h.heldMsgs := rfl
@[simp] theorem Hinge.put_sent (h : Hinge) (f : FieldRef) (v : Nat) : (h.put f v).sent = h.sent := rfl
@[simp] theorem Hinge.put_cqFirst (h : Hinge) (f : FieldRef) (v : Nat) : (h.put f v).cqFirst = h.cqFirst := rfl
@[simp] theorem Hinge.put_completion (h : Hinge) (f : FieldRef) (v : Nat) : (h.put f v).completion = h.completion := rfl
@[simp] theorem Hinge.put_agree (h : Hinge) (f : FieldRef) (v : Nat) : (h.put f v).agree = h.agree := rfl
@[simp] theorem Hinge.put_barrier (h : Hinge) (f : FieldRef) (v : Nat) : (h.put f v).barrier = h.barrier := rfl

@[simp] theorem Hinge.putB_fn0 (h : Hinge) (f : FieldRef) (b : Bool) : (h.putB f b).fn0 = h.fn0 := rfl
@[simp] theorem Hinge.putB_fn1 (h : Hinge) (f : FieldRef) (b : Bool) : (h.putB f b).fn1 = h.fn1 := rfl
@[simp] theorem Hinge.putB_rid0 (h : Hinge) (f : FieldRef) (b : Bool) : (h.putB f b).rid0 = h.rid0 := rfl
@[simp] theorem Hinge.putB_rid1 (h : Hinge) (f : FieldRef) (b : Bool) : (h.putB f b).rid1 = h.rid1 := rfl
@[simp] theorem Hinge.putB_apLog2 (h : Hinge) (f : FieldRef) (b : Bool) : (h.putB f b).apLog2 = h.apLog2 := rfl
@[simp] theorem Hinge.putB_held (h : Hinge) (f : FieldRef) (b : Bool) : (h.putB f b).held = h.held := rfl
@[simp] theorem Hinge.putB_perst (h : Hinge) (f : FieldRef) (b : Bool) : (h.putB f b).perst = h.perst := rfl
@[simp] theorem Hinge.putB_aux (h : Hinge) (f : FieldRef) (b : Bool) : (h.putB f b).aux = h.aux := rfl
@[simp] theorem Hinge.putB_wakeN (h : Hinge) (f : FieldRef) (b : Bool) : (h.putB f b).wakeN = h.wakeN := rfl
@[simp] theorem Hinge.putB_heldMsgs (h : Hinge) (f : FieldRef) (b : Bool) : (h.putB f b).heldMsgs = h.heldMsgs := rfl
@[simp] theorem Hinge.putB_sent (h : Hinge) (f : FieldRef) (b : Bool) : (h.putB f b).sent = h.sent := rfl
@[simp] theorem Hinge.putB_cqFirst (h : Hinge) (f : FieldRef) (b : Bool) : (h.putB f b).cqFirst = h.cqFirst := rfl
@[simp] theorem Hinge.putB_completion (h : Hinge) (f : FieldRef) (b : Bool) : (h.putB f b).completion = h.completion := rfl
@[simp] theorem Hinge.putB_agree (h : Hinge) (f : FieldRef) (b : Bool) : (h.putB f b).agree = h.agree := rfl
@[simp] theorem Hinge.putB_barrier (h : Hinge) (f : FieldRef) (b : Bool) : (h.putB f b).barrier = h.barrier := rfl

@[simp] theorem Hinge.inc_fn0 (h : Hinge) (f : FieldRef) : (h.inc f).fn0 = h.fn0 := rfl
@[simp] theorem Hinge.inc_fn1 (h : Hinge) (f : FieldRef) : (h.inc f).fn1 = h.fn1 := rfl
@[simp] theorem Hinge.inc_rid0 (h : Hinge) (f : FieldRef) : (h.inc f).rid0 = h.rid0 := rfl
@[simp] theorem Hinge.inc_rid1 (h : Hinge) (f : FieldRef) : (h.inc f).rid1 = h.rid1 := rfl
@[simp] theorem Hinge.inc_apLog2 (h : Hinge) (f : FieldRef) : (h.inc f).apLog2 = h.apLog2 := rfl
@[simp] theorem Hinge.inc_held (h : Hinge) (f : FieldRef) : (h.inc f).held = h.held := rfl
@[simp] theorem Hinge.inc_perst (h : Hinge) (f : FieldRef) : (h.inc f).perst = h.perst := rfl
@[simp] theorem Hinge.inc_aux (h : Hinge) (f : FieldRef) : (h.inc f).aux = h.aux := rfl
@[simp] theorem Hinge.inc_wakeN (h : Hinge) (f : FieldRef) : (h.inc f).wakeN = h.wakeN := rfl
@[simp] theorem Hinge.inc_heldMsgs (h : Hinge) (f : FieldRef) : (h.inc f).heldMsgs = h.heldMsgs := rfl
@[simp] theorem Hinge.inc_sent (h : Hinge) (f : FieldRef) : (h.inc f).sent = h.sent := rfl
@[simp] theorem Hinge.inc_cqFirst (h : Hinge) (f : FieldRef) : (h.inc f).cqFirst = h.cqFirst := rfl
@[simp] theorem Hinge.inc_completion (h : Hinge) (f : FieldRef) : (h.inc f).completion = h.completion := rfl
@[simp] theorem Hinge.inc_agree (h : Hinge) (f : FieldRef) : (h.inc f).agree = h.agree := rfl
@[simp] theorem Hinge.inc_barrier (h : Hinge) (f : FieldRef) : (h.inc f).barrier = h.barrier := rfl

/-! ## Leaves and hinge of the state -/

@[simp] theorem State.leaf_setLeaf_same (s : State) (i : LeafId) (l : Leaf) : (s.setLeaf i l).leaf i = l := by cases i <;> rfl
@[simp] theorem State.leaf_setLeaf_other (s : State) (i : LeafId) (l : Leaf) : (s.setLeaf i l).leaf i.other = s.leaf i.other := by
  cases i <;> rfl
@[simp] theorem State.leaf_other_setLeaf (s : State) (i : LeafId) (l : Leaf) : (s.setLeaf i.other l).leaf i = s.leaf i := by
  cases i <;> rfl
@[simp] theorem State.hinge_setLeaf (s : State) (i : LeafId) (l : Leaf) : (s.setLeaf i l).hinge = s.hinge := by cases i <;> rfl
@[simp] theorem State.pending_setLeaf (s : State) (i : LeafId) (l : Leaf) : (s.setLeaf i l).pending = s.pending := by cases i <;> rfl
@[simp] theorem State.setLeaf_setLeaf (s : State) (i : LeafId) (l m : Leaf) : (s.setLeaf i l).setLeaf i m = s.setLeaf i m := by
  cases i <;> rfl
@[simp] theorem State.setLeaf_self (s : State) (i : LeafId) : s.setLeaf i (s.leaf i) = s := by cases i <;> rfl
@[simp] theorem State.leaf_setHinge (s : State) (i : LeafId) (h : Hinge) : (s.setHinge h).leaf i = s.leaf i := by cases i <;> rfl
@[simp] theorem State.hinge_setHinge (s : State) (h : Hinge) : (s.setHinge h).hinge = h := rfl
@[simp] theorem State.pending_setHinge (s : State) (h : Hinge) : (s.setHinge h).pending = s.pending := rfl
@[simp] theorem State.leaf_onLeaf_same (s : State) (i : LeafId) (f : Leaf → Leaf) : (s.onLeaf i f).leaf i = f (s.leaf i) := by
  cases i <;> rfl
@[simp] theorem State.leaf_onLeaf_other (s : State) (i : LeafId) (f : Leaf → Leaf) : (s.onLeaf i f).leaf i.other = s.leaf i.other := by
  cases i <;> rfl
@[simp] theorem State.hinge_onLeaf (s : State) (i : LeafId) (f : Leaf → Leaf) : (s.onLeaf i f).hinge = s.hinge := by cases i <;> rfl
@[simp] theorem State.pending_onLeaf (s : State) (i : LeafId) (f : Leaf → Leaf) : (s.onLeaf i f).pending = s.pending := by
  cases i <;> rfl
@[simp] theorem State.leaf_onHinge (s : State) (i : LeafId) (f : Hinge → Hinge) : (s.onHinge f).leaf i = s.leaf i := by cases i <;> rfl
@[simp] theorem State.hinge_onHinge (s : State) (f : Hinge → Hinge) : (s.onHinge f).hinge = f s.hinge := rfl
@[simp] theorem State.pending_onHinge (s : State) (f : Hinge → Hinge) : (s.onHinge f).pending = s.pending := rfl

end Sys2Proof.Machine
end

