-- ==== Sys2Proof/Laws/Regs.lean ====
section
/-!
SUPPORT. Laws of registers and fields: a read after a write gives what was written, a write leaves every other register, and
every other field of the same register, alone.
-/
namespace Sys2Proof

theorem bitsOf_setBits_same (w hi lo v : Nat) (h : lo ≤ hi) : bitsOf (setBits w hi lo v) hi lo = v % 2 ^ (hi + 1 - lo) := by
  unfold bitsOf setBits
  have h1 : 2 ^ (hi + 1) = 2 ^ lo * 2 ^ (hi + 1 - lo) := by rw [← pow_add]; congr 1; omega
  have hlt : w % 2 ^ lo < 2 ^ lo := Nat.mod_lt _ (by positivity)
  rw [Nat.shiftLeft_eq, Nat.shiftLeft_eq, Nat.shiftRight_eq_div_pow, h1]
  have e : w >>> (hi + 1) * (2 ^ lo * 2 ^ (hi + 1 - lo)) + v % 2 ^ (hi + 1 - lo) * 2 ^ lo + w % 2 ^ lo
      = w % 2 ^ lo + 2 ^ lo * (v % 2 ^ (hi + 1 - lo) + 2 ^ (hi + 1 - lo) * (w >>> (hi + 1))) := by ring
  rw [e, Nat.add_mul_div_left _ _ (by positivity), Nat.div_eq_of_lt hlt, Nat.zero_add, Nat.add_mul_mod_self_left, Nat.mod_mod]

theorem testBit_bitsOf (w hi lo i : Nat) : (bitsOf w hi lo).testBit i = (decide (i < hi + 1 - lo) && w.testBit (lo + i)) := by
  unfold bitsOf; rw [Nat.testBit_mod_two_pow, Nat.testBit_shiftRight]

/-- The bits of a word with one field replaced: those of the field are the value's, every other one is kept. -/
theorem testBit_setBits (w hi lo v i : Nat) (h : lo ≤ hi) : (setBits w hi lo v).testBit i
    = if lo ≤ i ∧ i ≤ hi then v.testBit (i - lo) else w.testBit i := by
  have hlt : w % 2 ^ lo < 2 ^ lo := Nat.mod_lt _ (by positivity)
  have hv : v % 2 ^ (hi + 1 - lo) < 2 ^ (hi + 1 - lo) := Nat.mod_lt _ (by positivity)
  have h2 : (v % 2 ^ (hi + 1 - lo)) <<< lo < 2 ^ (hi + 1) := by
    rw [Nat.shiftLeft_eq]
    calc v % 2 ^ (hi + 1 - lo) * 2 ^ lo < 2 ^ (hi + 1 - lo) * 2 ^ lo := Nat.mul_lt_mul_of_pos_right hv (by positivity)
      _ = 2 ^ (hi + 1) := by rw [← pow_add]; congr 1; omega
  have e : setBits w hi lo v = (w >>> (hi + 1)) <<< (hi + 1) ||| ((v % 2 ^ (hi + 1 - lo)) <<< lo ||| w % 2 ^ lo) := by
    have h3 : (v % 2 ^ (hi + 1 - lo)) <<< lo + w % 2 ^ lo = (v % 2 ^ (hi + 1 - lo)) <<< lo ||| w % 2 ^ lo := by
      rw [Nat.shiftLeft_add_eq_or_of_lt hlt]
    have h4 : (v % 2 ^ (hi + 1 - lo)) <<< lo ||| w % 2 ^ lo < 2 ^ (hi + 1) :=
      Nat.or_lt_two_pow h2 (lt_of_lt_of_le hlt (Nat.pow_le_pow_right (by omega) (by omega)))
    unfold setBits
    rw [Nat.add_assoc, h3, Nat.shiftLeft_add_eq_or_of_lt h4]
  rw [e, Nat.testBit_or, Nat.testBit_or, Nat.testBit_shiftLeft, Nat.testBit_shiftRight, Nat.testBit_shiftLeft,
    Nat.testBit_mod_two_pow, Nat.testBit_mod_two_pow]
  by_cases h1 : lo ≤ i
  · by_cases h5 : i ≤ hi
    · simp [h1, h5, show ¬ hi + 1 ≤ i by omega, show i - lo < hi + 1 - lo by omega, show ¬ i < lo by omega]
    · simp [h1, h5, show hi + 1 ≤ i by omega, show ¬ i - lo < hi + 1 - lo by omega, show ¬ i < lo by omega,
        show hi + 1 + (i - (hi + 1)) = i by omega]
  · simp [h1, show ¬ hi + 1 ≤ i by omega, show i < lo by omega]

theorem bitsOf_setBits_disjoint (w hi lo v hi' lo' : Nat) (h : lo ≤ hi) (hd : hi < lo' ∨ hi' < lo) :
    bitsOf (setBits w hi lo v) hi' lo' = bitsOf w hi' lo' := by
  apply Nat.eq_of_testBit_eq; intro i
  rw [testBit_bitsOf, testBit_bitsOf, testBit_setBits _ _ _ _ _ h]
  by_cases h1 : i < hi' + 1 - lo'
  · simp [h1, show ¬ (lo ≤ lo' + i ∧ lo' + i ≤ hi) by omega]
  · simp [h1]

theorem bitsOf_lt (w hi lo : Nat) : bitsOf w hi lo < 2 ^ (hi + 1 - lo) := Nat.mod_lt _ (by positivity)

/-- A field inside bits 31 to 0 is the same in the word cut to 32 bits. -/
theorem bitsOf_mod (w hi lo : Nat) (h : hi < 32) : bitsOf (w % 2 ^ 32) hi lo = bitsOf w hi lo := by
  apply Nat.eq_of_testBit_eq; intro i
  rw [testBit_bitsOf, testBit_bitsOf, Nat.testBit_mod_two_pow]
  by_cases h1 : i < hi + 1 - lo
  · simp [h1, show lo + i < 32 by omega]
  · simp [h1]

namespace Machine

/-- A read after a write to the same register. -/
@[simp] theorem Leaf.rd_wr_same (l : Leaf) (a v : Nat) : (l.wr a v).rd a = v % 2 ^ 32 := by simp [Leaf.rd, Leaf.wr]

/-- A write leaves every other register alone. -/
theorem Leaf.rd_wr_other (l : Leaf) (v : Nat) {a b : Nat} (h : a ≠ b) : (l.wr a v).rd b = l.rd b := by
  simp [Leaf.rd, Leaf.wr, sparseGet_set_other _ h]

/-- A field after it was given a value. -/
theorem Leaf.get_put_same (l : Leaf) (f : FieldRef) (v : Nat) (h : f.lo ≤ f.hi) (h32 : f.hi < 32) :
    (l.put f v).get f = v % 2 ^ (f.hi + 1 - f.lo) := by
  simp only [Leaf.get, Leaf.put, Leaf.rd_wr_same, bitsOf_mod _ _ _ h32, bitsOf_setBits_same _ _ _ _ h]

/-- Giving a field a value leaves the fields of every other register alone. -/
theorem Leaf.get_put_other (l : Leaf) (f g : FieldRef) (v : Nat) (h : f.addr ≠ g.addr) : (l.put f v).get g = l.get g := by
  simp only [Leaf.get, Leaf.put, Leaf.rd_wr_other _ _ h]

/-- Giving a field a value leaves the other fields of its register alone. -/
theorem Leaf.get_put_disjoint (l : Leaf) (f g : FieldRef) (v : Nat) (ha : f.addr = g.addr) (h : f.lo ≤ f.hi) (h32 : g.hi < 32)
    (hd : f.hi < g.lo ∨ g.hi < f.lo) : (l.put f v).get g = l.get g := by
  simp only [Leaf.get, Leaf.put, ← ha, Leaf.rd_wr_same, bitsOf_mod _ _ _ h32, bitsOf_setBits_disjoint _ _ _ _ _ _ h hd]

/-- A one-bit field after it was set from a truth value. -/
theorem Leaf.bit_putB_same (l : Leaf) (f : FieldRef) (b : Bool) (h : f.lo ≤ f.hi) (h32 : f.hi < 32) : (l.putB f b).bit f = b := by
  unfold Leaf.bit Leaf.putB
  rw [Leaf.get_put_same l f _ h h32]
  have : b2n b < 2 ^ (f.hi + 1 - f.lo) :=
    lt_of_lt_of_le (show b2n b < 2 ^ 1 by cases b <;> decide) (Nat.pow_le_pow_right (by omega) (by omega))
  rw [Nat.mod_eq_of_lt this]; cases b <;> rfl

theorem Leaf.rd_putB_other (l : Leaf) (f : FieldRef) (b : Bool) {a : Nat} (h : f.addr ≠ a) : (l.putB f b).rd a = l.rd a :=
  Leaf.rd_wr_other _ _ h

theorem Leaf.rd_put_other (l : Leaf) (f : FieldRef) (v : Nat) {a : Nat} (h : f.addr ≠ a) : (l.put f v).rd a = l.rd a :=
  Leaf.rd_wr_other _ _ h

theorem Leaf.rd_lt (l : Leaf) (a : Nat) : l.rd a < 2 ^ 32 := (sparseGet regReset l.regs a).isLt

/-- A read after a write to the same hinge register. -/
@[simp] theorem Hinge.rd_wr_same (h : Hinge) (a v : Nat) : (h.wr a v).rd a = v % 2 ^ 32 := by simp [Hinge.rd, Hinge.wr]

/-- A write leaves every other hinge register alone. -/
theorem Hinge.rd_wr_other (h : Hinge) (v : Nat) {a b : Nat} (hab : a ≠ b) : (h.wr a v).rd b = h.rd b := by
  simp [Hinge.rd, Hinge.wr, sparseGet_set_other _ hab]

/-- A hinge field after it was given a value. -/
theorem Hinge.get_put_same (h : Hinge) (f : FieldRef) (v : Nat) (hf : f.lo ≤ f.hi) (h32 : f.hi < 32) :
    (h.put f v).get f = v % 2 ^ (f.hi + 1 - f.lo) := by
  simp only [Hinge.get, Hinge.put, Hinge.rd_wr_same, bitsOf_mod _ _ _ h32, bitsOf_setBits_same _ _ _ _ hf]

theorem Hinge.get_put_other (h : Hinge) (f g : FieldRef) (v : Nat) (hfg : f.addr ≠ g.addr) : (h.put f v).get g = h.get g := by
  simp only [Hinge.get, Hinge.put, Hinge.rd_wr_other _ _ hfg]

theorem Hinge.get_put_disjoint (h : Hinge) (f g : FieldRef) (v : Nat) (ha : f.addr = g.addr) (hf : f.lo ≤ f.hi) (h32 : g.hi < 32)
    (hd : f.hi < g.lo ∨ g.hi < f.lo) : (h.put f v).get g = h.get g := by
  simp only [Hinge.get, Hinge.put, ← ha, Hinge.rd_wr_same, bitsOf_mod _ _ _ h32, bitsOf_setBits_disjoint _ _ _ _ _ _ hf hd]

theorem Hinge.rd_put_other (h : Hinge) (f : FieldRef) (v : Nat) {a : Nat} (hf : f.addr ≠ a) : (h.put f v).rd a = h.rd a :=
  Hinge.rd_wr_other _ _ hf

end Machine
end Sys2Proof
end

