-- ==== Sys2Proof/Laws/Settle.lean ====
section
/-!
SUPPORT. Laws of settling: what State.settle leaves unchanged (State.Kept) and what it establishes (State.Shown).
-/
namespace Sys2Proof.Machine

/-! ## The bits, with addresses written out -/

theorem settles_def (a i : Nat) : settles a i =
    if a / 2 ^ 20 = 4 then true
    else if a = 0x10 then i == 14
    else if 0x1000 ≤ a ∧ a < 0x1800 then (a % 0x20 == 0x10 && i == 27) || (a % 0x20 == 0x1C && decide (16 ≤ i) && decide (i ≤ 29))
    else if a = 0x200044 then i == 2
    else if a = 0x1C00000 then i == 1 || i == 3 || (decide (8 ≤ i) && decide (i ≤ 12))
    else a == 0xF00 || a == 0xF04 || a == 0x1C00020 || a == 0x1C00028 || (decide (0x1C01000 ≤ a) && decide (a < 0x1C01800)) := rfl

theorem hingeSettles_def (a i : Nat) : hingeSettles a i =
    if a = 0x8300000 then i == 16 || i == 17
    else a == 0x8300024 || a == 0x8300028 || (decide (0x8300200 ≤ a) && decide (a < 0x8300280) && a % 8 == 4) := rfl

/-! ## The relation, one update at a time -/

/-- Leaf.Kept with the DRAM's part behind a condition b, so that it composes. -/
structure Leaf.Near (b : Prop) (l m : Leaf) : Prop where
  bits : ∀ a i, settles a i = false → (m.rd a).testBit i = (l.rd a).testBit i
  dram : b → m.dram = l.dram
  cmds : m.host.cmds = l.host.cmds
  toPlace : m.host.toPlace = l.host.toPlace
  flt : m.flt = { l.flt with safeN := m.flt.safeN }
  time : m.time = { l.time with autoRefused := m.time.autoRefused }
  id : m.id = l.id
  flash : m.flash = l.flash
  count : m.count = l.count
  fuses : m.fuses = l.fuses
  aon : m.aon = l.aon
  boot : m.boot = l.boot
  sw : m.sw = l.sw
  tick : m.tick = l.tick
  glz : m.glz = l.glz
  fab : m.fab = l.fab
  mem : m.mem = l.mem
  spec : m.spec = l.spec
  sns : m.sns = l.sns
  filt : m.filt = l.filt
  ego : m.ego = l.ego
  map : m.map = l.map
  vis : m.vis = l.vis
  fus : m.fus = l.fus
  srch : m.srch = l.srch
  solv : m.solv = l.solv
  pwr : m.pwr = l.pwr
  free : m.free = l.free

variable {b : Prop} {l m n : Leaf}

theorem Leaf.Near.refl (b : Prop) (l : Leaf) : l.Near b l :=
  ⟨fun _ _ _ => rfl, fun _ => rfl, rfl, rfl, rfl, rfl, rfl, rfl, rfl, rfl, rfl, rfl, rfl, rfl, rfl, rfl, rfl, rfl, rfl, rfl, rfl, rfl, rfl, rfl, rfl, rfl, rfl, rfl⟩

theorem Leaf.Near.trans (h1 : l.Near b m) (h2 : m.Near b n) : l.Near b n :=
  ⟨fun a i h => (h2.bits a i h).trans (h1.bits a i h), fun h => (h2.dram h).trans (h1.dram h), h2.cmds.trans h1.cmds, h2.toPlace.trans h1.toPlace,
   by rw [h2.flt, h1.flt], by rw [h2.time, h1.time], h2.id.trans h1.id, h2.flash.trans h1.flash, h2.count.trans h1.count, h2.fuses.trans h1.fuses, h2.aon.trans h1.aon, h2.boot.trans h1.boot, h2.sw.trans h1.sw, h2.tick.trans h1.tick, h2.glz.trans h1.glz, h2.fab.trans h1.fab, h2.mem.trans h1.mem, h2.spec.trans h1.spec, h2.sns.trans h1.sns, h2.filt.trans h1.filt, h2.ego.trans h1.ego, h2.map.trans h1.map, h2.vis.trans h1.vis, h2.fus.trans h1.fus, h2.srch.trans h1.srch, h2.solv.trans h1.solv, h2.pwr.trans h1.pwr, h2.free.trans h1.free⟩

theorem Leaf.Near.weaken (h : l.Near True m) : l.Near b m :=
  { h with dram := fun _ => h.dram trivial }

/-- A register write all of whose bits settle. -/
theorem Leaf.near_wr (l : Leaf) (a v : Nat) (h : ∀ i < 32, settles a i = true) : l.Near b (l.wr a v) :=
  { Leaf.Near.refl b l with
    bits := fun x i hx => by
      by_cases hi : i < 32
      · rw [Leaf.rd_wr_other]; intro e; subst e; rw [h i hi] at hx; cases hx
      · have hp : 2 ^ 32 ≤ 2 ^ i := Nat.pow_le_pow_right (by omega) (by omega)
        rw [Nat.testBit_lt_two_pow (lt_of_lt_of_le (Leaf.rd_lt _ _) hp), Nat.testBit_lt_two_pow (lt_of_lt_of_le (Leaf.rd_lt _ _) hp)] }

/-- A field write all of whose bits settle. -/
theorem Leaf.near_put (l : Leaf) (f : FieldRef) (v : Nat) (hl : f.lo ≤ f.hi)
    (h : ∀ i, f.lo ≤ i → i ≤ f.hi → settles f.addr i = true) : l.Near b (l.put f v) :=
  { Leaf.Near.refl b l with
    bits := fun x i hx => by
      by_cases hi : i < 32
      · by_cases e : f.addr = x
        · subst e
          have hn : ¬ (f.lo ≤ i ∧ i ≤ f.hi) := fun hh => by rw [h i hh.1 hh.2] at hx; cases hx
          rw [Leaf.put, Leaf.rd_wr_same, Nat.testBit_mod_two_pow, testBit_setBits _ _ _ _ _ hl]; simp [hi, hn]
        · rw [Leaf.put, Leaf.rd_wr_other _ _ e]
      · have hp : 2 ^ 32 ≤ 2 ^ i := Nat.pow_le_pow_right (by omega) (by omega)
        rw [Nat.testBit_lt_two_pow (lt_of_lt_of_le (Leaf.rd_lt _ _) hp), Nat.testBit_lt_two_pow (lt_of_lt_of_le (Leaf.rd_lt _ _) hp)] }

theorem Leaf.near_foldl {α : Type} (f : Leaf → α → Leaf) (xs : List α) (l : Leaf)
    (h : ∀ x ∈ xs, ∀ k : Leaf, k.Near b (f k x)) : l.Near b (xs.foldl f l) := by
  induction xs generalizing l with
  | nil => exact Leaf.Near.refl b l
  | cons x t ih =>
    exact (h x (by simp) l).trans (ih (f l x) fun y hy => h y (by simp [hy]))

/-- m is l but for the interrupt controller, the counters and the messages on their way. -/
structure Leaf.IrqOnly (l m : Leaf) : Prop where
  regs : ∀ a, a / 2 ^ 20 ≠ 4 → m.rd a = l.rd a
  eq : m = { l with regs := m.regs, irq := m.irq, ctr := m.ctr, host := { l.host with irqMsgs := m.host.irqMsgs } }

theorem Leaf.IrqOnly.refl (l : Leaf) : l.IrqOnly l := ⟨fun _ _ => rfl, rfl⟩

theorem Leaf.IrqOnly.trans (h1 : l.IrqOnly m) (h2 : m.IrqOnly n) : l.IrqOnly n :=
  ⟨fun a h => (h2.regs a h).trans (h1.regs a h), by have h3 := h2.eq; rw [h1.eq] at h3; exact h3⟩

theorem Leaf.IrqOnly.near (h : l.IrqOnly m) : l.Near b m := by
  have hb : ∀ a i, settles a i = false → (m.rd a).testBit i = (l.rd a).testBit i := fun a i hs => by
    rw [h.regs a fun e => by rw [settles_def, if_pos e] at hs; cases hs]
  have e := h.eq
  exact ⟨hb, fun _ => by rw [e], by rw [e], by rw [e], by rw [e], by rw [e], by rw [e], by rw [e], by rw [e], by rw [e], by rw [e], by rw [e], by rw [e], by rw [e], by rw [e], by rw [e], by rw [e], by rw [e], by rw [e], by rw [e], by rw [e], by rw [e], by rw [e], by rw [e], by rw [e], by rw [e], by rw [e], by rw [e]⟩

theorem Leaf.IrqOnly.flt (h : l.IrqOnly m) : m.flt = l.flt := by rw [h.eq]

theorem Leaf.IrqOnly.get (h : l.IrqOnly m) (f : FieldRef) (hf : f.addr / 2 ^ 20 ≠ 4) : m.get f = l.get f := by
  unfold Leaf.get; rw [h.regs _ hf]

theorem Leaf.IrqOnly.foldl {α : Type} (f : Leaf → α → Leaf) (xs : List α) (l : Leaf)
    (h : ∀ x ∈ xs, ∀ k : Leaf, k.IrqOnly (f k x)) : l.IrqOnly (xs.foldl f l) := by
  induction xs generalizing l with
  | nil => exact Leaf.IrqOnly.refl l
  | cons x t ih => exact (h x (by simp) l).trans (ih (f l x) fun y hy => h y (by simp [hy]))

theorem Leaf.irq_wr (l : Leaf) (a v : Nat) (h : a / 2 ^ 20 = 4) : l.IrqOnly (l.wr a v) :=
  ⟨fun x hx => Leaf.rd_wr_other _ _ (fun e => hx (e ▸ h)), rfl⟩

theorem Leaf.irq_put (l : Leaf) (f : FieldRef) (v : Nat) (h : f.addr / 2 ^ 20 = 4) : l.IrqOnly (l.put f v) := Leaf.irq_wr l _ _ h

theorem Leaf.irq_orReg (l : Leaf) (a m : Nat) (h : a / 2 ^ 20 = 4) : l.IrqOnly (l.orReg a m) := Leaf.irq_wr l _ _ h

theorem Leaf.IrqOnly.put (h : l.IrqOnly m) (f : FieldRef) (v : Nat) (hf : f.addr / 2 ^ 20 = 4) : l.IrqOnly (m.put f v) :=
  h.trans (Leaf.irq_put m f v hf)

theorem Leaf.IrqOnly.putB (h : l.IrqOnly m) (f : FieldRef) (v : Bool) (hf : f.addr / 2 ^ 20 = 4) : l.IrqOnly (m.putB f v) :=
  h.trans (Leaf.irq_put m f _ hf)

theorem Leaf.irq_irq (l : Leaf) (x : IrqState) : l.IrqOnly { l with irq := x } := ⟨fun _ _ => rfl, rfl⟩
theorem Leaf.irq_ctr (l : Leaf) (x : CounterState) : l.IrqOnly { l with ctr := x } := ⟨fun _ _ => rfl, rfl⟩
theorem Leaf.irq_pushed (l : Leaf) (x : IrqState) (y : List Nat) :
    l.IrqOnly { l with irq := x, host := { l.host with irqMsgs := y } } := ⟨fun _ _ => rfl, rfl⟩

theorem Leaf.near_ctr (l : Leaf) (x : CounterState) : l.Near b { l with ctr := x } := (Leaf.irq_ctr l x).near
theorem Leaf.near_hold (l : Leaf) (x : List OutRec) : l.Near b { l with host := { l.host with hold := x } } :=
  { Leaf.Near.refl b l with bits := fun _ _ _ => rfl }
/-! ## The interrupt controller -/

theorem Leaf.irq_accEvent (l : Leaf) (s : Nat) : l.IrqOnly (l.accEvent s) := by
  unfold Leaf.accEvent
  split
  · exact Leaf.IrqOnly.refl l
  · have hv : l.get (Fld.IRQ_TGT_TARGET s) < 2 ^ 6 := bitsOf_lt _ _ _
    have h1 : l.IrqOnly (l.incSat (Fld.IRQ_VEC_STAT_ACC (l.get (Fld.IRQ_TGT_TARGET s)))) :=
      Leaf.irq_put l _ _ (by show (0x401004 + 0x8 * _) / 2 ^ 20 = 4; omega)
    dsimp only
    split
    · exact h1.trans (Leaf.irq_irq _ _)
    · exact h1

theorem Leaf.irq_setPend (l : Leaf) (s : Nat) (hs : s < 512) : l.IrqOnly (l.setPend s) :=
  (Leaf.irq_orReg l (Reg.IRQ_PEND (s / 32)) (srcBit s)
    (by show (0x400000 + 0x4 * (s / 32)) / 2 ^ 20 = 4; omega)).trans (Leaf.irq_irq _ _)

theorem Leaf.irq_raise (l : Leaf) (s : Nat) (hs : s < 512) : l.IrqOnly (l.raise s) := by
  unfold Leaf.raise
  split
  · have h1 : l.IrqOnly (l.orReg (Reg.IRQ_RAW (s / 32)) (srcBit s)) :=
      Leaf.irq_orReg l _ _ (by show (0x400040 + 0x4 * (s / 32)) / 2 ^ 20 = 4; omega)
    exact ((h1.trans (Leaf.irq_setPend _ s hs)).trans (Leaf.irq_ctr _ _)).trans (Leaf.irq_accEvent _ s)
  · exact Leaf.IrqOnly.refl l

theorem Leaf.irq_setLevel (l : Leaf) (s : Nat) (hs : s < 512) (on : Bool) : l.IrqOnly (l.setLevel s on) := by
  unfold Leaf.setLevel; dsimp only
  split
  · exact (Leaf.irq_raise l s hs).trans (Leaf.irq_irq _ _)
  · split
    · exact Leaf.irq_irq _ _
    · exact Leaf.IrqOnly.refl l

theorem Leaf.irq_refreshLevels (l : Leaf) : l.IrqOnly l.refreshLevels := by
  unfold Leaf.refreshLevels
  split
  · exact Leaf.IrqOnly.foldl _ _ _ fun s hs k => Leaf.irq_setLevel k s (by
      have : ∀ x ∈ levelSources, x < 512 := by decide
      exact this s hs) _
  · exact Leaf.IrqOnly.refl l

theorem wordBits_lt (w word s : Nat) (h : s ∈ wordBits w word) : s < 32 * w + 32 := by
  simp only [wordBits, List.mem_map, List.mem_filter, List.mem_range] at h
  obtain ⟨x, ⟨hx, -⟩, rfl⟩ := h; omega

theorem Leaf.candidates_lt (l : Leaf) (s : Nat) (h : s ∈ l.candidates) : s < 512 := by
  simp only [Leaf.candidates, List.mem_filter, List.mem_flatMap, List.mem_range] at h
  obtain ⟨⟨w, hw, h1⟩, -⟩ := h
  split at h1
  · simp at h1
  · have := wordBits_lt _ _ _ h1; omega

theorem Leaf.irq_showStack (l : Leaf) : l.IrqOnly l.showStack := by
  unfold Leaf.showStack; dsimp only
  have h1 : l.IrqOnly ((l.putB Fld.IRQ_RPRI_EMPTY (l.irq.stack.length == 0)).put Fld.IRQ_RPRI_DEPTH l.irq.stack.length) :=
    ((Leaf.IrqOnly.refl l).putB _ _ (by decide)).put _ _ (by decide)
  refine Leaf.IrqOnly.putB ?_ _ _ (by decide)
  split
  · exact (h1.put _ _ (by decide)).put _ _ (by decide)
  · exact (h1.put _ _ (by decide)).put _ _ (by decide)

theorem Leaf.irq_sendVec (l : Leaf) (v : Nat) (hv : v < 64) : l.IrqOnly (l.sendVec v) := by
  have h1 : l.IrqOnly ((l.ofVec v l.deliverable).foldl (fun m s => m.orReg (Reg.IRQ_ACT (s / 32)) (srcBit s)) l) :=
    Leaf.IrqOnly.foldl _ _ _ fun s hs k => Leaf.irq_wr k _ _ (by
      have : s < 512 := Leaf.candidates_lt l s (by
        simp only [Leaf.ofVec, Leaf.deliverable, List.mem_filter] at hs; exact hs.1.1)
      show (0x4000C0 + 0x4 * (s / 32)) / 2 ^ 20 = 4; omega)
  unfold Leaf.sendVec; dsimp only
  generalize (l.ofVec v l.deliverable).foldl (fun m s => m.orReg (Reg.IRQ_ACT (s / 32)) (srcBit s)) l = k at h1 ⊢
  exact (((h1.trans (Leaf.irq_pushed k _ _)).put _ _ (by show (0x401004 + 0x8 * v) / 2 ^ 20 = 4; omega)).put _ _
    (by decide)).trans (Leaf.irq_showStack _)

theorem foldl_pick_mem {α : Type} (f : Option α → α → Option α)
    (hf : ∀ o x, f o x = o ∨ f o x = some x) (xs : List α) (o : Option α) (v : α) (h : xs.foldl f o = some v) :
    o = some v ∨ v ∈ xs := by
  induction xs generalizing o with
  | nil => exact .inl h
  | cons x t ih =>
    rcases ih (f o x) h with h1 | h1
    · rcases hf o x with h2 | h2
      · exact .inl (h2 ▸ h1)
      · rw [h2] at h1; cases h1; exact .inr (by simp)
    · exact .inr (by simp [h1])

theorem Leaf.nextVec_lt (l : Leaf) (v : Nat) (h : l.nextVec = some v) : v < 64 := by
  unfold Leaf.nextVec at h; dsimp only at h
  have := foldl_pick_mem _ (fun o x => by
    cases o with
    | none => exact .inr rfl
    | some y => dsimp only; split <;> simp) _ _ _ h
  rcases this with h1 | h1
  · cases h1
  · simp only [List.mem_filter, List.mem_range] at h1; exact h1.1

theorem Leaf.irq_pumpN (k : Nat) (l : Leaf) : l.IrqOnly (Leaf.pumpN k l) := by
  induction k generalizing l with
  | zero => exact Leaf.IrqOnly.refl l
  | succ k ih =>
    unfold Leaf.pumpN
    split
    · split
      · exact Leaf.IrqOnly.refl l
      · rename_i v hv; exact (Leaf.irq_sendVec l v (Leaf.nextVec_lt l v hv)).trans (ih _)
    · exact Leaf.IrqOnly.refl l

theorem Leaf.irq_pump (l : Leaf) : l.IrqOnly l.pump := by
  unfold Leaf.pump; split
  · exact Leaf.irq_pumpN 9 l
  · exact Leaf.IrqOnly.refl l

/-! ## Holdover, SAFE_N, the fault log -/

theorem Leaf.near_refreshHoldover (l : Leaf) : l.Near b l.refreshHoldover := by
  have hp (k : Leaf) (v : Bool) : k.Near b (k.putB Fld.TIME_VT_STAT_HOLDOVER v) :=
    Leaf.near_put k _ _ (by decide) fun i h1 h2 => by
      have h3 : 2 ≤ i := h1
      have h4 : i ≤ 2 := h2
      obtain rfl : i = 2 := by omega
      decide
  unfold Leaf.refreshHoldover
  split
  · exact Leaf.Near.refl b l
  · split
    · refine Leaf.Near.trans (m := { l with time := { l.time with autoRefused := false } }) ?_ (hp _ _)
      exact { Leaf.Near.refl b l with bits := fun _ _ _ => rfl, time := rfl }
    · split
      · exact Leaf.Near.refl b l
      · exact hp _ _

theorem Leaf.near_refreshSafe (l : Leaf) : l.Near b l.refreshSafe := by
  have h1 : l.Near b (l.put Fld.FLT_STAT_SAFE_WHY l.safeWhy) := Leaf.near_put l _ _ (by decide) (by
    intro i hi1 hi2
    have h3 : 8 ≤ i := hi1
    have h4 : i ≤ 12 := hi2
    interval_cases i <;> decide)
  unfold Leaf.refreshSafe; dsimp only
  split
  · exact h1
  · refine (h1.trans ?_).trans (Leaf.irq_raise _ _ (by decide)).near
    exact { Leaf.Near.refl b _ with bits := fun _ _ _ => rfl, flt := rfl }

theorem Leaf.near_settle (l : Leaf) : l.Near b l.settle := by
  unfold Leaf.settle; split
  · exact Leaf.Near.refl b l
  · exact (((Leaf.near_refreshHoldover l).trans (Leaf.irq_refreshLevels _).near).trans (Leaf.near_refreshSafe _)).trans (Leaf.irq_pump _).near

theorem Leaf.near_flagEvent (l : Leaf) (f : FieldRef) (s : Nat) (hf : f.lo = f.hi) (h : settles f.addr f.lo = true) (hs : s < 512) :
    l.Near b (l.flagEvent f s) :=
  (Leaf.near_put l f _ (by omega) fun i h1 h2 => by rw [show i = f.lo by omega]; exact h).trans (Leaf.irq_raise _ s hs).near

theorem Leaf.near_logRecord (l : Leaf) (bs : List Byte) : l.Near b (l.logRecord bs) := by
  have hh : l.get Fld.FLT_LOG_HEAD_HEAD < 2 ^ 6 := bitsOf_lt _ _ _
  unfold Leaf.logRecord; dsimp only
  split
  · exact (Leaf.near_wr l _ _ fun _ _ => rfl).trans
      (Leaf.near_flagEvent _ _ _ rfl (by decide) (by decide))
  · refine Leaf.Near.trans (m := l.putRecord _ _) ?_ (Leaf.near_wr _ _ _ fun _ _ => rfl)
    refine Leaf.near_foldl _ _ _ fun j hj k => Leaf.near_wr k _ _ fun i _ => ?_
    have hj' : j < 8 := List.mem_range.mp hj
    generalize l.get Fld.FLT_LOG_HEAD_HEAD = x at hh
    have e1 : ¬ (Reg.FLT_LOG x 0 + 4 * j) / 2 ^ 20 = 4 := by show ¬ (0x1C01000 + 0x20 * x + 0x4 * 0 + 4 * j) / 2 ^ 20 = 4; omega
    have e2 : 0x1C01000 ≤ Reg.FLT_LOG x 0 + 4 * j ∧ Reg.FLT_LOG x 0 + 4 * j < 0x1C01800 := by
      show 0x1C01000 ≤ 0x1C01000 + 0x20 * x + 0x4 * 0 + 4 * j ∧ 0x1C01000 + 0x20 * x + 0x4 * 0 + 4 * j < 0x1C01800; omega
    generalize Reg.FLT_LOG x 0 + 4 * j = a at e1 e2
    rw [settles_def]
    rw [if_neg e1, if_neg (by omega), if_neg (by omega), if_neg (by omega), if_neg (by omega)]
    simp [e2]

theorem Leaf.near_notify (l : Leaf) (code : Nat) (i : FaultInfo) : l.Near b (l.notify code i) :=
  ((Leaf.near_logRecord l _).trans (Leaf.near_ctr _ _)).trans (Leaf.near_flagEvent _ _ _ rfl (by decide) (by decide))

theorem Leaf.near_mirror (l : Leaf) (v : Bool) : l.Near b (l.putB Fld.LEAF_STATUS_MIRROR v) :=
  Leaf.near_put l _ _ (by decide) fun i h1 h2 => by
    have h3 : 14 ≤ i := h1
    have h4 : i ≤ 14 := h2
    obtain rfl : i = 14 := by omega
    decide

theorem settles_qcfg (q : Nat) (hq : q < 64) : settles (Reg.LEAF_Q_CFG q) 27 = true := by
  show settles (0x1010 + 0x20 * q) 27 = true
  have e1 : ¬ (0x1010 + 0x20 * q) / 2 ^ 20 = 4 := by omega
  rw [settles_def]
  rw [if_neg e1, if_neg (by omega), if_pos (by omega)]
  simp [show (0x1010 + 0x20 * q) % 0x20 = 0x10 by omega]

theorem settles_qstat (q i : Nat) (hq : q < 64) (h1 : 16 ≤ i) (h2 : i ≤ 29) : settles (Reg.LEAF_Q_STAT q) i = true := by
  show settles (0x101C + 0x20 * q) i = true
  have e1 : ¬ (0x101C + 0x20 * q) / 2 ^ 20 = 4 := by omega
  rw [settles_def]
  rw [if_neg e1, if_neg (by omega), if_pos (by omega)]
  simp [show (0x101C + 0x20 * q) % 0x20 = 0x1C by omega, h1, h2]

theorem Leaf.near_settleBusy (l : Leaf) : l.Near b l.settleBusy := by
  refine Leaf.near_foldl _ _ _ fun q hq k => ?_
  have hq' : q < 64 := List.mem_range.mp hq
  split
  · exact Leaf.near_put k _ _ (by simp) fun i h1 h2 => by
      have h3 : 27 ≤ i := h1
      have h4 : i ≤ 27 := h2
      obtain rfl : i = 27 := by omega
      exact settles_qcfg q hq'
  · exact Leaf.Near.refl b k

/-! ## The hinge -/

variable {h k j : Hinge}

theorem Hinge.Kept.refl (h : Hinge) : h.Kept h := ⟨fun _ _ _ => rfl, rfl, rfl, rfl, rfl, rfl, rfl, rfl, rfl, rfl, rfl, rfl⟩

theorem Hinge.Kept.trans (h1 : h.Kept k) (h2 : k.Kept j) : h.Kept j :=
  ⟨fun a i e => (h2.bits a i e).trans (h1.bits a i e), h2.fn0.trans h1.fn0, h2.fn1.trans h1.fn1, h2.rid0.trans h1.rid0, h2.rid1.trans h1.rid1, h2.apLog2.trans h1.apLog2, h2.held.trans h1.held, h2.perst.trans h1.perst, h2.aux.trans h1.aux, h2.completion.trans h1.completion, h2.agree.trans h1.agree, h2.barrier.trans h1.barrier⟩

theorem Hinge.kept_msgs (h : Hinge) (w : Bool) (x : List (Nat × Nat)) (y : List HostOut) (z : List (Nat × Nat)) :
    h.Kept { h with wakeN := w, heldMsgs := x, sent := y, cqFirst := z } := { Hinge.Kept.refl h with bits := fun _ _ _ => rfl }

theorem Hinge.rd_lt (h : Hinge) (a : Nat) : h.rd a < 2 ^ 32 := (sparseGet regReset h.regs a).isLt

theorem Hinge.kept_put (h : Hinge) (f : FieldRef) (v : Nat) (hl : f.lo ≤ f.hi)
    (hf : ∀ i, f.lo ≤ i → i ≤ f.hi → hingeSettles f.addr i = true) : h.Kept (h.put f v) :=
  { Hinge.Kept.refl h with
    bits := fun x i hx => by
      by_cases hi : i < 32
      · by_cases e : f.addr = x
        · subst e
          have hn : ¬ (f.lo ≤ i ∧ i ≤ f.hi) := fun hh => by rw [hf i hh.1 hh.2] at hx; cases hx
          rw [Hinge.put, Hinge.rd_wr_same, Nat.testBit_mod_two_pow, testBit_setBits _ _ _ _ _ hl]; simp [hi, hn]
        · rw [Hinge.put, Hinge.rd_wr_other _ _ e]
      · have hp : 2 ^ 32 ≤ 2 ^ i := Nat.pow_le_pow_right (by omega) (by omega)
        rw [Nat.testBit_lt_two_pow (lt_of_lt_of_le (Hinge.rd_lt _ _) hp), Nat.testBit_lt_two_pow (lt_of_lt_of_le (Hinge.rd_lt _ _) hp)] }

theorem Hinge.kept_foldl {α : Type} (f : Hinge → α → Hinge) (xs : List α) (h : Hinge)
    (hf : ∀ x ∈ xs, ∀ k : Hinge, k.Kept (f k x)) : h.Kept (xs.foldl f h) := by
  induction xs generalizing h with
  | nil => exact Hinge.Kept.refl h
  | cons x t ih => exact (hf x (by simp) h).trans (ih (f h x) fun y hy => hf y (by simp [hy]))

theorem Hinge.kept_lstate (h : Hinge) (v : Nat) : h.Kept (h.put Fld.HINGE_PCIE_LINK_LSTATE v) :=
  Hinge.kept_put h _ _ (by decide) (by
    intro i h1 h2
    have h3 : 16 ≤ i := h1
    have h4 : i ≤ 17 := h2
    interval_cases i <;> decide)

theorem hingeSettles_cqg (g i : Nat) (hg : g < 16) : hingeSettles (Reg.HINGE_PCIE_CQG_STAT g) i = true := by
  show hingeSettles (0x8300204 + 0x8 * g) i = true
  rw [hingeSettles_def]
  rw [if_neg (by omega)]
  simp [show 0x8300200 ≤ 0x8300204 + 8 * g by omega, show 0x8300204 + 8 * g < 0x8300280 by omega,
    show (0x8300204 + 8 * g) % 8 = 4 by omega]

theorem Hinge.kept_cqg (h : Hinge) (g : Nat) (hg : g < 16) (f : FieldRef) (v : Nat) (ha : f.addr = Reg.HINGE_PCIE_CQG_STAT g)
    (hl : f.lo ≤ f.hi) : h.Kept (h.put f v) :=
  Hinge.kept_put h f v hl fun i _ _ => by rw [ha]; exact hingeSettles_cqg g i hg

theorem Hinge.kept_showHeld (h : Hinge) : h.Kept h.showHeld := by
  unfold Hinge.showHeld; dsimp only
  refine (Hinge.kept_put h Fld.HINGE_PCIE_HELD_NOW_COUNT h.heldMsgs.length (by decide) fun _ _ _ => rfl).trans ?_
  exact Hinge.kept_foldl _ _ _ fun g hg k => Hinge.kept_cqg k g (List.mem_range.mp hg) _ _ rfl (le_refl _)

theorem Hinge.kept_sendNow (h : Hinge) (fn vec : Nat) : h.Kept (h.sendNow fn vec) :=
  Hinge.Kept.trans (k := { h with sent := h.sent ++ [HostOut.msix fn vec] }) (Hinge.kept_msgs h _ _ _ _)
    (Hinge.kept_lstate _ _)

theorem Hinge.kept_holdMsg (h : Hinge) (fn vec : Nat) : h.Kept (h.holdMsg fn vec) := by
  unfold Hinge.holdMsg
  split
  · exact Hinge.Kept.refl h
  · dsimp only
    have h1 : h.Kept (({ h with heldMsgs := h.heldMsgs ++ [(fn, vec)] }).inc Fld.HINGE_PCIE_HELD_CNT_COUNT).showHeld :=
      Hinge.Kept.trans (Hinge.Kept.trans (k := { h with heldMsgs := h.heldMsgs ++ [(fn, vec)] })
        (Hinge.kept_msgs h _ _ _ _)
        (Hinge.kept_put _ _ _ (by decide) fun _ _ _ => rfl)) (Hinge.kept_showHeld _)
    split
    · exact h1.trans (Hinge.kept_msgs _ _ _ _ _)
    · split
      · refine (h1.trans ?_).trans (Hinge.kept_lstate _ _)
        exact (Hinge.kept_msgs _ _ _ _ _)
      · exact h1

theorem Hinge.kept_message (h : Hinge) (fn vec : Nat) : h.Kept (h.message fn vec) := by
  unfold Hinge.message; split
  · exact Hinge.kept_sendNow _ _ _
  · exact Hinge.kept_holdMsg _ _ _

theorem Hinge.kept_takeMsgs (h : Hinge) (l : Leaf) : h.Kept (h.takeMsgs l) :=
  Hinge.kept_foldl _ _ _ fun _ _ k => Hinge.kept_message k _ _

theorem Hinge.kept_groupCount (h : Hinge) (g now : Nat) (hg : g < 16) : h.Kept (h.groupCount g now) := by
  have hs (k : Hinge) : k.Kept (k.groupPump g now) := by
    unfold Hinge.groupPump Hinge.groupSend; split
    · dsimp only
      have h1 : k.Kept (({ k with cqFirst := alDel g k.cqFirst }).put (Fld.HINGE_PCIE_CQG_STAT_ACC g) 0) :=
        Hinge.Kept.trans (k := { k with cqFirst := alDel g k.cqFirst }) (Hinge.kept_msgs k _ _ _ _)
          (Hinge.kept_cqg _ g hg (Fld.HINGE_PCIE_CQG_STAT_ACC g) 0 rfl (Nat.zero_le 7))
      split
      · exact h1.trans (Hinge.kept_message _ _ _)
      · exact h1.trans (Hinge.kept_message _ _ _)
    · exact Hinge.Kept.refl k
  unfold Hinge.groupCount; dsimp only
  refine Hinge.Kept.trans ?_ (hs _)
  have h1 : h.Kept (h.put (Fld.HINGE_PCIE_CQG_STAT_ACC g) (satInc 255 (h.get (Fld.HINGE_PCIE_CQG_STAT_ACC g)))) :=
    Hinge.kept_cqg _ g hg _ _ rfl (by simp)
  split
  · exact h1.trans (Hinge.kept_msgs _ _ _ _ _)
  · exact h1

/-! ## Records placed -/

theorem windowOf_lt (i : LeafId) (q : Nat) (hq : q < 64) : windowOf i (q / 8) < 16 := by
  cases i <;> simp [windowOf, LeafId.toNat] <;> omega

theorem kept_writeRecord (h : Hinge) (l : Leaf) (r : OutRec) (held : Bool) :
    h.Kept (writeRecord h l r held).1 ∧ l.Near False (writeRecord h l r held).2 := by
  have hq : r.q % 64 < 64 := Nat.mod_lt _ (by decide)
  have hg := windowOf_lt l.id _ hq
  unfold writeRecord; dsimp only
  generalize r.q % 64 = q at *
  have hl1 : ∀ v (p : Bool), l.Near False ((l.put (Fld.LEAF_Q_STAT_CQ_TAIL q) v).putB (Fld.LEAF_Q_STAT_PHASE q) p) := fun v p =>
    (Leaf.near_put l _ _ (by simp) fun i h1 h2 => settles_qstat q i hq h1 (le_trans (show i ≤ 27 from h2) (by omega))).trans
      (Leaf.near_put _ _ _ (by simp) fun i h1 h2 => by
        have h3 : 29 ≤ i := h1
        exact settles_qstat q i hq (by omega) h2)
  have hd (m : Leaf) (a : Nat) (bs : List Byte) : m.Near False (m.dramWrite a bs) :=
    { Leaf.Near.refl False m with bits := fun _ _ _ => rfl, dram := False.elim }
  have hs (x : HostOut) : h.Kept { h with sent := h.sent ++ [x] } := Hinge.kept_msgs h _ _ _ _
  split <;> split
  · exact ⟨Hinge.kept_groupCount _ _ _ hg, (hl1 _ _).trans (hd _ _ _)⟩
  · exact ⟨(hs _).trans (Hinge.kept_groupCount _ _ _ hg), hl1 _ _⟩
  · exact ⟨Hinge.Kept.refl h, (hl1 _ _).trans (hd _ _ _)⟩
  · exact ⟨hs _, hl1 _ _⟩

theorem Leaf.near_showHold (l : Leaf) : l.Near b l.showHold := Leaf.near_put l _ _ (by decide) fun _ _ _ => rfl

theorem Leaf.near_holdRecord (l : Leaf) (r : OutRec) : l.Near b (l.holdRecord r) := by
  unfold Leaf.holdRecord; split
  · exact (Leaf.near_hold l _).trans (Leaf.near_showHold _)
  · exact (Leaf.near_put l _ _ (by decide) fun _ _ _ => rfl).trans (Leaf.near_notify _ _ _)

theorem kept_placeRecord (hl : Hinge × Leaf) (r : OutRec) : hl.1.Kept (placeRecord hl r).1 ∧ hl.2.Near False (placeRecord hl r).2 := by
  unfold placeRecord; split
  · exact kept_writeRecord _ _ _ _
  · exact ⟨Hinge.Kept.refl _, Leaf.near_holdRecord _ _⟩

theorem kept_placeRecords (rs : List OutRec) (hl : Hinge × Leaf) :
    hl.1.Kept (rs.foldl placeRecord hl).1 ∧ hl.2.Near False (rs.foldl placeRecord hl).2 := by
  induction rs generalizing hl with
  | nil => exact ⟨Hinge.Kept.refl _, Leaf.Near.refl _ _⟩
  | cons r t ih =>
    have h1 := kept_placeRecord hl r
    have h2 := ih (placeRecord hl r)
    exact ⟨h1.1.trans h2.1, h1.2.trans h2.2⟩

theorem kept_placeAll (h : Hinge) (l : Leaf) : h.Kept (placeAll h l).1 ∧ (placeAll h l).2.host.toPlace = []
    ∧ Leaf.Near (l.host.toPlace = []) { l with host := { l.host with toPlace := [] } } (placeAll h l).2 := by
  have h1 := kept_placeRecords l.host.toPlace (h, { l with host := { l.host with toPlace := [] } })
  refine ⟨h1.1, h1.2.toPlace, { h1.2 with toPlace := h1.2.toPlace, dram := fun e => ?_ }⟩
  simp [placeAll, e]

theorem Leaf.Near.kept (h : Leaf.Near (l.host.toPlace = []) { l with host := { l.host with toPlace := [] } } m) : l.Kept m := { h with }

theorem settleLeaf_other (i : LeafId) (s : State) : (settleLeaf i s).leaf i.other = s.leaf i.other := by cases i <;> rfl

/-- The settled leaf before its messages are handed over. -/
theorem settleLeaf_same (i : LeafId) (s : State) : ∃ l0 : Leaf, (settleLeaf i s).leaf i
      = { l0.settle with host := { l0.settle.host with irqMsgs := [] } }
    ∧ Leaf.Near ((s.leaf i).host.toPlace = []) { s.leaf i with host := { (s.leaf i).host with toPlace := [] } } l0
    ∧ (l0.boot.held = false → l0.bit Fld.LEAF_STATUS_MIRROR = (placeAll s.hinge (s.leaf i)).1.mirror) := by
  have hp := kept_placeAll s.hinge (s.leaf i)
  refine ⟨(if (placeAll s.hinge (s.leaf i)).2.boot.held then (placeAll s.hinge (s.leaf i)).2
    else (placeAll s.hinge (s.leaf i)).2.putB Fld.LEAF_STATUS_MIRROR (placeAll s.hinge (s.leaf i)).1.mirror).settleBusy, ?_, ?_, ?_⟩
  · unfold settleLeaf; dsimp only; rw [State.leaf_setLeaf_same]
  · refine Leaf.Near.trans ?_ (Leaf.near_settleBusy _)
    split
    · exact hp.2.2
    · exact hp.2.2.trans (Leaf.near_mirror _ _)
  · intro hb
    have hk : ∀ k : Leaf, k.settleBusy.bit Fld.LEAF_STATUS_MIRROR = k.bit Fld.LEAF_STATUS_MIRROR := fun k => by
      unfold Leaf.settleBusy
      have : ∀ (xs : List Nat) (k : Leaf), (xs.foldl (fun m q => if m.bit (Fld.LEAF_Q_CFG_BUSY q) && m.reserved q == 0
          then m.putB (Fld.LEAF_Q_CFG_BUSY q) false else m) k).bit Fld.LEAF_STATUS_MIRROR = k.bit Fld.LEAF_STATUS_MIRROR := by
        intro xs
        induction xs with
        | nil => intro k; rfl
        | cons q t ih =>
          intro k
          rw [List.foldl_cons, ih]
          split
          · unfold Leaf.bit Leaf.get
            rw [Leaf.rd_putB_other]; show 0x1010 + 0x20 * q ≠ 0x10; omega
          · rfl
      exact this _ k
    rw [hk]
    have hb2 := (Leaf.near_settleBusy (b := True) (if (placeAll s.hinge (s.leaf i)).2.boot.held then (placeAll s.hinge (s.leaf i)).2
      else (placeAll s.hinge (s.leaf i)).2.putB Fld.LEAF_STATUS_MIRROR (placeAll s.hinge (s.leaf i)).1.mirror)).boot
    rw [hb2] at hb
    split
    · rename_i h; rw [if_pos h] at hb; rw [h] at hb; cases hb
    · exact Leaf.bit_putB_same _ _ _ (by decide) (by decide)

/-- What settling one leaf may change. -/
theorem settleLeaf_kept (i : LeafId) (s : State) : (s.leaf i).Kept ((settleLeaf i s).leaf i) ∧ s.hinge.Kept (settleLeaf i s).hinge
    ∧ (settleLeaf i s).pending = s.pending := by
  have hp := kept_placeAll s.hinge (s.leaf i)
  refine ⟨?_, ?_, by unfold settleLeaf; dsimp only; rw [State.pending_setLeaf]⟩
  · obtain ⟨l0, e, h, -⟩ := settleLeaf_same i s
    rw [e]
    exact Leaf.Near.kept ((h.trans (Leaf.near_settle _)).trans (Leaf.irq_pushed _ _ _).near)
  · unfold settleLeaf; dsimp only
    rw [State.hinge_setLeaf]
    exact hp.1.trans (Hinge.kept_takeMsgs _ _)

/-- What settling may change, of the whole device. -/
theorem settle_kept (s : State) : s.Kept s.settle := by
  have hA := settleLeaf_kept .A s
  have hB := settleLeaf_kept .B (settleLeaf .A s)
  refine ⟨fun i => ?_, hA.2.1.trans hB.2.1, hB.2.2.trans hA.2.2⟩
  cases i with
  | A => have e := settleLeaf_other .B (settleLeaf .A s); unfold State.settle; rw [show (settleLeaf .B (settleLeaf .A s)).leaf .A = _ from e]; exact hA.1
  | B => have e := settleLeaf_other .A s; rw [show s.leaf .B = (settleLeaf .A s).leaf .B from e.symm]; exact hB.1

/-! ## What settling establishes -/

theorem get_of_bits {x y : Nat} {hi lo : Nat} (h : ∀ i, lo ≤ i → i ≤ hi → x.testBit i = y.testBit i) : bitsOf x hi lo = bitsOf y hi lo := by
  apply Nat.eq_of_testBit_eq; intro i
  rw [testBit_bitsOf, testBit_bitsOf]
  by_cases h1 : i < hi + 1 - lo
  · rw [h (lo + i) (by omega) (by omega)]
  · simp [h1]

/-- A field no bit of which settles. -/
theorem Leaf.Near.get (h : l.Near b m) (f : FieldRef) (hf : ∀ i, f.lo ≤ i → i ≤ f.hi → settles f.addr i = false) : m.get f = l.get f :=
  get_of_bits fun i h1 h2 => h.bits _ i (hf i h1 h2)

/-- A field no bit of which settles. -/
theorem Leaf.Kept.get (h : l.Kept m) (f : FieldRef) (hf : ∀ i, f.lo ≤ i → i ≤ f.hi → settles f.addr i = false) : m.get f = l.get f :=
  get_of_bits fun i h1 h2 => h.bits _ i (hf i h1 h2)

/-- A field of the hinge no bit of which settles. -/
theorem Hinge.Kept.get (h0 : h.Kept k) (f : FieldRef) (hf : ∀ i, f.lo ≤ i → i ≤ f.hi → hingeSettles f.addr i = false) :
    k.get f = h.get f := get_of_bits fun i h1 h2 => h0.bits _ i (hf i h1 h2)

/-- A register no bit of which settles. -/
theorem Leaf.Kept.rd (h : l.Kept m) (a : Nat) (hf : ∀ i, settles a i = false) : m.rd a = l.rd a :=
  Nat.eq_of_testBit_eq fun i => h.bits a i (hf i)

/-- A register of the hinge no bit of which settles. -/
theorem Hinge.Kept.rd (h0 : h.Kept k) (a : Nat) (hf : ∀ i, hingeSettles a i = false) : k.rd a = h.rd a :=
  Nat.eq_of_testBit_eq fun i => h0.bits a i (hf i)

theorem Hinge.Kept.mirror (h0 : h.Kept k) : k.mirror = h.mirror := by
  unfold Hinge.mirror Hinge.bit
  rw [h0.get Fld.HINGE_MODE_LOCKED fun _ _ _ => rfl, h0.get Fld.HINGE_MODE_MODE fun _ _ _ => rfl]

theorem Leaf.Near.safeWhy (h : l.Near b m) : m.safeWhy = l.safeWhy := by
  have e1 : m.state = l.state := h.get _ (by intro i _ h2; have h3 : i ≤ 3 := h2; interval_cases i <;> rfl)
  have e2 : m.get Fld.FUS_DS_STAT_STEP = l.get Fld.FUS_DS_STAT_STEP := h.get _ fun _ _ _ => rfl
  have e3 : m.bit Fld.FLT_STAT_HINGE_LOST = l.bit Fld.FLT_STAT_HINGE_LOST := by
    unfold Leaf.bit; rw [h.get _ (by intro i h1 h2; have h3 : 4 ≤ i := h1; have h4 : i ≤ 4 := h2; obtain rfl : i = 4 := by omega
                                     rfl)]
  have e4 : m.bit Fld.FLT_CFG_HINGE_SAFE = l.bit Fld.FLT_CFG_HINGE_SAFE := by unfold Leaf.bit; rw [h.get _ fun _ _ _ => rfl]
  unfold Leaf.safeWhy
  rw [e1, e2, e3, e4, h.flt]

theorem safeWhy_lt (l : Leaf) : l.safeWhy < 32 := by
  unfold Leaf.safeWhy b2n; split_ifs <;> omega

theorem refreshSafe_shows (l : Leaf) : l.refreshSafe.flt.safeN = (l.safeWhy != 0) ∧ l.refreshSafe.get Fld.FLT_STAT_SAFE_WHY = l.safeWhy := by
  have hg : (l.put Fld.FLT_STAT_SAFE_WHY l.safeWhy).get Fld.FLT_STAT_SAFE_WHY = l.safeWhy := by
    rw [Leaf.get_put_same _ _ _ (by decide) (by decide)]; exact Nat.mod_eq_of_lt (safeWhy_lt l)
  unfold Leaf.refreshSafe; dsimp only
  split
  · rename_i h; exact ⟨h.symm, hg⟩
  · have h1 := Leaf.irq_raise { (l.put Fld.FLT_STAT_SAFE_WHY l.safeWhy) with
      flt := { (l.put Fld.FLT_STAT_SAFE_WHY l.safeWhy).flt with safeN := l.safeWhy != 0 } } 0x01D (by decide)
    exact ⟨by rw [h1.flt], by rw [h1.get _ (by decide)]; exact hg⟩

/-- A settled leaf out of reset shows its SAFE_N conditions. -/
theorem settle_safe (l : Leaf) (h : l.boot.held = false) : l.settle.flt.safeN = (l.settle.safeWhy != 0)
    ∧ l.settle.get Fld.FLT_STAT_SAFE_WHY = l.settle.safeWhy := by
  have hn := (Leaf.near_settle (b := True) l).safeWhy
  have h2 : (l.refreshHoldover.refreshLevels).safeWhy = l.safeWhy :=
    ((Leaf.near_refreshHoldover (b := True) l).trans (Leaf.irq_refreshLevels _).near).safeWhy
  have hs := refreshSafe_shows l.refreshHoldover.refreshLevels
  have hp := Leaf.irq_pump l.refreshHoldover.refreshLevels.refreshSafe
  rw [hn]
  have e : l.settle = l.refreshHoldover.refreshLevels.refreshSafe.pump := by unfold Leaf.settle; simp [h]
  rw [e, hp.flt, hp.get _ (by decide), hs.1, hs.2, h2]
  exact ⟨rfl, rfl⟩

theorem settleLeaf_shown (i : LeafId) (s : State) : ((settleLeaf i s).leaf i).safeShown ∧ (settleLeaf i s).mirrorShown i
    ∧ ((settleLeaf i s).leaf i).host.toPlace = [] ∧ ((settleLeaf i s).leaf i).host.irqMsgs = [] := by
  obtain ⟨l0, e, h, hm⟩ := settleLeaf_same i s
  have hn := Leaf.near_settle (b := True) l0
  refine ⟨?_, ?_, ?_, ?_⟩
  · rw [e]; intro hb
    have hb0 : l0.boot.held = false := by rw [← hn.boot]; exact hb
    have := settle_safe l0 hb0
    refine ⟨?_, this.2⟩
    show l0.settle.flt.safeN = (l0.settle.boot.held || l0.settle.safeWhy != 0)
    rw [show l0.settle.boot.held = false from hb, Bool.false_or]; exact this.1
  · intro hb
    have hk := settleLeaf_kept i s
    have hpa := kept_placeAll s.hinge (s.leaf i)
    rw [hk.2.1.mirror]
    rw [e] at hb ⊢
    have hb0 : l0.boot.held = false := by rw [← hn.boot]; exact hb
    rw [← hpa.1.mirror, ← hm hb0]
    show l0.settle.bit _ = _
    unfold Leaf.bit
    have e1 : l0.settle.get Fld.LEAF_STATUS_MIRROR = l0.get Fld.LEAF_STATUS_MIRROR := by
      have e2 : l0.settle = l0.refreshHoldover.refreshLevels.refreshSafe.pump := by unfold Leaf.settle; simp [hb0]
      rw [e2, (Leaf.irq_pump _).get _ (by decide)]
      have hsafe : ∀ k : Leaf, k.refreshSafe.get Fld.LEAF_STATUS_MIRROR = k.get Fld.LEAF_STATUS_MIRROR := fun k => by
        unfold Leaf.refreshSafe; dsimp only
        split
        · exact Leaf.get_put_other _ _ _ _ (by decide)
        · rw [(Leaf.irq_raise _ _ (by decide)).get _ (by decide)]
          exact Leaf.get_put_other k Fld.FLT_STAT_SAFE_WHY Fld.LEAF_STATUS_MIRROR k.safeWhy (by decide)
      rw [hsafe, (Leaf.irq_refreshLevels _).get _ (by decide)]
      unfold Leaf.refreshHoldover
      split
      · rfl
      · split
        · exact Leaf.get_put_other _ Fld.TIME_VT_STAT_HOLDOVER Fld.LEAF_STATUS_MIRROR _ (by decide)
        · split
          · rfl
          · exact Leaf.get_put_other _ Fld.TIME_VT_STAT_HOLDOVER Fld.LEAF_STATUS_MIRROR _ (by decide)
    rw [e1]
  · rw [e]; show l0.settle.host.toPlace = []; rw [hn.toPlace, h.toPlace]
  · rw [e]

/-- After settling, both leaves show what their pins and status bits stand for. -/
theorem settle_shown (s : State) : s.settle.Shown := by
  have hA := settleLeaf_shown .A s
  have hB := settleLeaf_shown .B (settleLeaf .A s)
  have hk := settleLeaf_kept .B (settleLeaf .A s)
  have e : s.settle.leaf .A = (settleLeaf .A s).leaf .A := settleLeaf_other .B (settleLeaf .A s)
  intro i
  cases i with
  | A =>
    refine ⟨by rw [e]; exact hA.1, fun hb => ?_⟩
    rw [e] at hb ⊢
    rw [show s.settle.hinge = (settleLeaf .B (settleLeaf .A s)).hinge from rfl, hk.2.1.mirror]
    exact hA.2.1 hb
  | B => exact ⟨hB.1, hB.2.1⟩

/-- After settling no completion record and no message is left on its way. -/
theorem settle_drained (s : State) (i : LeafId) : (s.settle.leaf i).host.toPlace = [] ∧ (s.settle.leaf i).host.irqMsgs = [] := by
  cases i with
  | A =>
    rw [show s.settle.leaf .A = (settleLeaf .A s).leaf .A from settleLeaf_other .B (settleLeaf .A s)]
    exact (settleLeaf_shown .A s).2.2
  | B => exact (settleLeaf_shown .B (settleLeaf .A s)).2.2

end Sys2Proof.Machine
end

