-- ==== Sys2Proof/Laws/Step.lean ====
section
/-!
SUPPORT. Laws of the step: every command ends in a settled next state, and a step runs the command at the front of the queue.
-/
namespace Sys2Proof.Machine

/-- What every command answers: a next state, and that one has settled. -/
theorem exec_settles (c : Instr) (s : State) : ∃ s1 : State, exec c s = .next s1.settle := by
  cases c
  case railUndervoltage r => cases r <;> exact ⟨_, rfl⟩
  case pulseEnd p n => cases p <;> exact ⟨_, rfl⟩
  case linkUp l x => cases x <;> exact ⟨_, rfl⟩
  all_goals exact ⟨_, rfl⟩

/-- A step with a command waiting is that command. -/
theorem step_cons (s : State) (c : Instr) (rest : List Instr) (h : s.pending = c :: rest) :
    step s = exec c { s with pending := rest } := by
  unfold step; rw [h]

/-- A step with no command waiting. -/
theorem step_nil (s : State) (h : s.pending = []) : step s = .next (idle s) := by
  unfold step; rw [h]

end Sys2Proof.Machine
end

