-- ==== Sys2Proof/Tests/Slice0.lean ====
section
/-!
SUPPORT. Tests: a state that meets the premises of each statement, an ill-formed term that each check of WellFormed refuses, and single
steps whose expected results are read from the spec.
-/
namespace Sys2Proof.Tests

set_option Elab.async false

open Sys2Proof.Machine

/-! ## States -/

/-- A leaf out of reset and booted, in IDLE, with only LEAF_STATUS listed. -/
def lf (i : LeafId) : Leaf :=
  { Leaf.inReset i (Fuses.shipped i) {} [] FwCopy.shipped FwCopy.shipped with
    regs := [(Reg.LEAF_STATUS, 2)]
    boot := { fw0 := FwCopy.shipped, fw1 := FwCopy.shipped, held := false, pll := true }
    flt := { firstIdle := true, safeN := false } }

/-- Both leaves up and idle, the link trained. -/
def base : State :=
  { leafA := lf .A, leafB := lf .B, pending := []
    hinge := { Hinge.inReset 0 0 0 with regs := [(Reg.HINGE_LEAF_STAT, 3)], held := false, perst := false } }

/-- The base state with Leaf A changed. -/
def onA (f : Leaf → Leaf) : State := base.onLeaf .A f

/-- The base state with the hinge changed. -/
def onH (f : Hinge → Hinge) : State := base.onHinge f

/-- A link in L0 and function 0 and 1 that may send. -/
def dma (s : State) : State := s.onHinge fun h =>
  { (h.put Fld.HINGE_PCIE_LINK_SPEED 5).put Fld.HINGE_PCIE_LINK_WIDTH 8 with
    fn0 := { busMaster := true, msixEn := true }, fn1 := { busMaster := true, msixEn := true } }

def wPending : State := { base with pending := [.start .A 0, .cap .B] }

/-- Leaf A in boot phase p, with a firmware copy booting and one waiting to be written. -/
def wPhase (p : Nat) : State := (onA fun x => { x.put Fld.LEAF_FWU_LEN_LEN (2 ^ 25 + 1) with
    boot := { x.boot with booting := some (1, FwCopy.shipped), fwuPend := some (1, FwCopy.shipped), hostFetch := true } }).onHinge
  fun h => h.put (Fld.HINGE_BOOT_STAT_PHASE 0) p

def wLocked : State := onH fun h => h.putB Fld.HINGE_MODE_LOCKED true

/-- No leaf up, every window enabled. -/
def wDown : State := onH fun h => { h.put Fld.HINGE_PCIE_WIN_EN 0xFFFF with regs := [(Reg.HINGE_PCIE_WIN, 0xFFFF)] }

/-- Pair 0 of Leaf A on with 16 entries in each queue, window 0 enabled. -/
def wPair : State := (onA fun x => ((x.put (Fld.LEAF_Q_CFG_SQ_LOG2 0) 4).put (Fld.LEAF_Q_CFG_CQ_LOG2 0) 4).putB (Fld.LEAF_Q_CFG_EN 0) true).onHinge
  fun h => h.put Fld.HINGE_PCIE_WIN_EN 1

/-- The aperture of Leaf A ends past software's range. -/
def wApEnd : State := onH fun h => (h.wr Reg.HINGE_PCIE_APA_LO 0x5FFFFFF0).wr Reg.HINGE_PCIE_APA_HI 0xB

/-- Comparison active; leaf A has a stamp and a digest to send. -/
def wAgree (st : List (LeafId × StampMsg)) (m : DigestMsg) (ds : List (LeafId × DigestMsg)) : State :=
  (onA fun x => { x with sns := { x.sns with outStamps := [⟨0x10, 5, 77⟩] }, tick := { x.tick with outDigests := [m] } }).onHinge
    fun h => { (h.putB Fld.HINGE_AGREE_STAT_ACTIVE true).putB Fld.HINGE_AGREE_STAT_SINGLE true with agree := { h.agree with stamps := st, digests := ds } }

def dg (id : Option Nat) (v : Nat) : DigestMsg := { tick := 3, id := id, digest := v, locked := true, injected := false }

def wAgree0 : State := wAgree [] (dg (some 7) 1) []
def wAgree1 : State := wAgree [(.B, ⟨0x10, 5, 70⟩)] (dg (some 7) 1) [(.B, dg (some 7) 1)]
def wAgree2 : State := wAgree [(.B, ⟨0x10, 5, 70⟩)] (dg (some 7) 1) [(.B, dg (some 7) 2)]
def wAgree3 : State := wAgree [(.A, ⟨1, 1, 1⟩)] (dg none 1) [(.B, dg none 2)]

/-- Leaf A GLAZED with the reset TICK_PERIOD; a FIRE pending and a pulse driven. -/
def wBar : State := (onA fun x => x.put Fld.LEAF_STATUS_STATE 3).onHinge fun h => h.put Fld.HINGE_BAR_CTRL_SRC 0
def wBarOut : State := wBar.onHinge fun h => { h with barrier := { out := true, outEnd := some 0, fireLeaf := .A, fireAt := some 0 } }

def wDom (rate : Nat) (state : Nat) : State := onA fun x => ((x.wr (Reg.TIME_D_RATE_LO 0) (rate % 2 ^ 32)).put (Fld.TIME_D_RATE_HI_RATE 0) (rate / 2 ^ 32)).put Fld.LEAF_STATUS_STATE state
def wDomOk : State := wDom 0x0147AE147AE1 2
def wDomBad : State := wDom 0 2
def wDomTick : State := wDom 0x0147AE147AE1 4

/-- Both domains enabled; domain 1 healthy, domain 0 not qualified; AUTO. -/
def wVt : State := onA fun x => ((((x.putB (Fld.TIME_D_CFG_ENABLE 1) true).putB (Fld.TIME_D_STAT_QUAL 1) true).putB (Fld.TIME_D_CFG_ENABLE 0) true).putB Fld.TIME_VT_CTRL_AUTO true).putB Fld.TIME_PPS_CFG_ENABLE true
def wVt1 : State := wVt.onLeaf .A fun x => x.putB (Fld.TIME_D_STAT_QUAL 1) false

def ptp (type seq flags : Nat) : List Byte :=
  beBytes 6 0x0180C200000E ++ beBytes 6 0x020000000001 ++ beBytes 2 0x88F7 ++ beBytes 1 type ++ beBytes 1 2 ++ beBytes 2 44 ++ beBytes 1 0
    ++ beBytes 1 0 ++ beBytes 1 flags ++ beBytes 23 0 ++ beBytes 2 seq ++ beBytes 18 0
def wPtp : State := onA fun x => { ((((x.putB (Fld.SW_P_CFG_EN 1) true).putB (Fld.SW_P_CFG_EN 0) true).putB (Fld.TIME_D_CFG_ENABLE 0) true).put (Fld.TIME_D_CFG_SLAVE_PORT 0) 1) with
  time := { x.time with d0 := { x.time.d0 with pendSync := some { seqId := 2, ingress8 := 0, corr := 0, relays := [] } } }
  sw := { x.sw with ports := setAt x.sw.ports 1 { pd := { reqSeq := some 1, gotResp := true } } } }

/-- Trigger 0 waits for its start, 1 has a pulse in progress; TICK_OUT is driven. -/
def wTrig : State := onA fun x => { (x.putB (Fld.TIME_TRIG_CTRL_ARMED 0) true) with
  time := { x.time with trigs := setAt (setAt (setAt x.time.trigs 0 { nextAt := some 0 }) 1 { pulseEnd := some 0 }) 2 { nextAt := some 0, single := false } }
  tick := { x.tick with outActive := true, outEnd := some 0 } }

/-- The base state with Leaf A in state n and changed. -/
def inSt (n : Nat) (f : Leaf → Leaf) : State := onA fun x => f (x.put Fld.LEAF_STATUS_STATE n)

def le (n v : Nat) : List Byte := leBytes n v

def stageT (id sflags nin nout : Nat) (body : List Byte) : StageDesc :=
  { ofs := 0, id := id, opcode := 0, pipe := 0, sflags := sflags, nin := nin, nout := nout, panes := 1, pofs := 0, plen := 0, rsvd := 0, sram := 0, ndesc := 0, hflags := 0, hrsvd := 0, outMax := List.replicate nout 1, descs := [], body := body }

def routeT (src srcPort dst dstPort : Nat) : RouteDesc :=
  { ofs := 0, src := src, srcPort := srcPort, rflags := 0, dst := dst, dstPort := dstPort, vc := 0, credits := 2, rsvd := 0 }

def objT (size place oflags primary dram : Nat) : ObjDesc :=
  { ofs := 0, name := [], size := size, place := place, oflags := oflags, pane := 5, rsvd := 0, bindIdx := 0, bindRsvd := 0, primary := primary, mirror := 0, dram := dram }

/-- Vision jobs of an engine: 0 reads a camera that shows nothing, 1 is ready, 2 waits for 1, 3 runs. -/
def visBody : List Byte :=
  let job (n trig pred in0 : Nat) : List Byte :=
    le 1 n ++ le 1 0 ++ le 1 1 ++ le 1 trig ++ le 2 pred ++ le 2 0 ++ le 2 in0 ++ le 2 0xC000 ++ le 4 0 ++ le 2 16 ++ le 2 16 ++ le 44 0
  le 2 4 ++ le 14 0 ++ job 0 0 0 0 ++ job 1 1 0 0xC000 ++ job 2 1 0x8101 0xC000 ++ job 3 1 0 0xC000

/-- A fusion unit with no evidence input and one projection job. -/
def fusBody : List Byte := le 1 0 ++ le 1 0 ++ le 1 1 ++ le 1 0 ++ le 2 0 ++ le 2 0 ++ le 2 0xFFF ++ le 2 0xFFF ++ le 2 0xFFF ++ le 50 0

/-- Solver jobs: 0 the ego filter, 1 a vector solve, 2 an assignment. -/
def solvBody : List Byte :=
  let job (n kind port : Nat) : List Byte := le 1 n ++ le 1 kind ++ le 1 0 ++ le 1 1 ++ le 1 port ++ le 1 0 ++ le 2 0 ++ le 1 1 ++ le 1 0 ++ le 2 1 ++ le 84 0
  le 1 3 ++ le 15 0 ++ job 0 1 0 ++ job 1 3 1 ++ job 2 5 8

def engT (code : Nat) (body : List Byte) : EngineBlock := { ofs := 0, code := code, version := 1, rsvd := 0, body := body }

def imT : Image :=
  { l := 2, flags := 0, length := 0, baseHash := 0, buildId := 0, sections := []
    stages := [stageT 1 3 1 1 [], stageT 2 1 1 0 []]
    routes := [routeT 0xFF00 0 1 0, routeT 1 0 2 0, routeT 9 0 10 0]
    engines := [engT 1 visBody, engT 8 fusBody, engT 9 solvBody]
    pipes := [{ ofs := 0, name := [], num := 0, nvar := 1, rsvd := 0, variants := [{ ofs := 0, dur := 1, list := 0, stages := [1, 2], rsvd := 0, energy := [] }] }]
    objects := [objT 4096 0 4 0 4096, objT 4096 2 0 (2 ^ 30) 0, objT 4096 1 0 (2 ^ 31) 0, objT 4096 3 0 0 0] }

/-- A glazed leaf in state n with the image and changed. -/
def gl (n : Nat) (f : Leaf → Leaf) : State := inSt n fun x => f { x with glz := { x.glz with image := some imT }, fab := { x.fab with routes := [{ credits := 2 }, { credits := 2 }, { credits := 2 }] }, tick := { x.tick with sel := [(0, 0)] } }

def frameT : List Byte := beBytes 6 0x020000000002 ++ beBytes 6 0x020000000001 ++ beBytes 2 0x0800 ++ beBytes 46 0
def entT (mac ports : Nat) (st : Bool) : FdbEntry := { mac := mac, vid := 0, ports := ports, static := st, seen := 0 }

/-- A switch whose ports 0 and 1 are enabled and learning is on; nothing learned. -/
def wSwLearn : State := onA fun x => (((x.putB (Fld.SW_P_CFG_EN 0) true).putB (Fld.SW_P_CFG_EN 1) true).putB Fld.SW_CTRL_LEARN true).putB Fld.SW_CTRL_FWD_EN true

/-- The destination is known on port 1. -/
def wSwFwd : State := onA fun x => { (((x.putB (Fld.SW_P_CFG_EN 0) true).putB (Fld.SW_P_CFG_EN 1) true).putB Fld.SW_CTRL_LEARN false).putB Fld.SW_CTRL_FWD_EN true with
  sw := { x.sw with fdb := [(fdbSet 0x020000000002 (x.get (Fld.SW_P_CFG_PVID 0)) * 4, { entT 0x020000000002 2 true with vid := x.get (Fld.SW_P_CFG_PVID 0) }), (4095, entT 7 1 false)]
                    ports := setAt x.sw.ports 1 { queues := [[{ bytes := frameT, ingress8 := 0, port := 0 }], [], [], [], [], [], [], []] } } }

/-- The forwarding table holds the entry that the FDB registers name, 0, and its set is else full. -/
def wFdb : State := onA fun x => { x with sw := { x.sw with fdb := [(fdbSet 0 0 * 4, entT 0 1 true)] } }
def wFdbFull : State := onA fun x => { x with sw := { x.sw with fdb := (List.range 4).map fun k => (fdbSet 0 0 * 4 + k, entT (k + 1) 1 false) } }
def wFdb0 : State := onA fun x => { x with sw := { x.sw with fdb := [(0, entT 5 1 false)] } }

/-- Port 0 has a pending schedule and a valid one-entry list. -/
def wQbv : State := onA fun x => { ((((x.put (Fld.SW_P_QBV_CTRL_LIST_LEN 0) 1).wr (Reg.SW_P_QBV_CYCLE 0) 1000).wr (Reg.SW_GCL_INTERVAL 0 0) 1000).put (Fld.SW_GCL_STATES_GATES 0 0) 3) with
  sw := { x.sw with ports := setAt x.sw.ports 0 { admin := some { entries := [(3, 1000)], cycle := 1000 } } } }

def wStart (locked : Bool) : State := (gl 3 id).onHinge fun h => h.putB Fld.HINGE_MODE_LOCKED locked
def wStart0 : State := wStart false
def wStart1 : State := wStart true
def wTick : State := gl 4 fun x => { x with tick := { x.tick with nextAt := some 0, nextSub := some 0 } }
def wTickFirst : State := gl 3 fun x => { x.putB Fld.TICK_STAT_START_PEND true with tick := { x.tick with nextAt := some 0, first := true, halt := true } }
def wTickLater : State := gl 4 fun x => { x with tick := { x.tick with nextAt := some (2 ^ 40), nextSub := some 0 } }

def stagedT (upd : Bool) : Staged := { bytes := List.replicate 64 0, bind := [], update := upd, poison := false, len := 64, bindCnt := 0, target := 0 }
def wGlz (n : Nat) : State := gl n id
def wGlzBusy : State := gl 3 fun x => { x.putB Fld.LEAF_GLZ_STAT_BUSY true with glz := { x.glz with staged := some (stagedT false) } }
def wGlzPend : State := gl 3 fun x => { x.putB Fld.LEAF_GLZ_STAT_PENDING true with glz := { x.glz with pend := some { pipes := [], hash := 1, varHash := 1, target := 5 } } }

def wKey (u : Option Nat) (f : Option FuseOp) : State := onA fun x => { x with glz := { x.glz with unlock := u, fuse := f } }
def wKeyP : State := wKey (some 0x474F5250) none
def wKeyR : State := wKey (some 0x4B564552) none
def wKeyN : State := wKey none none
def wKeyF : State := wKey none (some (.prog1 9))
def wKeyG : State := wKey none (some (.revoke true false))

def tokT : Token := { bytes := [1, 2], last := true, poison := false, blind := false, stale := false, desync := false, oldest := none }
/-- A token in flight on route 1 and a credit on its way back on route 0. -/
def wTok : State := gl 4 fun x => { x with fab := { x.fab with routes := [{ credits := 1, back := 1, waiting := [tokT], flight := [tokT] }, { credits := 1, flight := [tokT] }, { credits := 2 }] } }

def runT (fin : Bool) : StageRun := { armed := true, finished := fin, ins := [{}] }
/-- Stage 0 can fire, stage 1 cannot. -/
def wStage : State := gl 4 fun x => { x with fab := { x.fab with routes := [{ credits := 1, buf := [tokT] }, { credits := 2 }, { credits := 2 }], runs := [(0, runT false), (1, runT false)] } }
/-- Stage 0 has finished and may run blind. -/
def wBlind : State := gl 4 fun x => { x.putB Fld.SPEC_CTRL_ENABLE true with fab := { x.fab with runs := [(0, runT true), (1, runT false)] }, spec := { x.spec with enabled := true, pred := some (x.tickNum, {}) } }

/-- A fetch in progress, a repair running. -/
def wMem : State := gl 3 fun x => { x.putB Fld.MEM_DRAM_CFG_SCRUB_EN true with mem := { x.mem with fetches := [{ obj := 1, gran := 0, slot := 0, blind := false }], repairs := [(2, 0)] } }
def wMemNo : State := gl 3 fun x => x.putB Fld.MEM_DRAM_CFG_SCRUB_EN false

def wRw (c : Option RwCmd) (busy : Bool) : State := gl 3 fun x => { (x.put Fld.MEM_RW_OBJ_OBJ 1).putB Fld.MEM_RW_STAT_BUSY busy with mem := { x.mem with rw := c } }
def wRw0 : State := wRw none false
def wRw1 : State := wRw (some { obj := 1, src := 0, writeback := false, status := 0, vers := 0 }) true
def wRw2 : State := wRw (some { obj := 0, src := 0, writeback := true, status := 9, vers := 0 }) true

/-- Every source in OFF; object 0 may serve as a slot. -/
def wSrcOff : State := gl 3 id
/-- Camera 0, SPI 0, GNSS and CAN entry 0 are on and NORMAL. -/
def wSrcOn : State := (gl 3 fun x => ([0, 0x10, 0x20, 0x22, 0x40].foldl (fun (y : Leaf) n => (y.putB (Fld.SNS_SRC_CFG_ENABLE n) true).put (Fld.SNS_SRC_STAT_STATE n) 2) x)
  ).onHinge fun h => h.putB Fld.HINGE_AGREE_STAT_ACTIVE true
def camT : CamFrame := { seq := 0, slot := 0, stamp := some 0, ended := true, deliver := true }
/-- Camera 0 locked with no frame, triggers on, an I2C transaction running. -/
def wCam : State := wSrcOn.onLeaf .A fun x => { ((x.putB (Fld.SNS_CAM_STAT_LOCK 0) true).putB (Fld.SNS_CAM_TRIG_EN 0) true) with
  sns := { x.sns with cams := setAt x.sns.cams 0 { trigNext := some 0, i2c := some (true, 1, 2, 3) } } }
/-- A frame of camera 0 due; its I2C port busy. -/
def wCamDue : State := wSrcOn.onLeaf .A fun x => { x.putB (Fld.SNS_CAM_I2C_BUSY 0) true with sns := { x.sns with cams := setAt x.sns.cams 0 { frames := [camT] } } }

def udpNot : QFrame := { bytes := frameT, ingress8 := 0, port := 0 }
/-- A frame for the host, an SPI transaction, a byte in the UART FIFO, controller 0 bus-on with entry 0 valid, controller 1 bus-off. -/
def wBus : State := wSrcOn.onLeaf .A fun x => { ((x.putB (Fld.SNS_CANE_W0_VALID 0) true).put (Fld.SNS_CANE_W1_MASK 0) 0).put (Fld.SNS_CANE_W2_LEN 0) 7 with
  sw := { x.sw with p5 := [udpNot] }, sns := { x.sns with spi := [some (5, 40), none], busOff := [false, true], uartTx := [0x41] } }
def wUartFull : State := onA fun x => { x with sns := { x.sns with uartTx := List.replicate 64 1 } }

def wFilt : State := (gl 4 fun x => { (x.wr (Reg.FILT_CH_MPPROG 1) 3).putB Fld.FILT_SYNC_CTRL_PIN_EN true with filt := { x.filt with armed := some 0 } }).onHinge
  fun h => h.putB Fld.HINGE_AGREE_STAT_ACTIVE true
def wFiltLater : State := gl 4 fun x => { (x.wr Reg.FILT_SYNC_TICK_LO 100).putB Fld.EGO_CTRL_ENABLE true with filt := { x.filt with armed := some 1000000 }, ego := { x.ego with nextWin := some 0 } }
def wEgo : State := gl 3 fun x => { x.putB Fld.EGO_CTRL_ENABLE true with ego := { x.ego with nextWin := some 0 }, count := 2 ^ 30 }

/-- Vision jobs of engine 1: 0 to 2 armed or queued, 1 at the head of the queue. -/
def wVis : State := gl 4 fun x => { x with vis := { x.vis with jobs := [(16, { st := .armed }), (17, { st := .queued }), (18, { st := .armed })], queues := [(1, [1])] } }
def wVisRun : State := gl 4 fun x => { (x.putB (Fld.VIS_ENG_STAT_BUSY 0) true).putB (Fld.VIS_ENG_STAT_RST_BUSY 0) true with
  vis := { x.vis with jobs := [(16, { st := .armed }), (19, { st := .running })] } }

def wPj : State := gl 4 fun x => { x with fab := { x.fab with ports := [(8 * 64 + 20, {})] } }
def wGrid : State := gl 4 fun x => { x with fab := { x.fab with ports := [(8 * 64 + 16, { ended := true })] } }

def wSpec (pred : Bool) (src : Nat) : State := gl 4 fun x => { x with spec := { x.spec with pending := some 5, work := some { tick := 5, pose := {}, source := src, pred := pred, dpos := 0, dyaw := 0 } } }
def wSpec0 : State := wSpec false 0
def wSpec1 : State := wSpec true 0
def wSpec2 : State := wSpec true 1
def wMap : State := gl 4 fun x => { x.putB Fld.MAP_LMK_RD_IDX_BUSY true with
  map := { x.map with verify := some { tick := 3, cands := [(0, { query := 1, node := 0, kind := 0, n := 0, pairs := [] })] } } }

def cmdT (q op tag : Nat) (pf1 : Option Nat) (started : Bool) : HostCmd :=
  { q := q, opcode := op, rsvdOk := true, tag := tag, addr0 := 0, addr1 := 0, len := 64, pf1 := pf1, started := started }

def idxT : IxHdr := { at' := 2 ^ 35, c := 1, ch0 := 0, n := 4, nodeOfs := 2 ^ 29, descOfs := 2 ^ 29 + 16384 }
def slotT : IdxSlot := { hdr := idxT, next := 4, seq := 2 }
def queryT (ph : QPhase) (o : QOwner) : Query :=
  { owner := o, rec' := le 12 0 ++ le 4 100 ++ le 340 0, x := 0, ix := idxT, side := [], s := 0, start := 0, phase := ph }
/-- A row waits; context 1 walks for a host command, 2 is done for a row, 3 for a host command. -/
def wQry : State := gl 3 fun x => { x with
  host := { x.host with cmds := [cmdT 1 1 1 none true, cmdT 1 1 2 none true] }
  srch := { x.srch with slots := [(0, slotT)], rows := [{ q := 0, tick := 0, row := 0, blind := false, s := 0, rec' := [] }]
                        ctxs := [(1, queryT .walk (.host (cmdT 1 1 1 none true))), (2, queryT .done (.row 0 0 0 false)), (3, queryT .done (.host (cmdT 1 1 2 none true)))] } }
/-- A host query waits. -/
def wQryHost : State := gl 3 fun x => { x with host := { x.host with cmds := [cmdT 1 1 1 none true] }, srch := { x.srch with host := [cmdT 1 1 1 none true] } }

def wSide (c : Option (Nat × Nat × Nat × Nat)) (busy : Bool) : State := gl 3 fun x => { x.putB Fld.SRCH_SIDE_STAT_BUSY busy with
  srch := { x.srch with slots := [(0, slotT)], side := c } }
def wSide0 : State := wSide none false
def wSide1 : State := wSide (some (1, 0, 0, 0)) true
def wSide2 : State := wSide (some (2, 0, 0, 77)) true

/-- Slot 0 attached, targets of a merge written. -/
def wMrg : State := gl 3 fun x => { ((x.wr Reg.SRCH_MRG_HDR_HI 0x10).wr Reg.SRCH_MRG_NODE_LO 0x50000000).wr Reg.SRCH_MRG_DESC_LO 0x60000000 with
  srch := { x.srch with slots := [(0, slotT)], merged := some (0, 1, { idxT with n := 5 }) } }
def wMrgTick : State := gl 4 fun x => { x with srch := { x.srch with slots := [(0, slotT)], merged := some (0, 1, { idxT with n := 5 }), merge := some { x := 0, m := 2, n := 4, hdr := 0, node := 0, desc := 0, pipe := 0, qlen := 8, hops := 2 } } }
def wMrgRun : State := gl 3 fun x => { x.putB Fld.SRCH_MRG_STAT_BUSY true with
  srch := { x.srch with slots := [(0, slotT)], merge := some { x := 0, m := 2, n := 4, hdr := 2 ^ 36, node := 0x10000, desc := 0x20000, pipe := 0, qlen := 8, hops := 2 } } }

/-- Operands of a legal flash write; slot 0 attached and used, 1 waits for its header. -/
def wAtt : State := gl 3 fun x => { ((x.wr Reg.SRCH_FW_LEN 16384).wr Reg.SRCH_FW_DST_HI 0x10).wr (Reg.SRCH_IDX_HDR_HI 1) 8 with
  srch := { x.srch with slots := [(0, slotT), (2, slotT)], attach := [1], ctxs := [(1, queryT .walk (.row 0 0 0 false))] } }
def wFw (bad : Bool) : State := gl 3 fun x => { x with mem := { x.mem with bad := if bad then [32] else [] }, srch := { x.srch with fw := some { src := 0, dst := 2 ^ 36, len := 16384 } } }
def wFw0 : State := wFw false
def wFw1 : State := wFw true

/-- Solver jobs armed; the inputs of 1 and 2 have ended. -/
def wSolv : State := gl 4 fun x => { x with fab := { x.fab with ports := [(9 * 64 + 1, { ended := true }), (9 * 64 + 8, { ended := true })] }, solv := { x.solv with jobs := [(0, { st := .armed }), (1, { st := .armed }), (2, { st := .armed })] } }
def wSolvRun : State := gl 4 fun x => { x.putB Fld.SOLV_STAT_BUSY true with solv := { x.solv with jobs := [(0, { st := .running }), (1, { st := .running }), (2, { st := .armed })], asg := 1 } }

def wOp (want : Option (Nat × Nat)) : State := inSt 4 fun x => { x with pwr := { x.pwr with want := want } }
def wOp0 : State := wOp none
def wOp1 : State := wOp (some (2, 0))

def wTrip : State := inSt 6 fun x => (x.putB Fld.PWR_TRIP_TRIPPED true).put Fld.FLT_STAT_STOP_CODE 6
def wCross : State := onA fun x => { x with pwr := { x.pwr with cross := [(1, 0)] } }
def wEntry : State := onA fun x => { x with pwr := { x.pwr with entry := some { state := 2, wake := some (5, 6) } } }
def wSleep : State := onA fun x => { ((((x.put Fld.PWR_SLEEP_STAT_STATE 1).putB Fld.PWR_SLEEP_CFG_ALARM_EN true).put Fld.PWR_WAKE_CFG_CAN_EN 3).put Fld.PWR_WAKE_CFG_EN 15) with
  pwr := { x.pwr with selfWake := some (0, 6) } }
def wWaking : State := wSleep.onLeaf .A fun x => { x with pwr := { x.pwr with waking := true } }

def wCnt : State := onA fun x => x.putB Fld.CNT_STAT_BUSY true

/-- Pair 1 of Leaf A on, an entry to fetch, DMA possible, a held record that fits. -/
def wQueue : State := dma (onA fun x => { ((((x.put (Fld.LEAF_Q_CFG_SQ_LOG2 1) 4).put (Fld.LEAF_Q_CFG_CQ_LOG2 1) 4).putB (Fld.LEAF_Q_CFG_EN 1) true).put (Fld.LEAF_Q_SQDB_TAIL 1) 3) with
  host := { x.host with hold := [{ q := 1, bytes := List.replicate 32 0 }] } })
/-- Commands of pair 1 of every kind, waiting and started. -/
def wCmds : State := dma (onA fun x => { x with host := { x.host with cmds :=
  [cmdT 1 0 1 none false, cmdT 1 1 1 none false, { cmdT 1 1 2 none false with addr0 := 1 }, cmdT 1 2 1 none false, cmdT 1 3 1 none false,
   cmdT 1 2 2 (some 0) false, cmdT 1 3 2 (some 0) false, { cmdT 1 4 1 none false with addr0 := 2 ^ 32 + 1 }, { cmdT 1 4 2 none false with addr0 := 2 ^ 32 + 9 }] } })
def wCopy : State := dma (onA fun x => { x with host := { x.host with cmds := [cmdT 1 2 1 none true, cmdT 1 3 2 none true] } })

def wFault : State := inSt 6 fun x => (x.put Fld.FLT_STAT_STOP_CODE 2).putB Fld.FLT_STAT_STOP true
def wInj (b : Bool) : State := gl 3 fun x => { x.putB Fld.FLT_STAT_HINGE_LOST true with flt := { x.flt with injKey := b } }
def wInj0 : State := wInj false
def wInj1 : State := wInj true
def wPhaseB : State := base.onHinge fun h => h.put (Fld.HINGE_BOOT_STAT_PHASE 1) 8
def wSwFwd2 : State := wSwFwd.onLeaf .A fun x => { x with sw := { x.sw with ports := setAt x.sw.ports 1 {} } }
def wQbvBad : State := onA fun x => x.wr (Reg.SW_P_QBV_CYCLE 0) 999
/-- Leaf A in boot phase 6 and not up. -/
def wPhase0 : State := (wPhase 6).onHinge fun h => h.putB Fld.HINGE_LEAF_STAT_UP_A false
/-- The step goes on. -/
def goesOnB (o : Host.Outcome State Fault Refusal) : Bool := match o with | .next _ => true | _ => false

/-- A whole image with one pipeline of one variant and no stage; its signature is made for a key chosen to fit. -/
def imgBytesT : List Byte := ([
  (32, 0x000000000000000000000000000000000007000100000250000000015a4c474b),
  (32, 0x0000000000000040000000000000000000000000000000000000000000000000),
  (32, 0x0000000000000000000000c0000000020000000000000000000000c000000001),
  (32, 0x0000000000000000000000c0000000060000000000000000000000c000000003),
  (32, 0x0000000100000030000001800000000500000001000000b0000000c000000004),
  (32, 0x000000000000000000000000000000000000000100000090000001c0000000ff),
  (32, 0x0000000000000000000000000000000000000000000000000000000000000070),
  (32, 0x0000000000000000000000b0000003e800000000000000000000000000000100),
  (32, 0),
  (32, 0),
  (32, 0),
  (32, 0),
  (32, 0x0000000000000000000000000000000000000000000000000000000000000001),
  (32, 0),
  (32, 0xe224cc4e5472db4ab19069b6bdb297898f4e7efc51c2999ef1ce54b200000100),
  (32, 0x703e214e7bf923dbdc5613b7c00a4862955899f84dc49e5e27e38216d12a5c79),
  (32, 0x00ae9fc53be41098c18ecc06c38322c3ed265d1da8a7ec597eb29efea710d317),
  (32, 0x00ae9fc53be41098c18ecc06c38322c3ed265d1da8a7ec597eb29efe0cf05693),
  (16, 0x0000000000000000000000000cf05693)] : List (Nat × Nat)).flatMap fun e => leBytes e.1 e.2
def imgKeyT : Nat := 0xe1d88edc123ecc71d805e5df448fa1a6590d3c29890e06e207840efd7da266c7
/-- A variant-only image over it. -/
def updBytesT : List Byte := ([
  (32, 0xcb44552c0237e1d063cde8c8bed347020003010100000210000000015a4c474b),
  (32, 0x0000000000000040000000000000000094664ac8d464335e433712356115a32f),
  (32, 0x0000000100000030000001400000000500000001000000b00000008000000004),
  (32, 0x00000000000000000000000000000000000000010000009000000180000000ff),
  (32, 0x0000000000000000000000000000000000000000000000000000000000000070),
  (32, 0x0000000000000000000000b0000003e800000000000000000000000000000100),
  (32, 0),
  (32, 0),
  (32, 0),
  (32, 0),
  (32, 0x0000000000000000000000000000000000000000000000000000000000000001),
  (32, 0),
  (32, 0x8ec7e1c78b8ca373bf86e849eb45346fd674757e1d25688540ec852b00000100),
  (32, 0x237efe623da482c3b8d56435eba5585f5fd15c777787f02bc296f06d3b820acf),
  (32, 0x67e204d90d40d67f61f87b240770524ae3f7610e7e6b8701b478bd3beea81208),
  (32, 0x67e204d90d40d67f61f87b240770524ae3f7610e7e6b8701b478bd3bedba7590),
  (16, 0x000000000000000000000000edba7590)] : List (Nat × Nat)).flatMap fun e => leBytes e.1 e.2
def updKeyT : Nat := 0x956bf21da8cad48acaa9d98772bafb86cbabc6621d377f148f93fef627d6e66f
/-- A firmware image of 64 bytes and its signature. -/
def fwBytesT : List Byte := ([
  (32, 0x0000000000000000000000000000000100000000000000d0000000014957464b),
  (32, 0),
  (32, 0x1e84f0adfe309a9b5a4f67698213a2657ffa4c98e835b33a5929830000000100),
  (32, 0x081326d85e08631b879faa50ca45d5eeceb071fe3402662f3972fde76093a7a7),
  (32, 0xb71ea4e265223c27d09d8bf01b355ee83855bc2dfba9152e10ba4c9417adffb8),
  (32, 0xb71ea4e265223c27d09d8bf01b355ee83855bc2dfba9152e10ba4c94d1bb0066),
  (16, 0x000000000000000000000000d1bb0066)] : List (Nat × Nat)).flatMap fun e => leBytes e.1 e.2
def fwKeyT : Nat := 0xa9ddea998e518a45bfd29c808ca2840dae237918b9e845f2c42d9f0fcd498d81

/-- A load of imgBytesT staged. -/
def wLoadOk : State := inSt 2 fun x => { (x.put Fld.LEAF_ID_PANES 64).putB Fld.LEAF_GLZ_STAT_BUSY true with
  fuses := { x.fuses with keyHash0 := imgKeyT }, glz := { x.glz with staged := some { bytes := imgBytesT, bind := [], update := false, poison := false, len := 592, bindCnt := 0, target := 0 } } }
/-- An update of it staged on a ticking leaf. -/
def wUpdOk : State := inSt 4 fun x => { ((x.put Fld.LEAF_ID_PANES 64).putB Fld.LEAF_GLZ_STAT_BUSY true).putHash (Reg.LEAF_GLZ_HASH 0) 0x0247d3bec8e8cd63d0e137022c5544cb2fa31561351237435e3364d4c84a6694 with
  fuses := { x.fuses with keyHash0 := updKeyT }, glz := { x.glz with image := some { imT with l := 1, stages := [], routes := [], engines := [], objects := [] }, staged := some { bytes := updBytesT, bind := [], update := true, poison := false, len := 528, bindCnt := 0, target := 5 } } }
/-- Leaf A waits for the host and has the key of fwBytesT. -/
def wFwOk : State := (onA fun x => { x with fuses := { x.fuses with fwKeyHash := fwKeyT }, boot := { x.boot with hostFetch := true } }).onHinge
  fun h => (h.put (Fld.HINGE_BOOT_STAT_PHASE 0) 8).put Fld.HINGE_HBOOT_LEN_LEN 208
/-- The bytes of an index header with one entry point that are not 0, its CRC among them. -/
def hdrBytes : List (Nat × Nat) :=
  [(0, 75), (1, 80), (2, 73), (3, 88), (4, 1), (6, 1), (8, 4), (19, 32), (25, 64), (27, 32), (32, 1), (4088, 121), (4089, 236), (4090, 119),
   (4091, 45), (4092, 214), (4093, 250), (4094, 137), (4095, 236)]
/-- Slot 1 waits for that header at its address. -/
def wAttOk : State := wAtt.onLeaf .A fun x => { x with
  flash := hdrBytes.map fun e => (2 ^ 35 + e.1, BitVec.ofNat 8 e.2)
  srch := { x.srch with slots := [] } }
def wSolvRst : State := gl 4 fun x => x.putB Fld.SOLV_STAT_RST_BUSY true
/-- An alarm due soon: no sleep state fits. -/
def wSoon : State := onA fun x => (x.putB Fld.PWR_SLEEP_CFG_ALARM_EN true).wr Reg.PWR_WAKE_AT_LO 1
def wGroup : State := onH fun h => h.put (Fld.HINGE_PCIE_CQG_STAT_ACC 0) 1
def wCopyOut : State := dma (onA fun x => { x with host := { x.host with cmds := [cmdT 1 3 1 none true] } })

/-! ## A state for every premise of the statements

One theorem per statement: the premises of each of its clauses, met together at a state and operands. -/

theorem meets_StepRunsFrontCommand : wPending.pending = .start .A 0 :: [.cap .B] ∧ base.pending = [] := by decide +kernel

theorem meets_EveryStepShowsSafeAndMirror : goesOnB (step State.reset) = true ∧ State.reset.Shown :=
  ⟨by decide +kernel, by intro i; cases i <;> exact ⟨fun h => absurd h (by decide +kernel), fun h => absurd h (by decide +kernel)⟩⟩

theorem meets_EveryStepShowsSafeAndMirror_up : (State.settle base).Shown ∧ (State.settle base).leafA.boot.held = false :=
  ⟨by intro i; cases i <;> exact ⟨fun _ => by decide +kernel, fun _ => by decide +kernel⟩, by decide +kernel⟩

theorem meets_EveryCommandDrains : goesOnB (exec (.lockstep .A) State.reset) = true := by decide +kernel

theorem meets_HingeResetCommands : State.reset.hinge.held = true ∧ base.hinge.held = false := by decide +kernel

theorem meets_LeafResetCommands : (∀ i, (base.leaf i).boot.held = false ∧ (base.leaf i).sleep = 0) ∧ base.hinge.held = false
    ∧ base.hinge.active = false ∧ bitOf (0x80000001#32).toNat 1 = false ∧ bitOf (0x80000002#32).toNat 0 = false :=
  ⟨fun i => by cases i <;> decide +kernel, by decide +kernel⟩

theorem meets_ResetRequestInReset : (∀ i, (State.reset.leaf i).boot.held = true) ∧ bitOf (1#32).toNat 1 = false
    ∧ base.hinge.held = false ∧ base.leafA.boot.held = false ∧ base.leafB.boot.held = false ∧ bitOf (3#32).toNat 1 = true :=
  ⟨fun i => by cases i <;> decide +kernel, by decide +kernel⟩

theorem meets_BootCommands :
    (∀ p ∈ [1, 2, 3, 4, 6, 8], (wPhase p).leafA.boot.held = false ∧ (wPhase p).hinge.phase .A = p)
    ∧ (wPhase 6).leafA.boot.booting = some (1, FwCopy.shipped) ∧ (wPhase 8).hinge.held = false
    ∧ wPhaseB.hinge.held = false ∧ wPhaseB.hinge.phase .B = 8 ∧ bitOf (1#32).toNat 1 = false ∧ bitOf (2#32).toNat 0 = false
    ∧ wFwOk.hinge.phase .A = 8 ∧ wFwOk.leafA.boot.hostFetch = true
    ∧ (wPhase 2).ready .A = true ∧ (wPhase 2).leafA.bit Fld.LEAF_FWU_STAT_BUSY = false ∧ 2 ^ 25 < (wPhase 2).leafA.get Fld.LEAF_FWU_LEN_LEN
    ∧ (wPhase 2).leafA.boot.fwuPend = some (1, FwCopy.shipped) := by decide +kernel

theorem meets_BootCommands_authentic :
    fwAuthentic wFwOk.leafA.fuses.fwKeyHash (padTo (wFwOk.hinge.get Fld.HINGE_HBOOT_LEN_LEN) fwBytesT) = true
    ∧ wFwOk.leafA.fuses.minSvn ≤ (fwOf (padTo (wFwOk.hinge.get Fld.HINGE_HBOOT_LEN_LEN) fwBytesT)).svn := by decide +kernel

theorem meets_ModeSetOnceUntilHingeReset : base.hinge.held = false ∧ base.hinge.bit Fld.HINGE_MODE_LOCKED = false
    ∧ wLocked.hinge.held = false ∧ wLocked.hinge.bit Fld.HINGE_MODE_LOCKED = true
    ∧ goesOnB (step wLocked) = true := by decide +kernel

theorem meets_LinkAndFunctionCommands : base.hinge.held = false ∧ base.hinge.perst = false ∧ base.hinge.linkOk = true := by decide +kernel

theorem meets_LeafWindowNotUp : (∀ i, wDown.hinge.up i = false) ∧ 0x3FFFFFC < 0x4000000 ∧ 0x3FFFFFC % 4 = 0
    ∧ wDown.hinge.winOn (windowOf .A 7) = true ∧ wDown.hinge.winOn (windowOf .B 0) = true ∧ (leBytes 4 5).length = 4 :=
  ⟨fun i => by cases i <;> decide +kernel, by decide +kernel⟩

theorem meets_LeafWindowNotUp_boot : ∃ t, step { wPhase0 with pending := [.bootPhaseDone .A 0 1 .ok] } = .next t
    ∧ wPhase0.hinge.up .A = false ∧ t.hinge.up .A = true := by
  refine ⟨((wPhase0.bootPhaseDone .A 0 1 .ok).eventNow .A Leaf.booted Leaf.firstEval).settle, rfl, by decide +kernel, ?_⟩
  have h := (settle_kept ((wPhase0.bootPhaseDone .A 0 1 .ok).eventNow .A Leaf.booted Leaf.firstEval)).hinge.get
    Fld.HINGE_LEAF_STAT_UP_A (by intro i h1 h2; interval_cases i; decide)
  have h2 : ((wPhase0.bootPhaseDone .A 0 1 .ok).eventNow .A Leaf.booted Leaf.firstEval).hinge.get Fld.HINGE_LEAF_STAT_UP_A = 1 := by
    decide +kernel
  rw [show ∀ x : Hinge, x.up .A = (x.get Fld.HINGE_LEAF_STAT_UP_A != 0) from fun _ => rfl, h, h2]
  rfl

theorem meets_AccessTypes : ((⟨"X", 7, 0, .W1C, 0, 0⟩ : RegField).lo ≤ (⟨"X", 7, 0, .W1C, 0, 0⟩ : RegField).hi)
    ∧ (⟨"R", 0, 1, 0, 1, 0, [⟨"X", 7, 0, .WO, 0, 0⟩]⟩ : RegRow).fields = [⟨"X", 7, 0, .WO, 0, 0⟩] := by decide

theorem meets_RegisterReadAndWrite : (∀ i, base.ready i = true) ∧ 0x9FFFFC % 4 = 0 ∧ 0x9FFFFC / 2 ^ 20 = 9 ∧ 0x9FFFFC ≠ Reg.EGO_CTRL
    ∧ (regAt Reg.EGO_CFG).isSome = true ∧ Reg.EGO_CFG / 2 ^ 20 = 9 :=
  ⟨fun i => by cases i <;> decide +kernel, by decide +kernel⟩

theorem meets_ApertureAndWindows :
    (base.hinge.apTarget 0).2 + (leBytes 4 5).length ≤ softEnd ∧ base.ready (base.hinge.apTarget 0).1 = true
    ∧ 0 < 2 ^ base.hinge.apLog2
    ∧ (base.leaf (base.hinge.apTarget 0).1).touchesCache (base.hinge.apTarget 0).2 (leBytes 4 5).length = false
    ∧ (base.leaf (base.hinge.apTarget 0).1).host.toPlace = []
    ∧ softEnd < (wApEnd.hinge.apTarget 0).2 + 17 ∧ (wApEnd.hinge.apTarget 0).2 + 16 ≤ softEnd ∧ wApEnd.ready (wApEnd.hinge.apTarget 0).1 = true
    ∧ wPair.ready .A = true ∧ wPair.hinge.winOn (windowOf .A 0) = true ∧ wPair.leafA.sqBad 0 (leNat (leBytes 4 15) % 4096) = false
    ∧ wPair.hinge.winOn (windowOf .A 1) = false := by decide +kernel

theorem meets_AgreementCommands :
    wAgree0.leafA.sns.outStamps = [⟨0x10, 5, 77⟩] ∧ wAgree0.hinge.active = true ∧ wAgree0.hinge.agree.stampPartner .A ⟨0x10, 5, 77⟩ = none
    ∧ wAgree1.leafA.sns.outStamps = [⟨0x10, 5, 77⟩] ∧ wAgree1.hinge.active = true
    ∧ wAgree1.hinge.agree.stampPartner .A ⟨0x10, 5, 77⟩ = some ⟨0x10, 5, 70⟩
    ∧ (LeafId.A, (⟨1, 1, 1⟩ : StampMsg)) ∈ wAgree3.hinge.agree.stamps ∧ wAgree3.hinge.bit Fld.HINGE_AGREE_STAT_FAULT = false
    ∧ wAgree0.leafA.tick.outDigests = [dg (some 7) 1] ∧ wAgree0.hinge.agree.startTick ≤ (dg (some 7) 1).tick
    ∧ wAgree0.hinge.agree.partner .A (dg (some 7) 1) = none
    ∧ wAgree1.hinge.agree.partner .A (dg (some 7) 1) = some (dg (some 7) 1)
    ∧ wAgree2.leafA.tick.outDigests = [dg (some 7) 1] ∧ wAgree2.hinge.active = true
    ∧ wAgree2.hinge.agree.partner .A (dg (some 7) 1) = some (dg (some 7) 2) ∧ (dg (some 7) 2).digest ≠ (dg (some 7) 1).digest
    ∧ wAgree3.leafA.tick.outDigests = [dg none 1] ∧ wAgree3.hinge.active = true ∧ wAgree3.hinge.agree.startTick ≤ (dg none 1).tick
    ∧ wAgree3.hinge.agree.partner .A (dg none 1) = some (dg none 2) ∧ (dg none 2).digest ≠ (dg none 1).digest
    ∧ (LeafId.B, dg none 2) ∈ wAgree3.hinge.agree.digests
    ∧ wAgree0.hinge.held = false ∧ wAgree0.hinge.bit Fld.HINGE_AGREE_STAT_SINGLE = true := by decide +kernel

theorem meets_BarrierCommands :
    wBar.hinge.held = false ∧ bitOf (0x80000000#32).toNat 30 = false ∧ wBar.hinge.bit Fld.HINGE_BAR_STAT_PENDING = false
    ∧ bitsOf (0x80000000#32).toNat Fld.HINGE_BAR_CTRL_SRC.hi Fld.HINGE_BAR_CTRL_SRC.lo = LeafId.A.toNat ∧ wBar.hinge.up .A = true
    ∧ wBar.leafA.state = 3 ∧ wBar.leafA.rd Reg.TICK_PERIOD ≠ 0 ∧ bitOf (0x40000000#32).toNat 31 = false
    ∧ wBarOut.hinge.barrier.fireAt = some 0 ∧ wBarOut.hinge.barrier.outEnd = some 0
    ∧ 65536 * 0 ≤ ((wBarOut.leaf wBarOut.hinge.barrier.fireLeaf).adv 0).now := by decide +kernel

theorem meets_DomainCommits :
    wDomOk.ready .A = true ∧ rateBad (wDomOk.leafA.writtenRate 0) = false ∧ wDomOk.leafA.followedTicking 0 = false
    ∧ wDomBad.ready .A = true ∧ rateBad (wDomBad.leafA.writtenRate 0) = true
    ∧ wDomTick.ready .A = true ∧ wDomTick.leafA.followedTicking 0 = true := by decide +kernel

theorem meets_VehicleTimeCommands :
    wVt.ready .A = true ∧ bitsOf (1#32).toNat 0 0 ≠ wVt.leafA.follow ∧ wVt.leafA.healthy (bitsOf (1#32).toNat 0 0) = true
    ∧ bridgeBad ((wVt.leafA.rebaseBridge.swWrite Reg.TIME_VT_CTRL (1#32).toNat).switchBridge (bitsOf (1#32).toNat 0 0)) = false
    ∧ wVt1.ready .A = true ∧ bitsOf (1#32).toNat 0 0 ≠ wVt1.leafA.follow ∧ wVt1.leafA.healthy (bitsOf (1#32).toNat 0 0) = false
    ∧ (wVt.leafA.adv 5).autoCalls = true ∧ bridgeBad ((wVt.leafA.adv 5).switchBridge (1 - wVt.leafA.follow)) = false
    ∧ (wVt.leafA.adv (2 ^ 36)).syncLate 1 = true
    ∧ wVt.leafA.bit Fld.TIME_PPS_CFG_ENABLE = true ∧ wVt.leafA.bit Fld.TIME_PPS_CFG_EDGE = false := by decide +kernel

theorem meets_GptpCommands :
    wPtp.ready .A = true ∧ (wPtp.leafA.adv (8 / 8)).takesPtp 1 [0] (ptp 0 1 2) = true
    ∧ wPtp.leafA.slaveDomain 1 (ptpDomain (ptp 0 1 2)) = some 0 ∧ ptpTwoStep (ptp 0 1 2) = true
    ∧ (wPtp.leafA.adv (8 / 8)).takesPtp 1 [8] (ptp 8 2 0) = true ∧ wPtp.leafA.slaveDomain 1 (ptpDomain (ptp 8 2 0)) = some 0
    ∧ (wPtp.leafA.time.dom 0).pendSync = some { seqId := 2, ingress8 := 0, corr := 0, relays := [] } ∧ 2 = ptpSeq (ptp 8 2 0)
    ∧ 8 - 0 < 8 * countsOfMs 100 ∧ 1 < wPtp.leafA.sw.ports.length
    ∧ (∀ f ∈ [ptp 2 9 0, ptp 3 1 0, ptp 10 1 0], (wPtp.leafA.adv (8 / 8)).takesPtp 1 [2, 3, 10] f = true)
    ∧ ptpType (ptp 2 9 0) = 2 ∧ ptpType (ptp 3 1 0) = 3 ∧ ptpType (ptp 10 1 0) = 10
    ∧ (wPtp.leafA.port 1).pd.reqSeq = some (ptpSeq (ptp 3 1 0)) ∧ (wPtp.leafA.port 1).pd.reqSeq = some (ptpSeq (ptp 10 1 0))
    ∧ (wPtp.leafA.port 1).pd.gotResp = true ∧ wPtp.leafA.bit (Fld.SW_P_CFG_EN 1) = true := by decide +kernel

theorem meets_TriggerCommands :
    wTrig.ready .A = true ∧ 15 < wTrig.leafA.time.trigs.length
    ∧ (wTrig.leafA.trig 15).pulseEnd = none ∧ wTrig.leafA.now ≤ wTrig.leafA.trigStart 15 ∧ bitOf (0x80000000#32).toNat 30 = false
    ∧ bitsOf (0x80000000#32).toNat (Fld.TIME_TRIG_CTRL_MODE 15).hi (Fld.TIME_TRIG_CTRL_MODE 15).lo = 0
    ∧ bitOf (0x40000000#32).toNat 31 = false ∧ (wTrig.leafA.trig 0).pulseEnd = none
    ∧ (wTrig.leafA.trig 0).nextAt = some 0 ∧ (wTrig.leafA.trig 0).single = true ∧ 0 ≤ (wTrig.leafA.adv 0).now
    ∧ (wTrig.leafA.trig 2).nextAt = some 0 ∧ (wTrig.leafA.trig 2).single = false ∧ (wTrig.leafA.trig 2).pulseEnd = none
    ∧ (wTrig.leafA.trig 15).nextAt = none ∧ (wTrig.leafA.trig 1).pulseEnd = some 0 ∧ (wTrig.leafA.trig 1).rearm = false
    ∧ wTrig.leafA.tick.outEnd = some 0 := by decide +kernel

theorem meets_SwitchFrames :
    wSwLearn.ready .A = true ∧ wSwLearn.leafA.bit (Fld.SW_P_CFG_EN 0) = true ∧ 60 ≤ frameT.length ∧ frameT.length ≤ 2044
    ∧ frameType frameT ≠ 0x88F7 ∧ wSwLearn.leafA.bit Fld.SW_CTRL_LEARN = true ∧ frameSrc frameT / 2 ^ 40 % 2 = 0
    ∧ wSwFwd2.ready .A = true ∧ wSwFwd2.leafA.bit Fld.SW_CTRL_LEARN = false ∧ 1 < wSwFwd2.leafA.sw.ports.length
    ∧ wSwFwd2.leafA.classOf 1 (wSwFwd2.leafA.framePcp 0 frameT) < (wSwFwd2.leafA.port 1).queues.length
    ∧ (wSwFwd2.leafA.port 1).queues.getD (wSwFwd2.leafA.classOf 1 (wSwFwd2.leafA.framePcp 0 frameT)) [] = []
    ∧ wSwFwd2.leafA.packetBytes + frameT.length + 4 ≤ 2 ^ 21
    ∧ wSwFwd.ready .A = true ∧ wSwFwd.leafA.bit (Fld.SW_P_CFG_EN 1) = true
    ∧ (wSwFwd.leafA.port 1).busyUntil ≤ (wSwFwd.leafA.adv 0).count
    ∧ ((List.range 8).reverse).find? (fun t => (wSwFwd.leafA.adv 0).mayTx 1 t (wSwFwd.leafA.adv 0).count) = some 0
    ∧ (wSwFwd.leafA.port 1).queues.getD 0 [] = [{ bytes := frameT, ingress8 := 0, port := 0 }]
    ∧ wFdb0.ready .A = true ∧ alGet wFdb0.leafA.sw.fdb 0 = some (entT 5 1 false)
    ∧ wFdb0.leafA.get Fld.SW_CTRL_AGE_S * countsOfMs 1000 ≤ (wFdb0.leafA.adv (2 ^ 38)).count - 0 := by decide +kernel

theorem meets_SwitchFrames_opaque : (∀ p pcp, wSwLearn.leafA.qciPass (frameDst frameT) p pcp = true)
    ∧ wSwLearn.leafA.sw.fdbFind (frameSrc frameT) (wSwLearn.leafA.frameVid 0 frameT) = none
    ∧ (wSwLearn.leafA.sw.fdbFree (frameSrc frameT) (wSwLearn.leafA.frameVid 0 frameT)).isSome = true := by
  refine ⟨fun p pcp => ?_, ?_, ?_⟩
  · have h : wSwLearn.leafA.qciWords = [] := by decide +kernel
    simp [Leaf.qciPass, h]
  · have h : wSwLearn.leafA.sw.fdb = [] := by decide +kernel
    simp [SwState.fdbFind, h, alGet]
  · have h : wSwLearn.leafA.sw.fdb = [] := by decide +kernel
    simp [SwState.fdbFree, h, alGet, List.range, List.range.loop]

theorem meets_SwitchFrames_forward : wSwFwd2.leafA.egressPorts 0 (frameDst frameT) (wSwFwd2.leafA.frameVid 0 frameT) = [1] := by
  have hd : frameDst frameT = 0x020000000002 := by decide +kernel
  have hv : wSwFwd2.leafA.frameVid 0 frameT = 1 := by decide +kernel
  have hf : wSwFwd2.leafA.sw.fdb = [(fdbSet 0x020000000002 1 * 4, { entT 0x020000000002 2 true with vid := 1 }), (4095, entT 7 1 false)] := rfl
  have hk : wSwFwd2.leafA.sw.fdbFind 0x020000000002 1 = some (fdbSet 0x020000000002 1 * 4) := by
    simp [SwState.fdbFind, hf, alGet, List.range, List.range.loop, entT]
  have hg : (alGet wSwFwd2.leafA.sw.fdb (fdbSet 0x020000000002 1 * 4)).map FdbEntry.ports = some 2 := by simp [hf, alGet, entT]
  rw [hd, hv]
  simp only [Leaf.egressPorts, hk, hg]
  decide +kernel

theorem meets_SwitchFrames_room (q k : Nat) : (([] : List QFrame).map fun g => g.bytes.length + 4).sum ≤ Config.queueLimit q k := Nat.zero_le _

theorem meets_ForwardingTableCommands :
    wFdb0.ready .A = true ∧ alGet wFdb0.leafA.sw.fdb (bitsOf (0#32).toNat Fld.SW_FDB_CMD_INDEX.hi Fld.SW_FDB_CMD_INDEX.lo) = some (entT 5 1 false)
    ∧ base.ready .A = true ∧ wFdb.ready .A = true ∧ wFdbFull.ready .A = true ∧ base.leafA.fdbMac = 0 ∧ base.leafA.get Fld.SW_FDB_MAC_HI_VID = 0
    ∧ wFdb.leafA.fdbMac = 0 ∧ wFdb.leafA.get Fld.SW_FDB_MAC_HI_VID = 0
    ∧ wFdbFull.leafA.fdbMac = 0 ∧ wFdbFull.leafA.get Fld.SW_FDB_MAC_HI_VID = 0 := by decide +kernel

theorem meets_ForwardingTableCommands_opaque :
    base.leafA.sw.fdbFind 0 0 = none ∧ (base.leafA.sw.fdbFree 0 0).isSome = true ∧ (wFdb.leafA.sw.fdbFind 0 0).isSome = true
    ∧ wFdbFull.leafA.sw.fdbFind 0 0 = none ∧ wFdbFull.leafA.sw.fdbFree 0 0 = none := by
  have hb : base.leafA.sw.fdb = [] := rfl
  have hw : wFdb.leafA.sw.fdb = [(fdbSet 0 0 * 4, entT 0 1 true)] := rfl
  have hf : wFdbFull.leafA.sw.fdb = (List.range 4).map fun k => (fdbSet 0 0 * 4 + k, entT (k + 1) 1 false) := rfl
  refine ⟨?_, ?_, ?_, ?_, ?_⟩
  · simp [SwState.fdbFind, hb, alGet]
  · simp [SwState.fdbFree, hb, alGet, List.range, List.range.loop]
  · simp [SwState.fdbFind, hw, alGet, entT, List.range, List.range.loop]
  · simp [SwState.fdbFind, hf, alGet, entT, List.range, List.range.loop]
  · simp [SwState.fdbFree, hf, alGet, List.range, List.range.loop]

theorem meets_GateAndLinkCommands :
    wQbv.ready .A = true ∧ 0 < wQbv.leafA.sw.ports.length ∧ 5 < wQbv.leafA.sw.ports.length
    ∧ wQbvBad.ready .A = true ∧ wQbvBad.leafA.rd (Reg.SW_P_QBV_CYCLE 0) < 1000
    ∧ (let x := wQbv.leafA.swWrite (Reg.SW_P_QBV_CTRL 0) (wordWith 1 (Fld.SW_P_QBV_CTRL_CHANGE 0) 1)
       (x.adminList 0).isEmpty = false ∧ (x.adminList 0).length ≤ 256 ∧ 1000 ≤ x.rd (Reg.SW_P_QBV_CYCLE 0)
       ∧ x.rd (Reg.SW_P_QBV_CYCLE 0) ≤ 1000000000 ∧ ((x.adminList 0).map (·.2)).sum = x.rd (Reg.SW_P_QBV_CYCLE 0))
    ∧ (wQbv.leafA.port 0).admin = some { entries := [(3, 1000)], cycle := 1000 } ∧ 0 * 2 ^ 16 ≤ (wQbv.leafA.adv 0).now := by decide +kernel

theorem meets_StartAndHalt :
    (∀ s ∈ [wStart0, wStart1], s.ready .A = true ∧ s.leafA.state = 3 ∧ s.leafA.bit Fld.TICK_STAT_START_PEND = false
      ∧ s.leafA.bit Fld.TICK_STAT_BARRIER_WAIT = false ∧ s.leafA.tick.held = false ∧ s.leafA.tickCfgOk = true ∧ s.leafA.bit Fld.LEAF_GLZ_STAT_BUSY = false)
    ∧ wStart0.hinge.bit Fld.HINGE_MODE_LOCKED = false ∧ wStart1.hinge.bit Fld.HINGE_MODE_LOCKED = true
    ∧ bitOf (wordWith 0 Fld.TICK_CTRL_BARRIER 1) 30 = false
    ∧ bitsOf (wordWith 0 Fld.TICK_CTRL_BARRIER 1) Fld.TICK_CTRL_BARRIER.hi Fld.TICK_CTRL_BARRIER.lo = 1
    ∧ bitsOf (0x80000000#32).toNat Fld.TICK_CTRL_BARRIER.hi Fld.TICK_CTRL_BARRIER.lo = 0
    ∧ wGlzBusy.ready .A = true ∧ wGlzBusy.leafA.bit Fld.LEAF_GLZ_STAT_BUSY = true
    ∧ bitOf (0x80000000#32).toNat 31 = true ∧ bitOf (0x80000000#32).toNat 30 = false
    ∧ wTick.ready .A = true ∧ wTick.leafA.ticking = true := by decide +kernel

theorem meets_Boundaries :
    wTick.ready .A = true ∧ wTick.leafA.tick.nextAt = some 0 ∧ 65536 * 0 ≤ (wTick.leafA.adv 0).now ∧ wTick.leafA.ticking = true
    ∧ wTickFirst.ready .A = true ∧ wTickFirst.leafA.tick.nextAt = some 0 ∧ wTickFirst.leafA.bit Fld.TICK_STAT_START_PEND = true
    ∧ wTickFirst.leafA.tick.first = true
    ∧ wTickLater.ready .A = true ∧ wTickLater.leafA.tick.nextAt = some (2 ^ 40) ∧ (wTickLater.leafA.adv 0).now < 65536 * 2 ^ 40
    ∧ wTickLater.leafA.tickCfgOk = true ∧ wTickLater.leafA.tick.nextSub = some 0
    ∧ (let t0 := (wTickLater.leafA.adv 0).nowNs / wTickLater.leafA.subPeriod * wTickLater.leafA.subPeriod
       0 ≤ t0 ∧ t0 < 2 ^ 40) := by decide +kernel

theorem meets_GlazingCommands :
    (∀ n ∈ [2, 3, 4, 5, 6], (wGlz n).ready .A = true ∧ (wGlz n).leafA.state = n ∧ (wGlz n).leafA.bit Fld.LEAF_GLZ_STAT_BUSY = false
      ∧ (wGlz n).leafA.bit Fld.LEAF_GLZ_STAT_PENDING = false)
    ∧ bitOf (0x80000000#32).toNat 29 = false ∧ bitOf (0x40000000#32).toNat 29 = false ∧ bitOf (0x40000000#32).toNat 31 = false
    ∧ wGlzBusy.ready .A = true ∧ wGlzBusy.leafA.bit Fld.LEAF_GLZ_STAT_BUSY = true
    ∧ wGlzPend.ready .A = true ∧ wGlzPend.leafA.bit Fld.LEAF_GLZ_STAT_PENDING = true
    ∧ wGlzBusy.leafA.glz.staged = some (stagedT false) ∧ (wGlzBusy.leafA.loadCheck (stagedT false)).isSome = true := by decide +kernel

theorem meets_GlazingCommands_load : wLoadOk.ready .A = true ∧ wLoadOk.leafA.state = 2
    ∧ (wLoadOk.leafA.glz.staged.map fun g => g.update == false && (wLoadOk.leafA.loadCheck g).isNone) = some true := by decide +kernel

theorem meets_GlazingCommands_update : wUpdOk.ready .A = true ∧ wUpdOk.leafA.ticking = true
    ∧ (wUpdOk.leafA.glz.staged.map fun g => g.update && !g.missed && (wUpdOk.leafA.loadCheck g).isNone) = some true := by decide +kernel

theorem meets_KeyCommands :
    (∀ s ∈ [wKeyP, wKeyR, wKeyN], s.ready .A = true ∧ s.leafA.state = 2 ∧ s.leafA.bit Fld.LEAF_GLZ_STAT_BUSY = false ∧ s.leafA.glz.fuse = none)
    ∧ wKeyP.leafA.glz.unlock = some 0x474F5250 ∧ wKeyP.leafA.fuses.present1 = false ∧ wKeyR.leafA.glz.unlock = some 0x4B564552
    ∧ wKeyN.leafA.glz.unlock = none ∧ wKeyF.ready .A = true ∧ wKeyF.leafA.glz.fuse = some (.prog1 9)
    ∧ wKeyG.ready .A = true ∧ wKeyG.leafA.glz.fuse = some (.revoke true false) := by decide +kernel

theorem meets_TokensAndCredits :
    wTok.ready .A = true ∧ wTok.leafA.flt.inject = none ∧ wTok.leafA.routeDesc 0 = some (routeT 0xFF00 0 1 0)
    ∧ wTok.leafA.routeDesc 1 = some (routeT 1 0 2 0) ∧ (wTok.leafA.route 1).flight = [tokT] ∧ isEngine 2 = false
    ∧ (wTok.leafA.route 0).flight = [tokT] ∧ (wTok.leafA.routeLinks (routeT 0xFF00 0 1 0)).contains 32 = true ∧ isEngine 1 = false
    ∧ (wTok.leafA.route 2).flight = [] ∧ wTok.leafA.routeDesc 2 = some (routeT 9 0 10 0) ∧ (wTok.leafA.route 1).back = 0
    ∧ (wTok.leafA.route 0).back ≠ 0 := by decide +kernel

theorem meets_StageRuns :
    wStage.ready .A = true ∧ wStage.leafA.ticking = true ∧ wStage.leafA.stage 0 = some (stageT 1 3 1 1 [])
    ∧ wStage.leafA.runOf false 0 = some (runT false) ∧ wStage.leafA.runOf true 0 = none
    ∧ wStage.leafA.canFire false (stageT 1 3 1 1 []) (runT false) = true
    ∧ wStage.leafA.stage 1 = some (stageT 2 1 1 0 []) ∧ wStage.leafA.runOf false 1 = some (runT false) ∧ wStage.leafA.runOf true 1 = none
    ∧ wStage.leafA.canFire false (stageT 2 1 1 0 []) (runT false) = false ∧ (runT false).finished = false
    ∧ wBlind.ready .A = true ∧ wBlind.leafA.ticking = true ∧ wBlind.leafA.stage 0 = some (stageT 1 3 1 1 [])
    ∧ wBlind.leafA.runOf false 0 = some (runT true) ∧ wBlind.leafA.runOf true 0 = none ∧ (stageT 1 3 1 1 []).spec = true
    ∧ wBlind.leafA.bit Fld.SPEC_CTRL_ENABLE = true ∧ wBlind.leafA.spec.enabled = true
    ∧ wBlind.leafA.spec.pred = some (wBlind.leafA.tickNum, {}) ∧ (runT true).finished = true ∧ wBlind.leafA.listed (stageT 1 3 1 1 []) = true
    ∧ wBlind.leafA.spec.pending = none := by decide +kernel

theorem meets_MemoryReads :
    wMem.ready .A = true ∧ wMem.leafA.mem.fetches.find? (fun e => e.obj == 1 && e.gran == 0) = some { obj := 1, gran := 0, slot := 0, blind := false }
    ∧ wMem.leafA.obj 1 = some (objT 4096 2 0 (2 ^ 30) 0) ∧ wMem.leafA.mem.lost = []
    ∧ wMem.leafA.mem.fetches.find? (fun e => e.obj == 1 && e.gran == 1) = none
    ∧ wMem.leafA.objAtFlash ((2 ^ 31 + 4095) / 4096 * 4096) = some (2, objT 4096 1 0 (2 ^ 31) 0) ∧ (objT 4096 1 0 (2 ^ 31) 0).mirrored = false
    ∧ wMem.leafA.badWord 4096 = false ∧ wMem.leafA.objAtDram (4096 / 32 * 32) = some (0, objT 4096 0 4 0 4096)
    ∧ wMem.leafA.bit Fld.MEM_DRAM_CFG_SCRUB_EN = true
    ∧ wMem.leafA.badWord 4095 = false ∧ wMem.leafA.objAtDram (4095 / 32 * 32) = none ∧ wMem.leafA.inCache (4095 / 32 * 32) = false
    ∧ wMemNo.ready .A = true ∧ wMemNo.leafA.bit Fld.MEM_DRAM_CFG_SCRUB_EN = false
    ∧ (wMem.leafA.mem.repairs.find? fun e => e.1 == 2).isSome = true ∧ wMem.leafA.obj 2 = some (objT 4096 1 0 (2 ^ 31) 0) := by decide +kernel

theorem meets_RewriteAndWriteBack :
    wRw0.ready .A = true ∧ bitOf (0x80000000#32).toNat 30 = false ∧ bitOf (0x40000000#32).toNat 31 = false
    ∧ wRw0.leafA.bit Fld.MEM_RW_STAT_BUSY = false ∧ wRw0.leafA.ticking = false ∧ wRw0.leafA.mem.rw = none
    ∧ wRw1.ready .A = true ∧ wRw1.leafA.bit Fld.MEM_RW_STAT_BUSY = true
    ∧ wRw1.leafA.mem.rw = some { obj := 1, src := 0, writeback := false, status := 0, vers := 0 }
    ∧ wRw1.leafA.obj 1 = some (objT 4096 2 0 (2 ^ 30) 0) ∧ (objT 4096 2 0 (2 ^ 30) 0).mirrored = false
    ∧ wRw2.ready .A = true ∧ wRw2.leafA.mem.rw = some { obj := 0, src := 0, writeback := true, status := 9, vers := 0 }
    ∧ wRw2.leafA.obj 0 ≠ none := by decide +kernel

theorem meets_CountersAndLifetime :
    base.ready .A = true ∧ bitOf (0x80000001#32).toNat 30 = false ∧ bitOf (0x40000001#32).toNat 31 = false ∧ base.leafA.ticking = false
    ∧ wTick.ready .A = true ∧ wTick.leafA.ticking = true := by decide +kernel

theorem meets_SourceCommands :
    wSrcOff.ready .A = true ∧ srcExists 0 = true ∧ srcExists 127 = true ∧ isCam 0 = true ∧ wSrcOff.leafA.bit (Fld.SNS_SRC_CFG_ENABLE 127) = false
    ∧ bitsOf (0xFFF#32).toNat 11 0 = 0xFFF ∧ wSrcOff.leafA.slotObjOk (bitsOf (0#32).toNat 11 0) = true
    ∧ wSrcOn.ready .A = true ∧ wSrcOn.leafA.bit (Fld.SNS_SRC_CFG_ENABLE 0) = true ∧ wSrcOn.leafA.srcState 0 = 2
    ∧ 3 * wSrcOn.leafA.srcWin 0 * 100 ≤ ((wSrcOn.leafA.adv (2 ^ 36)).count - (wSrcOn.leafA.src 0).lastAt) * 128
    ∧ ((wSrcOn.leafA.adv 0).count - (wSrcOn.leafA.src 0).lastAt) * 128 < 3 * wSrcOn.leafA.srcWin 0 * 100
    ∧ wSrcOff.leafA.srcState 0 = 0 := by decide +kernel

theorem meets_CameraCommands :
    wCam.ready .A = true ∧ 5 < wCam.leafA.sns.cams.length ∧ wCam.leafA.bit (Fld.SNS_CAM_STAT_LOCK 0) = true ∧ wCam.leafA.srcState 0 ≠ 0
    ∧ 0 = wCam.leafA.get (Fld.SNS_CAM_CFG_VC 0) ∧ (wCam.leafA.cam 0).frames = [] ∧ wCam.hinge.active = true
    ∧ wCam.leafA.bit (Fld.SNS_CAM_STAT_LOCK 5) = false
    ∧ wCamDue.ready .A = true ∧ (wCamDue.leafA.cam 0).frames = [camT] ∧ (wCamDue.leafA.camDueAt 0 camT).isSome = true
    ∧ (match wCamDue.leafA.camDueAt 0 camT with | some d => decide (d ≤ (wCamDue.leafA.adv (2 ^ 36)).nowNs) | none => false) = true
    ∧ wCam.leafA.bit (Fld.SNS_CAM_TRIG_EN 0) = true ∧ (wCam.leafA.cam 0).trigNext = some 0
    ∧ 0 - wCam.leafA.get (Fld.SNS_CAM_TLEAD_NS 0) ≤ (wCam.leafA.adv 0).nowNs
    ∧ wCam.leafA.bit (Fld.SNS_CAM_I2C_BUSY 0) = false ∧ wCamDue.leafA.bit (Fld.SNS_CAM_I2C_BUSY 0) = true
    ∧ (wCam.leafA.cam 0).i2c = some (true, 1, 2, 3) := by decide +kernel

/-- A CAN frame for entry 0. -/
def canT : CanFrame := { ide := false, id := 0, data := leBytes 8 0x1234, ok := true }

theorem meets_BusCommands :
    wBus.ready .A = true ∧ wBus.leafA.sw.p5 = [udpNot] ∧ udpOf udpNot.bytes = none ∧ wBus.leafA.sns.spi.getD 1 none = none
    ∧ wBus.leafA.sns.spi.getD 0 none = some (5, 40) ∧ wBus.hinge.active = true ∧ wBus.leafA.srcState (0x10 + 0) ≠ 0
    ∧ wBus.leafA.bit (Fld.SNS_SPI_CFG_LISTEN 0) = false
    ∧ wBus.leafA.sns.busOff.getD 0 true = false ∧ canT.ok = true ∧ wBus.leafA.srcState (0x40 + 0) ≠ 0 ∧ wBus.leafA.canMatch 0 canT 0 = true
    ∧ wBus.leafA.canSignal canT 0 = some 0x34 ∧ wBus.leafA.sns.busOff.getD 1 true = true ∧ 1 < wBus.leafA.sns.busOff.length
    ∧ base.leafA.srcState 0x20 = 0 ∧ wBus.leafA.srcState 0x20 ≠ 0 ∧ 0 < (leBytes 1024 7).length ∧ (leBytes 1024 7).length ≤ 1024
    ∧ wBus.leafA.sns.uartTx = [0x41] ∧ wUartFull.ready .A = true ∧ wUartFull.leafA.sns.uartTx.length = 64 := by decide +kernel

theorem meets_FilterAndEgoCommands :
    wFilt.ready .A = true ∧ wFilt.leafA.bit (Fld.FILT_CH_CFG_ENABLE 0) = false ∧ mpBad (wFilt.leafA.rd (Reg.FILT_CH_MPPROG 0)) (bitsOf (0#32).toNat 29 28) = false
    ∧ wFilt.leafA.slotObjOk (bitsOf (0#32).toNat 11 0) = true ∧ bitsOf (0xFFF#32).toNat 11 0 = 0xFFF ∧ 31 < wFilt.leafA.filt.chs.length
    ∧ mpBad (wFilt.leafA.rd (Reg.FILT_CH_MPPROG 1)) (bitsOf (0#32).toNat 29 28) = true
    ∧ base.leafA.bit Fld.FILT_SYNC_CTRL_PIN_EN = false ∧ wFilt.leafA.bit Fld.FILT_SYNC_CTRL_PIN_EN = true ∧ wFilt.hinge.active = true
    ∧ wFilt.leafA.filt.armed = some 0 ∧ 0 * wFilt.leafA.rd Reg.TICK_PERIOD ≤ (wFilt.leafA.adv 0).nowNs
    ∧ wFiltLater.ready .A = true ∧ wFiltLater.leafA.filt.armed = some 1000000
    ∧ (wFiltLater.leafA.adv 0).nowNs < 1000000 * wFiltLater.leafA.rd Reg.TICK_PERIOD
    ∧ bitOf (0x80000000#32).toNat 30 = false ∧ wFiltLater.leafA.ticking = true
    ∧ wFiltLater.leafA.tickNum < wFiltLater.leafA.rd64 Reg.FILT_SYNC_TICK_LO Reg.FILT_SYNC_TICK_HI
    ∧ wFilt.leafA.ticking = true ∧ wFilt.leafA.rd64 Reg.FILT_SYNC_TICK_LO Reg.FILT_SYNC_TICK_HI ≤ wFilt.leafA.tickNum
    ∧ wEgo.ready .A = true ∧ (wEgo.leafA.adv 0).egoRuns = true
    ∧ (wEgo.leafA.adv 0).egoNext + wEgo.leafA.subPeriod + 1000 * wEgo.leafA.holdUs ≤ (wEgo.leafA.adv 0).nowNs
    ∧ (base.leafA.adv 0).egoRuns = false ∧ base.leafA.spec.conf = none := by decide +kernel

theorem meets_VisionCommands :
    wVis.ready .A = true ∧ (∀ j ∈ [0, 1, 2], (wVis.leafA.visJob 1 j).isSome = true ∧ (wVis.leafA.vjob 1 j).isSome = true)
    ∧ wVis.leafA.vjob 1 0 = some { st := .armed } ∧ (wVis.leafA.visJob 1 0).map (fun c => decide (wVis.leafA.visCheck c = .skip)) = some true
    ∧ wVis.leafA.vjob 1 1 = some { st := .queued } ∧ wVis.leafA.vis.held.contains 1 = false
    ∧ (wVis.leafA.visJob 1 1).map (fun c => decide (wVis.leafA.visCheck c = .run) && wVis.leafA.visSizeOk 1 c) = some true
    ∧ wVis.leafA.bit (Fld.VIS_ENG_STAT_BUSY (1 - 1)) = false ∧ (wVis.leafA.vqueue 1).head? = some 1
    ∧ (wVis.leafA.visJob 1 2).map (fun c => decide (wVis.leafA.visCheck c = .notYet)) = some true
    ∧ wVisRun.ready .A = true ∧ (wVisRun.leafA.visJob 1 3).map (fun c => wVisRun.leafA.refBad c.in0 || wVisRun.leafA.refBad c.in1) = some false
    ∧ wVisRun.leafA.vjob 1 3 = some { st := .running } ∧ wVisRun.leafA.vjob 1 0 = some { st := .armed }
    ∧ wVis.leafA.bit (Fld.VIS_ENG_STAT_RST_BUSY (1 - 1)) = false ∧ wVisRun.leafA.bit (Fld.VIS_ENG_STAT_RST_BUSY (1 - 1)) = true := by decide +kernel

theorem meets_FusionCommands :
    wPj.ready .A = true ∧ wPj.leafA.ticking = true ∧ (wPj.leafA.fusCfg.map fun c => c.pj) = some [(0, 0)]
    ∧ (alGet wPj.leafA.fab.ports (8 * 64 + 20 + 0)).isSome = true ∧ alGet wPj.leafA.fab.ports (72 * 64 + 20 + 0) = none
    ∧ (wPj.leafA.pjRun 0).ended = false ∧ (wPj.leafA.engPort 8 (20 + 0)).poison = false
    ∧ wGrid.ready .A = true ∧ wGrid.leafA.ticking = true ∧ wGrid.leafA.fus.grid = none
    ∧ (wGrid.leafA.fusCfg.map fun c => (List.range c.nev).all (fun e => (wGrid.leafA.engPort 8 e).ended) && (wGrid.leafA.engPort 8 16).ended) = some true
    ∧ (wPj.leafA.fusCfg.map fun c => (List.range c.nev).all (fun e => (wPj.leafA.engPort 8 e).ended) && (wPj.leafA.engPort 8 16).ended) = some false
    := by decide +kernel

theorem meets_SpeculationAndMapCommands :
    (∀ s ∈ [wSpec0, wSpec1, wSpec2], s.ready .A = true ∧ s.leafA.spec.pending = some 5 ∧ (s.leafA.spec.work.map (·.tick)) = some 5)
    ∧ (wMap.leafA.map.verify.map fun v => v.cands) = some [(0, { query := 1, node := 0, kind := 0, n := 0, pairs := [] })]
    ∧ wMap.ready .A = true ∧ wMap.leafA.bit Fld.MAP_LMK_RD_IDX_BUSY = true ∧ base.leafA.bit Fld.MAP_LMK_RD_IDX_BUSY = false := by decide +kernel

theorem meets_QueryCommands :
    wQry.ready .A = true ∧ alGet wQry.leafA.srch.ctxs 0 = none
    ∧ wQry.leafA.srch.rows = [{ q := 0, tick := 0, row := 0, blind := false, s := 0, rec' := [] }]
    ∧ wQry.leafA.bestEngine (wQry.leafA.recChans []) = some (0 / 256)
    ∧ wQryHost.ready .A = true ∧ alGet wQryHost.leafA.srch.ctxs 0 = none ∧ wQryHost.leafA.srch.rows = []
    ∧ wQryHost.leafA.srch.host = [cmdT 1 1 1 none true]
    ∧ wQryHost.leafA.bestEngine (wQryHost.leafA.recChans (wQryHost.leafA.dramRead (cmdT 1 1 1 none true).addr0 352)) = some (0 / 256)
    ∧ alGet base.leafA.srch.ctxs 2047 = none ∧ base.leafA.srch.rows = [] ∧ base.leafA.srch.host = []
    ∧ alGet wQry.leafA.srch.ctxs 1 = some (queryT .walk (.host (cmdT 1 1 1 none true)))
    ∧ alGet wQry.leafA.srch.ctxs 2 = some (queryT .done (.row 0 0 0 false))
    ∧ alGet wQry.leafA.srch.ctxs 3 = some (queryT .done (.host (cmdT 1 1 2 none true)))
    ∧ (queryT .walk (.row 0 0 0 false)).fld 12 4 = 100 ∧ 0 + countsOfUs 100 ≤ (wQry.leafA.adv (countsOfUs 100)).count
    ∧ (wQry.leafA.adv (countsOfUs 100 - 1)).count < 0 + countsOfUs 100 := by decide +kernel

theorem meets_SideListCommands :
    wSide0.ready .A = true ∧ wSide0.leafA.bit Fld.SRCH_SIDE_STAT_BUSY = false ∧ wSide0.leafA.srch.side = none
    ∧ wSide1.ready .A = true ∧ wSide1.leafA.bit Fld.SRCH_SIDE_STAT_BUSY = true ∧ wSide1.leafA.srch.side = some (1, 0, 0, 0)
    ∧ wSide1.leafA.idxOpen 0 = some slotT ∧ slotT.side.length < 16384 ∧ descNan (sliceBytes (wSide1.leafA.dramRead 0 320) 32 256) = false
    ∧ wSide2.ready .A = true ∧ wSide2.leafA.srch.side = some (2, 0, 0, 77) ∧ wSide2.leafA.idxOpen 0 = some slotT
    ∧ wSide2.leafA.visibleNow slotT 77 = false := by decide +kernel

theorem meets_MergeCommands :
    base.ready .A = true ∧ bitOf (0x80000003#32).toNat 30 = false ∧ base.leafA.bit Fld.SRCH_MRG_STAT_BUSY = false
    ∧ base.leafA.idxOpen (bitsOf (0x80000003#32).toNat 1 0) = none
    ∧ wMrg.ready .A = true ∧ wMrg.leafA.bit Fld.SRCH_MRG_STAT_BUSY = false ∧ wMrg.leafA.idxOpen (bitsOf (0x80000000#32).toNat 1 0) = some slotT
    ∧ wMrg.leafA.rd64 Reg.SRCH_MRG_HDR_LO Reg.SRCH_MRG_HDR_HI = 2 ^ 36 ∧ wMrg.leafA.rd64 Reg.SRCH_MRG_NODE_LO Reg.SRCH_MRG_NODE_HI = 0x50000000
    ∧ wMrg.leafA.rd64 Reg.SRCH_MRG_DESC_LO Reg.SRCH_MRG_DESC_HI = 0x60000000
    ∧ (let ix : IxHdr := { slotT.hdr with at' := 2 ^ 36, n := slotT.next, nodeOfs := 0x50000000, descOfs := 0x60000000 }
       2 ^ 36 % 16384 = 0 ∧ 0x50000000 % 16384 = 0 ∧ 0x60000000 % 16384 = 0 ∧ 0x50000000 + ix.nodeLen ≤ 2 ^ 37 ∧ 0x60000000 + ix.descLen ≤ 2 ^ 37
         ∧ slotT.next ≤ 2 ^ 31 ∧ anyOverlap ix.extents (wMrg.leafA.takenExtents none) = false)
    ∧ bitOf (0x40000000#32).toNat 31 = false ∧ wMrgRun.ready .A = true ∧ wMrgRun.leafA.srch.merge.isSome = true
    ∧ wMrgTick.ready .A = true ∧ wMrgTick.leafA.srch.merge.isSome = true ∧ wMrgTick.leafA.mergeMoves 0 = false
    ∧ wMrgRun.leafA.mergeMoves 0 = true ∧ wMrgRun.leafA.idxSlot 0 = some slotT
    ∧ wMrg.leafA.srch.merged = some (0, 1, { idxT with n := 5 }) ∧ wMrg.leafA.idxOpen 0 = some slotT ∧ wMrg.leafA.ticking = false
    ∧ wMrgTick.leafA.srch.merged = some (0, 1, { idxT with n := 5 }) ∧ wMrgTick.leafA.idxOpen 0 = some slotT ∧ wMrgTick.leafA.ticking = true
    ∧ bitOf (0#32).toNat 31 = false ∧ bitOf (0#32).toNat 30 = false := by decide +kernel

theorem meets_AttachAndFlashWriteCommands :
    base.ready .A = true ∧ base.leafA.bit Fld.SRCH_FW_STAT_BUSY = false ∧ base.leafA.fwBad 0 0 0 = true
    ∧ base.leafA.rd64 Reg.SRCH_FW_SRC_LO Reg.SRCH_FW_SRC_HI = 0 ∧ base.leafA.rd64 Reg.SRCH_FW_DST_LO Reg.SRCH_FW_DST_HI = 0 ∧ base.leafA.rd Reg.SRCH_FW_LEN = 0
    ∧ wAtt.ready .A = true ∧ wAtt.leafA.bit Fld.SRCH_FW_STAT_BUSY = false ∧ wAtt.leafA.rd64 Reg.SRCH_FW_SRC_LO Reg.SRCH_FW_SRC_HI = 0
    ∧ wAtt.leafA.rd64 Reg.SRCH_FW_DST_LO Reg.SRCH_FW_DST_HI = 2 ^ 36 ∧ wAtt.leafA.rd Reg.SRCH_FW_LEN = 16384
    ∧ wAtt.leafA.fwBad 0 (2 ^ 36) 16384 = false ∧ wAtt.leafA.bit (Fld.MEM_FLASH_WEAR_RO (2 ^ 36 / 2 ^ 37 % 8)) = false
    ∧ (∀ s ∈ [wFw0, wFw1], s.ready .A = true ∧ s.leafA.srch.fw = some { src := 0, dst := 2 ^ 36, len := 16384 })
    ∧ wFw1.leafA.badRange 0 16384 = true ∧ wFw0.leafA.badRange 0 16384 = false
    ∧ bitOf (0x80000000#32).toNat 30 = false ∧ bitOf (0x80000000#32).toNat 29 = false
    ∧ wAtt.leafA.idxSlot 3 = none ∧ wAtt.leafA.srch.attach.contains 3 = false ∧ wAtt.leafA.idxSlot 0 ≠ none
    ∧ wAtt.leafA.srch.attach.contains 1 = true ∧ wAtt.leafA.rd64 (Reg.SRCH_IDX_HDR_LO 1) (Reg.SRCH_IDX_HDR_HI 1) = 2 ^ 35
    ∧ bitOf (0x40000000#32).toNat 31 = false ∧ bitOf (0x40000000#32).toNat 29 = false ∧ wAtt.leafA.idxSlot 0 = some slotT
    ∧ (wAtt.leafA.srch.ctxs.any fun c => c.2.x == 0 && c.2.phase != .invalid) = true
    ∧ wAtt.leafA.idxSlot 2 = some slotT ∧ (wAtt.leafA.srch.ctxs.any fun c => c.2.x == 2 && c.2.phase != .invalid) = false
    ∧ wAtt.leafA.srch.slots.Pairwise (fun a b => a.1 < b.1) := by decide +kernel

set_option maxRecDepth 20000 in
theorem wAttOk_crc : (leAt (wAttOk.leafA.flashRead (2 ^ 35) 4096) 4088 8 == crc64 ((wAttOk.leafA.flashRead (2 ^ 35) 4096).take 4088)) = true := by
  decide +kernel

set_option maxRecDepth 20000 in
theorem wAttOk_points : ((List.range 64).all fun e => decide (e < leAt (wAttOk.leafA.flashRead (2 ^ 35) 4096) 32 2)
    || (leAt (wAttOk.leafA.flashRead (2 ^ 35) 4096) (64 + 40 * e) 32 == 0 && leAt (wAttOk.leafA.flashRead (2 ^ 35) 4096) (96 + 40 * e) 8 == 0)) = true := by
  decide +kernel

theorem wAttOk_header : headerOk (2 ^ 35) (wAttOk.leafA.flashRead (2 ^ 35) 4096) = true := by
  unfold headerOk
  simp only [wAttOk_crc, wAttOk_points, Bool.and_true]
  decide +kernel

theorem meets_AttachAndFlashWriteCommands_header :
    wAttOk.ready .A = true ∧ wAttOk.leafA.srch.attach.contains 1 = true ∧ wAttOk.leafA.srch.bad.contains (2 ^ 35) = false
    ∧ wAttOk.leafA.mem.lost.contains (2 ^ 35) = false ∧ wAttOk.leafA.attachStatus (2 ^ 35) (wAttOk.leafA.flashRead (2 ^ 35) 4096) = 0 := by
  refine ⟨by decide +kernel, by decide +kernel, by decide +kernel, by decide +kernel, ?_⟩
  unfold Leaf.attachStatus
  simp only [wAttOk_header, Bool.not_true, Bool.false_or]
  decide +kernel

theorem meets_SolverCommands :
    wSolv.ready .A = true ∧ (wSolv.leafA.solvJobs.find? fun e => e.job == 1).isSome = true ∧ wSolv.leafA.ticking = true
    ∧ (wSolv.leafA.solvJobs.find? fun e => e.job == 1).map (fun d => wSolv.leafA.solvReady d
        && (wSolv.leafA.solvJobs.all fun e => !(wSolv.leafA.solvReady e) || decide (d.rank ≤ e.rank))) = some true
    ∧ wSolv.leafA.bit Fld.SOLV_STAT_RST_BUSY = false ∧ wSolv.leafA.solvRunning = none
    ∧ (wSolv.leafA.solvJobs.find? fun e => e.job == 0).map (fun d => wSolv.leafA.solvReady d) = some false
    ∧ wSolvRun.ready .A = true ∧ (wSolvRun.leafA.solvJobs.find? fun e => e.job == 0).map (·.kind) = some 1 ∧ (wSolvRun.leafA.sjob 0).st = .running
    ∧ (wSolvRun.leafA.solvJobs.find? fun e => e.job == 1).map (·.kind) = some 3 ∧ (wSolvRun.leafA.sjob 1).st = .running
    ∧ (wSolv.leafA.asgJob.map (·.job)) = some 2 ∧ wSolv.leafA.solvEnded 8 = true ∧ wSolv.leafA.solv.asg = 0
    ∧ (wSolvRun.leafA.asgJob.map (·.job)) = some 2 ∧ wSolvRun.leafA.solv.asg = 1
    ∧ bitOf (0x40000000#32).toNat 31 = false ∧ bitOf (0x80000000#32).toNat 30 = false
    ∧ wSolvRst.ready .A = true ∧ wSolvRst.leafA.bit Fld.SOLV_STAT_RST_BUSY = true := by decide +kernel

theorem meets_OperatingPoint :
    base.ready .A = true ∧ base.leafA.ticking = false ∧ base.leafA.state ≠ 1 ∧ wOp0.ready .A = true ∧ wOp0.leafA.ticking = true
    ∧ wOp1.ready .A = true ∧ wOp1.leafA.pwr.want = some (2, 0) ∧ wOp1.leafA.pwr.settled = false
    ∧ 0 + countsOfMs 1 ≤ (wOp1.leafA.adv (countsOfMs 1)).count ∧ (wOp1.leafA.adv (countsOfMs 1 - 1)).count < 0 + countsOfMs 1
    ∧ base.leafA.get Fld.PWR_STAT_STRETCH ≤ stretchMax (base.leafA.get Fld.PWR_OP_EFF)
    ∧ (base.leafA.adv 0).count < base.leafA.pwr.lastStretch + countsOfUs 2 := by decide +kernel

theorem meets_Thermal :
    base.ready .A = true ∧ (∃ k < 16, 2080 ≤ signedOf 16 ((List.replicate 16 2080).getD k 0)) ∧ (∀ k < 16, signedOf 16 ((List.replicate 16 2079).getD k 0) < 2080)
    ∧ wTrip.ready .A = true ∧ wTrip.leafA.state = 6 ∧ wTrip.leafA.bit Fld.PWR_TRIP_TRIPPED = true ∧ wTrip.leafA.get Fld.FLT_STAT_STOP_CODE = 6
    ∧ (∀ k < 16, signedOf 16 (wTrip.leafA.get (Fld.PWR_TSENS_T k)) < ((16 * wTrip.leafA.get Fld.PWR_TEMP_CFG_LIMIT : Nat) : Int))
    ∧ wTrip.leafA.flt.returnTo < 8 ∧ base.leafA.state ≠ 6
    ∧ (let k := base.leafA.pwr.lastCool + countsOfMs (max 1 (base.leafA.get Fld.PWR_COOL_CFG_TIMEOUT_MS))
       k ≤ (base.leafA.adv k).count ∧ (base.leafA.adv (k - 1)).count < k)
    ∧ wCross.ready .A = true ∧ (1, 0) ∈ wCross.leafA.pwr.cross ∧ 0 + countsOfMs 1 ≤ (wCross.leafA.adv (countsOfMs 1)).count := by decide +kernel

theorem meets_SleepAndWake :
    base.ready .A = true ∧ bitOf (0x80000000#32).toNat 30 = false ∧ base.leafA.pwr.entry = none ∧ base.leafA.ticking = false
    ∧ base.leafA.bit Fld.TICK_STAT_START_PEND = false ∧ base.leafA.sleepBusy = false ∧ base.leafA.sleepChoice.isSome = true
    ∧ wSoon.ready .A = true ∧ wSoon.leafA.pwr.entry = none ∧ wSoon.leafA.ticking = false ∧ wSoon.leafA.bit Fld.TICK_STAT_START_PEND = false
    ∧ wSoon.leafA.sleepBusy = false ∧ wSoon.leafA.sleepChoice = none
    ∧ wTick.ready .A = true ∧ wTick.leafA.pwr.entry = none ∧ wTick.leafA.ticking = true
    ∧ wEntry.ready .A = true ∧ wEntry.leafA.pwr.entry = some { state := 2, wake := some (5, 6) } ∧ bitOf (0x40000000#32).toNat 31 = false
    ∧ wSleep.leafA.booted = true ∧ 1 ≤ wSleep.leafA.sleep ∧ wSleep.leafA.sleep ≤ 2 ∧ wSleep.leafA.pwr.entry = none ∧ wSleep.leafA.pwr.waking = false
    ∧ wSleep.hinge.up .A = true ∧ wSleep.leafA.bit Fld.PWR_SLEEP_CFG_ALARM_EN = true
    ∧ wSleep.leafA.rd64 Reg.PWR_WAKE_AT_LO Reg.PWR_WAKE_AT_HI ≤ (wSleep.leafA.adv 0).nowNs
    ∧ wSleep.leafA.pwr.selfWake = some (0, 6) ∧ bitOf (wSleep.leafA.get Fld.PWR_WAKE_CFG_CAN_EN) 1 = true
    ∧ bitOf (wSleep.leafA.get Fld.PWR_WAKE_CFG_POL) 3 = false ∧ bitOf (wSleep.leafA.get Fld.PWR_WAKE_CFG_EN) 3 = true
    ∧ wWaking.leafA.booted = true ∧ wWaking.leafA.pwr.waking = true := by decide +kernel

theorem meets_InterruptCommands :
    base.ready .A = true ∧ base.leafA.bit Fld.CNT_STAT_BUSY = false ∧ wCnt.ready .A = true ∧ wCnt.leafA.bit Fld.CNT_STAT_BUSY = true := by decide +kernel

theorem meets_QueuePairCommands :
    wQueue.ready .A = true ∧ wQueue.leafA.sqBad 1 ((15#32).toNat % 4096) = false ∧ wQueue.leafA.sqBad 1 ((16#32).toNat % 4096) = true
    ∧ wQueue.leafA.cqBad 1 ((0#32).toNat % 4096) = false ∧ wQueue.leafA.cqBad 1 ((1#32).toNat % 4096) = true
    ∧ wQueue.leafA.bit (Fld.LEAF_Q_CFG_EN 1) = true ∧ wQueue.leafA.bit (Fld.LEAF_Q_CFG_EN 63) = false ∧ wQueue.leafA.bit (Fld.LEAF_Q_CFG_BUSY 63) = false
    ∧ wQueue.leafA.bit (Fld.LEAF_Q_CFG_SQ_LOC 1) = false ∧ wQueue.leafA.get (Fld.LEAF_Q_STAT_SQ_HEAD 1) ≠ wQueue.leafA.get (Fld.LEAF_Q_SQDB_TAIL 1)
    ∧ wQueue.leafA.reserved 1 < wQueue.leafA.cqFreeSlots 1 ∧ wQueue.hinge.canDma (wQueue.hinge.queueFn .A 1) = true ∧ leAt (padTo 64 (le 64 4)) 0 1 ≤ 4
    ∧ wQueue.leafA.host.hold = [{ q := 1, bytes := List.replicate 32 0 }] ∧ canPlace wQueue.hinge wQueue.leafA 1 = true
    ∧ wGroup.ready .A = true ∧ wGroup.hinge.groupDue 0 ((wGroup.leaf (if 0 < 8 then .A else .B)).adv 0).count = true := by decide +kernel

theorem meets_HostQueueCommands :
    wCmds.ready .A = true ∧ wCmds.leafA.waitingCmd 1 0 1 = some (cmdT 1 0 1 none false) ∧ wCmds.leafA.waitingCmd 1 1 1 = some (cmdT 1 1 1 none false)
    ∧ (cmdT 1 1 1 none false).rsvdOk = true ∧ (cmdT 1 1 1 none false).addr0 + 352 ≤ softEnd
    ∧ wCmds.leafA.waitingCmd 1 1 2 = some { cmdT 1 1 2 none false with addr0 := 1 } ∧ wCmds.leafA.waitingCmd 1 2 1 = some (cmdT 1 2 1 none false)
    ∧ wCmds.leafA.waitingCmd 1 3 1 = some (cmdT 1 3 1 none false) ∧ wCmds.leafA.waitingCmd 1 2 2 = some (cmdT 1 2 2 (some 0) false)
    ∧ wCmds.hinge.inWindow 0 (cmdT 1 2 2 (some 0) false).copyAddr 64 = false ∧ wCmds.leafA.waitingCmd 1 3 2 = some (cmdT 1 3 2 (some 0) false)
    ∧ wCmds.hinge.inWindow 0 (cmdT 1 3 2 (some 0) false).copyAddr 64 = false
    ∧ wCmds.leafA.waitingCmd 1 4 1 = some { cmdT 1 4 1 none false with addr0 := 2 ^ 32 + 1 }
    ∧ wCmds.leafA.host.cmds.find? (fun y => y.q == (2 ^ 32 + 1) / 2 ^ 32 % 64 && y.tag == (2 ^ 32 + 1) % 2 ^ 32
          && (y.opcode == 1 || y.opcode == 2 || y.opcode == 3)) = some (cmdT 1 1 1 none false)
    ∧ wCmds.leafA.waitingCmd 1 4 2 = some { cmdT 1 4 2 none false with addr0 := 2 ^ 32 + 9 }
    ∧ wCmds.leafA.host.cmds.find? (fun y => y.q == (2 ^ 32 + 9) / 2 ^ 32 % 64 && y.tag == (2 ^ 32 + 9) % 2 ^ 32
          && (y.opcode == 1 || y.opcode == 2 || y.opcode == 3)) = none
    ∧ wCopy.ready .A = true ∧ wCopy.hinge.canDma 0 = true
    ∧ (wCopy.leafA.host.cmds.find? fun y => y.q == 1 && y.tag == 1 && y.started && (y.opcode == 2 || y.opcode == 3)) = some (cmdT 1 2 1 none true)
    ∧ (wCopyOut.leafA.host.cmds.find? fun y => y.q == 1 && y.tag == 1 && y.started && (y.opcode == 2 || y.opcode == 3)) = some (cmdT 1 3 1 none true)
    ∧ wCopyOut.ready .A = true ∧ wCopyOut.hinge.canDma 0 = true := by decide +kernel

theorem meets_FaultCommands :
    wFault.ready .A = true ∧ wFault.leafA.state = 6 ∧ wFault.leafA.get Fld.FLT_STAT_STOP_CODE = 2 ∧ wFault.leafA.flt.returnTo < 8
    ∧ base.ready .A = true ∧ base.leafA.state = 2 ∧ base.leafA.flt.inject = none ∧ base.leafA.flt.stopCodeValid = false
    ∧ wTick.ready .A = true ∧ wTick.leafA.state = 4 ∧ wTick.leafA.flt.inject = none
    ∧ wInj0.ready .A = true ∧ wInj0.leafA.bit Fld.FLT_STAT_HINGE_LOST = true ∧ wInj0.leafA.flt.injKey = false
    ∧ wInj1.ready .A = true ∧ wInj1.leafA.flt.injKey = true ∧ wInj1.leafA.bit Fld.FLT_INJ_BUSY = false
    ∧ wInj1.leafA.injTarget 1 2 = true ∧ wInj1.leafA.injTarget 2 5 = true ∧ wInj1.leafA.paneObj 5 = some 3
    ∧ wInj1.leafA.injTarget 2 0 = true ∧ wInj1.leafA.paneObj 0 = none
    ∧ wInj1.leafA.injTarget 3 1 = true ∧ wInj1.leafA.injTarget 4 0x100 = true ∧ wInj1.leafA.injTarget 5 0x12 = true := by decide +kernel


/-! ## Ill-formed commands

One command for each check of WellFormed, which that check refuses. -/


theorem test_refuses_function : Instr.illFormed (.flr 2) = some .function := by decide

theorem test_refuses_configOperand : Instr.illFormed (.pcieConfigWrite 1 (.vectorMask 16 true)) = some .configOperand := by decide

theorem test_refuses_linkSpeed : Instr.illFormed (.linkStateChange 6 1 0) = some .linkSpeed := by decide

theorem test_refuses_linkWidth : Instr.illFormed (.linkStateChange 5 16 0) = some .linkWidth := by decide

theorem test_refuses_linkState : Instr.illFormed (.linkStateChange 5 8 4) = some .linkState := by decide

theorem test_refuses_source : Instr.illFormed (.sourceEnable .A 0x13 0) = some .source := by decide

theorem test_refuses_address : Instr.illFormed (.registerRead 2) = some .address := by decide

theorem test_refuses_domain : Instr.illFormed (.domStep .A 2) = some .domain := by decide

theorem test_refuses_port : Instr.illFormed (.syncReceived .A 5 0 [] []) = some .port := by decide

theorem test_refuses_trigger : Instr.illFormed (.triggerArm .A 16 0) = some .trigger := by decide

theorem test_refuses_fdbEntry : Instr.illFormed (.fdbAgeOut .A 4096 0) = some .fdbEntry := by decide

theorem test_refuses_readLevel : Instr.illFormed (.attachDone .A 0 ⟨some 9, none⟩) = some .readLevel := by decide

theorem test_refuses_stage : Instr.illFormed (.stageFire .A 1024 []) = some .stage := by decide

theorem test_refuses_route : Instr.illFormed (.tokenArrival .A 8192 []) = some .route := by decide

theorem test_refuses_object : Instr.illFormed (.granuleFetchDone .A 4095 0 []) = some .object := by decide

theorem test_refuses_flashAddress : Instr.illFormed (.flashReadDone .A (2 ^ 40) ⟨none, none⟩) = some .flashAddress := by decide

theorem test_refuses_dramAddress : Instr.illFormed (.dramScrubPass .A 0xBA0000000 .clean) = some .dramAddress := by decide

theorem test_refuses_camera : Instr.illFormed (.cameraFrameDue .A 6 0) = some .camera := by decide

theorem test_refuses_packet : Instr.illFormed (.cameraPacket .A 0 0 (.frameStart 16)) = some .packet := by decide

theorem test_refuses_byteValue : Instr.illFormed (.i2cDone .A 0 false 256) = some .byteValue := by decide

theorem test_refuses_imuPort : Instr.illFormed (.imuDataReady .A 2 0) = some .imuPort := by decide

theorem test_refuses_canController : Instr.illFormed (.canBusRecovery .A 2 0) = some .canController := by decide

theorem test_refuses_canFrame : Instr.illFormed (.canFrameReceived .A 0 0 ⟨false, 0x800, [], true⟩) = some .canFrame := by decide

theorem test_refuses_filterChannel : Instr.illFormed (.filtChannelEnable .A 32 0) = some .filterChannel := by decide

theorem test_refuses_visionEngine : Instr.illFormed (.visionEngineReset .A 0 0) = some .visionEngine := by decide

theorem test_refuses_job : Instr.illFormed (.projectionJob .A 8) = some .job := by decide

theorem test_refuses_word : Instr.illFormed (.irqPendWrite .A 16 0) = some .word := by decide

theorem test_refuses_candidate : Instr.illFormed (.loopVerificationDone .A 16) = some .candidate := by decide

theorem test_refuses_queryContext : Instr.illFormed (.queryAdmit .A 2048) = some .queryContext := by decide

theorem test_refuses_index : Instr.illFormed (.swap .A 4 0) = some .index := by decide

theorem test_refuses_readings : Instr.illFormed (.tempSample .A 0 [0x10000]) = some .readings := by decide

theorem test_refuses_wakeInput : Instr.illFormed (.wkupEdge .A 4 false 0) = some .wakeInput := by decide

theorem test_refuses_interrupt : Instr.illFormed (.irqTgtWrite .A 512 0) = some .interrupt := by decide

theorem test_refuses_vector : Instr.illFormed (.irqCoalesceTimeout .A 64 0) = some .vector := by decide

theorem test_refuses_queue : Instr.illFormed (.cqDoorbell .A 64 0) = some .queue := by decide

theorem test_refuses_entryLength : Instr.illFormed (.commandFetch .A 0 []) = some .entryLength := by decide

theorem test_refuses_tag : Instr.illFormed (.nop .A 0 (2 ^ 31)) = some .tag := by decide

theorem test_refuses_group : Instr.illFormed (.cqCoalesceTimeout 16 0) = some .group := by decide

theorem test_refuses_hostAccess : Instr.illFormed (.pf1WindowAccess 0 (.read 0)) = some .hostAccess := by decide

theorem test_refuses_blockCode : Instr.illFormed (.cfgParityScan .A 0 (some 32)) = some .blockCode := by decide

theorem test_refuses_dramChannel : Instr.illFormed (.dramChan .A 16 0) = some .dramChannel := by decide

theorem test_refuses_link : Instr.illFormed (.linkUp .A (.camera 0 6)) = some .link := by decide

theorem test_wf_numerals : Instr.wf (.registerRead 0xFFFFFFC) = true ∧ Instr.wf (.sourceEnable .A 0x40 0) = true ∧ Instr.wf (.stageFire .B 1023 []) = true := by decide

/-! ## The spec's worked examples

The expected values are those that the spec's own examples print; each test names its place. -/

/-- R133: physical pane 2 of the leaf disabled gives LEAF_PMAP0 = 0x8483_8180. -/
theorem test_pane_map_skips_disabled : pmapWord { Fuses.shipped .A with pmap := (List.range 64).filter (· != 2), panes := 48 } 0 = 0x84838180 := by
  decide +kernel

/-- Chapter 1: the registers of logical pane 5 of Leaf B start at 0x0505_0000. -/
theorem test_pane_register_address : leafBase .B + 0x1050000 = 0x5050000 ∧ leafOf 0x5050000 = some (.B, 0x1050000) := by decide

/-- Chapter 7: object offset 0x0234_5678 of a striped object at 0x60_4000_0000 lies at 0xE0_4046_5678. -/
theorem test_flash_striping : flashAddr 0x6040000000 0x2345678 true = 0xE040465678 := by decide

def fpE (x q : Int) : Fp := .fin (decide (x < 0)) x.natAbs q

/-- Chapter 5, two MXFP4 blocks: 5.0, −0.3 and 1.25 have scale 0x7F and the bytes 0x96 0x02; 0.124 has scale 0x79 and element 7. -/
theorem test_mxfp4_first_block : let x := (mxBlock 9 ([fpE 5 0, f32v 0xBE99999A, fpE 5 (-2)] ++ List.replicate 29 (fpE 0 0))).1
    x.2 = 0x7F ∧ (packBits 4 x.1).take 3 = [0x96, 0x02, 0] := by decide +kernel
theorem test_mxfp4_second_block : let x := (mxBlock 9 (f32v 0x3DFDF3B6 :: List.replicate 31 (fpE 0 0))).1
    x.2 = 0x79 ∧ x.1.headD 0 = 7 := by decide +kernel

/-- Chapter 5: 1.0, 2^24 and −2^24 sum to +0 in locked mode, and to 1.0 when the last two arrive first in fast mode. -/
theorem test_split_sum_locked : (combine true 0 (vAdd false) [fpE 1 0, fpE 16777216 0, fpE (-16777216) 0]).1.map f32b = [0] := by decide +kernel
theorem test_split_sum_fast : (combine false 5 (vAdd false) [fpE 1 0, fpE 16777216 0, fpE (-16777216) 0]).1.map f32b = [0x3F800000] := by
  decide +kernel

/-- Chapter 6, the sigmoid-gated unit: word 0x1508_8400 is T0 = T0 × K0 + K0. -/
theorem test_micro_op_word : microOp 0x15088400 = ⟨5, 8, 8, 16, 16⟩ ∧ microOp 0x11008000 = ⟨4, 8, 0, 16, 0⟩ := by decide

/-- Chapter 9: the stored a1 of the 500 Hz section is −7,807,110. -/
theorem test_filter_coefficient : coef 0xFF88DF7A = -7807110 ∧ coef 0x0037B414 = 3650580 := by decide

/-- Template 0 of Leaf A as in the lidar example of chapter 8. -/
def wLid : Leaf :=
  let x (i : Nat) (l : Leaf) : Leaf := ((((((l.putB (Fld.SNS_LID_F_PRESENT 0 i) true).put (Fld.SNS_LID_F_WIDTH 0 i) 3).put (Fld.SNS_LID_F_OFS 0 i) (4 * i)).putB
    (Fld.SNS_LID_F_SIGNED 0 i) true).putB (Fld.SNS_LID_F_BE 0 i) true).wr (Reg.SNS_LID_SCALE 0 i) 0x3A83126F)
  let y (i o : Nat) (l : Leaf) : Leaf := (l.putB (Fld.SNS_LID_F_PRESENT 0 i) true).put (Fld.SNS_LID_F_OFS 0 i) o
  (y 4 13 (y 3 12 (x 2 (x 1 (x 0 base.leafA))))).wr (Reg.SNS_LID_PT_STEP 0) 2560

/-- Chapter 8, one lidar point: the record of point 5. -/
theorem test_lidar_record : wLid.lidRecord 0 5 1752034006412350 1752034010000000 (beBytes 16 0x00003039FFFFF4000000073AA5170000)
    = some (beBytes 16 0x613100B6F3FF660700A51700BE73C9FF) := by decide +kernel

/-- Chapter 11, a contested cell: the four claims give 0F 00 06 00 50 18 1B 01, and input 0 is the minority. -/
def wClaims : List Claim := claimsOn [⟨0, true, false, #[0x58]⟩, ⟨1, true, false, #[0x3B]⟩, ⟨2, true, false, #[0x32]⟩, ⟨3, true, false, #[0x49]⟩] 0
theorem test_contested_cell : (decideCell 16 wClaims).bytes 31 = beBytes 8 0x0F00060050181B01 ∧ minoritySide 16 wClaims = [0] := by decide +kernel

/-- Chapter 12: a difference of (0.021, −0.034, 0.002) m is shown as 40,012 µm. -/
theorem test_gate_distance : micro32 (gateOf { px := f64ratio 21 1000, py := f64ratio (-34) 1000, pz := f64ratio 2 1000 } {}).1 = 40012 := by
  decide +kernel

/-- Chapter 14: node and descriptor address of item 1,234,567. -/
theorem test_search_addresses : let x : IxHdr := { at' := 0, c := 8, ch0 := 0, n := 3000000, nodeOfs := 0x10000000, descOfs := 0x400000000, eps := [] }
    x.nodeAddr 1234567 = 0xE011FBA1A0 ∧ x.descAddr 1234567 = 0xE4025AD000 := by decide

/-- Chapter 14: an empty result slot reads FF FF FF FF FF 00 FF FF and eight bytes of 00. -/
theorem test_empty_result_slot : emptySlot = beBytes 16 0xFFFFFFFFFF00FFFF0000000000000000 := by decide

/-- Chapter 15, a rank-deficient block: state 1 is clamped and x = (0.25, 0, 0.5). -/
def mA (i j : Nat) : F64 := f64ofNat (([[4, 2, 2], [2, 1, 1], [2, 1, 5]].getD i []).getD j 0)
theorem test_clamped_pivot : (cholesky 40 3 mA).marks = [1]
    ∧ (cholesky 40 3 mA).solve 3 (fun i => f64ofNat ([2, 1, 3].getD i 0)) = [f64ratio 1 4, 0, f64ratio 1 2] := by decide +kernel

/-- Chapter 19: the completion record of the cut stage. -/
theorem test_completion_record : recordBytes 0x80020052 8 0 0x89 0x00063976BCFEC000 0x00063976BBCD9300 0x5E2107C49A3BD106
    = beBytes 32 0x520002800800008900C0FEBC763906000093CDBB7639060006D13B9AC407215E := by decide +kernel

/-- Chapter 21: the record of route 419 in tick 175,203,800 at 1,752,038,000,003,840 ns. -/
def wFlt : Leaf :=
  let x := base.leafB.put Fld.LEAF_STATUS_STATE 4
  { (x.wr64 Reg.TICK_NUM_LO Reg.TICK_NUM_HI 175203800) with time := { x.time with d0 := { x.time.d0 with originQ16 := 1752038000003840 * 65536, rateQ40 := 0 } } }
theorem test_credit_sum_record : wFlt.faultBytes 1 1 { block := 0x10, addr := 8 + 7 * 2 ^ 32, inst := 0x1A3 }
    = beBytes 32 0xD865710A00000000008B9F2278390600080000000700000001011000A3010000 := by decide +kernel

/-- Table 3.2 of chapter 3 in µJ at OP 7. -/
def pipeE (n : Nat) (es : List Nat) : PipeDesc :=
  { ofs := 0, name := [], num := n, nvar := es.length, rsvd := 0, variants := es.map fun e => { ofs := 0, dur := 1, list := 0, stages := [], rsvd := 0, energy := List.replicate 7 0 ++ [e] } }
def wSel (budget : Nat) : List (Nat × Nat) :=
  let l := ([(0, 12, 2), (1, 15, 1), (2, 10, 1), (3, 2, 2)].foldl (fun (m : Leaf) e => (m.put (Fld.TICK_PIPE_CFG_PRIO e.1) e.2.1).put (Fld.TICK_PIPE_CFG_FLOOR e.1) e.2.2)
    (lf .A)).wr Reg.TICK_BUDGET budget
  let l1 := (l.wr Reg.TICK_PERIOD 10000000).put Fld.TICK_OP_OP 7
  l1.chooseVariants ([pipeE 0 [248000, 196500, 141200, 98000], pipeE 1 [92300, 71800, 40100], pipeE 2 [64700, 38900], pipeE 3 [55000, 21000, 0]].map
    fun p => (p, l1.baseVariant p)) [] false

/-- Chapter 3: a budget of 437,600 µJ gives v0, v0, v0, v1; 287,600 µJ gives v2, v0, v1, v2. -/
theorem test_variants_at_65_W : [0, 1, 2, 3].map (alGet (wSel 437600)) = [some 0, some 0, some 0, some 1] := by decide +kernel
theorem test_variants_at_50_W : [0, 1, 2, 3].map (alGet (wSel 287600)) = [some 2, some 0, some 1, some 2] := by decide +kernel

/-! ## Single steps

One command each, on a small state; the expected values are read from the rule or example named. -/

/-- The state a command leaves. -/
def after (i : Instr) (s : State) : State := match exec i s with | .next t => t | _ => s
/-- A register of Leaf A after a command. -/
def regA (i : Instr) (s : State) (a : Nat) : Nat := (after i s).leafA.rd a
/-- A hinge register after a command. -/
def regH (i : Instr) (s : State) (a : Nat) : Nat := (after i s).hinge.rd a

/-- The table gives no row bits, so no word spells a command. -/
theorem test_no_word_spells_a_command : decodeTableWord 32 0 = none ∧ decodeTableWord 8 1 = none := by decide
theorem test_fetch_word_changes_nothing (s : State) (n w : Nat) : s.withFetchWord n w = s := rfl
theorem test_step_idles_on_empty_queue : (match step base with | .next t => decide (t.leafA.count = 1) && t.pending.isEmpty | _ => false) = true := by
  decide +kernel
theorem test_power_on_takes_everything : (after .powerOn wTick).leafA.boot.held = true ∧ regH .powerOn wLocked Reg.HINGE_MODE = 0 := by decide +kernel
theorem test_reset_tick_period : (State.reset.leafA).rd Reg.TICK_PERIOD = 10000000 ∧ State.reset.leafA.rd (Reg.IRQ_MASK 3) = 0xFFFFFFFF := by decide +kernel

/-- R24: the first write sets MODE and LOCKED, a later one with bit 1 = 0 sets LATE_WR. -/
theorem test_mode_write_locks : regH (.hingeModeWrite 1) base Reg.HINGE_MODE = 0x80000001 := by decide +kernel
theorem test_late_mode_write : regH (.hingeModeWrite 1) wLocked Reg.HINGE_MODE = 0x80000002 := by decide +kernel
/-- R20: a leaf reset leaves the other leaf alone and shows cause 1. -/
theorem test_reset_one_leaf : (after (.rstB 2) wTick).leafA.ticking = true ∧ (after (.rstB 2) wTick).leafB.boot.held = false
    ∧ (after (.rstB 2) wTick).hinge.up .B = false ∧ (after (.rstB 2) wTick).hinge.get Fld.HINGE_LEAF_STAT_LAST_RST_B = 1 := by decide +kernel
theorem test_register_write_then_shown : regA (.registerWrite Reg.TICK_PERIOD 5000000) base Reg.TICK_PERIOD = 5000000 := by decide +kernel
theorem test_register_read_of_period : (after (.registerRead Reg.TICK_PERIOD) base).hinge.completion.data = leBytes 4 10000000 := by decide +kernel

/-- Chapter 1, a digest mismatch: CAUSE 0x01, ACTIVE and FAULT give HINGE_AGREE_STAT = 0x0001_0003 (SINGLE is not of the example). -/
theorem test_digest_mismatch : regH (.digestToHinge .A) (wAgree2.onHinge fun h => h.putB Fld.HINGE_AGREE_STAT_SINGLE false) Reg.HINGE_AGREE_STAT
    = 0x00010003 ∧ regH (.digestToHinge .A) wAgree2 Reg.HINGE_AGREE_CNT = 1 := by decide +kernel

/-- Chapter 2, an asymmetric re-route: D1 reads 1,184.5 ns behind, so TIME_BRIDGE_LO = 0x04A0_8000 and FOLLOW = 1. -/
def wRoute : State := wVt.onLeaf .A fun x =>
  { x with time := { x.time with d0 := { x.time.d0 with originQ16 := 10 ^ 9 * 65536 + 1184 * 65536 + 32768 }, d1 := { x.time.d1 with originQ16 := 10 ^ 9 * 65536 } } }
theorem test_domain_switch_bridge : (after (.vtAutoSwitch .A 0) wRoute).leafA.bridgeReg = 0x04A08000
    ∧ (after (.vtAutoSwitch .A 0) wRoute).leafA.follow = 1 := by decide +kernel

/-- Chapter 6, sizing credits: a returned credit is one more to send with. -/
theorem test_credit_return : let r := (after (.creditReturn .A 0 []) wTok).leafA.route 0
    (r.credits, r.back, r.waiting.length, r.flight.length) = (1, 0, 0, 2) := by decide +kernel
/-- Chapter 6: a token in flight becomes available to its consumer, unchanged. -/
theorem test_token_arrives : ((after (.tokenArrival .A 1 []) wTok).leafA.route 1).buf = [tokT] := by decide +kernel
/-- R90: HALT of a leaf that is not TICKING is refused. -/
theorem test_halt_refused : (after (.halt .A 0) (wGlz 3)).leafA.bit Fld.TICK_STAT_CMD_REFUSED = true := by decide +kernel
/-- R129: LOAD with a load in progress is refused; UPDATE in IDLE ends INVALID. -/
theorem test_load_refused_when_busy : (after (.load .A 0) wGlzBusy).leafA.bit Fld.LEAF_GLZ_STAT_CMD_REFUSED = true := by decide +kernel
theorem test_update_in_idle_invalid : (after (.update .A 0) (wGlz 2)).leafA.get Fld.LEAF_GLZ_STAT_STATUS = 0x0B := by decide +kernel
/-- R125: PROG1 without the key word is refused. -/
theorem test_prog1_needs_key : (after (.prog1 .A 0) wKeyN).leafA.bit Fld.LEAF_GLZ_KCTL_KEY_REFUSED = true := by decide +kernel
/-- R204: a codeword that no read level and no mirror gives poisons its object. -/
theorem test_flash_failure_poisons : (after (.flashReadDone .A (2 ^ 30) ⟨none, none⟩) wMem).leafA.poisoned 1 = true := by decide +kernel
/-- Chapter 8: the end of the recovery puts the controller back on the bus. -/
theorem test_can_recovers : (after (.canBusRecovery .A 1 0) wBus).leafA.sns.busOff.getD 1 true = false := by decide +kernel
/-- R242: a byte beyond 64 waiting is lost. -/
theorem test_uart_overflow : (after (.uartTx .A 7) wUartFull).leafA.bit Fld.SNS_UART_TX_TX_OVF = true := by decide +kernel
/-- Chapter 9: CANCEL withdraws the armed reset. -/
theorem test_sync_cancel : (after (.filtSyncCancel .A 0) wFiltLater).leafA.filt.armed = none := by decide +kernel
/-- R298: an engine reset reads RST_BUSY. -/
theorem test_engine_reset : (after (.visionEngineReset .A 2 0) wVis).leafA.bit (Fld.VIS_ENG_STAT_RST_BUSY 1) = true := by decide +kernel
/-- R316: a demotion is cleared by writing 1 to its bit. -/
theorem test_demotion_cleared : regA (.fusDemoteClear .A 0 0x6) (onA fun x => x.wr (Reg.FUS_DEMOTE 0) 0xE) (Reg.FUS_DEMOTE 0) = 0x8 := by decide +kernel
/-- Chapter 14: a merge of a slot that is not attached ends INVALID. -/
theorem test_merge_unattached : (after (.mergeGo .A 0x80000003) base).leafA.get Fld.SRCH_MRG_STAT_STATUS = 0x0B := by decide +kernel

/-- Chapter 18, Table 18.2: a completion of source 1 clears its ACT; one of source 9, not active, counts in IRQ_BAD_EOI; clearing bit 9 of PEND, set
since the last read, counts in IRQ_LOST_SET. -/
def wIrq : State := onA fun x => { ((x.wr (Reg.IRQ_ACT 0) 2).wr (Reg.IRQ_PEND 0) 0x202) with irq := { x.irq with sinceRead := setAt x.irq.sinceRead 0 0x200 } }
theorem test_completion : regA (.irqEoi .A 1) wIrq (Reg.IRQ_ACT 0) = 0 := by decide +kernel
theorem test_bad_completion : regA (.irqEoi .A 9) wIrq Reg.IRQ_BAD_EOI = 1 := by decide +kernel
theorem test_lost_set : regA (.irqPendWrite .A 0 0) wIrq Reg.IRQ_LOST_SET = 1 := by decide +kernel
/-- R483: a snapshot on demand increments the epoch. -/
theorem test_snapshot_epoch : regA (.snap .A 0) base Reg.CNT_EPOCH = 1 := by decide +kernel
/-- R499: a doorbell beyond the ring is an error. -/
theorem test_doorbell_error : (after (.sqDoorbell .A 1 16) wQueue).leafA.bit (Fld.LEAF_Q_STAT_DB_ERR 1) = true
    ∧ (after (.sqDoorbell .A 1 15) wQueue).leafA.get (Fld.LEAF_Q_SQDB_TAIL 1) = 15 := by decide +kernel
/-- R526: CLEAR ends a FAULT by BOUND_LATE. -/
theorem test_fault_clear : (after (.faultClear .A 0) wFault).leafA.bit Fld.FLT_STAT_STOP = false := by decide +kernel
/-- R537: injection needs the key word just before. -/
theorem test_injection_needs_key : (after (.injectLinkCrc .A 0) wInj0).leafA.bit Fld.FLT_STAT_INJ_REFUSED = true := by decide +kernel
/-- R521: a firmware image above 32 MiB ends INVALID. -/
theorem test_fwu_too_long : (after (.fwuGo .A 0) (wPhase 2)).leafA.get Fld.LEAF_FWU_STAT_STATUS = 0x0B := by decide +kernel
/-- R466: a wake request of a sleeping leaf begins its wake. -/
theorem test_wake_request : (after (.wake .A 0) wSleep).leafA.pwr.waking = true := by decide +kernel
/-- A command whose operands are out of range has no effect of its own. -/
theorem test_ill_formed_ignored : (after (.projectionJob .A 9) wPj).leafA.fus = wPj.leafA.fus := by decide +kernel

/-! ## Premises of the statements on isolation, conservation and the tick's registers -/

theorem meets_OneLeafIsTouched : commandLeaf (.cap .A) = some .A ∧ commandReachesHinge (.cap .A) = false ∧ wTick.ready .A = true
    ∧ goesOnB (exec (.cap .A) wTick) = true ∧ wTick.hinge.mirror = false ∧ goesOnB (exec (.tickBoundary .A 0) wTick) = true := by decide +kernel

theorem meets_EveryStepKeepsMemoryCanonical : goesOnB (step wTick) = true ∧ wTick.memWf :=
  ⟨by decide +kernel, ⟨by decide +kernel, by decide +kernel⟩, ⟨by decide +kernel, by decide +kernel⟩⟩

/-- A leaf in TICKING with tokens and credits of a route in every place. -/
def wCons : State := gl 4 fun x => { x with fab := { x.fab with routes := [{ credits := 0, back := 1, waiting := [tokT], flight := [tokT] }, { credits := 1, buf := [tokT] }, { credits := 2 }] } }

theorem wCons_routes : ∀ r < 3, (wCons.leafA.routeDesc r).all (fun d => (wCons.leafA.route r).total == d.credits) = true := by decide +kernel

theorem wCons_count : (wCons.leafA.glz.image.map fun im => im.routes.length) = some 3 := by decide +kernel

theorem wCons_routeDesc (r : Nat) (h : 3 ≤ r) : wCons.leafA.routeDesc r = none := by
  obtain ⟨im, hi, hl⟩ := Option.map_eq_some_iff.mp wCons_count
  simp [Leaf.routeDesc, hi, List.getElem?_eq_none (by omega : im.routes.length ≤ r)]

theorem meets_EveryStepConservesCredits : goesOnB (step wCons) = true ∧ (wCons.leaf .A).conserved := by
  refine ⟨by decide +kernel, fun _ => ⟨fun r d h => ?_, fun e he => ?_⟩⟩
  · change wCons.leafA.routeDesc r = some d at h
    change (wCons.leafA.route r).total = d.credits
    by_cases hr : r < 3
    · have := wCons_routes r hr
      rw [h] at this
      simpa using this
    · rw [wCons_routeDesc r (by omega)] at h
      cases h
  · have : (wCons.leaf .A).fab.runs ++ (wCons.leaf .A).fab.blinds = [] := by decide +kernel
    rw [this] at he
    cases he

theorem meets_CaptureLatches : wTick.ready .A = true ∧ base.ready .B = true := by decide +kernel

/-- A GLAZED leaf whose TICK_PERIOD is one below the least that R82 allows. -/
def wBadPeriod : State := { wStart1 with leafA := wStart1.leafA.wr Reg.TICK_PERIOD 4999999 }

/-- A leaf that holds a START, for the mode or for the mode and then the barrier. -/
def wHeld (b : Bool) : State := { wStart0 with leafA := wStart0.leafA.setTick { wStart0.leafA.tick with held := true, heldBarrier := b } }

theorem meets_PeriodAndConfigWrites : wTick.ready .A = true ∧ wTick.leafA.ticking = true ∧ wStart1.ready .A = true ∧ wStart1.leafA.ticking = false
    ∧ bitOf (0x80000000#32).toNat 30 = false ∧ wBadPeriod.ready .A = true ∧ wBadPeriod.leafA.state = 3
    ∧ wBadPeriod.leafA.bit Fld.TICK_STAT_START_PEND = false ∧ wBadPeriod.leafA.bit Fld.TICK_STAT_BARRIER_WAIT = false
    ∧ wBadPeriod.leafA.tick.held = false ∧ ¬ 5000000 ≤ wBadPeriod.leafA.rd Reg.TICK_PERIOD := by decide +kernel

theorem meets_StartHeldUntilModeLocks :
    wStart0.ready .A = true ∧ wStart0.leafA.state = 3 ∧ wStart0.leafA.bit Fld.LEAF_GLZ_STAT_BUSY = false
    ∧ wStart0.leafA.bit Fld.TICK_STAT_START_PEND = false ∧ wStart0.leafA.bit Fld.TICK_STAT_BARRIER_WAIT = false
    ∧ wStart0.leafA.tick.held = false ∧ wStart0.leafA.tickCfgOk = true ∧ wStart0.hinge.bit Fld.HINGE_MODE_LOCKED = false
    ∧ (let x := wStart1.leafA.putB Fld.TICK_STAT_START_PEND true
       x.state = 3 ∧ x.bit Fld.LEAF_GLZ_STAT_BUSY = false ∧ x.bit Fld.TICK_STAT_START_PEND = true ∧ x.runs = true)
    ∧ wTick.ready .A = true ∧ wTick.leafA.state ≠ 3 ∧ wTick.leafA.state ≠ 5
    ∧ (∀ b, (wHeld b).hinge.held = false ∧ (wHeld b).hinge.bit Fld.HINGE_MODE_LOCKED = false ∧ (wHeld b).leafA.tick.held = true
        ∧ (wHeld b).leafA.state = 3 ∧ 0 < (wHeld b).leafA.rd Reg.TICK_PERIOD ∧ (wHeld b).leafA.tick.heldBarrier = b) := by decide +kernel

end Sys2Proof.Tests
end

section
/-!
PROOFS. The access types of Table 0.4: what a software write of a field leaves in each bit of its register, and what a
read of a register of one field returns.
-/
namespace Sys2Proof.Machine

/-- A bit of a field, counted from the field's low end. -/
theorem testBit_bitsOf_sub (w : Nat) {hi lo i : Nat} (h : lo ≤ i ∧ i ≤ hi) : (bitsOf w hi lo).testBit (i - lo) = w.testBit i := by
  have hin : i - lo < hi + 1 - lo := by omega
  simp [testBit_bitsOf, hin, Nat.add_sub_cancel' h.1]

/-- The bits of a field complemented within the field's own width. -/
theorem testBit_bitsOf_compl_sub (w : Nat) {hi lo i : Nat} (h : lo ≤ i ∧ i ≤ hi) :
    (2 ^ (hi + 1 - lo) - 1 - bitsOf w hi lo).testBit (i - lo) = !w.testBit i := by
  have hin : i - lo < hi + 1 - lo := by omega
  rw [Nat.sub_sub, Nat.add_comm 1, Nat.testBit_two_pow_sub_succ (bitsOf_lt w hi lo), testBit_bitsOf_sub w h]
  simp [hin]

/-- Table 0.4, column "Write effect", bit by bit: what software's write of `w` makes of each bit of a register that holds `v`. -/
theorem RegField.testBit_write (f : RegField) (w v i : Nat) (h : f.lo ≤ f.hi) : (f.write w v).testBit i =
    if f.lo ≤ i ∧ i ≤ f.hi then
      (match f.acc with
        | .RW | .RWH | .WO => w.testBit i
        | .W1C => v.testBit i && !w.testBit i
        | .RO | .WS => v.testBit i)
    else v.testBit i := by
  unfold RegField.write
  by_cases hin : f.lo ≤ i ∧ i ≤ f.hi
  · cases f.acc with
    | RW | RWH | WO => simp [testBit_setBits _ _ _ _ _ h, hin, testBit_bitsOf_sub w hin]
    | W1C => simp [testBit_setBits _ _ _ _ _ h, hin, testBit_bitsOf_sub v hin, testBit_bitsOf_compl_sub w hin]
    | RO | WS => simp
  · cases f.acc with
    | RW | RWH | WO | W1C => simp [testBit_setBits _ _ _ _ _ h, hin]
    | RO | WS => simp

/-- Table 0.4, column "Read returns", for a register of one field. -/
theorem RegRow.read_singleton (r : RegRow) (f : RegField) (v : Nat) (h : r.fields = [f]) :
    r.read v = if f.acc = .WO ∨ f.acc = .WS then 0 else bitsOf v f.hi f.lo * 2 ^ f.lo := by
  rw [RegRow.read, h]
  cases hacc : f.acc with
  | WO | WS => simp [hacc]
  | RW | RO | W1C | RWH => simp [hacc, Nat.shiftLeft_eq]

/-- Settles O14: the two columns of Table 0.4. -/
theorem accessTypes : Obligations.AccessTypes :=
  ⟨RegField.testBit_write, RegRow.read_singleton⟩

end Sys2Proof.Machine
end

section
/-!
PROOFS. The mode and the UP bits of the hinge: what each operation of the hinge leaves of a locked mode (R24) and of a leaf that is
not up (R20).
-/
namespace Sys2Proof.Machine

variable {h k j : Hinge}

/-! ## Fields of the hinge -/

theorem Hinge.get_congr {f : FieldRef} (e : k.rd f.addr = h.rd f.addr) : k.get f = h.get f := by unfold Hinge.get; rw [e]

theorem Hinge.bit_congr {f : FieldRef} (e : k.rd f.addr = h.rd f.addr) : k.bit f = h.bit f := by
  unfold Hinge.bit; rw [Hinge.get_congr e]

theorem Hinge.up_congr (e : k.rd Reg.HINGE_LEAF_STAT = h.rd Reg.HINGE_LEAF_STAT) (i : LeafId) : k.up i = h.up i := by
  cases i <;> exact Hinge.bit_congr e

/-- A one-bit field of the hinge after it was set from a truth value. -/
theorem Hinge.bit_putB_same (h : Hinge) (f : FieldRef) (b : Bool) (hl : f.lo ≤ f.hi) (h32 : f.hi < 32) : (h.putB f b).bit f = b := by
  have hb : b2n b < 2 ^ (f.hi + 1 - f.lo) :=
    lt_of_lt_of_le (show b2n b < 2 ^ 1 by cases b <;> decide) (Nat.pow_le_pow_right (by omega) (by omega))
  unfold Hinge.bit Hinge.putB
  rw [Hinge.get_put_same h f _ hl h32, Nat.mod_eq_of_lt hb]
  cases b <;> rfl

/-- Writing back what a register holds changes no register. -/
theorem Hinge.rd_wr_self (h : Hinge) (a b : Nat) : (h.wr a (h.rd a)).rd b = h.rd b := by
  by_cases e : a = b
  · subst e; rw [Hinge.rd_wr_same, Nat.mod_eq_of_lt (Hinge.rd_lt h a)]
  · exact Hinge.rd_wr_other _ _ e

/-! ## The relation -/

/-- k keeps what h has fixed: the mode of a locked h, and that a leaf is not up. -/
structure Hinge.Guarded (h k : Hinge) : Prop where
  mode : h.bit Fld.HINGE_MODE_LOCKED = true →
    k.bit Fld.HINGE_MODE_LOCKED = true ∧ k.bit Fld.HINGE_MODE_MODE = h.bit Fld.HINGE_MODE_MODE
  up : ∀ i, h.up i = false → k.up i = false

namespace Hinge.Guarded

theorem of_rd (hm : k.rd Reg.HINGE_MODE = h.rd Reg.HINGE_MODE) (hs : k.rd Reg.HINGE_LEAF_STAT = h.rd Reg.HINGE_LEAF_STAT) :
    h.Guarded k :=
  ⟨fun e => ⟨(bit_congr (f := Fld.HINGE_MODE_LOCKED) hm).trans e, bit_congr hm⟩, fun i e => (up_congr hs i).trans e⟩

theorem refl (h : Hinge) : h.Guarded h := of_rd rfl rfl

theorem trans (g1 : h.Guarded k) (g2 : k.Guarded j) : h.Guarded j :=
  ⟨fun e => ⟨(g2.mode (g1.mode e).1).1, (g2.mode (g1.mode e).1).2.trans (g1.mode e).2⟩, fun i e => g2.up i (g1.up i e)⟩

/-- A write of a register other than HINGE_MODE and HINGE_LEAF_STAT. -/
theorem wr (g : h.Guarded k) (a v : Nat) (hm : a ≠ Reg.HINGE_MODE := by decide) (hs : a ≠ Reg.HINGE_LEAF_STAT := by decide) :
    h.Guarded (k.wr a v) :=
  g.trans (of_rd (rd_wr_other _ _ hm) (rd_wr_other _ _ hs))

theorem put (g : h.Guarded k) (f : FieldRef) (v : Nat) (hm : f.addr ≠ Reg.HINGE_MODE := by decide)
    (hs : f.addr ≠ Reg.HINGE_LEAF_STAT := by decide) : h.Guarded (k.put f v) := g.wr _ _ hm hs

theorem putB (g : h.Guarded k) (f : FieldRef) (b : Bool) (hm : f.addr ≠ Reg.HINGE_MODE := by decide)
    (hs : f.addr ≠ Reg.HINGE_LEAF_STAT := by decide) : h.Guarded (k.putB f b) := g.wr _ _ hm hs

/-- An update that touches no register. -/
theorem regs (g : h.Guarded k) (e : j.regs = k.regs) : h.Guarded j :=
  g.trans (of_rd (by unfold rd; rw [e]) (by unfold rd; rw [e]))

end Hinge.Guarded

/-- Settling keeps both. -/
theorem Hinge.Kept.guarded (e : h.Kept k) : h.Guarded k := .of_rd (e.rd _ fun _ => rfl) (e.rd _ fun _ => rfl)

/-! ## Operations of the hinge -/

/-- A write of a register whose fields are all read-only changes nothing. -/
theorem RegRow.write_of_readOnly (r : RegRow) (hr : ∀ f ∈ r.fields, f.acc = .RO) (w v : Nat) : r.write w v = v := by
  unfold RegRow.write
  generalize r.fields = fs at hr
  induction fs with
  | nil => rfl
  | cons f t ih =>
    have hf : f.write w v = v := by unfold RegField.write; rw [hr f (by simp)]
    rw [List.foldl_cons, hf]; exact ih fun g hg => hr g (by simp [hg])

/-- HINGE_LEAF_STAT is a register of read-only fields (Table 1.1). -/
theorem regAt_leafStat : ∃ e, regAt Reg.HINGE_LEAF_STAT = some e ∧ ∀ f ∈ e.1.fields, f.acc = .RO :=
  ⟨_, rfl, by decide⟩

/-- The general software write of a hinge register reaches neither the mode nor UP, but through HINGE_MODE itself. -/
theorem Hinge.guarded_swWrite (h : Hinge) (a w : Nat) (ha : a ≠ Reg.HINGE_MODE) : h.Guarded (h.swWrite a w) := by
  by_cases hs : a = Reg.HINGE_LEAF_STAT
  · obtain ⟨⟨r, n⟩, hr, hro⟩ := regAt_leafStat
    unfold Hinge.swWrite
    rw [hs, hr]
    dsimp only
    rw [RegRow.write_of_readOnly r hro]
    exact .of_rd (Hinge.rd_wr_self ..) (Hinge.rd_wr_self ..)
  · unfold Hinge.swWrite
    split
    · exact .refl h
    · exact Hinge.Guarded.wr (.refl h) _ _ ha hs

theorem Hinge.guarded_message (h : Hinge) (fn vec : Nat) : h.Guarded (h.message fn vec) := (Hinge.kept_message h fn vec).guarded

theorem Hinge.guarded_violation (h : Hinge) (addr cause fn : Nat) (write : Bool) (win : Nat) :
    h.Guarded (h.violation addr cause fn write win) := by
  unfold Hinge.violation
  dsimp only
  have hc : h.Guarded (h.inc Fld.HINGE_VIOL_CNT_COUNT) := Hinge.Guarded.put (.refl h) _ _
  split
  · exact hc
  · exact Hinge.Guarded.trans (Hinge.Guarded.putB (Hinge.Guarded.put (Hinge.Guarded.putB (Hinge.Guarded.put (Hinge.Guarded.put
      (Hinge.Guarded.put (Hinge.Guarded.wr (Hinge.Guarded.wr hc _ _) _ _) _ _) _ _) _ _) _ _) _ _) _ _) (Hinge.guarded_message ..)

theorem Hinge.guarded_countDrop (h : Hinge) (i : LeafId) : h.Guarded (h.countDrop i) := by
  cases i <;> exact Hinge.Guarded.put (.refl h) _ _

theorem Hinge.guarded_foldl {α : Type} (f : Hinge → α → Hinge) (xs : List α) (h : Hinge)
    (hf : ∀ x ∈ xs, ∀ k : Hinge, k.Guarded (f k x)) : h.Guarded (xs.foldl f h) := by
  induction xs generalizing h with
  | nil => exact .refl h
  | cons x t ih => exact (hf x (by simp) h).trans (ih (f h x) fun y hy => hf y (by simp [hy]))

theorem Hinge.guarded_release (h : Hinge) : h.Guarded h.release := by
  unfold Hinge.release
  split
  · refine Hinge.Guarded.trans (Hinge.Guarded.trans (k := { h with heldMsgs := h.heldMsgs.filter fun m => !(h.fn m.1).canSend m.2 })
      (.of_rd rfl rfl) ?_) (Hinge.kept_showHeld _).guarded
    exact Hinge.guarded_foldl _ _ _ fun m _ k => (Hinge.kept_sendNow k m.1 m.2).guarded
  · exact .refl h

theorem Hinge.guarded_showFn (h : Hinge) : h.Guarded h.showFn := Hinge.Guarded.put (Hinge.Guarded.put (.refl h) _ _) _ _

theorem Hinge.regs_setFn (h : Hinge) (fn : Nat) (f : FnState) : (h.setFn fn f).regs = h.regs := by unfold Hinge.setFn; split <;> rfl

theorem Hinge.regs_configSide (h : Hinge) (fn : Nat) (op : PcieCfg) : (h.configSide fn op).regs = h.regs := by
  unfold Hinge.configSide
  split
  · split <;> rfl
  · split <;> rfl
  · rfl

theorem Hinge.guarded_configWrite (h : Hinge) (fn : Nat) (op : PcieCfg) : h.Guarded (h.configWrite fn op) := by
  unfold Hinge.configWrite
  split
  · exact .refl h
  · have h1 : h.Guarded ((h.setFn fn ((h.fn fn).config op)).configSide fn op) :=
      Hinge.Guarded.regs (.refl h) ((Hinge.regs_configSide ..).trans (Hinge.regs_setFn ..))
    exact (h1.trans (Hinge.guarded_showFn _)).trans (Hinge.guarded_release _)

theorem Hinge.guarded_flr (h : Hinge) (fn : Nat) : h.Guarded (h.flr fn) := by
  unfold Hinge.flr
  split
  · exact .refl h
  · have h1 : h.Guarded (h.setFn fn {}).showFn :=
      (Hinge.Guarded.regs (.refl h) (Hinge.regs_setFn ..)).trans (Hinge.guarded_showFn _)
    dsimp only
    split
    · exact h1.regs rfl
    · exact h1

theorem Hinge.guarded_perstAssert (h : Hinge) : h.Guarded h.perstAssert := by
  refine Hinge.Guarded.trans (Hinge.Guarded.put (Hinge.Guarded.put (Hinge.Guarded.put (?_ : h.Guarded { h with
    fn0 := {}, fn1 := {}, perst := true, apLog2 := 30, rid0 := 0, rid1 := 1 }) _ _) _ _) _ _) (Hinge.guarded_showFn _)
  exact .of_rd rfl rfl

theorem Hinge.regs_markPme (h : Hinge) : h.markPme.regs = h.regs := rfl

theorem Hinge.guarded_linkChange (h : Hinge) (speed width lstate : Nat) : h.Guarded (h.linkChange speed width lstate) := by
  unfold Hinge.linkChange
  split
  · exact .refl h
  · have h1 : h.Guarded (((h.put Fld.HINGE_PCIE_LINK_SPEED speed).put Fld.HINGE_PCIE_LINK_WIDTH width).put
        Fld.HINGE_PCIE_LINK_LSTATE lstate) :=
      Hinge.Guarded.put (Hinge.Guarded.put (Hinge.Guarded.put (.refl h) _ _) _ _) _ _
    generalize ((h.put Fld.HINGE_PCIE_LINK_SPEED speed).put Fld.HINGE_PCIE_LINK_WIDTH width).put Fld.HINGE_PCIE_LINK_LSTATE lstate = k at h1
    dsimp only
    split
    · exact (h1.regs (Hinge.regs_markPme { k with wakeN := false })).trans (Hinge.guarded_release _)
    · exact h1.trans (Hinge.guarded_release _)

theorem Hinge.guarded_groupPump (h : Hinge) (g now : Nat) : h.Guarded (h.groupPump g now) := by
  have hm : (Fld.HINGE_PCIE_CQG_STAT_ACC g).addr ≠ Reg.HINGE_MODE := by show 0x8300204 + 0x8 * g ≠ 0x8000004; omega
  have hs : (Fld.HINGE_PCIE_CQG_STAT_ACC g).addr ≠ Reg.HINGE_LEAF_STAT := by show 0x8300204 + 0x8 * g ≠ 0x800000C; omega
  unfold Hinge.groupPump Hinge.groupSend
  split
  · have h1 : h.Guarded (({ h with cqFirst := alDel g h.cqFirst }).put (Fld.HINGE_PCIE_CQG_STAT_ACC g) 0) :=
      Hinge.Guarded.put (h := h) (k := { h with cqFirst := alDel g h.cqFirst }) (.of_rd rfl rfl) _ _ hm hs
    dsimp only
    split
    · exact h1.trans (Hinge.guarded_message ..)
    · exact h1.trans (Hinge.guarded_message ..)
  · exact .refl h

/-! ## The agreement checker's registers -/

/-- An agreement fault is logged in the checker's own registers, 0x81 of the register view (R38). -/
theorem Hinge.rd_logAgree (h : Hinge) (i : AgreeInfo) (a : Nat) (ha : a / 2 ^ 20 ≠ 0x81) : (h.logAgree i).rd a = h.rd a := by
  have hne : ∀ b, b / 2 ^ 20 = 0x81 → b ≠ a := fun b hb e => ha (e ▸ hb)
  unfold Hinge.logAgree
  dsimp only
  have hc : (h.inc Fld.HINGE_AGREE_CNT_COUNT).rd a = h.rd a := Hinge.rd_wr_other _ _ (hne _ (by decide))
  split
  · exact hc
  · rw [Hinge.rd_wr_other _ _ (hne _ (by decide)), Hinge.rd_wr_other _ _ (hne _ (by decide)), Hinge.rd_wr_other _ _ (hne _ (by decide)),
      Hinge.rd_wr_other _ _ (hne _ (by decide)), Hinge.rd_wr_other _ _ (hne _ (by decide)), Hinge.rd_wr_other _ _ (hne _ (by decide)),
      Hinge.rd_wr_other _ _ (hne _ (by decide))]
    exact (Hinge.rd_wr_other _ _ (hne _ (by decide))).trans ((Hinge.rd_wr_other _ _ (hne _ (by decide))).trans hc)

/-- Logging a fault leaves ACTIVE alone. -/
theorem Hinge.active_logAgree (h : Hinge) (i : AgreeInfo) : (h.logAgree i).active = h.active := by
  have hd (k : Hinge) (v : Nat) : (k.put Fld.HINGE_AGREE_STAT_CAUSE v).get Fld.HINGE_AGREE_STAT_ACTIVE = k.get Fld.HINGE_AGREE_STAT_ACTIVE :=
    Hinge.get_put_disjoint _ _ _ _ rfl (by decide) (by decide) (by decide)
  have hf (k : Hinge) (b : Bool) : (k.putB Fld.HINGE_AGREE_STAT_FAULT b).get Fld.HINGE_AGREE_STAT_ACTIVE = k.get Fld.HINGE_AGREE_STAT_ACTIVE :=
    Hinge.get_put_disjoint _ _ _ _ rfl (by decide) (by decide) (by decide)
  have hw (k : Hinge) (a v : Nat) (ha : a ≠ Reg.HINGE_AGREE_STAT) : (k.wr a v).get Fld.HINGE_AGREE_STAT_ACTIVE = k.get Fld.HINGE_AGREE_STAT_ACTIVE :=
    Hinge.get_congr (Hinge.rd_wr_other _ _ ha)
  have hc : (h.inc Fld.HINGE_AGREE_CNT_COUNT).get Fld.HINGE_AGREE_STAT_ACTIVE = h.get Fld.HINGE_AGREE_STAT_ACTIVE := hw _ _ _ (by decide)
  unfold Hinge.active Hinge.bit Hinge.logAgree
  dsimp only
  split
  · rw [hc]
  · rw [hw _ _ _ (by decide), hw _ _ _ (by decide), hw _ _ _ (by decide), hw _ _ _ (by decide), hw _ _ _ (by decide), hw _ _ _ (by decide),
      hw _ _ _ (by decide), hf, hd, hc]

/-- An agreement fault leaves every register of the hinge's control block alone. -/
theorem State.rd_agreeFault (s : State) (i : AgreeInfo) (a : Nat) (ha : a / 2 ^ 20 = 0x80) :
    (s.agreeFault i).hinge.rd a = s.hinge.rd a := by
  have hm := Hinge.kept_message (s.hinge.logAgree i) 0 128
  have hset : ∀ x, hingeSettles a x = false := fun x => by
    rw [hingeSettles_def, if_neg (by omega)]
    simp [show a ≠ 0x8300024 by omega, show a ≠ 0x8300028 by omega, show ¬ 0x8300200 ≤ a by omega]
  exact (hm.rd a hset).trans (Hinge.rd_logAgree _ _ _ (by omega))

theorem State.active_agreeFault (s : State) (i : AgreeInfo) : (s.agreeFault i).hinge.active = s.hinge.active := by
  have hm := Hinge.kept_message (s.hinge.logAgree i) 0 128
  exact (Hinge.bit_congr (hm.rd Reg.HINGE_AGREE_STAT fun _ => rfl)).trans (Hinge.active_logAgree _ _)

theorem State.guarded_agreeFault (s : State) (i : AgreeInfo) : s.hinge.Guarded (s.agreeFault i).hinge :=
  .of_rd (State.rd_agreeFault s i _ (by decide)) (State.rd_agreeFault s i _ (by decide))

end Sys2Proof.Machine
end

section
/-!
PROOFS. Resets: what a reset of one leaf writes to the hinge and makes of the leaf (R19, R20, R23, R35, R513), and the registers of
the hinge right after a hinge reset (R509).
-/
namespace Sys2Proof.Machine

variable {s : State} {i : LeafId} {l m n : Leaf}

/-! ## The hinge's registers of a leaf reset -/

theorem LeafId.eq_or_other (i j : LeafId) : j = i ∨ j = i.other := by cases i <;> cases j <;> decide

/-- LAST_RST of a leaf (Table 1.15). -/
def Hinge.lastRst (h : Hinge) : LeafId → Nat
  | .A => h.get Fld.HINGE_LEAF_STAT_LAST_RST_A
  | .B => h.get Fld.HINGE_LEAF_STAT_LAST_RST_B

theorem Hinge.lastRst_congr {h k : Hinge} (e : k.rd Reg.HINGE_LEAF_STAT = h.rd Reg.HINGE_LEAF_STAT) (i : LeafId) :
    k.lastRst i = h.lastRst i := by
  cases i <;> exact Hinge.get_congr e

/-- The hinge with the marks of a reset of leaf i by cause c, before the checker is told: what State.leafReset writes. -/
def Hinge.resetMarks (h : Hinge) (i : LeafId) (c : Nat) : Hinge := ((h.setUp i false).setLastRst i c).resetBoot i 1

theorem Hinge.rd_setUp (h : Hinge) (i : LeafId) (b : Bool) {a : Nat} (ha : Reg.HINGE_LEAF_STAT ≠ a) : (h.setUp i b).rd a = h.rd a := by
  cases i <;> exact Hinge.rd_wr_other _ _ ha

theorem Hinge.rd_setLastRst (h : Hinge) (i : LeafId) (c : Nat) {a : Nat} (ha : Reg.HINGE_LEAF_STAT ≠ a) :
    (h.setLastRst i c).rd a = h.rd a := by
  cases i <;> exact Hinge.rd_wr_other _ _ ha

theorem Hinge.rd_resetBoot (h : Hinge) (i : LeafId) (p : Nat) {a : Nat} (hs : Reg.HINGE_BOOT_STAT (bootIx i) ≠ a)
    (ht : Reg.HINGE_BOOT_TIME (bootIx i) ≠ a) : (h.resetBoot i p).rd a = h.rd a :=
  (Hinge.rd_wr_other _ _ hs).trans ((Hinge.rd_wr_other _ _ ht).trans (Hinge.rd_wr_other _ _ hs))

theorem Hinge.rd_resetBoot_leafStat (h : Hinge) (i : LeafId) (p : Nat) :
    (h.resetBoot i p).rd Reg.HINGE_LEAF_STAT = h.rd Reg.HINGE_LEAF_STAT := by
  cases i <;> exact Hinge.rd_resetBoot _ _ _ (by decide) (by decide)

@[simp] theorem Hinge.up_setUp_same (h : Hinge) (i : LeafId) (b : Bool) : (h.setUp i b).up i = b := by
  cases i <;> exact Hinge.bit_putB_same _ _ _ (by decide) (by decide)

@[simp] theorem Hinge.up_setUp_other (h : Hinge) (i : LeafId) (b : Bool) : (h.setUp i b).up i.other = h.up i.other := by
  cases i <;> exact congrArg (· != 0) (Hinge.get_put_disjoint _ _ _ _ rfl (by decide) (by decide) (by decide))

@[simp] theorem Hinge.up_setLastRst (h : Hinge) (i j : LeafId) (c : Nat) : (h.setLastRst i c).up j = h.up j := by
  cases i <;> cases j <;> exact congrArg (· != 0) (Hinge.get_put_disjoint _ _ _ _ rfl (by decide) (by decide) (by decide))

@[simp] theorem Hinge.lastRst_setLastRst_same (h : Hinge) (i : LeafId) (c : Nat) : (h.setLastRst i c).lastRst i = c % 16 := by
  cases i <;> exact Hinge.get_put_same _ _ _ (by decide) (by decide)

@[simp] theorem Hinge.lastRst_setLastRst_other (h : Hinge) (i : LeafId) (c : Nat) :
    (h.setLastRst i c).lastRst i.other = h.lastRst i.other := by
  cases i <;> exact Hinge.get_put_disjoint _ _ _ _ rfl (by decide) (by decide) (by decide)

@[simp] theorem Hinge.lastRst_setUp (h : Hinge) (i j : LeafId) (b : Bool) : (h.setUp i b).lastRst j = h.lastRst j := by
  cases i <;> cases j <;> exact Hinge.get_put_disjoint _ _ _ _ rfl (by decide) (by decide) (by decide)

theorem Hinge.up_resetMarks_same (h : Hinge) (i : LeafId) (c : Nat) : (h.resetMarks i c).up i = false := by
  unfold Hinge.resetMarks; rw [Hinge.up_congr (Hinge.rd_resetBoot_leafStat ..)]; simp

theorem Hinge.up_resetMarks_other (h : Hinge) (i : LeafId) (c : Nat) : (h.resetMarks i c).up i.other = h.up i.other := by
  unfold Hinge.resetMarks; rw [Hinge.up_congr (Hinge.rd_resetBoot_leafStat ..)]; simp

theorem Hinge.lastRst_resetMarks_same (h : Hinge) (i : LeafId) (c : Nat) : (h.resetMarks i c).lastRst i = c % 16 := by
  unfold Hinge.resetMarks; rw [Hinge.lastRst_congr (Hinge.rd_resetBoot_leafStat ..)]; simp

theorem Hinge.lastRst_resetMarks_other (h : Hinge) (i : LeafId) (c : Nat) : (h.resetMarks i c).lastRst i.other = h.lastRst i.other := by
  unfold Hinge.resetMarks; rw [Hinge.lastRst_congr (Hinge.rd_resetBoot_leafStat ..)]; simp

theorem Hinge.phase_resetMarks_same (h : Hinge) (i : LeafId) (c : Nat) : (h.resetMarks i c).phase i = 1 :=
  Hinge.get_put_same _ _ _ (by show 28 ≤ 31; decide) (by show 31 < 32; decide)

theorem Hinge.rd_resetMarks (h : Hinge) (i : LeafId) (c : Nat) {a : Nat} (hs : Reg.HINGE_LEAF_STAT ≠ a)
    (hb : Reg.HINGE_BOOT_STAT (bootIx i) ≠ a) (ht : Reg.HINGE_BOOT_TIME (bootIx i) ≠ a) : (h.resetMarks i c).rd a = h.rd a :=
  (Hinge.rd_resetBoot _ _ _ hb ht).trans ((Hinge.rd_setLastRst _ _ _ hs).trans (Hinge.rd_setUp _ _ _ hs))

theorem Hinge.phase_resetMarks_other (h : Hinge) (i : LeafId) (c : Nat) : (h.resetMarks i c).phase i.other = h.phase i.other := by
  cases i <;> exact Hinge.get_congr (Hinge.rd_resetMarks _ _ _ (by decide) (by decide) (by decide))

theorem Hinge.rd_resetMarks_mode (h : Hinge) (i : LeafId) (c : Nat) : (h.resetMarks i c).rd Reg.HINGE_MODE = h.rd Reg.HINGE_MODE := by
  cases i <;> exact Hinge.rd_resetMarks _ _ _ (by decide) (by decide) (by decide)

theorem Hinge.active_resetMarks (h : Hinge) (i : LeafId) (c : Nat) : (h.resetMarks i c).active = h.active := by
  cases i <;> exact Hinge.bit_congr (Hinge.rd_resetMarks _ _ _ (by decide) (by decide) (by decide))

theorem Hinge.guarded_resetMarks (h : Hinge) (i : LeafId) (c : Nat) : h.Guarded (h.resetMarks i c) where
  mode e := ⟨(Hinge.bit_congr (f := Fld.HINGE_MODE_LOCKED) (Hinge.rd_resetMarks_mode ..)).trans e, Hinge.bit_congr (Hinge.rd_resetMarks_mode ..)⟩
  up j e := by
    by_cases hj : j = i
    · rw [hj]; exact Hinge.up_resetMarks_same ..
    · obtain rfl : j = i.other := (LeafId.eq_or_other i j).resolve_left hj
      exact (Hinge.up_resetMarks_other ..).trans e

/-! ## The checker's partner goes down (R35) -/

theorem State.partnerDown_of_inactive (i : LeafId) (s : State) (ha : s.hinge.active = false) : s.partnerDown i = s := by
  unfold State.partnerDown; rw [ha]; rfl

theorem State.rd_partnerDown (i : LeafId) (s : State) (a : Nat) (ha : a / 2 ^ 20 = 0x80) :
    (s.partnerDown i).hinge.rd a = s.hinge.rd a := by
  have hne : Reg.HINGE_AGREE_STAT ≠ a := fun e => by rw [← e] at ha; exact absurd ha (by decide)
  unfold State.partnerDown
  split
  · refine (State.rd_agreeFault _ _ a ha).trans ?_
    exact (Hinge.rd_wr_other _ _ hne).trans (Hinge.rd_wr_other _ _ hne)
  · rfl

/-- After a leaf has gone down nothing is compared. -/
theorem State.active_partnerDown (i : LeafId) (s : State) : (s.partnerDown i).hinge.active = false := by
  unfold State.partnerDown
  split
  · refine (State.active_agreeFault _ _).trans ?_
    exact Hinge.bit_putB_same _ Fld.HINGE_AGREE_STAT_ACTIVE false (by decide) (by decide)
  · rename_i hn; exact Bool.eq_false_iff.mpr hn

/-- The fault PARTNER_DOWN is all that a leaf sees of it. -/
theorem State.leaf_partnerDown (i j : LeafId) (s : State) :
    (s.partnerDown i).leaf j = s.leaf j ∨ ∃ hold info, (s.partnerDown i).leaf j = (s.leaf j).agreeFault hold info := by
  unfold State.partnerDown
  split
  · exact .inr (by cases j <;> exact ⟨_, _, rfl⟩)
  · exact .inl rfl

/-! ## A leaf right after its reset -/

/-- m is l with its reset asserted and released again, as far as the blocks without a part in it go: they hold their reset values, what
outlives a reset is l's. -/
structure Leaf.Restarted (l m : Leaf) : Prop where
  dram : m.dram = []
  tick : m.tick = {}
  fab : m.fab = {}
  mem : m.mem = {}
  count : m.count = 0
  fuses : m.fuses = l.fuses
  flash : m.flash = l.flash
  boot : m.boot = { fw0 := l.boot.fw0, fw1 := l.boot.fw1, held := false }
  toPlace : m.host.toPlace = []

theorem Leaf.Restarted.near (h : l.Restarted m) (hn : m.Near True n) : l.Restarted n :=
  ⟨(hn.dram trivial).trans h.dram, hn.tick.trans h.tick, hn.fab.trans h.fab, hn.mem.trans h.mem, hn.count.trans h.count,
   hn.fuses.trans h.fuses, hn.flash.trans h.flash, hn.boot.trans h.boot, hn.toPlace.trans h.toPlace⟩

theorem Leaf.Restarted.agreeFault (h : l.Restarted m) (hold : Bool) (i : AgreeInfo) : l.Restarted (m.agreeFault hold i) := by
  have h1 : l.Restarted { m with flt := { m.flt with agreeHold := m.flt.agreeHold || hold } } := { h with }
  unfold Leaf.agreeFault
  dsimp only
  split
  · exact h1
  · exact h1.near (Leaf.near_notify _ _ _)

/-- Taking the wake latches changes the latches, registers, the interrupt controller and the counters (R479). -/
theorem Leaf.Restarted.takeLatches (h : l.Restarted m) : l.Restarted m.takeLatches := by
  have step : ∀ k : Leaf, l.Restarted k → ∀ n < 4, l.Restarted (if k.aon.wakeLatch.getD n false && k.irqRuns then
      ({ k with aon := { k.aon with wakeLatch := setAt k.aon.wakeLatch n false } }).raise (0x050 + n) else k) := by
    intro k hk n hn
    split
    · have h1 : l.Restarted { k with aon := { k.aon with wakeLatch := setAt k.aon.wakeLatch n false } } := { hk with }
      exact h1.near (Leaf.irq_raise _ _ (by omega)).near
    · exact hk
  unfold Leaf.takeLatches
  simp only [List.range, List.range.loop, List.foldl]
  exact step _ (step _ (step _ (step _ h 0 (by decide)) 1 (by decide)) 2 (by decide)) 3 (by decide)

theorem Leaf.restarted_release (l : Leaf) (fault : Option (Nat × Nat)) : l.Restarted (l.reset fault).release := by
  refine Leaf.Restarted.takeLatches (m := { l.reset fault with boot := { (l.reset fault).boot with held := false } }) ?_
  exact ⟨rfl, rfl, rfl, rfl, rfl, rfl, rfl, rfl, rfl⟩

/-- Settling leaves a restarted leaf restarted. -/
theorem State.restarted_settle (h : l.Restarted (s.leaf i)) : l.Restarted (s.settle.leaf i) :=
  have k := (settle_kept s).leaf i
  ⟨(k.dram h.toPlace).trans h.dram, k.tick.trans h.tick, k.fab.trans h.fab, k.mem.trans h.mem, k.count.trans h.count,
   k.fuses.trans h.fuses, k.flash.trans h.flash, k.boot.trans h.boot, (settle_drained s i).1⟩

/-! ## A reset of one leaf -/

/-- A reset request for a leaf whose reset is asserted is ignored (R23). -/
theorem State.resetLeaf_of_held (c : Nat) (f : Option (Nat × Nat)) (hb : (s.leaf i).boot.held = true) : s.resetLeaf i c f = s := by
  have e : s.leafReset i c f = s := by unfold State.leafReset; rw [if_pos hb]
  unfold State.resetLeaf
  simp [e]

theorem State.leafReset_of_released (c : Nat) (f : Option (Nat × Nat)) (hb : (s.leaf i).boot.held = false) : s.leafReset i c f
    = ((s.setHinge (s.hinge.resetMarks i c)).setLeaf i ((s.leaf i).reset f).release).partnerDown i := by
  unfold State.leafReset; rw [hb]; rfl

/-- Items that go on with their own stamps concern the leaf alone. -/
theorem State.hinge_resetLeaf (s : State) (i : LeafId) (c : Nat) (f : Option (Nat × Nat)) :
    (s.resetLeaf i c f).hinge = (s.leafReset i c f).hinge := by
  unfold State.resetLeaf; dsimp only; split <;> simp

/-- The control block of the hinge after a leaf reset holds its marks. -/
theorem State.rd_resetLeaf (c : Nat) (f : Option (Nat × Nat)) (hb : (s.leaf i).boot.held = false) (a : Nat) (ha : a / 2 ^ 20 = 0x80) :
    (s.resetLeaf i c f).hinge.rd a = (s.hinge.resetMarks i c).rd a := by
  rw [State.hinge_resetLeaf, State.leafReset_of_released c f hb, State.rd_partnerDown i _ a ha, State.hinge_setLeaf, State.hinge_setHinge]

theorem State.guarded_resetLeaf (s : State) (i : LeafId) (c : Nat) (f : Option (Nat × Nat)) :
    s.hinge.Guarded (s.resetLeaf i c f).hinge := by
  cases hb : (s.leaf i).boot.held with
  | true => rw [State.resetLeaf_of_held c f hb]; exact .refl _
  | false =>
    exact (Hinge.guarded_resetMarks _ i c).trans (.of_rd (State.rd_resetLeaf c f hb _ (by decide)) (State.rd_resetLeaf c f hb _ (by decide)))

/-- The leaf is restarted. -/
theorem State.restarted_resetLeaf (c : Nat) (f : Option (Nat × Nat)) (hb : (s.leaf i).boot.held = false) :
    (s.leaf i).Restarted ((s.resetLeaf i c f).leaf i) := by
  have hr : (s.leaf i).Restarted ((s.leafReset i c f).leaf i) := by
    rw [State.leafReset_of_released c f hb]
    rcases State.leaf_partnerDown i i ((s.setHinge (s.hinge.resetMarks i c)).setLeaf i ((s.leaf i).reset f).release) with e | ⟨x, y, e⟩
    · rw [e, State.leaf_setLeaf_same]; exact Leaf.restarted_release _ _
    · rw [e, State.leaf_setLeaf_same]; exact (Leaf.restarted_release _ _).agreeFault x y
  unfold State.resetLeaf
  dsimp only
  split
  · rw [State.onLeaf, State.leaf_other_setLeaf]; exact hr
  · exact hr

/-- While comparison is not active the other leaf is untouched. -/
theorem State.leaf_other_resetLeaf (i : LeafId) (c : Nat) (f : Option (Nat × Nat)) (ha : s.hinge.active = false) :
    (s.resetLeaf i c f).leaf i.other = s.leaf i.other := by
  have e : s.resetLeaf i c f = s.leafReset i c f := by unfold State.resetLeaf; simp [ha]
  cases hb : (s.leaf i).boot.held with
  | true => rw [State.resetLeaf_of_held c f hb]
  | false =>
    have hm : ((s.setHinge (s.hinge.resetMarks i c)).setLeaf i ((s.leaf i).reset f).release).hinge.active = false :=
      (congrArg Hinge.active (State.hinge_setLeaf ..)).trans ((Hinge.active_resetMarks ..).trans ha)
    rw [e, State.leafReset_of_released c f hb, State.partnerDown_of_inactive i _ hm, State.leaf_setLeaf_other, State.leaf_setHinge]

theorem State.active_resetLeaf (c : Nat) (f : Option (Nat × Nat)) (hb : (s.leaf i).boot.held = false) :
    (s.resetLeaf i c f).hinge.active = false :=
  (congrArg Hinge.active (State.hinge_resetLeaf s i c f)).trans
    ((congrArg (fun x => x.hinge.active) (State.leafReset_of_released c f hb)).trans (State.active_partnerDown _ _))

/-- What a reset of leaf i by cause c shows in the hinge. -/
structure Hinge.ShowsReset (h : Hinge) (i : LeafId) (c : Nat) : Prop where
  up : h.up i = false
  phase : h.phase i = 1
  lastRst : h.lastRst i = c

theorem Hinge.ShowsReset.congr {h k : Hinge} {c : Nat} (e : h.ShowsReset i c) (hs : k.rd Reg.HINGE_LEAF_STAT = h.rd Reg.HINGE_LEAF_STAT)
    (hb : k.rd (Reg.HINGE_BOOT_STAT (bootIx i)) = h.rd (Reg.HINGE_BOOT_STAT (bootIx i))) : k.ShowsReset i c :=
  ⟨(Hinge.up_congr hs i).trans e.up, (Hinge.get_congr hb).trans e.phase, (Hinge.lastRst_congr hs i).trans e.lastRst⟩

theorem State.showsReset_resetLeaf {c : Nat} (f : Option (Nat × Nat)) (hb : (s.leaf i).boot.held = false) (hc : c < 16) :
    (s.resetLeaf i c f).hinge.ShowsReset i c := by
  refine Hinge.ShowsReset.congr (h := s.hinge.resetMarks i c) ⟨Hinge.up_resetMarks_same .., Hinge.phase_resetMarks_same .., ?_⟩
    (State.rd_resetLeaf c f hb _ (by decide)) (State.rd_resetLeaf c f hb _ (by cases i <;> decide))
  rw [Hinge.lastRst_resetMarks_same, Nat.mod_eq_of_lt hc]

/-- A reset of one leaf leaves the marks of the other's. -/
theorem State.showsReset_resetLeaf_other {c : Nat} (d : Nat) (f : Option (Nat × Nat)) (hb : (s.leaf i).boot.held = false)
    (h : s.hinge.ShowsReset i.other c) : (s.resetLeaf i d f).hinge.ShowsReset i.other c := by
  refine Hinge.ShowsReset.congr (h := s.hinge.resetMarks i d) ⟨?_, ?_, ?_⟩
    (State.rd_resetLeaf d f hb _ (by decide)) (State.rd_resetLeaf d f hb _ (by cases i <;> decide))
  · exact (Hinge.up_resetMarks_other ..).trans h.up
  · exact (Hinge.phase_resetMarks_other ..).trans h.phase
  · exact (Hinge.lastRst_resetMarks_other ..).trans h.lastRst

/-- Settling leaves the marks of a reset. -/
theorem State.showsReset_settle {c : Nat} (h : s.hinge.ShowsReset i c) : s.settle.hinge.ShowsReset i c :=
  h.congr ((settle_kept s).hinge.rd _ fun _ => rfl) ((settle_kept s).hinge.rd _ fun x => by cases i <;> rfl)

/-! ## The hinge right after its reset -/

/-- The hinge as its own reset leaves it: in reset, no mode locked, no leaf up. -/
structure Hinge.JustReset (h : Hinge) : Prop where
  held : h.held = true
  locked : h.bit Fld.HINGE_MODE_LOCKED = false
  mode : h.bit Fld.HINGE_MODE_MODE = false
  up : ∀ i, h.up i = false

/-- The registers that a hinge reset loads are the reset cause and the fused boot sources. -/
theorem rd_hingeResetRegs (srcA srcB cause : Nat) {a : Nat} (hb : Reg.HINGE_BOOT_CFG ≠ a) (hr : Reg.HINGE_RST_STAT ≠ a) :
    sparseGet regReset (hingeResetRegs srcA srcB cause) a = regReset a := by
  unfold hingeResetRegs
  rw [sparseGet_set_other _ hb, sparseGet_set_other _ hr]
  rfl

theorem Hinge.justReset_of_regs {h : Hinge} {srcA srcB cause : Nat} (hh : h.held = true) (hr : h.regs = hingeResetRegs srcA srcB cause) :
    h.JustReset := by
  have hm : h.rd Reg.HINGE_MODE = (regReset Reg.HINGE_MODE).toNat := by
    unfold Hinge.rd; rw [hr, rd_hingeResetRegs _ _ _ (by decide) (by decide)]
  have hs : h.rd Reg.HINGE_LEAF_STAT = (regReset Reg.HINGE_LEAF_STAT).toNat := by
    unfold Hinge.rd; rw [hr, rd_hingeResetRegs _ _ _ (by decide) (by decide)]
  have em : (regReset Reg.HINGE_MODE).toNat = 0 := by decide
  have es : (regReset Reg.HINGE_LEAF_STAT).toNat = 0 := by decide
  have hf (f : FieldRef) (e : h.rd f.addr = 0) : h.bit f = false := by
    unfold Hinge.bit Hinge.get; rw [e]; simp [bitsOf]
  exact ⟨hh, hf _ (hm.trans em), hf _ (hm.trans em), fun i => by cases i <;> exact hf _ (hs.trans es)⟩

theorem Hinge.cause_of_regs {h : Hinge} {srcA srcB cause : Nat} (hr : h.regs = hingeResetRegs srcA srcB cause) (hc : cause < 4) :
    h.get Fld.HINGE_RST_STAT_CAUSE = cause := by
  have e : h.rd Reg.HINGE_RST_STAT = cause := by
    unfold Hinge.rd hingeResetRegs at *
    rw [hr, sparseGet_set_other _ (by decide), sparseGet_set_same]
    simp; omega
  show bitsOf (h.rd Reg.HINGE_RST_STAT) 1 0 = cause
  rw [e]; simp [bitsOf]; omega

theorem State.justReset_powerOn (s : State) : s.powerOn.hinge.JustReset := Hinge.justReset_of_regs rfl rfl

theorem State.justReset_hingeReset (s : State) (c : Nat) : (s.hingeReset c).hinge.JustReset := Hinge.justReset_of_regs rfl rfl

/-- Settling leaves the hinge as a hinge reset has left it. -/
theorem State.justReset_settle (h : s.hinge.JustReset) : s.settle.hinge.JustReset :=
  have k := (settle_kept s).hinge
  have km := k.rd Reg.HINGE_MODE fun _ => rfl
  ⟨k.held.trans h.held, (Hinge.bit_congr km).trans h.locked, (Hinge.bit_congr km).trans h.mode,
   fun i => (Hinge.up_congr (k.rd Reg.HINGE_LEAF_STAT fun _ => rfl) i).trans (h.up i)⟩

end Sys2Proof.Machine
end

section
/-!
PROOFS. Judging and delivering sensor items leaves the boot state of a leaf alone: what items that go on with their own stamps (R31) may
not change when the other leaf is reset.
-/
namespace Sys2Proof.Machine

variable (l : Leaf)

theorem Leaf.boot_foldl {α : Type} (f : Leaf → α → Leaf) (xs : List α) (l : Leaf) (h : ∀ (x : α) (k : Leaf), (f k x).boot = k.boot) :
    (xs.foldl f l).boot = l.boot := by
  induction xs generalizing l with
  | nil => rfl
  | cons x t ih => exact (ih (f l x)).trans (h x l)

/-! ## Registers, counters, events -/

@[simp] theorem Leaf.boot_inc (f : FieldRef) : (l.inc f).boot = l.boot := rfl
@[simp] theorem Leaf.boot_incSat (f : FieldRef) : (l.incSat f).boot = l.boot := rfl
@[simp] theorem Leaf.boot_wr64 (a b v : Nat) : (l.wr64 a b v).boot = l.boot := rfl
@[simp] theorem Leaf.boot_orReg (a m : Nat) : (l.orReg a m).boot = l.boot := rfl
@[simp] theorem Leaf.boot_countBy (c i n : Nat) : (l.countBy c i n).boot = l.boot := rfl
@[simp] theorem Leaf.boot_bump (c i : Nat) : (l.bump c i).boot = l.boot := rfl
@[simp] theorem Leaf.boot_setPend (s : Nat) : (l.setPend s).boot = l.boot := rfl

@[simp] theorem Leaf.boot_accEvent (s : Nat) : (l.accEvent s).boot = l.boot := by
  unfold Leaf.accEvent
  split
  · rfl
  · dsimp only; split <;> simp -implicitDefEqProofs

@[simp] theorem Leaf.boot_raise (s : Nat) : (l.raise s).boot = l.boot := by unfold Leaf.raise; split <;> simp -implicitDefEqProofs

@[simp] theorem Leaf.boot_flagEvent (f : FieldRef) (s : Nat) : (l.flagEvent f s).boot = l.boot := by unfold Leaf.flagEvent; simp -implicitDefEqProofs

/-! ## The filter chain -/

@[simp] theorem Leaf.boot_setCh (c : Nat) (x : FiltCh) : (l.setCh c x).boot = l.boot := rfl
@[simp] theorem Leaf.boot_clearSettled (c : Nat) : (l.clearSettled c).boot = l.boot := rfl
@[simp] theorem Leaf.boot_clearCh (c : Nat) : (l.clearCh c).boot = l.boot := by unfold Leaf.clearCh; simp -implicitDefEqProofs
@[simp] theorem Leaf.boot_feederLost (c : Nat) : (l.feederLost c).boot = l.boot := by unfold Leaf.feederLost; simp -implicitDefEqProofs

@[simp] theorem Leaf.boot_filtSat (c n : Nat) : (l.filtSat c n).boot = l.boot := by unfold Leaf.filtSat; split <;> simp -implicitDefEqProofs

@[simp] theorem Leaf.boot_thrEvent (c t : Nat) (r : Bool) (o a : Nat) (y : Int) : (l.thrEvent c t r o a y).boot = l.boot :=
  Leaf.boot_flagEvent l _ _

@[simp] theorem Leaf.boot_thrCompare (c p o a : Nat) (y : Int) (t : Nat) : (l.thrCompare c p o a y t).boot = l.boot := by
  unfold Leaf.thrCompare
  split
  · rfl
  · dsimp only; split_ifs <;> simp -implicitDefEqProofs

@[simp] theorem Leaf.boot_thresholds (c p o a : Nat) (y : Int) : (l.thresholds c p o a y).boot = l.boot :=
  Leaf.boot_foldl _ _ _ fun t k => Leaf.boot_thrCompare k c p o a y t

@[simp] theorem Leaf.boot_chanRecord (c p o a : Nat) (y z : Int) (sat : Bool) : (l.chanRecord c p o a y z sat).boot = l.boot := by
  unfold Leaf.chanRecord
  dsimp only
  split
  · rfl
  · split
    · rfl
    · rw [apply_ite Leaf.boot]; simp -implicitDefEqProofs

@[simp] theorem Leaf.boot_imuTake (c : Nat) (t y : Int) : (l.imuTake c t y).boot = l.boot := by
  have hj (k : Leaf) (v : List (Nat × Int)) : (k.imuJoin t v).boot = k.boot := rfl
  unfold Leaf.imuTake
  dsimp only
  split
  · rfl
  · split
    · split <;> simp -implicitDefEqProofs [hj]
    · exact hj _ _

@[simp] theorem Leaf.boot_wheelTake (c : Nat) (t y : Int) : (l.wheelTake c t y).boot = l.boot := rfl

@[simp] theorem Leaf.boot_mpOut (c a : Nat) (t y : Int) (sat : Bool) : (l.mpOut c a t y sat).boot = l.boot := by
  unfold Leaf.mpOut; simp -implicitDefEqProofs

@[simp] theorem Leaf.boot_lpOut (c a : Nat) (t y z : Int) (sat : Bool) : (l.lpOut c a t y z sat).boot = l.boot := by
  unfold Leaf.lpOut; dsimp only; split <;> simp -implicitDefEqProofs

@[simp] theorem Leaf.boot_sampleStart (c st : Nat) : (l.sampleStart c st).boot = l.boot := by
  have hp : ∀ p : Nat, (if (l.ch c).preset = p then l else (l.clearSettled c).setCh c { l.ch c with preset := p, lines := [] }).boot
      = l.boot := fun p => by split <;> simp -implicitDefEqProofs
  unfold Leaf.sampleStart
  dsimp only
  split
  · exact hp _
  · split
    · simp -implicitDefEqProofs [hp]
    · exact hp _

@[simp] theorem Leaf.boot_sampleCount (c fs : Nat) (v : Int) : (l.sampleCount c fs v).boot = l.boot := by
  unfold Leaf.sampleCount; dsimp only; split_ifs <;> simp -implicitDefEqProofs

@[simp] theorem Leaf.boot_sampled (c st a : Nat) (cap v : Int) : (l.sampled c st a cap v).boot = l.boot := by
  unfold Leaf.sampled; dsimp only; split <;> split <;> simp -implicitDefEqProofs

@[simp] theorem Leaf.boot_eventValue (c a : Nat) (cap v : Int) : (l.eventValue c a cap v).boot = l.boot := by
  unfold Leaf.eventValue; simp -implicitDefEqProofs

@[simp] theorem Leaf.boot_filtIn (c st a : Nat) (cap v : Int) : (l.filtIn c st a cap v).boot = l.boot := by
  unfold Leaf.filtIn; split_ifs <;> simp -implicitDefEqProofs

@[simp] theorem Leaf.boot_phaseReset (ts : Nat) : (l.phaseReset ts).boot = l.boot := by
  unfold Leaf.phaseReset; dsimp only; split <;> split_ifs <;> simp -implicitDefEqProofs

/-! ## Sources, cameras, items -/

@[simp] theorem Leaf.boot_setSrc (s : Nat) (x : SrcRun) : (l.setSrc s x).boot = l.boot := rfl
@[simp] theorem Leaf.boot_onSlot (s : Nat) (f : SlotBuf → SlotBuf) : (l.onSlot s f).boot = l.boot := rfl
@[simp] theorem Leaf.boot_setCam (n : Nat) (x : CamRun) : (l.setCam n x).boot = l.boot := rfl
@[simp] theorem Leaf.boot_notDelivered (s a : Nat) (b : Bool) : (l.notDelivered s a b).boot = l.boot := rfl

@[simp] theorem Leaf.boot_leaveUp (s : Nat) : (l.leaveUp s).boot = l.boot :=
  Leaf.boot_foldl _ _ _ fun c k => Leaf.boot_feederLost k c

@[simp] theorem Leaf.boot_srcTo (s st : Nat) : (l.srcTo s st).boot = l.boot := by unfold Leaf.srcTo; dsimp only; split <;> simp -implicitDefEqProofs

@[simp] theorem Leaf.boot_srcJudge (s : Nat) (bad : Bool) : (l.srcJudge s bad).2.boot = l.boot := by
  unfold Leaf.srcJudge
  dsimp only
  generalize hk : l.setSrc s { l.src s with seq := (l.src s).seq + 1, lastAt := l.count } = k
  rw [show l.boot = k.boot by rw [← hk]; rfl]
  split_ifs <;> simp -implicitDefEqProofs

@[simp] theorem Leaf.boot_camJudge (n : Nat) (f : CamFrame) : (l.camJudge n f).boot = l.boot := by
  unfold Leaf.camJudge
  split
  · rfl
  · dsimp only; split <;> simp -implicitDefEqProofs

@[simp] theorem Leaf.boot_storeItem (s : Nat) (r : SlotRec) : (l.storeItem s r).boot = l.boot := by
  unfold Leaf.storeItem
  dsimp only
  split
  · rfl
  · split <;> simp -implicitDefEqProofs

@[simp] theorem Leaf.boot_storePayload (s a : Nat) (cap : Int) (p : List Byte) : (l.storePayload s a cap p).boot = l.boot :=
  Leaf.boot_storeItem ..

@[simp] theorem Leaf.boot_lidPoint (t a : Nat) (cap : Int) (p : List Byte) (k : Nat) : (l.lidPoint t a cap p k).boot = l.boot := by
  unfold Leaf.lidPoint
  dsimp only
  split
  · simp -implicitDefEqProofs
  · split <;> simp -implicitDefEqProofs

@[simp] theorem Leaf.boot_spiFields (p vt a : Nat) (cap : Int) (bs : List Byte) : (l.spiFields p vt a cap bs).boot = l.boot :=
  Leaf.boot_foldl _ _ _ fun f k => by split <;> simp -implicitDefEqProofs

/-- An item's stamp becomes known (R223 to R229): the leaf's boot state stays. -/
@[simp] theorem Leaf.boot_itemStamped (it : Item) (vt : Nat) : (l.itemStamped it vt).boot = l.boot := by
  obtain ⟨src, seq, at', c8, body⟩ := it
  have hj (b : Bool) : (l.srcJudge src b).2.boot = l.boot := Leaf.boot_srcJudge l src b
  unfold Leaf.itemStamped
  cases body with
  | edge => dsimp only; split <;> simp -implicitDefEqProofs
  | camera => dsimp only; split <;> simp -implicitDefEqProofs
  | lidar b =>
    dsimp only
    split_ifs
    · rfl
    · simp -implicitDefEqProofs
    · exact (Leaf.boot_foldl _ _ _ fun k m => Leaf.boot_lidPoint m _ _ _ _ k).trans (hj _)
  | spi b | can v | gnss b => dsimp only; split_ifs <;> simp -implicitDefEqProofs

@[simp] theorem Leaf.boot_stampKnown (s seq vt : Nat) : (l.stampKnown s seq vt).boot = l.boot := by
  unfold Leaf.stampKnown
  split
  · rfl
  · simp -implicitDefEqProofs

@[simp] theorem Leaf.boot_releaseStamps : l.releaseStamps.boot = l.boot :=
  Leaf.boot_foldl _ _ l fun _ k => Leaf.boot_stampKnown k _ _ _

/-- A leaf is in reset or out of it as before when the other leaf is reset. -/
theorem State.boot_other_resetLeaf (s : State) (i : LeafId) (c : Nat) (f : Option (Nat × Nat)) :
    ((s.resetLeaf i c f).leaf i.other).boot = (s.leaf i.other).boot := by
  have hr : ((s.leafReset i c f).leaf i.other).boot = (s.leaf i.other).boot := by
    cases hb : (s.leaf i).boot.held with
    | true => unfold State.leafReset; rw [if_pos hb]
    | false =>
      rw [State.leafReset_of_released c f hb]
      rcases State.leaf_partnerDown i i.other
        ((s.setHinge (s.hinge.resetMarks i c)).setLeaf i ((s.leaf i).reset f).release) with e | ⟨x, y, e⟩
      · rw [e, State.leaf_setLeaf_other, State.leaf_setHinge]
      · rw [e, State.leaf_setLeaf_other, State.leaf_setHinge]
        unfold Leaf.agreeFault
        dsimp only
        split
        · rfl
        · exact (Leaf.near_notify (b := True) _ _ _).boot
  unfold State.resetLeaf
  dsimp only
  split
  · rw [State.leaf_onLeaf_same, Leaf.boot_releaseStamps]; exact hr
  · exact hr

end Sys2Proof.Machine
end

section
/-!
PROOFS. The frame of a command of one leaf: what its register writes, events and host commands reach outside the leaf (R17, R22).
-/
namespace Sys2Proof.Machine

/-! ## The relation -/

/-- s1 is s but for leaf l and what an access of l leaves at the hinge: counts, logged violations, messages, boot state. Under b the
hinge is s's too, but for what settling may change. -/
structure State.Touches (b : Prop) (l : LeafId) (s s1 : State) : Prop where
  other : s1.leaf l.other = s.leaf l.other
  guarded : s.hinge.Guarded s1.hinge
  kept : b → s.hinge.Kept s1.hinge

variable {b : Prop} {l : LeafId} {s s1 s2 : State} {a : Nat}

namespace State.Touches

theorem refl (b : Prop) (l : LeafId) (s : State) : s.Touches b l s := ⟨rfl, .refl _, fun _ => .refl _⟩

theorem trans (h1 : s.Touches b l s1) (h2 : s1.Touches b l s2) : s.Touches b l s2 :=
  ⟨h2.other.trans h1.other, h1.guarded.trans h2.guarded, fun hb => (h1.kept hb).trans (h2.kept hb)⟩

/-- A change of the leaf. -/
theorem setLeaf (m : Leaf) : s.Touches b l (s.setLeaf l m) :=
  ⟨State.leaf_setLeaf_other .., by rw [State.hinge_setLeaf]; exact .refl _, fun _ => by rw [State.hinge_setLeaf]; exact .refl _⟩

theorem onLeaf (f : Leaf → Leaf) : s.Touches b l (s.onLeaf l f) := setLeaf _

/-- A change of the hinge, where b does not hold. -/
theorem onHinge (hb : ¬ b) (f : Hinge → Hinge) (g : s.hinge.Guarded (f s.hinge)) : s.Touches b l (s.onHinge f) :=
  ⟨State.leaf_onHinge .., g, fun h => absurd h hb⟩

theorem ite {c : Prop} [Decidable c] (h1 : c → s.Touches b l s1) (h2 : ¬ c → s.Touches b l s2) :
    s.Touches b l (if c then s1 else s2) := by
  split
  · exact h1 ‹_›
  · exact h2 ‹_›

/-- An operand that names one of n things. -/
theorem indexed (n x : Nat) {f : State → State} (h : x < n → s.Touches b l (f s)) : s.Touches b l (s.indexed n x f) :=
  ite h fun _ => refl b l s

/-- A command of a queue pair. -/
theorem queueCmd {i : LeafId} (q : Nat) {f : State → State} (h : s.Touches b l (f s)) : s.Touches b l (s.queueCmd i q f) :=
  ite (fun _ => h) fun _ => refl b l s

end State.Touches

/-! ## Register writes -/

/-- The address is not one of a doorbell. -/
def noDoorbell (a : Nat) : Bool := (arrIx 0x1014 0x20 64 a).isNone && (arrIx 0x1018 0x20 64 a).isNone

theorem noDoorbell_iff (a : Nat) : noDoorbell a = true ↔ arrIx 0x1014 0x20 64 a = none ∧ arrIx 0x1018 0x20 64 a = none := by
  simp [noDoorbell]

/-- Doorbells lie in the windows of the queue pairs. -/
theorem noDoorbell_of_outside (h : 0x1800 ≤ a) : noDoorbell a = true := by
  rw [noDoorbell_iff]
  refine ⟨if_neg fun ⟨h1, h2, h3⟩ => ?_, if_neg fun ⟨h1, h2, h3⟩ => ?_⟩ <;> omega

theorem noDoorbell_qCfg (q : Nat) : noDoorbell (Reg.LEAF_Q_CFG q) = true := by
  rw [noDoorbell_iff]
  show arrIx 0x1014 0x20 64 (0x1010 + 0x20 * q) = none ∧ arrIx 0x1018 0x20 64 (0x1010 + 0x20 * q) = none
  refine ⟨if_neg fun ⟨h1, h2, h3⟩ => ?_, if_neg fun ⟨h1, h2, h3⟩ => ?_⟩ <;> omega

/-- A leaf's window starts at its base. -/
theorem leafOf_leafBase (i : LeafId) {a : Nat} (ha : a < 0x4000000) : leafOf (leafBase i + a) = some (i, a) := by
  cases i
  · show leafOf (0 * 0x4000000 + a) = _
    rw [Nat.zero_mul, Nat.zero_add]; exact if_pos ha
  · show leafOf (1 * 0x4000000 + a) = _
    unfold leafOf
    rw [if_neg (by omega), if_pos (by omega), Nat.one_mul, Nat.add_sub_cancel_left]

/-- A leaf that answers and runs is awake, so that its whole window is open. -/
theorem State.opens_of_ready (a : Nat) (h : s.ready l = true) : s.opens l a = true := by
  simp only [State.ready, Leaf.runs, Bool.and_eq_true] at h
  obtain ⟨hup, -, hs⟩ := h
  simp [State.opens, hup, hs]

/-- An access that is not answered counts at the hinge, and may wake the leaf. -/
theorem State.touches_noAnswer (hb : ¬ b) (l : LeafId) (s : State) : s.Touches b l (s.noAnswer l) := by
  have h1 : s.Touches b l (s.onHinge fun h => h.countDrop l) := .onHinge hb _ (Hinge.guarded_countDrop _ _)
  exact .ite (fun _ => h1.trans (.onLeaf _)) fun _ => h1

theorem State.touches_doorbellBad (hb : ¬ b) (l : LeafId) (q : Nat) (v : Via) (s : State) : s.Touches b l (s.doorbellBad l q v) :=
  .trans (s1 := s.onLeaf l (Leaf.dbErr q)) (.onLeaf _) (.onHinge hb _ (Hinge.guarded_violation ..))

theorem State.touches_sqDoorbell (hb : ¬ b) (l : LeafId) (q w : Nat) (v : Via) (s : State) : s.Touches b l (s.sqDoorbell l q w v) :=
  .ite (fun _ => State.touches_doorbellBad hb ..) fun _ => .onLeaf _

theorem State.touches_cqDoorbell (hb : ¬ b) (l : LeafId) (q w : Nat) (v : Via) (s : State) : s.Touches b l (s.cqDoorbell l q w v) :=
  .ite (fun _ => State.touches_doorbellBad hb ..) fun _ => .onLeaf _

theorem State.touches_leafWrite (hb : b → s.opens l a = true ∧ noDoorbell a = true) (w : Nat) : s.Touches b l (s.leafWrite l a w) := by
  simp only [noDoorbell_iff] at hb
  unfold State.leafWrite
  dsimp only
  refine .ite (fun h => ?_) fun _ => ?_
  · refine State.touches_noAnswer (fun hx => ?_) l s
    rw [(hb hx).1] at h; exact absurd h (by decide)
  · split
    · rename_i q hq; exact State.touches_sqDoorbell (fun hx => by rw [(hb hx).2.1] at hq; cases hq) ..
    · rename_i q hq _; exact State.touches_cqDoorbell (fun hx => by rw [(hb hx).2.2] at hq; cases hq) ..
    · exact .ite (fun _ => .onLeaf _) fun _ => .onLeaf _

theorem State.touches_regWrite (ha : a < 0x4000000) (hb : b → s.opens l a = true ∧ noDoorbell a = true) (w : Nat) :
    s.Touches b l (s.regWrite l a w) := by
  unfold State.regWrite State.pf0Write
  refine .ite (fun _ => .refl b l s) fun _ => ?_
  rw [leafOf_leafBase l ha]
  exact State.touches_leafWrite hb w

/-- A write of a register other than a doorbell reaches the hinge only while the leaf does not answer. -/
theorem State.Touches.reg {x : Prop} (a w : Nat) (ha : a < 0x4000000 := by decide) (hd : noDoorbell a = true := by decide) :
    s.Touches (x ∧ s.ready l = true) l (s.regWrite l a w) :=
  State.touches_regWrite ha (fun hb => ⟨State.opens_of_ready a hb.2, hd⟩) w

theorem State.Touches.field {x : Prop} (f : FieldRef) (v : Nat) (w : Word) (ha : f.addr < 0x4000000 := by decide)
    (hd : noDoorbell f.addr = true := by decide) : s.Touches (x ∧ s.ready l = true) l (s.fieldWrite l f v w) := .reg _ _ ha hd

/-- A register above the windows of the queue pairs. -/
theorem State.Touches.highReg {x : Prop} (w : Nat) (ha : 0x1800 ≤ a ∧ a < 0x4000000) :
    s.Touches (x ∧ s.ready l = true) l (s.regWrite l a w) := .reg a w ha.2 (noDoorbell_of_outside ha.1)

/-! ## Host commands -/

theorem State.touches_commandFetch (l : LeafId) (q : Nat) (e : List Byte) (s : State) : s.Touches b l (s.commandFetch l q e) :=
  .ite (fun _ => .refl b l s) fun _ => .setLeaf _

theorem State.touches_cmdNop (l : LeafId) (q tag : Nat) (s : State) : s.Touches b l (s.cmdNop l q tag) := by
  unfold State.cmdNop
  split
  · exact .refl b l s
  · exact .onLeaf _

/-- A host command that is refused for its window ends, and the violation is logged (R506). -/
theorem State.touches_cmdAccess (hb : ¬ b) (l : LeafId) (c : HostCmd) (addr : Nat) (write : Bool) (s : State) :
    s.Touches b l (s.cmdAccess l c addr write) :=
  .trans (s1 := s.onLeaf l (Leaf.endCmd c 0x0E 0)) (.onLeaf _) (.onHinge hb _ (Hinge.guarded_violation ..))

theorem State.touches_cmdSearch (hb : ¬ b) (l : LeafId) (q tag : Nat) (s : State) : s.Touches b l (s.cmdSearch l q tag) := by
  unfold State.cmdSearch
  dsimp only
  split
  · exact .refl b l s
  · split
    · exact State.touches_cmdAccess hb ..
    · refine .ite (fun _ => .onLeaf _) fun _ => ?_
      split
      · exact State.touches_cmdAccess hb ..
      · exact .setLeaf _

theorem State.touches_cmdCopy (hb : ¬ b) (l : LeafId) (op q tag : Nat) (s : State) : s.Touches b l (s.cmdCopy l op q tag) := by
  unfold State.cmdCopy
  split
  · exact .refl b l s
  · split
    · exact State.touches_cmdAccess hb ..
    · exact .onLeaf _

theorem State.touches_copyDone (hb : ¬ b) (l : LeafId) (q tag : Nat) (data : List Byte) (err poison : Bool) (s : State) :
    s.Touches b l (s.copyDone l q tag data err poison) := by
  unfold State.copyDone
  dsimp only
  split
  · exact .refl b l s
  · refine .ite (fun _ => .refl b l s) fun _ => .ite (fun _ => .ite (fun _ => .onLeaf _) fun _ => .setLeaf _) fun _ => ?_
    exact .trans (.setLeaf _) (.onHinge hb _ (.of_rd rfl rfl))

theorem State.touches_cmdAbort (l : LeafId) (q tag : Nat) (s : State) : s.Touches b l (s.cmdAbort l q tag) := by
  unfold State.cmdAbort
  dsimp only
  split
  · exact .refl b l s
  · refine .ite (fun _ => .onLeaf _) fun _ => ?_
    split
    · exact .onLeaf _
    · exact .setLeaf _

/-- A record drained from the hold goes to host memory and counts for its group; settling may do the same. -/
theorem kept_drainHold (h : Hinge) (l : Leaf) : h.Kept (drainHold h l).1 := by
  unfold drainHold
  split
  · exact .refl h
  · exact (kept_writeRecord _ _ _ _).1

theorem State.touches_holdDrain (l : LeafId) (s : State) : s.Touches b l (s.holdDrain l) := by
  have hk := kept_drainHold s.hinge (s.leaf l)
  have h1 : s.Touches b l (s.setHinge (drainHold s.hinge (s.leaf l)).1) := ⟨State.leaf_setHinge .., hk.guarded, fun _ => hk⟩
  exact h1.trans (.setLeaf _)

/-! ## Boot -/

/-- Leaf l comes up: its boot phase 6 ends (R513, R20). -/
structure Hinge.Boots (l : LeafId) (h k : Hinge) : Prop where
  before : h.phase l = 6
  after : k.phase l = 7
  mode : k.rd Reg.HINGE_MODE = h.rd Reg.HINGE_MODE
  other : k.up l.other = h.up l.other

theorem Hinge.guarded_setPhase (h : Hinge) (i : LeafId) (p : Nat) : h.Guarded (h.setPhase i p) := by
  cases i <;> exact Hinge.Guarded.put (.refl h) _ _

theorem Hinge.guarded_bootFail (h : Hinge) (i : LeafId) (e : Nat) : h.Guarded (h.bootFail i e) := by
  cases i <;> exact Hinge.Guarded.putB (Hinge.Guarded.put (Hinge.guarded_setPhase ..) _ _) _ _

/-- The hinge at the end of boot phase 6: what State.bootPhase6 writes. -/
def Hinge.bootDone (h : Hinge) (i : LeafId) (src us : Nat) : Hinge :=
  (((((h.setUp i true).setPhase i 7).putB (Fld.HINGE_BOOT_STAT_DONE_EV (bootIx i)) true).put (Fld.HINGE_BOOT_STAT_COPY (bootIx i)) src).put
    (Fld.HINGE_BOOT_TIME_US (bootIx i)) us)

theorem Hinge.rd_bootDone (h : Hinge) (i : LeafId) (src us : Nat) {a : Nat} (hs : Reg.HINGE_BOOT_STAT (bootIx i) ≠ a)
    (ht : Reg.HINGE_BOOT_TIME (bootIx i) ≠ a) : (h.bootDone i src us).rd a = (h.setUp i true).rd a :=
  (Hinge.rd_wr_other _ _ ht).trans ((Hinge.rd_wr_other _ _ hs).trans ((Hinge.rd_wr_other _ _ hs).trans (Hinge.rd_wr_other _ _ hs)))

theorem Hinge.phase_bootDone (h : Hinge) (i : LeafId) (src us : Nat) : (h.bootDone i src us).phase i = 7 := by
  have hus : (Fld.HINGE_BOOT_TIME_US (bootIx i)).addr ≠ (Fld.HINGE_BOOT_STAT_PHASE (bootIx i)).addr := by cases i <;> decide
  have e : ((h.setUp i true).setPhase i 7).phase i = 7 := Hinge.get_put_same _ _ _ (by show 28 ≤ 31; decide) (by show 31 < 32; decide)
  unfold Hinge.bootDone
  generalize (h.setUp i true).setPhase i 7 = k at e
  unfold Hinge.phase at e ⊢
  rw [Hinge.get_put_other _ _ _ _ hus,
    Hinge.get_put_disjoint _ (Fld.HINGE_BOOT_STAT_COPY _) (Fld.HINGE_BOOT_STAT_PHASE _) _ rfl (by simp) (by simp) (by simp), Hinge.putB,
    Hinge.get_put_disjoint _ (Fld.HINGE_BOOT_STAT_DONE_EV _) (Fld.HINGE_BOOT_STAT_PHASE _) _ rfl (by simp) (by simp) (by simp)]
  exact e

theorem Hinge.boots_bootDone {h : Hinge} {i : LeafId} (hp : h.phase i = 6) (src us : Nat) : h.Boots i (h.bootDone i src us) where
  before := hp
  after := Hinge.phase_bootDone ..
  mode := by
    refine Eq.trans ?_ (Hinge.rd_setUp h i true (by decide))
    cases i <;> exact Hinge.rd_bootDone _ _ _ _ (by decide) (by decide)
  other := by
    refine Eq.trans (Hinge.up_congr (h := h.setUp i true) ?_ _) (Hinge.up_setUp_other ..)
    cases i <;> exact Hinge.rd_bootDone _ _ _ _ (by decide) (by decide)

/-- What one command does to the mode and to UP: nothing but what Guarded allows, a hinge reset, or the end of a leaf's boot. -/
inductive Hinge.StepsTo (h k : Hinge) : Prop where
  | guarded (g : h.Guarded k)
  | reset (r : k.JustReset)
  | boots (l : LeafId) (b : h.Boots l k)

theorem State.guarded_bootPhase5 (i : LeafId) (s : State) : s.hinge.Guarded (s.bootPhase5 i).hinge := by
  unfold State.bootPhase5
  dsimp only
  split
  · exact Hinge.guarded_setPhase ..
  · split
    · rw [State.hinge_onHinge, State.hinge_setLeaf]; exact Hinge.guarded_setPhase ..
    · split
      · rw [State.hinge_onHinge, State.hinge_setLeaf]; exact Hinge.guarded_setPhase ..
      · rw [State.hinge_onHinge, State.hinge_setLeaf]; exact Hinge.guarded_bootFail ..

theorem State.stepsTo_bootPhase6 (i : LeafId) (us : Nat) (hp : s.hinge.phase i = 6) : s.hinge.StepsTo (s.bootPhase6 i us).hinge := by
  unfold State.bootPhase6
  dsimp only
  split
  · exact .guarded (.refl _)
  · rename_i src f _
    rw [State.hinge_setLeaf]
    exact .boots i (Hinge.boots_bootDone hp src us)

theorem State.stepsTo_bootNext (i : LeafId) (p us : Nat) (hp : s.hinge.phase i = p) : s.hinge.StepsTo (s.bootNext i p us).hinge := by
  unfold State.bootNext
  dsimp only
  split
  · rw [State.hinge_onHinge, State.hinge_setLeaf]; exact .guarded (Hinge.guarded_setPhase ..)
  · exact .guarded (Hinge.guarded_setPhase ..)
  · rw [State.hinge_onHinge, State.hinge_setLeaf]; exact .guarded (Hinge.guarded_setPhase ..)
  · exact .guarded (Hinge.guarded_setPhase ..)
  · exact .guarded (State.guarded_bootPhase5 ..)
  · exact State.stepsTo_bootPhase6 i us hp
  · exact .guarded (.refl _)

theorem State.stepsTo_bootPhaseDone (i : LeafId) (c us : Nat) (out : BootOutcome) (s : State) :
    s.hinge.StepsTo (s.bootPhaseDone i c us out).hinge := by
  unfold State.bootPhaseDone
  dsimp only
  split
  · exact .guarded (.refl _)
  · split
    · rw [State.hinge_onHinge, State.hinge_onLeaf]; exact .guarded (Hinge.guarded_bootFail ..)
    · have h := State.stepsTo_bootNext (s := s.onLeaf i fun l => l.adv c) i (s.hinge.phase i) us (by rw [State.hinge_onLeaf])
      rwa [State.hinge_onLeaf] at h

theorem State.leaf_other_bootNext (i : LeafId) (p us : Nat) (s : State) : (s.bootNext i p us).leaf i.other = s.leaf i.other := by
  unfold State.bootNext State.bootPhase5 State.bootPhase6
  dsimp only
  split
  · rw [State.leaf_onHinge, State.leaf_setLeaf_other]
  · rw [State.leaf_onHinge]
  · rw [State.leaf_onHinge, State.leaf_setLeaf_other]
  · rw [State.leaf_onHinge]
  · split
    · rw [State.leaf_onHinge]
    · split
      · rw [State.leaf_onHinge, State.leaf_setLeaf_other]
      · split
        · rw [State.leaf_onHinge, State.leaf_setLeaf_other]
        · rw [State.leaf_onHinge, State.leaf_setLeaf_other]
  · split
    · rfl
    · rw [State.leaf_setLeaf_other]; exact State.leaf_setHinge ..
  · rfl

theorem State.leaf_other_bootPhaseDone (i : LeafId) (c us : Nat) (out : BootOutcome) (s : State) :
    (s.bootPhaseDone i c us out).leaf i.other = s.leaf i.other := by
  unfold State.bootPhaseDone
  dsimp only
  split
  · rfl
  · split
    · rw [State.leaf_onHinge, State.leaf_onLeaf_other]
    · rw [State.leaf_other_bootNext, State.leaf_onLeaf_other]

theorem State.touches_hostBootDone (hb : ¬ b) (i : LeafId) (err : Bool) (image : List Byte) (s : State) :
    s.Touches b i (s.hostBootDone i err image) := by
  have hp (h : Hinge) (e : Nat) : h.Guarded (h.put (Fld.HINGE_BOOT_STAT_ERR (bootIx i)) e) := by
    cases i <;> exact Hinge.Guarded.put (.refl h) _ _
  unfold State.hostBootDone
  dsimp only
  refine .ite (fun _ => ?_) fun _ => .refl b i s
  have herr (m : Leaf) (e : Nat) : s.Touches b i ((s.setLeaf i m).onHinge fun h => h.put (Fld.HINGE_BOOT_STAT_ERR (bootIx i)) e) :=
    .trans (.setLeaf m) (.onHinge hb _ (hp _ e))
  refine .ite (fun _ => herr _ _) fun _ => .ite (fun _ => herr _ _) fun _ => .ite (fun _ => herr _ _) fun _ => ?_
  exact .trans (.setLeaf _) (.onHinge hb _ (Hinge.guarded_setPhase ..))

end Sys2Proof.Machine
end

section
/-!
PROOFS. One leaf is touched: what each command of one leaf leaves of the other leaf and of the hinge (R17, R22).
-/
namespace Sys2Proof.Machine

variable {b : Prop} {l : LeafId} {s s1 : State} {c : Instr}

/-! ## Registers of an array -/

/-- A write of one register of an array above the windows of the queue pairs. -/
theorem State.Touches.arrayReg {x : Prop} {n i base step w : Nat} (hi : i < n)
    (ha : 0x1800 ≤ base ∧ base + step * n ≤ 0x4000000 ∧ 0 < step := by decide) :
    s.Touches (x ∧ s.ready l = true) l (s.regWrite l (base + step * i) w) := by
  have hm : step * i < step * n := Nat.mul_lt_mul_of_pos_left hi ha.2.2
  exact .highReg w ⟨by omega, by omega⟩

/-- The windows of the queue pairs lie in the leaf's. -/
theorem queueReg_lt {base q : Nat} (hb : base < 0x1800) (hq : q < 64) : base + 0x20 * q < 0x4000000 := by omega

/-- The register of a sensor source, where there is one. -/
theorem State.Touches.sourceNamed {src : Nat} {f : State → State} (h : src < 128 → s.Touches b l (f s)) :
    s.Touches b l (sourceNamed src f s) := .ite (fun hs => h hs.1) fun _ => .refl b l s

/-! ## The commands of one leaf -/

/-- Command c of leaf l takes s to s1, before settling: the other leaf stays, the hinge takes one step, and stays where it has no part of its
own in the row and the leaf runs. -/
structure State.CommandOf (c : Instr) (l : LeafId) (s s1 : State) : Prop where
  ends : exec c s = .next s1.settle
  other : s1.leaf l.other = s.leaf l.other
  hinge : s.hinge.StepsTo s1.hinge
  kept : commandReachesHinge c = false ∧ s.ready l = true → s.hinge.Kept s1.hinge

theorem State.Touches.command (h : s.Touches (commandReachesHinge c = false ∧ s.ready l = true) l s1) (e : exec c s = .next s1.settle) :
    s.CommandOf c l s1 := ⟨e, h.other, .guarded h.guarded, h.kept⟩

theorem exec_commandOf (hc : commandLeaf c = some l) (s : State) : ∃ s1, s.CommandOf c l s1 := by
  cases c
  case powerOn | resetNLow | railUndervoltage | rstA | rstB | lockstep | watchdog | perstNAssert | perstNRelease | flr |
    pcieConfigWrite | linkStateChange | hingeModeWrite | stampToHinge | stampUnpaired | digestToHinge | digestMissing | rearm |
    agreeFaultClear | registerWrite | barrierInEdge | tickBoundary | boundLate | barFire | barrierCancel | barrierOutPulse |
    cqCoalesceTimeout | apertureAccess | pf1WindowAccess | violLogClear | goA | goB | resetNRelease | registerRead | pulseEnd => cases hc
  all_goals obtain rfl := Option.some.inj hc
  case bridgeSlewEnd | vtAutoSwitch | syncReceived | followUpReceived | pdelayMessageReceived | pdelayInitiate | ppsEdge |
    frameReceived | frameTransmit | fdbAgeOut | subTickBoundary | glazeChecksDone | updateVerified | fuseOperationDone | stageFire |
    tokenArrival | creditReturn | granuleFetchDone | flashReadDone | dramScrubPass | dramRepairDone | memRwDone | flashRefresh |
    lidarDatagram | uartMessage | uartByteSent | filtSyncEdge | filtSyncTickReset | egoPropagation | visionJobStart |
    visionJobComplete | visionResetDone | fusionGridUpdate | drTimerExpiry | blindStart | specDecision | loopVerificationDone |
    lmkReadDone | queryAdmit | walkReadDone | queryComplete | queryDeadline | sideCmdDone | mergeDone | srchFwDone | solverJobStart
    | solverJobComplete | assignStart | assignComplete | solverResetDone | opEvaluation | railSettled | vrail | peakEvaluation |
    tempSample | coolStale | regionSkew | sleepEntryDone | wakeAlarm | wakeEventTimer | canBusWake | wkupEdge | wakeComplete |
    snapshotDone | fwuDone | clockFault | cfgParityScan | dramChan | hingeHeartbeat | hingeLost | lifetimeRecordWrite | dramReadDone
    | voltageCheck =>
    exact ⟨_, State.Touches.command (.onLeaf _) rfl⟩
  case start | halt | load | update | cancel | prog1 | revoke0 | revoke1 | rewrite | writeback | filtSyncArm | filtSyncCancel |
    egoReset | fusTblCommit | lmkGo | mergeGo | mergeAbort | srchFwGo | graphReq | solverReset | clutchRead | clutchWrite |
    tripClear | sleepReq | wake | snap | fwuGo | faultClear =>
    exact ⟨_, State.Touches.command (.field _ _ _) rfl⟩
  case vtSelWrite | cap | keyUnlock | uartTx | fusTrkNextWrite | irqEoi | fltInjKeyWrite | fdbRead | fdbWriteStatic | fdbDelete |
    fdbFlushLearned | sideInsert | sideDelete | injectCreditSum | injectSramError | injectDigestBit | injectLinkCrc |
    injectCfgParity =>
    exact ⟨_, State.Touches.command (.reg _ _) rfl⟩
  case syncTimeout | triggerPulse | qbvGateEvent | qbvConfigTakeEffect | cameraPacket | cameraFrameDue | exposureTrigger | i2cDone |
    imuDataReady | spiTransactionDone | canFrameReceived | canBusRecovery | projectionJob | attachDone | irqCoalesceTimeout =>
    exact ⟨_, State.Touches.command (.indexed _ _ fun _ => .onLeaf _) rfl⟩
  case domRate | domStep | domSet | fusDemoteClear | irqPendWrite | irqMaskWrite | irqTgtWrite | pathSuspectClear | triggerArm |
    triggerDisarm | qbvChange | i2cGo | filtChannelEnable | swap | attach | detach =>
    exact ⟨_, State.Touches.command (.indexed _ _ fun h => .arrayReg h) rfl⟩
  case triggerReprogram r _ => cases r <;> exact ⟨_, State.Touches.command (.indexed _ _ fun h => .arrayReg h) rfl⟩
  case visionEngineReset =>
    exact ⟨_, State.Touches.command (.ite (fun _ => .refl ..) fun _ =>
      .indexed _ _ fun h => .arrayReg (lt_of_le_of_lt (Nat.sub_le ..) h)) rfl⟩
  case sourceEnable | sourceDisable =>
    exact ⟨_, State.Touches.command (.sourceNamed fun hs => .arrayReg hs) rfl⟩
  case sourceLinkLost | sourceItemTimeout => exact ⟨_, State.Touches.command (.sourceNamed fun _ => .onLeaf _) rfl⟩
  case queueEnable | queueDisable =>
    exact ⟨_, State.Touches.command (.indexed _ _ fun hq => .reg _ _ (queueReg_lt (by decide) hq) (noDoorbell_qCfg _)) rfl⟩
  case coolantWrite budget _ => cases budget <;> exact ⟨_, State.Touches.command (.reg _ _) rfl⟩
  case linkUp link => cases link <;> exact ⟨_, State.Touches.command (.onLeaf _) rfl⟩
  case sqDoorbell | cqDoorbell =>
    exact ⟨_, State.Touches.command (.indexed _ _ fun hq =>
      State.touches_regWrite (queueReg_lt (by decide) hq) (fun hb => Bool.noConfusion hb.1) _) rfl⟩
  case commandFetch => exact ⟨_, State.Touches.command (.queueCmd _ (State.touches_commandFetch ..)) rfl⟩
  case nop => exact ⟨_, State.Touches.command (.queueCmd _ (State.touches_cmdNop ..)) rfl⟩
  case abort => exact ⟨_, State.Touches.command (.queueCmd _ (State.touches_cmdAbort ..)) rfl⟩
  case search => exact ⟨_, State.Touches.command (.queueCmd _ (State.touches_cmdSearch (fun hb => Bool.noConfusion hb.1) ..)) rfl⟩
  case copyIn | copyOut => exact ⟨_, State.Touches.command (.queueCmd _ (State.touches_cmdCopy (fun hb => Bool.noConfusion hb.1) ..)) rfl⟩
  case copyDone => exact ⟨_, State.Touches.command (.queueCmd _ (State.touches_copyDone (fun hb => Bool.noConfusion hb.1) ..)) rfl⟩
  case hostBootFetchDone => exact ⟨_, State.Touches.command (State.touches_hostBootDone (fun hb => Bool.noConfusion hb.1) ..) rfl⟩
  case holdDrain => exact ⟨_, State.Touches.command (.ite (fun _ => State.touches_holdDrain ..) fun _ => .refl ..) rfl⟩
  case bootPhaseDone l c us out =>
    refine ⟨(s.bootPhaseDone l c us out).eventNow l Leaf.booted Leaf.firstEval, rfl, ?_, ?_, fun hb => Bool.noConfusion hb.1⟩
    · exact (State.leaf_onLeaf_other ..).trans (State.leaf_other_bootPhaseDone ..)
    · have h := State.stepsTo_bootPhaseDone l c us out s
      rwa [← State.hinge_onLeaf (s.bootPhaseDone l c us out) l fun m => if m.booted then m.firstEval else m] at h

/-! ## Tick boundaries -/

/-- Outside mirror mode no comparison starts (R22). -/
theorem State.agreeStart_of_not_mirror (n : Nat) (h : s.hinge.mirror = false) : s.agreeStart n = s := by
  unfold State.agreeStart
  simp [h]

theorem State.touches_boundaryAt (hm : s.hinge.mirror = false) (n : Nat) (late : Bool) : s.Touches b l (s.boundaryAt l n late) := by
  unfold State.boundaryAt State.tickBoundary
  dsimp only
  have h1 : s.Touches b l (s.onLeaf l fun x => x.adv n) := .onLeaf _
  have h2 : s.Touches b l ((s.onLeaf l fun x => x.adv n).onLeaf l (Leaf.tickBoundary late)) := h1.trans (.onLeaf _)
  rw [State.agreeStart_of_not_mirror _ (by rw [State.hinge_onLeaf, State.hinge_onLeaf]; exact hm), ite_self]
  exact .ite (fun _ => h2) fun _ => h1

theorem exec_boundary (l : LeafId) (n : Nat) (late : Bool) (s : State) :
    exec (if late then .boundLate l n else .tickBoundary l n) s = .next (s.boundaryAt l n late).settle := by
  cases late <;> rfl

/-! ## The statement -/

/-- Settles O54: command by command, by the leaf's own part of the state that it works on; settling then changes no more than Kept allows. -/
theorem oneLeafIsTouched : Obligations.OneLeafIsTouched := by
  refine ⟨fun c l s t hc he => ?_, fun l n late s t hm he => ?_⟩
  · obtain ⟨s1, h⟩ := exec_commandOf hc s
    obtain rfl : s1.settle = t := Host.Outcome.next.inj (h.ends.symm.trans he)
    have k := settle_kept s1
    exact ⟨h.other ▸ k.leaf l.other, fun hr hs => (h.kept ⟨hr, hs⟩).trans k.hinge⟩
  · have h := State.touches_boundaryAt (b := True) (l := l) hm n late
    obtain rfl : (s.boundaryAt l n late).settle = t := Host.Outcome.next.inj ((exec_boundary l n late s).symm.trans he)
    have k := settle_kept (s.boundaryAt l n late)
    exact ⟨h.other ▸ k.leaf l.other, (h.kept trivial).trans k.hinge⟩

end Sys2Proof.Machine
end

section
/-!
PROOFS. Every command's step of the hinge (R20, R24): it keeps a locked mode and that a leaf is not up, or it resets the hinge, or it is
the end of a leaf's boot.
-/
namespace Sys2Proof.Machine

variable {s t : State} {c : Instr}

/-! ## Writes of the hinge window -/

theorem Hinge.locked_lateWr (h : Hinge) (b : Bool) : (h.putB Fld.HINGE_MODE_LATE_WR b).bit Fld.HINGE_MODE_LOCKED = h.bit Fld.HINGE_MODE_LOCKED :=
  congrArg (· != 0) (Hinge.get_put_disjoint _ Fld.HINGE_MODE_LATE_WR Fld.HINGE_MODE_LOCKED _ rfl (by decide) (by decide) (by decide))

theorem Hinge.mode_lateWr (h : Hinge) (b : Bool) : (h.putB Fld.HINGE_MODE_LATE_WR b).bit Fld.HINGE_MODE_MODE = h.bit Fld.HINGE_MODE_MODE :=
  congrArg (· != 0) (Hinge.get_put_disjoint _ Fld.HINGE_MODE_LATE_WR Fld.HINGE_MODE_MODE _ rfl (by decide) (by decide) (by decide))

theorem Hinge.up_lateWr (h : Hinge) (b : Bool) (i : LeafId) : (h.putB Fld.HINGE_MODE_LATE_WR b).up i = h.up i :=
  Hinge.up_congr (Hinge.rd_wr_other _ _ (by decide)) i

/-- LATE_WR shares its register with the mode and its lock, and no bit. -/
theorem Hinge.guarded_lateWr (h : Hinge) (b : Bool) : h.Guarded (h.putB Fld.HINGE_MODE_LATE_WR b) :=
  ⟨fun e => ⟨(Hinge.locked_lateWr h b).trans e, Hinge.mode_lateWr h b⟩, fun i e => (Hinge.up_lateWr h b i).trans e⟩

/-- The first write of HINGE_MODE locks the mode (R24). -/
def Hinge.lockMode (h : Hinge) (m : Bool) : Hinge :=
  let k := (h.putB Fld.HINGE_MODE_MODE m).putB Fld.HINGE_MODE_LOCKED true
  { k with agree := { k.agree with mayStart := m } }

theorem State.hinge_writeMode_of_locked (w : Nat) (h : s.hinge.bit Fld.HINGE_MODE_LOCKED = true) :
    (s.writeMode w).hinge = s.hinge.putB Fld.HINGE_MODE_LATE_WR (!bitOf w 1) := by
  unfold State.writeMode; rw [if_pos h]; rfl

theorem State.hinge_writeMode_of_open (w : Nat) (h : s.hinge.bit Fld.HINGE_MODE_LOCKED = false) :
    (s.writeMode w).hinge = s.hinge.lockMode (bitOf w 0) := by
  unfold State.writeMode
  rw [if_neg (by rw [h]; decide)]
  dsimp only
  rw [State.hinge_onLeaf, State.hinge_onLeaf]
  rfl

theorem Hinge.rd_lockMode (h : Hinge) (m : Bool) {a : Nat} (ha : Reg.HINGE_MODE ≠ a) : (h.lockMode m).rd a = h.rd a :=
  (Hinge.rd_wr_other _ _ ha).trans (Hinge.rd_wr_other _ _ ha)

theorem State.guarded_writeMode (w : Nat) (s : State) : s.hinge.Guarded (s.writeMode w).hinge := by
  cases hk : s.hinge.bit Fld.HINGE_MODE_LOCKED with
  | true => rw [State.hinge_writeMode_of_locked w hk]; exact Hinge.guarded_lateWr ..
  | false =>
    rw [State.hinge_writeMode_of_open w hk]
    exact ⟨fun e => (by rw [hk] at e; exact Bool.noConfusion e), fun i e => (Hinge.up_congr (Hinge.rd_lockMode _ _ (by decide)) i).trans e⟩

theorem State.guarded_writeLeafCtrl (w : Nat) (s : State) : s.hinge.Guarded (s.writeLeafCtrl w).hinge := by
  have hA : s.hinge.Guarded (if bitOf w 0 then s.resetLeaf .A 1 none else s).hinge := by
    split
    · exact State.guarded_resetLeaf ..
    · exact .refl _
  unfold State.writeLeafCtrl
  dsimp only
  split
  · exact hA.trans (State.guarded_resetLeaf ..)
  · exact hA

theorem Hinge.guarded_barCancel (h : Hinge) : h.Guarded h.barCancel := by
  refine Hinge.Guarded.putB ?_ _ _
  exact .of_rd rfl rfl

theorem State.guarded_barFire (s : State) : s.hinge.Guarded s.barFire.hinge := by
  unfold State.barFire
  extract_lets h i l p
  split
  · exact .refl _
  · split
    · refine Hinge.Guarded.putB ?_ _ _
      exact .of_rd rfl rfl
    · refine Hinge.Guarded.trans (Hinge.Guarded.putB (.refl _) Fld.HINGE_BAR_STAT_REFUSED true) ?_
      exact Hinge.guarded_message ..

theorem State.guarded_writeBarCtrl (w : Nat) (s : State) : s.hinge.Guarded (s.writeBarCtrl w).hinge := by
  have h1 : s.hinge.Guarded (s.onHinge fun h => h.swWrite Reg.HINGE_BAR_CTRL w).hinge :=
    Hinge.guarded_swWrite s.hinge Reg.HINGE_BAR_CTRL w (by decide)
  unfold State.writeBarCtrl
  dsimp only
  generalize s.onHinge (fun h => h.swWrite Reg.HINGE_BAR_CTRL w) = s1 at h1
  have h2 : s.hinge.Guarded (if bitOf w 30 then s1.onHinge Hinge.barCancel else s1).hinge := by
    split
    · exact h1.trans (Hinge.guarded_barCancel _)
    · exact h1
  split
  · exact h2.trans (State.guarded_barFire _)
  · exact h2

/-- A host boot fetch that starts is the leaf's. -/
theorem State.hinge_hostBootGo (i : LeafId) (s : State) : (s.hostBootGo i).hinge = s.hinge := by
  unfold State.hostBootGo
  split
  · rw [State.hinge_onLeaf]
  · rfl

theorem State.hinge_writeHboot (w : Nat) (s : State) : (s.writeHboot w).hinge = s.hinge := by
  unfold State.writeHboot
  dsimp only
  split <;> split <;> simp only [State.hinge_hostBootGo]

theorem Hinge.guarded_writeAgreeCfg (w : Nat) (h : Hinge) : h.Guarded (h.writeAgreeCfg w) := by
  unfold Hinge.writeAgreeCfg
  split
  · exact .refl h
  · exact Hinge.guarded_swWrite _ _ _ (by decide)

theorem Hinge.guarded_writeAgreeCtrl (w : Nat) (h : Hinge) : h.Guarded (h.writeAgreeCtrl w) := by
  unfold Hinge.writeAgreeCtrl
  split
  · exact .of_rd rfl rfl
  · exact .refl h

theorem State.guarded_writeAgreeStat (w : Nat) (s : State) : s.hinge.Guarded (s.writeAgreeStat w).hinge := by
  unfold State.writeAgreeStat
  split
  · exact Hinge.Guarded.put (Hinge.Guarded.putB (.refl s.hinge) Fld.HINGE_AGREE_STAT_FAULT false) Fld.HINGE_AGREE_STAT_CAUSE 0
  · exact .refl _

theorem State.guarded_groupTimeout (g : Nat) (s : State) : s.hinge.Guarded (s.groupTimeout g).hinge := by
  unfold State.groupTimeout
  split
  · exact Hinge.guarded_groupPump ..
  · exact .refl _

theorem State.guarded_writeCoal (g w : Nat) (s : State) : s.hinge.Guarded (s.writeCoal g w).hinge := by
  have h1 : s.hinge.Guarded (s.onHinge fun h => h.swWrite (Reg.HINGE_PCIE_CQG_COAL g) w).hinge :=
    Hinge.guarded_swWrite _ _ _ (by show 0x8300200 + 0x8 * g ≠ 0x8000004; omega)
  exact h1.trans (State.guarded_groupTimeout ..)

theorem State.guarded_hingeWrite (a w : Nat) (s : State) : s.hinge.Guarded (s.hingeWrite a w).hinge := by
  unfold State.hingeWrite
  split_ifs with _ hm
  · exact .refl _
  · exact State.guarded_writeMode ..
  · exact State.guarded_writeLeafCtrl ..
  · exact State.guarded_writeBarCtrl ..
  · rw [State.hinge_writeHboot]; exact .refl _
  · exact Hinge.guarded_writeAgreeCfg ..
  · exact Hinge.guarded_writeAgreeCtrl ..
  · exact State.guarded_writeAgreeStat ..
  · split
    · exact State.guarded_writeCoal ..
    · exact Hinge.guarded_swWrite _ _ _ hm

theorem State.guarded_pf0Write (a w : Nat) (s : State) : s.hinge.Guarded (s.pf0Write a w).hinge := by
  unfold State.pf0Write
  split
  · exact .refl _
  · split
    · exact (State.touches_leafWrite (b := False) False.elim _).guarded
    · exact State.guarded_hingeWrite ..

/-! ## Accesses of the host -/

theorem State.guarded_complete (data : List Byte) (ep abort : Bool) (s : State) : s.hinge.Guarded (s.complete data ep abort).hinge :=
  .of_rd rfl rfl

theorem State.guarded_noAnswer (i : LeafId) (s : State) : s.hinge.Guarded (s.noAnswer i).hinge :=
  (State.touches_noAnswer (b := False) id i s).guarded

theorem State.guarded_pf0Read (a : Nat) (s : State) : s.hinge.Guarded (s.pf0Read a).hinge := by
  unfold State.pf0Read
  split
  · exact .refl _
  · split
    · split
      · exact (State.guarded_noAnswer ..).trans (State.guarded_complete ..)
      · exact Hinge.Guarded.trans (by rw [State.hinge_onLeaf]; exact .refl _) (State.guarded_complete ..)
    · split
      · exact .refl _
      · exact State.guarded_complete ..

theorem State.guarded_apRefused (addr cause : Nat) (write : Bool) (s : State) : s.hinge.Guarded (s.apRefused addr cause write).hinge := by
  have h1 : s.hinge.Guarded (s.onHinge (Hinge.violation addr cause 0 write 0)).hinge := Hinge.guarded_violation ..
  unfold State.apRefused
  dsimp only
  split
  · exact h1
  · exact h1.trans (State.guarded_complete ..)

theorem State.guarded_aperture (o : Nat) (acc : HostAccess) (out : WordOutcome) (s : State) :
    s.hinge.Guarded (s.aperture o acc out).hinge := by
  unfold State.aperture
  dsimp only
  split
  · exact .refl _
  · split
    · split_ifs
      · exact State.guarded_apRefused ..
      · exact (State.guarded_noAnswer ..).trans (State.guarded_complete ..)
      · exact Hinge.Guarded.trans (by rw [State.hinge_setLeaf]; exact .refl _) (State.guarded_complete ..)
    · split_ifs
      · exact State.guarded_apRefused ..
      · exact State.guarded_noAnswer ..
      · exact State.guarded_apRefused ..
      · rw [State.hinge_setLeaf]; exact .refl _

theorem State.guarded_pf1Access (o : Nat) (acc : HostAccess) (s : State) : s.hinge.Guarded (s.pf1Access o acc).hinge := by
  have hv (cause : Nat) (write : Bool) : s.hinge.Guarded (s.onHinge (Hinge.violation o cause 1 write (o / 65536))).hinge :=
    Hinge.guarded_violation ..
  unfold State.pf1Access
  extract_lets w x i g v
  split
  · exact .refl _
  · split
    · split_ifs
      · exact .refl _
      · exact (hv ..).trans (State.guarded_complete ..)
      · exact (State.guarded_noAnswer ..).trans (State.guarded_complete ..)
      · exact State.guarded_complete ..
    · split_ifs
      · exact .refl _
      · exact hv ..
      · exact hv ..
      · exact State.guarded_noAnswer ..
      · exact (State.touches_sqDoorbell (b := False) id ..).guarded
      · exact (State.touches_cqDoorbell (b := False) id ..).guarded
      · exact .refl _

/-! ## The agreement checker -/

theorem State.guarded_agreeStart (n : Nat) (s : State) : s.hinge.Guarded (s.agreeStart n).hinge := by
  unfold State.agreeStart
  dsimp only
  split
  · rw [State.hinge_onLeaf, State.hinge_onLeaf, State.hinge_setHinge]
    refine Hinge.Guarded.putB (Hinge.Guarded.putB ?_ _ _) _ _
    exact .of_rd rfl rfl
  · exact .refl _

theorem State.guarded_boundaryAt (l : LeafId) (n : Nat) (late : Bool) (s : State) : s.hinge.Guarded (s.boundaryAt l n late).hinge := by
  unfold State.boundaryAt State.tickBoundary
  dsimp only
  split
  · split
    · refine Hinge.Guarded.trans ?_ (State.guarded_agreeStart ..)
      simp only [State.hinge_onLeaf]; exact .refl _
    · simp only [State.hinge_onLeaf]; exact .refl _
  · simp only [State.hinge_onLeaf]; exact .refl _

theorem State.guarded_stampPair (i : LeafId) (m p : StampMsg) (s : State) : s.hinge.Guarded (s.stampPair i m p).hinge := by
  have h1 : s.hinge.Guarded (s.onHinge fun h => { h with agree := h.agree.dropStamps m.src m.seq }).hinge := .of_rd rfl rfl
  unfold State.stampPair
  dsimp only
  simp only [State.hinge_onLeaf]
  split
  · exact h1.trans (State.guarded_agreeFault ..)
  · exact h1

theorem State.guarded_stampToHinge (i : LeafId) (s : State) : s.hinge.Guarded (s.stampToHinge i).hinge := by
  unfold State.stampToHinge
  split
  · exact .refl _
  · dsimp only
    split
    · simp only [State.hinge_onLeaf]; exact .refl _
    · split
      · refine Hinge.Guarded.trans (k := s.hinge) (.refl _) ?_
        rw [State.hinge_onHinge, State.hinge_onLeaf]; exact .of_rd rfl rfl
      · refine Hinge.Guarded.trans ?_ (State.guarded_stampPair ..)
        rw [State.hinge_onLeaf]; exact .refl _

theorem State.guarded_stampUnpaired (i : LeafId) (src seq : Nat) (s : State) : s.hinge.Guarded (s.stampUnpaired i src seq).hinge := by
  unfold State.stampUnpaired
  split
  · exact .refl _
  · dsimp only
    rw [State.hinge_onLeaf]
    refine Hinge.Guarded.trans ?_ (State.guarded_agreeFault ..)
    exact .of_rd rfl rfl

theorem State.guarded_digestArrives (i : LeafId) (m : DigestMsg) (s : State) : s.hinge.Guarded (s.digestArrives i m).hinge := by
  unfold State.digestArrives
  extract_lets a
  split
  · exact .refl _
  · split
    · exact .of_rd rfl rfl
    · have h1 : s.hinge.Guarded (s.setHinge { s.hinge with agree := a.dropDigests m.tick m.id }).hinge := .of_rd rfl rfl
      dsimp only
      split
      · split
        · exact h1.trans (State.guarded_agreeFault ..)
        · exact h1
      · split
        · exact h1.trans (State.guarded_agreeFault ..)
        · exact h1

theorem State.guarded_digestToHinge (i : LeafId) (s : State) : s.hinge.Guarded (s.digestToHinge i).hinge := by
  unfold State.digestToHinge
  split
  · exact .refl _
  · refine Hinge.Guarded.trans ?_ (State.guarded_digestArrives ..)
    rw [State.hinge_onLeaf]; exact .refl _

theorem State.guarded_digestMissing (i : LeafId) (tick : Nat) (id : Option Nat) (s : State) :
    s.hinge.Guarded (s.digestMissing i tick id).hinge := by
  unfold State.digestMissing
  dsimp only
  split
  · exact .refl _
  · refine Hinge.Guarded.trans ?_ (State.guarded_agreeFault ..)
    exact .of_rd rfl rfl

/-! ## The barrier -/

theorem State.guarded_barPulse (s : State) : s.hinge.Guarded s.barPulse.hinge := by
  unfold State.barPulse
  dsimp only
  split
  · exact .refl _
  · split
    · exact .refl _
    · refine Hinge.Guarded.putB ?_ _ _
      exact .of_rd rfl rfl

theorem State.guarded_barPulseEnd (s : State) : s.hinge.Guarded s.barPulseEnd.hinge := by
  unfold State.barPulseEnd
  dsimp only
  split
  · exact .refl _
  · split
    · exact .refl _
    · exact .of_rd rfl rfl

theorem State.guarded_barrierIn (s : State) : s.hinge.Guarded s.barrierIn.hinge := by
  refine Hinge.Guarded.trans ?_ (Hinge.guarded_message ..)
  exact Hinge.Guarded.putB (Hinge.Guarded.put (.refl s.hinge) Fld.HINGE_BAR_CNT_COUNT _) Fld.HINGE_BAR_STAT_SEEN true

/-! ## Resets -/

theorem State.guarded_hingeRelease (s : State) : s.hinge.Guarded s.hingeRelease.hinge := by
  unfold State.hingeRelease
  split
  · refine Hinge.Guarded.put (Hinge.Guarded.put ?_ _ _) _ _
    exact .of_rd rfl rfl
  · exact .refl _

theorem State.stepsTo_hingeCause (n : Nat) (s : State) : s.hinge.StepsTo (s.hingeCause n).hinge := by
  unfold State.hingeCause
  split
  · exact .guarded (.refl _)
  · exact .reset (State.justReset_hingeReset ..)

/-! ## Every command -/

/-- Command c takes s to s1, before settling, and the hinge takes one step. -/
structure State.HingeStep (c : Instr) (s s1 : State) : Prop where
  ends : exec c s = .next s1.settle
  hinge : s.hinge.StepsTo s1.hinge

theorem Hinge.Guarded.command {s1 : State} (g : s.hinge.Guarded s1.hinge) (e : exec c s = .next s1.settle) : s.HingeStep c s1 :=
  ⟨e, .guarded g⟩

/-- A PF0 write of a hinge register, with or without a field fixed. -/
theorem State.hingeStep_pf0Write {a w : Nat} (e : exec c s = .next (s.pf0Write a w).settle) : ∃ s1, s.HingeStep c s1 :=
  ⟨_, e, .guarded (State.guarded_pf0Write ..)⟩

theorem exec_hingeStep (c : Instr) (s : State) : ∃ s1, s.HingeStep c s1 := by
  cases hc : commandLeaf c with
  | some l =>
    obtain ⟨s1, h⟩ := exec_commandOf hc s
    exact ⟨s1, h.ends, h.hinge⟩
  | none =>
    cases c
    case powerOn => exact ⟨_, rfl, .reset s.justReset_powerOn⟩
    case resetNLow => exact ⟨_, rfl, State.stepsTo_hingeCause ..⟩
    case railUndervoltage rail =>
      cases rail
      case vddCore => exact ⟨_, rfl, .guarded (State.guarded_resetLeaf ..)⟩
      all_goals exact ⟨_, rfl, State.stepsTo_hingeCause ..⟩
    case hingeModeWrite | registerWrite | rstA | rstB | rearm | agreeFaultClear | barFire | barrierCancel | violLogClear | goA | goB =>
      exact State.hingeStep_pf0Write rfl
    case lockstep l =>
      refine ⟨_, rfl, .guarded ?_⟩
      split
      · exact State.guarded_resetLeaf ..
      · exact .refl _
    case watchdog l n =>
      have h1 : s.hinge.Guarded (s.onLeaf l fun x => x.adv n).hinge := by rw [State.hinge_onLeaf]; exact .refl _
      refine ⟨_, rfl, .guarded ?_⟩
      split
      · exact h1.trans (State.guarded_resetLeaf ..)
      · exact h1
    case perstNAssert => exact ⟨_, rfl, .guarded (Hinge.guarded_perstAssert _)⟩
    case perstNRelease => exact ⟨s.onHinge Hinge.perstRelease, rfl, .guarded (.of_rd rfl rfl)⟩
    case flr => exact ⟨_, rfl, .guarded (Hinge.guarded_flr ..)⟩
    case pcieConfigWrite => exact ⟨_, rfl, .guarded (Hinge.guarded_configWrite ..)⟩
    case linkStateChange => exact ⟨_, rfl, .guarded (Hinge.guarded_linkChange ..)⟩
    case resetNRelease => exact ⟨_, rfl, .guarded (State.guarded_hingeRelease _)⟩
    case stampToHinge => exact ⟨_, rfl, .guarded (State.guarded_stampToHinge ..)⟩
    case stampUnpaired => exact ⟨_, rfl, .guarded (State.guarded_stampUnpaired ..)⟩
    case digestToHinge => exact ⟨_, rfl, .guarded (State.guarded_digestToHinge ..)⟩
    case digestMissing => exact ⟨_, rfl, .guarded (State.guarded_digestMissing ..)⟩
    case tickBoundary | boundLate => exact ⟨_, rfl, .guarded (State.guarded_boundaryAt ..)⟩
    case registerRead => exact ⟨_, rfl, .guarded (State.guarded_pf0Read ..)⟩
    case apertureAccess => exact ⟨_, rfl, .guarded (State.guarded_aperture ..)⟩
    case pf1WindowAccess => exact ⟨_, rfl, .guarded (State.guarded_pf1Access ..)⟩
    case barrierInEdge ca cb =>
      refine ⟨_, rfl, .guarded ?_⟩
      split
      · exact .refl _
      · exact State.guarded_barrierIn _
    case barrierOutPulse n =>
      refine ⟨_, rfl, .guarded (Hinge.Guarded.trans ?_ (State.guarded_barPulse _))⟩
      rw [State.hinge_onLeaf]; exact .refl _
    case cqCoalesceTimeout g n =>
      refine ⟨_, rfl, .guarded ?_⟩
      unfold State.indexed
      split
      · refine Hinge.Guarded.trans ?_ (State.guarded_groupTimeout ..)
        rw [State.hinge_onLeaf]; exact .refl _
      · exact .refl _
    case pulseEnd pin n =>
      cases pin
      case barrierOut =>
        refine ⟨_, rfl, .guarded (Hinge.Guarded.trans ?_ (State.guarded_barPulseEnd _))⟩
        rw [State.hinge_onLeaf]; exact .refl _
      case gtrig | tickOut =>
        refine ⟨_, rfl, .guarded ?_⟩
        unfold State.event; rw [State.hinge_onLeaf]; exact .refl _
    all_goals cases hc

/-! ## Every step -/

/-- Settling leaves what a step of the hinge shows. -/
theorem State.stepsTo_settle {h : Hinge} (e : h.StepsTo s.hinge) : h.StepsTo s.settle.hinge := by
  have k := (settle_kept s).hinge
  cases e with
  | guarded g => exact .guarded (g.trans k.guarded)
  | reset r => exact .reset (State.justReset_settle r)
  | boots l b =>
    refine .boots l ⟨b.before, ?_, (k.rd Reg.HINGE_MODE fun _ => rfl).trans b.mode,
      (Hinge.up_congr (k.rd Reg.HINGE_LEAF_STAT fun _ => rfl) _).trans b.other⟩
    exact (Hinge.get_congr (k.rd (Reg.HINGE_BOOT_STAT (bootIx l)) fun x => by cases l <;> rfl)).trans b.after

theorem exec_stepsTo (h : exec c s = .next t) : s.hinge.StepsTo t.hinge := by
  obtain ⟨s1, e⟩ := exec_hingeStep c s
  obtain rfl : s1.settle = t := Host.Outcome.next.inj (e.ends.symm.trans h)
  exact State.stepsTo_settle e.hinge

end Sys2Proof.Machine
end

section
/-!
PROOFS. The mode is set once (R24); a leaf's window while the leaf is not up (R20, R513).
-/
namespace Sys2Proof.Machine

variable {s t : State} {i : LeafId}

theorem step_stepsTo (h : step s = .next t) : s.hinge.StepsTo t.hinge := by
  unfold step at h
  split at h
  · obtain rfl : idle s = t := Host.Outcome.next.inj h
    exact .guarded (.refl _)
  · rename_i c rest _
    exact exec_stepsTo (s := { s with pending := rest }) h

/-! ## The mode -/

/-- HINGE_MODE is none of the registers that settling writes. -/
theorem Hinge.Kept.bit_mode {h k : Hinge} (e : h.Kept k) {f : FieldRef} (hf : f.addr = Reg.HINGE_MODE) : k.bit f = h.bit f :=
  Hinge.bit_congr (hf ▸ e.rd Reg.HINGE_MODE fun _ => rfl)

theorem Hinge.locked_lockMode (h : Hinge) (m : Bool) : (h.lockMode m).bit Fld.HINGE_MODE_LOCKED = true :=
  Hinge.bit_putB_same _ Fld.HINGE_MODE_LOCKED true (by decide) (by decide)

theorem Hinge.mode_lockMode (h : Hinge) (m : Bool) : (h.lockMode m).bit Fld.HINGE_MODE_MODE = m :=
  (congrArg (· != 0) (Hinge.get_put_disjoint _ Fld.HINGE_MODE_LOCKED Fld.HINGE_MODE_MODE _ rfl (by decide) (by decide) (by decide))).trans
    (Hinge.bit_putB_same h Fld.HINGE_MODE_MODE m (by decide) (by decide))

theorem Hinge.lateWr_lockMode (h : Hinge) (m : Bool) : (h.lockMode m).bit Fld.HINGE_MODE_LATE_WR = h.bit Fld.HINGE_MODE_LATE_WR :=
  (congrArg (· != 0) (Hinge.get_put_disjoint _ Fld.HINGE_MODE_LOCKED Fld.HINGE_MODE_LATE_WR _ rfl (by decide) (by decide) (by decide))).trans
    (congrArg (· != 0) (Hinge.get_put_disjoint h Fld.HINGE_MODE_MODE Fld.HINGE_MODE_LATE_WR _ rfl (by decide) (by decide) (by decide)))

/-- While the hinge is out of reset HINGE_MODE_WRITE is the write of HINGE_MODE. -/
theorem exec_hingeModeWrite (w : Word) (hh : s.hinge.held = false) : exec (.hingeModeWrite w) s = .next (s.writeMode w.toNat).settle := by
  have e : s.hingeWrite Reg.HINGE_MODE w.toNat = s.writeMode w.toNat := by unfold State.hingeWrite; rw [hh]; rfl
  exact congrArg (fun x => Host.Outcome.next (State.settle x)) e

/-- Settles O11: the write by HINGE_MODE's fields, and over every step that it keeps a locked mode, or resets the hinge, or is the end of
a leaf's boot. -/
theorem modeSetOnceUntilHingeReset : Obligations.ModeSetOnceUntilHingeReset := by
  refine ⟨fun s w hh => ⟨_, exec_hingeModeWrite w hh, ?_⟩, fun s t h hl => ?_⟩
  · have k := (settle_kept (s.writeMode w.toNat)).hinge
    dsimp only
    rw [k.bit_mode (f := Fld.HINGE_MODE_LOCKED) rfl, k.bit_mode (f := Fld.HINGE_MODE_MODE) rfl,
      k.bit_mode (f := Fld.HINGE_MODE_LATE_WR) rfl]
    cases hl : s.hinge.bit Fld.HINGE_MODE_LOCKED with
    | true =>
      rw [State.hinge_writeMode_of_locked _ hl]
      exact ⟨(Hinge.locked_lateWr ..).trans hl, fun e => Bool.noConfusion e,
        fun _ => ⟨Hinge.mode_lateWr .., Hinge.bit_putB_same _ Fld.HINGE_MODE_LATE_WR _ (by decide) (by decide)⟩⟩
    | false =>
      rw [State.hinge_writeMode_of_open _ hl]
      exact ⟨Hinge.locked_lockMode .., fun _ => ⟨Hinge.mode_lockMode .., Hinge.lateWr_lockMode ..⟩, fun e => Bool.noConfusion e⟩
  · cases step_stepsTo h with
    | guarded g => exact .inl (g.mode hl)
    | reset r => exact .inr ⟨r.held, r.locked, r.mode⟩
    | boots l b => exact .inl ⟨(Hinge.bit_congr b.mode).trans hl, Hinge.bit_congr b.mode⟩

/-! ## A leaf that is not up -/

theorem State.noAnswer_of_not_up (hu : s.hinge.up i = false) : s.noAnswer i = s.onHinge fun h => h.countDrop i := by
  unfold State.noAnswer
  rw [hu]
  rfl

theorem State.opens_of_not_up (a : Nat) (hu : s.hinge.up i = false) : s.opens i a = false := by
  unfold State.opens; rw [hu]; rfl

theorem State.answers_of_not_up (hu : s.hinge.up i = false) : s.answers i = false := by
  unfold State.answers; rw [hu]; rfl

/-- Addresses of a leaf's window are aligned as its offsets are. -/
theorem leafBase_add_mod (i : LeafId) {a : Nat} (ha : a % 4 = 0) : (leafBase i + a) % 4 = 0 := by
  have h : leafBase i % 4 = 0 := by cases i <;> rfl
  omega

theorem State.pf0Write_of_not_up {a : Nat} (ha : a < 0x4000000) (h4 : a % 4 = 0) (hu : s.hinge.up i = false) (w : Nat) :
    s.pf0Write (leafBase i + a) w = s.onHinge fun h => h.countDrop i := by
  unfold State.pf0Write
  rw [if_neg (not_not.mpr (leafBase_add_mod i h4)), leafOf_leafBase i ha]
  dsimp only
  unfold State.leafWrite
  rw [State.opens_of_not_up a hu]
  exact State.noAnswer_of_not_up hu

theorem State.pf0Read_of_not_up {a : Nat} (ha : a < 0x4000000) (h4 : a % 4 = 0) (hu : s.hinge.up i = false) :
    s.pf0Read (leafBase i + a) = (s.onHinge fun h => h.countDrop i).complete (allOnes 4) false false := by
  unfold State.pf0Read
  rw [if_neg (not_not.mpr (leafBase_add_mod i h4)), leafOf_leafBase i ha]
  dsimp only
  rw [State.opens_of_not_up a hu, State.noAnswer_of_not_up hu]
  rfl

/-- The status copies of a PF1 window lie above its doorbells. -/
theorem statusCopy_of_doorbell (g : Nat) {x : Nat} (hx : x < 0x100) : statusCopy g x = none := by
  unfold statusCopy
  simp only [show ¬ 0x1000 ≤ x by omega, show x ≠ 0x1100 by omega, show x ≠ 0x1104 by omega, show x ≠ 0x1108 by omega,
    show x ≠ 0x110C by omega, false_and, if_false]

theorem leaf_of_windowOf {g : Nat} (i : LeafId) (hg : g < 8) : (if windowOf i g < 8 then LeafId.A else LeafId.B) = i := by
  cases i
  · exact if_pos (show 8 * 0 + g < 8 by omega)
  · exact if_neg (show ¬ 8 * 1 + g < 8 by omega)

/-- A doorbell write through an enabled window of a leaf that is not up is dropped (R20). -/
theorem State.pf1Access_of_not_up {g x : Nat} {bs : List Byte} (hg : g < 8) (hx : x < 0x100) (h4 : x % 4 = 0) (hl : bs.length = 4)
    (hw : s.hinge.winOn (windowOf i g) = true) (hu : s.hinge.up i = false) :
    s.pf1Access (65536 * windowOf i g + x) (.write bs) = s.onHinge fun h => h.countDrop i := by
  have hlt : windowOf i g < 16 := Nat.mul_div_cancel_left g (show 0 < 8 by decide) ▸ windowOf_lt i (8 * g) (by omega)
  have hd : (65536 * windowOf i g + x) / 65536 = windowOf i g := by omega
  have hm : (65536 * windowOf i g + x) % 65536 = x := by omega
  have hin : (decide (2 ^ 20 ≤ 65536 * windowOf i g + x) || (65536 * windowOf i g + x) % 4 != 0) = false := by
    rw [Bool.or_eq_false_iff]
    exact ⟨decide_eq_false (by omega), by rw [show (65536 * windowOf i g + x) % 4 = 0 by omega]; rfl⟩
  unfold State.pf1Access
  dsimp only
  rw [hd, hm, leaf_of_windowOf i hg, hin, hw, statusCopy_of_doorbell _ hx, State.answers_of_not_up hu]
  simp only [hl, Bool.false_eq_true, if_false, ne_eq, not_true_eq_false, Bool.not_true, Option.isSome_none, Bool.not_false, if_true]
  exact State.noAnswer_of_not_up hu

/-- A command that ends in s1, before settling, answers s1. -/
theorem answers_of_exec {c : Instr} {s1 : State} (h : exec c s = .next s1.settle) : Answers c s s1 := ⟨_, h, settle_kept s1⟩

/-- Settles O13: an access of a leaf that is not up is counted and does no more; UP is set by no command but the end of boot phase 6. -/
theorem leafWindowNotUp : Obligations.LeafWindowNotUp := by
  refine ⟨fun s i a ha h4 hu => ⟨fun w => answers_of_exec ?_, answers_of_exec ?_⟩, fun s i g k x bs hg hk hx hl hw hu => answers_of_exec ?_,
    fun s t i h hu hup => ?_⟩
  · exact congrArg (fun x => Host.Outcome.next (State.settle x)) (State.pf0Write_of_not_up ha h4 hu w.toNat)
  · exact congrArg (fun x => Host.Outcome.next (State.settle x)) (State.pf0Read_of_not_up ha h4 hu)
  · rw [Nat.add_assoc]
    exact congrArg (fun x => Host.Outcome.next (State.settle x)) (State.pf1Access_of_not_up hg (by omega) (by omega) hl hw hu)
  · cases step_stepsTo h with
    | guarded g => rw [g.up i hu] at hup; cases hup
    | reset r => rw [r.up i] at hup; cases hup
    | boots l b =>
      rcases LeafId.eq_or_other l i with rfl | rfl
      · exact ⟨b.before, b.after⟩
      · rw [b.other, hu] at hup; cases hup

end Sys2Proof.Machine
end

section
/-!
PROOFS. The reset commands: the hinge reset (R509, R549, R556), the reset of one leaf (R19, R513, R529) and of both (R23).
-/
namespace Sys2Proof.Machine

variable {s t : State} {i : LeafId} {c : Instr}

/-! ## Releasing a leaf -/

theorem Leaf.boot_takeLatches (l : Leaf) : l.takeLatches.boot = l.boot :=
  Leaf.boot_foldl _ _ l fun n k => by split <;> simp -implicitDefEqProofs

theorem Leaf.held_release (l : Leaf) : l.release.boot.held = false := congrArg BootState.held (Leaf.boot_takeLatches _)

/-- The release of the hinge reset lets both leaves start phase 1 (R509). -/
def Hinge.released (h : Hinge) : Hinge :=
  (({ h with held := false }).put (Fld.HINGE_BOOT_STAT_PHASE 0) 1).put (Fld.HINGE_BOOT_STAT_PHASE 1) 1

theorem Hinge.phase_released (h : Hinge) (i : LeafId) : h.released.phase i = 1 := by
  cases i with
  | A =>
    exact (Hinge.get_put_other _ (Fld.HINGE_BOOT_STAT_PHASE 1) (Fld.HINGE_BOOT_STAT_PHASE 0) 1 (by decide)).trans
      (Hinge.get_put_same _ (Fld.HINGE_BOOT_STAT_PHASE 0) 1 (by decide) (by decide))
  | B => exact Hinge.get_put_same _ (Fld.HINGE_BOOT_STAT_PHASE 1) 1 (by decide) (by decide)

theorem State.hinge_hingeRelease (hh : s.hinge.held = true) : s.hingeRelease.hinge = s.hinge.released := by
  unfold State.hingeRelease; rw [if_pos hh]; rfl

theorem State.leaf_hingeRelease (hh : s.hinge.held = true) (i : LeafId) : s.hingeRelease.leaf i = (s.leaf i).release := by
  unfold State.hingeRelease; rw [if_pos hh]; cases i <;> rfl

/-- Settling leaves the boot phases. -/
theorem State.phase_settle (s : State) (i : LeafId) : s.settle.hinge.phase i = s.hinge.phase i :=
  Hinge.get_congr ((settle_kept s).hinge.rd (Reg.HINGE_BOOT_STAT (bootIx i)) fun x => by cases i <;> rfl)

/-! ## The hinge reset -/

theorem State.leaf_hingeReset (s : State) (n : Nat) (i : LeafId) : (s.hingeReset n).leaf i = (s.leaf i).reset none := by cases i <;> rfl

theorem State.cause_hingeReset (s : State) {n : Nat} (hn : n < 4) : (s.hingeReset n).settle.hinge.get Fld.HINGE_RST_STAT_CAUSE = n :=
  (Hinge.get_congr ((settle_kept (s.hingeReset n)).hinge.rd Reg.HINGE_RST_STAT fun _ => rfl)).trans
    (Hinge.cause_of_regs (h := (s.hingeReset n).hinge) rfl hn)

/-- The commands that reset the hinge, each with its cause. -/
theorem exec_hingeCause {n : Nat} (h : (c, n) ∈ [(Instr.resetNLow, 1), (.railUndervoltage .vddIo18, 2), (.railUndervoltage .vddSram, 2),
    (.railUndervoltage .vddqDram, 2), (.railUndervoltage .vccFlash, 2), (.railUndervoltage .vccqFlash, 2), (.railUndervoltage .vddPhy, 2)])
    (s : State) : exec c s = .next (s.hingeCause n).settle ∧ n < 4 := by
  simp only [List.mem_cons, List.not_mem_nil, or_false, Prod.mk.injEq] at h
  rcases h with ⟨rfl, rfl⟩ | ⟨rfl, rfl⟩ | ⟨rfl, rfl⟩ | ⟨rfl, rfl⟩ | ⟨rfl, rfl⟩ | ⟨rfl, rfl⟩ | ⟨rfl, rfl⟩ <;> exact ⟨rfl, by decide⟩

/-- Settles O7: what hingeReset and hingeRelease write, carried through settling. -/
theorem hingeResetCommands : Obligations.HingeResetCommands := by
  refine ⟨fun s => answers_of_exec (s1 := s.powerOn) rfl, fun s c n hc => ?_, fun s hh => ⟨_, rfl, ?_, fun i => ?_⟩⟩
  · obtain ⟨he, hn⟩ := exec_hingeCause hc s
    unfold State.hingeCause at he
    split
    · rename_i hh; rw [if_pos hh] at he; exact answers_of_exec he
    · rename_i hh
      rw [if_neg hh] at he
      have r := State.justReset_settle (State.justReset_hingeReset s n)
      refine ⟨_, he, r.held, r.locked, State.cause_hingeReset s hn, fun i => ?_⟩
      have k := (settle_kept (s.hingeReset n)).leaf i
      rw [State.leaf_hingeReset] at k
      have ha : ((s.hingeReset n).settle.leaf i).aon = (s.leaf i).aonAfterReset none := k.aon
      exact ⟨congrArg BootState.held k.boot, r.up i, k.dram rfl, k.tick, k.fab, k.fuses, k.flash, by rw [ha]; rfl, by rw [ha]; rfl⟩
  · exact (settle_kept s.hingeRelease).hinge.held.trans (congrArg Hinge.held (State.hinge_hingeRelease hh))
  · refine ⟨(State.phase_settle _ i).trans ?_, (congrArg BootState.held ((settle_kept s.hingeRelease).leaf i).boot).trans ?_⟩
    · rw [State.hinge_hingeRelease hh]; exact Hinge.phase_released ..
    · rw [State.leaf_hingeRelease hh]; exact Leaf.held_release _

/-! ## HINGE_LEAF_CTRL -/

theorem bitOf_setBits_same (w n : Nat) : bitOf (setBits w n n 1) n = true := by
  unfold bitOf; rw [testBit_setBits _ _ _ _ _ le_rfl]; simp

theorem bitOf_setBits_other (w v : Nat) {n k : Nat} (h : k ≠ n) : bitOf (setBits w n n v) k = bitOf w k := by
  unfold bitOf; rw [testBit_setBits _ _ _ _ _ le_rfl, if_neg (by omega)]

/-- The write of HINGE_LEAF_CTRL that RST_A or RST_B of leaf i is. -/
def rstCommand (i : LeafId) (w : Word) : Instr :=
  match i with
  | .A => .rstA w
  | .B => .rstB w

/-- The write leaves the other leaf's reset bit 0. -/
def rstAlone (i : LeafId) (w : Word) : Prop :=
  match i with
  | .A => bitOf w.toNat 1 = false
  | .B => bitOf w.toNat 0 = false

theorem State.hingeWrite_of_held (a w : Nat) (hh : s.hinge.held = true) : s.hingeWrite a w = s := by
  unfold State.hingeWrite; rw [hh]; rfl

theorem State.hingeWrite_leafCtrl (w : Nat) (hh : s.hinge.held = false) : s.hingeWrite Reg.HINGE_LEAF_CTRL w = s.writeLeafCtrl w := by
  unfold State.hingeWrite; rw [hh]; rfl

/-- The reset bits of both leaves at once (R23). -/
theorem State.writeLeafCtrl_both {w : Nat} (hA : bitOf w 0 = true) (hB : bitOf w 1 = true) :
    s.writeLeafCtrl w = (s.resetLeaf .A 1 none).resetLeaf .B 1 none := by
  unfold State.writeLeafCtrl; dsimp only; rw [if_pos hA, if_pos hB]

theorem State.writeLeafCtrl_A {w : Nat} (hA : bitOf w 0 = true) (hB : bitOf w 1 = false) : s.writeLeafCtrl w = s.resetLeaf .A 1 none := by
  unfold State.writeLeafCtrl; dsimp only; rw [if_pos hA, if_neg (Bool.eq_false_iff.mp hB)]

theorem State.writeLeafCtrl_B {w : Nat} (hA : bitOf w 0 = false) (hB : bitOf w 1 = true) : s.writeLeafCtrl w = s.resetLeaf .B 1 none := by
  unfold State.writeLeafCtrl; dsimp only; rw [if_neg (Bool.eq_false_iff.mp hA), if_pos hB]

/-- RST_A or RST_B alone resets its leaf with cause 1, unless the hinge is in reset. -/
theorem exec_rstCommand {w : Word} (hw : rstAlone i w) (s : State) :
    exec (rstCommand i w) s = .next (if s.hinge.held then s else s.resetLeaf i 1 none).settle := by
  have hx (v : Nat) (h : bitOf v i.toNat = true) (h' : bitOf v i.other.toNat = false) :
      s.hingeWrite Reg.HINGE_LEAF_CTRL v = if s.hinge.held then s else s.resetLeaf i 1 none := by
    split
    · exact State.hingeWrite_of_held _ _ ‹_›
    · rw [State.hingeWrite_leafCtrl _ (Bool.eq_false_iff.mpr ‹_›)]
      cases i
      · exact State.writeLeafCtrl_A h h'
      · exact State.writeLeafCtrl_B h' h
  cases i
  · exact congrArg (fun x => Host.Outcome.next (State.settle x))
      (hx (setBits w.toNat 0 0 1) (bitOf_setBits_same ..) ((bitOf_setBits_other _ _ (show 1 ≠ 0 by decide)).trans hw))
  · exact congrArg (fun x => Host.Outcome.next (State.settle x))
      (hx (setBits w.toNat 1 1 1) (bitOf_setBits_same ..) ((bitOf_setBits_other _ _ (show 0 ≠ 1 by decide)).trans hw))

/-- RST_A with the bit of leaf B set resets both leaves (R23). -/
theorem exec_rstA_both {w : Word} (hh : s.hinge.held = false) (hB : bitOf w.toNat 1 = true) :
    exec (.rstA w) s = .next ((s.resetLeaf .A 1 none).resetLeaf .B 1 none).settle := by
  have e : s.hingeWrite Reg.HINGE_LEAF_CTRL (setBits w.toNat 0 0 1) = (s.resetLeaf .A 1 none).resetLeaf .B 1 none := by
    rw [State.hingeWrite_leafCtrl _ hh]
    exact State.writeLeafCtrl_both (bitOf_setBits_same ..) ((bitOf_setBits_other _ _ (show 1 ≠ 0 by decide)).trans hB)
  exact congrArg (fun x => Host.Outcome.next (State.settle x)) e

/-! ## The other requests of a leaf reset -/

/-- The count of a leaf that goes on is all that changes. -/
theorem Leaf.adv_eq (l : Leaf) (n : Nat) : ∃ k, l.adv n = { l with count := k } := by
  unfold Leaf.adv
  split
  · exact ⟨_, rfl⟩
  · exact ⟨l.count, rfl⟩

theorem Leaf.Restarted.of_adv {l m : Leaf} {n : Nat} (h : (l.adv n).Restarted m) : l.Restarted m := by
  obtain ⟨k, e⟩ := l.adv_eq n
  rw [e] at h
  exact { h with }

theorem Leaf.boot_adv (l : Leaf) (n : Nat) : (l.adv n).boot = l.boot := by
  obtain ⟨k, e⟩ := l.adv_eq n
  rw [e]

theorem Leaf.sleep_adv (l : Leaf) (n : Nat) : (l.adv n).sleep = l.sleep := by
  obtain ⟨k, e⟩ := l.adv_eq n
  rw [e]; rfl

theorem exec_lockstep (i : LeafId) (s : State) :
    exec (.lockstep i) s = .next (if (s.leaf i).sleep = 0 then s.resetLeaf i 2 (some (0x03, 0x00)) else s).settle := rfl

theorem exec_watchdog (i : LeafId) (n : Nat) (s : State) :
    exec (.watchdog i n) s = .next (if (s.leaf i).sleep = 0 then (s.onLeaf i fun x => x.adv n).resetLeaf i 3 (some (0x04, 0x00))
      else s.onLeaf i fun x => x.adv n).settle := by
  have e : ((s.onLeaf i fun x => x.adv n).leaf i).sleep = (s.leaf i).sleep := by rw [State.leaf_onLeaf_same, Leaf.sleep_adv]
  rw [← e]; rfl

theorem exec_vddCore (i : LeafId) (s : State) :
    exec (.railUndervoltage (.vddCore i)) s = .next (s.resetLeaf i 4 (some (0x0E, 0x05))).settle := rfl

/-- What the reset of leaf i by a command leaves: of the leaf, of its marks in the hinge, and of the other leaf. -/
structure State.LeafWasReset (i : LeafId) (cause : Nat) (s t : State) : Prop where
  marks : t.hinge.ShowsReset i cause
  leaf : (s.leaf i).Restarted (t.leaf i)
  other : s.hinge.active = false → (s.leaf i.other).Kept (t.leaf i.other)

theorem State.leafWasReset_resetLeaf {cause : Nat} (f : Option (Nat × Nat)) (hb : (s.leaf i).boot.held = false) (hc : cause < 16) :
    s.LeafWasReset i cause (s.resetLeaf i cause f).settle where
  marks := State.showsReset_settle (State.showsReset_resetLeaf f hb hc)
  leaf := State.restarted_settle (State.restarted_resetLeaf cause f hb)
  other ha := State.leaf_other_resetLeaf i cause f ha ▸ (settle_kept (s.resetLeaf i cause f)).leaf i.other

/-- A reset right after the leaf's count has gone on. -/
theorem State.LeafWasReset.of_adv {cause n : Nat} (h : (s.onLeaf i fun x => x.adv n).LeafWasReset i cause t) : s.LeafWasReset i cause t where
  marks := h.marks
  leaf := by
    have hl := h.leaf
    rw [State.leaf_onLeaf_same] at hl
    exact hl.of_adv
  other ha := by
    have ho := h.other (by rw [State.hinge_onLeaf]; exact ha)
    rw [State.leaf_onLeaf_other] at ho
    exact ho

/-- Settles O8: each of the commands resets the leaf with its cause, and settling keeps what a reset leaves. -/
theorem leafResetCommands : Obligations.LeafResetCommands := by
  intro s i c cause hb h
  suffices hx : ∃ t, exec c s = .next t ∧ s.LeafWasReset i cause t by
    obtain ⟨t, he, hm, hl, ho⟩ := hx
    refine ⟨t, he, hm.up, hm.phase, ?_, hl.dram, hl.tick, hl.fab, hl.mem, hl.count, hl.fuses, hl.flash, hl.boot, ho⟩
    cases i <;> exact hm.lastRst
  rcases h with ⟨w, hc, rfl, hh, hw⟩ | ⟨rfl, rfl, hs⟩ | ⟨n, rfl, rfl, hs⟩ | ⟨rfl, rfl⟩
  · obtain rfl : c = rstCommand i w := hc.trans (by cases i <;> rfl)
    have hw' : rstAlone i w := by cases i <;> exact hw
    refine ⟨_, (exec_rstCommand hw' s).trans ?_, State.leafWasReset_resetLeaf none hb (by decide)⟩
    rw [if_neg (Bool.eq_false_iff.mp hh)]
  · refine ⟨_, (exec_lockstep i s).trans ?_, State.leafWasReset_resetLeaf (some (0x03, 0x00)) hb (by decide)⟩
    rw [if_pos hs]
  · refine ⟨_, (exec_watchdog i n s).trans ?_, .of_adv (n := n) (State.leafWasReset_resetLeaf (some (0x04, 0x00)) ?_ (by decide))⟩
    · rw [if_pos hs]
    · rw [State.leaf_onLeaf_same, Leaf.boot_adv]; exact hb
  · exact ⟨_, exec_vddCore i s, State.leafWasReset_resetLeaf (some (0x0E, 0x05)) hb (by decide)⟩

/-- Settles O9: resetLeaf does nothing to a leaf in reset; both bits together are a reset of A and then one of B, which touches neither
the marks nor, with the checker no longer active, the leaf A. -/
theorem resetRequestInReset : Obligations.ResetRequestInReset := by
  refine ⟨fun s i hb => ⟨fun w hw => ?_, ?_, fun n => ?_, ?_⟩, fun s w hh hA hB hw => ⟨_, exec_rstA_both hh hw, ?_⟩⟩
  · have hw' : rstAlone i w := by cases i <;> exact hw
    have e : Answers (rstCommand i w) s s := by
      refine answers_of_exec ((exec_rstCommand hw' s).trans ?_)
      rw [State.resetLeaf_of_held 1 none hb, ite_self]
    cases i <;> exact e
  · refine answers_of_exec ((exec_lockstep i s).trans ?_)
    rw [State.resetLeaf_of_held 2 _ hb, ite_self]
  · refine answers_of_exec ((exec_watchdog i n s).trans ?_)
    rw [State.resetLeaf_of_held 3 _ (by rw [State.leaf_onLeaf_same, Leaf.boot_adv]; exact hb), ite_self]
  · refine answers_of_exec ((exec_vddCore i s).trans ?_)
    rw [State.resetLeaf_of_held 4 _ hb]
  · have mA := State.showsReset_resetLeaf (s := s) (i := .A) (c := 1) none hA (by decide)
    have lA := State.restarted_resetLeaf (s := s) (i := .A) 1 none hA
    have hA' : (s.resetLeaf .A 1 none).hinge.active = false := State.active_resetLeaf 1 none hA
    have hB' : ((s.resetLeaf .A 1 none).leaf .B).boot.held = false :=
      (congrArg BootState.held (State.boot_other_resetLeaf s .A 1 none)).trans hB
    generalize s.resetLeaf .A 1 none = s1 at *
    have mA2 := State.showsReset_settle (State.showsReset_resetLeaf_other (i := .B) 1 none hB' mA)
    have lA2 := State.restarted_settle (i := .A) ((State.leaf_other_resetLeaf .B 1 none hA').symm ▸ lA)
    have rB := State.leafWasReset_resetLeaf (i := .B) (cause := 1) none hB' (by decide)
    refine ⟨mA2.lastRst, rB.marks.lastRst, fun i => ?_⟩
    cases i
    · exact ⟨mA2.up, lA2.dram, lA2.tick, mA2.phase⟩
    · exact ⟨rB.marks.up, rB.leaf.dram, rB.leaf.tick, rB.marks.phase⟩

end Sys2Proof.Machine
end

section
/-!
PROOFS. Commands of one leaf that runs: the state that an event or a register write of the leaf leads to before settling, and what
settling keeps of the leaf's time unit and switch.
-/
namespace Sys2Proof.Machine

variable {s : State} {i : LeafId} {l m k : Leaf} {c : Instr}

/-! ## The state a command leads to -/

/-- A command that works on leaf i alone: its leaf is what the command makes of it, the other one is kept. -/
theorem answersWith_of_setLeaf {P : State → Prop} (e : exec c s = .next (s.setLeaf i m).settle)
    (h : ∀ t : State, m.Kept (t.leaf i) → (s.leaf i.other).Kept (t.leaf i.other) → P t) : AnswersWith c s P := by
  have kept := settle_kept (s.setLeaf i m)
  have hm := kept.leaf i
  have ho := kept.leaf i.other
  rw [State.leaf_setLeaf_same] at hm
  rw [State.leaf_setLeaf_other] at ho
  exact ⟨_, e, h _ hm ho⟩

theorem Leaf.runs_of_ready (h : s.ready i = true) : (s.leaf i).runs = true := (Bool.and_eq_true_iff.mp h).2

theorem Leaf.sleep_of_runs (h : l.runs = true) : l.sleep = 0 := beq_iff_eq.mp (Bool.and_eq_true_iff.mp h).2

theorem Leaf.timed_of_runs (h : l.runs = true) : l.timed = true := by
  have hb : l.booted = true := (Bool.and_eq_true_iff.mp h).1
  simp [Leaf.timed, hb, Leaf.sleep_of_runs h]

/-- A part of the leaf that does not depend on the local count is the same after the count has gone on. -/
theorem Leaf.adv_congr {α : Type} (g : Leaf → α) (n : Nat) (h : ∀ x, g { l with count := x } = g l) : g (l.adv n) = g l := by
  obtain ⟨x, e⟩ := l.adv_eq n
  rw [e, h]

theorem Leaf.time_adv (l : Leaf) (n : Nat) : (l.adv n).time = l.time := Leaf.adv_congr Leaf.time n fun _ => rfl

theorem Leaf.sw_adv (l : Leaf) (n : Nat) : (l.adv n).sw = l.sw := Leaf.adv_congr Leaf.sw n fun _ => rfl

theorem Leaf.runs_adv (n : Nat) : (l.adv n).runs = l.runs := Leaf.adv_congr Leaf.runs n fun _ => rfl

theorem Leaf.timed_adv_of_ready (h : s.ready i = true) (n : Nat) : ((s.leaf i).adv n).timed = true :=
  Leaf.timed_of_runs ((Leaf.runs_adv n).trans (Leaf.runs_of_ready h))

/-- An event whose condition holds at its count. -/
theorem State.event_of_ok {ok : Leaf → Bool} {f : Leaf → Leaf} {n : Nat} (h : ok ((s.leaf i).adv n) = true) :
    s.event i n ok f = s.setLeaf i (f ((s.leaf i).adv n)) := by
  unfold State.event State.onLeaf
  dsimp only
  rw [if_pos h]

/-- An event of the time unit or the switch of a leaf that runs. -/
theorem State.event_of_ready {f : Leaf → Leaf} (h : s.ready i = true) (n : Nat) :
    s.event i n Leaf.timed f = s.setLeaf i (f ((s.leaf i).adv n)) := State.event_of_ok (Leaf.timed_adv_of_ready h n)

theorem State.indexed_of_lt {n x : Nat} (f : State → State) (h : x < n) : s.indexed n x f = f s := if_pos h

/-- A write of a register of the time unit or the switch of a leaf that runs. -/
theorem State.regWrite_of_ready {a : Nat} (h : s.ready i = true) (w : Nat) (h4 : a % 4 = 0) (ha : 0x200000 ≤ a ∧ a < 0x400000) :
    s.regWrite i a w = s.setLeaf i ((s.leaf i).writeReg a w) := by
  have hd := (noDoorbell_iff a).mp (noDoorbell_of_outside (by omega))
  unfold State.regWrite State.pf0Write
  rw [if_neg (not_not.mpr (leafBase_add_mod i h4)), leafOf_leafBase i (by omega)]
  dsimp only
  unfold State.leafWrite
  rw [State.opens_of_ready a h, hd.1, hd.2]
  dsimp only
  rw [if_neg (by decide), if_neg (show ¬ a = 0x100000 by omega)]
  rfl

/-! ## What settling keeps -/

/-- No register of the time unit settles but TIME_VT_STAT. -/
theorem settles_timeReg {a : Nat} (ha : 0x200100 ≤ a ∧ a < 0x300000) (x : Nat) : settles a x = false := by
  rw [settles_def, if_neg (by omega), if_neg (by omega), if_neg (by omega), if_neg (by omega), if_neg (by omega)]
  simp only [Bool.or_eq_false_iff, Bool.and_eq_false_iff, beq_eq_false_iff_ne, decide_eq_false_iff_not]
  omega

/-- A field of the time unit's domains and triggers. -/
theorem Leaf.Kept.timeBit (h : m.Kept k) (f : FieldRef) (hf : 0x200100 ≤ f.addr ∧ f.addr < 0x300000) : k.bit f = m.bit f := by
  unfold Leaf.bit
  rw [h.get f fun x _ _ => settles_timeReg hf x]

theorem Leaf.Kept.dom (h : m.Kept k) (d : Nat) : k.time.dom d = m.time.dom d := by rw [h.time]; rfl

theorem Leaf.Kept.trig (h : m.Kept k) (n : Nat) : k.trig n = m.trig n := by unfold Leaf.trig; rw [h.time]

theorem Leaf.Kept.port (h : m.Kept k) (p : Nat) : k.port p = m.port p := by unfold Leaf.port; rw [h.sw]

/-! ## Events and counters change the interrupt controller and the counters alone -/

theorem Leaf.IrqOnly.time (h : l.IrqOnly m) : m.time = l.time := by rw [h.eq]

theorem Leaf.IrqOnly.bit (h : l.IrqOnly m) (f : FieldRef) (hf : f.addr / 2 ^ 20 ≠ 4) : m.bit f = l.bit f := by
  unfold Leaf.bit; rw [h.get f hf]

/-- A flag set, and its event. -/
theorem Leaf.irq_flagEvent (l : Leaf) (f : FieldRef) {x : Nat} (hx : x < 512) : (l.putB f true).IrqOnly (l.flagEvent f x) :=
  Leaf.irq_raise _ x hx

theorem Leaf.time_flagEvent (l : Leaf) (f : FieldRef) {x : Nat} (hx : x < 512) : (l.flagEvent f x).time = l.time :=
  (l.irq_flagEvent f hx).time

/-! ## Lists -/

theorem length_setAt {α : Type} (xs : List α) (n : Nat) (v : α) : (setAt xs n v).length = xs.length := by
  induction xs generalizing n with
  | nil => rfl
  | cons x t ih => cases n with
    | zero => rfl
    | succ n => simp [setAt, ih]

theorem getD_setAt_same {α : Type} {xs : List α} {n : Nat} (v d : α) (h : n < xs.length) : (setAt xs n v).getD n d = v := by
  induction xs generalizing n with
  | nil => exact absurd h (Nat.not_lt_zero n)
  | cons x t ih => cases n with
    | zero => rfl
    | succ n => simpa [setAt] using ih (Nat.lt_of_succ_lt_succ h)

theorem getD_modAt_same {α : Type} {xs : List α} {n : Nat} (f : α → α) (d : α) (h : n < xs.length) :
    (modAt xs n f).getD n d = f (xs.getD n d) := by
  induction xs generalizing n with
  | nil => exact absurd h (Nat.not_lt_zero n)
  | cons x t ih => cases n with
    | zero => rfl
    | succ n => simpa [modAt] using ih (Nat.lt_of_succ_lt_succ h)

theorem Leaf.trig_setTrig {n : Nat} (x : Trigger) (h : n < l.time.trigs.length) : (l.setTrig n x).trig n = x := getD_setAt_same x {} h

theorem Leaf.port_setPort {p : Nat} (x : SwPort) (h : p < l.sw.ports.length) : (l.setPort p x).port p = x := getD_setAt_same x {} h

theorem Leaf.dom_setDom (l : Leaf) (d : Nat) (x : Domain) : (l.setDom d x).time.dom d = x := by
  unfold Leaf.setDom TimeState.setDom TimeState.dom
  by_cases h : d = 0
  · simp only [if_pos h]
  · simp only [if_neg h]

/-- A fold whose steps all keep a part of the leaf. -/
theorem Leaf.foldl_congr {α β : Type} (g : Leaf → β) (f : Leaf → α → Leaf) (xs : List α) (l : Leaf)
    (h : ∀ x ∈ xs, ∀ k, g (f k x) = g k) : g (xs.foldl f l) = g l := by
  induction xs generalizing l with
  | nil => rfl
  | cons x t ih => exact (ih (f l x) fun y hy => h y (by simp [hy])).trans (h x (by simp) l)

end Sys2Proof.Machine
end

section
/-!
PROOFS. Commits of the domain clocks (R49 to R52): RATE, STEP and SET.
-/
namespace Sys2Proof.Machine

variable {s : State} {i : LeafId} {l : Leaf} {d n c : Nat}

/-! ## The clock -/

theorem Domain.time_lt (x : Domain) (c : Nat) : x.time c < mod80 := Nat.mod_lt _ (by decide)

/-- At its origin a clock shows the origin's time. -/
theorem Domain.time_originCount (x : Domain) (h : x.originQ16 < mod80) : x.time x.originCount = x.originQ16 := by
  unfold Domain.time
  rw [Nat.sub_self, Nat.zero_mul, Nat.zero_shiftRight, Nat.add_zero, Nat.mod_eq_of_lt h]

/-- A commit puts the origin at the clock's own time, shifted modulo 2^80 (R50). -/
theorem Domain.originQ16_commit (x : Domain) (c rate : Nat) (shift : Int) :
    ((x.commit c rate shift).originQ16 : Int) = ((x.time c : Int) + shift) % 2 ^ 80 :=
  Int.toNat_of_nonneg (Int.emod_nonneg _ (by decide))

theorem Domain.originQ16_commit_zero (x : Domain) (c rate : Nat) : (x.commit c rate 0).originQ16 = x.time c := by
  have h : ((x.commit c rate 0).originQ16 : Int) = x.time c := by
    rw [Domain.originQ16_commit, Int.add_zero]
    exact Int.emod_eq_of_lt (Int.natCast_nonneg _) (Int.ofNat_lt.mpr (x.time_lt c))
  exact Int.ofNat.inj h

/-- A commit that shifts the clock to a time makes it read that time. -/
theorem Domain.time_commit_to (x : Domain) (c rate : Nat) {ofs : Nat} (h : ofs < mod80) :
    (x.commit c rate ((ofs : Int) - (x.time c : Int))).time c = ofs := by
  have ho : (x.commit c rate ((ofs : Int) - (x.time c : Int))).originQ16 = ofs := by
    refine Int.ofNat.inj ((Domain.originQ16_commit ..).trans ?_)
    rw [add_sub_cancel]
    exact Int.emod_eq_of_lt (Int.natCast_nonneg _) (Int.ofNat_lt.mpr h)
  exact (Domain.time_originCount _ (ho.symm ▸ h)).trans ho

theorem Leaf.writtenOfs_lt (l : Leaf) (d : Nat) : l.writtenOfs d < mod80 := by
  have hlo := l.rd_lt (Reg.TIME_D_OFS_LO d)
  have hhi := l.rd_lt (Reg.TIME_D_OFS_HI d)
  have hf : l.get (Fld.TIME_D_OFS_FRAC_OFS d) < 2 ^ 16 := bitsOf_lt _ _ _
  unfold Leaf.writtenOfs mod80
  omega

/-! ## What follows a commit: triggers passed over, exposure triggers set anew -/

theorem Leaf.time_missTrig (l : Leaf) (x : Nat) (hn : n < 16) : (l.missTrig n x).time = l.time :=
  Leaf.time_flagEvent _ _ (by omega)

theorem Leaf.dom_disarmTrig (l : Leaf) (n d : Nat) : (l.disarmTrig n).time.dom d = l.time.dom d := rfl

theorem Leaf.dom_setTrig (l : Leaf) (n d : Nat) (x : Trigger) : (l.setTrig n x).time.dom d = l.time.dom d := rfl

theorem Leaf.dom_bridge (l : Leaf) (b : Int) (n d : Nat) :
    ({ l with time := { l.time with bridge := b, bridgeAt := n } } : Leaf).time.dom d = l.time.dom d := rfl

theorem Leaf.dom_skipTrig (l : Leaf) (d : Nat) (hn : n < 16) : (l.skipTrig n).time.dom d = l.time.dom d := by
  unfold Leaf.skipTrig
  split
  · rfl
  · split
    · split
      · rw [Leaf.time_missTrig _ _ hn, Leaf.dom_disarmTrig]
      · dsimp only
        rw [Leaf.time_missTrig _ _ hn, Leaf.dom_setTrig]
    · rfl

theorem Leaf.dom_skipTrigs (l : Leaf) (d : Nat) : l.skipTrigs.time.dom d = l.time.dom d :=
  Leaf.foldl_congr (fun m => m.time.dom d) _ _ l fun _ hx k => k.dom_skipTrig d (List.mem_range.mp hx)

/-- Exposure triggers belong to the sensors. -/
theorem Leaf.retrigAll_congr {α : Type} (g : Leaf → α) (h : ∀ (k : Leaf) (x : SnsState), g { k with sns := x } = g k) :
    g l.retrigAll = g l := by
  refine Leaf.foldl_congr g _ _ l fun n _ k => ?_
  split
  · split
    · exact h k _
    · rfl
  · rfl

/-! ## The commits -/

theorem Leaf.time_refuseCommit (l : Leaf) (hd : d < 2) : (l.refuseCommit d).time = l.time := Leaf.time_flagEvent _ _ (by omega)

theorem Leaf.refused_refuseCommit (l : Leaf) (hd : d < 2) : (l.refuseCommit d).bit (Fld.TIME_D_STAT_REFUSED d) = true :=
  ((l.irq_flagEvent (Fld.TIME_D_STAT_REFUSED d) (x := 0x024 + d) (by omega)).bit _
    (show (0x20011C + 0x80 * d) / 2 ^ 20 ≠ 4 by omega)).trans (Leaf.bit_putB_same _ _ _ (by simp) (by simp))

theorem Leaf.commitRate_of_ok (h : rateBad (l.writtenRate d) = false) :
    l.commitRate d = l.setDom d ((l.time.dom d).commit l.count (l.writtenRate d) 0) := by
  simp only [Leaf.commitRate, h, Bool.false_eq_true, if_false]

/-- A step of a clock that no ticking leaf follows is taken at once (R51). -/
theorem Leaf.dom_commitStep (h : rateBad (l.writtenRate d) = false) (hf : l.followedTicking d = false) :
    (l.commitStep d).time.dom d
      = (l.time.dom d).commit l.count (l.writtenRate d) (signedOf 80 (l.writtenOfs d)) := by
  simp only [Leaf.commitStep, h, hf, Bool.false_eq_true, if_false]
  split
  · rw [Leaf.dom_skipTrigs, Leaf.dom_bridge, Leaf.dom_setDom]
  · rw [Leaf.dom_setDom]

theorem Leaf.dom_commitSet (h : rateBad (l.writtenRate d) = false) (hf : l.followedTicking d = false) :
    (l.commitSet d).time.dom d = (l.time.dom d).commit l.count (l.writtenRate d)
      ((l.writtenOfs d : Int) - ((l.time.dom d).time l.count : Int)) := by
  simp only [Leaf.commitSet, h, hf, Bool.or_self, Bool.false_eq_true, if_false]
  split
  · rw [Leaf.dom_skipTrigs, Leaf.dom_bridge, Leaf.dom_setDom]
  · rw [Leaf.dom_setDom]

theorem Leaf.commitSet_of_followed (h : l.followedTicking d = true) : l.commitSet d = l.refuseCommit d := by
  simp only [Leaf.commitSet, h, Bool.or_true, if_true]

/-- A rate out of range refuses every commit (R52). -/
theorem Leaf.commits_of_bad (h : rateBad (l.writtenRate d) = true) :
    l.commitRate d = l.refuseCommit d ∧ l.commitStep d = l.refuseCommit d ∧ l.commitSet d = l.refuseCommit d := by
  simp only [Leaf.commitRate, Leaf.commitStep, Leaf.commitSet, h, Bool.true_or, if_true, and_self]

theorem Leaf.writeCommit_rate (l : Leaf) (d : Nat) : l.writeCommit d 1 = l.commitRate d := by simp [Leaf.writeCommit, bitOf, Nat.testBit]

theorem Leaf.writeCommit_step (l : Leaf) (d : Nat) : l.writeCommit d 2 = l.commitStep d := by simp [Leaf.writeCommit, bitOf, Nat.testBit]

theorem Leaf.writeCommit_set (l : Leaf) (d : Nat) : l.writeCommit d 4 = l.commitSet d := by simp [Leaf.writeCommit, bitOf, Nat.testBit]

/-! ## The commands -/

theorem Leaf.writeReg_commit (hd : d < 2) (w : Nat) : l.writeReg (Reg.TIME_D_COMMIT d) w = (l.writeCommit d w).retrigAll := by
  interval_cases d <;> rfl

/-- RATE, STEP and SET are the write of TIME_Dd_COMMIT with their bit. -/
theorem State.commit_of_ready (h : s.ready i = true) (hd : d < 2) (w : Nat) :
    s.indexed 2 d (fun t => t.regWrite i (Reg.TIME_D_COMMIT d) w) = s.setLeaf i ((s.leaf i).writeCommit d w).retrigAll := by
  rw [State.indexed_of_lt _ hd, State.regWrite_of_ready h w (show (0x200118 + 0x80 * d) % 4 = 0 by omega)
    (show 0x200000 ≤ 0x200118 + 0x80 * d ∧ 0x200118 + 0x80 * d < 0x400000 by omega), Leaf.writeReg_commit hd]

theorem exec_domRate (h : s.ready i = true) (hd : d < 2) :
    exec (.domRate i d) s = .next (s.setLeaf i ((s.leaf i).commitRate d).retrigAll).settle :=
  congrArg State.done ((State.commit_of_ready h hd 1).trans (by rw [Leaf.writeCommit_rate]))

theorem exec_domStep (h : s.ready i = true) (hd : d < 2) :
    exec (.domStep i d) s = .next (s.setLeaf i ((s.leaf i).commitStep d).retrigAll).settle :=
  congrArg State.done ((State.commit_of_ready h hd 2).trans (by rw [Leaf.writeCommit_step]))

theorem exec_domSet (h : s.ready i = true) (hd : d < 2) :
    exec (.domSet i d) s = .next (s.setLeaf i ((s.leaf i).commitSet d).retrigAll).settle :=
  congrArg State.done ((State.commit_of_ready h hd 4).trans (by rw [Leaf.writeCommit_set]))

theorem Leaf.time_retrigAll (l : Leaf) : l.retrigAll.time = l.time := Leaf.retrigAll_congr Leaf.time fun _ _ => rfl

/-- A refused commit sets REFUSED and leaves the clock as it was. -/
theorem answersWith_refused {cmd : Instr} (hd : d < 2) (e : exec cmd s = .next (s.setLeaf i ((s.leaf i).refuseCommit d).retrigAll).settle) :
    AnswersWith cmd s fun t =>
      (t.leaf i).time.dom d = (s.leaf i).time.dom d ∧ (t.leaf i).bit (Fld.TIME_D_STAT_REFUSED d) = true := by
  refine answersWith_of_setLeaf e fun t h _ => ⟨?_, ?_⟩
  · rw [h.dom, Leaf.time_retrigAll, Leaf.time_refuseCommit _ hd]
  · rw [h.timeBit _ (show 0x200100 ≤ 0x20011C + 0x80 * d ∧ 0x20011C + 0x80 * d < 0x300000 by omega),
      Leaf.retrigAll_congr (fun m => m.bit (Fld.TIME_D_STAT_REFUSED d)) fun _ _ => rfl]
    exact Leaf.refused_refuseCommit _ hd

/-- Settles O19: each commit by what it makes of the domain, which neither the triggers passed over nor settling touch. -/
theorem domainCommits : Obligations.DomainCommits := by
  intro s i d h hd
  refine ⟨fun ok => ?_, fun bad c hc => ?_, fun ok hf => ?_, fun ok hf => ?_, fun hf => ?_⟩
  · refine answersWith_of_setLeaf (exec_domRate h hd) fun t kept _ => ?_
    have hdom := kept.dom d
    rw [Leaf.time_retrigAll, Leaf.commitRate_of_ok ok, Leaf.dom_setDom] at hdom
    rw [hdom]
    exact ⟨Domain.originQ16_commit_zero .., rfl, rfl⟩
  · obtain ⟨hRate, hStep, hSet⟩ := Leaf.commits_of_bad bad
    simp only [List.mem_cons, List.not_mem_nil, or_false] at hc
    rcases hc with rfl | rfl | rfl
    · exact answersWith_refused hd (by rw [exec_domRate h hd, hRate])
    · exact answersWith_refused hd (by rw [exec_domStep h hd, hStep])
    · exact answersWith_refused hd (by rw [exec_domSet h hd, hSet])
  · refine answersWith_of_setLeaf (exec_domStep h hd) fun t kept _ => ?_
    rw [kept.dom d, Leaf.time_retrigAll, Leaf.dom_commitStep ok hf]
    exact ⟨Domain.originQ16_commit .., rfl⟩
  · refine answersWith_of_setLeaf (exec_domSet h hd) fun t kept _ => ?_
    rw [kept.dom d, Leaf.time_retrigAll, Leaf.dom_commitSet ok hf]
    exact Domain.time_commit_to _ _ _ (Leaf.writtenOfs_lt ..)
  · exact answersWith_refused hd (by rw [exec_domSet h hd, Leaf.commitSet_of_followed hf])

end Sys2Proof.Machine
end

section
/-!
PROOFS. General triggers (R73 to R76): arming, disarming, reprogramming, the pulse and its end; the end of TICK_OUT's pulse (R103).
-/
namespace Sys2Proof.Machine

variable {s : State} {i : LeafId} {l k : Leaf} {n w : Nat}

/-! ## Vehicle time and the trigger's registers under a register write -/

theorem Leaf.time_swWrite (l : Leaf) (a w : Nat) : (l.swWrite a w).time = l.time := by unfold Leaf.swWrite; split <;> rfl

theorem Leaf.count_swWrite (l : Leaf) (a w : Nat) : (l.swWrite a w).count = l.count := by unfold Leaf.swWrite; split <;> rfl

theorem Leaf.rd_swWrite_other (l : Leaf) (w : Nat) {a b : Nat} (h : a ≠ b) : (l.swWrite a w).rd b = l.rd b := by
  unfold Leaf.swWrite
  split
  · rfl
  · exact Leaf.rd_wr_other _ _ h

/-- Vehicle time depends on the time unit, the local count, FOLLOW and SLEW_PPM (R54). -/
theorem Leaf.now_congr (ht : k.time = l.time) (hc : k.count = l.count) (hctrl : k.rd Reg.TIME_VT_CTRL = l.rd Reg.TIME_VT_CTRL)
    (hstat : k.rd Reg.TIME_VT_STAT = l.rd Reg.TIME_VT_STAT) : k.now = l.now := by
  have hf : k.follow = l.follow := congrArg (bitsOf · 0 0) hstat
  have hp : k.get Fld.TIME_VT_CTRL_SLEW_PPM = l.get Fld.TIME_VT_CTRL_SLEW_PPM := congrArg (bitsOf · 15 8) hctrl
  unfold Leaf.now Leaf.vt Leaf.bridgeQ16 Leaf.bridgeAt Leaf.slewPpm
  rw [hf, hp, ht, hc]

theorem Leaf.trig_swWrite (l : Leaf) (a w n : Nat) : (l.swWrite a w).trig n = l.trig n := by
  unfold Leaf.trig; rw [Leaf.time_swWrite]

theorem Leaf.now_swWrite_trigCtrl (l : Leaf) (n w : Nat) : (l.swWrite (Reg.TIME_TRIG_CTRL n) w).now = l.now :=
  Leaf.now_congr (Leaf.time_swWrite ..) (Leaf.count_swWrite ..)
    (Leaf.rd_swWrite_other _ _ (show 0x200400 + 0x20 * n ≠ 0x200040 by omega))
    (Leaf.rd_swWrite_other _ _ (show 0x200400 + 0x20 * n ≠ 0x200044 by omega))

theorem Leaf.trigStart_swWrite_trigCtrl (l : Leaf) (n w : Nat) : (l.swWrite (Reg.TIME_TRIG_CTRL n) w).trigStart n = l.trigStart n := by
  unfold Leaf.trigStart Leaf.get
  rw [Leaf.rd_swWrite_other _ _ (show 0x200400 + 0x20 * n ≠ 0x200404 + 0x20 * n by omega),
    Leaf.rd_swWrite_other _ _ (show 0x200400 + 0x20 * n ≠ 0x200408 + 0x20 * n by omega),
    Leaf.rd_swWrite_other _ _ (show 0x200400 + 0x20 * n ≠ 0x20040C + 0x20 * n by omega)]

/-- TIME_TRIGn_CTRL has two writable fields, POL and MODE. -/
theorem Leaf.swWrite_trigCtrl (l : Leaf) (w : Nat) (hn : n < 16) : l.swWrite (Reg.TIME_TRIG_CTRL n) w = l.wr (Reg.TIME_TRIG_CTRL n)
    (setBits (setBits (l.rd (Reg.TIME_TRIG_CTRL n)) 2 2 (bitsOf w 2 2)) 1 1 (bitsOf w 1 1)) := by
  interval_cases n <;> rfl

theorem Leaf.mode_swWrite_trigCtrl (l : Leaf) (hn : n < 16) (hw : bitsOf w 1 1 = 0) :
    (l.swWrite (Reg.TIME_TRIG_CTRL n) w).bit (Fld.TIME_TRIG_CTRL_MODE n) = false := by
  have h : (l.swWrite (Reg.TIME_TRIG_CTRL n) w).get (Fld.TIME_TRIG_CTRL_MODE n) = 0 := by
    unfold Leaf.get
    rw [Leaf.swWrite_trigCtrl l w hn, Leaf.rd_wr_same, bitsOf_mod _ _ _ (by simp), bitsOf_setBits_same _ _ _ _ le_rfl, hw]
    rfl
  unfold Leaf.bit
  rw [h]
  rfl

/-! ## The operations of a trigger -/

theorem Leaf.trig_disarmTrig (hn : n < l.time.trigs.length) :
    (l.disarmTrig n).trig n = { l.trig n with nextAt := none, disarm := false, rearm := false } :=
  Leaf.trig_setTrig (l := l) _ hn

theorem Leaf.pulseEnd_disarmTrig (hn : n < l.time.trigs.length) : ((l.disarmTrig n).trig n).pulseEnd = (l.trig n).pulseEnd := by
  rw [Leaf.trig_disarmTrig hn]

theorem Leaf.armed_putB (l : Leaf) (n : Nat) (b : Bool) : (l.putB (Fld.TIME_TRIG_CTRL_ARMED n) b).bit (Fld.TIME_TRIG_CTRL_ARMED n) = b :=
  Leaf.bit_putB_same _ _ _ le_rfl (show 3 < 32 by decide)

/-- A single-shot trigger whose start is not past is armed for it (R74, R75). -/
theorem Leaf.armTrig_single (hp : (l.trig n).pulseEnd = none) (hm : l.bit (Fld.TIME_TRIG_CTRL_MODE n) = false) (h : l.now ≤ l.trigStart n) :
    l.armTrig n = (l.setTrig n { l.trig n with nextAt := some (l.trigStart n), single := true, rearm := false, disarm := false }).putB
      (Fld.TIME_TRIG_CTRL_ARMED n) true := by
  simp only [Leaf.armTrig, Leaf.armNow, hp, hm, Nat.not_lt.mpr h, Option.isSome_none, Bool.false_eq_true, if_false]

theorem Leaf.disarm_of_idle (hp : (l.trig n).pulseEnd = none) : l.disarm n = l.disarmTrig n := by
  simp only [Leaf.disarm, hp, Option.isSome_none, Bool.false_eq_true, if_false]

theorem Leaf.writeTrigCtrl_arm (h30 : bitOf w 30 = false) (h31 : bitOf w 31 = true) :
    l.writeTrigCtrl n w = (l.swWrite (Reg.TIME_TRIG_CTRL n) w).armTrig n := by
  simp only [Leaf.writeTrigCtrl, h30, h31, Bool.false_eq_true, if_false, if_true]

theorem Leaf.writeTrigCtrl_disarm (h30 : bitOf w 30 = true) (h31 : bitOf w 31 = false) :
    l.writeTrigCtrl n w = (l.swWrite (Reg.TIME_TRIG_CTRL n) w).disarm n := by
  simp only [Leaf.writeTrigCtrl, h30, h31, Bool.false_eq_true, if_false, if_true]

/-- A register of a trigger that is not armed just takes its value (R76). -/
theorem Leaf.reprogram_of_idle {a : Nat} (h : (l.trig n).nextAt = none) : l.reprogram n a w = l.swWrite a w := by
  simp only [Leaf.reprogram, h]

/-- The due pulse of a single-shot trigger (R74). -/
theorem Leaf.pulse_single {at16 : Nat} (ht : (l.trig n).nextAt = some at16) (hd : at16 ≤ l.now) (hp : (l.trig n).pulseEnd = none)
    (hs : (l.trig n).single = true) : ∃ e, l.pulse n = (((l.driveTrig n true).bump 2 (2 + n)).setTrig n
      { l.trig n with nextAt := none, pulseEnd := some e }).putB (Fld.TIME_TRIG_CTRL_ARMED n) false := by
  refine ⟨l.count + (l.trigWidth n * 100 + 127) / 128, ?_⟩
  simp only [Leaf.pulse, ht, hp, hs, Nat.not_lt.mpr hd, decide_false, Option.isSome_none, Bool.or_self, Bool.false_eq_true, if_false, if_true]

/-- The due pulse of a periodic trigger (R74). -/
theorem Leaf.pulse_periodic {at16 : Nat} (ht : (l.trig n).nextAt = some at16) (hd : at16 ≤ l.now) (hp : (l.trig n).pulseEnd = none)
    (hs : (l.trig n).single = false) : ∃ e, l.pulse n = ((l.driveTrig n true).bump 2 (2 + n)).setTrig n
      { l.trig n with nextAt := some (at16 + l.trigPeriod n), pulseEnd := some e } := by
  refine ⟨l.count + (l.trigWidth n * 100 + 127) / 128, ?_⟩
  simp only [Leaf.pulse, ht, hp, hs, Nat.not_lt.mpr hd, decide_false, Option.isSome_none, Bool.or_self, Bool.false_eq_true, if_false]

/-- The end of a pulse with no ARM held back (R74). -/
theorem Leaf.pulseEnd_endTrigPulse {e : Nat} (hn : n < l.time.trigs.length) (hp : (l.trig n).pulseEnd = some e) (he : e ≤ l.count)
    (hr : (l.trig n).rearm = false) : ((l.endTrigPulse n).trig n).pulseEnd = none := by
  have hset : (((l.driveTrig n false).setTrig n { l.trig n with pulseEnd := none }).trig n).pulseEnd = none :=
    congrArg Trigger.pulseEnd (Leaf.trig_setTrig (l := l.driveTrig n false) _ hn)
  simp only [Leaf.endTrigPulse, hp, Nat.not_lt.mpr he, if_false]
  rw [if_neg (Bool.eq_false_iff.mp hr)]
  split
  · exact (Leaf.pulseEnd_disarmTrig ((length_setAt l.time.trigs n _).symm ▸ hn)).trans hset
  · exact hset

theorem Leaf.tickOutEnd_of_due {e : Nat} (ht : l.tick.outEnd = some e) (he : e ≤ l.now) :
    l.tickOutEnd = { l with tick := { l.tick with outActive := false, outEnd := none } } := by
  simp only [Leaf.tickOutEnd, ht, Nat.not_lt.mpr he, if_false]
  rfl

/-! ## The commands -/

/-- A write in the window of trigger n: CTRL, or START, PERIOD and WIDTH (Table 2.4). -/
theorem Leaf.writeReg_trig {a o : Nat} (l : Leaf) (w : Nat) (hn : n < 16) (ho : o < 0x18) (ha : a = 0x200400 + 0x20 * n + o) :
    l.writeReg a w = if o = 0 then l.writeTrigCtrl n w else l.reprogram n a w := by
  have hblk : l.writeReg a w = l.writeTimeBlk a w := by
    unfold Leaf.writeReg
    rw [show a / 2 ^ 20 = 0x02 by omega]
    rfl
  have hix : (a - 0x200400) / 0x20 = n := by omega
  have hofs : a % 0x20 = o := by omega
  rw [hblk]
  unfold Leaf.writeTimeBlk
  rw [if_neg (show ¬ a = 0x200000 by omega), if_neg (show ¬ a = 0x200040 by omega), if_neg (by omega), if_pos (by omega)]
  dsimp only
  rw [hix, hofs, if_pos ho]

/-- A write of TIME_TRIGn_CTRL with one field fixed. -/
theorem State.trigCtrl_of_ready (h : s.ready i = true) (hn : n < 16) (f : FieldRef) (hf : f.addr = 0x200400 + 0x20 * n) (v : Nat) (w : Word) :
    s.indexed 16 n (fun t => t.fieldWrite i f v w) = s.setLeaf i ((s.leaf i).writeTrigCtrl n (wordWith w f v)) := by
  rw [State.indexed_of_lt _ hn, State.fieldWrite, State.regWrite_of_ready h _ (by omega) (by omega),
    Leaf.writeReg_trig _ _ hn (show 0 < 0x18 by decide) hf, if_pos rfl]

theorem exec_triggerArm (h : s.ready i = true) (hn : n < 16) (w : Word) : exec (.triggerArm i n w) s
    = .next (s.setLeaf i ((s.leaf i).writeTrigCtrl n (setBits w.toNat 31 31 1))).settle :=
  congrArg State.done (State.trigCtrl_of_ready h hn (Fld.TIME_TRIG_CTRL_ARM n) rfl 1 w)

theorem exec_triggerDisarm (h : s.ready i = true) (hn : n < 16) (w : Word) : exec (.triggerDisarm i n w) s
    = .next (s.setLeaf i ((s.leaf i).writeTrigCtrl n (setBits w.toNat 30 30 1))).settle :=
  congrArg State.done (State.trigCtrl_of_ready h hn (Fld.TIME_TRIG_CTRL_DISARM n) rfl 1 w)

/-- TRIGGER_REPROGRAM names START, PERIOD or WIDTH of its trigger. -/
theorem trigRegAddr_eq (n : Nat) (r : TrigReg) : ∃ o, o ≠ 0 ∧ o < 0x18 ∧ o % 4 = 0 ∧ trigRegAddr n r = 0x200400 + 0x20 * n + o := by
  cases r with
  | startLo => exact ⟨0x04, by decide, by decide, rfl, show 0x200404 + 0x20 * n = _ by omega⟩
  | startHi => exact ⟨0x08, by decide, by decide, rfl, show 0x200408 + 0x20 * n = _ by omega⟩
  | startFrac => exact ⟨0x0C, by decide, by decide, rfl, show 0x20040C + 0x20 * n = _ by omega⟩
  | period => exact ⟨0x10, by decide, by decide, rfl, show 0x200410 + 0x20 * n = _ by omega⟩
  | width => exact ⟨0x14, by decide, by decide, rfl, show 0x200414 + 0x20 * n = _ by omega⟩

theorem exec_triggerReprogram (h : s.ready i = true) (hn : n < 16) (r : TrigReg) (w : Word) : exec (.triggerReprogram i n r w) s
    = .next (s.setLeaf i ((s.leaf i).reprogram n (trigRegAddr n r) w.toNat)).settle := by
  obtain ⟨o, ho, hlt, h4, ha⟩ := trigRegAddr_eq n r
  refine congrArg State.done ((State.indexed_of_lt _ hn).trans ?_)
  rw [State.regWrite_of_ready h _ (by omega) (by omega), Leaf.writeReg_trig _ _ hn hlt ha, if_neg ho]

theorem exec_triggerPulse (h : s.ready i = true) (hn : n < 16) (c : Nat) :
    exec (.triggerPulse i n c) s = .next (s.setLeaf i (((s.leaf i).adv c).pulse n)).settle :=
  congrArg State.done ((State.indexed_of_lt _ hn).trans (State.event_of_ready h c))

theorem exec_gtrigEnd (h : s.ready i = true) (hn : n < 16) (c : Nat) :
    exec (.pulseEnd (.gtrig i n) c) s = .next (s.setLeaf i (((s.leaf i).adv c).endTrigPulse n)).settle :=
  congrArg State.done ((State.event_of_ready h c).trans (by rw [if_pos hn]))

theorem exec_tickOutEnd (h : s.ready i = true) (c : Nat) :
    exec (.pulseEnd (.tickOut i) c) s = .next (s.setLeaf i ((s.leaf i).adv c).tickOutEnd).settle :=
  congrArg State.done (State.event_of_ready h c)

theorem Leaf.Kept.armed (h : l.Kept k) (hn : n < 16) : k.bit (Fld.TIME_TRIG_CTRL_ARMED n) = l.bit (Fld.TIME_TRIG_CTRL_ARMED n) :=
  h.timeBit _ (show 0x200100 ≤ 0x200400 + 0x20 * n ∧ 0x200400 + 0x20 * n < 0x300000 by omega)

theorem Leaf.trig_adv (l : Leaf) (c n : Nat) : (l.adv c).trig n = l.trig n := Leaf.adv_congr (·.trig n) c fun _ => rfl

/-- Settles O22: each command by the one operation of the trigger that its premises select. -/
theorem triggerCommands : Obligations.TriggerCommands := by
  intro s i n h hn hlen
  refine ⟨fun w h30 hmode hp hnow => ?_, fun w h31 hp => ?_, fun c at16 ht hd hp => ?_, fun r w ht => ?_, fun c e hp he hr => ?_,
    fun c e ht he => ?_⟩
  · refine answersWith_of_setLeaf (exec_triggerArm h hn w) fun t kept _ => ?_
    have hmode' : bitsOf (setBits w.toNat 31 31 1) 1 1 = 0 :=
      (bitsOf_setBits_disjoint _ _ _ _ _ _ le_rfl (by decide)).trans hmode
    rw [Leaf.writeTrigCtrl_arm ((bitOf_setBits_other _ _ (by decide)).trans h30) (bitOf_setBits_same ..),
      Leaf.armTrig_single (by rw [Leaf.trig_swWrite, hp]) (Leaf.mode_swWrite_trigCtrl _ hn hmode')
        (by rw [Leaf.now_swWrite_trigCtrl, Leaf.trigStart_swWrite_trigCtrl]; exact hnow),
      Leaf.trigStart_swWrite_trigCtrl] at kept
    have htrig := (kept.trig n).trans
      (Leaf.trig_setTrig (l := (s.leaf i).swWrite (Reg.TIME_TRIG_CTRL n) _) _ (by rw [Leaf.time_swWrite]; exact hlen))
    rw [htrig, kept.armed hn, Leaf.armed_putB]
    exact ⟨rfl, rfl, rfl⟩
  · refine answersWith_of_setLeaf (exec_triggerDisarm h hn w) fun t kept _ => ?_
    rw [Leaf.writeTrigCtrl_disarm (bitOf_setBits_same ..) ((bitOf_setBits_other _ _ (by decide)).trans h31),
      Leaf.disarm_of_idle (by rw [Leaf.trig_swWrite, hp])] at kept
    rw [kept.armed hn, kept.trig n, Leaf.trig_disarmTrig (by rw [Leaf.time_swWrite]; exact hlen)]
    exact ⟨Leaf.armed_putB .., rfl⟩
  · refine answersWith_of_setLeaf (exec_triggerPulse h hn c) fun t kept _ => ?_
    rw [← Leaf.trig_adv (s.leaf i) c] at ht hp ⊢
    rw [← Leaf.time_adv (s.leaf i) c] at hlen
    rw [show (s.leaf i).trigPeriod n = ((s.leaf i).adv c).trigPeriod n from (Leaf.adv_congr (·.trigPeriod n) c fun _ => rfl).symm]
    generalize (s.leaf i).adv c = l at *
    have hlen' : n < ((l.driveTrig n true).bump 2 (2 + n)).time.trigs.length := hlen
    cases hs : (l.trig n).single with
    | true =>
      obtain ⟨e, hpulse⟩ := Leaf.pulse_single ht hd hp hs
      rw [hpulse] at kept
      have htrig := (kept.trig n).trans (Leaf.trig_setTrig _ hlen')
      rw [htrig, kept.armed hn, Leaf.armed_putB, if_pos rfl]
      exact ⟨rfl, rfl, rfl⟩
    | false =>
      obtain ⟨e, hpulse⟩ := Leaf.pulse_periodic ht hd hp hs
      rw [hpulse] at kept
      rw [kept.trig n, Leaf.trig_setTrig _ hlen', if_neg (by decide)]
      exact ⟨rfl, rfl⟩
  · refine answers_of_exec ((exec_triggerReprogram h hn r w).trans ?_)
    rw [Leaf.reprogram_of_idle ht]
    rfl
  · refine answersWith_of_setLeaf (exec_gtrigEnd h hn c) fun t kept _ => ?_
    rw [kept.trig n]
    exact Leaf.pulseEnd_endTrigPulse (by rw [Leaf.time_adv]; exact hlen) ((congrArg _ (Leaf.trig_adv ..)).trans hp) he
      ((congrArg _ (Leaf.trig_adv ..)).trans hr)
  · refine answers_of_exec ((exec_tickOutEnd h c).trans ?_)
    rw [Leaf.tickOutEnd_of_due ((Leaf.adv_congr (·.tick.outEnd) c fun _ => rfl).trans ht) he]
    rfl

end Sys2Proof.Machine
end

section
/-!
PROOFS. gPTP (R56, R59, R64, R70): Sync and Follow_Up on the slave port of a domain, and the peer-delay exchange.
-/
namespace Sys2Proof.Machine

variable {s : State} {i : LeafId} {l : Leaf} {d port c8 e8 : Nat} {f : List Byte}

/-! ## What is sent -/

/-- Sending adds to what the switch has sent, and changes nothing else. -/
theorem Leaf.foldl_send {α β : Type} (g : Leaf → β) (msg : α → SentMsg) (xs : List α) (l : Leaf)
    (h : ∀ (k : Leaf) (x : SwState), g { k with sw := x } = g k) : g (xs.foldl (fun k x => k.send (msg x)) l) = g l :=
  Leaf.foldl_congr g _ _ l fun _ _ k => h k _

/-! ## Sync and Follow_Up -/

theorem Leaf.slaveDomain_lt {num : Nat} (h : l.slaveDomain port num = some d) : d < 2 := by
  have hd := List.mem_of_find?_eq_some h
  simp only [List.mem_cons, List.not_mem_nil, or_false] at hd
  omega

/-- LOST stands in TIME_Dd_STAT. -/
theorem Leaf.lost_wr (l : Leaf) (v : Nat) {a : Nat} (h : a ≠ 0x20011C + 0x80 * d) :
    (l.wr a v).bit (Fld.TIME_D_STAT_LOST d) = l.bit (Fld.TIME_D_STAT_LOST d) := by
  unfold Leaf.bit Leaf.get
  rw [Leaf.rd_wr_other _ _ h]

theorem Leaf.lost_putB_false (l : Leaf) (d : Nat) :
    (l.putB (Fld.TIME_D_STAT_LOST d) false).bit (Fld.TIME_D_STAT_LOST d) = false :=
  Leaf.bit_putB_same _ _ _ le_rfl (show 3 < 32 by decide)

/-- An accepted Sync ends LOST and restarts the timeout of its domain (R56), whatever its tests find. -/
theorem Leaf.measure_restarts (l : Leaf) (d port seq at8 : Nat) (ofs rr : Int) :
    (l.measure d port seq at8 ofs rr).bit (Fld.TIME_D_STAT_LOST d) = false
      ∧ ((l.measure d port seq at8 ofs rr).time.dom d).lastSync = some l.count := by
  unfold Leaf.measure
  extract_lets x pd ref pdJump ofsJump was l1 l2 l3 ref' l4 l5
  have hdom : (l3.time.dom d).lastSync = some l.count := congrArg Domain.lastSync (Leaf.dom_setDom l1 d _)
  split
  · exact ⟨l2.lost_putB_false d, hdom⟩
  · refine ⟨?_, hdom⟩
    have h4 : l4.bit (Fld.TIME_D_STAT_LOST d) = false :=
      ((Leaf.lost_wr _ _ (show 0x200134 + 0x80 * d ≠ _ by omega)).trans
        ((Leaf.lost_wr _ _ (show 0x200130 + 0x80 * d ≠ _ by omega)).trans
          (Leaf.lost_wr _ _ (show 0x20013C + 0x80 * d ≠ _ by omega)))).trans (l2.lost_putB_false d)
    have h5 : l5.bit (Fld.TIME_D_STAT_LOST d) = false :=
      ((Leaf.lost_wr _ _ (show 0x20012C + 0x80 * d ≠ _ by omega)).trans
        (Leaf.lost_wr _ _ (show 0x200128 + 0x80 * d ≠ _ by omega))).trans h4
    exact ((Leaf.lost_wr _ _ (show 0x200138 + 0x80 * d ≠ _ by omega)).trans
      (Leaf.lost_wr _ _ (show 0x200138 + 0x80 * d ≠ _ by omega))).trans h5

/-- A Sync on the slave port of domain d (R56, R70). -/
theorem Leaf.sync_restarts (h : l.slaveDomain port (ptpDomain f) = some d) (c8 : Nat) (eg : List (Nat × Nat)) :
    (l.sync port c8 f eg).bit (Fld.TIME_D_STAT_LOST d) = false ∧ ((l.sync port c8 f eg).time.dom d).lastSync = some l.count := by
  simp only [Leaf.sync, h]
  split
  · rw [Leaf.foldl_send (·.bit (Fld.TIME_D_STAT_LOST d)) _ _ _ fun _ _ => rfl, Leaf.foldl_send Leaf.time _ _ _ fun _ _ => rfl]
    exact ⟨Leaf.lost_putB_false .., congrArg Domain.lastSync (Leaf.dom_setDom (l.portCount port 4) d _)⟩
  · rw [Leaf.foldl_send (·.bit (Fld.TIME_D_STAT_LOST d)) _ _ _ fun _ _ => rfl, Leaf.foldl_send Leaf.time _ _ _ fun _ _ => rfl]
    exact Leaf.measure_restarts ..

/-- A two-step Sync waits for its Follow_Up (R70). -/
theorem Leaf.pendSync_sync (h : l.slaveDomain port (ptpDomain f) = some d) (h2 : ptpTwoStep f = true) (c8 : Nat) (eg : List (Nat × Nat)) :
    ∃ r, ((l.sync port c8 f eg).time.dom d).pendSync = some { seqId := ptpSeq f, ingress8 := c8, corr := ptpCorr f, relays := r } := by
  simp only [Leaf.sync, h]
  rw [if_pos h2, Leaf.foldl_send Leaf.time _ _ _ fun _ _ => rfl]
  exact ⟨_, congrArg Domain.pendSync (Leaf.dom_setDom (l.portCount port 4) d _)⟩

/-- The Follow_Up of the Sync that waits ends the wait (R70). -/
theorem Leaf.pendSync_followUp {p : PendSync} (h : l.slaveDomain port (ptpDomain f) = some d) (hp : (l.time.dom d).pendSync = some p)
    (hs : p.seqId = ptpSeq f) (hc : c8 - p.ingress8 < 8 * countsOfMs 100) : ((l.followUp port c8 f).time.dom d).pendSync = none := by
  simp only [Leaf.followUp, h, hp]
  rw [if_pos ⟨hs, hc⟩, Leaf.foldl_send Leaf.time _ _ _ fun _ _ => rfl]
  exact congrArg Domain.pendSync (Leaf.dom_setDom _ d _)

/-! ## The peer-delay exchange -/

theorem Leaf.pdelayMsg_request (hp : port < 5) (hen : l.bit (Fld.SW_P_CFG_EN port) = true) (ht : ptpType f = 2) :
    l.pdelayMsg port c8 f e8 = ((l.portCount port 4).send (.pdelayResp port (ptpSeq f) (localQ16 c8 - l.ingAsym port))).send
      (.pdelayRespFollowUp port (ptpSeq f) (localQ16 e8 + l.egrAsym port)) := by
  simp only [Leaf.pdelayMsg, hp, hen, ht, decide_true, Bool.and_self, if_true]

/-- The response to our own request (R59). -/
theorem Leaf.pdelayMsg_response (hp : port < 5) (hen : l.bit (Fld.SW_P_CFG_EN port) = true) (ht : ptpType f = 3)
    (hseq : (l.port port).pd.reqSeq = some (ptpSeq f)) : ∃ t2, l.pdelayMsg port c8 f e8 = (l.portCount port 4).setPort port
      { l.port port with pd := { (l.port port).pd with t2 := t2, t4 := localQ16 c8 - l.ingAsym port, gotResp := true } } := by
  refine ⟨ptpStamp f + ptpCorr f, ?_⟩
  simp only [Leaf.pdelayMsg, hp, hen, ht, hseq, decide_true, Bool.and_self, if_true, and_self]
  rw [if_neg (by decide)]

/-- The follow-up of the response completes the exchange (R59). -/
theorem Leaf.pdelayMsg_followUp (hp : port < 5) (hen : l.bit (Fld.SW_P_CFG_EN port) = true) (ht : ptpType f = 10)
    (hseq : (l.port port).pd.reqSeq = some (ptpSeq f)) (hgot : (l.port port).pd.gotResp = true) :
    ∃ x : PortDelay, x.reqSeq = none ∧ x.gotResp = false
      ∧ l.pdelayMsg port c8 f e8 = (l.portCount port 4).setPort port { l.port port with pd := x } := by
  simp only [Leaf.pdelayMsg, hp, hen, ht, hseq, hgot, decide_true, Bool.and_self, if_true, and_self]
  rw [if_neg (by decide), if_neg (by decide)]
  exact ⟨_, rfl, rfl, rfl⟩

/-- Our own request (R59). -/
theorem Leaf.pdelayReq_of_enabled (hp : port < 5) (hen : l.bit (Fld.SW_P_CFG_EN port) = true) :
    ∃ t1, l.pdelayReq port e8 = (l.setPort port { l.port port with pd := { (l.port port).pd with
      reqSeq := some (l.port port).pd.nextSeq, t1 := t1, nextSeq := ((l.port port).pd.nextSeq + 1) % 65536, gotResp := false } }).send
        (.pdelayReq port (l.port port).pd.nextSeq) := by
  refine ⟨localQ16 e8 + l.egrAsym port, ?_⟩
  simp only [Leaf.pdelayReq, hp, hen, decide_true, Bool.and_self, if_true]

/-! ## The commands -/

theorem exec_syncReceived (h : ((s.leaf i).adv (c8 / 8)).takesPtp port [0] f = true) (eg : List (Nat × Nat)) :
    exec (.syncReceived i port c8 f eg) s = .next (s.setLeaf i (((s.leaf i).adv (c8 / 8)).sync port c8 f eg)).settle :=
  congrArg State.done (State.event_of_ok h)

theorem exec_followUpReceived (h : ((s.leaf i).adv (c8 / 8)).takesPtp port [8] f = true) :
    exec (.followUpReceived i port c8 f) s = .next (s.setLeaf i (((s.leaf i).adv (c8 / 8)).followUp port c8 f)).settle :=
  congrArg State.done (State.event_of_ok h)

theorem exec_pdelayMessageReceived (h : ((s.leaf i).adv (c8 / 8)).takesPtp port [2, 3, 10] f = true) :
    exec (.pdelayMessageReceived i port c8 f e8) s = .next (s.setLeaf i (((s.leaf i).adv (c8 / 8)).pdelayMsg port c8 f e8)).settle :=
  congrArg State.done (State.event_of_ok h)

theorem exec_pdelayInitiate (h : s.ready i = true) :
    exec (.pdelayInitiate i port e8) s = .next (s.setLeaf i (((s.leaf i).adv (e8 / 8)).pdelayReq port e8)).settle :=
  congrArg State.done (State.event_of_ready h _)

/-- gPTP frames are taken from enabled external ports (R67, R70). -/
theorem Leaf.port_of_takesPtp {types : List Nat} (h : l.takesPtp port types f = true) :
    port < 5 ∧ l.bit (Fld.SW_P_CFG_EN port) = true := by
  simp only [Leaf.takesPtp, Bool.and_eq_true, decide_eq_true_eq] at h
  obtain ⟨⟨⟨⟨-, hp⟩, hen⟩, -⟩, -⟩ := h
  exact ⟨hp, hen⟩

theorem Leaf.slaveDomain_adv (l : Leaf) (n port num : Nat) : (l.adv n).slaveDomain port num = l.slaveDomain port num :=
  Leaf.adv_congr (·.slaveDomain port num) n fun _ => rfl

theorem Leaf.port_adv (l : Leaf) (n p : Nat) : (l.adv n).port p = l.port p := Leaf.adv_congr (·.port p) n fun _ => rfl

theorem Leaf.ingAsym_adv (l : Leaf) (n p : Nat) : (l.adv n).ingAsym p = l.ingAsym p := Leaf.adv_congr (·.ingAsym p) n fun _ => rfl

theorem Leaf.egrAsym_adv (l : Leaf) (n p : Nat) : (l.adv n).egrAsym p = l.egrAsym p := Leaf.adv_congr (·.egrAsym p) n fun _ => rfl

theorem Leaf.Kept.lost {m k : Leaf} (h : m.Kept k) (hd : d < 2) : k.bit (Fld.TIME_D_STAT_LOST d) = m.bit (Fld.TIME_D_STAT_LOST d) :=
  h.timeBit _ (show 0x200100 ≤ 0x20011C + 0x80 * d ∧ 0x20011C + 0x80 * d < 0x300000 by omega)

/-- The messages of a peer-delay exchange on a port. -/
theorem pdelayMessages (hlen : port < (s.leaf i).sw.ports.length) (h : ((s.leaf i).adv (c8 / 8)).takesPtp port [2, 3, 10] f = true) :
    (ptpType f = 2 → AnswersWith (.pdelayMessageReceived i port c8 f e8) s fun t => (t.leaf i).sw.sent = (s.leaf i).sw.sent ++
      [.pdelayResp port (ptpSeq f) (localQ16 c8 - (s.leaf i).ingAsym port),
       .pdelayRespFollowUp port (ptpSeq f) (localQ16 e8 + (s.leaf i).egrAsym port)])
    ∧ (ptpType f = 3 → ((s.leaf i).port port).pd.reqSeq = some (ptpSeq f) → AnswersWith (.pdelayMessageReceived i port c8 f e8) s fun t =>
      ((t.leaf i).port port).pd.gotResp = true ∧ ((t.leaf i).port port).pd.t4 = localQ16 c8 - (s.leaf i).ingAsym port)
    ∧ (ptpType f = 10 → ((s.leaf i).port port).pd.reqSeq = some (ptpSeq f) → ((s.leaf i).port port).pd.gotResp = true →
      AnswersWith (.pdelayMessageReceived i port c8 f e8) s fun t =>
        ((t.leaf i).port port).pd.reqSeq = none ∧ ((t.leaf i).port port).pd.gotResp = false) := by
  have e := exec_pdelayMessageReceived (e8 := e8) h
  obtain ⟨hp, hen⟩ := Leaf.port_of_takesPtp h
  rw [← (s.leaf i).sw_adv (c8 / 8)] at hlen
  rw [← (s.leaf i).sw_adv (c8 / 8), ← (s.leaf i).port_adv (c8 / 8), ← (s.leaf i).ingAsym_adv (c8 / 8), ← (s.leaf i).egrAsym_adv (c8 / 8)]
  generalize (s.leaf i).adv (c8 / 8) = l at *
  refine ⟨fun ht => ?_, fun ht hseq => ?_, fun ht hseq hgot => ?_⟩
  · rw [Leaf.pdelayMsg_request hp hen ht] at e
    refine answersWith_of_setLeaf e fun t kept _ => ?_
    rw [kept.sw]
    exact List.append_assoc ..
  · obtain ⟨t2, hm⟩ := Leaf.pdelayMsg_response (c8 := c8) (e8 := e8) hp hen ht hseq
    rw [hm] at e
    refine answersWith_of_setLeaf e fun t kept _ => ?_
    rw [kept.port, Leaf.port_setPort (l := l.portCount port 4) _ hlen]
    exact ⟨rfl, rfl⟩
  · obtain ⟨x, hreq, hgot', hm⟩ := Leaf.pdelayMsg_followUp (c8 := c8) (e8 := e8) hp hen ht hseq hgot
    rw [hm] at e
    refine answersWith_of_setLeaf e fun t kept _ => ?_
    rw [kept.port, Leaf.port_setPort (l := l.portCount port 4) _ hlen]
    exact ⟨hreq, hgot'⟩

/-- Settles O21: each message by what it makes of its domain or of its port's exchange. -/
theorem gptpCommands : Obligations.GptpCommands := by
  refine ⟨fun s i port c8 d f eg _ h hd => ?_, fun s i port c8 d f p _ h hd hp hs hc => ?_, fun s i port c8 e8 f _ hlen h => pdelayMessages hlen h,
    fun s i port e8 h hp hlen hen => ?_⟩
  · have hd' := ((s.leaf i).slaveDomain_adv (c8 / 8) ..).trans hd
    refine answersWith_of_setLeaf (exec_syncReceived h eg) fun t kept _ => ?_
    rw [kept.lost (Leaf.slaveDomain_lt hd), kept.dom]
    obtain ⟨hlost, hlast⟩ := Leaf.sync_restarts hd' c8 eg
    refine ⟨hlost, hlast, fun h2 => ?_⟩
    obtain ⟨r, hr⟩ := Leaf.pendSync_sync hd' h2 c8 eg
    exact ⟨_, hr, rfl, rfl, rfl⟩
  · refine answersWith_of_setLeaf (exec_followUpReceived h) fun t kept _ => ?_
    rw [kept.dom]
    exact Leaf.pendSync_followUp ((Leaf.slaveDomain_adv ..).trans hd) (by rw [Leaf.time_adv]; exact hp) hs hc
  · have e := exec_pdelayInitiate (port := port) (e8 := e8) h
    rw [← (s.leaf i).sw_adv (e8 / 8)] at hlen
    rw [← Leaf.adv_congr (·.bit (Fld.SW_P_CFG_EN port)) (e8 / 8) fun _ => rfl] at hen
    rw [← (s.leaf i).sw_adv (e8 / 8), ← (s.leaf i).port_adv (e8 / 8)]
    generalize (s.leaf i).adv (e8 / 8) = l at *
    obtain ⟨t1, hm⟩ := Leaf.pdelayReq_of_enabled (e8 := e8) hp hen
    rw [hm] at e
    refine answersWith_of_setLeaf e fun t kept _ => ?_
    rw [kept.sw, kept.port]
    have hport := Leaf.port_setPort (l := l) (p := port) { l.port port with pd := { (l.port port).pd with
      reqSeq := some (l.port port).pd.nextSeq, t1 := t1, nextSeq := ((l.port port).pd.nextSeq + 1) % 65536, gotResp := false } } hlen
    exact ⟨rfl, congrArg (·.pd.reqSeq) hport, congrArg (·.pd.nextSeq) hport⟩

end Sys2Proof.Machine
end

section
/-!
PROOFS. The switch (R67 to R71): a frame received, learned and queued, a frame sent, an entry of the forwarding table aged out.
-/
namespace Sys2Proof.Machine

variable {s : State} {i : LeafId} {l : Leaf} {p q c8 : Nat} {f : List Byte}

/-! ## The forwarding table -/

theorem alGet_alSet_same {α : Type} (a : Nat) (v : α) (m : List (Nat × α)) : alGet (alSet a v m) a = some v := by
  induction m with
  | nil => simp [alSet, alGet]
  | cons e t ih =>
    obtain ⟨x, w⟩ := e
    by_cases hlt : x < a
    · simp [alSet, alGet, hlt, Nat.ne_of_lt hlt, ih]
    · by_cases heq : x = a <;> simp [alSet, alGet, hlt, heq]

/-- A new source takes a free way of its set (R69). -/
theorem Leaf.learn_new {mac vid x : Nat} (hl : l.bit Fld.SW_CTRL_LEARN = true) (hm : mac / 2 ^ 40 % 2 = 0)
    (hk : l.sw.fdbFind mac vid = none) (hx : l.sw.fdbFree mac vid = some x) :
    l.learn p mac vid = l.setFdb (alSet x { mac := mac, vid := vid, ports := 2 ^ p, static := false, seen := l.count } l.sw.fdb) := by
  unfold Leaf.learn
  rw [hl, hm, hk, hx]
  rfl

theorem Leaf.learn_of_off {mac vid : Nat} (hl : l.bit Fld.SW_CTRL_LEARN = false) : l.learn p mac vid = l := by
  unfold Leaf.learn
  rw [hl]
  rfl

/-- A learned entry without traffic for AGE_S seconds (R69). -/
theorem Leaf.fdbAge_of_old {x : Nat} {e : FdbEntry} (h : alGet l.sw.fdb x = some e) (hs : e.static = false)
    (ha : l.get Fld.SW_CTRL_AGE_S * countsOfMs 1000 ≤ l.count - e.seen) : l.fdbAge x = l.setFdb (alDel x l.sw.fdb) := by
  unfold Leaf.fdbAge
  rw [h]
  dsimp only
  rw [if_pos (by rw [hs, decide_eq_true ha]; rfl)]

/-! ## Queues -/

/-- Bringing a class's credit up to date leaves the queues. -/
theorem Leaf.queues_settleCredit (t c : Nat) (hq : q < l.sw.ports.length) :
    ((l.settleCredit q t c).port q).queues = (l.port q).queues := by
  unfold Leaf.settleCredit
  dsimp only
  rw [Leaf.port_setPort _ hq]

/-- A frame with room joins the end of its class queue (R68). -/
theorem Leaf.queue_enqueue {pcp : Nat} {g : QFrame} (hq : q < l.sw.ports.length) (hlen : l.classOf q pcp < (l.port q).queues.length)
    (hroom : (((l.port q).queues.getD (l.classOf q pcp) []).map fun x => x.bytes.length + 4).sum ≤ Config.queueLimit q (l.classOf q pcp))
    (hmem : l.packetBytes + g.bytes.length + 4 ≤ 2 ^ 21) :
    ((l.enqueue q pcp g).port q).queues.getD (l.classOf q pcp) [] = (l.port q).queues.getD (l.classOf q pcp) [] ++ [g] := by
  have hq' : q < (l.settleCredit q (l.classOf q pcp) l.count).sw.ports.length := (length_setAt l.sw.ports q _).symm ▸ hq
  unfold Leaf.enqueue
  dsimp only
  rw [if_neg (by simp only [Bool.or_eq_true, decide_eq_true_eq]; omega), Leaf.port_setPort _ hq', Leaf.queues_settleCredit _ _ hq,
    getD_modAt_same _ _ hlen]

theorem Leaf.fdb_enqueue (l : Leaf) (q pcp : Nat) (g : QFrame) : (l.enqueue q pcp g).sw.fdb = l.sw.fdb := by
  unfold Leaf.enqueue
  dsimp only
  split <;> rfl

/-! ## Reception -/

/-- A frame that fails its check is counted and dropped (R68). -/
theorem Leaf.sw_frameIn_badFcs (l : Leaf) (p c8 : Nat) (f : List Byte) : (l.frameIn p c8 f false).sw = l.sw := by
  simp only [Leaf.frameIn, Bool.not_false, Bool.true_or, if_true]
  split <;> rfl

/-- A frame of port p that is neither dropped by the checks of R68 and the stream filters nor taken out for gPTP (R70). -/
structure Leaf.Bridges (l : Leaf) (p : Nat) (f : List Byte) : Prop where
  port : p < 6
  enabled : l.bit (Fld.SW_P_CFG_EN p) = true
  notShort : 60 ≤ f.length
  notLong : f.length ≤ 2044
  notPtp : frameType f ≠ 0x88F7
  stream : l.qciPass (frameDst f) (l.frameVid p f) (l.framePcp p f) = true

/-- Such a frame is learned and queued at its egress ports (R68, R69). -/
theorem Leaf.Bridges.frameIn (h : l.Bridges p f) (c8 : Nat) : l.frameIn p c8 f true =
    (((l.portCount p 0).learn p (frameSrc f) (l.frameVid p f)).egressPorts p (frameDst f) (l.frameVid p f)).foldl
      (fun m q => m.enqueue q (l.framePcp p f) { bytes := f, ingress8 := c8, port := p })
      ((l.portCount p 0).learn p (frameSrc f) (l.frameVid p f)) := by
  obtain ⟨hp, hen, hmin, hmax, ht, hqci⟩ := h
  have hshort : ¬ f.length + 4 < 64 := by omega
  have hlong : ¬ 2048 < f.length + 4 := by omega
  simp only [Leaf.frameIn, hp, hen, hshort, hlong, hqci, ht, decide_true, decide_false, Bool.not_true, Bool.or_self, Bool.and_self,
    Bool.false_eq_true, if_false, if_true]

/-- A new source gets an entry, and queueing the frame leaves the table. -/
theorem Leaf.Bridges.fdb_new {x : Nat} (h : l.Bridges p f) (c8 : Nat) (hl : l.bit Fld.SW_CTRL_LEARN = true)
    (hm : frameSrc f / 2 ^ 40 % 2 = 0) (hk : l.sw.fdbFind (frameSrc f) (l.frameVid p f) = none)
    (hx : l.sw.fdbFree (frameSrc f) (l.frameVid p f) = some x) : alGet (l.frameIn p c8 f true).sw.fdb x =
      some { mac := frameSrc f, vid := l.frameVid p f, ports := 2 ^ p, static := false, seen := l.count } := by
  rw [h.frameIn, Leaf.foldl_congr (·.sw.fdb) _ _ _ fun q _ k => k.fdb_enqueue q _ _, Leaf.learn_new (l := l.portCount p 0) hl hm hk hx]
  exact alGet_alSet_same ..

/-- A frame for one port goes to its queue there. -/
theorem Leaf.Bridges.forward (h : l.Bridges p f) (c8 : Nat) (hl : l.bit Fld.SW_CTRL_LEARN = false)
    (hq : l.egressPorts p (frameDst f) (l.frameVid p f) = [q]) :
    l.frameIn p c8 f true = (l.portCount p 0).enqueue q (l.framePcp p f) { bytes := f, ingress8 := c8, port := p } := by
  have hq' : (l.portCount p 0).egressPorts p (frameDst f) (l.frameVid p f) = [q] := hq
  rw [h.frameIn, Leaf.learn_of_off (l := l.portCount p 0) hl, hq']
  rfl

/-- A leaf that runs is not woken by a frame. -/
theorem Leaf.takeFrame_of_runs (h : l.runs = true) (ok : Bool) : l.takeFrame p c8 f ok = l.frameIn p c8 f ok := by
  unfold Leaf.takeFrame
  dsimp only
  rw [if_neg]
  rw [Leaf.sleep_of_runs h]
  exact fun hx => absurd hx.1 (by decide)

theorem exec_frameReceived (h : s.ready i = true) (ok : Bool) :
    exec (.frameReceived i p c8 f ok) s = .next (s.setLeaf i (((s.leaf i).adv (c8 / 8)).frameIn p c8 f ok)).settle := by
  refine congrArg State.done ((State.event_of_ready h (c8 / 8)).trans ?_)
  rw [Leaf.takeFrame_of_runs ((Leaf.runs_adv _).trans (Leaf.runs_of_ready h))]

/-! ## Transmission -/

theorem Leaf.ports_deliver (l : Leaf) (p : Nat) (g : QFrame) : (l.deliver p g).sw.ports = l.sw.ports := by
  unfold Leaf.deliver
  split
  · split <;> rfl
  · rfl

/-- The first frame of the highest class that may send leaves its queue and occupies the port (R71). -/
theorem Leaf.transmit_highest {t : Nat} {g : QFrame} {rest : List QFrame} (hp : p < 6) (hen : l.bit (Fld.SW_P_CFG_EN p) = true)
    (hbusy : (l.port p).busyUntil ≤ l.count) (hk : ((List.range 8).reverse).find? (fun t => l.mayTx p t l.count) = some t)
    (hq : (l.port p).queues.getD t [] = g :: rest) : ∃ x : SwPort, x.queues = setAt (l.port p).queues t rest ∧ l.count ≤ x.busyUntil
      ∧ l.transmit p = ((l.setPort p x).portCount p 1).deliver p g := by
  simp only [Leaf.transmit, hp, hen, hbusy, hk, hq, decide_true, Bool.and_self, if_true]
  exact ⟨_, rfl, Nat.le_add_right .., rfl⟩

theorem Leaf.port_deliver (l : Leaf) (p q : Nat) (g : QFrame) : (l.deliver p g).port q = l.port q :=
  congrArg (·.getD q {}) (l.ports_deliver p g)

theorem exec_frameTransmit (h : s.ready i = true) (c : Nat) :
    exec (.frameTransmit i p c) s = .next (s.setLeaf i (((s.leaf i).adv c).transmit p)).settle :=
  congrArg State.done (State.event_of_ready h c)

theorem exec_fdbAgeOut (h : s.ready i = true) (x c : Nat) :
    exec (.fdbAgeOut i x c) s = .next (s.setLeaf i (((s.leaf i).adv c).fdbAge x)).settle :=
  congrArg State.done (State.event_of_ready h c)

/-- Settles O23: what frameIn, transmit and fdbAge make of the switch, which settling keeps. -/
theorem switchFrames : Obligations.SwitchFrames := by
  refine ⟨fun s i p c8 f h => ?_, fun s i p c8 f h hp hen hmin hmax ht hqci => ?_, fun s i p c t g rest h hp hports hen hbusy hk hlen hq => ?_,
    fun s i x c e h he hs ha => answers_of_exec ((exec_fdbAgeOut h x c).trans ?_)⟩
  · refine answersWith_of_setLeaf (exec_frameReceived h false) fun t kept other => ⟨?_, other⟩
    rw [kept.sw, Leaf.sw_frameIn_badFcs, Leaf.sw_adv]
  · have e := exec_frameReceived (p := p) (c8 := c8) (f := f) h true
    obtain ⟨n, hadv⟩ := (s.leaf i).adv_eq (c8 / 8)
    rw [hadv] at e ⊢
    have hb : Leaf.Bridges { s.leaf i with count := n } p f := ⟨hp, hen, hmin, hmax, ht, hqci⟩
    refine ⟨fun x hl hm hk hx => answersWith_of_setLeaf e fun t kept _ => ?_,
      fun q hl hq hports hlen hroom hmem => answersWith_of_setLeaf e fun t kept _ => ?_⟩
    · rw [kept.sw]
      exact hb.fdb_new c8 hl hm hk hx
    · rw [kept.port, hb.forward c8 hl hq]
      exact Leaf.queue_enqueue (l := Leaf.portCount { s.leaf i with count := n } p 0) hports hlen hroom hmem
  · have e := exec_frameTransmit (p := p) h c
    obtain ⟨n, hadv⟩ := (s.leaf i).adv_eq c
    rw [hadv] at e hbusy hk ⊢
    obtain ⟨x, hqueues, hends, hsent⟩ := Leaf.transmit_highest (l := { s.leaf i with count := n }) hp hen hbusy hk hq
    rw [hsent] at e
    refine answersWith_of_setLeaf e fun u kept _ => ?_
    have hport : (u.leaf i).port p = x := (kept.port p).trans ((Leaf.port_deliver ..).trans
      (Leaf.port_setPort (l := { s.leaf i with count := n }) x hports))
    rw [hport, hqueues]
    exact ⟨getD_setAt_same _ _ hlen, hends⟩
  · rw [Leaf.fdbAge_of_old (by rw [Leaf.sw_adv]; exact he) hs ((Leaf.adv_congr (·.get Fld.SW_CTRL_AGE_S) c fun _ => rfl).symm ▸ ha)]
    rfl

end Sys2Proof.Machine
end

section
/-!
PROOFS. Fields of registers under writes of other fields, the registers of the tick controller and of the barrier under settling, and the
first multiple of a period at or after an instant: what the statements about START, HALT and the barrier share.
-/
namespace Sys2Proof.Machine

variable {s s1 : State} {l m k : Leaf} {c : Instr}

/-- A command that ends in s1, before settling, answers what every state has that is s1 but for what settling may change. -/
theorem answersWith_of_exec {P : State → Prop} (e : exec c s = .next s1.settle) (h : ∀ t : State, s1.Kept t → P t) : AnswersWith c s P :=
  ⟨_, e, h _ (settle_kept s1)⟩

/-! ## Fields under writes -/

theorem Leaf.get_congr {f : FieldRef} (e : k.rd f.addr = l.rd f.addr) : k.get f = l.get f := by unfold Leaf.get; rw [e]

theorem Leaf.bit_congr {f : FieldRef} (e : k.rd f.addr = l.rd f.addr) : k.bit f = l.bit f := by unfold Leaf.bit; rw [Leaf.get_congr e]

theorem Leaf.bit_putB_other (l : Leaf) (f g : FieldRef) (b : Bool) (h : f.addr ≠ g.addr) : (l.putB f b).bit g = l.bit g :=
  Leaf.bit_congr (Leaf.rd_putB_other _ _ _ h)

/-- Setting a bit leaves the other bits of its register. -/
theorem Leaf.bit_putB_disjoint (l : Leaf) (f g : FieldRef) (b : Bool) (ha : f.addr = g.addr) (h : f.lo ≤ f.hi) (h32 : g.hi < 32)
    (hd : f.hi < g.lo ∨ g.hi < f.lo) : (l.putB f b).bit g = l.bit g :=
  congrArg (· != 0) (Leaf.get_put_disjoint l f g _ ha h h32 hd)

theorem Leaf.tick_swWrite (l : Leaf) (a w : Nat) : (l.swWrite a w).tick = l.tick := by unfold Leaf.swWrite; split <;> rfl

theorem Leaf.nextAt_swWrite (l : Leaf) (a w : Nat) : (l.swWrite a w).tick.nextAt = l.tick.nextAt := by rw [Leaf.tick_swWrite]

/-! ## What settling keeps -/

/-- No register of the tick controller settles. -/
theorem settles_tickReg {a : Nat} (ha : a / 2 ^ 20 = 1) (x : Nat) : settles a x = false := by
  rw [settles_def, if_neg (by omega), if_neg (by omega), if_neg (by omega), if_neg (by omega), if_neg (by omega)]
  simp only [Bool.or_eq_false_iff, Bool.and_eq_false_iff, beq_eq_false_iff_ne, decide_eq_false_iff_not]
  omega

theorem Leaf.Kept.tickBit (h : m.Kept k) (f : FieldRef) (hf : f.addr / 2 ^ 20 = 1 := by decide) : k.bit f = m.bit f :=
  Leaf.bit_congr (h.rd f.addr (settles_tickReg hf))

/-- Settling changes no field of LEAF_STATUS but MIRROR, bit 14. -/
theorem Leaf.Kept.leafStatus (h : m.Kept k) (f : FieldRef) (ha : f.addr = Reg.LEAF_STATUS) (hf : f.hi < 14 ∨ 14 < f.lo) :
    k.get f = m.get f :=
  h.get f fun x _ _ => by
    rw [ha, settles_def, if_neg (by decide), if_pos rfl]
    exact beq_eq_false_iff_ne.mpr (by omega)

theorem Leaf.Kept.waitMode (h : m.Kept k) : k.bit Fld.LEAF_STATUS_WAIT_MODE = m.bit Fld.LEAF_STATUS_WAIT_MODE :=
  congrArg (· != 0) (h.leafStatus Fld.LEAF_STATUS_WAIT_MODE rfl (by decide))

theorem Leaf.Kept.state (h : m.Kept k) : k.state = m.state := h.leafStatus Fld.LEAF_STATUS_STATE rfl (by decide)

/-! ## The first multiple of a period -/

/-- The quotient rounded up, as the model forms it, is at most n exactly when n periods reach x. -/
theorem divUp_le_iff {p : Nat} (hp : 0 < p) (x n : Nat) : (x + p - 1) / p ≤ n ↔ x ≤ p * n := ceilDiv_le_iff_le_mul hp

end Sys2Proof.Machine
end

section
/-!
PROOFS. START and HALT (R85 to R90, R129): what a write of TICK_CTRL makes of the tick controller.
-/
namespace Sys2Proof.Machine

variable {s : State} {i : LeafId} {l : Leaf} {locked : Bool} {w : Nat}

/-! ## The write of TICK_CTRL itself -/

/-- BARRIER is the one field of TICK_CTRL that is kept (Table 3.5). -/
theorem Leaf.swWrite_tickCtrl (l : Leaf) (w : Nat) :
    l.swWrite Reg.TICK_CTRL w = l.wr Reg.TICK_CTRL (setBits (l.rd Reg.TICK_CTRL) 1 1 (bitsOf w 1 1)) := rfl

theorem Leaf.barrier_swWrite_tickCtrl (l : Leaf) (w : Nat) :
    (l.swWrite Reg.TICK_CTRL w).get Fld.TICK_CTRL_BARRIER = bitsOf w 1 1 := by
  unfold Leaf.get
  rw [Leaf.swWrite_tickCtrl, Leaf.rd_wr_same, bitsOf_mod _ _ _ (by decide), bitsOf_setBits_same _ _ _ _ le_rfl]
  exact Nat.mod_eq_of_lt (bitsOf_lt w 1 1)

theorem Leaf.now_swWrite_tickCtrl (l : Leaf) (w : Nat) : (l.swWrite Reg.TICK_CTRL w).now = l.now :=
  Leaf.now_congr (Leaf.time_swWrite ..) (Leaf.count_swWrite ..) (Leaf.rd_swWrite_other _ _ (by decide)) (Leaf.rd_swWrite_other _ _ (by decide))

theorem Leaf.state_swWrite_tickCtrl (l : Leaf) (w : Nat) : (l.swWrite Reg.TICK_CTRL w).state = l.state :=
  Leaf.get_congr (Leaf.rd_swWrite_other _ _ (by decide))

/-! ## START -/

/-- A leaf that takes a START: GLAZED or HALTED, with a legal configuration, no load or update BUSY and no START under way (R85, R86, R129). -/
structure Leaf.CanStart (l : Leaf) : Prop where
  state : l.state = 3 ∨ l.state = 5
  notBusy : l.bit Fld.LEAF_GLZ_STAT_BUSY = false
  notPend : l.bit Fld.TICK_STAT_START_PEND = false
  notWaiting : l.bit Fld.TICK_STAT_BARRIER_WAIT = false
  notHeld : l.tick.held = false
  cfgOk : l.tickCfgOk = true

theorem Leaf.tickCfgOk_congr {k : Leaf} (hp : k.rd Reg.TICK_PERIOD = l.rd Reg.TICK_PERIOD) (hc : k.rd Reg.TICK_CFG = l.rd Reg.TICK_CFG) :
    k.tickCfgOk = l.tickCfgOk := by
  unfold Leaf.tickCfgOk
  rw [hp, Leaf.get_congr (f := Fld.TICK_CFG_SUB_RATIO) hc]

theorem Leaf.CanStart.swWrite (h : l.CanStart) (w : Nat) : (l.swWrite Reg.TICK_CTRL w).CanStart where
  state := by rw [Leaf.state_swWrite_tickCtrl]; exact h.state
  notBusy := (Leaf.bit_congr (Leaf.rd_swWrite_other _ _ (by decide))).trans h.notBusy
  notPend := (Leaf.bit_congr (Leaf.rd_swWrite_other _ _ (by decide))).trans h.notPend
  notWaiting := (Leaf.bit_congr (Leaf.rd_swWrite_other _ _ (by decide))).trans h.notWaiting
  notHeld := by rw [Leaf.tick_swWrite]; exact h.notHeld
  cfgOk := (Leaf.tickCfgOk_congr (Leaf.rd_swWrite_other _ _ (by decide)) (Leaf.rd_swWrite_other _ _ (by decide))).trans h.cfgOk

/-- A legal period is at least 5 ms (R82). -/
theorem Leaf.CanStart.period_pos (h : l.CanStart) : 0 < l.rd Reg.TICK_PERIOD := by
  have hc := h.cfgOk
  simp only [Leaf.tickCfgOk, Bool.and_eq_true, decide_eq_true_eq] at hc
  omega

theorem Leaf.CanStart.mayStart (h : l.CanStart) : l.mayStart = true := by
  unfold Leaf.mayStart
  rcases h.state with e | e <;> rw [e] <;> rfl

/-- A START that waits for the mode to be locked (R88). -/
def Leaf.heldStart (l : Leaf) : Leaf :=
  (l.setTick { l.tick with held := true, heldBarrier := l.bit Fld.TICK_CTRL_BARRIER }).putB Fld.LEAF_STATUS_WAIT_MODE true

theorem Leaf.tick_heldStart (l : Leaf) : l.heldStart.tick = { l.tick with held := true, heldBarrier := l.bit Fld.TICK_CTRL_BARRIER } := rfl

theorem Leaf.waitMode_heldStart (l : Leaf) : l.heldStart.bit Fld.LEAF_STATUS_WAIT_MODE = true :=
  Leaf.bit_putB_same _ _ _ (by decide) (by decide)

/-- A START that the leaf takes goes ahead in a locked mode, and is held before (R86, R88). -/
theorem Leaf.CanStart.startCmd (h : l.CanStart) (locked : Bool) :
    l.startCmd locked = if locked then l.tickGo (l.bit Fld.TICK_CTRL_BARRIER) else l.heldStart := by
  simp only [Leaf.startCmd, h.mayStart, h.notBusy, h.notPend, h.notWaiting, h.notHeld, h.cfgOk, Bool.not_true, Bool.or_self,
    Bool.false_eq_true, if_false]
  rfl

theorem Leaf.startCmd_of_busy (h : l.bit Fld.LEAF_GLZ_STAT_BUSY = true) : l.startCmd locked = l.tickCmdRefused := by
  unfold Leaf.startCmd
  rw [h, Bool.or_true, if_pos rfl]

theorem Leaf.startCmd_of_ticking (h : l.ticking = true) : l.startCmd locked = l.tickCmdRefused := by
  have hs : l.mayStart = false := by unfold Leaf.mayStart; rw [beq_iff_eq.mp h]; rfl
  unfold Leaf.startCmd
  rw [hs, Bool.not_false, Bool.true_or, if_pos rfl]

/-- A refusal is CMD_REFUSED and its event. -/
theorem Leaf.irq_tickCmdRefused (l : Leaf) : (l.putB Fld.TICK_STAT_CMD_REFUSED true).IrqOnly l.tickCmdRefused :=
  l.irq_flagEvent _ (by decide)

theorem Leaf.refused_tickCmdRefused (l : Leaf) : l.tickCmdRefused.bit Fld.TICK_STAT_CMD_REFUSED = true :=
  (l.irq_tickCmdRefused.bit _ (by decide)).trans (Leaf.bit_putB_same _ _ _ (by decide) (by decide))

theorem Leaf.tick_tickCmdRefused (l : Leaf) : l.tickCmdRefused.tick = l.tick := by rw [l.irq_tickCmdRefused.eq]; rfl

theorem Leaf.state_tickCmdRefused (l : Leaf) : l.tickCmdRefused.state = l.state :=
  (l.irq_tickCmdRefused.get _ (by decide)).trans (Leaf.get_put_other _ _ _ _ (by decide))

/-! ## The first boundary (R86) -/

/-- The number of the first tick that neither TICK_START nor the period from now rules out. -/
def Leaf.firstTick (l : Leaf) : Nat :=
  max ((l.rd64 Reg.TICK_START_LO Reg.TICK_START_HI + l.rd Reg.TICK_PERIOD - 1) / l.rd Reg.TICK_PERIOD)
    ((l.now + 2 * 65536 * l.rd Reg.TICK_PERIOD - 1) / (65536 * l.rd Reg.TICK_PERIOD))

theorem Leaf.firstTick_le_iff (hp : 0 < l.rd Reg.TICK_PERIOD) (n : Nat) : l.firstTick ≤ n ↔
    l.rd64 Reg.TICK_START_LO Reg.TICK_START_HI ≤ n * l.rd Reg.TICK_PERIOD
      ∧ l.now + 65536 * l.rd Reg.TICK_PERIOD ≤ 65536 * (n * l.rd Reg.TICK_PERIOD) := by
  have h2 : l.now + 2 * 65536 * l.rd Reg.TICK_PERIOD = l.now + 65536 * l.rd Reg.TICK_PERIOD + 65536 * l.rd Reg.TICK_PERIOD := by omega
  unfold Leaf.firstTick
  rw [max_le_iff, h2, divUp_le_iff hp, divUp_le_iff (by omega), Nat.mul_assoc 65536, Nat.mul_comm (l.rd Reg.TICK_PERIOD) n]

/-- The boundary scheduled is the one of that tick. -/
theorem Leaf.tickSchedule_eq (l : Leaf) : l.tickSchedule = (l.setTick { l.tick with
    nextAt := some (l.firstTick * l.rd Reg.TICK_PERIOD), first := true, halt := false, held := false, heldBarrier := false }).putB
      Fld.TICK_STAT_START_PEND true := rfl

theorem Leaf.firstTick_congr {k : Leaf} (hnow : k.now = l.now) (hp : k.rd Reg.TICK_PERIOD = l.rd Reg.TICK_PERIOD)
    (hlo : k.rd Reg.TICK_START_LO = l.rd Reg.TICK_START_LO) (hhi : k.rd Reg.TICK_START_HI = l.rd Reg.TICK_START_HI) :
    k.firstTick = l.firstTick := by
  unfold Leaf.firstTick Leaf.rd64
  rw [hnow, hp, hlo, hhi]

/-- A START released at once: WAIT_MODE reads 0. -/
def Leaf.unheld (l : Leaf) : Leaf := (l.setTick { l.tick with held := false, heldBarrier := false }).putB Fld.LEAF_STATUS_WAIT_MODE false

theorem Leaf.rd_unheld (l : Leaf) {a : Nat} (h : Reg.LEAF_STATUS ≠ a) : l.unheld.rd a = l.rd a :=
  Leaf.rd_putB_other (l.setTick { l.tick with held := false, heldBarrier := false }) _ _ h

theorem Leaf.firstTick_unheld (l : Leaf) : l.unheld.firstTick = l.firstTick :=
  Leaf.firstTick_congr (Leaf.now_congr rfl rfl (l.rd_unheld (by decide)) (l.rd_unheld (by decide))) (l.rd_unheld (by decide))
    (l.rd_unheld (by decide)) (l.rd_unheld (by decide))

/-- With a barrier the leaf waits for it (R87). -/
theorem Leaf.barrierWait_tickGo (l : Leaf) : (l.tickGo true).bit Fld.TICK_STAT_BARRIER_WAIT = true :=
  Leaf.bit_putB_same l.unheld _ true (by decide) (by decide)

theorem Leaf.nextAt_tickGo_barrier (l : Leaf) : (l.tickGo true).tick.nextAt = l.tick.nextAt := rfl

theorem Leaf.startPend_tickGo (l : Leaf) : (l.tickGo false).bit Fld.TICK_STAT_START_PEND = true :=
  Leaf.bit_putB_same (l.unheld.setTick l.unheld.tickSchedule.tick) _ true (by decide) (by decide)

/-- Without a barrier the first boundary is scheduled (R86). -/
theorem Leaf.tick_tickGo (l : Leaf) : (l.tickGo false).tick = { l.tick with
    nextAt := some (l.firstTick * l.rd Reg.TICK_PERIOD), first := true, halt := false, held := false, heldBarrier := false } := by
  have e : l.tickGo false = l.unheld.tickSchedule := rfl
  rw [e, Leaf.tickSchedule_eq, Leaf.firstTick_unheld, l.rd_unheld (by decide)]
  rfl

/-! ## HALT -/

theorem Leaf.tickHalt_of_ticking (h : l.ticking = true) : l.tickHalt = l.setTick { l.tick with halt := true } := if_pos h

theorem Leaf.ticking_congr {k : Leaf} (h : k.state = l.state) : k.ticking = l.ticking := by unfold Leaf.ticking; rw [h]

/-- HALT of a TICKING leaf, whatever else the word holds: a START in it is refused (R86, R90). -/
theorem Leaf.writeTickCtrl_halt (h : l.ticking = true) (h30 : bitOf w 30 = true) :
    (l.writeTickCtrl locked w).tick = { l.tick with halt := true } ∧ (l.writeTickCtrl locked w).state = l.state := by
  have hs := l.state_swWrite_tickCtrl w
  have ht := (Leaf.ticking_congr hs).trans h
  have htick := l.tick_swWrite Reg.TICK_CTRL w
  unfold Leaf.writeTickCtrl
  generalize l.swWrite Reg.TICK_CTRL w = x at hs ht htick
  dsimp only
  rw [if_pos h30, ← hs, ← htick]
  split
  · rw [Leaf.startCmd_of_ticking ht, Leaf.tickHalt_of_ticking ((Leaf.ticking_congr x.state_tickCmdRefused).trans ht),
      Leaf.tick_tickCmdRefused]
    exact ⟨rfl, x.state_tickCmdRefused⟩
  · rw [Leaf.tickHalt_of_ticking ht]
    exact ⟨rfl, rfl⟩

/-! ## The commands -/

theorem Leaf.writeTickCtrl_start (h30 : bitOf w 30 = false) (h31 : bitOf w 31 = true) :
    l.writeTickCtrl locked w = (l.swWrite Reg.TICK_CTRL w).startCmd locked := by
  simp only [Leaf.writeTickCtrl, h30, h31, Bool.false_eq_true, if_false, if_true]

/-- TICK_CTRL is written with the hinge's LOCKED at hand. -/
theorem State.tickCtrl_of_ready (h : s.ready i = true) (w : Nat) : s.regWrite i Reg.TICK_CTRL w
    = s.setLeaf i ((s.leaf i).writeTickCtrl (s.hinge.bit Fld.HINGE_MODE_LOCKED) w) := by
  obtain ⟨hsq, hcq⟩ := (noDoorbell_iff Reg.TICK_CTRL).mp (noDoorbell_of_outside (by decide))
  unfold State.regWrite State.pf0Write
  rw [if_neg (not_not.mpr (leafBase_add_mod i rfl)), leafOf_leafBase i (by decide)]
  dsimp only
  unfold State.leafWrite
  rw [State.opens_of_ready _ h, hsq, hcq]
  rfl

theorem exec_start (h : s.ready i = true) {w : Word} (h30 : bitOf w.toNat 30 = false) : exec (.start i w) s
    = .next (s.setLeaf i (((s.leaf i).swWrite Reg.TICK_CTRL (setBits w.toNat 31 31 1)).startCmd (s.hinge.bit Fld.HINGE_MODE_LOCKED))).settle := by
  refine congrArg State.done ((State.tickCtrl_of_ready h _).trans ?_)
  rw [show wordWith w Fld.TICK_CTRL_START 1 = setBits w.toNat 31 31 1 from rfl,
    Leaf.writeTickCtrl_start ((bitOf_setBits_other _ _ (by decide)).trans h30) (bitOf_setBits_same ..)]

theorem exec_halt (h : s.ready i = true) (w : Word) : exec (.halt i w) s = .next (s.setLeaf i
    ((s.leaf i).writeTickCtrl (s.hinge.bit Fld.HINGE_MODE_LOCKED) (setBits w.toNat 30 30 1))).settle :=
  congrArg State.done (State.tickCtrl_of_ready h _)

/-- BARRIER after START is written is the word's bit. -/
theorem Leaf.barrier_startWord (l : Leaf) (w : Word) : (l.swWrite Reg.TICK_CTRL (setBits w.toNat 31 31 1)).get Fld.TICK_CTRL_BARRIER
    = bitsOf w.toNat 1 1 :=
  (l.barrier_swWrite_tickCtrl _).trans (bitsOf_setBits_disjoint _ _ _ _ _ _ le_rfl (by decide))

/-- A START that goes ahead: it waits for the barrier with BARRIER 1, and is scheduled with BARRIER 0 (R86, R87). -/
theorem exec_start_locked (h : s.ready i = true) {w : Word} (h30 : bitOf w.toNat 30 = false) (hc : (s.leaf i).CanStart)
    (hl : s.hinge.bit Fld.HINGE_MODE_LOCKED = true) : exec (.start i w) s
    = .next (s.setLeaf i (((s.leaf i).swWrite Reg.TICK_CTRL (setBits w.toNat 31 31 1)).tickGo (bitsOf w.toNat 1 1 != 0))).settle := by
  rw [exec_start h h30, hl, (hc.swWrite _).startCmd, if_pos rfl, Leaf.bit, Leaf.barrier_startWord]

/-- Settles O26: each write of TICK_CTRL by the one branch of START or HALT that its premises select. -/
theorem startAndHalt : Obligations.StartAndHalt := by
  refine ⟨fun s i w p h h30 hp hst hpend hwait hheld hcfg hbusy => ?_, fun s i w h _ h30 hbusy => ?_, fun s i w h ht => ?_⟩
  · have hc : (s.leaf i).CanStart := ⟨hst, hbusy, hpend, hwait, hheld, hcfg⟩
    refine ⟨fun hl => ?_, fun hl hb => ?_, fun hl hb => ?_⟩
    · have e := exec_start h h30
      rw [hl, (hc.swWrite _).startCmd, if_neg (by decide)] at e
      refine answersWith_of_setLeaf e fun t kept _ => ?_
      rw [kept.waitMode, kept.tick, Leaf.tick_heldStart]
      exact ⟨Leaf.waitMode_heldStart _, rfl, Leaf.nextAt_swWrite ..⟩
    · have e := exec_start_locked h h30 hc hl
      rw [show (bitsOf w.toNat 1 1 != 0) = true from congrArg (· != 0) hb] at e
      refine answersWith_of_setLeaf e fun t kept _ => ?_
      rw [kept.tickBit _, kept.tick, Leaf.nextAt_tickGo_barrier]
      exact ⟨Leaf.barrierWait_tickGo _, Leaf.nextAt_swWrite ..⟩
    · have e := exec_start_locked h h30 hc hl
      rw [show (bitsOf w.toNat 1 1 != 0) = false from congrArg (· != 0) hb] at e
      refine answersWith_of_setLeaf e fun t kept _ => ?_
      have hpos := hc.period_pos
      have htick := kept.tick.trans (Leaf.tick_tickGo _)
      rw [Leaf.firstTick_congr (l := s.leaf i) (Leaf.now_swWrite_tickCtrl ..) (Leaf.rd_swWrite_other _ _ (by decide))
        (Leaf.rd_swWrite_other _ _ (by decide)) (Leaf.rd_swWrite_other _ _ (by decide)), Leaf.rd_swWrite_other _ _ (by decide), ← hp] at htick
      have hfirst := fun n => Leaf.firstTick_le_iff (l := s.leaf i) hpos n
      rw [← hp] at hfirst
      obtain ⟨hstart, hnow⟩ := (hfirst _).mp le_rfl
      refine ⟨(kept.tickBit _).trans (Leaf.startPend_tickGo _), congrArg TickState.first htick, (s.leaf i).firstTick,
        congrArg TickState.nextAt htick, hstart, hnow, fun hk => ?_⟩
      have hless := mt (hfirst _).mpr (show ¬ (s.leaf i).firstTick ≤ (s.leaf i).firstTick - 1 by omega)
      rwa [not_and_or, Nat.not_le, Nat.not_le] at hless
  · have hb : ((s.leaf i).swWrite Reg.TICK_CTRL (setBits w.toNat 31 31 1)).bit Fld.LEAF_GLZ_STAT_BUSY = true :=
      (Leaf.bit_congr (Leaf.rd_swWrite_other _ _ (by decide))).trans hbusy
    have e := exec_start h h30
    rw [Leaf.startCmd_of_busy hb] at e
    refine answersWith_of_setLeaf e fun t kept _ => ⟨?_, ?_, ?_⟩
    · exact (kept.tickBit _).trans (Leaf.refused_tickCmdRefused _)
    · rw [kept.state, Leaf.state_tickCmdRefused, Leaf.state_swWrite_tickCtrl]
    · rw [kept.tick, Leaf.tick_tickCmdRefused, Leaf.tick_swWrite]
  · obtain ⟨htick, hstate⟩ := Leaf.writeTickCtrl_halt (locked := s.hinge.bit Fld.HINGE_MODE_LOCKED) ht (bitOf_setBits_same w.toNat 30)
    refine answersWith_of_setLeaf (exec_halt h w) fun t kept _ => ?_
    rw [kept.tick, htick, Leaf.ticking_congr (kept.state.trans hstate)]
    exact ⟨rfl, ht, rfl⟩

end Sys2Proof.Machine
end

section
/-!
PROOFS. The barrier (R87, R438 to R440): FIRE and CANCEL, the pulse and its end, and the edge that starts the leaves that wait for it.
-/
namespace Sys2Proof.Machine

variable {s : State} {i : LeafId} {l : Leaf} {h : Hinge} {w : Nat}

theorem Hinge.Kept.bit {k : Hinge} (e : h.Kept k) (f : FieldRef) (hf : ∀ x, hingeSettles f.addr x = false) : k.bit f = h.bit f :=
  Hinge.bit_congr (e.rd f.addr hf)

/-- A command that ends in a changed hinge, before settling. -/
theorem answersWith_of_setHinge {s1 : State} {c : Instr} {P : State → Prop} (e : exec c s = .next (s1.setHinge h).settle)
    (hP : ∀ t : State, h.Kept t.hinge → P t) : AnswersWith c s P :=
  answersWith_of_exec e fun t kept => hP t kept.hinge

/-! ## The write of HINGE_BAR_CTRL itself -/

/-- SRC and WIDTH are the fields of HINGE_BAR_CTRL that are kept (Table 16.5). -/
theorem Hinge.swWrite_barCtrl (h : Hinge) (w : Nat) : h.swWrite Reg.HINGE_BAR_CTRL w
    = h.wr Reg.HINGE_BAR_CTRL (setBits (setBits (h.rd Reg.HINGE_BAR_CTRL) 8 8 (bitsOf w 8 8)) 7 0 (bitsOf w 7 0)) := rfl

theorem Hinge.rd_swWrite_barCtrl (h : Hinge) (w : Nat) {a : Nat} (ha : Reg.HINGE_BAR_CTRL ≠ a) :
    (h.swWrite Reg.HINGE_BAR_CTRL w).rd a = h.rd a := Hinge.rd_wr_other _ _ ha

theorem Hinge.pending_swWrite_barCtrl (h : Hinge) (w : Nat) :
    (h.swWrite Reg.HINGE_BAR_CTRL w).bit Fld.HINGE_BAR_STAT_PENDING = h.bit Fld.HINGE_BAR_STAT_PENDING :=
  Hinge.bit_congr (h.rd_swWrite_barCtrl w (by decide))

theorem Hinge.up_swWrite_barCtrl (h : Hinge) (w : Nat) (i : LeafId) : (h.swWrite Reg.HINGE_BAR_CTRL w).up i = h.up i :=
  Hinge.up_congr (h.rd_swWrite_barCtrl w (by decide)) i

theorem Hinge.barrier_swWrite (h : Hinge) (a w : Nat) : (h.swWrite a w).barrier = h.barrier := by unfold Hinge.swWrite; split <;> rfl

theorem Hinge.src_swWrite_barCtrl (h : Hinge) (w : Nat) : (h.swWrite Reg.HINGE_BAR_CTRL w).get Fld.HINGE_BAR_CTRL_SRC = bitsOf w 8 8 := by
  unfold Hinge.get
  rw [Hinge.swWrite_barCtrl, Hinge.rd_wr_same, bitsOf_mod _ _ _ (by decide), bitsOf_setBits_disjoint _ _ _ _ _ _ (by decide) (by decide),
    bitsOf_setBits_same _ _ _ _ le_rfl]
  exact Nat.mod_eq_of_lt (bitsOf_lt w 8 8)

/-! ## FIRE and CANCEL -/

/-- The number of the first tick whose middle is at least a period from now (R439). -/
def Leaf.fireTick (l : Leaf) : Nat :=
  (l.now + 65536 * l.rd Reg.TICK_PERIOD - 65536 * (l.rd Reg.TICK_PERIOD / 2) + 65536 * l.rd Reg.TICK_PERIOD - 1)
    / (65536 * l.rd Reg.TICK_PERIOD)

theorem Leaf.fireTick_le_iff (hp : 0 < l.rd Reg.TICK_PERIOD) (n : Nat) : l.fireTick ≤ n ↔
    l.now + 65536 * l.rd Reg.TICK_PERIOD ≤ 65536 * (n * l.rd Reg.TICK_PERIOD + l.rd Reg.TICK_PERIOD / 2) := by
  unfold Leaf.fireTick
  rw [divUp_le_iff (by omega), Nat.mul_assoc 65536, Nat.mul_comm (l.rd Reg.TICK_PERIOD) n, Nat.mul_add]
  exact Nat.sub_le_iff_le_add

/-- The hinge with a pulse of leaf i pending. -/
def Hinge.fires (h : Hinge) (i : LeafId) (t : Nat) : Hinge :=
  ({ h with barrier := { h.barrier with fireLeaf := i, fireAt := some t } }).putB Fld.HINGE_BAR_STAT_PENDING true

theorem Hinge.pending_fires (h : Hinge) (i : LeafId) (t : Nat) : (h.fires i t).bit Fld.HINGE_BAR_STAT_PENDING = true :=
  Hinge.bit_putB_same _ _ _ (by decide) (by decide)

theorem Hinge.barrier_fires (h : Hinge) (i : LeafId) (t : Nat) : (h.fires i t).barrier = { h.barrier with fireLeaf := i, fireAt := some t } := rfl

theorem Hinge.pending_barCancel (h : Hinge) : h.barCancel.bit Fld.HINGE_BAR_STAT_PENDING = false :=
  Hinge.bit_putB_same _ _ _ (by decide) (by decide)

theorem Hinge.barrier_barCancel (h : Hinge) : h.barCancel.barrier = { h.barrier with fireAt := none } := rfl

/-- A FIRE whose leaf has ticks, with no pulse pending (R439). -/
theorem State.barFire_of_free (hpend : s.hinge.bit Fld.HINGE_BAR_STAT_PENDING = false) (hsrc : s.hinge.get Fld.HINGE_BAR_CTRL_SRC = i.toNat)
    (hup : s.hinge.up i = true) (hst : (s.leaf i).state = 3 ∨ (s.leaf i).state = 4 ∨ (s.leaf i).state = 5)
    (hp : (s.leaf i).rd Reg.TICK_PERIOD ≠ 0) : s.barFire = s.setHinge (s.hinge.fires i
      ((s.leaf i).fireTick * (s.leaf i).rd Reg.TICK_PERIOD + (s.leaf i).rd Reg.TICK_PERIOD / 2)) := by
  have hi : (if s.hinge.bit Fld.HINGE_BAR_CTRL_SRC then LeafId.B else .A) = i := by
    unfold Hinge.bit
    rw [hsrc]
    cases i <;> rfl
  have hst' : ((s.leaf i).state == 3 || (s.leaf i).state == 4 || (s.leaf i).state == 5) = true := by
    simpa only [Bool.or_eq_true, beq_iff_eq, or_assoc] using hst
  have hok : (s.hinge.up i && ((s.leaf i).state == 3 || (s.leaf i).state == 4 || (s.leaf i).state == 5)
      && (s.leaf i).rd Reg.TICK_PERIOD != 0) = true := by
    rw [hup, hst', bne_iff_ne.mpr hp]
    rfl
  unfold State.barFire
  dsimp only
  rw [hi, hpend, if_neg (by decide), if_pos hok]
  rfl

theorem State.writeBarCtrl_fire (h30 : bitOf w 30 = false) (h31 : bitOf w 31 = true) :
    s.writeBarCtrl w = (s.setHinge (s.hinge.swWrite Reg.HINGE_BAR_CTRL w)).barFire := by
  simp only [State.writeBarCtrl, h30, h31, Bool.false_eq_true, if_false, if_true]
  rfl

theorem State.writeBarCtrl_cancel (h30 : bitOf w 30 = true) (h31 : bitOf w 31 = false) :
    s.writeBarCtrl w = s.setHinge (s.hinge.swWrite Reg.HINGE_BAR_CTRL w).barCancel := by
  simp only [State.writeBarCtrl, h30, h31, Bool.false_eq_true, if_false, if_true]
  rfl

/-- While the hinge is out of reset a command of HINGE_BAR_CTRL is its write. -/
theorem State.hingeField_barCtrl (hh : s.hinge.held = false) (n v : Nat) (w : Word) :
    s.hingeField ⟨Reg.HINGE_BAR_CTRL, n, n⟩ v w = s.writeBarCtrl (setBits w.toNat n n v) := by
  unfold State.hingeField State.pf0Write
  dsimp only
  rw [if_neg (show ¬ Reg.HINGE_BAR_CTRL % 4 ≠ 0 by decide), show leafOf Reg.HINGE_BAR_CTRL = none from rfl]
  dsimp only
  unfold State.hingeWrite
  rw [hh]
  rfl

theorem exec_barFire (hh : s.hinge.held = false) {w : Word} (h30 : bitOf w.toNat 30 = false) : exec (.barFire w) s
    = .next ((s.setHinge (s.hinge.swWrite Reg.HINGE_BAR_CTRL (setBits w.toNat 31 31 1))).barFire).settle := by
  refine congrArg State.done ((State.hingeField_barCtrl hh 31 1 w).trans ?_)
  exact State.writeBarCtrl_fire ((bitOf_setBits_other _ _ (by decide)).trans h30) (bitOf_setBits_same ..)

theorem exec_barrierCancel (hh : s.hinge.held = false) {w : Word} (h31 : bitOf w.toNat 31 = false) : exec (.barrierCancel w) s
    = .next (s.setHinge (s.hinge.swWrite Reg.HINGE_BAR_CTRL (setBits w.toNat 30 30 1)).barCancel).settle := by
  refine congrArg State.done ((State.hingeField_barCtrl hh 30 1 w).trans ?_)
  exact State.writeBarCtrl_cancel (bitOf_setBits_same ..) ((bitOf_setBits_other _ _ (by decide)).trans h31)

/-! ## The pulse -/

/-- The hinge with a pulse on BARRIER_OUT that ends at e. -/
def Hinge.pulses (h : Hinge) (e : Nat) : Hinge :=
  ({ h with barrier := { h.barrier with fireAt := none, out := true, outEnd := some e } }).putB Fld.HINGE_BAR_STAT_PENDING false

theorem Hinge.pending_pulses (h : Hinge) (e : Nat) : (h.pulses e).bit Fld.HINGE_BAR_STAT_PENDING = false :=
  Hinge.bit_putB_same _ _ _ (by decide) (by decide)

theorem Hinge.barrier_pulses (h : Hinge) (e : Nat) :
    (h.pulses e).barrier = { h.barrier with fireAt := none, out := true, outEnd := some e } := rfl

/-- The due pulse (R439). -/
theorem State.barPulse_of_due {t : Nat} (ht : s.hinge.barrier.fireAt = some t)
    (hd : 65536 * t ≤ (s.leaf s.hinge.barrier.fireLeaf).now) : ∃ e, s.barPulse = s.setHinge (s.hinge.pulses e) := by
  refine ⟨65536 * (t + 8 * max 0x0D (s.hinge.get Fld.HINGE_BAR_CTRL_WIDTH)), ?_⟩
  simp only [State.barPulse, ht, Nat.not_lt.mpr hd, if_false]
  rfl

theorem State.barPulseEnd_of_due {t : Nat} (ht : s.hinge.barrier.outEnd = some t) (hd : t ≤ (s.leaf s.hinge.barrier.fireLeaf).now) :
    s.barPulseEnd = s.onHinge fun h => { h with barrier := { h.barrier with out := false, outEnd := none } } := by
  simp only [State.barPulseEnd, ht, Nat.not_lt.mpr hd, if_false]
  rfl

/-! ## The edge -/

theorem Leaf.bit_setTick (l : Leaf) (x : TickState) (f : FieldRef) : (l.setTick x).bit f = l.bit f := rfl

/-- No leaf waits for the barrier once an edge has reached it (R87). -/
theorem Leaf.barrierWait_tickBarrier (l : Leaf) : l.tickBarrier.bit Fld.TICK_STAT_BARRIER_WAIT = false := by
  unfold Leaf.tickBarrier
  split
  · rw [Leaf.tickSchedule_eq, Leaf.bit_putB_disjoint _ Fld.TICK_STAT_START_PEND Fld.TICK_STAT_BARRIER_WAIT _ rfl (by decide) (by decide)
      (by decide), Leaf.bit_setTick]
    exact Leaf.bit_putB_same l _ false (by decide) (by decide)
  · exact Bool.eq_false_iff.mpr ‹_›

theorem State.leaf_barrierIn (s : State) (i : LeafId) : s.barrierIn.leaf i = (s.leaf i).tickBarrier := by cases i <;> rfl

/-- An edge counts and sets SEEN, and the event's message may go out (R438). -/
theorem State.hinge_barrierIn (s : State) :
    ((s.hinge.inc Fld.HINGE_BAR_CNT_COUNT).putB Fld.HINGE_BAR_STAT_SEEN true).Kept s.barrierIn.hinge := Hinge.kept_message ..

theorem exec_barrierInEdge (hh : s.hinge.held = false) (ca cb : Nat) : exec (.barrierInEdge ca cb) s
    = .next (((s.onLeaf .A fun x => x.adv ca).onLeaf .B fun x => x.adv cb).barrierIn).settle := by
  refine congrArg State.done (if_neg ?_)
  rw [State.hinge_onLeaf, State.hinge_onLeaf, hh]
  decide

/-- Settles O18: each command by the one operation of the barrier that its premises select. -/
theorem barrierCommands : Obligations.BarrierCommands := by
  refine ⟨fun s w i hh h30 hpend hsrc hup hst hp => ?_, fun s w hh h31 => ?_, fun s c at' ht hd => ?_, fun s c e he hd => answers_of_exec ?_,
    fun s ca cb hh => ?_⟩
  · have e := exec_barFire hh h30
    have hsrc' := (s.hinge.src_swWrite_barCtrl (setBits w.toNat 31 31 1)).trans
      ((bitsOf_setBits_disjoint _ _ _ _ _ _ le_rfl (by decide)).trans hsrc)
    have hpend' := (s.hinge.pending_swWrite_barCtrl (setBits w.toNat 31 31 1)).trans hpend
    have hup' := (s.hinge.up_swWrite_barCtrl (setBits w.toNat 31 31 1) i).trans hup
    generalize s.hinge.swWrite Reg.HINGE_BAR_CTRL (setBits w.toNat 31 31 1) = h at e hsrc' hpend' hup'
    rw [State.barFire_of_free (s := s.setHinge h) hpend' hsrc' hup' (by rw [State.leaf_setHinge]; exact hst)
      (by rw [State.leaf_setHinge]; exact hp), State.leaf_setHinge] at e
    refine answersWith_of_setHinge e fun t kept => ?_
    have hfirst := fun n => Leaf.fireTick_le_iff (l := s.leaf i) (by omega) n
    rw [kept.bit _ fun _ => rfl, kept.barrier, Hinge.barrier_fires]
    refine ⟨Hinge.pending_fires .., rfl, (s.leaf i).fireTick, rfl, (hfirst _).mp le_rfl, fun hk => ?_⟩
    exact Nat.not_le.mp (mt (hfirst _).mpr (by omega))
  · refine answersWith_of_setHinge (exec_barrierCancel hh h31) fun t kept => ?_
    rw [kept.bit _ fun _ => rfl, kept.barrier, Hinge.barrier_barCancel, Hinge.barrier_swWrite]
    exact ⟨rfl, Hinge.pending_barCancel _, rfl⟩
  · obtain ⟨e, hpulse⟩ := State.barPulse_of_due (s := s.onLeaf s.hinge.barrier.fireLeaf fun x => x.adv c)
      (by rw [State.hinge_onLeaf]; exact ht) (by rw [State.hinge_onLeaf, State.leaf_onLeaf_same]; exact hd)
    refine answersWith_of_setHinge (congrArg State.done hpulse) fun t kept => ?_
    rw [kept.bit _ fun _ => rfl, kept.barrier, Hinge.barrier_pulses]
    exact ⟨rfl, rfl, Hinge.pending_pulses ..⟩
  · refine congrArg State.done (State.barPulseEnd_of_due (t := e) ?_ ?_)
    · rw [State.hinge_onLeaf]; exact he
    · rw [State.hinge_onLeaf, State.leaf_onLeaf_same]; exact hd
  · refine answersWith_of_exec (exec_barrierInEdge hh ca cb) fun t kept => ?_
    have hedge := State.hinge_barrierIn ((s.onLeaf .A fun x => x.adv ca).onLeaf .B fun x => x.adv cb)
    rw [State.hinge_onLeaf, State.hinge_onLeaf] at hedge
    have hkept := hedge.trans kept.hinge
    refine ⟨?_, ?_, fun i => ?_⟩
    · exact (Hinge.get_congr (hkept.rd Reg.HINGE_BAR_CNT fun _ => rfl)).trans ((Hinge.get_put_other _ _ _ _ (by decide)).trans
        (Hinge.get_put_same _ _ _ (by decide) (by decide)))
    · exact (hkept.bit _ fun _ => rfl).trans (Hinge.bit_putB_same _ _ true (by decide) (by decide))
    · have hleaf := kept.leaf i
      rw [State.leaf_barrierIn] at hleaf
      exact (hleaf.tickBit _).trans (Leaf.barrierWait_tickBarrier _)

end Sys2Proof.Machine
end

section
/-!
PROOFS. The token fabric: what TOKEN_ARRIVAL and CREDIT_RETURN do with the tokens and credits of a route (R168, R171, R528).
-/
namespace Sys2Proof.Machine

variable {s : State} {i : LeafId} {l m : Leaf} {r : Nat} {d : RouteDesc} {t : Token} {rest : List Token} {bad links : List Nat}

/-! ## Events without a count -/

/-- An event without a count of its own, of a leaf that runs. -/
theorem State.eventNow_of_ready (h : s.ready i = true) (f : Leaf → Leaf) :
    s.eventNow i Leaf.runs f = s.setLeaf i (f (s.leaf i)) := by
  unfold State.eventNow State.onLeaf
  dsimp only
  rw [if_pos (Leaf.runs_of_ready h)]

theorem exec_tokenArrival (h : s.ready i = true) (r : Nat) (bad : List Nat) :
    exec (.tokenArrival i r bad) s = .next (s.setLeaf i ((s.leaf i).tokenArrival r bad)).settle :=
  congrArg State.done (State.eventNow_of_ready h _)

theorem exec_creditReturn (h : s.ready i = true) (r : Nat) (bad : List Nat) :
    exec (.creditReturn i r bad) s = .next (s.setLeaf i ((s.leaf i).creditReturn r bad)).settle :=
  congrArg State.done (State.eventNow_of_ready h _)

/-- An event that finds nothing to do. -/
theorem answers_self_of_setLeaf {c : Instr} (e : exec c s = .next (s.setLeaf i m).settle) (h : m = s.leaf i) : Answers c s s :=
  answers_of_exec (e.trans (by rw [h, State.setLeaf_self]))

/-! ## CRC failures on a path (R528) -/

theorem Leaf.Near.inject {b : Prop} (h : l.Near b m) : m.flt.inject = l.flt.inject := by rw [h.flt]

theorem Leaf.injLink_of_none (h : l.flt.inject = none) (links : List Nat) : l.injLink links = none := by
  unfold Leaf.injLink
  rw [h]

/-- Without an injection the CRC failures of a path are those reported at its links; logging them changes no more than settling may. -/
theorem Leaf.crcAt_of_no_injection (h : l.flt.inject = none) (links bad : List Nat) :
    ∃ m, l.Near True m ∧ l.crcAt links bad = (!(bad.filter fun k => links.contains k).isEmpty, m) := by
  have near : l.Near True ((bad.filter fun k => links.contains k).foldl (fun (m : Leaf) k => m.linkCrc false k) l) :=
    Leaf.near_foldl _ _ _ fun k _ n => Leaf.near_notify n 0x0C { block := 0x10, inst := k, flags := 0 }
  refine ⟨_, near, ?_⟩
  unfold Leaf.crcAt
  dsimp only
  rw [Leaf.injLink_of_none (near.inject.trans h)]

theorem Leaf.crcAt_nil (h : l.flt.inject = none) (links : List Nat) : l.crcAt links [] = (false, l) := by
  unfold Leaf.crcAt
  dsimp only [List.filter_nil, List.foldl_nil]
  rw [Leaf.injLink_of_none h]
  rfl

/-- One failure at a link of the path is a failure of the token. -/
theorem Leaf.crcAt_singleton {k : Nat} (h : l.flt.inject = none) (hk : k ∈ links) : ∃ m, l.Near True m ∧ l.crcAt links [k] = (true, m) := by
  obtain ⟨m, near, e⟩ := Leaf.crcAt_of_no_injection h links [k]
  exact ⟨m, near, e.trans (by simp [hk])⟩

/-! ## The oldest token of a route -/

theorem Leaf.tokenArrival_of_no_flight (h : (l.route r).flight = []) (bad : List Nat) : l.tokenArrival r bad = l := by
  unfold Leaf.tokenArrival
  rw [h]
  cases l.routeDesc r <;> rfl

/-- The oldest token on its way to a pane's buffer, with the CRC failures of its path. -/
theorem Leaf.tokenArrival_of_flight (hd : l.routeDesc r = some d) (hf : (l.route r).flight = t :: rest) (he : isEngine d.dst = false)
    {b : Bool} (hc : l.crcAt (l.routeLinks d) bad = (b, m)) : l.tokenArrival r bad =
      m.setRoute r { m.route r with flight := rest, buf := (m.route r).buf ++ [{ t with poison := t.poison || b }] } := by
  unfold Leaf.tokenArrival
  rw [hd, hf]
  dsimp only
  rw [hc, he]
  rfl

/-- A route of a leaf with the same fabric. -/
theorem Leaf.setRoute_fab_congr (h : m.fab = l.fab) (r : Nat) (f : RouteRun → RouteRun) :
    (m.setRoute r (f (m.route r))).fab = (l.setRoute r (f (l.route r))).fab := by
  unfold Leaf.setRoute Leaf.setFab Leaf.route
  rw [h]

/-! ## A credit on its way back -/

theorem Leaf.creditReturn_of_no_credit (h : (l.route r).back = 0) (bad : List Nat) : l.creditReturn r bad = l := by
  unfold Leaf.creditReturn
  cases l.routeDesc r with
  | none => rfl
  | some d => exact if_pos h

theorem Leaf.creditReturn_of_credit (hd : l.routeDesc r = some d) (hb : (l.route r).back ≠ 0) (hi : l.flt.inject = none) :
    l.creditReturn r [] = l.setRoute r
      (RouteRun.pump { l.route r with credits := (l.route r).credits + 1, back := (l.route r).back - 1 }) := by
  unfold Leaf.creditReturn
  rw [hd]
  dsimp only
  rw [if_neg hb, Leaf.crcAt_nil hi]

/-- Settles O30: each command by the one case of the fabric's operation that its premises select. -/
theorem tokensAndCredits : Obligations.TokensAndCredits := by
  intro s l r d hr hd hi
  refine ⟨fun tk rest hf he => ⟨answers_of_exec ?_, fun k hk => ?_⟩, fun hf bad => ?_, fun hb bad => ?_, fun hb => answers_of_exec ?_⟩
  · rw [exec_tokenArrival hr, Leaf.tokenArrival_of_flight hd hf he (Leaf.crcAt_nil hi _), Bool.or_false]
    rfl
  · obtain ⟨m, near, hc⟩ := Leaf.crcAt_singleton hi hk
    refine answersWith_of_setLeaf (exec_tokenArrival hr r [k]) fun t kept _ => kept.fab.trans ?_
    rw [Leaf.tokenArrival_of_flight hd hf he hc, Bool.or_true]
    exact Leaf.setRoute_fab_congr near.fab r fun x => { x with flight := rest, buf := x.buf ++ [{ tk with poison := true }] }
  · exact answers_self_of_setLeaf (exec_tokenArrival hr r bad) (Leaf.tokenArrival_of_no_flight hf bad)
  · exact answers_self_of_setLeaf (exec_creditReturn hr r bad) (Leaf.creditReturn_of_no_credit hb bad)
  · rw [exec_creditReturn hr, Leaf.creditReturn_of_credit hd hb hi]
    rfl

end Sys2Proof.Machine
end

section
/-!
PROOFS. The stages at work: what one firing leaves of a stage's run (R162, R163) and when a blind run starts (R334).
-/
namespace Sys2Proof.Machine

variable {s : State} {i : LeafId} {l m : Leaf} {sd : StageDesc} {x y : StageRun} {ix : Nat} {blind : Bool}

/-! ## What follows a firing keeps the fabric -/

/-- The rows of a run, if there is one, taken by source q once it has finished unpoisoned. -/
def Leaf.feedFinished (q tick : Nat) (blind : Bool) (o : Option StageRun) (l : Leaf) : Leaf :=
  match o with
  | some x => if x.finished && !x.poisoned && !l.fed q tick then l.feedRun q tick blind x else l
  | none => l

theorem Leaf.fab_feedFinished (q tick : Nat) (blind : Bool) (o : Option StageRun) (l : Leaf) :
    (l.feedFinished q tick blind o).fab = l.fab := by
  unfold Leaf.feedFinished
  split
  · split <;> rfl
  · rfl

/-- A source takes rows of the run of the tick, then of the blind one. -/
theorem Leaf.fab_feedSources (l : Leaf) : l.feedSources.fab = l.fab := by
  refine Leaf.foldl_congr Leaf.fab _ _ l fun q _ k => ?_
  split
  · rename_i ix _ _
    split
    · rfl
    · exact (Leaf.fab_feedFinished q _ true _ (k.feedFinished q k.tickNum false (k.runOf false ix))).trans (Leaf.fab_feedFinished ..)
  · rfl

theorem Leaf.fab_showClk (l : Leaf) : l.showClk.fab = l.fab := Leaf.foldl_congr Leaf.fab _ _ l fun _ _ _ => rfl

theorem Leaf.fab_putSlots (l : Leaf) (ix : Nat) (f : Nat → Nat → FieldRef) (v : Nat) : (l.putSlots ix f v).fab = l.fab :=
  Leaf.foldl_congr Leaf.fab _ _ l fun _ _ _ => rfl

theorem Leaf.fab_fireAndFeed (l : Leaf) (ix : Nat) (em : List (Nat × Nat)) : (l.fireAndFeed ix em).fab = (l.stageFire ix em).fab :=
  (Leaf.fab_showClk _).trans (Leaf.fab_feedSources _)

theorem exec_stageFire (h : s.ready i = true) (ix : Nat) (em : List (Nat × Nat)) :
    exec (.stageFire i ix em) s = .next (s.setLeaf i ((s.leaf i).fireAndFeed ix em)).settle :=
  congrArg State.done (State.eventNow_of_ready h _)

theorem exec_blindStart (h : s.ready i = true) (ix : Nat) :
    exec (.blindStart i ix) s = .next (s.setLeaf i ((s.leaf i).blindStart ix)).settle :=
  congrArg State.done (State.eventNow_of_ready h _)

/-! ## The runs of a stage -/

/-- The runs are part of the fabric. -/
theorem Leaf.runOf_congr (h : m.fab = l.fab) (blind : Bool) (ix : Nat) : m.runOf blind ix = l.runOf blind ix := by
  unfold Leaf.runOf
  rw [h]

theorem Leaf.runOf_setRun_same (l : Leaf) (blind : Bool) (ix : Nat) (x : StageRun) : (l.setRun blind ix x).runOf blind ix = some x := by
  cases blind <;> exact alGet_alSet_same ..

/-- The run of the tick stays when a blind one is replaced. -/
theorem Leaf.runOf_setRun_blind (l : Leaf) (ix : Nat) (x : StageRun) : (l.setRun true ix x).runOf false ix = l.runOf false ix := rfl

/-! ## The parts of a firing count no firings -/

theorem Leaf.firings_consumeIns (blind : Bool) (s : StageDesc) (x : StageRun) (l : Leaf) :
    (l.consumeIns blind s x).1.firings = x.firings := by
  unfold Leaf.consumeIns
  refine List.foldlRecOn (motive := fun a : StageRun × Leaf => a.1.firings = x.firings) _ _ rfl fun a ha e _ => ?_
  split
  · exact ha
  · exact ha

theorem Leaf.firings_compute (h : l.compute blind sd x = (.done y, m)) : y.firings = x.firings := by
  unfold Leaf.compute at h
  dsimp only at h
  split at h
  · cases h
  · cases h
  · split at h
    · cases h
    · cases h
    · cases h; rfl

theorem Leaf.firings_injToken (s : StageDesc) (em : List (Nat × Nat)) (x : StageRun) (l : Leaf) :
    (l.injToken s em x).1.firings = x.firings := by
  unfold Leaf.injToken
  repeat' split
  all_goals rfl

theorem Leaf.firings_emitAll (s : StageDesc) (em : List (Nat × Nat)) (x : StageRun) (l : Leaf) :
    (l.emitAll s em x).2.1.firings = x.firings := by
  unfold Leaf.emitAll
  refine List.foldlRecOn (motive := fun a : Nat × StageRun × Leaf => a.2.1.firings = x.firings) _ _ rfl fun a ha n _ => ?_
  split
  · exact ha
  · exact ha

/-! ## A firing, in two parts -/

/-- The first part of a firing: a token of each open input consumed, POISON settled, and the outputs computed where the inputs have ended. -/
def Leaf.fireWork (blind : Bool) (s : StageDesc) (x : StageRun) (l : Leaf) : StageRun × Leaf :=
  let c := l.consumeIns blind s x
  let x1 := if c.1.poisonIn && !c.1.poisoned then c.1.poison s blind else c.1
  if x1.computed || !(x1.ins.all fun i => i.ended) then (x1, c.2)
  else
    match c.2.compute blind s x1 with
    | (.done y, m) => (y, m)
    | (.poison, m) => (x1.poison s blind, m)
    | (.wait, m) => (x1, m)

/-- The second part: the tokens that the command names are sent. Their number, the run and the leaf. -/
def Leaf.fireSend (s : StageDesc) (em : List (Nat × Nat)) (a : StageRun × Leaf) : Nat × StageRun × Leaf :=
  let j := a.2.injToken s em a.1
  j.2.emitAll s em j.1

/-- A run as a firing ends it; an idle one is not counted. -/
def StageRun.afterFiring (x : StageRun) (idle : Bool) : StageRun :=
  let y := { x with started := true, finished := x.done }
  if idle then y else { y with firings := y.firings + 1 }

/-- The run written back, with the counters or the slots' registers that show it. -/
def Leaf.fireEnd (blind : Bool) (ix sent : Nat) (idle : Bool) (y : StageRun) (l : Leaf) : Leaf :=
  let l1 := l.setRun blind ix y
  if blind then (if idle then l1 else (l1.bump 12 0).countBy 12 1 sent)
  else (l1.putSlots ix Fld.PANE_SFIRE_FIRINGS y.firings).putSlots ix Fld.PANE_SSTAT_FINISHED (b2n y.finished)

/-- A firing is its two parts, and the run written back. -/
theorem Leaf.fireRun_of_canFire (hs : l.stage ix = some sd) (hx : l.runOf blind ix = some x) (hc : l.canFire blind sd x = true)
    (em : List (Nat × Nat)) : ∃ idle, l.fireRun blind ix em =
      (Leaf.fireSend sd em (l.fireWork blind sd x)).2.2.fireEnd blind ix (Leaf.fireSend sd em (l.fireWork blind sd x)).1 idle
        ((Leaf.fireSend sd em (l.fireWork blind sd x)).2.1.afterFiring idle) := by
  unfold Leaf.fireRun
  rw [hs, hx]
  exact ⟨_, if_neg (by rw [hc]; decide)⟩

theorem Leaf.fab_fireEnd (blind : Bool) (ix sent : Nat) (idle : Bool) (y : StageRun) (l : Leaf) :
    (l.fireEnd blind ix sent idle y).fab = (l.setRun blind ix y).fab := by
  cases blind
  · exact (Leaf.fab_putSlots ..).trans (Leaf.fab_putSlots ..)
  · cases idle <;> rfl

theorem Leaf.firings_fireWork (blind : Bool) (s : StageDesc) (x : StageRun) (l : Leaf) : (l.fireWork blind s x).1.firings = x.firings := by
  have consumed := Leaf.firings_consumeIns blind s x l
  unfold Leaf.fireWork
  dsimp only
  generalize l.consumeIns blind s x = c at consumed ⊢
  have settled : (if c.1.poisonIn && !c.1.poisoned then c.1.poison s blind else c.1).firings = x.firings := by
    split
    · exact consumed
    · exact consumed
  generalize (if c.1.poisonIn && !c.1.poisoned then c.1.poison s blind else c.1) = x1 at settled ⊢
  split
  · exact settled
  · split
    · rename_i e; exact (Leaf.firings_compute e).trans settled
    · exact settled
    · exact settled

theorem Leaf.firings_fireSend (s : StageDesc) (em : List (Nat × Nat)) (a : StageRun × Leaf) :
    (Leaf.fireSend s em a).2.1.firings = a.1.firings :=
  (Leaf.firings_emitAll ..).trans (Leaf.firings_injToken ..)

theorem StageRun.afterFiring_ended (x : StageRun) (idle : Bool) :
    (x.afterFiring idle).started = true ∧ (x.afterFiring idle).finished = (x.afterFiring idle).done
      ∧ x.firings ≤ (x.afterFiring idle).firings := by
  cases idle
  · exact ⟨rfl, rfl, Nat.le_succ _⟩
  · exact ⟨rfl, rfl, le_rfl⟩

/-- What a firing leaves of a run: it has started, is finished exactly when it is done, and has lost no firing (R162, R163). -/
theorem Leaf.runOf_fireRun (hs : l.stage ix = some sd) (hx : l.runOf blind ix = some x) (hc : l.canFire blind sd x = true)
    (em : List (Nat × Nat)) : ∃ y, (l.fireRun blind ix em).runOf blind ix = some y ∧ y.started = true ∧ y.finished = y.done
      ∧ x.firings ≤ y.firings := by
  obtain ⟨idle, e⟩ := Leaf.fireRun_of_canFire hs hx hc em
  have kept := (Leaf.firings_fireSend sd em (l.fireWork blind sd x)).trans (Leaf.firings_fireWork blind sd x l)
  obtain ⟨hstarted, hfinished, hcount⟩ := StageRun.afterFiring_ended (Leaf.fireSend sd em (l.fireWork blind sd x)).2.1 idle
  rw [e, Leaf.runOf_congr (Leaf.fab_fireEnd ..), Leaf.runOf_setRun_same]
  exact ⟨_, rfl, hstarted, hfinished, kept.symm.trans_le hcount⟩

/-! ## Which run STAGE_FIRE serves -/

theorem Leaf.stageFire_of_tick (ht : l.ticking = true) (hb : l.runOf true ix = none) (em : List (Nat × Nat)) :
    l.stageFire ix em = l.fireRun false ix em := by
  unfold Leaf.stageFire
  rw [ht, hb]
  rfl

theorem Leaf.fireRun_of_not_canFire (hs : l.stage ix = some sd) (hx : l.runOf blind ix = some x) (hc : l.canFire blind sd x = false)
    (em : List (Nat × Nat)) : l.fireRun blind ix em = l := by
  unfold Leaf.fireRun
  rw [hs, hx]
  dsimp only
  rw [hc]
  rfl

/-! ## Blind starts (R334) -/

theorem Leaf.blindStart_of_unfinished (hs : l.stage ix = some sd) (hx : l.runOf false ix = some x) (hf : x.finished = false) :
    l.blindStart ix = l := by
  unfold Leaf.blindStart
  simp only [hs, hx, hf, Bool.and_false, Bool.false_and, Bool.false_eq_true, if_false]

/-- A blind run that may start. -/
theorem Leaf.blindStart_of_finished {p : Pose} (hs : l.stage ix = some sd) (hx : l.runOf false ix = some x) (hf : x.finished = true)
    (hb : l.runOf true ix = none) (ht : l.ticking = true) (hspec : sd.spec = true) (hen : l.bit Fld.SPEC_CTRL_ENABLE = true)
    (hon : l.spec.enabled = true) (hp : l.spec.pred = some (l.tickNum, p)) (hl : l.listed sd = true) (hd : l.spec.pending = none) :
    l.blindStart ix = ((l.setRun true ix sd.fresh).putSlots ix Fld.PANE_SSTAT_BLIND 1).putB Fld.SPEC_STAT_BLIND_RUN true := by
  unfold Leaf.blindStart
  simp only [hs, hx, hf, hb, ht, hspec, hen, hon, hp, hl, hd, beq_self_eq_true, Option.isNone_none, Bool.and_self, if_true]

/-- No register of the blocks from power to the fault log settles. -/
theorem settles_of_between {a : Nat} (ha : 0x500000 ≤ a ∧ a < 0x1C00000) (x : Nat) : settles a x = false := by
  rw [settles_def, if_neg (by omega), if_neg (by omega), if_neg (by omega), if_neg (by omega), if_neg (by omega)]
  simp only [Bool.or_eq_false_iff, Bool.and_eq_false_iff, beq_eq_false_iff_ne, decide_eq_false_iff_not]
  omega

/-- Settles O31: a firing by what it leaves of the run, a blind start by its one condition. -/
theorem stageRuns : Obligations.StageRuns := by
  intro s l ix sd x hr ht hs hx hb
  refine ⟨fun em hc => ?_, fun em hc => ?_, fun hspec hen hon ⟨p, hp⟩ hf hl hd => ?_, fun hf => ?_⟩
  · obtain ⟨y, hy, hrest⟩ := Leaf.runOf_fireRun hs hx hc em
    refine answersWith_of_setLeaf (exec_stageFire hr ix em) fun t kept _ => ⟨y, ?_, hrest⟩
    rw [Leaf.runOf_congr (kept.fab.trans (Leaf.fab_fireAndFeed ..)), Leaf.stageFire_of_tick ht hb, hy]
  · refine answersWith_of_setLeaf (exec_stageFire hr ix em) fun t kept _ => ?_
    rw [kept.fab, Leaf.fab_fireAndFeed, Leaf.stageFire_of_tick ht hb, Leaf.fireRun_of_not_canFire hs hx hc]
  · have e := exec_blindStart hr ix
    rw [Leaf.blindStart_of_finished hs hx hf hb ht hspec hen hon hp hl hd] at e
    refine answersWith_of_setLeaf e fun t kept _ => ?_
    have hfab : (t.leaf l).fab = ((s.leaf l).setRun true ix sd.fresh).fab := by rw [kept.fab, Leaf.putB_fab, Leaf.fab_putSlots]
    refine ⟨?_, ?_, ?_⟩
    · exact (Leaf.runOf_congr hfab true ix).trans (Leaf.runOf_setRun_same ..)
    · exact (Leaf.runOf_congr hfab false ix).trans ((Leaf.runOf_setRun_blind ..).trans hx)
    · exact (Leaf.bit_congr (kept.rd _ (settles_of_between (by decide)))).trans (Leaf.bit_putB_same _ _ _ (by decide) (by decide))
  · exact answers_self_of_setLeaf (exec_blindStart hr ix) (Leaf.blindStart_of_unfinished hs hx hf)

end Sys2Proof.Machine
end

section
/-!
PROOFS. Why EveryStepConservesCredits fails. StageRun.sound asks that a run that has computed has had END on every input port of its
stage, and the model's firing computes once every port that the run itself lists has had END. Nothing in the invariant says that the run
lists as many ports as its stage has, as the runs of StageDesc.fresh do. The counterexample is a run that lists none.
-/
namespace Sys2Proof.Machine

/-- Conservation does not depend on what settling may change. -/
theorem Leaf.Kept.conserved {l m : Leaf} (h : l.Kept m) (hm : m.conserved) : l.conserved := by
  have hsleep : m.sleep = l.sleep := h.get Fld.PWR_SLEEP_STAT_STATE fun x _ _ => settles_of_between (by decide) x
  unfold Leaf.conserved Leaf.routeDesc Leaf.route Leaf.stage at hm ⊢
  rwa [hsleep, h.glz, h.fab] at hm

/-- A stage with one input port and no output. -/
def sinkStage : StageDesc :=
  { ofs := 0, id := 1, opcode := 0, pipe := 0, sflags := 0, nin := 1, nout := 0, panes := 1, pofs := 0, plen := 0, rsvd := 0, sram := 0,
    ndesc := 0, hflags := 0, hrsvd := 0, outMax := [], descs := [], body := [] }

/-- The route into its port, with one credit. -/
def sinkRoute : RouteDesc :=
  { ofs := 0, src := 9, srcPort := 0, rflags := 0, dst := 1, dstPort := 0, vc := 0, credits := 1, rsvd := 0 }

def sinkImage : Image :=
  { l := 1, flags := 0, length := 0, baseHash := 0, buildId := 0, sections := [], stages := [sinkStage], routes := [sinkRoute],
    engines := [], pipes := [], objects := [] }

/-- A TICKING leaf with that image: a token without END waits in the stage's buffer, and the stage's armed run lists no input port. -/
def portlessLeaf : Leaf :=
  { State.reset.leafA with
    regs := [(Reg.LEAF_STATUS, 4)]
    boot := { State.reset.leafA.boot with held := false }
    flt := { firstIdle := true }
    glz := { image := some sinkImage }
    fab := {
      routes := [{ credits := 0
                   buf := [{ bytes := [], last := false, poison := false, blind := false, stale := false, desync := false, oldest := none }] }]
      runs := [(0, { armed := true })] } }

/-- The device with that leaf as Leaf A, and the stage's firing next. -/
def portlessState : State :=
  { State.reset with
    leafA := portlessLeaf
    hinge := { State.reset.hinge with regs := [(Reg.HINGE_LEAF_STAT, 3)], held := false }
    pending := [.stageFire .A 0 []] }

/-- The run after its firing: it has computed, is not poisoned, and no port shows END. -/
def portlessRun : StageRun := { armed := true, started := true, finished := true, firings := 1, computed := true }

theorem portlessLeaf_conserved : portlessLeaf.conserved := by
  refine fun _ => ⟨fun r d hd => ?_, fun e he sd _ => ?_⟩
  · have hmem : d ∈ [sinkRoute] := List.mem_of_getElem? hd
    have hr : r < 1 := (List.getElem?_eq_some_iff.mp hd).1
    obtain rfl := List.mem_singleton.mp hmem
    obtain rfl : r = 0 := by omega
    rfl
  · obtain rfl : e = (0, { armed := true }) := List.mem_singleton.mp he
    exact ⟨Bool.noConfusion, Bool.noConfusion, Bool.noConfusion⟩

/-- What the firing leaves: none of no ports lacks END, so the run has computed. -/
theorem portlessLeaf_fired : (portlessLeaf.fireAndFeed 0 []).fab.runs = [(0, portlessRun)]
    ∧ (portlessLeaf.fireAndFeed 0 []).stage 0 = some sinkStage ∧ (portlessLeaf.fireAndFeed 0 []).sleep = 0 := by decide +kernel

theorem portlessRun_not_sound : ¬ portlessRun.sound sinkStage := by
  intro ⟨_, _, hcomputed⟩
  rcases hcomputed rfl with hpoisoned | hended
  · exact Bool.noConfusion hpoisoned
  · exact Bool.noConfusion (hended 0 Nat.one_pos)

theorem portlessLeaf_fired_not_conserved : ¬ (portlessLeaf.fireAndFeed 0 []).conserved := by
  intro h
  obtain ⟨hruns, hstage, hsleep⟩ := portlessLeaf_fired
  obtain ⟨_, hsound⟩ := h (by rw [hsleep]; decide)
  refine portlessRun_not_sound (hsound (0, portlessRun) ?_ sinkStage hstage)
  rw [hruns]
  exact List.mem_append_left _ List.mem_cons_self

/-- The step is the firing of Leaf A, but for what settling may change. -/
theorem step_portlessState : ∃ t, step portlessState = .next t ∧ (portlessLeaf.fireAndFeed 0 []).Kept (t.leaf .A) := by
  rw [step_cons portlessState (.stageFire .A 0 []) [] rfl]
  exact answersWith_of_setLeaf (P := fun t => (portlessLeaf.fireAndFeed 0 []).Kept (t.leaf .A))
    (exec_stageFire (s := { portlessState with pending := [] }) (i := .A) (by decide) 0 []) fun _ kept _ => kept

/-- Refutes O56: the step that fires the stage of portlessState computes a run of which no input port has had END. -/
theorem not_everyStepConservesCredits : ¬ Obligations.EveryStepConservesCredits := by
  rintro ⟨hstep, -⟩
  obtain ⟨t, e, kept⟩ := step_portlessState
  exact portlessLeaf_fired_not_conserved (kept.conserved (hstep _ t .A e portlessLeaf_conserved))

end Sys2Proof.Machine
end

section
/-!
PROOFS. The memories of a leaf, DRAM and flash: the operations of a leaf that leave both alone (R192, R193), in the model's order. Each lemma unfolds its
operation once; one whose operation calls others cites their lemmas. (rfl) keeps a lemma a rewrite rule of simp and out of its defeq steps.
-/
namespace Sys2Proof.Machine

/-! ## The two memories of a leaf -/

/-- The memories of a leaf: its DRAM and its flash. -/
def Leaf.mems (l : Leaf) : List Host.Cell × List Host.Cell := (l.dram, l.flash)

/-- An update of any other part of a leaf leaves its memories alone. -/
@[simp] theorem Leaf.mems_mk (l : Leaf) (id : LeafId) (regs : List (Nat × Word)) (count : Nat) (fuses : Fuses) (aon : AlwaysOn)
    (boot : BootState) (time : TimeState) (sw : SwState) (irq : IrqState) (ctr : CounterState) (flt : FaultState) (host : HostState)
    (tick : TickState) (glz : GlzState) (fab : FabState) (mem : MemState) (spec : SpecState) (sns : SnsState) (filt : FiltState)
    (ego : EgoState) (map : MapState) (vis : VisState) (fus : FusState) (srch : SrchState) (solv : SolvState) (pwr : PwrState)
    (free : Nat) :
    Leaf.mems ⟨id, regs, l.dram, l.flash, count, fuses, aon, boot, time, sw, irq, ctr, flt, host, tick, glz, fab, mem, spec, sns, filt,
      ego, map, vis, fus, srch, solv, pwr, free⟩ = l.mems := (rfl)

@[simp] theorem Leaf.mems_ite (c : Prop) [Decidable c] (a b : Leaf) : (if c then a else b).mems = if c then a.mems else b.mems :=
  apply_ite ..

@[simp] theorem mems_snd_ite {α : Type} (c : Prop) [Decidable c] (a b : α × Leaf) :
    (if c then a else b).2.mems = if c then a.2.mems else b.2.mems := apply_ite (fun x : α × Leaf => x.2.mems) ..

/-- A fold whose every step leaves the memories of the leaf that it carries alone. -/
theorem mems_foldl_of {σ α : Type} (p : σ → Leaf) (f : σ → α → σ) (xs : List α) (a : σ) (h : ∀ b x, (p (f b x)).mems = (p b).mems) :
    (p (xs.foldl f a)).mems = (p a).mems := by
  induction xs generalizing a with
  | nil => rfl
  | cons x t ih => exact (ih (f a x)).trans (h a x)

@[simp] theorem Leaf.mems_foldl {α : Type} (f : Leaf → α → Leaf) (xs : List α) (l : Leaf) (h : ∀ k x, (f k x).mems = k.mems) :
    (xs.foldl f l).mems = l.mems :=
  mems_foldl_of (fun k => k) f xs l h

@[simp] theorem mems_foldl_snd {α β : Type} (f : β × Leaf → α → β × Leaf) (xs : List α) (a : β × Leaf)
    (h : ∀ b x, (f b x).2.mems = b.2.mems) : (xs.foldl f a).2.mems = a.2.mems := mems_foldl_of Prod.snd f xs a h

/-- The leaf of a pair that an equation names. -/
theorem mems_of_snd {α : Type} {x : α × Leaf} {a : α} {l m : Leaf} (e : x = (a, m)) (h : x.2.mems = l.mems) : m.mems = l.mems := by
  subst e; exact h

variable (l : Leaf)

/-! ## Sys2Proof/Machine/Ops.lean -/

@[simp] theorem Leaf.mems_wr (a v : Nat) : (l.wr a v).mems = l.mems := (rfl)

@[simp] theorem Leaf.mems_put (f : FieldRef) (v : Nat) : (l.put f v).mems = l.mems := (rfl)

@[simp] theorem Leaf.mems_putB (f : FieldRef) (b : Bool) : (l.putB f b).mems = l.mems := (rfl)

@[simp] theorem Leaf.mems_inc (f : FieldRef) : (l.inc f).mems = l.mems := (rfl)

@[simp] theorem Leaf.mems_incBy (f : FieldRef) (n : Nat) : (l.incBy f n).mems = l.mems := (rfl)

@[simp] theorem Leaf.mems_incSat (f : FieldRef) : (l.incSat f).mems = l.mems := (rfl)

@[simp] theorem Leaf.mems_wr64 (lo hi v : Nat) : (l.wr64 lo hi v).mems = l.mems := (rfl)

@[simp] theorem Leaf.mems_swWrite (a w : Nat) : (l.swWrite a w).mems = l.mems := by
  unfold Leaf.swWrite
  split <;> simp

@[simp] theorem Leaf.mems_lifeAdd (n k : Nat) : (l.lifeAdd n k).mems = l.mems := (rfl)

@[simp] theorem Leaf.mems_setState (n : Nat) : (l.setState n).mems = l.mems := (rfl)

@[simp] theorem Leaf.mems_adv (c : Nat) : (l.adv c).mems = l.mems := by simp [Leaf.adv]

/-! ## Sys2Proof/Machine/Clock.lean -/

@[simp] theorem Leaf.mems_setDom (d : Nat) (x : Domain) : (l.setDom d x).mems = l.mems := (rfl)

@[simp] theorem Leaf.mems_rebaseBridge : l.rebaseBridge.mems = l.mems := (rfl)

/-! ## Sys2Proof/Machine/Irq.lean -/

@[simp] theorem Leaf.mems_countBy (cls idx n : Nat) : (l.countBy cls idx n).mems = l.mems := (rfl)

@[simp] theorem Leaf.mems_bump (cls idx : Nat) : (l.bump cls idx).mems = l.mems := (rfl)

@[simp] theorem Leaf.mems_orReg (a m : Nat) : (l.orReg a m).mems = l.mems := (rfl)

@[simp] theorem Leaf.mems_andNotReg (a m : Nat) : (l.andNotReg a m).mems = l.mems := (rfl)

@[simp] theorem Leaf.mems_showStack : l.showStack.mems = l.mems := by
  unfold Leaf.showStack
  split <;> simp

@[simp] theorem Leaf.mems_sendVec (v : Nat) : (l.sendVec v).mems = l.mems := by simp [Leaf.sendVec]

@[simp] theorem Leaf.mems_pumpN (n : Nat) : (Leaf.pumpN n l).mems = l.mems := by
  induction n generalizing l with
  | zero => rfl
  | succ n ih =>
    unfold Leaf.pumpN
    repeat' split
    all_goals simp [ih]

@[simp] theorem Leaf.mems_pump : l.pump.mems = l.mems := by simp [Leaf.pump]

@[simp] theorem Leaf.mems_accEvent (s : Nat) : (l.accEvent s).mems = l.mems := by
  unfold Leaf.accEvent
  dsimp only
  repeat' split
  all_goals simp

@[simp] theorem Leaf.mems_setPend (s : Nat) : (l.setPend s).mems = l.mems := (rfl)

@[simp] theorem Leaf.mems_raise (s : Nat) : (l.raise s).mems = l.mems := by simp [Leaf.raise]

@[simp] theorem Leaf.mems_raiseIf (b : Bool) (s : Nat) : (l.raiseIf b s).mems = l.mems := by simp [Leaf.raiseIf]

@[simp] theorem Leaf.mems_flagEvent (f : FieldRef) (s : Nat) : (l.flagEvent f s).mems = l.mems := by simp [Leaf.flagEvent]

@[simp] theorem Leaf.mems_popN (n : Nat) : (Leaf.popN n l).mems = l.mems := by
  induction n generalizing l with
  | zero => rfl
  | succ n ih =>
    unfold Leaf.popN
    repeat' split
    all_goals simp [ih]

@[simp] theorem Leaf.mems_eoi (s : Nat) : (l.eoi s).mems = l.mems := by simp [Leaf.eoi]

@[simp] theorem Leaf.mems_writePend (w v : Nat) : (l.writePend w v).mems = l.mems := (rfl)

@[simp] theorem Leaf.mems_writeRaw (w v : Nat) : (l.writeRaw w v).mems = l.mems := (rfl)

@[simp] theorem Leaf.mems_writeMask (w v : Nat) : (l.writeMask w v).mems = l.mems := by simp [Leaf.writeMask]

@[simp] theorem Leaf.mems_writeTgt (s v : Nat) : (l.writeTgt s v).mems = l.mems := by simp [Leaf.writeTgt]

/-! ## Sys2Proof/Machine/Faults.lean -/

@[simp] theorem Leaf.mems_putRecord (a : Nat) (bs : List Byte) : (l.putRecord a bs).mems = l.mems := by simp [Leaf.putRecord]

@[simp] theorem Leaf.mems_logRecord (bs : List Byte) : (l.logRecord bs).mems = l.mems := by simp [Leaf.logRecord]

@[simp] theorem Leaf.mems_notify (code : Nat) (i : FaultInfo) : (l.notify code i).mems = l.mems := by simp [Leaf.notify]

@[simp] theorem Leaf.mems_enterFault (back : Nat) : (l.enterFault back).mems = l.mems := by simp [Leaf.enterFault]

@[simp] theorem Leaf.mems_stop (code : Nat) (i : FaultInfo) : (l.stop code i).mems = l.mems := by
  unfold Leaf.stop
  extract_lets bs l1 _ _ l2 _ l3 l4 _
  have h1 : l1.mems = l.mems := by simp -implicitDefEqProofs [l1]
  have h2 : l2.mems = l.mems := by unfold l2; split <;> exact h1
  split_ifs
  · rw [Leaf.mems_mk]; exact h2
  · rw [Leaf.mems_mk]; exact h2
  · exact h2
  · simp -implicitDefEqProofs [l4, l3, h2]

@[simp] theorem Leaf.mems_leaveFault : l.leaveFault.mems = l.mems := by simp [Leaf.leaveFault]

@[simp] theorem Leaf.mems_memError (kind addr obj level b28 flags : Nat) : (l.memError kind addr obj level b28 flags).mems = l.mems := by
  simp [Leaf.memError]

/-! ## Sys2Proof/Machine/TimeUnit.lean -/

@[simp] theorem Leaf.mems_refuseCommit (d : Nat) : (l.refuseCommit d).mems = l.mems := by simp [Leaf.refuseCommit]

@[simp] theorem Leaf.mems_missTrig (n skipped : Nat) : (l.missTrig n skipped).mems = l.mems := by simp [Leaf.missTrig]

@[simp] theorem Leaf.mems_setTrig (n : Nat) (t : Trigger) : (l.setTrig n t).mems = l.mems := (rfl)

@[simp] theorem Leaf.mems_disarmTrig (n : Nat) : (l.disarmTrig n).mems = l.mems := (rfl)

@[simp] theorem Leaf.mems_skipTrig (n : Nat) : (l.skipTrig n).mems = l.mems := by
  unfold Leaf.skipTrig
  split <;> simp

@[simp] theorem Leaf.mems_skipTrigs : l.skipTrigs.mems = l.mems := by simp [Leaf.skipTrigs]

@[simp] theorem Leaf.mems_writeCommit (d w : Nat) : (l.writeCommit d w).mems = l.mems := by
  simp [Leaf.writeCommit, Leaf.commitSet, Leaf.commitStep, Leaf.commitRate]

@[simp] theorem Leaf.mems_switchTo (d : Nat) : (l.switchTo d).mems = l.mems := by simp [Leaf.switchTo]

@[simp] theorem Leaf.mems_writeVtCtrl (w : Nat) : (l.writeVtCtrl w).mems = l.mems := by simp [Leaf.writeVtCtrl]

@[simp] theorem Leaf.mems_autoSwitch : l.autoSwitch.mems = l.mems := by simp [Leaf.autoSwitch]

@[simp] theorem Leaf.mems_setPort (p : Nat) (x : SwPort) : (l.setPort p x).mems = l.mems := (rfl)

@[simp] theorem Leaf.mems_send (m : SentMsg) : (l.send m).mems = l.mems := (rfl)

@[simp] theorem Leaf.mems_portCount (p kind : Nat) : (l.portCount p kind).mems = l.mems := (rfl)

@[simp] theorem Leaf.mems_measure (d port seq at8 : Nat) (ofs rr : Int) : (l.measure d port seq at8 ofs rr).mems = l.mems := by
  simp [Leaf.measure, Leaf.suspect]

@[simp] theorem Leaf.mems_sync (port c8 : Nat) (f : List Byte) (egress : List (Nat × Nat)) : (l.sync port c8 f egress).mems = l.mems := by
  unfold Leaf.sync
  split <;> simp

@[simp] theorem Leaf.mems_followUp (port c8 : Nat) (f : List Byte) : (l.followUp port c8 f).mems = l.mems := by
  unfold Leaf.followUp
  dsimp only
  repeat' split
  all_goals simp

@[simp] theorem Leaf.mems_pdelayReq (port egress8 : Nat) : (l.pdelayReq port egress8).mems = l.mems := by simp [Leaf.pdelayReq]

@[simp] theorem Leaf.mems_pdelayMsg (port c8 : Nat) (f : List Byte) (egress8 : Nat) : (l.pdelayMsg port c8 f egress8).mems = l.mems := by
  simp [Leaf.pdelayMsg]

@[simp] theorem Leaf.mems_writeDomCfg (d w : Nat) : (l.writeDomCfg d w).mems = l.mems := by simp [Leaf.writeDomCfg]

@[simp] theorem Leaf.mems_writeDomStat (d w : Nat) : (l.writeDomStat d w).mems = l.mems := by simp [Leaf.writeDomStat]

@[simp] theorem Leaf.mems_armNow (n : Nat) : (l.armNow n).mems = l.mems := by simp [Leaf.armNow]

@[simp] theorem Leaf.mems_writeTrigCtrl (n w : Nat) : (l.writeTrigCtrl n w).mems = l.mems := by
  simp [Leaf.writeTrigCtrl, Leaf.disarm, Leaf.armTrig]

@[simp] theorem Leaf.mems_reprogram (n a w : Nat) : (l.reprogram n a w).mems = l.mems := by
  unfold Leaf.reprogram
  dsimp only
  repeat' split
  all_goals simp

@[simp] theorem Leaf.mems_driveTrig (n : Nat) (on : Bool) : (l.driveTrig n on).mems = l.mems := (rfl)

@[simp] theorem Leaf.mems_pulse (n : Nat) : (l.pulse n).mems = l.mems := by
  unfold Leaf.pulse
  dsimp only
  repeat' split
  all_goals simp

@[simp] theorem Leaf.mems_endTrigPulse (n : Nat) : (l.endTrigPulse n).mems = l.mems := by
  unfold Leaf.endTrigPulse
  dsimp only
  repeat' split
  all_goals simp

@[simp] theorem Leaf.mems_wrTime (lo hi frac t : Nat) : (l.wrTime lo hi frac t).mems = l.mems := (rfl)

@[simp] theorem Leaf.mems_ppsCapture (c8 : Nat) : (l.ppsCapture c8).mems = l.mems := by simp [Leaf.ppsCapture]

@[simp] theorem Leaf.mems_capture : l.capture.mems = l.mems := by simp [Leaf.capture]

/-! ## Sys2Proof/Machine/Switch.lean -/

@[simp] theorem Leaf.mems_setFdb (t : List (Nat × FdbEntry)) : (l.setFdb t).mems = l.mems := (rfl)

@[simp] theorem Leaf.mems_learn (p mac vid : Nat) : (l.learn p mac vid).mems = l.mems := by
  unfold Leaf.learn
  repeat' split
  all_goals simp

@[simp] theorem Leaf.mems_fdbReadCmd : l.fdbReadCmd.mems = l.mems := by
  unfold Leaf.fdbReadCmd
  split <;> simp

@[simp] theorem Leaf.mems_fdbWriteCmd : l.fdbWriteCmd.mems = l.mems := by
  unfold Leaf.fdbWriteCmd
  dsimp only
  repeat' split
  all_goals simp

@[simp] theorem Leaf.mems_fdbDeleteCmd : l.fdbDeleteCmd.mems = l.mems := by
  unfold Leaf.fdbDeleteCmd
  split <;> simp

@[simp] theorem Leaf.mems_writeFdbCmd (w : Nat) : (l.writeFdbCmd w).mems = l.mems := by
  unfold Leaf.writeFdbCmd
  dsimp only
  repeat' split
  all_goals simp [Leaf.fdbFlushCmd]

@[simp] theorem Leaf.mems_fdbAge (i : Nat) : (l.fdbAge i).mems = l.mems := by
  unfold Leaf.fdbAge
  split <;> simp

@[simp] theorem Leaf.mems_writeQbvCtrl (p w : Nat) : (l.writeQbvCtrl p w).mems = l.mems := by simp [Leaf.writeQbvCtrl, Leaf.qbvChange]

@[simp] theorem Leaf.mems_qbvEffect (p : Nat) : (l.qbvEffect p).mems = l.mems := by
  unfold Leaf.qbvEffect
  dsimp only
  repeat' split
  all_goals simp

@[simp] theorem Leaf.mems_gateEvent (p : Nat) : (l.gateEvent p).mems = l.mems := (rfl)

@[simp] theorem Leaf.mems_transmit (p : Nat) : (l.transmit p).mems = l.mems := by
  unfold Leaf.transmit
  dsimp only
  repeat' split
  all_goals simp [Leaf.deliver]

/-! ## Sys2Proof/Machine/HingeOps.lean -/

@[simp] theorem Leaf.mems_agreeFault (hold : Bool) (i : AgreeInfo) : (l.agreeFault hold i).mems = l.mems := by simp [Leaf.agreeFault]

/-! ## Sys2Proof/Machine/HostQueue.lean -/

@[simp] theorem Leaf.mems_addRecord (q : Nat) (bs : List Byte) : (l.addRecord q bs).mems = l.mems := (rfl)

@[simp] theorem Leaf.mems_cmdRecord (c : HostCmd) (status unit tOldest digest : Nat) :
    (l.cmdRecord c status unit tOldest digest).mems = l.mems := (rfl)

@[simp] theorem Leaf.mems_showHold : l.showHold.mems = l.mems := (rfl)

@[simp] theorem Leaf.mems_holdRecord (r : OutRec) : (l.holdRecord r).mems = l.mems := by simp [Leaf.holdRecord]

@[simp] theorem Leaf.mems_settleBusy : l.settleBusy.mems = l.mems := by simp [Leaf.settleBusy]

@[simp] theorem Leaf.mems_setCmds (cs : List HostCmd) : (l.setCmds cs).mems = l.mems := (rfl)

/-! ## Sys2Proof/Machine/Boot.lean -/

@[simp] theorem Leaf.mems_settle : l.settle.mems = l.mems := by
  simp [Leaf.settle, Leaf.refreshSafe, Leaf.refreshLevels, Leaf.setLevel, Leaf.refreshHoldover]

@[simp] theorem Leaf.mems_takeLatches : l.takeLatches.mems = l.mems := by simp [Leaf.takeLatches]

@[simp] theorem Leaf.mems_release : l.release.mems = l.mems := by simp [Leaf.release]

@[simp] theorem Leaf.mems_setBoot (b : BootState) : (l.setBoot b).mems = l.mems := (rfl)

@[simp] theorem Leaf.mems_loadLife : l.loadLife.mems = l.mems := by
  unfold Leaf.loadLife
  dsimp only
  repeat' split
  all_goals simp [Leaf.restoreLife]

@[simp] theorem Leaf.mems_bootDone (f : FwCopy) : (l.bootDone f).mems = l.mems := by simp [Leaf.bootDone]

@[simp] theorem Leaf.mems_fwuEnd (status : Nat) : (l.fwuEnd status).mems = l.mems := by simp [Leaf.fwuEnd]

@[simp] theorem Leaf.mems_writeFwuCtrl (w : Nat) : (l.writeFwuCtrl w).mems = l.mems := by simp [Leaf.writeFwuCtrl, Leaf.fwuGo]

@[simp] theorem Leaf.mems_fwuDone (ok : Bool) : (l.fwuDone ok).mems = l.mems := by
  unfold Leaf.fwuDone
  split <;> simp

/-! ## Sys2Proof/Machine/Memory.lean -/

@[simp] theorem Leaf.mems_sramWrite (i ofs : Nat) (bs : List Byte) : (l.sramWrite i ofs bs).mems = l.mems := (rfl)

@[simp] theorem Leaf.mems_swapHalf (i : Nat) : (l.swapHalf i).mems = l.mems := (rfl)

@[simp] theorem Leaf.mems_showPoison : l.showPoison.mems = l.mems := (rfl)

@[simp] theorem Leaf.mems_poisonWith (flags i kind addr level b28 : Nat) : (l.poisonWith flags i kind addr level b28).mems = l.mems := by
  simp [Leaf.poisonWith]

@[simp] theorem Leaf.mems_poisonObj (i kind addr level b28 : Nat) : (l.poisonObj i kind addr level b28).mems = l.mems := by
  simp [Leaf.poisonObj]

@[simp] theorem Leaf.mems_receipt (consumer i : Nat) : (l.receipt consumer i).mems = l.mems := by simp [Leaf.receipt]

@[simp] theorem Leaf.mems_clearPoison (i : Nat) : (l.clearPoison i).mems = l.mems := by simp [Leaf.clearPoison]

@[simp] theorem Leaf.mems_scheduleClear (i : Nat) : (l.scheduleClear i).mems = l.mems := by simp [Leaf.scheduleClear]

@[simp] theorem Leaf.mems_runClears : l.runClears.mems = l.mems := by simp [Leaf.runClears]

@[simp] theorem Leaf.mems_levelOk (addr level : Nat) : (l.levelOk addr level).mems = l.mems := by simp [Leaf.levelOk]

@[simp] theorem Leaf.mems_dropLost (p : Nat → Bool) : (l.dropLost p).mems = l.mems := (rfl)

@[simp] theorem Leaf.mems_codeword (i : Nat) (o : ObjDesc) (addr : Nat) (blind : Bool) (r : ReadOutcome) :
    (l.codeword i o addr blind r).2.mems = l.mems := by
  unfold Leaf.codeword
  dsimp only
  repeat' split
  all_goals simp

@[simp] theorem Leaf.mems_readLost (i : Nat) (o : ObjDesc) (ofs n : Nat) (blind : Bool) : (l.readLost i o ofs n blind).2.mems = l.mems := by
  simp [Leaf.readLost]

@[simp] theorem Leaf.mems_flashReadDone (addr : Nat) (r : ReadOutcome) : (l.flashReadDone addr r).mems = l.mems := by
  unfold Leaf.flashReadDone
  dsimp only
  repeat' split
  all_goals simp

@[simp] theorem Leaf.mems_setCache (c : List Granule) : (l.setCache c).mems = l.mems := (rfl)

@[simp] theorem Leaf.mems_setFetches (f : List Fetch) : (l.setFetches f).mems = l.mems := (rfl)

@[simp] theorem Leaf.mems_touch (i g : Nat) (blind : Bool) : (l.touch i g blind).2.mems = l.mems := by
  unfold Leaf.touch
  dsimp only
  repeat' split
  all_goals simp

@[simp] theorem Leaf.mems_fetchDone (i g : Nat) (rs : List ReadOutcome) : (l.fetchDone i g rs).mems = l.mems := by
  unfold Leaf.fetchDone
  dsimp only
  repeat' split
  all_goals simp

@[simp] theorem Leaf.mems_emptyCache : l.emptyCache.mems = l.mems := (rfl)

@[simp] theorem Leaf.mems_setBad (b : List Nat) : (l.setBad b).mems = l.mems := (rfl)

@[simp] theorem Leaf.mems_coverBad (a n : Nat) : (l.coverBad a n).mems = l.mems := (rfl)

@[simp] theorem Leaf.mems_dramUe (kind addr : Nat) : (l.dramUe kind addr).mems = l.mems := by
  unfold Leaf.dramUe
  dsimp only
  repeat' split
  all_goals simp

@[simp] theorem Leaf.mems_dramOutcome (kind addr : Nat) (out : WordOutcome) : (l.dramOutcome kind addr out).mems = l.mems := by
  unfold Leaf.dramOutcome
  split <;> simp

@[simp] theorem Leaf.mems_sramUe (flags i : Nat) : (l.sramUe flags i).mems = l.mems := by
  unfold Leaf.sramUe
  split <;> simp

@[simp] theorem Leaf.mems_readDirect (consumer i : Nat) (o : ObjDesc) (ofs n : Nat) (blind : Bool) :
    (l.readDirect consumer i o ofs n blind).2.mems = l.mems := by simp [Leaf.readDirect]

@[simp] theorem Leaf.mems_touchAll (i : Nat) (blind : Bool) (gs : List Nat) : (Leaf.touchAll i blind gs l).2.mems = l.mems := by
  induction gs generalizing l with
  | nil => rfl
  | cons g t ih => exact (ih _).trans (Leaf.mems_touch ..)

/-- The part of Leaf.readObj for a cached object, over any list of granules. -/
theorem Leaf.mems_readCached (consumer i ofs n : Nat) (o : ObjDesc) (blind : Bool) (gs : List Nat) :
    (have r := Leaf.touchAll i blind gs l
     if r.1.any fun t => t == Touch.wait then (ObjRead.wait, r.2)
     else if r.1.any fun t => t == Touch.bypass then r.2.readDirect consumer i o ofs n blind
     else (ObjRead.data (r.2.flashObj o ofs n), r.2)).2.mems = l.mems := by
  dsimp only
  split_ifs <;> simp

@[simp] theorem Leaf.mems_readObj (consumer i ofs n : Nat) (blind : Bool) : (l.readObj consumer i ofs n blind).2.mems = l.mems := by
  unfold Leaf.readObj
  split
  · rfl
  · split
    · simp
    · split
      · dsimp only
        split
        · rfl
        · split <;> simp
      · rfl
      · exact Leaf.mems_readCached ..
      · simp

@[simp] theorem Leaf.mems_rwStart (writeback : Bool) : (l.rwStart writeback).mems = l.mems := by simp [Leaf.rwStart]

@[simp] theorem Leaf.mems_writeFail (addr i : Nat) (out : WriteOutcome) : (l.writeFail addr i out).mems = l.mems := by simp [Leaf.writeFail]

@[simp] theorem Leaf.mems_pageWrites (i : Nat) (o : ObjDesc) (outs : List WriteOutcome) : (l.pageWrites i o outs).mems = l.mems := by
  simp [Leaf.pageWrites]

@[simp] theorem Leaf.mems_rwEnd (status : Nat) : (l.rwEnd status).mems = l.mems := by simp [Leaf.rwEnd]

@[simp] theorem Leaf.mems_flashRefresh (addr : Nat) (lost : Bool) : (l.flashRefresh addr lost).mems = l.mems := by simp [Leaf.flashRefresh]

@[simp] theorem Leaf.mems_scrub (addr : Nat) (out : WordOutcome) : (l.scrub addr out).mems = l.mems := by simp [Leaf.scrub]

/-! ## Sys2Proof/Machine/Fabric.lean -/

@[simp] theorem Leaf.mems_setFab (f : FabState) : (l.setFab f).mems = l.mems := (rfl)

@[simp] theorem Leaf.mems_setRoute (r : Nat) (x : RouteRun) : (l.setRoute r x).mems = l.mems := (rfl)

@[simp] theorem Leaf.mems_offer (r : Nat) (ts : List Token) : (l.offer r ts).mems = l.mems := (rfl)

@[simp] theorem Leaf.mems_injDone : l.injDone.mems = l.mems := (rfl)

@[simp] theorem Leaf.mems_crcAt (links bad : List Nat) : (l.crcAt links bad).2.mems = l.mems := by
  unfold Leaf.crcAt
  dsimp only
  repeat' split
  all_goals simp [Leaf.linkCrc]

@[simp] theorem Leaf.mems_setEngPort (code port : Nat) (e : EngPort) : (l.setEngPort code port e).mems = l.mems := (rfl)

@[simp] theorem Leaf.mems_engineTakeN (r : Nat) (d : RouteDesc) (n : Nat) : (Leaf.engineTakeN r d n l).mems = l.mems := by
  induction n generalizing l with
  | zero => rfl
  | succ n ih =>
    unfold Leaf.engineTakeN
    dsimp only
    repeat' split
    all_goals simp [ih]

@[simp] theorem Leaf.mems_tokenArrival (r : Nat) (bad : List Nat) : (l.tokenArrival r bad).mems = l.mems := by
  unfold Leaf.tokenArrival
  split <;> simp [Leaf.engineTake]

@[simp] theorem Leaf.mems_creditReturn (r : Nat) (bad : List Nat) : (l.creditReturn r bad).mems = l.mems := by
  unfold Leaf.creditReturn
  split <;> simp

@[simp] theorem Leaf.mems_engineSend (code port : Nat) (ts : List Token) : (l.engineSend code port ts).mems = l.mems := by
  simp [Leaf.engineSend]

@[simp] theorem Leaf.mems_drainRoutes (keepBlind : Bool) : (l.drainRoutes keepBlind).1.mems = l.mems := (rfl)

@[simp] theorem Leaf.mems_creditCheck : l.creditCheck.mems = l.mems := by
  unfold Leaf.creditCheck
  split <;> simp

/-! ## Sys2Proof/Machine/Filter.lean -/

@[simp] theorem Leaf.mems_setCh (c : Nat) (x : FiltCh) : (l.setCh c x).mems = l.mems := (rfl)

@[simp] theorem Leaf.mems_clearSettled (c : Nat) : (l.clearSettled c).mems = l.mems := by simp [Leaf.clearSettled]

@[simp] theorem Leaf.mems_clearCh (c : Nat) : (l.clearCh c).mems = l.mems := by simp [Leaf.clearCh]

@[simp] theorem Leaf.mems_thresholds (c path outTime at' : Nat) (y : Int) : (l.thresholds c path outTime at' y).mems = l.mems := by
  simp [Leaf.thresholds, Leaf.thrCompare, Leaf.thrEvent]

@[simp] theorem Leaf.mems_chanRecord (c path outTime at' : Nat) (y coarse : Int) (sat : Bool) :
    (l.chanRecord c path outTime at' y coarse sat).mems = l.mems := by
  unfold Leaf.chanRecord
  dsimp only
  repeat' split
  all_goals simp

@[simp] theorem Leaf.mems_imuTake (c : Nat) (t y : Int) : (l.imuTake c t y).mems = l.mems := by
  unfold Leaf.imuTake
  split <;> simp [Leaf.imuJoin]

@[simp] theorem Leaf.mems_mpOut (c at' : Nat) (t y : Int) (sat : Bool) : (l.mpOut c at' t y sat).mems = l.mems := by
  simp [Leaf.mpOut, Leaf.wheelTake]

@[simp] theorem Leaf.mems_lpOut (c at' : Nat) (t y coarse : Int) (sat : Bool) : (l.lpOut c at' t y coarse sat).mems = l.mems := by
  simp [Leaf.lpOut]

@[simp] theorem Leaf.mems_sampleStart (c stamp : Nat) : (l.sampleStart c stamp).mems = l.mems := by
  unfold Leaf.sampleStart
  dsimp only
  repeat' split
  all_goals simp

@[simp] theorem Leaf.mems_sampled (c stamp at' : Nat) (cap v : Int) : (l.sampled c stamp at' cap v).mems = l.mems := by
  unfold Leaf.sampled
  dsimp only
  repeat' split
  all_goals simp [Leaf.sampleCount, Leaf.filtSat]

@[simp] theorem Leaf.mems_filtIn (c stamp at' : Nat) (cap v : Int) : (l.filtIn c stamp at' cap v).mems = l.mems := by
  simp [Leaf.filtIn, Leaf.eventValue]

@[simp] theorem Leaf.mems_phaseReset (ts : Nat) : (l.phaseReset ts).mems = l.mems := by simp [Leaf.phaseReset]

@[simp] theorem Leaf.mems_syncCancel : l.syncCancel.mems = l.mems := (rfl)

@[simp] theorem Leaf.mems_syncTick : l.syncTick.mems = l.mems := by
  unfold Leaf.syncTick
  split <;> simp

@[simp] theorem Leaf.mems_writeChCfg (c w : Nat) : (l.writeChCfg c w).mems = l.mems := by simp [Leaf.writeChCfg, Leaf.filtEnable]

@[simp] theorem Leaf.mems_writeChProg (c a w : Nat) : (l.writeChProg c a w).mems = l.mems := by simp [Leaf.writeChProg]

/-! ## Sys2Proof/Machine/Ego.lean -/

@[simp] theorem Leaf.mems_setF64 (lo hi : Nat) (x : F64) : (l.setF64 lo hi x).mems = l.mems := (rfl)

@[simp] theorem Leaf.mems_egoIntegrate (w a : List F64) (dt : F64) : (l.egoIntegrate w a dt).mems = l.mems := (rfl)

@[simp] theorem Leaf.mems_egoWindow (lo hi : Nat) : (l.egoWindow lo hi).mems = l.mems := by
  unfold Leaf.egoWindow
  dsimp only
  repeat' split
  all_goals simp [Leaf.egoSample]

@[simp] theorem Leaf.mems_egoWheels (t1 : Nat) : (l.egoWheels t1).mems = l.mems := by
  unfold Leaf.egoWheels
  split <;> simp

@[simp] theorem Leaf.mems_showNom : l.showNom.mems = l.mems := by simp [Leaf.showNom]

@[simp] theorem Leaf.mems_egoLoad : l.egoLoad.mems = l.mems := (rfl)

@[simp] theorem Leaf.mems_egoCorrect (tick : Nat) : (l.egoCorrect tick).mems = l.mems := by
  unfold Leaf.egoCorrect
  dsimp only
  repeat' split
  all_goals simp

@[simp] theorem Leaf.mems_egoPredict (k bound : Nat) : (l.egoPredict k bound).mems = l.mems := by simp [Leaf.egoPredict]

@[simp] theorem Leaf.mems_egoClose (k bound : Nat) : (l.egoClose k bound).mems = l.mems := (rfl)

@[simp] theorem Leaf.mems_egoPropagate : l.egoPropagate.mems = l.mems := by simp [Leaf.egoPropagate]

@[simp] theorem Leaf.mems_writeEgoCtrl (w : Nat) : (l.writeEgoCtrl w).mems = l.mems := by simp [Leaf.writeEgoCtrl]

/-! ## Sys2Proof/Machine/Sensors.lean -/

@[simp] theorem Leaf.mems_setSrc (s : Nat) (x : SrcRun) : (l.setSrc s x).mems = l.mems := (rfl)

@[simp] theorem Leaf.mems_srcTo (s st : Nat) : (l.srcTo s st).mems = l.mems := by simp [Leaf.srcTo, Leaf.leaveUp, Leaf.feederLost]

@[simp] theorem Leaf.mems_srcDown (s : Nat) : (l.srcDown s).mems = l.mems := by simp [Leaf.srcDown]

@[simp] theorem Leaf.mems_onSlot (s : Nat) (f : SlotBuf → SlotBuf) : (l.onSlot s f).mems = l.mems := (rfl)

@[simp] theorem Leaf.mems_srcLose (s kind flags : Nat) (drop : Bool) : (l.srcLose s kind flags drop).mems = l.mems := (rfl)

@[simp] theorem Leaf.mems_srcMalformed (s : Nat) : (l.srcMalformed s).mems = l.mems := by simp [Leaf.srcMalformed]

@[simp] theorem Leaf.mems_srcJudge (s : Nat) (bad : Bool) : (l.srcJudge s bad).2.mems = l.mems := by simp [Leaf.srcJudge]

@[simp] theorem Leaf.mems_notDelivered (s at' : Nat) (bad : Bool) : (l.notDelivered s at' bad).mems = l.mems := (rfl)

@[simp] theorem Leaf.mems_storeItem (s : Nat) (r : SlotRec) : (l.storeItem s r).mems = l.mems := by
  unfold Leaf.storeItem
  dsimp only
  repeat' split
  all_goals simp

@[simp] theorem Leaf.mems_lidPoint (t at' : Nat) (cap : Int) (payload : List Byte) (k : Nat) :
    (l.lidPoint t at' cap payload k).mems = l.mems := by
  unfold Leaf.lidPoint
  dsimp only
  repeat' split
  all_goals simp

@[simp] theorem Leaf.mems_setCam (n : Nat) (x : CamRun) : (l.setCam n x).mems = l.mems := (rfl)

@[simp] theorem Leaf.mems_camDrop (n : Nat) (p : CamFrame → Bool) : (l.camDrop n p).mems = l.mems := by simp [Leaf.camDrop]

@[simp] theorem Leaf.mems_camJudge (n : Nat) (f : CamFrame) : (l.camJudge n f).mems = l.mems := by
  unfold Leaf.camJudge
  split <;> simp

@[simp] theorem Leaf.mems_camEnd (n : Nat) : (l.camEnd n).mems = l.mems := by
  unfold Leaf.camEnd
  split <;> simp

@[simp] theorem Leaf.mems_itemStamped (it : Item) (vt : Nat) : (l.itemStamped it vt).mems = l.mems := by
  unfold Leaf.itemStamped
  dsimp only
  repeat' split
  all_goals simp [Leaf.storePayload, Leaf.spiFields]

@[simp] theorem Leaf.mems_arrive (active : Bool) (s c8 : Nat) (body : ItemBody) : (l.arrive active s c8 body).mems = l.mems := by
  simp [Leaf.arrive]

@[simp] theorem Leaf.mems_stampKnown (s seq vt : Nat) : (l.stampKnown s seq vt).mems = l.mems := by
  unfold Leaf.stampKnown
  split <;> simp

@[simp] theorem Leaf.mems_camStart (active : Bool) (n c8 : Nat) : (l.camStart active n c8).mems = l.mems := by simp [Leaf.camStart]

@[simp] theorem Leaf.mems_camDue (n : Nat) : (l.camDue n).mems = l.mems := by
  unfold Leaf.camDue
  dsimp only
  repeat' split
  all_goals simp

@[simp] theorem Leaf.mems_exposure (n : Nat) : (l.exposure n).mems = l.mems := by
  unfold Leaf.exposure
  dsimp only
  repeat' split
  all_goals simp

@[simp] theorem Leaf.mems_retrig (n : Nat) : (l.retrig n).mems = l.mems := (rfl)

@[simp] theorem Leaf.mems_writeTrig (n a w : Nat) : (l.writeTrig n a w).mems = l.mems := by simp [Leaf.writeTrig]

@[simp] theorem Leaf.mems_writeI2c (n w : Nat) : (l.writeI2c n w).mems = l.mems := by simp [Leaf.writeI2c]

@[simp] theorem Leaf.mems_i2cDone (n : Nat) (nack : Bool) (data : Nat) : (l.i2cDone n nack data).mems = l.mems := by
  unfold Leaf.i2cDone
  split <;> simp

@[simp] theorem Leaf.mems_lidarDatagram (active : Bool) : (l.lidarDatagram active).mems = l.mems := by
  unfold Leaf.lidarDatagram
  dsimp only
  repeat' split
  all_goals simp

@[simp] theorem Leaf.mems_dataReady (p c8 : Nat) : (l.dataReady p c8).mems = l.mems := by
  unfold Leaf.dataReady
  split <;> simp

@[simp] theorem Leaf.mems_spiDone (active : Bool) (p : Nat) (miso : List Byte) : (l.spiDone active p miso).mems = l.mems := by
  unfold Leaf.spiDone
  split <;> simp

@[simp] theorem Leaf.mems_canFrame (active : Bool) (ctrl c8 : Nat) (f : CanFrame) : (l.canFrame active ctrl c8 f).mems = l.mems := by
  unfold Leaf.canFrame
  split
  · rfl
  · refine Leaf.mems_foldl _ _ _ fun m e => ?_
    split_ifs
    · rfl
    · simp
    · split <;> simp

@[simp] theorem Leaf.mems_canRecover (ctrl : Nat) : (l.canRecover ctrl).mems = l.mems := (rfl)

@[simp] theorem Leaf.mems_uartMessage (active : Bool) (c8 : Nat) (msg : List Byte) (ok : Bool) :
    (l.uartMessage active c8 msg ok).mems = l.mems := by simp [Leaf.uartMessage]

@[simp] theorem Leaf.mems_uartTx (w : Nat) : (l.uartTx w).mems = l.mems := by simp [Leaf.uartTx]

@[simp] theorem Leaf.mems_uartSent : l.uartSent.mems = l.mems := by
  unfold Leaf.uartSent
  split <;> simp

@[simp] theorem Leaf.mems_linkLost (s : Nat) : (l.linkLost s).mems = l.mems := by simp [Leaf.linkLost, Leaf.lidPortsDown]

@[simp] theorem Leaf.mems_itemTimeout (s : Nat) : (l.itemTimeout s).mems = l.mems := by simp [Leaf.itemTimeout]

@[simp] theorem Leaf.mems_snsRefused : l.snsRefused.mems = l.mems := by simp [Leaf.snsRefused]

@[simp] theorem Leaf.mems_writeSrcCfg (s w : Nat) : (l.writeSrcCfg s w).mems = l.mems := by
  simp [Leaf.writeSrcCfg, Leaf.srcEnable, Leaf.srcDisable]

@[simp] theorem Leaf.mems_writeSnsCfg (a w : Nat) : (l.writeSnsCfg a w).mems = l.mems := by simp [Leaf.writeSnsCfg]

@[simp] theorem Leaf.mems_glazeSources : l.glazeSources.mems = l.mems := by simp [Leaf.glazeSources]

/-! ## Sys2Proof/Machine/Map.lean -/

@[simp] theorem Leaf.mems_setMap (m : MapState) : (l.setMap m).mems = l.mems := (rfl)

@[simp] theorem Leaf.mems_mapFull : l.mapFull.mems = l.mems := by simp [Leaf.mapFull]

@[simp] theorem Leaf.mems_showMap : l.showMap.mems = l.mems := by simp [Leaf.showMap]

@[simp] theorem Leaf.mems_addNode (n : GNode) : (l.addNode n).2.mems = l.mems := by simp [Leaf.addNode]

@[simp] theorem Leaf.mems_addEdge (e : GEdge) : (l.addEdge e).2.mems = l.mems := by simp [Leaf.addEdge]

@[simp] theorem Leaf.mems_dropOldestKf : l.dropOldestKf.mems = l.mems := by
  unfold Leaf.dropOldestKf
  split <;> simp

@[simp] theorem Leaf.mems_keyframeAdd (k : Nat) (r : List Byte) : (l.keyframeAdd k r).2.mems = l.mems := by
  unfold Leaf.keyframeAdd
  dsimp only
  repeat' split
  all_goals simp

@[simp] theorem Leaf.mems_nodeAdd (r : List Byte) : (l.nodeAdd r).2.mems = l.mems := by simp [Leaf.nodeAdd]

@[simp] theorem Leaf.mems_lmkRecord (k : Nat) (r : List Byte) : (l.lmkRecord k r).2.mems = l.mems := by
  unfold Leaf.lmkRecord
  dsimp only
  repeat' split
  all_goals simp

@[simp] theorem Leaf.mems_updRecord (k : Nat) (r : List Byte) : (l.updRecord k r).2.mems = l.mems := by
  unfold Leaf.updRecord
  dsimp only
  repeat' split
  all_goals simp

@[simp] theorem Leaf.mems_updBytes (i k : Nat) : (l.updBytes i k).2.mems = l.mems := by
  unfold Leaf.updBytes
  split
  · rfl
  · split
    · split <;> exact mems_of_snd ‹_› (Leaf.mems_readObj ..)
    · exact mems_of_snd ‹_› (Leaf.mems_readObj ..)

@[simp] theorem Leaf.mems_applyUpdates (k : Nat) : (l.applyUpdates k).mems = l.mems := by
  unfold Leaf.applyUpdates
  split
  · rfl
  · split
    · rename_i i _ _ e
      simpa using mems_of_snd e (Leaf.mems_updBytes ..)
    · rename_i i _ _ bs l1 e
      dsimp only
      rw [Leaf.mems_foldl]
      · simpa using mems_of_snd e (Leaf.mems_updBytes ..)
      · intro m r
        split <;> simp

@[simp] theorem Leaf.mems_freeUe : l.freeUe.mems = l.mems := by simp [Leaf.freeUe]

@[simp] theorem Leaf.mems_windowSolved (poses : List (Nat × List F64)) : (l.windowSolved poses).mems = l.mems := (rfl)

@[simp] theorem Leaf.mems_graphSolved (k : Nat) (poses : List (List F64)) : (l.graphSolved k poses).mems = l.mems := (rfl)

@[simp] theorem Leaf.mems_startVerify (k : Nat) : (l.startVerify k).mems = l.mems := by
  unfold Leaf.startVerify
  split
  · rfl
  · split
    · rfl
    · split
      · simpa using mems_of_snd ‹_› (Leaf.mems_readObj ..)
      · exact mems_of_snd ‹_› (Leaf.mems_readObj ..)

@[simp] theorem Leaf.mems_verifyDone (c : Nat) : (l.verifyDone c).mems = l.mems := by
  unfold Leaf.verifyDone
  dsimp only
  repeat' split
  all_goals simp

@[simp] theorem Leaf.mems_applyVerdict (k : Nat) (x : Cand) (v : Verdict) : (l.applyVerdict k x v).mems = l.mems := by
  unfold Leaf.applyVerdict
  split <;> simp

@[simp] theorem Leaf.mems_lmkReadDone (ue : Bool) : (l.lmkReadDone ue).mems = l.mems := by simp [Leaf.lmkReadDone]

@[simp] theorem Leaf.mems_clearMap : l.clearMap.mems = l.mems := by simp [Leaf.clearMap]

/-! ## Sys2Proof/Machine/Spec.lean -/

@[simp] theorem Leaf.mems_judgePose : l.judgePose.mems = l.mems := by
  unfold Leaf.judgePose
  split <;> simp

@[simp] theorem Leaf.mems_propagate : l.propagate.mems = l.mems := by simp [Leaf.propagate]

@[simp] theorem Leaf.mems_detRefused : l.detRefused.mems = l.mems := by simp [Leaf.detRefused]

@[simp] theorem Leaf.mems_writeRngObj (w : Nat) : (l.writeRngObj w).mems = l.mems := by simp [Leaf.writeRngObj]

@[simp] theorem Leaf.mems_writeSeed (a w : Nat) : (l.writeSeed a w).mems = l.mems := by simp [Leaf.writeSeed]

@[simp] theorem Leaf.mems_rngRead : l.rngRead.mems = l.mems := by simp [Leaf.rngRead]

@[simp] theorem Leaf.mems_rngWrite : l.rngWrite.mems = l.mems := by simp [Leaf.rngWrite]

@[simp] theorem Leaf.mems_writeRngIdx (w : Nat) : (l.writeRngIdx w).mems = l.mems := by
  simp [Leaf.writeRngIdx]

@[simp] theorem Leaf.mems_stageRead (id : Nat) (blind : Bool) (tick i ofs n : Nat) :
    (l.stageRead id blind tick i ofs n).2.mems = l.mems := by
  unfold Leaf.stageRead
  split_ifs
  · split <;> rfl
  all_goals simp

/-! ## Sys2Proof/Machine/Stage.lean -/

@[simp] theorem Leaf.mems_putSlots (ix : Nat) (f : Nat → Nat → FieldRef) (v : Nat) : (l.putSlots ix f v).mems = l.mems := by
  simp [Leaf.putSlots]

@[simp] theorem Leaf.mems_setRun (blind : Bool) (ix : Nat) (r : StageRun) : (l.setRun blind ix r).mems = l.mems := by simp [Leaf.setRun]

@[simp] theorem Leaf.mems_consumeIns (blind : Bool) (s : StageDesc) (x : StageRun) : (l.consumeIns blind s x).2.mems = l.mems := by
  unfold Leaf.consumeIns
  refine mems_foldl_snd _ _ (x, l) fun a e => ?_
  split <;> simp

@[simp] theorem Leaf.mems_readSegs (id : Nat) (blind : Bool) (tick : Nat) (qs : List SegReq) :
    (Leaf.readSegs id blind tick qs l).2.mems = l.mems := by
  induction qs generalizing l with
  | nil => rfl
  | cons q t ih =>
    unfold Leaf.readSegs
    split
    · exact mems_of_snd ‹_› (Leaf.mems_stageRead ..)
    · exact mems_of_snd ‹_› (Leaf.mems_stageRead ..)
    · rename_i bs l1 e
      have h1 : l1.mems = l.mems := mems_of_snd e (Leaf.mems_stageRead ..)
      split
      · rename_i e2
        exact (mems_of_snd e2 (ih l1)).trans h1
      · exact (ih l1).trans h1

@[simp] theorem Leaf.mems_compute (blind : Bool) (s : StageDesc) (x : StageRun) : (l.compute blind s x).2.mems = l.mems := by
  unfold Leaf.compute
  dsimp only
  split
  · exact mems_of_snd ‹_› (Leaf.mems_readSegs ..)
  · exact mems_of_snd ‹_› (Leaf.mems_readSegs ..)
  · rename_i l1 e
    have h1 : l1.mems = l.mems := mems_of_snd e (Leaf.mems_readSegs ..)
    split
    · exact (mems_of_snd ‹_› (Leaf.mems_readSegs ..)).trans h1
    · exact (mems_of_snd ‹_› (Leaf.mems_readSegs ..)).trans h1
    · rename_i l2 e2
      have h2 : l2.mems = l.mems := (mems_of_snd e2 (Leaf.mems_readSegs ..)).trans h1
      simp [h2]

@[simp] theorem Leaf.mems_emitPort (s : StageDesc) (n count : Nat) (x : StageRun) : (l.emitPort s n count x).2.2.mems = l.mems := by
  simp [Leaf.emitPort, Leaf.sendOn]

@[simp] theorem Leaf.mems_emitAll (s : StageDesc) (emit : List (Nat × Nat)) (x : StageRun) : (l.emitAll s emit x).2.2.mems = l.mems := by
  refine mems_foldl_of (·.2.2) _ _ (0, x, l) fun a n => ?_
  split <;> simp

@[simp] theorem Leaf.mems_injToken (s : StageDesc) (emit : List (Nat × Nat)) (x : StageRun) : (l.injToken s emit x).2.mems = l.mems := by
  unfold Leaf.injToken
  split
  · split
    · split <;> simp [Leaf.injDone]
    · rfl
  · rfl

@[simp] theorem Leaf.mems_fireRun (blind : Bool) (ix : Nat) (emit : List (Nat × Nat)) : (l.fireRun blind ix emit).mems = l.mems := by
  unfold Leaf.fireRun
  split
  · split
    · rfl
    · extract_lets n c x1 d j e _ y idle y1 l1
      have hd : d.2.mems = l.mems := by
        unfold d
        split
        · simp [c]
        · split <;> exact (mems_of_snd ‹_› (Leaf.mems_compute ..)).trans (by simp [c])
      have h1 : l1.mems = l.mems := by simp [l1, e, j, hd]
      split_ifs <;> simp [h1]
  · rfl

@[simp] theorem Leaf.mems_stageFire (ix : Nat) (emit : List (Nat × Nat)) : (l.stageFire ix emit).mems = l.mems := by
  unfold Leaf.stageFire
  split
  · rfl
  · split <;> simp

@[simp] theorem Leaf.mems_blindStart (ix : Nat) : (l.blindStart ix).mems = l.mems := by
  unfold Leaf.blindStart
  split <;> simp

/-! ## Sys2Proof/Machine/Vision.lean -/

@[simp] theorem Leaf.mems_freeDraw : l.freeDraw.2.mems = l.mems := (rfl)

@[simp] theorem Leaf.mems_putFree (f : FieldRef) : (l.putFree f).mems = l.mems := (rfl)

@[simp] theorem Leaf.mems_setVis (v : VisState) : (l.setVis v).mems = l.mems := (rfl)

@[simp] theorem Leaf.mems_setVjob (e j : Nat) (v : VJob) : (l.setVjob e j v).mems = l.mems := (rfl)

@[simp] theorem Leaf.mems_setVqueue (e : Nat) (q : List Nat) : (l.setVqueue e q).mems = l.mems := (rfl)

@[simp] theorem Leaf.mems_visSend (e : Nat) (c : JobCfg) (ts : List Token) : (l.visSend e c ts).mems = l.mems := by simp [Leaf.visSend]

@[simp] theorem Leaf.mems_visError (e j code : Nat) (c : JobCfg) : (l.visError e j code c).mems = l.mems := by simp [Leaf.visError]

@[simp] theorem Leaf.mems_visQueueReady : l.visQueueReady.mems = l.mems := by
  unfold Leaf.visQueueReady
  refine Leaf.mems_foldl _ _ _ fun m e => ?_
  split
  · split <;> simp
  · rfl

@[simp] theorem Leaf.mems_visArm : l.visArm.mems = l.mems := by
  unfold Leaf.visArm
  extract_lets _ l0 l1 l2
  have h1 : l1.mems = l.mems := by simp [l1, l0]
  have h2 : l2.mems = l1.mems := Leaf.mems_foldl _ _ _ fun m e => by
    split
    · split <;> simp
    · rfl
  simp [h2, h1]

@[simp] theorem Leaf.mems_visStart (e j : Nat) : (l.visStart e j).mems = l.mems := by
  unfold Leaf.visStart
  dsimp only
  repeat' split
  all_goals simp [Leaf.visSkip]

@[simp] theorem Leaf.mems_visCut : l.visCut.mems = l.mems := by simp [Leaf.visCut]

@[simp] theorem Leaf.mems_visResetDone (e : Nat) : (l.visResetDone e).mems = l.mems := by simp [Leaf.visResetDone]

@[simp] theorem Leaf.mems_visClear : l.visClear.mems = l.mems := by simp [Leaf.visClear]

/-! ## Sys2Proof/Machine/Fusion.lean -/

@[simp] theorem Leaf.mems_setFus (f : FusState) : (l.setFus f).mems = l.mems := (rfl)

@[simp] theorem Leaf.mems_setTable (k : Nat) (t : SenTable) : (l.setTable k t).mems = l.mems := by simp [Leaf.setTable, Leaf.showLive]

@[simp] theorem Leaf.mems_loadTables : l.loadTables.mems = l.mems := by simp [Leaf.loadTables]

@[simp] theorem Leaf.mems_writeTblCmd (w : Nat) : (l.writeTblCmd w).mems = l.mems := by simp [Leaf.writeTblCmd, Leaf.tblCommit]

@[simp] theorem Leaf.mems_projField (v : Option Nat) : (l.projField v).2.mems = l.mems := by
  unfold Leaf.projField
  split <;> simp

@[simp] theorem Leaf.mems_projRecord (j c : Nat) (pt : List Byte) : (l.projRecord j c pt).2.mems = l.mems := by simp [Leaf.projRecord]

@[simp] theorem Leaf.mems_projPoints (j mask : Nat) (ps : List (List Byte)) : (Leaf.projPoints j mask ps l).2.mems = l.mems := by
  induction ps generalizing l with
  | nil => rfl
  | cons p t ih => simp [Leaf.projPoints, ih]

@[simp] theorem Leaf.mems_project (blind : Bool) (j : Nat) : (l.project blind j).mems = l.mems := by
  unfold Leaf.project
  split <;> simp

@[simp] theorem Leaf.mems_projectJob (j : Nat) : (l.projectJob j).mems = l.mems := by simp [Leaf.projectJob]

@[simp] theorem Leaf.mems_ringClear (g : RingRegs) : (l.ringClear g).mems = l.mems := (rfl)

@[simp] theorem Leaf.mems_drawTrackId : l.drawTrackId.2.mems = l.mems := by simp [Leaf.drawTrackId]

@[simp] theorem Leaf.mems_birth (c : FusCfg) (x : TrkCand) (s : Nat) (w : TrkWork) : (l.birth c x s w).2.mems = l.mems := by
  unfold Leaf.birth
  split <;> exact mems_of_snd ‹_› (Leaf.mems_drawTrackId l)

@[simp] theorem Leaf.mems_slotStep (c : FusCfg) (cs : List (Nat × TrkCand)) (a : TrkWork × Leaf) (s : Nat) :
    (Leaf.slotStep c cs a s).2.mems = a.2.mems := by
  unfold Leaf.slotStep
  split <;> simp

@[simp] theorem Leaf.mems_trkNetwork (c : FusCfg) : (l.trkNetwork c).2.mems = l.mems := by simp [Leaf.trkNetwork]

@[simp] theorem Leaf.mems_trkAssoc (c : FusCfg) : (l.trkAssoc c).2.mems = l.mems := by
  unfold Leaf.trkAssoc
  dsimp only
  rw [mems_foldl_snd]
  · simp
  · intro a e
    split
    · rfl
    · split <;> simp

@[simp] theorem Leaf.mems_fusUpdate : l.fusUpdate.mems = l.mems := by
  unfold Leaf.fusUpdate
  split <;> simp [Leaf.gridUpdate, Leaf.trkUpdate]

@[simp] theorem Leaf.mems_writeTrkNext (w : Nat) : (l.writeTrkNext w).mems = l.mems := by simp [Leaf.writeTrkNext]

@[simp] theorem Leaf.mems_putDemoted (s : Nat) (b : Bool) : (l.putDemoted s b).mems = l.mems := by simp [Leaf.putDemoted]

@[simp] theorem Leaf.mems_demotions : l.demotions.mems = l.mems := by
  unfold Leaf.demotions
  split <;> simp [Leaf.demoteStep]

@[simp] theorem Leaf.mems_writeDemote (n w : Nat) : (l.writeDemote n w).mems = l.mems := by simp [Leaf.writeDemote]

@[simp] theorem Leaf.mems_takeThresholds (hi : Nat) : (l.takeThresholds hi).mems = l.mems := (rfl)

@[simp] theorem Leaf.mems_drTimer (b r : Nat) : (l.drTimer b r).2.mems = l.mems := by
  unfold Leaf.drTimer
  dsimp only
  repeat' split
  all_goals simp

@[simp] theorem Leaf.mems_drExpire : l.drExpire.mems = l.mems := by simp [Leaf.drExpire]

@[simp] theorem Leaf.mems_writeCalSize (w : Nat) : (l.writeCalSize w).mems = l.mems := by simp [Leaf.writeCalSize]

@[simp] theorem Leaf.mems_fusClear : l.fusClear.mems = l.mems := by simp [Leaf.fusClear]

/-! ## Sys2Proof/Machine/Search.lean -/

@[simp] theorem Leaf.mems_setSrch (s : SrchState) : (l.setSrch s).mems = l.mems := (rfl)

@[simp] theorem Leaf.mems_setIdx (x : Nat) (s : IdxSlot) : (l.setIdx x s).mems = l.mems := (rfl)

@[simp] theorem Leaf.mems_showBadcw : l.showBadcw.mems = l.mems := (rfl)

@[simp] theorem Leaf.mems_srchRead (addr : Nat) (blind : Bool) (r : ReadOutcome) : (l.srchRead addr blind r).2.mems = l.mems := by
  unfold Leaf.srchRead
  dsimp only
  repeat' split
  all_goals simp

@[simp] theorem Leaf.mems_rankSide (n : Nat) (q : Query) : (Leaf.rankSide n q l).2.mems = l.mems := by
  induction n generalizing q l with
  | zero => rfl
  | succ n ih =>
    unfold Leaf.rankSide
    repeat' split
    all_goals simp [ih, Leaf.rankOne]

@[simp] theorem Leaf.mems_settleQuery (q : Query) : (l.settleQuery q).2.mems = l.mems := by simp [Leaf.settleQuery]

@[simp] theorem Leaf.mems_queryRead (q : Query) (r : ReadOutcome) : (l.queryRead q r).2.mems = l.mems := by
  unfold Leaf.queryRead
  dsimp only
  repeat' split
  all_goals simp [Leaf.rankOne]

@[simp] theorem Leaf.mems_showCtx : l.showCtx.mems = l.mems := by simp [Leaf.showCtx]

@[simp] theorem Leaf.mems_showSlot (x : Nat) : (l.showSlot x).mems = l.mems := by
  unfold Leaf.showSlot
  split <;> simp

@[simp] theorem Leaf.mems_finishDetach : l.finishDetach.mems = l.mems := by
  unfold Leaf.finishDetach
  refine Leaf.mems_foldl _ _ _ fun m x => ?_
  dsimp only
  repeat' split
  all_goals simp

@[simp] theorem Leaf.mems_releaseCtx (ctx : Nat) : (l.releaseCtx ctx).mems = l.mems := by simp [Leaf.releaseCtx]

@[simp] theorem Leaf.mems_noteSide (q x s : Nat) : (l.noteSide q x s).mems = l.mems := by
  unfold Leaf.noteSide
  repeat' split
  all_goals simp

@[simp] theorem Leaf.mems_queryAdmit (ctx : Nat) : (l.queryAdmit ctx).mems = l.mems := by
  unfold Leaf.queryAdmit
  dsimp only
  repeat' split
  all_goals simp [Leaf.placeQuery]

@[simp] theorem Leaf.mems_walkRead (ctx : Nat) (r : ReadOutcome) : (l.walkRead ctx r).mems = l.mems := by
  unfold Leaf.walkRead
  split <;> simp

@[simp] theorem Leaf.mems_fillRow (q tick row : Nat) (blind : Bool) (st : Nat) (b : List Byte) :
    (l.fillRow q tick row blind st b).mems = l.mems := (rfl)

@[simp] theorem Leaf.mems_srchDrop (c : HostCmd) : (l.srchDrop c).mems = l.mems := by
  unfold Leaf.srchDrop
  dsimp only
  repeat' split
  all_goals simp

@[simp] theorem Leaf.mems_feedRun (q tick : Nat) (blind : Bool) (x : StageRun) : (l.feedRun q tick blind x).mems = l.mems := (rfl)

@[simp] theorem Leaf.mems_feedSources : l.feedSources.mems = l.mems := by
  unfold Leaf.feedSources
  refine Leaf.mems_foldl _ _ _ fun m x => ?_
  dsimp only
  repeat' split
  all_goals simp

@[simp] theorem Leaf.mems_closeSources (k : Nat) : (l.closeSources k).mems = l.mems := by simp [Leaf.closeSources]

@[simp] theorem Leaf.mems_latchSeqs : l.latchSeqs.mems = l.mems := (rfl)

@[simp] theorem Leaf.mems_writeQsrc (q : Nat) (res : Bool) (w : Nat) : (l.writeQsrc q res w).mems = l.mems := by simp [Leaf.writeQsrc]

@[simp] theorem Leaf.mems_writeSideCmd (w : Nat) : (l.writeSideCmd w).mems = l.mems := by simp [Leaf.writeSideCmd, Leaf.sideGo]

@[simp] theorem Leaf.mems_attachDone (x : Nat) (r : ReadOutcome) : (l.attachDone x r).mems = l.mems := by
  unfold Leaf.attachDone
  dsimp only
  repeat' split
  all_goals simp

@[simp] theorem Leaf.mems_dropMerge : l.dropMerge.mems = l.mems := (rfl)

@[simp] theorem Leaf.mems_detach (x : Nat) : (l.detach x).mems = l.mems := by
  unfold Leaf.detach
  dsimp only
  repeat' split
  all_goals simp

@[simp] theorem Leaf.mems_fwGo : l.fwGo.mems = l.mems := by simp [Leaf.fwGo]

@[simp] theorem Leaf.mems_coverFlash (es : List Extent) : (l.coverFlash es).mems = l.mems := (rfl)

@[simp] theorem Leaf.mems_mergeGo : l.mergeGo.mems = l.mems := by
  unfold Leaf.mergeGo
  dsimp only
  repeat' split
  all_goals simp

@[simp] theorem Leaf.mems_writeMrgCtrl (w : Nat) : (l.writeMrgCtrl w).mems = l.mems := by simp [Leaf.writeMrgCtrl, Leaf.mergeAbort]

@[simp] theorem Leaf.mems_doSwap (x : Nat) : (l.doSwap x).mems = l.mems := by
  unfold Leaf.doSwap
  split <;> simp

@[simp] theorem Leaf.mems_swapIdx (x : Nat) : (l.swapIdx x).mems = l.mems := by
  unfold Leaf.swapIdx
  split <;> simp

@[simp] theorem Leaf.mems_writeIdxCtrl (x w : Nat) : (l.writeIdxCtrl x w).mems = l.mems := by simp [Leaf.writeIdxCtrl, Leaf.attach]

@[simp] theorem Leaf.mems_srchStep7 : l.srchStep7.mems = l.mems := by simp [Leaf.srchStep7]

@[simp] theorem Leaf.mems_srchGlaze : l.srchGlaze.mems = l.mems := by simp [Leaf.srchGlaze]

/-! ## Sys2Proof/Machine/Solver.lean -/

@[simp] theorem Leaf.mems_setSolv (s : SolvState) : (l.setSolv s).mems = l.mems := (rfl)

@[simp] theorem Leaf.mems_setSjob (j : Nat) (x : SolvJob) : (l.setSjob j x).mems = l.mems := (rfl)

@[simp] theorem Leaf.mems_showGraph : l.showGraph.mems = l.mems := (rfl)

@[simp] theorem Leaf.mems_graphActivate (n : Nat) : (l.graphActivate n).mems = l.mems := by
  unfold Leaf.graphActivate
  split <;> simp

@[simp] theorem Leaf.mems_solvArm (n : Nat) : (l.solvArm n).mems = l.mems := by simp [Leaf.solvArm, Leaf.graphRequests]

@[simp] theorem Leaf.mems_solvStart (j : Nat) : (l.solvStart j).mems = l.mems := by
  unfold Leaf.solvStart
  dsimp only
  repeat' split
  all_goals simp [Leaf.solvRun]

@[simp] theorem Leaf.mems_scratch (bytes : Nat) : (l.scratch bytes).2.mems = l.mems := (rfl)

@[simp] theorem Leaf.mems_solveEgo (d : SolvDesc) (ue : Bool) : (l.solveEgo d ue).2.mems = l.mems := by
  unfold Leaf.solveEgo
  dsimp only
  repeat' split
  all_goals simp

@[simp] theorem Leaf.mems_solveWindow (d : SolvDesc) (ue : Bool) : (l.solveWindow d ue).2.mems = l.mems := by
  unfold Leaf.solveWindow
  dsimp only
  repeat' split
  all_goals simp

@[simp] theorem Leaf.mems_solveDense (d : SolvDesc) (ue : Bool) : (l.solveDense d ue).2.mems = l.mems := by
  unfold Leaf.solveDense
  dsimp only
  repeat' split
  all_goals simp

@[simp] theorem Leaf.mems_solveGraph (d : SolvDesc) (ue : Bool) (g : GraphRun) : (l.solveGraph d ue g).2.mems = l.mems := by
  unfold Leaf.solveGraph
  dsimp only
  repeat' split
  all_goals simp

@[simp] theorem Leaf.mems_solvComplete (j : Nat) (ue : Bool) : (l.solvComplete j ue).mems = l.mems := by
  unfold Leaf.solvComplete
  dsimp only
  repeat' split
  all_goals simp [Leaf.solvFinish, Leaf.solvEvents]

@[simp] theorem Leaf.mems_graphBound (d : SolvDesc) (k : Nat) : (l.graphBound d k).mems = l.mems := by
  unfold Leaf.graphBound
  split <;> simp

@[simp] theorem Leaf.mems_solvCut : l.solvCut.mems = l.mems := by
  unfold Leaf.solvCut
  dsimp only
  repeat' split
  all_goals simp

@[simp] theorem Leaf.mems_asgStart : l.asgStart.mems = l.mems := by
  unfold Leaf.asgStart
  split <;> simp

@[simp] theorem Leaf.mems_asgComplete : l.asgComplete.mems = l.mems := by
  unfold Leaf.asgComplete
  split <;> simp

@[simp] theorem Leaf.mems_writeSolvCtrl (w : Nat) : (l.writeSolvCtrl w).mems = l.mems := by
  simp [Leaf.writeSolvCtrl, Leaf.solvReset, Leaf.graphReq]

@[simp] theorem Leaf.mems_solvResetDone : l.solvResetDone.mems = l.mems := (rfl)

@[simp] theorem Leaf.mems_solvClear : l.solvClear.mems = l.mems := by simp [Leaf.solvClear]

/-! ## Sys2Proof/Machine/Blind.lean -/

@[simp] theorem Leaf.mems_onRoutes (rs : List Nat) (f : RouteRun → RouteRun) : (l.onRoutes rs f).mems = l.mems := by simp [Leaf.onRoutes]

@[simp] theorem Leaf.mems_confirmStage (ix : Nat) : (l.confirmStage ix).mems = l.mems := by
  unfold Leaf.confirmStage
  split <;> simp [Leaf.projConfirm, Leaf.confirmRows]

@[simp] theorem Leaf.mems_sendAgain (dead : List Nat) (s : StageDesc) (x : StageRun) : (l.sendAgain dead s x).mems = l.mems := by
  unfold Leaf.sendAgain
  refine Leaf.mems_foldl _ _ _ fun m x => ?_
  dsimp only
  repeat' split
  all_goals simp

@[simp] theorem Leaf.mems_squashStage (dead : List Nat) (rerun : Bool) (c : Nat × Nat) : (l.squashStage dead rerun c).mems = l.mems := by
  unfold Leaf.squashStage
  split <;> simp [Leaf.projSquash, Leaf.releaseRows]

@[simp] theorem Leaf.mems_settleBlind (rerun : Bool) (cs : List (Nat × Option Nat)) : (l.settleBlind rerun cs).mems = l.mems := by
  simp [Leaf.settleBlind]

@[simp] theorem Leaf.mems_specDecide (rerun : Bool) (tick : Nat) : (l.specDecide rerun tick).mems = l.mems := by
  unfold Leaf.specDecide
  split <;> simp

@[simp] theorem Leaf.mems_specDecision : l.specDecision.mems = l.mems := by
  unfold Leaf.specDecision
  split <;> simp

@[simp] theorem Leaf.mems_squashAll (cause : Nat) : (l.squashAll cause).mems = l.mems := by simp [Leaf.squashAll]

@[simp] theorem Leaf.mems_specStep1 : l.specStep1.mems = l.mems := by
  unfold Leaf.specStep1
  split <;> simp

@[simp] theorem Leaf.mems_specStep3 (halting : Bool) (next : Nat) : (l.specStep3 halting next).mems = l.mems := by
  simp [Leaf.specStep3, Leaf.specPend]

@[simp] theorem Leaf.mems_specClear : l.specClear.mems = l.mems := (rfl)

/-! ## Sys2Proof/Machine/Glaze.lean -/

@[simp] theorem Leaf.mems_setGlz (g : GlzState) : (l.setGlz g).mems = l.mems := (rfl)

@[simp] theorem Leaf.mems_glzEnd (status detail pos : Nat) : (l.glzEnd status detail pos).mems = l.mems := by simp [Leaf.glzEnd]

@[simp] theorem Leaf.mems_glzCommand (upd : Bool) : (l.glzCommand upd).mems = l.mems := by simp [Leaf.glzCommand]

@[simp] theorem Leaf.mems_glzCancel : l.glzCancel.mems = l.mems := by simp [Leaf.glzCancel]

@[simp] theorem Leaf.mems_writeGlzCmd (w : Nat) : (l.writeGlzCmd w).mems = l.mems := by simp [Leaf.writeGlzCmd]

@[simp] theorem Leaf.mems_writeKunlock (w : Nat) : (l.writeKunlock w).mems = l.mems := (rfl)

@[simp] theorem Leaf.mems_writeKctl (w : Nat) : (l.writeKctl w).mems = l.mems := by
  unfold Leaf.writeKctl
  dsimp only
  repeat' split
  all_goals simp

@[simp] theorem Leaf.mems_fuseDone : l.fuseDone.mems = l.mems := by
  unfold Leaf.fuseDone
  split <;> simp [Leaf.showFuses]

@[simp] theorem Leaf.mems_putHash (a h : Nat) : (l.putHash a h).mems = l.mems := by simp [Leaf.putHash]

@[simp] theorem Leaf.mems_glazePane (im : Image) (p : Nat) : (l.glazePane im p).mems = l.mems := by simp [Leaf.glazePane]

@[simp] theorem Leaf.mems_glazeMem : l.glazeMem.mems = l.mems := by simp [Leaf.glazeMem]

@[simp] theorem Leaf.mems_fillWord (i : Nat) (o : ObjDesc) (k : Nat) (a : List ReadOutcome × Leaf) :
    (Leaf.fillWord i o k a).2.mems = a.2.mems := by simp [Leaf.fillWord]

@[simp] theorem Leaf.mems_glazePipes (im : Image) : (l.glazePipes im).mems = l.mems := by simp [Leaf.glazePipes]

@[simp] theorem Leaf.mems_reclamp : l.reclamp.mems = l.mems := by
  unfold Leaf.reclamp
  split <;> simp

@[simp] theorem Leaf.mems_discardImage : l.discardImage.mems = l.mems := by
  unfold Leaf.discardImage
  simp -implicitDefEqProofs

@[simp] theorem Leaf.mems_applyUpdate (u : PendUpdate) : (l.applyUpdate u).mems = l.mems := by
  unfold Leaf.applyUpdate
  dsimp only
  repeat' split
  all_goals simp

@[simp] theorem Leaf.mems_missUpdate : l.missUpdate.mems = l.mems := by simp [Leaf.missUpdate]

@[simp] theorem Leaf.mems_updateVerified : l.updateVerified.mems = l.mems := by
  unfold Leaf.updateVerified
  dsimp only
  repeat' split
  all_goals simp

@[simp] theorem Leaf.mems_updateStep7 (k : Nat) (halting : Bool) : (l.updateStep7 k halting).mems = l.mems := by
  unfold Leaf.updateStep7
  dsimp only
  repeat' split
  all_goals simp

/-! ## Sys2Proof/Machine/Power.lean -/

@[simp] theorem Leaf.mems_setPwr (p : PwrState) : (l.setPwr p).mems = l.mems := (rfl)

@[simp] theorem Leaf.mems_checkLife : l.checkLife.mems = l.mems := by simp [Leaf.checkLife]

@[simp] theorem Leaf.mems_lifeTime : l.lifeTime.mems = l.mems := by simp [Leaf.lifeTime, Leaf.lifeCounts]

@[simp] theorem Leaf.mems_setReasons (avg cap : Bool) : (l.setReasons avg cap).mems = l.mems := by simp [Leaf.setReasons, Leaf.reasonEdge]

@[simp] theorem Leaf.mems_refreshPwr : l.refreshPwr.mems = l.mems := by simp [Leaf.refreshPwr]

@[simp] theorem Leaf.mems_showClk : l.showClk.mems = l.mems := by simp [Leaf.showClk]

@[simp] theorem Leaf.mems_drawEwin : l.drawEwin.2.mems = l.mems := (rfl)

@[simp] theorem Leaf.mems_stepOp : l.stepOp.mems = l.mems := by
  unfold Leaf.stepOp
  dsimp only
  repeat' split
  all_goals simp

@[simp] theorem Leaf.mems_evalOp : l.evalOp.mems = l.mems := by simp [Leaf.evalOp, Leaf.ceilings]

@[simp] theorem Leaf.mems_idleEval : l.idleEval.mems = l.mems := by simp [Leaf.idleEval]

@[simp] theorem Leaf.mems_opEvaluation : l.opEvaluation.mems = l.mems := by simp [Leaf.opEvaluation]

@[simp] theorem Leaf.mems_firstEval : l.firstEval.mems = l.mems := by simp [Leaf.firstEval]

@[simp] theorem Leaf.mems_pwrStep8 : l.pwrStep8.mems = l.mems := by simp [Leaf.pwrStep8]

@[simp] theorem Leaf.mems_endTickEnergy : l.endTickEnergy.mems = l.mems := (rfl)

@[simp] theorem Leaf.mems_railSettled : l.railSettled.mems = l.mems := by simp [Leaf.railSettled]

@[simp] theorem Leaf.mems_vrail : l.vrail.mems = l.mems := by
  unfold Leaf.vrail
  split <;> simp

@[simp] theorem Leaf.mems_peakEvaluation : l.peakEvaluation.mems = l.mems := by simp [Leaf.peakEvaluation]

@[simp] theorem Leaf.mems_setCross (k : Nat) (on : Bool) : (l.setCross k on).mems = l.mems := by simp [Leaf.setCross]

@[simp] theorem Leaf.mems_voltageCheck (core sram : Nat) : (l.voltageCheck core sram).mems = l.mems := by simp [Leaf.voltageCheck]

@[simp] theorem Leaf.mems_regionSkew : l.regionSkew.mems = l.mems := by simp [Leaf.regionSkew]

@[simp] theorem Leaf.mems_tempSample (temps : List Nat) : (l.tempSample temps).mems = l.mems := by
  unfold Leaf.tempSample
  extract_lets t hi lo l0 l1 l2 old _ l3 far l4
  have h2 : l2.mems = l.mems := by simp [l2, l1, l0]
  have h4 : l4.mems = l.mems := by simp [l4, l3, h2]
  split
  · exact h4
  · split <;> simp [h4]

@[simp] theorem Leaf.mems_writeTrip (w : Nat) : (l.writeTrip w).mems = l.mems := by simp [Leaf.writeTrip, Leaf.tripClear]

@[simp] theorem Leaf.mems_coolantWrite (budget : Bool) (w : Nat) : (l.coolantWrite budget w).mems = l.mems := by simp [Leaf.coolantWrite]

@[simp] theorem Leaf.mems_coolStale : l.coolStale.mems = l.mems := by simp [Leaf.coolStale]

@[simp] theorem Leaf.mems_writePwrCfg (a w : Nat) : (l.writePwrCfg a w).mems = l.mems := by simp [Leaf.writePwrCfg]

@[simp] theorem Leaf.mems_sleepReq : l.sleepReq.mems = l.mems := by
  unfold Leaf.sleepReq
  dsimp only
  repeat' split
  all_goals simp [Leaf.sleepRefused]

@[simp] theorem Leaf.mems_wakeBy (src : Nat) : (l.wakeBy src).mems = l.mems := by simp [Leaf.wakeBy]

@[simp] theorem Leaf.mems_writeSleepCtrl (w : Nat) : (l.writeSleepCtrl w).mems = l.mems := by simp [Leaf.writeSleepCtrl]

@[simp] theorem Leaf.mems_wakeAlarm : l.wakeAlarm.mems = l.mems := by simp [Leaf.wakeAlarm]

@[simp] theorem Leaf.mems_wakeEvent : l.wakeEvent.mems = l.mems := by
  unfold Leaf.wakeEvent
  split <;> simp

@[simp] theorem Leaf.mems_canWake (ctrl : Nat) : (l.canWake ctrl).mems = l.mems := by simp [Leaf.canWake]

@[simp] theorem Leaf.mems_accessWake : l.accessWake.mems = l.mems := by simp [Leaf.accessWake]

@[simp] theorem Leaf.mems_wkupEdge (n : Nat) (falling : Bool) : (l.wkupEdge n falling).mems = l.mems := by simp [Leaf.wkupEdge]

/-! ## Sys2Proof/Machine/Det.lean -/

@[simp] theorem Leaf.mems_showEnd (ix : Nat) : (l.showEnd ix).mems = l.mems := by simp [Leaf.showEnd]

@[simp] theorem Leaf.mems_commitShadows : l.commitShadows.mems = l.mems := by simp [Leaf.commitShadows, Leaf.countShadow, Leaf.orShadow]

@[simp] theorem Leaf.mems_commitRng : l.commitRng.mems = l.mems := by
  unfold Leaf.commitRng
  refine Leaf.mems_foldl _ _ _ fun m x => ?_
  dsimp only
  repeat' split
  all_goals simp

@[simp] theorem Leaf.mems_closeStage (a : Closing × Leaf) (e : Nat × StageDesc) : (Leaf.closeStage a e).2.mems = a.2.mems := by
  unfold Leaf.closeStage
  dsimp only
  repeat' split
  all_goals simp

@[simp] theorem Leaf.mems_closeStages : l.closeStages.2.mems = l.mems := by simp [Leaf.closeStages]

@[simp] theorem Leaf.mems_sendDigest (tick : Nat) (e : DigEntry) : (l.sendDigest tick e).mems = l.mems := by simp [Leaf.sendDigest]

/-! ## Sys2Proof/Machine/Tick.lean -/

@[simp] theorem Leaf.mems_setTick (t : TickState) : (l.setTick t).mems = l.mems := (rfl)

@[simp] theorem Leaf.mems_tickOutPulse (width : Nat) : (l.tickOutPulse width).mems = l.mems := (rfl)

@[simp] theorem Leaf.mems_tickOutBoundary : l.tickOutBoundary.mems = l.mems := by simp [Leaf.tickOutBoundary]

@[simp] theorem Leaf.mems_tickOutSub : l.tickOutSub.mems = l.mems := by simp [Leaf.tickOutSub]

@[simp] theorem Leaf.mems_tickOutEnd : l.tickOutEnd.mems = l.mems := by
  unfold Leaf.tickOutEnd
  split <;> simp

@[simp] theorem Leaf.mems_tickCmdRefused : l.tickCmdRefused.mems = l.mems := by simp [Leaf.tickCmdRefused]

@[simp] theorem Leaf.mems_tickSchedule : l.tickSchedule.mems = l.mems := (rfl)

@[simp] theorem Leaf.mems_tickGo (barrier : Bool) : (l.tickGo barrier).mems = l.mems := by simp [Leaf.tickGo]

@[simp] theorem Leaf.mems_tickRelease : l.tickRelease.mems = l.mems := by simp [Leaf.tickRelease]

@[simp] theorem Leaf.mems_tickBarrier : l.tickBarrier.mems = l.mems := by simp [Leaf.tickBarrier]

@[simp] theorem Leaf.mems_writeTickCtrl (locked : Bool) (w : Nat) : (l.writeTickCtrl locked w).mems = l.mems := by
  simp [Leaf.writeTickCtrl, Leaf.startCmd, Leaf.tickHalt]

@[simp] theorem Leaf.mems_subTick : l.subTick.mems = l.mems := by simp [Leaf.subTick]

@[simp] theorem Leaf.mems_countCuts (cuts : List (Nat × Nat)) : (l.countCuts cuts).mems = l.mems := by
  unfold Leaf.countCuts
  split <;> simp [Leaf.overrunRun]

@[simp] theorem Leaf.mems_discardTokens : l.discardTokens.mems = l.mems := by
  unfold Leaf.discardTokens
  extract_lets gone d l1
  have h1 : l1.mems = l.mems := by simp [l1, d]
  refine (Leaf.mems_foldl _ _ _ fun m r => ?_).trans h1
  dsimp only
  split
  · rfl
  · split <;> simp

@[simp] theorem Leaf.mems_bndStep1 (k : Nat) : (l.bndStep1 k).2.mems = l.mems := by simp [Leaf.bndStep1]

@[simp] theorem Leaf.mems_setFusOut (grid : Bool) (o : CommitOut) : (l.setFusOut grid o).mems = l.mems := (rfl)

@[simp] theorem Leaf.mems_countPose (st : Option Nat) : (l.countPose st).mems = l.mems := by
  unfold Leaf.countPose
  split <;> simp

@[simp] theorem Leaf.mems_bndStep5 (t : Nat) (s : Step4) : (l.bndStep5 t s).mems = l.mems := by simp [Leaf.bndStep5, Leaf.outRecord]

@[simp] theorem Leaf.mems_bndStep9 : l.bndStep9.mems = l.mems := by
  unfold Leaf.bndStep9
  split <;> simp [Leaf.overFlag, Leaf.showVariant, Leaf.pwrStep9]

@[simp] theorem Leaf.mems_armStage (e : Nat × StageDesc) : (l.armStage e).mems = l.mems := by
  unfold Leaf.armStage
  dsimp only
  repeat' split
  all_goals simp

@[simp] theorem Leaf.mems_offerCommitted (first : Bool) (e : Nat × StageDesc) : (l.offerCommitted first e).mems = l.mems := by
  unfold Leaf.offerCommitted
  refine Leaf.mems_foldl _ _ _ fun m n => ?_
  refine Leaf.mems_foldl _ _ _ fun m r => ?_
  split
  · rfl
  · dsimp only
    split <;> simp

@[simp] theorem Leaf.mems_free32 : l.free32.2.mems = l.mems := (rfl)

@[simp] theorem Leaf.mems_reportPipe (first halting cut : Bool) (p : PipeDesc) : (l.reportPipe first halting cut p).2.mems = l.mems := (rfl)

@[simp] theorem Leaf.mems_reportPipes (first halting : Bool) (cuts : List (Nat × Nat)) :
    (l.reportPipes first halting cuts).2.mems = l.mems := by
  unfold Leaf.reportPipes
  refine mems_foldl_snd _ _ _ fun a x => ?_
  dsimp only
  repeat' split
  all_goals simp

@[simp] theorem Leaf.mems_takeSnapshot : l.takeSnapshot.mems = l.mems := by simp [Leaf.takeSnapshot, Leaf.snapshot]

@[simp] theorem Leaf.mems_ringResets : l.ringResets.mems = l.mems := by simp [Leaf.ringResets]

@[simp] theorem Leaf.mems_boundPhase (late : Bool) : (l.boundPhase late).mems = l.mems := by simp [Leaf.boundPhase]

@[simp] theorem Leaf.mems_clearTick : l.clearTick.mems = l.mems := (rfl)

@[simp] theorem Leaf.mems_haltEnd : l.haltEnd.mems = l.mems := by
  unfold Leaf.haltEnd
  dsimp only
  repeat' split
  all_goals simp

/-! ## Sys2Proof/Machine/FaultCmds.lean -/

@[simp] theorem Leaf.mems_clockFault : l.clockFault.mems = l.mems := by simp [Leaf.clockFault]

@[simp] theorem Leaf.mems_parityScan (block : Option Nat) : (l.parityScan block).mems = l.mems := by
  unfold Leaf.parityScan
  dsimp only
  repeat' split
  all_goals simp

@[simp] theorem Leaf.mems_dramChan (chan : Nat) : (l.dramChan chan).mems = l.mems := by simp [Leaf.dramChan]

@[simp] theorem Leaf.mems_heartbeat : l.heartbeat.mems = l.mems := (rfl)

@[simp] theorem Leaf.mems_lostHinge : l.lostHinge.mems = l.mems := by simp [Leaf.lostHinge]

@[simp] theorem Leaf.mems_inject (kind t : Nat) : (l.inject kind t).mems = l.mems := by
  unfold Leaf.inject
  split <;> simp

/-! ## Sys2Proof/Machine/HostCmds.lean -/

@[simp] theorem Leaf.mems_dbErr (q : Nat) : (l.dbErr q).mems = l.mems := by simp [Leaf.dbErr]

@[simp] theorem Leaf.mems_writeQCfg (q w : Nat) : (l.writeQCfg q w).mems = l.mems := by
  simp [Leaf.writeQCfg, Leaf.disablePair, Leaf.squashPair, Leaf.startPair]

@[simp] theorem Leaf.mems_writeQBase (q a w : Nat) : (l.writeQBase q a w).mems = l.mems := by simp [Leaf.writeQBase]

@[simp] theorem Leaf.mems_endCmd (c : HostCmd) (status digest : Nat) : (l.endCmd c status digest).mems = l.mems := (rfl)

@[simp] theorem Leaf.mems_markStarted (c : HostCmd) : (l.markStarted c).mems = l.mems := (rfl)

/-! ## Sys2Proof/Machine/Stamps.lean -/

@[simp] theorem Leaf.mems_releaseStamps : l.releaseStamps.mems = l.mems := by simp [Leaf.releaseStamps]

@[simp] theorem Leaf.mems_ppsEdge (active falling : Bool) (c8 widthNs : Nat) : (l.ppsEdge active falling c8 widthNs).mems = l.mems := by
  simp [Leaf.ppsEdge]

@[simp] theorem Leaf.mems_filtSyncEdge (active : Bool) (c8 : Nat) : (l.filtSyncEdge active c8).mems = l.mems := by simp [Leaf.filtSyncEdge]

/-! ## Sys2Proof/Machine/RegAccess.lean -/

@[simp] theorem Leaf.mems_writeLeafBlk (a w : Nat) : (l.writeLeafBlk a w).mems = l.mems := by simp [Leaf.writeLeafBlk]

@[simp] theorem Leaf.mems_retrigAll : l.retrigAll.mems = l.mems := by
  unfold Leaf.retrigAll
  refine Leaf.mems_foldl _ _ _ fun m n => ?_
  split
  · split <;> simp
  · rfl

@[simp] theorem Leaf.mems_writeTickBlk (a w : Nat) : (l.writeTickBlk a w).mems = l.mems := by
  unfold Leaf.writeTickBlk
  dsimp only
  repeat' split
  all_goals simp [Leaf.writeTickCfg, Leaf.writeRptSize, Leaf.writePipeCfg]

@[simp] theorem Leaf.mems_writeTimeBlk (a w : Nat) : (l.writeTimeBlk a w).mems = l.mems := by simp [Leaf.writeTimeBlk]

@[simp] theorem Leaf.mems_writeSwBlk (a w : Nat) : (l.writeSwBlk a w).mems = l.mems := by
  unfold Leaf.writeSwBlk
  split
  · simp
  · split <;> simp

@[simp] theorem Leaf.mems_writeIrqBlk (a w : Nat) : (l.writeIrqBlk a w).mems = l.mems := by
  unfold Leaf.writeIrqBlk
  split <;> simp

@[simp] theorem Leaf.mems_writePwrBlk (a w : Nat) : (l.writePwrBlk a w).mems = l.mems := by simp [Leaf.writePwrBlk]

@[simp] theorem Leaf.mems_writeMemBlk (a w : Nat) : (l.writeMemBlk a w).mems = l.mems := by
  simp [Leaf.writeMemBlk, Leaf.writeCacheReg, Leaf.writeRwCtrl, Leaf.rwRewrite, Leaf.rwWriteback]

@[simp] theorem Leaf.mems_writeTrigCfg (n a w : Nat) : (l.writeTrigCfg n a w).mems = l.mems := by simp [Leaf.writeTrigCfg]

@[simp] theorem Leaf.mems_writeSnsBlk (a w : Nat) : (l.writeSnsBlk a w).mems = l.mems := by simp [Leaf.writeSnsBlk]

@[simp] theorem Leaf.mems_writeSyncCtrl (w : Nat) : (l.writeSyncCtrl w).mems = l.mems := by simp [Leaf.writeSyncCtrl, Leaf.syncArm]

@[simp] theorem Leaf.mems_writeFiltBlk (a w : Nat) : (l.writeFiltBlk a w).mems = l.mems := by simp [Leaf.writeFiltBlk]

@[simp] theorem Leaf.mems_writeVisBlk (a w : Nat) : (l.writeVisBlk a w).mems = l.mems := by
  unfold Leaf.writeVisBlk
  split <;> simp [Leaf.writeVisCtrl, Leaf.visReset]

@[simp] theorem Leaf.mems_writeFusBlk (a w : Nat) : (l.writeFusBlk a w).mems = l.mems := by
  unfold Leaf.writeFusBlk
  split_ifs
  · simp
  · simp
  · simp
  · rfl
  · split <;> simp

@[simp] theorem Leaf.mems_writeSpecBlk (a w : Nat) : (l.writeSpecBlk a w).mems = l.mems := by
  simp [Leaf.writeSpecBlk, Leaf.writeSpecCtrl, Leaf.writeSpecCfg]

@[simp] theorem Leaf.mems_writeMapBlk (a w : Nat) : (l.writeMapBlk a w).mems = l.mems := by
  unfold Leaf.writeMapBlk
  split <;> simp [Leaf.writeMapObj, Leaf.writeLmkIdx]

@[simp] theorem Leaf.mems_writeSrchBlk (a w : Nat) : (l.writeSrchBlk a w).mems = l.mems := by
  unfold Leaf.writeSrchBlk
  split
  · simp
  · split
    · simp
    · split
      · split <;> simp
      · split <;> simp

@[simp] theorem Leaf.mems_writePaneBlk (a w : Nat) : (l.writePaneBlk a w).mems = l.mems := by simp [Leaf.writePaneBlk]

@[simp] theorem Leaf.mems_writeCntBlk (a w : Nat) : (l.writeCntBlk a w).mems = l.mems := by simp [Leaf.writeCntBlk, Leaf.snapCmd]

@[simp] theorem Leaf.mems_writeFltBlk (a w : Nat) : (l.writeFltBlk a w).mems = l.mems := by
  simp [Leaf.writeFltBlk, Leaf.writeFltCtrl, Leaf.faultClear, Leaf.writeInjKey, Leaf.writeInj]

@[simp] theorem Leaf.mems_writeReg (a w : Nat) : (l.writeReg a w).mems = l.mems := by
  unfold Leaf.writeReg
  split <;> simp

@[simp] theorem Leaf.mems_afterRead (a : Nat) : (l.afterRead a).mems = l.mems := by
  unfold Leaf.afterRead
  split <;> simp [Leaf.readPend]

/-! ## Sys2Proof/Machine/ExecFabric.lean -/

@[simp] theorem Leaf.mems_fireAndFeed (ix : Nat) (emit : List (Nat × Nat)) : (l.fireAndFeed ix emit).mems = l.mems := by
  simp [Leaf.fireAndFeed]

/-! ## Sys2Proof/Machine/ExecTime.lean -/

@[simp] theorem Leaf.mems_takeFrame (port c8 : Nat) (f : List Byte) (fcsOk : Bool) : (l.takeFrame port c8 f fcsOk).mems = l.mems := by
  simp [Leaf.takeFrame, Leaf.frameIn, Leaf.enqueue, Leaf.settleCredit, Leaf.frameWake]

@[simp] theorem Leaf.mems_camLock (n gear : Nat) : (l.camLock n gear).mems = l.mems := by simp [Leaf.camLock]

@[simp] theorem Leaf.mems_portUp (p : Nat) : (l.portUp p).mems = l.mems := by simp [Leaf.portUp]

end Sys2Proof.Machine
end

section
/-!
PROOFS. The canonical form of a leaf's memories (log entry 12): the stores that keep it, and every operation of a leaf that stores.
-/
namespace Sys2Proof.Machine

/-! ## The canonical form of a leaf's memories -/

/-- Both memories of a pair in canonical form. -/
def Canonical (m : List Host.Cell × List Host.Cell) : Prop := Memory.wf m.1 = true ∧ Memory.wf m.2 = true

theorem Canonical.of_eq {m k : List Host.Cell × List Host.Cell} (h : Canonical m) (e : k = m) : Canonical k := e ▸ h

theorem Leaf.memWf_iff {l : Leaf} : l.memWf ↔ Canonical l.mems := .rfl

@[simp] theorem canonical_ite (c : Prop) [Decidable c] (a b : List Host.Cell × List Host.Cell) :
    Canonical (if c then a else b) ↔ if c then Canonical a else Canonical b := by split <;> rfl

/-- A fold whose every step keeps the memories of the leaf that it carries canonical. -/
theorem canonical_foldl_of {σ α : Type} (p : σ → Leaf) (f : σ → α → σ) (xs : List α) (a : σ)
    (h : ∀ b x, Canonical (p b).mems → Canonical (p (f b x)).mems) (ha : Canonical (p a).mems) : Canonical (p (xs.foldl f a)).mems := by
  induction xs generalizing a with
  | nil => exact ha
  | cons x t ih => exact ih (f a x) (h a x ha)

@[simp] theorem Leaf.canonical_foldl {α : Type} (f : Leaf → α → Leaf) (xs : List α) (l : Leaf)
    (h : ∀ k x, Canonical k.mems → Canonical (f k x).mems) (hl : Canonical l.mems) : Canonical (xs.foldl f l).mems :=
  canonical_foldl_of (fun k => k) f xs l h hl

@[simp] theorem canonical_foldl_snd {α β : Type} (f : β × Leaf → α → β × Leaf) (xs : List α) (a : β × Leaf)
    (h : ∀ b x, Canonical b.2.mems → Canonical (f b x).2.mems) (ha : Canonical a.2.mems) : Canonical (xs.foldl f a).2.mems :=
  canonical_foldl_of Prod.snd f xs a h ha

variable {l : Leaf} (h : Canonical l.mems)
include h

/-! ## Stores -/

@[simp] theorem Leaf.canonical_dramWrite (a : Nat) (bs : List Byte) : Canonical (l.dramWrite a bs).mems :=
  ⟨dramWrite_wf l a bs h.1, h.2⟩

@[simp] theorem Leaf.canonical_flashWrite (a : Nat) (bs : List Byte) : Canonical (l.flashWrite a bs).mems :=
  ⟨h.1, flashWrite_wf l a bs h.2⟩

@[simp] theorem Leaf.canonical_flashObjPut (base : Nat) (stripe : Bool) (ofs : Nat) (bs : List Byte) :
    Canonical (l.flashObjPut base stripe ofs bs).mems := by
  induction bs generalizing l ofs with
  | nil => exact h
  | cons b t ih =>
    refine ih (l := { l with flash := sparseSet memDefault (flashAddr base ofs stripe) b l.flash }) ⟨h.1, ?_⟩ _
    exact sparseSet_wf _ _ _ _ h.2

@[simp] theorem Leaf.canonical_store (a : Nat) (bs : List Byte) : Canonical (l.store a bs).mems := by simp [Leaf.store, h]

@[simp] theorem Leaf.canonical_objWrite (i ofs : Nat) (bs : List Byte) : Canonical (l.objWrite i ofs bs).mems := by
  unfold Leaf.objWrite
  split
  · exact h
  · split
    · dsimp only
      split <;> simp [h]
    · simpa using h
    · exact h

@[simp] theorem Leaf.canonical_putObj (i : Nat) (bs : List Byte) : Canonical (l.putObj i bs).mems := by
  unfold Leaf.putObj
  split <;> simp [h]

@[simp] theorem Leaf.canonical_refill (i : Nat) (o : ObjDesc) (ofs n : Nat) : Canonical (l.refill i o ofs n).mems := by
  unfold Leaf.refill
  dsimp only
  split
  · split <;> simp [h]
  · simpa using h
  · exact h

@[simp] theorem Leaf.canonical_writeCopies (o : ObjDesc) (bs : List Byte) : Canonical (l.writeCopies o bs).mems := by
  simp [Leaf.writeCopies, h]

@[simp] theorem Leaf.canonical_writeSurf (s : SurfCfg) (c n : Nat) (i : Img) : Canonical (l.writeSurf s c n i).mems := by
  unfold Leaf.writeSurf
  exact Leaf.canonical_foldl _ _ _ (fun m y hm => by simp [hm]) h

@[simp] theorem Leaf.canonical_writeLife : Canonical l.writeLife.mems := by simp [Leaf.writeLife, h]

@[simp] theorem Leaf.canonical_hourlyLife : Canonical l.hourlyLife.mems := by simp [Leaf.hourlyLife, h]

@[simp] theorem Leaf.canonical_ringPut (g : RingRegs) (slot : Nat) (bs : List Byte) : Canonical (l.ringPut g slot bs).2.mems := by
  unfold Leaf.ringPut
  dsimp only
  split_ifs <;> simp [h]

@[simp] theorem Leaf.canonical_digRing (es : List (List Byte)) : Canonical (l.digRing es).mems := by
  unfold Leaf.digRing
  dsimp only
  split_ifs
  · exact h
  · simpa using h
  · rw [Leaf.mems_put]
    exact Leaf.canonical_foldl _ _ _ (fun m e hm => by simp [hm]) h

/-! ## Resets -/

@[simp] theorem Leaf.canonical_reset (fault : Option (Nat × Nat)) : Canonical (l.reset fault).mems := ⟨rfl, h.2⟩

@[simp] theorem Leaf.canonical_loseS3 : Canonical l.loseS3.mems := ⟨rfl, h.2⟩

/-! ## Objects, images, jobs -/

@[simp] theorem Leaf.canonical_repairDone (i : Nat) (r : ReadOutcome) : Canonical (l.repairDone i r).mems := by
  unfold Leaf.repairDone
  split
  · dsimp only
    split_ifs <;> simp [h]
  · exact h

@[simp] theorem Leaf.canonical_rwDone (outs : List WriteOutcome) : Canonical (l.rwDone outs).mems := by
  unfold Leaf.rwDone
  split
  · exact h
  · split
    · simpa using h
    · dsimp only
      split_ifs <;> simp [h]

omit h in
@[simp] theorem canonical_fillObj {a : List ReadOutcome × Leaf} (h : Canonical a.2.mems) (e : Nat × ObjDesc) :
    Canonical (Leaf.fillObj a e).2.mems := by
  unfold Leaf.fillObj
  dsimp only
  split_ifs <;> simp [h]

@[simp] theorem Leaf.canonical_glazeImage (im : Image) (hash varHash : Nat) (reads : List ReadOutcome) :
    Canonical (l.glazeImage im hash varHash reads).mems := by
  unfold Leaf.glazeImage
  extract_lets l1 _ l2 l3 _ l4 l5 l6 l7
  have h4 : Canonical l4.mems := by simpa [l4, l3, l2, l1] using h
  have h5 : Canonical l5.mems := by
    rw [Leaf.mems_glazePipes]
    exact canonical_foldl_snd _ _ _ (fun a e ha => canonical_fillObj ha e) h4
  simpa [l7, l6] using h5

@[simp] theorem Leaf.canonical_glazeChecksDone (reads : List ReadOutcome) : Canonical (l.glazeChecksDone reads).mems := by
  unfold Leaf.glazeChecksDone
  split
  · exact h
  · split
    · exact h
    · split
      · simpa using h
      · exact Leaf.canonical_glazeImage h _ _ _ _

@[simp] theorem Leaf.canonical_reglaze : Canonical l.reglaze.mems := by
  unfold Leaf.reglaze
  split <;> simp [h]

@[simp] theorem Leaf.canonical_wakeComplete : Canonical l.wakeComplete.mems := by
  unfold Leaf.wakeComplete
  dsimp only
  split_ifs <;> simp [h]

@[simp] theorem Leaf.canonical_sleepEntryDone : Canonical l.sleepEntryDone.mems := by
  unfold Leaf.sleepEntryDone
  split
  · exact h
  next e _ =>
    extract_lets l0 l1 _ l2 l3
    have h1 : l1.mems = l.mems := by
      unfold l1
      rw [Leaf.mems_foldl _ _ _ fun m s => Leaf.mems_srcDown m s, Leaf.mems_lifeTime]
    clear_value l1
    have h3 : Canonical l3.mems := by simp [l3, l2, h1, h]
    clear_value l3
    by_cases e3 : e.state = 3
    · rw [if_pos e3]
      exact Leaf.canonical_loseS3 (Leaf.canonical_writeLife h3)
    · rwa [if_neg e3]

/-! ## Sources and filters -/

@[simp] theorem Leaf.canonical_camLine (n : Nat) (crcOk : Bool) (bs : List Byte) : Canonical (l.camLine n crcOk bs).mems := by
  unfold Leaf.camLine
  split
  · exact h
  · dsimp only
    split_ifs <;> simp [h]

@[simp] theorem Leaf.canonical_camPacket (active : Bool) (n c8 : Nat) (p : CsiPacket) : Canonical (l.camPacket active n c8 p).mems := by
  unfold Leaf.camPacket
  split
  · exact h
  · dsimp only
    split
    · split <;> simp [h]
    · split <;> simp [h]
    · split_ifs <;> simp [h]
    · exact h

@[simp] theorem Leaf.canonical_closeCam (k lo hi n : Nat) : Canonical (Leaf.closeCam k lo hi l n).mems := by
  unfold Leaf.closeCam
  extract_lets x b badW inW f code l1 _ l2
  have h1 : Canonical l1.mems := by
    unfold l1
    clear_value f
    cases f <;> simp [h]
  simpa [l2] using h1

@[simp] theorem Leaf.canonical_commitSlot (obj tick code flags lost : Nat) (rs : List SlotRec) :
    Canonical (l.commitSlot obj tick code flags lost rs).mems := by
  unfold Leaf.commitSlot
  split <;> simp [h]

@[simp] theorem Leaf.canonical_commitChannels (tick lo hi : Nat) : Canonical (l.commitChannels tick lo hi).mems := by
  unfold Leaf.commitChannels
  refine Leaf.canonical_foldl _ _ _ (fun m c hm => ?_) h
  dsimp only
  split <;> simp [hm]

@[simp] theorem Leaf.canonical_closeSrc (k lo hi s : Nat) : Canonical (Leaf.closeSrc k lo hi l s).mems := by
  unfold Leaf.closeSrc
  extract_lets b badW all rs lost code obj l1 _ l2
  have h1 : Canonical l1.mems := by
    unfold l1
    split <;> simp [h]
  simpa [l2] using h1

@[simp] theorem Leaf.canonical_closeWindows (k lo hi : Nat) : Canonical (l.closeWindows k lo hi).mems := by
  unfold Leaf.closeWindows
  refine Leaf.canonical_commitChannels (Leaf.canonical_foldl _ _ _ (fun m s hm => Leaf.canonical_closeSrc hm _ _ _ s) ?_) _ _ _
  refine Leaf.canonical_foldl _ _ _ (fun m n hm => Leaf.canonical_closeCam hm _ _ _ n) ?_
  simpa using h

/-! ## Step 4: the commits of a closing tick -/

@[simp] theorem Leaf.canonical_commitWrites : Canonical l.commitWrites.mems := by
  unfold Leaf.commitWrites
  dsimp only
  rw [Leaf.mems_foldl _ _ _ fun m i => by simp]
  exact Leaf.canonical_foldl _ _ _ (fun m w hm => by simp [hm]) h

@[simp] theorem Leaf.canonical_fusClose (grid : Bool) (c : FusCfg) : Canonical (l.fusClose grid c).2.mems := by
  unfold Leaf.fusClose
  dsimp only
  repeat' split
  all_goals simp [h]

@[simp] theorem Leaf.canonical_fusStep4 : Canonical l.fusStep4.2.mems := by
  unfold Leaf.fusStep4
  split <;> simp [h]

@[simp] theorem Leaf.canonical_solvCommit (d : SolvDesc) (r : SolvRes) (tick : Nat) : Canonical (l.solvCommit d r tick).2.mems := by
  unfold Leaf.solvCommit
  dsimp only
  split_ifs <;> simp [h]

omit h in
@[simp] theorem Leaf.canonical_solvOne (k : Nat) {a : SolvStep4 × Leaf} (h : Canonical a.2.mems) (d : SolvDesc) :
    Canonical (Leaf.solvOne k a d).2.mems := by
  unfold Leaf.solvOne
  extract_lets l x _ _ r c _ _ l1 good
  split
  · exact h
  · split
    · exact h
    · exact h
    · have hc : Canonical c.2.mems := by
        refine Leaf.canonical_solvCommit ?_ _ _ _
        split <;> simp [l, h]
      clear_value c
      show Canonical l1.mems
      unfold l1
      split <;> exact hc

@[simp] theorem Leaf.canonical_solvStep4 (k : Nat) : Canonical (l.solvStep4 k).2.mems := by
  unfold Leaf.solvStep4
  rw [Leaf.mems_showGraph]
  exact canonical_foldl_snd _ _ _ (fun a d ha => Leaf.canonical_solvOne k ha d) h

@[simp] theorem Leaf.canonical_mapStep4 (k : Nat) (win : Option (List (Nat × List F64))) (graph : Option (List (List F64))) :
    Canonical (l.mapStep4 k win graph).2.mems := by
  unfold Leaf.mapStep4
  extract_lets m0 l1 l2 l3 l4 slots nodes edges changed _ m1 l5 l6 dig
  have h1 : Canonical l1.mems := by simpa [l1] using h
  have h2 : Canonical l2.mems := by unfold l2; split <;> simp [h1]
  have h3 : Canonical l3.mems := by unfold l3; split <;> simp [h2]
  have h4 : Canonical l4.mems := by unfold l4; split <;> simp [h3]
  have h5 : Canonical l5.mems := by simpa [l5] using h4
  have h6 : Canonical l6.mems := by
    unfold l6
    split
    · exact h5
    · split
      · refine Leaf.canonical_foldl _ _ _ (fun m e hm => by simp [hm]) ?_
        exact Leaf.canonical_foldl _ _ _ (fun m e hm => by simp [hm]) (by simp [h5])
      · exact h5
  simpa using h6

omit h in
@[simp] theorem Leaf.canonical_deliverOne {a : List SrcRecord × Leaf} (h : Canonical a.2.mems) (d : Deliv) :
    Canonical (Leaf.deliverOne a d).2.mems := by
  unfold Leaf.deliverOne
  simp [h]

@[simp] theorem Leaf.canonical_srchStep4 (k : Nat) : Canonical (l.srchStep4 k).2.mems := by
  unfold Leaf.srchStep4
  exact canonical_foldl_snd _ _ _ (fun a d ha => Leaf.canonical_deliverOne ha d) h

@[simp] theorem Leaf.canonical_enterDigests (k : Nat) (es : List DigEntry) : Canonical (l.enterDigests k es).mems := by
  unfold Leaf.enterDigests
  dsimp only
  split <;> simp [h]

@[simp] theorem Leaf.canonical_bndStep4 (k : Nat) (halting : Bool) : Canonical (l.bndStep4 k halting).2.mems := by
  unfold Leaf.bndStep4
  extract_lets per l1 c l2 f s m l3 q named map solvRecs units l4
  have h1 : Canonical l1.mems := by simp [l1, h]
  have h2 : Canonical l2.mems := by simp [l2, c, h1]
  have hs : Canonical s.2.mems := by simp [s, f, h2]
  have hm : Canonical m.2.mems := by simp [m, hs]
  have h3 : Canonical l3.mems := by unfold l3; split <;> simp [hm]
  have h4 : Canonical l4.mems := by simp [l4, q, h3]
  exact Leaf.canonical_enterDigests h4 _ _

/-! ## The boundary -/

@[simp] theorem Leaf.canonical_bndClose (n t : Nat) (first late : Bool) : Canonical (l.bndClose n t first late).2.2.2.mems := by
  unfold Leaf.bndClose
  extract_lets k a l1 halting l2 b
  have h1 : Canonical l1.mems := by unfold l1 a; split <;> simp [h]
  have h2 : Canonical l2.mems := by unfold l2; split <;> simp [h1]
  have hb : Canonical b.2.mems := by unfold b; split <;> simp [h2]
  simpa using hb

@[simp] theorem Leaf.canonical_report (n t : Nat) (first halting : Bool) (cuts : List (Nat × Nat)) :
    Canonical (l.report n t first halting cuts).mems := by
  unfold Leaf.report
  dsimp only
  split_ifs <;> simp [h]

@[simp] theorem Leaf.canonical_judgeProposal (tick : Nat) (superseded : Bool) (p : Proposal) :
    Canonical (Leaf.judgeProposal tick superseded l p).mems := by
  unfold Leaf.judgeProposal
  extract_lets en v cum d rec' t t1 m _ l1 r
  have h1 : l1.mems = l.mems := by unfold l1; split <;> simp [m]
  have hr : Canonical r.2.mems := by simp [r, h1, h]
  split
  · exact h
  · split <;> simp [hr]

@[simp] theorem Leaf.canonical_fusStep7 (tick : Nat) (ps : List Proposal) : Canonical (l.fusStep7 tick ps).mems := by
  unfold Leaf.fusStep7
  refine Leaf.canonical_foldl _ _ _ (fun m p hm => Leaf.canonical_judgeProposal hm _ _ p) ?_
  split <;> simp [h]

@[simp] theorem Leaf.canonical_decideStep (n b : Nat) : Canonical (l.decideStep n b).mems := by
  unfold Leaf.decideStep
  extract_lets a r l1 hold hist step old lost _ l2 l3 l4 l5
  have h4 : l4.mems = l.mems := by simp [l4, l3, l2, l1, a]
  have h5 : Canonical l5.mems := by unfold l5; split <;> simp [h4, h]
  clear_value l5
  split
  · exact h5
  · extract_lets l6
    have h6 : Canonical l6.mems := by unfold l6; split <;> simp [h5]
    split <;> simp [h6]

@[simp] theorem Leaf.canonical_bndArm (n t : Nat) (first : Bool) : Canonical (l.bndArm n t first).mems := by
  simp [Leaf.bndArm, h]

@[simp] theorem Leaf.canonical_bndOpen (n t : Nat) (first : Bool) (cuts : List (Nat × Nat)) (s : Step4) :
    Canonical (l.bndOpen n t first cuts s).mems := by
  unfold Leaf.bndOpen
  extract_lets l1 l2 l3 _ l4
  have h1 : Canonical l1.mems := by simp [l1, h]
  have h2 : Canonical l2.mems := by unfold l2; split <;> simp [h1]
  have h4 : Canonical l4.mems := by simp [l4, l3, h2]
  exact Leaf.canonical_report h4 _ _ _ _ _

@[simp] theorem Leaf.canonical_boundary (t : Nat) (late : Bool) : Canonical (l.boundary t late).mems := by
  unfold Leaf.boundary
  extract_lets n first l0 _ l1 c
  have h1 : Canonical l1.mems := by unfold l1 l0; split <;> simp [h]
  have hc : Canonical c.2.2.2.mems := by simp [c, h1]
  split <;> simp [hc]

@[simp] theorem Leaf.canonical_tickBoundary (late : Bool) : Canonical (l.tickBoundary late).mems := by
  unfold Leaf.tickBoundary
  split
  · exact h
  · dsimp only
    split <;> simp [h]

/-! ## Vision, search, maps, firmware -/

@[simp] theorem Leaf.canonical_visDone (e j : Nat) (c : JobCfg) (o : VOut) : Canonical (l.visDone e j c o).mems := by
  unfold Leaf.visDone
  extract_lets v k l1 _ l2 f l3
  have h1 : Canonical l1.mems := by simp [l1, h]
  have h2 : Canonical l2.mems := by
    unfold l2
    split
    · split
      · rw [Leaf.mems_setVis]
        exact Leaf.canonical_foldl _ _ _ (fun m x hm => by simp [hm]) h1
      · exact h1
    · exact h1
  simpa [l3] using h2

@[simp] theorem Leaf.canonical_visComplete (e j : Nat) (ue : Bool) : Canonical (l.visComplete e j ue).mems := by
  unfold Leaf.visComplete
  split
  · dsimp only
    split_ifs
    · exact h
    · simpa using h
    · exact Leaf.canonical_visDone h _ _ _ _
    · exact Leaf.canonical_visDone h _ _ _ _
    · exact Leaf.canonical_visDone h _ _ _ _
    all_goals
      split
      all_goals
        rename_i r
        have hr := (mems_of_snd r (Leaf.mems_readObj _ _ _ _ _ _)) ▸ h
        simp [hr]
  · exact h

@[simp] theorem Leaf.canonical_hostQueryEnd (c : HostCmd) (q : Query) (st : Nat) (b : List Byte) :
    Canonical (l.hostQueryEnd c q st b).mems := by
  unfold Leaf.hostQueryEnd
  dsimp only
  split <;> simp [h]

@[simp] theorem Leaf.canonical_queryComplete (ctx : Nat) : Canonical (l.queryComplete ctx).mems := by
  unfold Leaf.queryComplete
  split
  · exact h
  · split
    · split
      · simp [h]
      · dsimp only
        split <;> simp [h]
    · exact h

@[simp] theorem Leaf.canonical_queryDeadline (ctx : Nat) : Canonical (l.queryDeadline ctx).mems := by
  unfold Leaf.queryDeadline
  split
  · exact h
  · split
    · split <;> simp [h]
    · exact h

@[simp] theorem Leaf.canonical_sideAdd (x : Nat) (s : IdxSlot) (e : SideEntry) (next : Nat) : Canonical (l.sideAdd x s e next).mems := by
  simp [Leaf.sideAdd, h]

@[simp] theorem Leaf.canonical_sideApply (op x src id : Nat) : Canonical (l.sideApply op x src id).2.mems := by
  unfold Leaf.sideApply
  split
  · exact h
  · dsimp only
    split_ifs <;> simp [h]

@[simp] theorem Leaf.canonical_sideDone : Canonical l.sideDone.mems := by
  unfold Leaf.sideDone
  split <;> simp [h]

@[simp] theorem Leaf.canonical_writeMerged (s : IdxSlot) (m : MergeRun) : Canonical (l.writeMerged s m).2.mems := by
  unfold Leaf.writeMerged
  extract_lets _ t new item nodeB descB l1 l2
  have h1 : Canonical l1.mems := by
    refine Leaf.canonical_foldl _ _ _ (fun a ch ha => ?_) h
    refine Leaf.canonical_foldl _ _ _ (fun b k hb => by simp [hb]) ?_
    exact Leaf.canonical_foldl _ _ _ (fun b g hb => by simp [hb]) ha
  simp [l2, h1]

@[simp] theorem Leaf.canonical_mergeDone (readable : Bool) : Canonical (l.mergeDone readable).mems := by
  unfold Leaf.mergeDone
  split
  · exact h
  · split
    · exact h
    · dsimp only
      split
      · simpa using h
      · split <;> simp [h]

@[simp] theorem Leaf.canonical_fwDone (outs : List WriteOutcome) : Canonical (l.fwDone outs).mems := by
  unfold Leaf.fwDone
  split
  · exact h
  · dsimp only
    split_ifs <;> simp [h]

/-! ## Records placed in completion queues -/

@[simp] theorem canonical_writeRecord (g : Hinge) (r : OutRec) (held : Bool) : Canonical (writeRecord g l r held).2.mems := by
  unfold writeRecord
  dsimp only
  split_ifs <;> simp [h]

omit h in
@[simp] theorem canonical_placeRecord {a : Hinge × Leaf} (h : Canonical a.2.mems) (r : OutRec) : Canonical (placeRecord a r).2.mems := by
  unfold placeRecord
  split <;> simp [h]

@[simp] theorem canonical_placeAll (g : Hinge) : Canonical (placeAll g l).2.mems :=
  canonical_foldl_of Prod.snd placeRecord _ _ (fun _ r ha => canonical_placeRecord ha r) h

@[simp] theorem canonical_drainHold (g : Hinge) : Canonical (drainHold g l).2.mems := by
  unfold drainHold
  split <;> simp [h]

end Sys2Proof.Machine
end

section
/-!
PROOFS. The canonical form of the memories of both leaves: every command keeps it, and so does every step.
-/
namespace Sys2Proof.Machine

variable {s : State} {i : LeafId} {f : Leaf → Leaf} {F : State → State}

/-! ## The two leaves of a state -/

theorem State.memWf.leaf (h : s.memWf) (i : LeafId) : Canonical (s.leaf i).mems := by
  cases i
  · exact Leaf.memWf_iff.mp h.1
  · exact Leaf.memWf_iff.mp h.2

theorem State.memWf.setLeaf (h : s.memWf) {l : Leaf} (hl : Canonical l.mems) : (s.setLeaf i l).memWf := by
  cases i
  · exact ⟨hl, h.2⟩
  · exact ⟨h.1, hl⟩

theorem State.memWf.onLeaf (h : s.memWf) (hf : ∀ m : Leaf, Canonical m.mems → Canonical (f m).mems) : (s.onLeaf i f).memWf :=
  h.setLeaf (hf _ (h.leaf i))

theorem State.memWf.onLeafSame (h : s.memWf) (hf : ∀ m : Leaf, (f m).mems = m.mems) : (s.onLeaf i f).memWf :=
  h.onLeaf fun m hm => (hf m).symm ▸ hm

/-- The hinge and the parts that the leaves share hold no memory of a leaf. -/
theorem State.memWf.withHinge (h : s.memWf) (g : Hinge) : ({ s with hinge := g } : State).memWf := h

theorem State.memWf.setHinge (h : s.memWf) (g : Hinge) : (s.setHinge g).memWf := h

theorem State.memWf.onHinge (h : s.memWf) (g : Hinge → Hinge) : (s.onHinge g).memWf := h

theorem State.memWf.complete (h : s.memWf) (data : List Byte) (ep abort : Bool) : (s.complete data ep abort).memWf := h

theorem State.memWf.ite {c : Prop} [Decidable c] {t : State} (hs : s.memWf) (ht : t.memWf) : (if c then s else t).memWf := by
  split <;> assumption

theorem State.memWf.event (h : s.memWf) (c : Nat) (ok : Leaf → Bool) (hf : ∀ m : Leaf, Canonical m.mems → Canonical (f m).mems) :
    (s.event i c ok f).memWf :=
  h.onLeaf fun m hm => by
    have h1 : Canonical (m.adv c).mems := by simpa using hm
    dsimp only
    split
    · exact hf _ h1
    · exact h1

theorem State.memWf.eventNow (h : s.memWf) (ok : Leaf → Bool) (hf : ∀ m : Leaf, Canonical m.mems → Canonical (f m).mems) :
    (s.eventNow i ok f).memWf :=
  h.onLeaf fun m hm => by
    split
    · exact hf _ hm
    · exact hm

theorem State.memWf.indexed (h : s.memWf) (n x : Nat) (hf : (F s).memWf) : (s.indexed n x F).memWf := .ite hf h

theorem State.memWf.queueCmd (h : s.memWf) (q : Nat) (hf : (F s).memWf) : (s.queueCmd i q F).memWf := .ite hf h

theorem State.memWf.sourceNamed (h : s.memWf) (src : Nat) (hf : (F s).memWf) : (sourceNamed src F s).memWf := .ite hf h

section
variable (h : s.memWf)
include h

/-! ## Resets -/

theorem State.memWf_powerOn : s.powerOn.memWf :=
  ⟨⟨rfl, h.1.2⟩, ⟨rfl, h.2.2⟩⟩

theorem State.memWf_hingeCause (c : Nat) : (s.hingeCause c).memWf :=
  h.ite ⟨Leaf.canonical_reset (h.leaf .A) none, Leaf.canonical_reset (h.leaf .B) none⟩

theorem State.memWf_hingeRelease : s.hingeRelease.memWf :=
  .ite ⟨(h.leaf .A).of_eq (Leaf.mems_release _), (h.leaf .B).of_eq (Leaf.mems_release _)⟩ h

theorem State.memWf_agreeFault (x : AgreeInfo) : (s.agreeFault x).memWf :=
  ⟨(h.leaf .A).of_eq (Leaf.mems_agreeFault _ _ x), (h.leaf .B).of_eq (Leaf.mems_agreeFault _ _ x)⟩

theorem State.memWf_partnerDown (i : LeafId) : (s.partnerDown i).memWf := .ite (State.memWf_agreeFault (h.setHinge _) _) h

theorem State.memWf_leafReset (i : LeafId) (c : Nat) (fault : Option (Nat × Nat)) : (s.leafReset i c fault).memWf := by
  refine h.ite (State.memWf_partnerDown ((h.withHinge _).setLeaf ?_) i)
  rw [Leaf.mems_release]
  exact Leaf.canonical_reset (h.leaf i) fault

theorem State.memWf_resetLeaf (i : LeafId) (c : Nat) (fault : Option (Nat × Nat)) : (s.resetLeaf i c fault).memWf := by
  have h1 := State.memWf_leafReset h i c fault
  exact .ite (h1.onLeafSame Leaf.mems_releaseStamps) h1

/-! ## Register writes -/

theorem State.memWf_noAnswer (i : LeafId) : (s.noAnswer i).memWf := .ite ((h.onHinge _).onLeafSame Leaf.mems_accessWake) (h.onHinge _)

theorem State.memWf_doorbellBad (i : LeafId) (q : Nat) (v : Via) : (s.doorbellBad i q v).memWf :=
  (h.onLeafSame fun m => Leaf.mems_dbErr m q).onHinge _

theorem State.memWf_sqDoorbell (i : LeafId) (q w : Nat) (v : Via) : (s.sqDoorbell i q w v).memWf :=
  .ite (State.memWf_doorbellBad h i q v) (h.onLeafSame fun m => Leaf.mems_put m _ _)

theorem State.memWf_cqDoorbell (i : LeafId) (q w : Nat) (v : Via) : (s.cqDoorbell i q w v).memWf :=
  .ite (State.memWf_doorbellBad h i q v) (h.onLeafSame fun m => Leaf.mems_put m _ _)

theorem State.memWf_leafWrite (i : LeafId) (a w : Nat) : (s.leafWrite i a w).memWf := by
  refine .ite (State.memWf_noAnswer h i) ?_
  split
  · exact State.memWf_sqDoorbell h ..
  · exact State.memWf_cqDoorbell h ..
  · exact .ite (h.onLeafSame fun m => Leaf.mems_writeTickCtrl m _ _) (h.onLeafSame fun m => Leaf.mems_writeReg m _ _)

theorem State.memWf_writeMode (w : Nat) : (s.writeMode w).memWf :=
  .ite (h.onHinge _) (((h.setHinge _).onLeafSame Leaf.mems_tickRelease).onLeafSame Leaf.mems_tickRelease)

theorem State.memWf_writeLeafCtrl (w : Nat) : (s.writeLeafCtrl w).memWf := by
  have h1 : (if bitOf w 0 then s.resetLeaf .A 1 none else s).memWf := .ite (State.memWf_resetLeaf h _ _ _) h
  exact .ite (State.memWf_resetLeaf h1 _ _ _) h1

theorem State.memWf_barFire : s.barFire.memWf := .ite h (.ite (h.setHinge _) (h.setHinge _))

theorem State.memWf_writeBarCtrl (w : Nat) : (s.writeBarCtrl w).memWf := by
  unfold State.writeBarCtrl
  extract_lets s1 s2
  have h2 : s2.memWf := .ite ((h.onHinge _).onHinge _) (h.onHinge _)
  exact .ite (State.memWf_barFire h2) h2

theorem State.memWf_hostBootGo (i : LeafId) : (s.hostBootGo i).memWf := .ite (h.onLeafSame fun m => Leaf.mems_setBoot m _) h

theorem State.memWf_writeHboot (w : Nat) : (s.writeHboot w).memWf := by
  have h1 : (if bitOf w 0 then s.hostBootGo .A else s).memWf := .ite (State.memWf_hostBootGo h .A) h
  exact .ite (State.memWf_hostBootGo h1 .B) h1

theorem State.memWf_writeAgreeStat (w : Nat) : (s.writeAgreeStat w).memWf := by
  refine .ite (.onLeafSame (.onLeafSame (h.onHinge _) ?_) ?_) h
  · exact fun _ => rfl
  · exact fun _ => rfl

theorem State.memWf_groupTimeout (g : Nat) : (s.groupTimeout g).memWf := .ite (h.onHinge _) h

theorem State.memWf_hingeWrite (addr w : Nat) : (s.hingeWrite addr w).memWf := by
  unfold State.hingeWrite
  split_ifs
  · exact h
  · exact State.memWf_writeMode h w
  · exact State.memWf_writeLeafCtrl h w
  · exact State.memWf_writeBarCtrl h w
  · exact State.memWf_writeHboot h w
  · exact h.onHinge _
  · exact h.onHinge _
  · exact State.memWf_writeAgreeStat h w
  · split
    · exact State.memWf_groupTimeout (h.onHinge _) _
    · exact h.onHinge _

theorem State.memWf_pf0Write (addr w : Nat) : (s.pf0Write addr w).memWf := by
  refine h.ite ?_
  split
  · exact State.memWf_leafWrite h ..
  · exact State.memWf_hingeWrite h ..

theorem State.memWf_regWrite (i : LeafId) (a w : Nat) : (s.regWrite i a w).memWf := State.memWf_pf0Write h ..

theorem State.memWf_fieldWrite (i : LeafId) (f : FieldRef) (v : Nat) (w : Word) : (s.fieldWrite i f v w).memWf :=
  State.memWf_regWrite h ..

theorem State.memWf_hingeField (f : FieldRef) (v : Nat) (w : Word) : (s.hingeField f v w).memWf := State.memWf_pf0Write h ..

theorem State.memWf_pf0Read (addr : Nat) : (s.pf0Read addr).memWf := by
  refine h.ite ?_
  split
  · exact .ite ((State.memWf_noAnswer h _).complete ..) ((h.onLeafSame fun m => Leaf.mems_afterRead m _).complete ..)
  · exact h.ite (h.complete ..)

/-! ## The other leaf: stamps, digests, barriers, boundaries -/

theorem State.memWf_stampPair (i : LeafId) (m p : StampMsg) : (s.stampPair i m p).memWf := by
  unfold State.stampPair
  extract_lets vt s1 s2
  have h2 : s2.memWf := .ite (State.memWf_agreeFault (h.onHinge _) _) (h.onHinge _)
  exact (h2.onLeafSame fun k => Leaf.mems_stampKnown k _ _ _).onLeafSame fun k => Leaf.mems_stampKnown k _ _ _

theorem State.memWf_stampToHinge (i : LeafId) : (s.stampToHinge i).memWf := by
  unfold State.stampToHinge
  split
  · exact h
  · extract_lets s1
    have h1 : s1.memWf := .onLeafSame h fun k => rfl
    refine .ite (h1.onLeafSame fun k => Leaf.mems_stampKnown k _ _ _) ?_
    split
    · exact h1.onHinge _
    · exact State.memWf_stampPair h1 ..

theorem State.memWf_stampUnpaired (i : LeafId) (src seq : Nat) : (s.stampUnpaired i src seq).memWf := by
  unfold State.stampUnpaired
  split
  · exact h
  · exact (State.memWf_agreeFault (h.onHinge _) _).onLeafSame fun k => Leaf.mems_stampKnown k _ _ _

theorem State.memWf_digestArrives (i : LeafId) (m : DigestMsg) : (s.digestArrives i m).memWf := by
  refine h.ite ?_
  split
  · exact h.setHinge _
  · dsimp only
    split
    · exact .ite (State.memWf_agreeFault (h.setHinge _) _) (h.setHinge _)
    · exact .ite (State.memWf_agreeFault (h.setHinge _) _) (h.setHinge _)

theorem State.memWf_digestToHinge (i : LeafId) : (s.digestToHinge i).memWf := by
  unfold State.digestToHinge
  split
  · exact h
  · refine State.memWf_digestArrives (.onLeafSame h ?_) ..
    exact fun _ => rfl

theorem State.memWf_digestMissing (i : LeafId) (tick : Nat) (id : Option Nat) : (s.digestMissing i tick id).memWf := by
  unfold State.digestMissing
  dsimp only
  split
  · exact h
  · exact State.memWf_agreeFault (h.setHinge _) _

theorem State.memWf_barrierInEdge (ca cb : Nat) :
    (let s1 := (s.onLeaf .A fun x => x.adv ca).onLeaf .B fun x => x.adv cb
     if s1.hinge.held then s1 else s1.barrierIn).memWf := by
  have h1 := (h.onLeafSame (i := .A) fun m => Leaf.mems_adv m ca).onLeafSame (i := .B) fun m => Leaf.mems_adv m cb
  exact h1.ite (((h1.onHinge _).onLeafSame Leaf.mems_tickBarrier).onLeafSame Leaf.mems_tickBarrier)

theorem State.memWf_barPulse : s.barPulse.memWf := by
  unfold State.barPulse
  dsimp only
  split
  · exact h
  · exact h.ite (h.setHinge _)

theorem State.memWf_barPulseEnd : s.barPulseEnd.memWf := by
  unfold State.barPulseEnd
  dsimp only
  split
  · exact h
  · exact h.ite (h.setHinge _)

theorem State.memWf_agreeStart (n : Nat) : (s.agreeStart n).memWf := by
  refine .ite (.onLeafSame (.onLeafSame (h.setHinge _) ?_) ?_) h
  · exact fun _ => rfl
  · exact fun _ => rfl

theorem State.memWf_tickBoundary (i : LeafId) (late : Bool) : (s.tickBoundary i late).memWf := by
  have h1 : (s.onLeaf i (Leaf.tickBoundary late)).memWf := h.onLeaf fun m hm => Leaf.canonical_tickBoundary hm late
  exact .ite (State.memWf_agreeStart h1 _) h1

theorem State.memWf_boundaryAt (i : LeafId) (c : Nat) (late : Bool) : (s.boundaryAt i c late).memWf := by
  have h1 : (s.onLeaf i fun x => x.adv c).memWf := h.onLeafSame fun m => Leaf.mems_adv m c
  exact .ite (State.memWf_tickBoundary h1 i late) h1

/-! ## Queue pairs and the host's accesses -/

theorem State.memWf_endCmd (i : LeafId) (c : HostCmd) (st d : Nat) : (s.onLeaf i (Leaf.endCmd c st d)).memWf :=
  h.onLeafSame fun m => Leaf.mems_endCmd m c st d

theorem State.memWf_commandFetch (i : LeafId) (q : Nat) (entry : List Byte) : (s.commandFetch i q entry).memWf := by
  refine h.ite (h.setLeaf ?_)
  split <;> simp [h.leaf i]

theorem State.memWf_cmdNop (i : LeafId) (q tag : Nat) : (s.cmdNop i q tag).memWf := by
  unfold State.cmdNop
  split
  · exact h
  · exact State.memWf_endCmd h ..

theorem State.memWf_cmdAccess (i : LeafId) (c : HostCmd) (addr : Nat) (write : Bool) : (s.cmdAccess i c addr write).memWf :=
  (State.memWf_endCmd h i c _ _).onHinge _

theorem State.memWf_cmdSearch (i : LeafId) (q tag : Nat) : (s.cmdSearch i q tag).memWf := by
  unfold State.cmdSearch
  extract_lets l
  split
  · exact h
  · split
    · exact State.memWf_cmdAccess h ..
    · refine .ite (State.memWf_endCmd h ..) ?_
      split
      · exact State.memWf_cmdAccess h ..
      · exact h.setLeaf (by simp [l, h.leaf i])

theorem State.memWf_cmdCopy (i : LeafId) (op q tag : Nat) : (s.cmdCopy i op q tag).memWf := by
  unfold State.cmdCopy
  split
  · exact h
  · split
    · exact State.memWf_cmdAccess h ..
    · exact h.onLeafSame fun m => by split <;> simp

theorem State.memWf_cmdAbort (i : LeafId) (q tag : Nat) : (s.cmdAbort i q tag).memWf := by
  unfold State.cmdAbort
  extract_lets l
  split
  · exact h
  · refine .ite (State.memWf_endCmd h ..) ?_
    split
    · exact State.memWf_endCmd h ..
    · refine h.setLeaf ?_
      split <;> simp [l, h.leaf i]

theorem State.memWf_copyDone (i : LeafId) (q tag : Nat) (data : List Byte) (hostErr poison : Bool) :
    (s.copyDone i q tag data hostErr poison).memWf := by
  unfold State.copyDone
  extract_lets l
  split
  · exact h
  · extract_lets fn bs bs' bad l1 s1
    have h1 : Canonical l1.mems := by unfold l1; split <;> simp [l, h.leaf i]
    refine h.ite (.ite (.ite (State.memWf_endCmd h ..) (h.setLeaf ?_)) ((h.setLeaf ?_).onHinge _))
    · simp [l, h.leaf i]
    · simpa using h1

theorem State.memWf_holdDrain (i : LeafId) : (s.holdDrain i).memWf := (h.withHinge _).setLeaf (canonical_drainHold (h.leaf i) _)

theorem State.memWf_apRefused (addr cause : Nat) (write : Bool) : (s.apRefused addr cause write).memWf :=
  .ite (h.onHinge _) ((h.onHinge _).complete ..)

theorem State.memWf_aperture (o : Nat) (acc : HostAccess) (out : WordOutcome) : (s.aperture o acc out).memWf := by
  unfold State.aperture
  extract_lets t l l1
  refine h.ite ?_
  split
  · refine .ite (State.memWf_apRefused h ..) (.ite ((State.memWf_noAnswer h _).complete ..) ((h.setLeaf ?_).complete ..))
    simp [l1, l, h.leaf t.1]
  · refine .ite (State.memWf_apRefused h ..) (.ite (State.memWf_noAnswer h _) (.ite (State.memWf_apRefused h ..) (h.setLeaf ?_)))
    exact Leaf.canonical_store (h.leaf t.1) ..

theorem State.memWf_pf1Access (o : Nat) (acc : HostAccess) : (s.pf1Access o acc).memWf := by
  unfold State.pf1Access
  extract_lets w x i g v
  refine h.ite ?_
  split
  · exact h.ite (.ite ((h.onHinge _).complete ..) (.ite ((State.memWf_noAnswer h _).complete ..) (h.complete ..)))
  · exact h.ite (.ite (h.onHinge _) (.ite (h.onHinge _) (.ite (State.memWf_noAnswer h _)
      (.ite (State.memWf_sqDoorbell h ..) (.ite (State.memWf_cqDoorbell h ..) h)))))

/-! ## Boot -/

theorem State.memWf_bootPhase5 (i : LeafId) : (s.bootPhase5 i).memWf := by
  refine .ite (h.onHinge _) ?_
  have h1 (b : BootState) : (s.setLeaf i ((s.leaf i).setBoot b)).memWf := h.setLeaf (by simp [h.leaf i])
  dsimp only
  split
  · exact (h1 _).onHinge _
  · exact .ite ((h1 _).onHinge _) ((h1 _).onHinge _)

theorem State.memWf_bootPhase6 (i : LeafId) (us : Nat) : (s.bootPhase6 i us).memWf := by
  unfold State.bootPhase6
  dsimp only
  split
  · exact h
  · exact (h.withHinge _).setLeaf (by simp [h.leaf i])

theorem State.memWf_bootNext (i : LeafId) (p us : Nat) : (s.bootNext i p us).memWf := by
  unfold State.bootNext
  dsimp only
  split
  · refine .onHinge (.setLeaf h ?_) _
    exact h.leaf i
  · exact h.onHinge _
  · refine .onHinge (.setLeaf h ?_) _
    exact h.leaf i
  · exact h.onHinge _
  · exact State.memWf_bootPhase5 h i
  · exact State.memWf_bootPhase6 h i us
  · exact h

theorem State.memWf_bootPhaseDone (i : LeafId) (c us : Nat) (out : BootOutcome) : (s.bootPhaseDone i c us out).memWf := by
  refine h.ite ?_
  have h1 : (s.onLeaf i fun l => l.adv c).memWf := h.onLeafSame fun m => Leaf.mems_adv m c
  split
  · exact h1.onHinge _
  · exact State.memWf_bootNext h1 ..

theorem State.memWf_hostBootDone (i : LeafId) (hostErr : Bool) (image : List Byte) : (s.hostBootDone i hostErr image).memWf := by
  refine .ite ?_ h
  have h1 (b : BootState) : (s.setLeaf i ((s.leaf i).setBoot b)).memWf := h.setLeaf (by simp [h.leaf i])
  refine .ite ((h1 _).onHinge _) (.ite ((h1 _).onHinge _) (.ite ((h1 _).onHinge _) (.onHinge (h.setLeaf ?_) _)))
  simp [h.leaf i]

/-! ## Settling -/

theorem State.memWf_settleLeaf (i : LeafId) : (settleLeaf i s).memWf := by
  unfold settleLeaf
  extract_lets hl l0 l
  have hp : Canonical hl.2.mems := canonical_placeAll (h.leaf i) _
  have h0 : Canonical l0.mems := by unfold l0; split <;> simp [hp]
  exact (h.withHinge _).setLeaf (by simp [l, h0])

theorem State.memWf_settle : s.settle.memWf := State.memWf_settleLeaf (State.memWf_settleLeaf h .A) .B

end

/-! ## Every command -/

theorem State.memWf.command {c : Instr} {s s1 : State} (h : s1.memWf) (e : exec c s = .next s1.settle) :
    ∃ t, exec c s = .next t ∧ t.memWf :=
  ⟨_, e, State.memWf_settle h⟩

theorem exec_memWf (c : Instr) {s : State} (h : s.memWf) : ∃ t, exec c s = .next t ∧ t.memWf := by
  cases c
  case bridgeSlewEnd | vtAutoSwitch | syncReceived | followUpReceived | pdelayMessageReceived | pdelayInitiate | ppsEdge |
    frameReceived | frameTransmit | fdbAgeOut | subTickBoundary | uartMessage | uartByteSent | filtSyncEdge | filtSyncTickReset |
    egoPropagation | drTimerExpiry | specDecision | queryDeadline | opEvaluation | vrail | peakEvaluation | tempSample | coolStale |
    regionSkew | sleepEntryDone | wakeAlarm | wakeEventTimer | canBusWake | wkupEdge | wakeComplete | snapshotDone | clockFault |
    cfgParityScan | dramChan | hingeHeartbeat | hingeLost | lifetimeRecordWrite | voltageCheck =>
    exact (State.memWf.event h _ _ fun m hm => by simp [hm]).command rfl
  case glazeChecksDone | updateVerified | fuseOperationDone | stageFire | tokenArrival | creditReturn | granuleFetchDone |
    flashReadDone | dramScrubPass | dramRepairDone | memRwDone | flashRefresh | lidarDatagram | visionJobStart | visionJobComplete |
    visionResetDone | fusionGridUpdate | blindStart | loopVerificationDone | lmkReadDone | queryAdmit | walkReadDone | queryComplete |
    sideCmdDone | mergeDone | srchFwDone | solverJobStart | solverJobComplete | assignStart | assignComplete | solverResetDone |
    railSettled | fwuDone | dramReadDone =>
    exact (State.memWf.eventNow h _ fun m hm => by simp [hm]).command rfl
  case start | halt | load | update | cancel | prog1 | revoke0 | revoke1 | rewrite | writeback | filtSyncArm | filtSyncCancel |
    egoReset | fusTblCommit | lmkGo | mergeGo | mergeAbort | srchFwGo | graphReq | solverReset | clutchRead | clutchWrite |
    tripClear | sleepReq | wake | snap | fwuGo | faultClear =>
    exact (State.memWf_fieldWrite h _ _ _ _).command rfl
  case vtSelWrite | cap | keyUnlock | uartTx | fusTrkNextWrite | irqEoi | fltInjKeyWrite | fdbRead | fdbWriteStatic | fdbDelete |
    fdbFlushLearned | sideInsert | sideDelete | injectCreditSum | injectSramError | injectDigestBit | injectLinkCrc |
    injectCfgParity | coolantWrite =>
    exact (State.memWf_regWrite h _ _ _).command rfl
  case rearm | agreeFaultClear | barFire | barrierCancel | violLogClear | goA | goB | rstA | rstB =>
    exact (State.memWf_hingeField h _ _ _).command rfl
  case registerWrite | hingeModeWrite => exact (State.memWf_pf0Write h _ _).command rfl
  case syncTimeout | triggerPulse | qbvGateEvent | qbvConfigTakeEffect | cameraPacket | cameraFrameDue | exposureTrigger |
    imuDataReady | canFrameReceived | canBusRecovery | irqCoalesceTimeout =>
    refine State.memWf.command (h.indexed _ _ ?_) rfl
    exact State.memWf.event h _ _ fun m hm => by simp [hm]
  case i2cDone | spiTransactionDone | projectionJob | attachDone =>
    exact (h.indexed _ _ (State.memWf.eventNow h _ fun m hm => by simp [hm])).command rfl
  case domRate | domStep | domSet | fusDemoteClear | irqPendWrite | irqMaskWrite | irqTgtWrite | triggerReprogram | sqDoorbell |
    cqDoorbell =>
    exact (h.indexed _ _ (State.memWf_regWrite h _ _ _)).command rfl
  case pathSuspectClear | triggerArm | triggerDisarm | qbvChange | i2cGo | filtChannelEnable | swap | attach | detach |
    queueEnable | queueDisable =>
    exact (h.indexed _ _ (State.memWf_fieldWrite h _ _ _ _)).command rfl
  case visionEngineReset => exact (h.ite (h.indexed _ _ (State.memWf_fieldWrite h _ _ _ _))).command rfl
  case sourceEnable | sourceDisable => exact (h.sourceNamed _ (State.memWf_fieldWrite h _ _ _ _)).command rfl
  case sourceLinkLost | sourceItemTimeout =>
    exact (h.sourceNamed _ (State.memWf.event h _ _ fun m hm => by simp [hm])).command rfl
  case perstNAssert | perstNRelease | flr | pcieConfigWrite | linkStateChange => exact (h.onHinge _).command rfl
  case powerOn => exact (State.memWf_powerOn h).command rfl
  case resetNLow => exact (State.memWf_hingeCause h 1).command rfl
  case railUndervoltage rail =>
    cases rail
    case vddCore => exact (State.memWf_resetLeaf h ..).command rfl
    all_goals exact (State.memWf_hingeCause h 2).command rfl
  case resetNRelease => exact (State.memWf_hingeRelease h).command rfl
  case lockstep => exact (State.memWf.ite (State.memWf_resetLeaf h ..) h).command rfl
  case watchdog l c =>
    have h1 : (s.onLeaf l fun x => x.adv c).memWf := h.onLeafSame fun m => Leaf.mems_adv m c
    exact (State.memWf.ite (State.memWf_resetLeaf h1 ..) h1).command rfl
  case stampToHinge => exact (State.memWf_stampToHinge h _).command rfl
  case stampUnpaired => exact (State.memWf_stampUnpaired h ..).command rfl
  case digestToHinge => exact (State.memWf_digestToHinge h _).command rfl
  case digestMissing => exact (State.memWf_digestMissing h ..).command rfl
  case barrierInEdge => exact (State.memWf_barrierInEdge h _ _).command rfl
  case barrierOutPulse c =>
    exact (State.memWf_barPulse (h.onLeafSame fun m => Leaf.mems_adv m c)).command rfl
  case tickBoundary | boundLate => exact (State.memWf_boundaryAt h ..).command rfl
  case commandFetch => exact (h.queueCmd _ (State.memWf_commandFetch h ..)).command rfl
  case nop => exact (h.queueCmd _ (State.memWf_cmdNop h ..)).command rfl
  case search => exact (h.queueCmd _ (State.memWf_cmdSearch h ..)).command rfl
  case copyIn | copyOut => exact (h.queueCmd _ (State.memWf_cmdCopy h ..)).command rfl
  case abort => exact (h.queueCmd _ (State.memWf_cmdAbort h ..)).command rfl
  case copyDone => exact (h.queueCmd _ (State.memWf_copyDone h ..)).command rfl
  case holdDrain => exact (State.memWf.ite (State.memWf_holdDrain h _) h).command rfl
  case cqCoalesceTimeout g c =>
    exact (h.indexed _ _ (State.memWf_groupTimeout (h.onLeafSame fun m => Leaf.mems_adv m c) g)).command rfl
  case apertureAccess => exact (State.memWf_aperture h ..).command rfl
  case pf1WindowAccess => exact (State.memWf_pf1Access h ..).command rfl
  case registerRead => exact (State.memWf_pf0Read h _).command rfl
  case bootPhaseDone =>
    exact (State.memWf.eventNow (State.memWf_bootPhaseDone h ..) _ fun m hm => by simp [hm]).command rfl
  case hostBootFetchDone => exact (State.memWf_hostBootDone h ..).command rfl
  case pulseEnd pin c =>
    cases pin
    case barrierOut => exact (State.memWf_barPulseEnd (h.onLeafSame fun m => Leaf.mems_adv m c)).command rfl
    all_goals exact (State.memWf.event h _ _ fun m hm => by simp [hm]).command rfl
  case linkUp link =>
    cases link
    all_goals exact (State.memWf.eventNow h _ fun m hm => by simp [hm]).command rfl

/-! ## The statement -/

theorem idle_memWf {s : State} (h : s.memWf) : (idle s).memWf :=
  ⟨(h.leaf .A).of_eq (Leaf.mems_adv _ _), (h.leaf .B).of_eq (Leaf.mems_adv _ _)⟩

theorem step_memWf {s t : State} (e : step s = .next t) (h : s.memWf) : t.memWf := by
  unfold step at e
  split at e
  · obtain rfl := Host.Outcome.next.inj e
    exact idle_memWf h
  · next c rest _ =>
    obtain ⟨t', e', h'⟩ := exec_memWf c (s := { s with pending := rest }) h
    obtain rfl := Host.Outcome.next.inj (e'.symm.trans e)
    exact h'

/-- Settles O55: every writer of a memory puts its bytes with one of the two canonical stores; all else leaves both memories alone. -/
theorem everyStepKeepsMemoryCanonical : Obligations.EveryStepKeepsMemoryCanonical :=
  have ⟨da, fa, db, fb⟩ := reset_memWf
  ⟨fun _ _ e h => step_memWf e h, ⟨da, fa⟩, db, fb⟩

end Sys2Proof.Machine
end

section
/-!
PROOFS. REWRITE (R214): what a rewrite puts into flash, and an object that its rewrite does not read back.
-/
namespace Sys2Proof.Machine

variable {l m : Leaf} {c : RwCmd} {o : ObjDesc} {k n : Nat}

/-! ## What a rewrite puts into flash -/

theorem Leaf.flashObjPut_concat (l : Leaf) (base : Nat) (stripe : Bool) (ofs : Nat) (bs : List Byte) (b : Byte) :
    (l.flashObjPut base stripe ofs (bs ++ [b])).flash
      = sparseSet memDefault (flashAddr base (ofs + bs.length) stripe) b (l.flashObjPut base stripe ofs bs).flash := by
  induction bs generalizing l ofs with
  | nil => rfl
  | cons x t ih =>
    have h := ih { l with flash := sparseSet memDefault (flashAddr base ofs stripe) x l.flash } (ofs + 1)
    rwa [Nat.add_right_comm, Nat.add_assoc] at h

theorem Leaf.dramRead_succ (l : Leaf) (a n : Nat) : l.dramRead a (n + 1) = l.dramRead a n ++ [l.dramByte (a + n)] := by
  simp [Leaf.dramRead, List.range_succ]

theorem Leaf.flash_of_mems (h : m.mems = l.mems) : m.flash = l.flash := congrArg Prod.snd h

theorem Leaf.flash_refill (l : Leaf) (i : Nat) (o : ObjDesc) (ofs n : Nat) : (l.refill i o ofs n).flash = l.flash := by
  unfold Leaf.refill
  dsimp only
  split
  · split <;> rfl
  · rfl
  · rfl

theorem Leaf.flash_writeCopies (l : Leaf) (bs : List Byte) (hm : o.mirrored = false) :
    (l.writeCopies o bs).flash = (l.flashObjPut o.primary o.striped 0 bs).flash := by
  simp only [Leaf.writeCopies, hm, Bool.false_eq_true, if_false]
  exact Leaf.flash_of_mems ((Leaf.mems_dropLost _ _).trans (Leaf.mems_lifeAdd _ _ _))

/-- A rewrite of an object without a mirror puts the source's bytes at the object's primary copy, and nothing else into flash (R214). -/
theorem Leaf.flash_rwDone_rewrite (hc : l.mem.rw = some c) (ho : l.obj c.obj = some o) (hs : c.status = 0) (hw : c.writeback = false)
    (hm : o.mirrored = false) :
    (l.rwDone []).flash = (l.flashObjPut o.primary o.striped 0 (l.dramRead c.src o.size)).flash := by
  have hp : l.pageWrites c.obj o [] = l := rfl
  unfold Leaf.rwDone
  simp only [hc, ho, hs, hw, hp, ne_eq, not_true_eq_false, List.any_nil, Bool.false_eq_true, if_false]
  rw [Leaf.flash_of_mems (Leaf.mems_rwEnd _ 0)]
  split
  · rw [Leaf.flash_of_mems (Leaf.mems_scheduleClear _ _), Leaf.flash_refill, Leaf.flash_writeCopies _ _ hm]
  · rw [Leaf.flash_of_mems (Leaf.mems_setCache _ _), Leaf.flash_refill, Leaf.flash_writeCopies _ _ hm]

/-- The last byte put stays, whatever the bytes before it were put over. -/
theorem Leaf.flash_rwDone_last (hc : l.mem.rw = some c) (ho : l.obj c.obj = some o) (hs : c.status = 0) (hw : c.writeback = false)
    (hm : o.mirrored = false) (hn : o.size = n + 1) :
    sparseGet memDefault (l.rwDone []).flash (flashAddr o.primary n o.striped) = l.dramByte (c.src + n) := by
  have hlen : 0 + (l.dramRead c.src n).length = n := by simp [Leaf.dramRead]
  rw [Leaf.flash_rwDone_rewrite hc ho hs hw hm, hn, Leaf.dramRead_succ, Leaf.flashObjPut_concat, hlen, sparseGet_set_same]

/-- A flash that holds an object as DRAM holds the source holds it so byte by byte. -/
theorem Leaf.flashObj_eq_dramRead_get {a : Nat} (h : m.flashObj o 0 n = l.dramRead a n) (hk : k < n) :
    sparseGet memDefault m.flash (flashAddr o.primary k o.striped) = l.dramByte (a + k) := by
  have hget := congrArg (fun bs => bs[k]?) h
  simpa [Leaf.flashObj, Leaf.dramRead, hk] using hget

theorem exec_memRwDone {s : State} {i : LeafId} (h : s.ready i = true) (outs : List WriteOutcome) :
    exec (.memRwDone i outs) s = .next (s.setLeaf i ((s.leaf i).rwDone outs)).settle :=
  congrArg State.done (State.eventNow_of_ready h _)

theorem flash_memRwDone {s t : State} {i : LeafId} {outs : List WriteOutcome} (h : s.ready i = true)
    (e : exec (.memRwDone i outs) s = .next t) : (t.leaf i).flash = ((s.leaf i).rwDone outs).flash := by
  obtain rfl := Host.Outcome.next.inj ((exec_memRwDone h outs).symm.trans e)
  rw [((settle_kept _).leaf i).flash, State.leaf_setLeaf_same]

/-- Where a rewrite reads back, a byte of the source agrees with its last byte if both fall on one address of the object's copy. -/
theorem dramByte_eq_of_readsBack {s t : State} {i : LeafId} (h : s.ready i = true) (hc : (s.leaf i).mem.rw = some c)
    (ho : (s.leaf i).obj c.obj = some o) (hs : c.status = 0) (hw : c.writeback = false) (hm : o.mirrored = false) (hn : o.size = n + 1)
    (hk : k < o.size) (ha : flashAddr o.primary k o.striped = flashAddr o.primary n o.striped)
    (e : exec (.memRwDone i []) s = .next t) (hr : (t.leaf i).flashObj o 0 o.size = (s.leaf i).dramRead c.src o.size) :
    (s.leaf i).dramByte (c.src + k) = (s.leaf i).dramByte (c.src + n) := by
  rw [← Leaf.flashObj_eq_dramRead_get hr hk, flash_memRwDone h e, ha, Leaf.flash_rwDone_last hc ho hs hw hm hn]

/-! ## An object longer than the flash -/

/-- A FLASH_DIRECT object, striped over the channels, of one byte more than they hold (R195 does not bind it): its last byte falls on the
address of its byte 65,536. -/
def foldedObject : ObjDesc :=
  { ofs := 0, name := [], size := 2 ^ 40 + 1, place := 2, oflags := 0, pane := 0, rsvd := 0, bindIdx := 0, bindRsvd := 0,
    primary := 2 ^ 30, mirror := 0, dram := 0 }

theorem flashAddr_foldedObject :
    flashAddr foldedObject.primary 65536 foldedObject.striped = flashAddr foldedObject.primary (2 ^ 40) foldedObject.striped := by decide

/-- Its rewrite from DRAM address 0. -/
def foldedRewrite : RwCmd := { obj := 0, src := 0, writeback := false, status := 0, vers := 0 }

/-- A booted leaf with that object, its rewrite running and a source whose byte 65,536 alone is not 0. -/
def foldedLeaf : Leaf :=
  { State.reset.leafA with
    dram := [(65536, 1)]
    boot := { State.reset.leafA.boot with held := false }
    flt := { firstIdle := true }
    glz := { image := some { l := 1, flags := 0, length := 0, baseHash := 0, buildId := 0, sections := [], stages := [], routes := [],
                             engines := [], pipes := [], objects := [foldedObject] } }
    mem := { rw := some foldedRewrite } }

/-- The device with that leaf as Leaf A. -/
def foldedState : State :=
  { State.reset with leafA := foldedLeaf, hinge := { State.reset.hinge with regs := [(Reg.HINGE_LEAF_STAT, 3)], held := false } }

theorem foldedState_ready : foldedState.ready .A = true := by decide +kernel

theorem foldedLeaf_source_differs : foldedLeaf.dramByte 65536 ≠ foldedLeaf.dramByte (2 ^ 40) := by decide

/-- Refutes O33: the last clause takes any object of the image, and so one that R195 would not bind. A striped object longer than the eight
channels of 2^37 bytes folds on itself: its rewrite puts its last byte over its byte 65,536. -/
theorem not_rewriteAndWriteBack : ¬ Obligations.RewriteAndWriteBack := by
  unfold Obligations.RewriteAndWriteBack
  intro h
  obtain ⟨-, -, -, -, -, readsBack⟩ := h foldedState .A foldedState_ready
  obtain ⟨t, e, -, hr⟩ := readsBack foldedRewrite foldedObject rfl rfl rfl rfl rfl
  have hsame := dramByte_eq_of_readsBack foldedState_ready (n := 2 ^ 40) (k := 65536) rfl rfl rfl rfl rfl rfl (by decide)
    flashAddr_foldedObject e hr
  exact foldedLeaf_source_differs hsame

end Sys2Proof.Machine
end

section
/-!
PROOFS. The registers of sensor ingress: how a write reaches the block and a source's CFG, what settling keeps of the block, and what a
flag's event leaves unchanged.
-/
namespace Sys2Proof.Machine

variable {s : State} {i : LeafId} {l m k : Leaf} {f : FieldRef} {a n w x : Nat}

/-! ## Fields under writes -/

theorem bitOf_setBits_zero (w n : Nat) : bitOf (setBits w n n 0) n = false := by
  unfold bitOf
  rw [testBit_setBits _ _ _ _ _ le_rfl, if_pos ⟨le_rfl, le_rfl⟩, Nat.zero_testBit]

theorem Leaf.get_putB_disjoint (l : Leaf) (f g : FieldRef) (b : Bool) (ha : f.addr = g.addr) (h : f.lo ≤ f.hi) (h32 : g.hi < 32)
    (hd : f.hi < g.lo ∨ g.hi < f.lo) : (l.putB f b).get g = l.get g := Leaf.get_put_disjoint l f g _ ha h h32 hd

theorem Leaf.bit_put_disjoint (l : Leaf) (f g : FieldRef) (v : Nat) (ha : f.addr = g.addr) (h : f.lo ≤ f.hi) (h32 : g.hi < 32)
    (hd : f.hi < g.lo ∨ g.hi < f.lo) : (l.put f v).bit g = l.bit g :=
  congrArg (· != 0) (Leaf.get_put_disjoint l f g v ha h h32 hd)

/-! ## Writes that reach the block -/

/-- A write of a register above the tick controller's block, of a leaf that runs. -/
theorem State.regWrite_above_tick (h : s.ready i = true) (w : Nat) (h4 : a % 4 = 0) (ha : 0x200000 ≤ a ∧ a < 0x4000000) :
    s.regWrite i a w = s.setLeaf i ((s.leaf i).writeReg a w) := by
  obtain ⟨hsq, hcq⟩ := (noDoorbell_iff a).mp (noDoorbell_of_outside (by omega))
  have hopen := State.opens_of_ready a h
  have htick : a ≠ Reg.TICK_CTRL := show a ≠ 0x100000 by omega
  unfold State.regWrite State.pf0Write
  rw [if_neg (not_not.mpr (leafBase_add_mod i h4)), leafOf_leafBase i ha.2]
  simp only [State.leafWrite, hopen, hsq, hcq, htick, Bool.not_true, Bool.false_eq_true, if_false]
  rfl

theorem srcCfg_block (hn : n < 128) : Reg.SNS_SRC_CFG n / 2 ^ 20 = 7 := show (0x701000 + 0x40 * n) / 2 ^ 20 = 7 by omega

theorem srcStat_block (hn : n < 128) : Reg.SNS_SRC_STAT n / 2 ^ 20 = 7 := show (0x70100C + 0x40 * n) / 2 ^ 20 = 7 by omega

theorem srcStat_ne_srcCfg (n : Nat) : Reg.SNS_SRC_STAT n ≠ Reg.SNS_SRC_CFG n := show 0x70100C + 0x40 * n ≠ 0x701000 + 0x40 * n by omega

/-- A write of SNS_SRCn_CFG of a source that exists (Table 8.7). -/
theorem Leaf.writeReg_srcCfg (l : Leaf) (w : Nat) (hn : n < 128) (he : srcExists n = true) :
    l.writeReg (Reg.SNS_SRC_CFG n) w = l.writeSrcCfg n w := by
  have hblk : l.writeReg (Reg.SNS_SRC_CFG n) w = l.writeSnsBlk (Reg.SNS_SRC_CFG n) w := by
    unfold Leaf.writeReg
    rw [srcCfg_block hn]
    rfl
  have hix : (0x701000 + 0x40 * n - 0x701000) / 0x40 = n := by omega
  rw [hblk]
  unfold Leaf.writeSnsBlk
  rw [if_pos (show 0x701000 ≤ 0x701000 + 0x40 * n ∧ 0x701000 + 0x40 * n < 0x703000 by omega)]
  simp only [hix, he, Bool.not_true, Bool.false_eq_true, if_false, if_true]

/-- SNS_SRCn_CFG is element n of the second row of the block's table. -/
theorem regAt_srcCfg (hn : n < 128) : regAt (Reg.SNS_SRC_CFG n) = some (snsRows0[1], n) := by
  have hrows : blockRows (Reg.SNS_SRC_CFG n) = snsRows := by
    unfold blockRows
    rw [show Reg.SNS_SRC_CFG n / 0x100000 = 7 from srcCfg_block hn]
    rfl
  have hofs : 0x701000 + 0x40 * n - 0x700000 = 0x1000 + 0x40 * n := by omega
  unfold regAt
  rw [hrows]
  simp [snsRows, snsRows0, RegRow.find, hofs, hn]

/-- SNS_SRCn_CFG has four writable fields, ENABLE, TIME_SRC, DOMAIN and OBJ. -/
theorem Leaf.swWrite_srcCfg (l : Leaf) (w : Nat) (hn : n < 128) : l.swWrite (Reg.SNS_SRC_CFG n) w = l.wr (Reg.SNS_SRC_CFG n)
    (setBits (setBits (setBits (setBits (l.rd (Reg.SNS_SRC_CFG n)) 31 31 (bitsOf w 31 31)) 29 28 (bitsOf w 29 28)) 24 24 (bitsOf w 24 24))
      11 0 (bitsOf w 11 0)) := by
  unfold Leaf.swWrite
  rw [regAt_srcCfg hn]
  rfl

theorem Leaf.obj_swWrite_srcCfg (l : Leaf) (w : Nat) (hn : n < 128) :
    (l.swWrite (Reg.SNS_SRC_CFG n) w).get (Fld.SNS_SRC_CFG_OBJ n) = bitsOf w 11 0 := by
  unfold Leaf.get
  rw [Leaf.swWrite_srcCfg l w hn, Leaf.rd_wr_same, bitsOf_mod _ _ _ (by simp), bitsOf_setBits_same _ _ _ _ (by simp)]
  exact Nat.mod_eq_of_lt (bitsOf_lt w 11 0)

theorem Leaf.enable_swWrite_srcCfg (l : Leaf) (w : Nat) (hn : n < 128) :
    (l.swWrite (Reg.SNS_SRC_CFG n) w).get (Fld.SNS_SRC_CFG_ENABLE n) = bitsOf w 31 31 := by
  unfold Leaf.get
  rw [Leaf.swWrite_srcCfg l w hn, Leaf.rd_wr_same, bitsOf_mod _ _ _ (by simp), bitsOf_setBits_disjoint _ _ _ _ _ _ (by simp) (by simp),
    bitsOf_setBits_disjoint _ _ _ _ _ _ (by simp) (by simp), bitsOf_setBits_disjoint _ _ _ _ _ _ (by simp) (by simp),
    bitsOf_setBits_same _ _ _ _ (by simp)]
  exact Nat.mod_eq_of_lt (bitsOf_lt w 31 31)

/-! ## What settling and a flag's event keep of the block -/

/-- No register of the block settles. -/
theorem Leaf.Kept.snsRd (h : m.Kept k) (ha : a / 2 ^ 20 = 7) : k.rd a = m.rd a := h.rd a (settles_of_between (by omega))

theorem Leaf.Kept.snsGet (h : m.Kept k) (ha : f.addr / 2 ^ 20 = 7) : k.get f = m.get f := Leaf.get_congr (h.snsRd ha)

theorem Leaf.Kept.snsBit (h : m.Kept k) (ha : f.addr / 2 ^ 20 = 7) : k.bit f = m.bit f := Leaf.bit_congr (h.snsRd ha)

theorem Leaf.IrqOnly.sns (h : l.IrqOnly m) : m.sns = l.sns := by rw [h.eq]

theorem Leaf.sns_flagEvent (l : Leaf) (f : FieldRef) (hx : x < 512) : (l.flagEvent f x).sns = l.sns := (l.irq_flagEvent f hx).sns

theorem Leaf.rd_flagEvent (l : Leaf) (hx : x < 512) (hf : f.addr ≠ a) (ha : a / 2 ^ 20 = 7) : (l.flagEvent f x).rd a = l.rd a :=
  ((l.irq_flagEvent f hx).regs a (by omega)).trans (Leaf.rd_putB_other _ _ _ hf)

end Sys2Proof.Machine
end

section
/-!
PROOFS. The states of a source (R225, Table 8.2): enabling, disabling, link loss and timeout.
-/
namespace Sys2Proof.Machine

variable {s : State} {i : LeafId} {l m k : Leaf} {a n w : Nat}

/-! ## A source given a state -/

theorem Leaf.rd_setCh (l : Leaf) (c : Nat) (x : FiltCh) (a : Nat) : (l.setCh c x).rd a = l.rd a := rfl

theorem Leaf.rd_setSrc (l : Leaf) (n : Nat) (x : SrcRun) (a : Nat) : (l.setSrc n x).rd a = l.rd a := rfl

/-- Leaving UP acts on the filter chain alone, whose registers lie above the block's. -/
theorem Leaf.rd_feederLost (l : Leaf) (c : Nat) (ha : a / 2 ^ 20 = 7) : (l.feederLost c).rd a = l.rd a := by
  have hstat : Reg.FILT_CH_STAT c ≠ a := show 0x801020 + 0x100 * c ≠ a by omega
  have hscnt : Reg.FILT_CH_SCNT c ≠ a := show 0x801030 + 0x100 * c ≠ a by omega
  have hclear : (l.clearSettled c).rd a = l.rd a := by
    unfold Leaf.clearSettled
    rw [Leaf.rd_putB_other _ _ _ hstat, Leaf.rd_putB_other _ _ _ hstat, Leaf.rd_wr_other _ _ hscnt, Leaf.rd_putB_other _ _ _ hstat]
  unfold Leaf.feederLost Leaf.clearCh
  rw [Leaf.rd_putB_other _ _ _ hstat, Leaf.rd_setCh, Leaf.rd_putB_other _ _ _ hstat, hclear]

theorem Leaf.rd_leaveUp (l : Leaf) (n : Nat) (ha : a / 2 ^ 20 = 7) : (l.leaveUp n).rd a = l.rd a :=
  Leaf.foldl_congr (·.rd a) _ _ l fun c _ k => k.rd_feederLost c ha

theorem Leaf.rd_srcTo (l : Leaf) (st : Nat) (hs : Reg.SNS_SRC_STAT n ≠ a) (ha : a / 2 ^ 20 = 7) : (l.srcTo n st).rd a = l.rd a := by
  unfold Leaf.srcTo
  rw [Leaf.rd_put_other _ _ _ hs, Leaf.rd_put_other _ _ _ hs]
  split
  · exact l.rd_leaveUp n ha
  · rfl

theorem Leaf.srcState_srcTo (l : Leaf) {st : Nat} (hst : st < 8) : (l.srcTo n st).srcState n = st := by
  unfold Leaf.srcTo
  rw [Leaf.srcState,
    Leaf.get_put_disjoint _ (Fld.SNS_SRC_STAT_GOOD n) (Fld.SNS_SRC_STAT_STATE n) _ rfl (by simp) (by simp) (by simp),
    Leaf.get_put_same _ _ _ (by simp) (by simp)]
  exact Nat.mod_eq_of_lt hst

theorem Leaf.srcState_congr (e : k.rd (Reg.SNS_SRC_STAT n) = l.rd (Reg.SNS_SRC_STAT n)) : k.srcState n = l.srcState n := Leaf.get_congr e

theorem Leaf.src_congr (e : k.sns.srcs = l.sns.srcs) : k.src n = l.src n := by unfold Leaf.src; rw [e]

theorem Leaf.src_setSrc (l : Leaf) (n : Nat) (x : SrcRun) : (l.setSrc n x).src n = x := by
  unfold Leaf.src Leaf.setSrc
  rw [alGet_alSet_same]
  rfl

/-! ## A source that enters DOWN -/

/-- A source enters DOWN, whatever state it was in: DOWN_EV is set and its event raised (R225, R244). -/
def Leaf.enterDown (n : Nat) (l : Leaf) : Leaf := (l.srcTo n 1).flagEvent (Fld.SNS_SRC_STAT_DOWN_EV n) (0x180 + n)

theorem Leaf.srcDown_of_up (h0 : l.srcState n ≠ 0) (h1 : l.srcState n ≠ 1) : l.srcDown n = l.enterDown n :=
  if_neg (not_or.mpr ⟨h0, h1⟩)

theorem Leaf.srcDown_of_off (h : l.srcState n = 0) : l.srcDown n = l := if_pos (.inl h)

theorem Leaf.srcDown_of_down (h : l.srcState n = 1) : l.srcDown n = l := if_pos (.inr h)

theorem Leaf.rd_enterDown (l : Leaf) (hn : n < 128) (hs : Reg.SNS_SRC_STAT n ≠ a) (ha : a / 2 ^ 20 = 7) : (l.enterDown n).rd a = l.rd a :=
  (Leaf.rd_flagEvent _ (by omega) hs ha).trans (l.rd_srcTo 1 hs ha)

/-- In SNS_SRCn_STAT itself the event changes the flag alone. -/
theorem Leaf.rd_stat_enterDown (l : Leaf) (hn : n < 128) : (l.enterDown n).rd (Reg.SNS_SRC_STAT n)
    = ((l.srcTo n 1).putB (Fld.SNS_SRC_STAT_DOWN_EV n) true).rd (Reg.SNS_SRC_STAT n) :=
  (Leaf.irq_flagEvent _ _ (by omega)).regs _ (by rw [srcStat_block hn]; decide)

theorem Leaf.srcState_enterDown (l : Leaf) (hn : n < 128) : (l.enterDown n).srcState n = 1 := by
  rw [Leaf.srcState_congr (l.rd_stat_enterDown hn), Leaf.srcState,
    Leaf.get_putB_disjoint _ (Fld.SNS_SRC_STAT_DOWN_EV n) (Fld.SNS_SRC_STAT_STATE n) _ rfl (by simp) (by simp) (by simp)]
  exact Leaf.srcState_srcTo _ (by decide)

theorem Leaf.downEv_enterDown (l : Leaf) (hn : n < 128) : (l.enterDown n).bit (Fld.SNS_SRC_STAT_DOWN_EV n) = true :=
  (Leaf.bit_congr (l.rd_stat_enterDown hn)).trans (Leaf.bit_putB_same _ _ _ (by simp) (by simp))

/-- A source that is not OFF is DOWN after it. -/
theorem Leaf.srcState_srcDown (hn : n < 128) (h : l.srcState n ≠ 0) : (l.srcDown n).srcState n = 1 := by
  by_cases h1 : l.srcState n = 1
  · rw [Leaf.srcDown_of_down h1, h1]
  · rw [Leaf.srcDown_of_up h h1, Leaf.srcState_enterDown _ hn]

theorem Leaf.rd_srcDown (l : Leaf) (hn : n < 128) (hs : Reg.SNS_SRC_STAT n ≠ a) (ha : a / 2 ^ 20 = 7) : (l.srcDown n).rd a = l.rd a := by
  unfold Leaf.srcDown
  split
  · rfl
  · exact l.rd_enterDown hn hs ha

/-! ## Enabling and disabling -/

/-- ENABLE takes effect on a source that is off and, unless it is a camera, has no object or a legal one (R225, R229). -/
theorem Leaf.srcEnable_of_off (h : l.bit (Fld.SNS_SRC_CFG_ENABLE n) = false)
    (ho : isCam n = true ∨ bitsOf w 11 0 = 0xFFF ∨ l.slotObjOk (bitsOf w 11 0) = true) :
    l.srcEnable n w = ((l.swWrite (Reg.SNS_SRC_CFG n) w).setSrc n { lastAt := l.count }).enterDown n := by
  have hobj : (!isCam n && bitsOf w 11 0 != 0xFFF && !l.slotObjOk (bitsOf w 11 0)) = false := by
    rcases ho with ho | ho | ho <;> simp [ho]
  unfold Leaf.srcEnable
  rw [h, hobj]
  rfl

theorem Leaf.srcEnable_of_on (h : l.bit (Fld.SNS_SRC_CFG_ENABLE n) = true) : l.srcEnable n w = l.snsRefused := if_pos h

/-- Source n is OFF and keeps nothing of its run. -/
structure Leaf.SourceOff (n : Nat) (l : Leaf) : Prop where
  enable : l.bit (Fld.SNS_SRC_CFG_ENABLE n) = false
  state : l.srcState n = 0
  run : l.src n = {}

theorem Leaf.SourceOff.congr (h : l.SourceOff n) (hc : k.rd (Reg.SNS_SRC_CFG n) = l.rd (Reg.SNS_SRC_CFG n))
    (hs : k.rd (Reg.SNS_SRC_STAT n) = l.rd (Reg.SNS_SRC_STAT n)) (hr : k.sns.srcs = l.sns.srcs) : k.SourceOff n where
  enable := (Leaf.bit_congr hc).trans h.enable
  state := (Leaf.srcState_congr hs).trans h.state
  run := (Leaf.src_congr hr).trans h.run

theorem Leaf.SourceOff.setCam (h : l.SourceOff n) (c : Nat) (x : CamRun) : (l.setCam c x).SourceOff n := h.congr rfl rfl rfl

theorem Leaf.SourceOff.kept (hn : n < 128) (h : l.SourceOff n) (hk : l.Kept k) : k.SourceOff n :=
  h.congr (hk.snsRd (srcCfg_block hn)) (hk.snsRd (srcStat_block hn)) (by rw [hk.sns])

/-- SNS_STAT, which the refusal sets, is no source's register. -/
theorem Leaf.SourceOff.snsRefused (hn : n < 128) (h : l.SourceOff n) : l.snsRefused.SourceOff n :=
  h.congr (Leaf.rd_flagEvent _ (by decide) (show 0x700000 ≠ 0x701000 + 0x40 * n by omega) (srcCfg_block hn))
    (Leaf.rd_flagEvent _ (by decide) (show 0x700000 ≠ 0x70100C + 0x40 * n by omega) (srcStat_block hn))
    (by rw [Leaf.snsRefused, Leaf.sns_flagEvent _ _ (by decide)])

/-- The clearing of ENABLE, the state OFF and the run emptied, as a disable does them. -/
theorem Leaf.sourceOff_srcTo (l : Leaf) (hn : n < 128) : (((l.putB (Fld.SNS_SRC_CFG_ENABLE n) false).srcTo n 0).setSrc n {}).SourceOff n where
  enable := by
    rw [Leaf.bit_congr ((Leaf.rd_setSrc ..).trans (Leaf.rd_srcTo _ 0 (srcStat_ne_srcCfg n) (srcCfg_block hn))),
      Leaf.bit_putB_same _ _ _ (by simp) (by simp)]
  state := by rw [Leaf.srcState_congr (Leaf.rd_setSrc ..), Leaf.srcState_srcTo _ (by decide)]
  run := Leaf.src_setSrc _ n {}

/-- A disable of a source that is on leaves it OFF, whatever other fields the word asks for (R225, R243). -/
theorem Leaf.sourceOff_srcDisable (hn : n < 128) (h : l.bit (Fld.SNS_SRC_CFG_ENABLE n) = true) (w : Nat) :
    (l.srcDisable n w).SourceOff n := by
  have hoff := l.sourceOff_srcTo hn
  unfold Leaf.srcDisable
  rw [if_pos h]
  dsimp only
  split <;> split
  · exact hoff.setCam ..
  · exact hoff
  · exact (hoff.setCam ..).snsRefused hn
  · exact hoff.snsRefused hn

/-! ## Link loss and timeout -/

/-- Discarded frames of a receiver change no register. -/
theorem Leaf.rd_camDrop (l : Leaf) (n : Nat) (p : CamFrame → Bool) (a : Nat) : (l.camDrop n p).rd a = l.rd a := by
  unfold Leaf.camDrop Leaf.srcMalformed
  dsimp only
  split
  · split <;> rfl
  · rfl

theorem Leaf.rd_lidPortsDown (l : Leaf) (n a : Nat) : (l.lidPortsDown n).rd a = l.rd a :=
  Leaf.foldl_congr (·.rd a) _ _ l fun _ _ _ => rfl

/-- What a lost link takes away besides the source's state: a receiver's lock and gear, a switch port's link, a CAN bus (R225). -/
def Leaf.linkDown (n : Nat) (l : Leaf) : Leaf :=
  if isCam n then ((l.camDrop n fun f => !f.ended).putB (Fld.SNS_CAM_STAT_LOCK n) false).put (Fld.SNS_CAM_STAT_GEAR n) 0
  else if 8 ≤ n ∧ n < 16 then l.lidPortsDown (n - 8)
  else if 0x40 ≤ n then
    { l with sns := { l.sns with busOff := setAt l.sns.busOff (l.get (Fld.SNS_CANE_W0_CTRL (n - 0x40))) true } }
  else l

theorem Leaf.linkLost_eq (l : Leaf) (n : Nat) : l.linkLost n = (l.linkDown n).srcDown n := rfl

theorem Leaf.srcState_linkDown (l : Leaf) (n : Nat) : (l.linkDown n).srcState n = l.srcState n := by
  have hstat : Reg.SNS_CAM_STAT n ≠ Reg.SNS_SRC_STAT n := show 0x705024 + 0x40 * n ≠ 0x70100C + 0x40 * n by omega
  apply Leaf.srcState_congr
  unfold Leaf.linkDown
  split
  · rw [Leaf.rd_put_other _ _ _ hstat, Leaf.rd_putB_other _ _ _ hstat, Leaf.rd_camDrop]
  · split
    · exact l.rd_lidPortsDown ..
    · split <;> rfl

theorem Leaf.lock_linkDown (l : Leaf) (hc : isCam n = true) : (l.linkDown n).bit (Fld.SNS_CAM_STAT_LOCK n) = false := by
  rw [Leaf.linkDown, if_pos hc,
    Leaf.bit_put_disjoint _ (Fld.SNS_CAM_STAT_GEAR n) (Fld.SNS_CAM_STAT_LOCK n) _ rfl (by simp) (by simp) (by simp),
    Leaf.bit_putB_same _ _ _ (by simp) (by simp)]

theorem Leaf.gear_linkDown (l : Leaf) (hc : isCam n = true) : (l.linkDown n).get (Fld.SNS_CAM_STAT_GEAR n) = 0 := by
  rw [Leaf.linkDown, if_pos hc, Leaf.get_put_same _ _ _ (by simp) (by simp), Nat.zero_mod]

theorem Leaf.itemTimeout_of_due (h : 3 * l.srcWin n * 100 ≤ (l.count - (l.src n).lastAt) * 128) : l.itemTimeout n = l.srcDown n := if_pos h

/-- Before 3 WIN have passed, and for a source that is OFF, the timeout does nothing. -/
theorem Leaf.itemTimeout_of_not_due (h : (l.count - (l.src n).lastAt) * 128 < 3 * l.srcWin n * 100 ∨ l.srcState n = 0) :
    l.itemTimeout n = l := by
  rcases h with h | h
  · exact if_neg (Nat.not_le.mpr h)
  · unfold Leaf.itemTimeout
    rw [Leaf.srcDown_of_off h, ite_self]

/-! ## The commands -/

theorem Leaf.srcState_adv (l : Leaf) (c n : Nat) : (l.adv c).srcState n = l.srcState n := Leaf.adv_congr (·.srcState n) c fun _ => rfl

theorem Leaf.srcWin_adv (l : Leaf) (c n : Nat) : (l.adv c).srcWin n = l.srcWin n := Leaf.adv_congr (·.srcWin n) c fun _ => rfl

theorem Leaf.src_adv (l : Leaf) (c n : Nat) : (l.adv c).src n = l.src n := Leaf.adv_congr (·.src n) c fun _ => rfl

theorem sourceNamed_of_exists (f : State → State) (hn : n < 128) (he : srcExists n = true) : sourceNamed n f s = f s := if_pos ⟨hn, he⟩

/-- A write of SNS_SRCn_CFG with ENABLE fixed. -/
theorem State.srcCfg_of_ready (h : s.ready i = true) (hn : n < 128) (he : srcExists n = true) (v : Nat) (w : Word) :
    sourceNamed n (fun t => t.fieldWrite i (Fld.SNS_SRC_CFG_ENABLE n) v w) s
      = s.setLeaf i ((s.leaf i).writeSrcCfg n (setBits w.toNat 31 31 v)) := by
  rw [sourceNamed_of_exists _ hn he]
  unfold State.fieldWrite
  rw [State.regWrite_above_tick h _ (show (0x701000 + 0x40 * n) % 4 = 0 by omega) (by omega), Leaf.writeReg_srcCfg _ _ hn he]
  rfl

theorem exec_sourceEnable (h : s.ready i = true) (hn : n < 128) (he : srcExists n = true) (w : Word) :
    exec (.sourceEnable i n w) s = .next (s.setLeaf i ((s.leaf i).srcEnable n (setBits w.toNat 31 31 1))).settle := by
  refine congrArg State.done ((State.srcCfg_of_ready h hn he 1 w).trans ?_)
  rw [Leaf.writeSrcCfg, if_pos (bitOf_setBits_same ..)]

theorem exec_sourceDisable (h : s.ready i = true) (hn : n < 128) (he : srcExists n = true) (w : Word) :
    exec (.sourceDisable i n w) s = .next (s.setLeaf i ((s.leaf i).srcDisable n (setBits w.toNat 31 31 0))).settle := by
  refine congrArg State.done ((State.srcCfg_of_ready h hn he 0 w).trans ?_)
  rw [Leaf.writeSrcCfg, bitOf_setBits_zero]
  rfl

/-- An event of a source of a leaf that runs. -/
theorem State.sourceEvent_of_ready (h : s.ready i = true) (hn : n < 128) (he : srcExists n = true) (c : Nat) (f : Leaf → Leaf) :
    sourceNamed n (fun t => t.event i c Leaf.runs f) s = s.setLeaf i (f ((s.leaf i).adv c)) :=
  (sourceNamed_of_exists _ hn he).trans (State.event_of_ok ((Leaf.runs_adv c).trans (Leaf.runs_of_ready h)))

theorem exec_sourceLinkLost (h : s.ready i = true) (hn : n < 128) (he : srcExists n = true) (c : Nat) :
    exec (.sourceLinkLost i n c) s = .next (s.setLeaf i (((s.leaf i).adv c).linkLost n)).settle :=
  congrArg State.done (State.sourceEvent_of_ready h hn he c _)

theorem exec_sourceItemTimeout (h : s.ready i = true) (hn : n < 128) (he : srcExists n = true) (c : Nat) :
    exec (.sourceItemTimeout i n c) s = .next (s.setLeaf i (((s.leaf i).adv c).itemTimeout n)).settle :=
  congrArg State.done (State.sourceEvent_of_ready h hn he c _)

theorem Leaf.Kept.srcState (hn : n < 128) (h : l.Kept k) : k.srcState n = l.srcState n := h.snsGet (srcStat_block hn)

/-- Settles O35: the transitions of Table 8.2 that no item causes. -/
theorem sourceCommands : Obligations.SourceCommands := by
  intro s i n hr hn he
  have hcfg : Reg.SNS_SRC_CFG n / 2 ^ 20 = 7 := srcCfg_block hn
  have hstat : Reg.SNS_SRC_STAT n / 2 ^ 20 = 7 := srcStat_block hn
  refine ⟨fun w hoff hobj => ?_, fun w hon => ⟨?_, ?_⟩, fun c h0 => ?_, fun c h0 hdue => ?_, fun c hnot => ?_⟩
  · have e := exec_sourceEnable hr hn he w
    have hw : bitsOf (setBits w.toNat 31 31 1) 11 0 = bitsOf w.toNat 11 0 := bitsOf_setBits_disjoint _ _ _ _ _ _ (by decide) (by decide)
    have hon : bitsOf (setBits w.toNat 31 31 1) 31 31 = 1 := bitsOf_setBits_same _ _ _ _ le_rfl
    rw [Leaf.srcEnable_of_off hoff (by rwa [hw])] at e
    refine answersWith_of_setLeaf e fun t kept _ => ?_
    have hrd := (kept.snsRd hcfg).trans (Leaf.rd_enterDown _ hn (srcStat_ne_srcCfg n) hcfg)
    refine ⟨?_, (kept.srcState hn).trans (Leaf.srcState_enterDown _ hn), (kept.snsBit hstat).trans (Leaf.downEv_enterDown _ hn), ?_⟩
    · exact (Leaf.bit_congr hrd).trans (congrArg (· != 0) ((Leaf.enable_swWrite_srcCfg _ _ hn).trans hon))
    · exact (Leaf.get_congr hrd).trans ((Leaf.obj_swWrite_srcCfg _ _ hn).trans hw)
  · have e := exec_sourceEnable hr hn he w
    rw [Leaf.srcEnable_of_on hon] at e
    exact answers_of_exec e
  · refine answersWith_of_setLeaf (exec_sourceDisable hr hn he w) fun t kept _ => ?_
    have hoff := (Leaf.sourceOff_srcDisable hn hon _).kept hn kept
    exact ⟨hoff.enable, hoff.state, hoff.run⟩
  · have e := exec_sourceLinkLost hr hn he c
    rw [Leaf.linkLost_eq] at e
    refine answersWith_of_setLeaf e fun t kept _ => ⟨?_, fun hc => ?_⟩
    · refine (kept.srcState hn).trans (Leaf.srcState_srcDown hn ?_)
      rwa [Leaf.srcState_linkDown, Leaf.srcState_adv]
    · have hblk : Reg.SNS_CAM_STAT n / 2 ^ 20 = 7 := show (0x705024 + 0x40 * n) / 2 ^ 20 = 7 by omega
      have hrd := (kept.snsRd hblk).trans (Leaf.rd_srcDown _ hn (show 0x70100C + 0x40 * n ≠ 0x705024 + 0x40 * n by omega) hblk)
      exact ⟨(Leaf.bit_congr hrd).trans (Leaf.lock_linkDown _ hc), (Leaf.get_congr hrd).trans (Leaf.gear_linkDown _ hc)⟩
  · rw [← Leaf.srcState_adv _ c n] at h0
    rw [← Leaf.srcWin_adv _ c n, ← Leaf.src_adv _ c n] at hdue
    have e := exec_sourceItemTimeout hr hn he c
    rw [Leaf.itemTimeout_of_due hdue] at e
    refine answersWith_of_setLeaf e fun t kept _ => ⟨(kept.srcState hn).trans (Leaf.srcState_srcDown hn h0), fun h1 => ?_⟩
    rw [← Leaf.srcState_adv _ c n] at h1
    rw [kept.snsBit hstat, Leaf.srcDown_of_up h0 h1, Leaf.downEv_enterDown _ hn]
  · rw [← Leaf.srcState_adv _ c n, ← Leaf.srcWin_adv _ c n, ← Leaf.src_adv _ c n] at hnot
    have e := exec_sourceItemTimeout hr hn he c
    rw [Leaf.itemTimeout_of_not_due hnot] at e
    exact answers_of_exec e

end Sys2Proof.Machine
end

section
/-!
PROOFS. The filter chain's commands (R248, R253 to R255): a channel enabled or refused, the FILT_SYNC edge, and the phase reset of an armed
tick with its arming and its cancelling.
-/
namespace Sys2Proof.Machine

variable {s : State} {i : LeafId} {l m k : Leaf} {f : FieldRef} {a c n t w x : Nat}

/-! ## Registers, events and settling -/

/-- No register of the blocks from power to the fault log settles. -/
theorem Leaf.Kept.rd_of_between (h : m.Kept k) (ha : 0x500000 ≤ a ∧ a < 0x1C00000) : k.rd a = m.rd a := h.rd a (settles_of_between ha)

theorem Leaf.Kept.bit_of_between (h : m.Kept k) (hf : 0x500000 ≤ f.addr ∧ f.addr < 0x1C00000) : k.bit f = m.bit f :=
  Leaf.bit_congr (h.rd_of_between hf)

theorem Leaf.rd_adv (l : Leaf) (n a : Nat) : (l.adv n).rd a = l.rd a := Leaf.adv_congr (·.rd a) n fun _ => rfl

theorem Leaf.filt_adv (l : Leaf) (n : Nat) : (l.adv n).filt = l.filt := Leaf.adv_congr Leaf.filt n fun _ => rfl

theorem Leaf.sns_adv (l : Leaf) (n : Nat) : (l.adv n).sns = l.sns := Leaf.adv_congr Leaf.sns n fun _ => rfl

/-- A flag's event leaves the registers of every block but the interrupt controller's, and but for the flag itself. -/
theorem Leaf.rd_flagEvent_other (l : Leaf) (hx : x < 512) (hf : f.addr ≠ a) (ha : a / 2 ^ 20 ≠ 4) : (l.flagEvent f x).rd a = l.rd a :=
  ((l.irq_flagEvent f hx).regs a ha).trans (Leaf.rd_putB_other _ _ _ hf)

/-- The flag itself is set. -/
theorem Leaf.bit_flagEvent_same (l : Leaf) (hx : x < 512) (ha : f.addr / 2 ^ 20 ≠ 4) (h : f.lo ≤ f.hi) (h32 : f.hi < 32) :
    (l.flagEvent f x).bit f = true :=
  ((l.irq_flagEvent f hx).bit f ha).trans (Leaf.bit_putB_same _ _ _ h h32)

theorem Leaf.IrqOnly.filt (h : l.IrqOnly m) : m.filt = l.filt := by rw [h.eq]

theorem Leaf.filt_flagEvent (l : Leaf) (f : FieldRef) (hx : x < 512) : (l.flagEvent f x).filt = l.filt := (l.irq_flagEvent f hx).filt

theorem Leaf.filt_swWrite (l : Leaf) (a w : Nat) : (l.swWrite a w).filt = l.filt := by unfold Leaf.swWrite; split <;> rfl

/-- A field of one bit, as a truth value, is that bit. -/
theorem bitsOf_bne_zero (w n : Nat) : (bitsOf w n n != 0) = bitOf w n := by
  have hn : n + 1 - n = 1 := by omega
  simp [bitOf, bitsOf, hn, Nat.testBit, Nat.and_comm 1]

theorem Leaf.bitOf_rd (l : Leaf) (a n : Nat) : bitOf (l.rd a) n = l.bit ⟨a, n, n⟩ := (bitsOf_bne_zero (l.rd a) n).symm

/-! ## The registers of a channel -/

theorem filtCfg_block (hc : c < 32) : Reg.FILT_CH_CFG c / 2 ^ 20 = 8 := show (0x801000 + 0x100 * c) / 2 ^ 20 = 8 by omega

theorem filtCfg_between (hc : c < 32) : 0x500000 ≤ Reg.FILT_CH_CFG c ∧ Reg.FILT_CH_CFG c < 0x1C00000 :=
  show 0x500000 ≤ 0x801000 + 0x100 * c ∧ 0x801000 + 0x100 * c < 0x1C00000 by omega

theorem filtStat_between (hc : c < 32) : 0x500000 ≤ Reg.FILT_CH_STAT c ∧ Reg.FILT_CH_STAT c < 0x1C00000 :=
  show 0x500000 ≤ 0x801020 + 0x100 * c ∧ 0x801020 + 0x100 * c < 0x1C00000 by omega

theorem filtScnt_between (hc : c < 32) : 0x500000 ≤ Reg.FILT_CH_SCNT c ∧ Reg.FILT_CH_SCNT c < 0x1C00000 :=
  show 0x500000 ≤ 0x801030 + 0x100 * c ∧ 0x801030 + 0x100 * c < 0x1C00000 by omega

/-- A write of FILT_CHc_CFG of a channel of the chain (Table 9.3). -/
theorem Leaf.writeReg_filtCfg (l : Leaf) (w : Nat) (hc : c < 32) : l.writeReg (Reg.FILT_CH_CFG c) w = l.writeChCfg c w := by
  have hblk : l.writeReg (Reg.FILT_CH_CFG c) w = l.writeFiltBlk (Reg.FILT_CH_CFG c) w := by
    unfold Leaf.writeReg
    rw [filtCfg_block hc]
    rfl
  have hix : (0x801000 + 0x100 * c - 0x801000) / 0x100 = c := by omega
  have hofs : (0x801000 + 0x100 * c) % 0x100 = 0 := by omega
  rw [hblk]
  unfold Leaf.writeFiltBlk
  rw [if_neg (show 0x801000 + 0x100 * c ≠ 0x800000 by omega),
    if_pos (show 0x801000 ≤ 0x801000 + 0x100 * c ∧ 0x801000 + 0x100 * c < 0x803000 by omega)]
  simp only [hix, hofs, if_true]

/-- FILT_CHc_CFG is element c of the ninth row of the block's table. -/
theorem regAt_filtCfg (hc : c < 32) : regAt (Reg.FILT_CH_CFG c) = some (filtRows0[8], c) := by
  interval_cases c <;> rfl

/-- Every field of FILT_CHc_CFG is writable. -/
theorem Leaf.swWrite_filtCfg (l : Leaf) (w : Nat) (hc : c < 32) : l.swWrite (Reg.FILT_CH_CFG c) w = l.wr (Reg.FILT_CH_CFG c)
    (setBits (setBits (setBits (setBits (setBits (setBits (setBits (l.rd (Reg.FILT_CH_CFG c)) 31 31 (bitsOf w 31 31)) 30 30 (bitsOf w 30 30))
      29 28 (bitsOf w 29 28)) 25 24 (bitsOf w 25 24)) 20 20 (bitsOf w 20 20)) 19 19 (bitsOf w 19 19)) 11 0 (bitsOf w 11 0)) := by
  unfold Leaf.swWrite
  rw [regAt_filtCfg hc]
  rfl

theorem Leaf.enable_swWrite_filtCfg (l : Leaf) (w : Nat) (hc : c < 32) :
    (l.swWrite (Reg.FILT_CH_CFG c) w).get (Fld.FILT_CH_CFG_ENABLE c) = bitsOf w 31 31 := by
  have hlow (v hi lo x : Nat) (h : lo ≤ hi) (hd : hi < 31) : bitsOf (setBits v hi lo x) 31 31 = bitsOf v 31 31 :=
    bitsOf_setBits_disjoint _ _ _ _ _ _ h (.inl hd)
  unfold Leaf.get
  rw [Leaf.swWrite_filtCfg l w hc, Leaf.rd_wr_same, bitsOf_mod _ _ _ (by simp)]
  simp only [hlow, Nat.reduceLeDiff, Nat.reduceLT, le_refl]
  rw [bitsOf_setBits_same _ _ _ _ le_rfl]
  exact Nat.mod_eq_of_lt (bitsOf_lt w 31 31)

/-! ## A channel cleared (R253) -/

theorem filtStat_ne_scnt (c : Nat) : Reg.FILT_CH_STAT c ≠ Reg.FILT_CH_SCNT c := show 0x801020 + 0x100 * c ≠ 0x801030 + 0x100 * c by omega

theorem filtStat_ne_cfg (c : Nat) : Reg.FILT_CH_STAT c ≠ Reg.FILT_CH_CFG c := show 0x801020 + 0x100 * c ≠ 0x801000 + 0x100 * c by omega

theorem filtScnt_ne_cfg (c : Nat) : Reg.FILT_CH_SCNT c ≠ Reg.FILT_CH_CFG c := show 0x801030 + 0x100 * c ≠ 0x801000 + 0x100 * c by omega

theorem Leaf.rd_clearCh (l : Leaf) (hs : Reg.FILT_CH_STAT c ≠ a) (hn : Reg.FILT_CH_SCNT c ≠ a) : (l.clearCh c).rd a = l.rd a := by
  unfold Leaf.clearCh Leaf.clearSettled
  rw [Leaf.rd_setCh, Leaf.rd_putB_other _ _ _ hs, Leaf.rd_putB_other _ _ _ hs, Leaf.rd_putB_other _ _ _ hs, Leaf.rd_wr_other _ _ hn,
    Leaf.rd_putB_other _ _ _ hs]

theorem Leaf.scnt_clearCh (l : Leaf) (c : Nat) : (l.clearCh c).rd (Reg.FILT_CH_SCNT c) = 0 := by
  have hne := filtStat_ne_scnt c
  unfold Leaf.clearCh Leaf.clearSettled
  rw [Leaf.rd_setCh, Leaf.rd_putB_other _ _ _ hne, Leaf.rd_putB_other _ _ _ hne, Leaf.rd_putB_other _ _ _ hne, Leaf.rd_wr_same, Nat.zero_mod]

theorem Leaf.settled_clearSettled (l : Leaf) (c : Nat) : (l.clearSettled c).bit (Fld.FILT_CH_STAT_SETTLED c) = false := by
  unfold Leaf.clearSettled
  rw [Leaf.bit_putB_disjoint _ (Fld.FILT_CH_STAT_ABOVE1 c) (Fld.FILT_CH_STAT_SETTLED c) _ rfl (by simp) (by simp) (by simp),
    Leaf.bit_putB_disjoint _ (Fld.FILT_CH_STAT_ABOVE0 c) (Fld.FILT_CH_STAT_SETTLED c) _ rfl (by simp) (by simp) (by simp),
    Leaf.bit_congr (Leaf.rd_wr_other _ _ (filtStat_ne_scnt c).symm), Leaf.bit_putB_same _ _ _ (by simp) (by simp)]

theorem Leaf.bit_setCh (l : Leaf) (c : Nat) (y : FiltCh) (f : FieldRef) : (l.setCh c y).bit f = l.bit f := rfl

theorem Leaf.settled_clearCh (l : Leaf) (c : Nat) : (l.clearCh c).bit (Fld.FILT_CH_STAT_SETTLED c) = false := by
  unfold Leaf.clearCh
  rw [Leaf.bit_setCh,
    Leaf.bit_putB_disjoint _ (Fld.FILT_CH_STAT_COARSE_VALID c) (Fld.FILT_CH_STAT_SETTLED c) _ rfl (by simp) (by simp) (by simp),
    Leaf.settled_clearSettled]

theorem Leaf.coarseValid_clearCh (l : Leaf) (c : Nat) : (l.clearCh c).bit (Fld.FILT_CH_STAT_COARSE_VALID c) = false := by
  unfold Leaf.clearCh
  rw [Leaf.bit_setCh, Leaf.bit_putB_same _ _ _ (by simp) (by simp)]

theorem Leaf.ch_setCh (y : FiltCh) (h : c < l.filt.chs.length) : (l.setCh c y).ch c = y := getD_setAt_same y {} h

theorem Leaf.chs_clearCh (l : Leaf) (c : Nat) : (l.clearCh c).filt.chs
    = setAt l.filt.chs c { l.ch c with sos := List.replicate 8 {}, lines := [], coarse := [], coarseN := 0 } := rfl

theorem Leaf.ch_clearCh (h : c < l.filt.chs.length) :
    (l.clearCh c).ch c = { l.ch c with sos := List.replicate 8 {}, lines := [], coarse := [], coarseN := 0 } := by
  rw [Leaf.ch, Leaf.chs_clearCh, getD_setAt_same _ _ h]

/-! ## ENABLE of a channel (R248, R253, R258) -/

/-- A channel that goes on: CFG as written, the channel cleared, its preset taken and its window emptied. -/
def Leaf.channelOn (c w : Nat) (l : Leaf) : Leaf :=
  let m := (l.swWrite (Reg.FILT_CH_CFG c) w).clearCh c
  m.setCh c { m.ch c with preset := bitsOf w 25 24, slot := {} }

/-- ENABLE of a channel that is off, with a legal program and no object or a legal one. -/
theorem Leaf.writeChCfg_of_legal (hoff : l.bit (Fld.FILT_CH_CFG_ENABLE c) = false) (hw : bitOf w 31 = true)
    (hmp : mpBad (l.rd (Reg.FILT_CH_MPPROG c)) (bitsOf w 29 28) = false) (ho : bitsOf w 11 0 = 0xFFF ∨ l.slotObjOk (bitsOf w 11 0) = true) :
    l.writeChCfg c w = l.channelOn c w := by
  have hobj : (bitsOf w 11 0 != 0xFFF && !l.slotObjOk (bitsOf w 11 0)) = false := by rcases ho with ho | ho <;> simp [ho]
  rw [← Leaf.bitOf_rd] at hoff
  unfold Leaf.writeChCfg Leaf.filtEnable
  simp only [hoff, hw, hmp, hobj, Bool.or_self, Bool.false_eq_true, if_false, if_true]
  rfl

/-- ENABLE of a channel that is off, with an illegal program: the other fields are written and CFG_REFUSED is set. -/
theorem Leaf.writeChCfg_of_badProgram (hoff : l.bit (Fld.FILT_CH_CFG_ENABLE c) = false) (hw : bitOf w 31 = true)
    (hmp : mpBad (l.rd (Reg.FILT_CH_MPPROG c)) (bitsOf w 29 28) = true) :
    l.writeChCfg c w = (l.swWrite (Reg.FILT_CH_CFG c) (w % 2 ^ 31)).flagEvent Fld.FILT_STAT_CFG_REFUSED 0x0AC := by
  rw [← Leaf.bitOf_rd] at hoff
  unfold Leaf.writeChCfg Leaf.filtEnable
  simp only [hoff, hw, hmp, Bool.true_or, Bool.false_eq_true, if_false, if_true]

theorem Leaf.rd_channelOn (l : Leaf) (c w a : Nat) : (l.channelOn c w).rd a = ((l.swWrite (Reg.FILT_CH_CFG c) w).clearCh c).rd a :=
  Leaf.rd_setCh ..

theorem Leaf.enable_channelOn (l : Leaf) (hc : c < 32) (hw : bitsOf w 31 31 = 1) :
    (l.channelOn c w).bit (Fld.FILT_CH_CFG_ENABLE c) = true := by
  rw [Leaf.bit_congr (Leaf.rd_channelOn ..), Leaf.bit_congr (Leaf.rd_clearCh _ (filtStat_ne_cfg c) (filtScnt_ne_cfg c)), Leaf.bit,
    Leaf.enable_swWrite_filtCfg _ _ hc, hw]
  rfl

theorem Leaf.ch_channelOn (w : Nat) (h : c < l.filt.chs.length) : (l.channelOn c w).ch c
    = { l.ch c with sos := List.replicate 8 {}, lines := [], coarse := [], coarseN := 0, preset := bitsOf w 25 24, slot := {} } := by
  have hsw : (l.swWrite (Reg.FILT_CH_CFG c) w).filt.chs.length = l.filt.chs.length := by rw [Leaf.filt_swWrite]
  have hcl : ((l.swWrite (Reg.FILT_CH_CFG c) w).clearCh c).filt.chs.length = l.filt.chs.length := by
    rw [Leaf.chs_clearCh, length_setAt, hsw]
  unfold Leaf.channelOn
  rw [Leaf.ch_setCh _ (hcl ▸ h), Leaf.ch_clearCh (hsw ▸ h), Leaf.ch, Leaf.filt_swWrite]
  rfl

/-! ## FILT_SYNC_CTRL (R255) -/

theorem Leaf.writeReg_syncCtrl (l : Leaf) (w : Nat) : l.writeReg Reg.FILT_SYNC_CTRL w = l.writeSyncCtrl w := rfl

theorem Leaf.writeSyncCtrl_arm (h30 : bitOf w 30 = false) (h31 : bitOf w 31 = true) :
    l.writeSyncCtrl w = (l.swWrite Reg.FILT_SYNC_CTRL w).syncArm := by
  simp only [Leaf.writeSyncCtrl, h30, h31, Bool.false_eq_true, if_false, if_true]

/-- CANCEL comes last, so a write that sets it cancels, whatever else it sets (log entry 37). -/
theorem Leaf.writeSyncCtrl_cancel (h30 : bitOf w 30 = true) : ∃ m : Leaf, l.writeSyncCtrl w = m.syncCancel := ⟨_, if_pos h30⟩

/-- ARM in TICKING, of a tick above the current one. -/
theorem Leaf.syncArm_of_future (ht : l.ticking = true) (h : l.tickNum < l.rd64 Reg.FILT_SYNC_TICK_LO Reg.FILT_SYNC_TICK_HI) :
    l.syncArm = ({ l with filt := { l.filt with armed := some (l.rd64 Reg.FILT_SYNC_TICK_LO Reg.FILT_SYNC_TICK_HI) } }).putB
      Fld.FILT_SYNC_CTRL_PENDING true := by
  simp only [Leaf.syncArm, ht, if_true, if_neg (Nat.not_le.mpr h)]

/-- ARM in TICKING, of the current tick or an earlier one. -/
theorem Leaf.syncArm_of_past (ht : l.ticking = true) (h : l.rd64 Reg.FILT_SYNC_TICK_LO Reg.FILT_SYNC_TICK_HI ≤ l.tickNum) :
    l.syncArm = l.flagEvent Fld.FILT_SYNC_CTRL_REFUSED 0x0AB := by
  simp only [Leaf.syncArm, ht, if_true, if_pos h]

theorem Leaf.rd64_congr {lo hi : Nat} (el : k.rd lo = l.rd lo) (eh : k.rd hi = l.rd hi) : k.rd64 lo hi = l.rd64 lo hi := by
  unfold Leaf.rd64; rw [el, eh]

theorem Leaf.ticking_swWrite_syncCtrl (l : Leaf) (w : Nat) : (l.swWrite Reg.FILT_SYNC_CTRL w).ticking = l.ticking :=
  congrArg (· == 4) (Leaf.get_congr (f := Fld.LEAF_STATUS_STATE) (Leaf.rd_swWrite_other _ _ (by decide)))

theorem Leaf.tickNum_swWrite_syncCtrl (l : Leaf) (w : Nat) : (l.swWrite Reg.FILT_SYNC_CTRL w).tickNum = l.tickNum :=
  Leaf.rd64_congr (Leaf.rd_swWrite_other _ _ (by decide)) (Leaf.rd_swWrite_other _ _ (by decide))

theorem Leaf.syncTick_swWrite_syncCtrl (l : Leaf) (w : Nat) : (l.swWrite Reg.FILT_SYNC_CTRL w).rd64 Reg.FILT_SYNC_TICK_LO
    Reg.FILT_SYNC_TICK_HI = l.rd64 Reg.FILT_SYNC_TICK_LO Reg.FILT_SYNC_TICK_HI :=
  Leaf.rd64_congr (Leaf.rd_swWrite_other _ _ (by decide)) (Leaf.rd_swWrite_other _ _ (by decide))

theorem Leaf.pending_syncCancel (l : Leaf) : l.syncCancel.bit Fld.FILT_SYNC_CTRL_PENDING = false :=
  Leaf.bit_putB_same _ _ _ (by decide) (by decide)

theorem Leaf.armed_syncCancel (l : Leaf) : l.syncCancel.filt.armed = none := rfl

/-! ## Phase resets (R254, R255) -/

/-- The channels given, and the instant and number of the reset shown, before the event. -/
def Leaf.phaseTaken (chs : List FiltCh) (t : Nat) (l : Leaf) : Leaf :=
  ((({ l with filt := { l.filt with chs := chs, lastReset := some t } }.wr64 Reg.FILT_SYNC_LAST_LO Reg.FILT_SYNC_LAST_HI (t / 65536)).put
    Fld.FILT_SYNC_LAST_FRAC_VT (t % 65536)).inc Fld.FILT_SYNC_CNT_COUNT)

/-- A phase reset joins the one of the same local count, or is taken with its event. -/
theorem Leaf.phaseReset_cases (l : Leaf) (t : Nat) :
    l.phaseReset t = l ∨ ∃ chs, l.phaseReset t = (l.phaseTaken chs t).raise 0x0AA :=
  (ite_eq_or_eq _ _ _).imp_right fun e => ⟨_, e⟩

/-- A phase reset leaves what is armed. -/
theorem Leaf.armed_phaseReset (l : Leaf) (t : Nat) : (l.phaseReset t).filt.armed = l.filt.armed := by
  rcases l.phaseReset_cases t with e | ⟨chs, e⟩
  · rw [e]
  · rw [e, (Leaf.irq_raise _ 0x0AA (by decide)).filt]; rfl

/-- FILT_SYNC_CTRL is not among the registers that a phase reset writes. -/
theorem Leaf.syncCtrl_phaseReset (l : Leaf) (t : Nat) : (l.phaseReset t).rd Reg.FILT_SYNC_CTRL = l.rd Reg.FILT_SYNC_CTRL := by
  rcases l.phaseReset_cases t with e | ⟨chs, e⟩
  · rw [e]
  · rw [e, (Leaf.irq_raise _ 0x0AA (by decide)).regs _ (by decide)]
    unfold Leaf.phaseTaken Leaf.inc Leaf.wr64
    rw [Leaf.rd_put_other _ _ _ (by decide), Leaf.rd_put_other _ _ _ (by decide), Leaf.rd_wr_other _ _ (by decide),
      Leaf.rd_wr_other _ _ (by decide)]
    rfl

/-- The boundary of the armed tick makes the phase reset and disarms. -/
theorem Leaf.syncTick_of_due (h : l.filt.armed = some t) (hdue : t * l.rd Reg.TICK_PERIOD ≤ l.nowNs) :
    l.syncTick = l.syncCancel.phaseReset (t * l.rd Reg.TICK_PERIOD * 65536) := by
  simp only [Leaf.syncTick, h, if_pos hdue]

theorem Leaf.syncTick_of_early (h : l.filt.armed = some t) (hearly : l.nowNs < t * l.rd Reg.TICK_PERIOD) : l.syncTick = l := by
  simp only [Leaf.syncTick, h, if_neg (Nat.not_le.mpr hearly)]

/-! ## The FILT_SYNC edge (R29, R255) -/

theorem Leaf.filtSyncEdge_of_off (active : Bool) (c8 : Nat) (h : l.bit Fld.FILT_SYNC_CTRL_PIN_EN = false) : l.filtSyncEdge active c8 = l :=
  if_neg (Bool.eq_false_iff.mp h)

/-- The item that an edge at c8 becomes. -/
def Leaf.edgeItem (c8 : Nat) (l : Leaf) : Item :=
  { src := 0x22, seq := (alGet l.sns.stampSeq 0x22).getD 0, vt := l.vt8 c8, c8 := c8, body := .edge }

/-- While the checker is active it waits among the items without a stamp. -/
theorem Leaf.pend_filtSyncEdge (c8 : Nat) (h : l.bit Fld.FILT_SYNC_CTRL_PIN_EN = true) :
    (l.filtSyncEdge true c8).sns.pend = l.sns.pend ++ [l.edgeItem c8] := by
  rw [Leaf.filtSyncEdge, if_pos h]
  rfl

/-! ## The commands -/

theorem exec_filtChannelEnable (h : s.ready i = true) (hc : c < 32) (w : Word) :
    exec (.filtChannelEnable i c w) s = .next (s.setLeaf i ((s.leaf i).writeChCfg c (setBits w.toNat 31 31 1))).settle := by
  refine congrArg State.done ((State.indexed_of_lt _ hc).trans ?_)
  unfold State.fieldWrite
  rw [State.regWrite_above_tick h _ (show (0x801000 + 0x100 * c) % 4 = 0 by omega) (by omega), Leaf.writeReg_filtCfg _ _ hc]
  rfl

/-- A write of FILT_SYNC_CTRL with one field fixed. -/
theorem State.fieldWrite_syncCtrl (h : s.ready i = true) (hf : f.addr = Reg.FILT_SYNC_CTRL) (v : Nat) (w : Word) :
    s.fieldWrite i f v w = s.setLeaf i ((s.leaf i).writeSyncCtrl (wordWith w f v)) := by
  unfold State.fieldWrite
  rw [hf, State.regWrite_above_tick h _ (by decide) (by decide), Leaf.writeReg_syncCtrl]

theorem exec_filtSyncArm (h : s.ready i = true) (w : Word) :
    exec (.filtSyncArm i w) s = .next (s.setLeaf i ((s.leaf i).writeSyncCtrl (setBits w.toNat 31 31 1))).settle :=
  congrArg State.done (State.fieldWrite_syncCtrl h rfl 1 w)

theorem exec_filtSyncCancel (h : s.ready i = true) (w : Word) :
    exec (.filtSyncCancel i w) s = .next (s.setLeaf i ((s.leaf i).writeSyncCtrl (setBits w.toNat 30 30 1))).settle :=
  congrArg State.done (State.fieldWrite_syncCtrl h rfl 1 w)

/-- An event of the blocks of a leaf that runs. -/
theorem State.runsEvent_of_ready (h : s.ready i = true) (n : Nat) (g : Leaf → Leaf) :
    s.event i n Leaf.runs g = s.setLeaf i (g ((s.leaf i).adv n)) :=
  State.event_of_ok ((Leaf.runs_adv n).trans (Leaf.runs_of_ready h))

theorem exec_filtSyncEdge (h : s.ready i = true) (c8 : Nat) : exec (.filtSyncEdge i c8) s
    = .next (s.setLeaf i (((s.leaf i).adv (c8 / 8)).filtSyncEdge s.hinge.active c8)).settle :=
  congrArg State.done (State.runsEvent_of_ready h _ _)

theorem exec_filtSyncTickReset (h : s.ready i = true) (n : Nat) :
    exec (.filtSyncTickReset i n) s = .next (s.setLeaf i ((s.leaf i).adv n).syncTick).settle :=
  congrArg State.done (State.runsEvent_of_ready h _ _)

end Sys2Proof.Machine
end

section
/-!
PROOFS. The ego-motion unit's commands (R260, R266): what a propagation that is due leaves of its window, of a pending RESET and of RUNNING,
and what a write of EGO_CTRL leaves of RESET and ENABLE.
-/
namespace Sys2Proof.Machine

variable {s : State} {i : LeafId} {l m k : Leaf} {a n w : Nat}

/-! ## The next window and a pending RESET through the steps of a propagation -/

/-- What orders the unit's propagations: the start of the next window and whether a RESET is pending. -/
def Leaf.egoOrder (l : Leaf) : Option Nat × Bool := (l.ego.nextWin, l.ego.resetReq)

/-- What both branches of a step have, the step has. -/
theorem Leaf.ite_both {α : Type} (g : Leaf → α) {p : Prop} [Decidable p] {v : α} (hm : g m = v) (hk : g k = v) :
    g (if p then m else k) = v := by
  split <;> assumption

/-- A step that a condition takes or leaves out keeps what the step keeps. -/
theorem Leaf.ite_keeps {α : Type} (g : Leaf → α) (p : Prop) [Decidable p] (h : g m = g l) : g (if p then m else l) = g l :=
  Leaf.ite_both g h rfl

theorem Leaf.IrqOnly.egoOrder (h : l.IrqOnly m) : m.egoOrder = l.egoOrder := by rw [h.eq]; rfl

theorem Leaf.egoOrder_egoIntegrate (l : Leaf) (ω f : List F64) (dt : F64) : (l.egoIntegrate ω f dt).egoOrder = l.egoOrder := rfl

theorem Leaf.egoOrder_egoSample (l : Leaf) (x : ImuSet) : (l.egoSample x).egoOrder = l.egoOrder := by
  unfold Leaf.egoSample
  split <;> rfl

theorem Leaf.egoOrder_egoWindow (l : Leaf) (lo hi : Nat) : (l.egoWindow lo hi).egoOrder = l.egoOrder := by
  have hsamples (sets xs : List ImuSet) :
      (xs.foldl Leaf.egoSample { l with ego := { l.ego with sets := sets } }).egoOrder = l.egoOrder :=
    Leaf.foldl_congr Leaf.egoOrder _ xs _ fun x _ m => m.egoOrder_egoSample x
  have hflag (m : Leaf) : (((m.inc Fld.EGO_NOIMU_CNT_COUNT).bump 9 1).flagEvent Fld.EGO_STAT_NO_IMU 0x0A6).egoOrder = m.egoOrder :=
    (Leaf.irq_flagEvent _ _ (by decide)).egoOrder
  unfold Leaf.egoWindow
  dsimp only
  split
  · exact hsamples ..
  · split
    · exact (hflag _).trans (hsamples ..)
    · exact (Leaf.egoOrder_egoIntegrate ..).trans ((hflag _).trans (hsamples ..))

theorem Leaf.egoOrder_egoWheels (l : Leaf) (t1 : Nat) : (l.egoWheels t1).egoOrder = l.egoOrder := by
  have hslip := (Leaf.irq_flagEvent (l.inc Fld.EGO_SLIP_CNT_COUNT) Fld.EGO_STAT_SLIP (x := 0x0A4) (by decide)).egoOrder
  unfold Leaf.egoWheels
  split
  · rfl
  · exact Leaf.ite_both Leaf.egoOrder hslip rfl

theorem Leaf.egoOrder_egoCorrect (l : Leaf) (tick : Nat) : (l.egoCorrect tick).egoOrder = l.egoOrder := by
  unfold Leaf.egoCorrect
  dsimp only
  split
  · rfl
  · split
    · rfl
    · split
      · rfl
      · split <;> rfl

theorem Leaf.egoOrder_foldl_setF64 (l : Leaf) (lo hi : Nat → Nat) (v : Nat → F64) (xs : List Nat) :
    (xs.foldl (fun m j => m.setF64 (lo j) (hi j) (v j)) l).egoOrder = l.egoOrder :=
  Leaf.foldl_congr Leaf.egoOrder _ xs l fun _ _ _ => rfl

theorem Leaf.egoOrder_showNom (l : Leaf) : l.showNom.egoOrder = l.egoOrder := l.egoOrder_foldl_setF64 ..

/-- The registers that show a prediction for tick k (R265). -/
def Leaf.predictionShown (ps : List F64) (k : Nat) (l : Leaf) : Leaf :=
  ((List.range 7).foldl (fun m j => m.setF64 (Reg.EGO_PRED j 0) (Reg.EGO_PRED j 1) (vGet ps j)) l).wr64 (Reg.EGO_PRED_TICK 0)
    (Reg.EGO_PRED_TICK 1) k

/-- Besides these registers a prediction changes the last tick predicted and the speculation block alone. -/
theorem Leaf.egoPredict_eq (l : Leaf) (tick bound : Nat) : ∃ ps x, l.egoPredict tick bound
    = { l.predictionShown ps tick with ego := { (l.predictionShown ps tick).ego with pred := some tick }, spec := x } := ⟨_, _, rfl⟩

theorem Leaf.egoOrder_wr64 (l : Leaf) (lo hi v : Nat) : (l.wr64 lo hi v).egoOrder = l.egoOrder := rfl

theorem Leaf.egoOrder_predictionShown (l : Leaf) (ps : List F64) (tick : Nat) : (l.predictionShown ps tick).egoOrder = l.egoOrder := by
  unfold Leaf.predictionShown
  rw [Leaf.egoOrder_wr64, Leaf.egoOrder_foldl_setF64]

theorem Leaf.egoOrder_egoPredict (l : Leaf) (tick bound : Nat) : (l.egoPredict tick bound).egoOrder = l.egoOrder := by
  have hkeep (m : Leaf) (p : Option Nat) (x : SpecState) :
      { m with ego := { m.ego with pred := p }, spec := x }.egoOrder = m.egoOrder := rfl
  obtain ⟨ps, x, e⟩ := l.egoPredict_eq tick bound
  rw [e, hkeep, Leaf.egoOrder_predictionShown]

theorem Leaf.egoOrder_egoClose (l : Leaf) (tick bound : Nat) : (l.egoClose tick bound).egoOrder = l.egoOrder := rfl

/-- The window of a propagation taken, with a pending RESET. -/
def Leaf.egoTaken (hi : Nat) (l : Leaf) : Leaf :=
  let m := { l with ego := { l.ego with nextWin := some hi } }
  if m.ego.resetReq then m.egoLoad else m

theorem Leaf.egoOrder_egoTaken (l : Leaf) (hi : Nat) : (l.egoTaken hi).egoOrder = (some hi, false) := by
  unfold Leaf.egoTaken
  dsimp only
  split
  · rfl
  · exact congrArg (Prod.mk _) (Bool.eq_false_iff.mpr ‹_›)

/-! ## EGO_STAT through the end of a propagation -/

theorem Leaf.rd_foldl_setF64 (l : Leaf) {lo hi : Nat → Nat} (v : Nat → F64) (xs : List Nat)
    (hlo : ∀ j, lo j ≠ a) (hhi : ∀ j, hi j ≠ a) : (xs.foldl (fun m j => m.setF64 (lo j) (hi j) (v j)) l).rd a
      = l.rd a :=
  Leaf.foldl_congr (·.rd a) _ xs l fun j _ _ => (Leaf.rd_wr_other _ _ (hhi j)).trans (Leaf.rd_wr_other _ _ (hlo j))

theorem egoNom_ne_stat (i j : Nat) : Reg.EGO_NOM i j ≠ Reg.EGO_STAT := show 0x900200 + 0x8 * i + 0x4 * j ≠ 0x90001C by omega

theorem egoPred_ne_stat (i j : Nat) : Reg.EGO_PRED i j ≠ Reg.EGO_STAT := show 0x900280 + 0x8 * i + 0x4 * j ≠ 0x90001C by omega

theorem Leaf.stat_showNom (l : Leaf) : l.showNom.rd Reg.EGO_STAT = l.rd Reg.EGO_STAT :=
  l.rd_foldl_setF64 _ _ (egoNom_ne_stat · 0) (egoNom_ne_stat · 1)

theorem Leaf.stat_predictionShown (l : Leaf) (ps : List F64) (tick : Nat) :
    (l.predictionShown ps tick).rd Reg.EGO_STAT = l.rd Reg.EGO_STAT := by
  unfold Leaf.predictionShown Leaf.wr64
  rw [Leaf.rd_wr_other _ _ (by decide), Leaf.rd_wr_other _ _ (by decide)]
  exact l.rd_foldl_setF64 _ _ (egoPred_ne_stat · 0) (egoPred_ne_stat · 1)

theorem Leaf.stat_egoPredict (l : Leaf) (tick bound : Nat) : (l.egoPredict tick bound).rd Reg.EGO_STAT = l.rd Reg.EGO_STAT := by
  obtain ⟨ps, x, e⟩ := l.egoPredict_eq tick bound
  have hregs : (l.egoPredict tick bound).regs = (l.predictionShown ps tick).regs := by rw [e]
  rw [← l.stat_predictionShown ps tick]
  unfold Leaf.rd
  rw [hregs]

theorem Leaf.stat_egoClose (l : Leaf) (tick bound : Nat) : (l.egoClose tick bound).rd Reg.EGO_STAT = l.rd Reg.EGO_STAT := rfl

/-! ## A propagation (R260, R266) -/

/-- A propagation is due at its count. -/
structure Leaf.EgoDue (l : Leaf) : Prop where
  runs : l.egoRuns = true
  held : l.egoNext + l.subPeriod + 1000 * l.holdUs ≤ l.nowNs

theorem Leaf.EgoDue.not_skipped (h : l.EgoDue) :
    ¬ (!l.egoRuns || decide (l.nowNs < l.egoNext + l.subPeriod + 1000 * l.holdUs)) = true := by
  rw [h.runs, decide_eq_false (Nat.not_lt.mpr h.held)]
  decide

/-- The part of a propagation up to RUNNING: the window taken, a correction at the start of a tick, the samples and the wheels. -/
def Leaf.egoAdvanced (l : Leaf) : Leaf :=
  let lo := l.egoNext
  let hi := lo + l.subPeriod
  let per := max 1 (l.rd Reg.TICK_PERIOD)
  let m := if lo % per / l.subPeriod = 0 then (l.egoTaken hi).egoCorrect (lo / per) else l.egoTaken hi
  ((m.egoWindow lo hi).egoWheels hi).putB Fld.EGO_STAT_RUNNING true

theorem Leaf.egoOrder_putB (l : Leaf) (f : FieldRef) (b : Bool) : (l.putB f b).egoOrder = l.egoOrder := rfl

theorem Leaf.egoOrder_egoAdvanced (l : Leaf) : l.egoAdvanced.egoOrder = (some (l.egoNext + l.subPeriod), false) := by
  unfold Leaf.egoAdvanced
  dsimp only
  rw [Leaf.egoOrder_putB, Leaf.egoOrder_egoWheels, Leaf.egoOrder_egoWindow, Leaf.ite_keeps Leaf.egoOrder _ (Leaf.egoOrder_egoCorrect ..),
    Leaf.egoOrder_egoTaken]

theorem Leaf.running_egoAdvanced (l : Leaf) : l.egoAdvanced.bit Fld.EGO_STAT_RUNNING = true :=
  Leaf.bit_putB_same _ _ _ (by decide) (by decide)

/-- After RUNNING come at most a prediction and a hand-off, and the nominal state is shown. -/
theorem Leaf.EgoDue.of_egoAdvanced {α : Type} (g : Leaf → α) (h : l.EgoDue) (hpred : ∀ m t b, g (Leaf.egoPredict t b m) = g m)
    (hclose : ∀ m t b, g (Leaf.egoClose t b m) = g m) (hnom : ∀ m, g m.showNom = g m) : g l.egoPropagate = g l.egoAdvanced := by
  unfold Leaf.egoPropagate
  exact (congrArg g (if_neg h.not_skipped)).trans ((hnom _).trans
    ((Leaf.ite_keeps g _ (hclose ..)).trans (Leaf.ite_keeps g _ (hpred ..))))

/-- It closes its window, and no RESET is pending after it. -/
theorem Leaf.EgoDue.egoOrder (h : l.EgoDue) : l.egoPropagate.egoOrder = (some (l.egoNext + l.subPeriod), false) :=
  (h.of_egoAdvanced Leaf.egoOrder Leaf.egoOrder_egoPredict Leaf.egoOrder_egoClose Leaf.egoOrder_showNom).trans l.egoOrder_egoAdvanced

/-- The unit shows RUNNING after it. -/
theorem Leaf.EgoDue.running (h : l.EgoDue) : l.egoPropagate.bit Fld.EGO_STAT_RUNNING = true :=
  (Leaf.bit_congr (h.of_egoAdvanced (·.rd Reg.EGO_STAT) Leaf.stat_egoPredict Leaf.stat_egoClose Leaf.stat_showNom)).trans
    l.running_egoAdvanced

theorem Leaf.egoPropagate_of_stopped (h : l.egoRuns = false) : l.egoPropagate = l := by
  unfold Leaf.egoPropagate
  rw [h]
  rfl

/-- The gate of speculation changes the speculation block alone. -/
theorem Leaf.judgePose_eq (l : Leaf) : ∃ x, l.judgePose = { l with spec := x } := by
  unfold Leaf.judgePose
  split
  · exact ⟨l.spec, rfl⟩
  · exact (ite_eq_or_eq _ _ _).elim (fun e => ⟨l.spec, e⟩) (fun e => ⟨_, e⟩)

/-- With no confirmed pose there is nothing to judge. -/
theorem Leaf.judgePose_of_none (h : l.spec.conf = none) : l.judgePose = l := by
  unfold Leaf.judgePose
  rw [h]

theorem Leaf.ego_propagate (l : Leaf) : l.propagate.ego = l.egoPropagate.ego := by
  obtain ⟨x, e⟩ := l.egoPropagate.judgePose_eq
  rw [Leaf.propagate, e]

theorem Leaf.bit_propagate (l : Leaf) (f : FieldRef) : l.propagate.bit f = l.egoPropagate.bit f := by
  obtain ⟨x, e⟩ := l.egoPropagate.judgePose_eq
  rw [Leaf.propagate, e]
  rfl

theorem Leaf.propagate_of_stopped (h : l.egoRuns = false) (hc : l.spec.conf = none) : l.propagate = l := by
  rw [Leaf.propagate, Leaf.egoPropagate_of_stopped h, Leaf.judgePose_of_none hc]

theorem Leaf.subPeriod_adv (l : Leaf) (n : Nat) : (l.adv n).subPeriod = l.subPeriod := Leaf.adv_congr Leaf.subPeriod n fun _ => rfl

theorem Leaf.holdUs_adv (l : Leaf) (n : Nat) : (l.adv n).holdUs = l.holdUs := Leaf.adv_congr Leaf.holdUs n fun _ => rfl

theorem Leaf.spec_adv (l : Leaf) (n : Nat) : (l.adv n).spec = l.spec := Leaf.adv_congr Leaf.spec n fun _ => rfl

/-! ## EGO_CTRL (R266) -/

/-- ENABLE is the one field of EGO_CTRL that is kept. -/
theorem Leaf.swWrite_egoCtrl (l : Leaf) (w : Nat) :
    l.swWrite Reg.EGO_CTRL w = l.wr Reg.EGO_CTRL (setBits (l.rd Reg.EGO_CTRL) 0 0 (bitsOf w 0 0)) := rfl

theorem Leaf.enable_swWrite_egoCtrl (l : Leaf) (w : Nat) : (l.swWrite Reg.EGO_CTRL w).get Fld.EGO_CTRL_ENABLE = bitsOf w 0 0 := by
  unfold Leaf.get
  rw [Leaf.swWrite_egoCtrl, Leaf.rd_wr_same, bitsOf_mod _ _ _ (by decide), bitsOf_setBits_same _ _ _ _ le_rfl]
  exact Nat.mod_eq_of_lt (bitsOf_lt w 0 0)

/-- EGO_CTRL as written, and the unit stopped where ENABLE is 0. -/
def Leaf.egoEnabled (w : Nat) (l : Leaf) : Leaf :=
  let m := l.swWrite Reg.EGO_CTRL w
  if bitOf w 0 then m else ({ m with ego := { m.ego with nextWin := none } }).putB Fld.EGO_STAT_RUNNING false

theorem Leaf.enable_egoEnabled (l : Leaf) (w : Nat) : (l.egoEnabled w).bit Fld.EGO_CTRL_ENABLE = bitOf w 0 := by
  have hrd : (l.egoEnabled w).rd Reg.EGO_CTRL = (l.swWrite Reg.EGO_CTRL w).rd Reg.EGO_CTRL := by
    unfold Leaf.egoEnabled
    dsimp only
    split
    · rfl
    · exact Leaf.rd_putB_other _ _ _ (by decide)
  rw [Leaf.bit_congr hrd, Leaf.bit, Leaf.enable_swWrite_egoCtrl, bitsOf_bne_zero]

/-- A RESET waits for the next propagation. -/
theorem Leaf.writeEgoCtrl_reset (l : Leaf) (hw : bitOf w 31 = true) :
    l.writeEgoCtrl w = { l.egoEnabled w with ego := { (l.egoEnabled w).ego with resetReq := true } } := if_pos hw

theorem Leaf.resetReq_writeEgoCtrl (l : Leaf) (hw : bitOf w 31 = true) : (l.writeEgoCtrl w).ego.resetReq = true := by
  rw [l.writeEgoCtrl_reset hw]

theorem Leaf.enable_writeEgoCtrl (l : Leaf) (hw : bitOf w 31 = true) : (l.writeEgoCtrl w).bit Fld.EGO_CTRL_ENABLE = bitOf w 0 := by
  rw [l.writeEgoCtrl_reset hw, ← l.enable_egoEnabled w]
  rfl

/-! ## The commands -/

theorem exec_egoPropagation (h : s.ready i = true) (n : Nat) :
    exec (.egoPropagation i n) s = .next (s.setLeaf i ((s.leaf i).adv n).propagate).settle :=
  congrArg State.done (State.runsEvent_of_ready h _ _)

theorem Leaf.writeReg_egoCtrl (l : Leaf) (w : Nat) : l.writeReg Reg.EGO_CTRL w = l.writeEgoCtrl w := rfl

theorem exec_egoReset (h : s.ready i = true) (w : Word) :
    exec (.egoReset i w) s = .next (s.setLeaf i ((s.leaf i).writeEgoCtrl (setBits w.toNat 31 31 1))).settle := by
  have e : s.fieldWrite i Fld.EGO_CTRL_RESET 1 w = s.setLeaf i ((s.leaf i).writeEgoCtrl (setBits w.toNat 31 31 1)) := by
    unfold State.fieldWrite
    rw [State.regWrite_above_tick h _ (by decide) (by decide), Leaf.writeReg_egoCtrl]
    rfl
  exact congrArg State.done e

end Sys2Proof.Machine
end

section
/-!
PROOFS. The statement about the filter chain and the ego-motion unit, a lemma for each of their commands.
-/
namespace Sys2Proof.Machine

variable {s : State} {i : LeafId} {c : Nat}

/-- A channel that is off goes on with all its state 0, if its program and its object are legal (R248, R253, R258). -/
theorem answersWith_filtChannelEnable_legal (hr : s.ready i = true) (hc : c < 32) {w : Word}
    (hoff : (s.leaf i).bit (Fld.FILT_CH_CFG_ENABLE c) = false)
    (hmp : mpBad ((s.leaf i).rd (Reg.FILT_CH_MPPROG c)) (bitsOf w.toNat 29 28) = false)
    (ho : bitsOf w.toNat 11 0 = 0xFFF ∨ (s.leaf i).slotObjOk (bitsOf w.toNat 11 0) = true) :
    AnswersWith (.filtChannelEnable i c w) s fun t => (t.leaf i).bit (Fld.FILT_CH_CFG_ENABLE c) = true
      ∧ (t.leaf i).bit (Fld.FILT_CH_STAT_SETTLED c) = false ∧ (t.leaf i).bit (Fld.FILT_CH_STAT_COARSE_VALID c) = false
      ∧ (t.leaf i).rd (Reg.FILT_CH_SCNT c) = 0
      ∧ (c < (s.leaf i).filt.chs.length → ((t.leaf i).ch c).sos = List.replicate 8 {} ∧ ((t.leaf i).ch c).lines = []
        ∧ ((t.leaf i).ch c).coarse = [] ∧ ((t.leaf i).ch c).slot = {} ∧ ((t.leaf i).ch c).preset = bitsOf w.toNat 25 24) := by
  have hlow (hi lo : Nat) (h : hi < 31) : bitsOf (setBits w.toNat 31 31 1) hi lo = bitsOf w.toNat hi lo :=
    bitsOf_setBits_disjoint _ _ _ _ _ _ le_rfl (.inr h)
  have hon : bitsOf (setBits w.toNat 31 31 1) 31 31 = 1 := bitsOf_setBits_same _ _ _ _ le_rfl
  have e := exec_filtChannelEnable hr hc w
  rw [Leaf.writeChCfg_of_legal hoff (bitOf_setBits_same ..) (by rwa [hlow _ _ (by decide)]) (by rwa [hlow _ _ (by decide)])] at e
  refine answersWith_of_setLeaf e fun t kept _ => ⟨?_, ?_, ?_, ?_, fun hlen => ?_⟩
  · rw [kept.bit_of_between (filtCfg_between hc), Leaf.enable_channelOn _ hc hon]
  · rw [kept.bit_of_between (filtStat_between hc), Leaf.bit_congr (Leaf.rd_channelOn ..), Leaf.settled_clearCh]
  · rw [kept.bit_of_between (filtStat_between hc), Leaf.bit_congr (Leaf.rd_channelOn ..), Leaf.coarseValid_clearCh]
  · rw [kept.rd_of_between (filtScnt_between hc), Leaf.rd_channelOn, Leaf.scnt_clearCh]
  · have hch : (t.leaf i).ch c = _ := (congrArg (·.chs.getD c {}) kept.filt).trans (Leaf.ch_channelOn _ hlen)
    rw [hch, hlow _ _ (by decide)]
    exact ⟨rfl, rfl, rfl, rfl, rfl⟩

/-- A channel whose program is illegal stays off, with CFG_REFUSED set (R248). -/
theorem answersWith_filtChannelEnable_badProgram (hr : s.ready i = true) (hc : c < 32) {w : Word}
    (hoff : (s.leaf i).bit (Fld.FILT_CH_CFG_ENABLE c) = false)
    (hmp : mpBad ((s.leaf i).rd (Reg.FILT_CH_MPPROG c)) (bitsOf w.toNat 29 28) = true) :
    AnswersWith (.filtChannelEnable i c w) s fun t => (t.leaf i).bit (Fld.FILT_CH_CFG_ENABLE c) = false
      ∧ (t.leaf i).bit Fld.FILT_STAT_CFG_REFUSED = true ∧ (t.leaf i).filt = (s.leaf i).filt := by
  have hfs : bitsOf (setBits w.toNat 31 31 1) 29 28 = bitsOf w.toNat 29 28 := bitsOf_setBits_disjoint _ _ _ _ _ _ (by decide) (by decide)
  have hzero (v : Nat) : bitsOf (v % 2 ^ 31) 31 31 = 0 := by
    simp [bitsOf, Nat.shiftRight_eq_div_pow, Nat.div_eq_of_lt (Nat.mod_lt v (show 2147483648 > 0 by decide))]
  have hne : Reg.FILT_STAT ≠ Reg.FILT_CH_CFG c := show 0x80001C ≠ 0x801000 + 0x100 * c by omega
  have e := exec_filtChannelEnable hr hc w
  rw [Leaf.writeChCfg_of_badProgram hoff (bitOf_setBits_same ..) (by rwa [hfs])] at e
  refine answersWith_of_setLeaf e fun t kept _ => ⟨?_, ?_, ?_⟩
  · rw [kept.bit_of_between (filtCfg_between hc),
      Leaf.bit_congr (Leaf.rd_flagEvent_other _ (by decide) hne (by rw [filtCfg_block hc]; decide)), Leaf.bit,
      Leaf.enable_swWrite_filtCfg _ _ hc, hzero]
    rfl
  · rw [kept.bit_of_between (by decide), Leaf.bit_flagEvent_same _ (by decide) (by decide) (by decide) (by decide)]
  · rw [kept.filt, Leaf.filt_flagEvent _ _ (by decide), Leaf.filt_swWrite]

theorem answers_filtSyncEdge_off (hr : s.ready i = true) (c8 : Nat) (hpin : (s.leaf i).bit Fld.FILT_SYNC_CTRL_PIN_EN = false) :
    Answers (.filtSyncEdge i c8) s (s.onLeaf i fun x => x.adv (c8 / 8)) := by
  have e := exec_filtSyncEdge hr c8
  rw [Leaf.filtSyncEdge_of_off _ _ ((Leaf.bit_congr (Leaf.rd_adv ..)).trans hpin)] at e
  exact answers_of_exec e

/-- In mirror mode an edge waits for its stamp (R29). -/
theorem answersWith_filtSyncEdge_active (hr : s.ready i = true) (c8 : Nat) (hpin : (s.leaf i).bit Fld.FILT_SYNC_CTRL_PIN_EN = true)
    (ha : s.hinge.active = true) : AnswersWith (.filtSyncEdge i c8) s fun t => ∃ it, (t.leaf i).sns.pend = (s.leaf i).sns.pend ++ [it]
      ∧ it.src = 0x22 ∧ it.c8 = c8 ∧ it.body = .edge := by
  have e := exec_filtSyncEdge hr c8
  rw [ha] at e
  refine answersWith_of_setLeaf e fun t kept _ => ⟨((s.leaf i).adv (c8 / 8)).edgeItem c8, ?_, rfl, rfl, rfl⟩
  rw [kept.sns, Leaf.pend_filtSyncEdge _ ((Leaf.bit_congr (Leaf.rd_adv ..)).trans hpin), Leaf.sns_adv]

/-- The boundary of the armed tick disarms. -/
theorem answersWith_filtSyncTickReset_due (hr : s.ready i = true) {n k : Nat} (hk : (s.leaf i).filt.armed = some k)
    (hdue : k * (s.leaf i).rd Reg.TICK_PERIOD ≤ ((s.leaf i).adv n).nowNs) : AnswersWith (.filtSyncTickReset i n) s fun t =>
      (t.leaf i).filt.armed = none ∧ (t.leaf i).bit Fld.FILT_SYNC_CTRL_PENDING = false := by
  rw [← Leaf.filt_adv _ n] at hk
  rw [← Leaf.rd_adv _ n] at hdue
  have e := exec_filtSyncTickReset hr n
  rw [Leaf.syncTick_of_due hk hdue] at e
  refine answersWith_of_setLeaf e fun t kept _ => ⟨?_, ?_⟩
  · rw [kept.filt, Leaf.armed_phaseReset, Leaf.armed_syncCancel]
  · rw [kept.bit_of_between (by decide), Leaf.bit_congr (Leaf.syncCtrl_phaseReset ..), Leaf.pending_syncCancel]

theorem answers_filtSyncTickReset_early (hr : s.ready i = true) {n k : Nat} (hk : (s.leaf i).filt.armed = some k)
    (hearly : ((s.leaf i).adv n).nowNs < k * (s.leaf i).rd Reg.TICK_PERIOD) :
    Answers (.filtSyncTickReset i n) s (s.onLeaf i fun x => x.adv n) := by
  rw [← Leaf.filt_adv _ n] at hk
  rw [← Leaf.rd_adv _ n] at hearly
  have e := exec_filtSyncTickReset hr n
  rw [Leaf.syncTick_of_early hk hearly] at e
  exact answers_of_exec e

/-- ARM of a tick to come is pending; of another it is refused and leaves what is armed. -/
theorem answersWith_filtSyncArm (hr : s.ready i = true) {w : Word} (h30 : bitOf w.toNat 30 = false) (ht : (s.leaf i).ticking = true) :
    ((s.leaf i).tickNum < (s.leaf i).rd64 Reg.FILT_SYNC_TICK_LO Reg.FILT_SYNC_TICK_HI → AnswersWith (.filtSyncArm i w) s fun t =>
      (t.leaf i).filt.armed = some ((s.leaf i).rd64 Reg.FILT_SYNC_TICK_LO Reg.FILT_SYNC_TICK_HI)
        ∧ (t.leaf i).bit Fld.FILT_SYNC_CTRL_PENDING = true)
    ∧ ((s.leaf i).rd64 Reg.FILT_SYNC_TICK_LO Reg.FILT_SYNC_TICK_HI ≤ (s.leaf i).tickNum → AnswersWith (.filtSyncArm i w) s fun t =>
      (t.leaf i).filt.armed = (s.leaf i).filt.armed ∧ (t.leaf i).bit Fld.FILT_SYNC_CTRL_REFUSED = true) := by
  have h30' : bitOf (setBits w.toNat 31 31 1) 30 = false := (bitOf_setBits_other _ _ (by decide)).trans h30
  have e := exec_filtSyncArm hr w
  rw [Leaf.writeSyncCtrl_arm h30' (bitOf_setBits_same ..)] at e
  rw [← Leaf.ticking_swWrite_syncCtrl _ (setBits w.toNat 31 31 1)] at ht
  rw [← Leaf.tickNum_swWrite_syncCtrl _ (setBits w.toNat 31 31 1), ← Leaf.syncTick_swWrite_syncCtrl _ (setBits w.toNat 31 31 1)]
  refine ⟨fun hfuture => ?_, fun hpast => ?_⟩
  · rw [Leaf.syncArm_of_future ht hfuture] at e
    refine answersWith_of_setLeaf e fun t kept _ => ⟨?_, ?_⟩
    · rw [kept.filt]; rfl
    · rw [kept.bit_of_between (by decide), Leaf.bit_putB_same _ _ _ (by decide) (by decide)]
  · rw [Leaf.syncArm_of_past ht hpast] at e
    refine answersWith_of_setLeaf e fun t kept _ => ⟨?_, ?_⟩
    · rw [kept.filt, Leaf.filt_flagEvent _ _ (by decide), Leaf.filt_swWrite]
    · rw [kept.bit_of_between (by decide), Leaf.bit_flagEvent_same _ (by decide) (by decide) (by decide) (by decide)]

theorem answersWith_filtSyncCancel (hr : s.ready i = true) (w : Word) : AnswersWith (.filtSyncCancel i w) s fun t =>
    (t.leaf i).filt.armed = none ∧ (t.leaf i).bit Fld.FILT_SYNC_CTRL_PENDING = false := by
  obtain ⟨m, hm⟩ := Leaf.writeSyncCtrl_cancel (l := s.leaf i) (bitOf_setBits_same w.toNat 30)
  have e := exec_filtSyncCancel hr w
  rw [hm] at e
  refine answersWith_of_setLeaf e fun t kept _ => ⟨?_, ?_⟩
  · rw [kept.filt, Leaf.armed_syncCancel]
  · rw [kept.bit_of_between (by decide), Leaf.pending_syncCancel]

/-- A propagation that is due closes its window, takes a pending RESET and sets RUNNING. -/
theorem answersWith_egoPropagation_due (hr : s.ready i = true) {n : Nat} (hdue : ((s.leaf i).adv n).EgoDue) :
    AnswersWith (.egoPropagation i n) s fun t =>
      (t.leaf i).ego.nextWin = some (((s.leaf i).adv n).egoNext + ((s.leaf i).adv n).subPeriod) ∧ (t.leaf i).ego.resetReq = false
        ∧ (t.leaf i).bit Fld.EGO_STAT_RUNNING = true := by
  obtain ⟨hwin, hreq⟩ := Prod.mk.inj hdue.egoOrder
  refine answersWith_of_setLeaf (exec_egoPropagation hr n) fun t kept _ => ⟨?_, ?_, ?_⟩
  · rw [kept.ego, Leaf.ego_propagate, hwin]
  · rw [kept.ego, Leaf.ego_propagate, hreq]
  · rw [kept.bit_of_between (by decide), Leaf.bit_propagate, hdue.running]

theorem answers_egoPropagation_stopped (hr : s.ready i = true) {n : Nat} (hstop : ((s.leaf i).adv n).egoRuns = false)
    (hconf : (s.leaf i).spec.conf = none) : Answers (.egoPropagation i n) s (s.onLeaf i fun x => x.adv n) := by
  have e := exec_egoPropagation hr n
  rw [Leaf.propagate_of_stopped hstop ((congrArg SpecState.conf (Leaf.spec_adv ..)).trans hconf)] at e
  exact answers_of_exec e

theorem answersWith_egoReset (hr : s.ready i = true) (w : Word) : AnswersWith (.egoReset i w) s fun t =>
    (t.leaf i).ego.resetReq = true ∧ (t.leaf i).bit Fld.EGO_CTRL_ENABLE = bitOf w.toNat 0 := by
  refine answersWith_of_setLeaf (exec_egoReset hr w) fun t kept _ => ⟨?_, ?_⟩
  · rw [kept.ego, Leaf.resetReq_writeEgoCtrl _ (bitOf_setBits_same ..)]
  · rw [kept.bit_of_between (by decide), Leaf.enable_writeEgoCtrl _ (bitOf_setBits_same ..), bitOf_setBits_other _ _ (by decide)]

/-- Settles O38: each command by its own lemma; log entry 37 (DESIGN CHOICE) orders a write with ARM and CANCEL both set. -/
theorem filterAndEgoCommands : Obligations.FilterAndEgoCommands := by
  intro s i hr
  refine ⟨fun c w hc hoff => ⟨answersWith_filtChannelEnable_legal hr hc hoff, answersWith_filtChannelEnable_badProgram hr hc hoff⟩,
    fun c8 => ⟨answers_filtSyncEdge_off hr c8, answersWith_filtSyncEdge_active hr c8⟩,
    fun n k hk => ⟨answersWith_filtSyncTickReset_due hr hk, answers_filtSyncTickReset_early hr hk⟩, ?_,
    answersWith_filtSyncCancel hr, fun n hruns hheld => ?_, fun n => answers_egoPropagation_stopped hr, answersWith_egoReset hr⟩
  · rintro w k h30 rfl ht
    exact answersWith_filtSyncArm hr h30 ht
  · rw [← Leaf.subPeriod_adv _ n] at hheld ⊢
    rw [← Leaf.holdUs_adv _ n] at hheld
    exact answersWith_egoPropagation_due hr ⟨hruns, hheld⟩

end Sys2Proof.Machine
end

section
/-!
PROOFS. The state of the vision engines: what reading a job or a queue returns after a write, and what sending, counting and settling keep
of the block.
-/
namespace Sys2Proof.Machine

variable {l m k : Leaf} {v : VJob} {e j d n : Nat}

/-! ## Jobs and queues -/

theorem alGet_alSet_other {α : Type} {a b : Nat} (h : a ≠ b) (v : α) (m : List (Nat × α)) : alGet (alSet a v m) b = alGet m b := by
  induction m with
  | nil => simp [alSet, alGet, h]
  | cons p t ih =>
    obtain ⟨y, w⟩ := p
    by_cases hlt : y < a
    · simp [alSet, alGet, hlt, ih]
    · by_cases heq : y = a
      · subst heq; simp [alSet, alGet, h]
      · simp [alSet, alGet, hlt, heq, h]

theorem Leaf.vjob_congr (h : k.vis = l.vis) (e j : Nat) : k.vjob e j = l.vjob e j := by unfold Leaf.vjob; rw [h]

theorem Leaf.vqueue_congr (h : k.vis = l.vis) (e : Nat) : k.vqueue e = l.vqueue e := by unfold Leaf.vqueue; rw [h]

@[simp] theorem Leaf.vjob_setVjob_same (l : Leaf) (e j : Nat) (v : VJob) : (l.setVjob e j v).vjob e j = some v := alGet_alSet_same ..

/-- Two names of a job with one key are one job. -/
theorem Leaf.vjob_of_key_eq (l : Leaf) (h : 16 * d + n = 16 * e + j) : l.vjob d n = l.vjob e j := by unfold Leaf.vjob; rw [h]

theorem Leaf.vjob_setVjob_other (l : Leaf) (v : VJob) (h : 16 * d + n ≠ 16 * e + j) : (l.setVjob d n v).vjob e j = l.vjob e j :=
  alGet_alSet_other h ..

@[simp] theorem Leaf.vjob_setVqueue (l : Leaf) (d : Nat) (q : List Nat) (e j : Nat) : (l.setVqueue d q).vjob e j = l.vjob e j := rfl

@[simp] theorem Leaf.vqueue_setVqueue_same (l : Leaf) (e : Nat) (q : List Nat) : (l.setVqueue e q).vqueue e = q := by
  unfold Leaf.vqueue Leaf.setVqueue Leaf.setVis
  rw [alGet_alSet_same]
  rfl

/-! ## What the engines' helpers leave unchanged -/

theorem Leaf.vis_engineSend (code port : Nat) (ts : List Token) (l : Leaf) : (l.engineSend code port ts).vis = l.vis :=
  Leaf.foldl_congr Leaf.vis _ _ l fun _ _ _ => rfl

theorem Leaf.vis_visSend (e : Nat) (c : JobCfg) (ts : List Token) (l : Leaf) : (l.visSend e c ts).vis = l.vis :=
  Leaf.foldl_congr Leaf.vis _ _ l fun p _ k => k.vis_engineSend e p ts

theorem Leaf.vis_countBy (l : Leaf) (cls idx n : Nat) : (l.countBy cls idx n).vis = l.vis := rfl

theorem Leaf.vis_putFree (l : Leaf) (f : FieldRef) : (l.putFree f).vis = l.vis := rfl

theorem Leaf.IrqOnly.vis (h : l.IrqOnly m) : m.vis = l.vis := by rw [h.eq]

/-- Queueing what is ready touches armed jobs alone. -/
theorem Leaf.vjob_visQueueReady (h : l.vjob e j = some v) (hv : v.st ≠ .armed) : l.visQueueReady.vjob e j = some v := by
  unfold Leaf.visQueueReady
  refine List.foldlRecOn (motive := fun m : Leaf => m.vjob e j = some v) _ _ h fun m hm p _ => ?_
  split
  · next u hu =>
    split
    · next hready =>
      have hkey : 16 * p.1 + p.2.job ≠ 16 * e + j := fun hk => by
        rw [m.vjob_of_key_eq hk, hm] at hu
        exact hv (Option.some.inj hu ▸ hready.1)
      rw [Leaf.vjob_setVqueue, Leaf.vjob_setVjob_other _ _ hkey, hm]
    · exact hm
  · exact hm

/-- It writes no register. -/
theorem Leaf.rd_visQueueReady (l : Leaf) (a : Nat) : l.visQueueReady.rd a = l.rd a := by
  refine Leaf.foldl_congr (·.rd a) _ _ l fun p _ k => ?_
  split
  · split <;> rfl
  · rfl

/-! ## The registers of an engine -/

theorem visStat_between (hn : n < 7) : 0x500000 ≤ Reg.VIS_ENG_STAT n ∧ Reg.VIS_ENG_STAT n < 0x1C00000 :=
  show 0x500000 ≤ 0xA01004 + 0x100 * n ∧ 0xA01004 + 0x100 * n < 0x1C00000 by omega

theorem visStat_not_irq (hn : n < 7) : Reg.VIS_ENG_STAT n / 2 ^ 20 ≠ 4 := show (0xA01004 + 0x100 * n) / 2 ^ 20 ≠ 4 by omega

theorem visDone_between (hn : n < 7) : 0x500000 ≤ Reg.VIS_ENG_DONE n ∧ Reg.VIS_ENG_DONE n < 0x1C00000 :=
  show 0x500000 ≤ 0xA0100C + 0x100 * n ∧ 0xA0100C + 0x100 * n < 0x1C00000 by omega

end Sys2Proof.Machine
end

section
/-!
PROOFS. The jobs of the vision engines (R273 to R275, R278, R297): a start, a skip, an engine error, a completion.
-/
namespace Sys2Proof.Machine

variable {l : Leaf} {c : JobCfg} {v : VJob} {e j n : Nat}

/-! ## Starts -/

/-- Job j of engine e is in its configuration and in the tick, waits for its start, and the engine is not held by a reset. -/
structure Leaf.JobWaits (e j : Nat) (c : JobCfg) (l : Leaf) : Prop where
  cfg : l.visJob e j = some c
  job : ∃ v, l.vjob e j = some v ∧ (v.st = .armed ∨ v.st = .queued)
  free : l.vis.held.contains e = false

/-- The job at the head of its engine's queue taken to run: the engine BUSY with it. -/
def Leaf.jobRuns (e j : Nat) (c : JobCfg) (l : Leaf) : Leaf :=
  (((l.setVjob e j { st := .running, oldest := (l.visCarry c).oldest, desync := (l.visCarry c).desync }).setVqueue e
    (l.vqueue e).tail).putB (Fld.VIS_ENG_STAT_BUSY (e - 1)) true).put (Fld.VIS_ENG_STAT_JOB (e - 1)) j

/-- A job that waits goes by what stands in the way of its start. -/
theorem Leaf.visStart_of_waits (h : l.JobWaits e j c) : l.visStart e j =
    match l.visCheck c with
    | .notYet => l
    | .skip => l.visSkip e j c
    | .pred => l.visError e j 0x04 c
    | .run => if l.bit (Fld.VIS_ENG_STAT_BUSY (e - 1)) || (l.vqueue e).head? != some j then l
        else if !l.visSizeOk e c then l.visError e j 0x01 c else l.jobRuns e j c := by
  obtain ⟨v, hv, hst⟩ := h.job
  have hwait : (v.st == .armed || v.st == .queued) = true := by simpa using hst
  unfold Leaf.visStart
  simp only [h.cfg, hv, h.free, hwait, Bool.not_true, Bool.or_self, Bool.false_eq_true, if_false]
  rfl

theorem Leaf.visStart_of_ready (h : l.JobWaits e j c) (hc : l.visCheck c = .run)
    (hfree : l.bit (Fld.VIS_ENG_STAT_BUSY (e - 1)) = false) (hhead : (l.vqueue e).head? = some j) (hsize : l.visSizeOk e c = true) :
    l.visStart e j = l.jobRuns e j c := by
  rw [Leaf.visStart_of_waits h, hc, hfree, hhead, hsize]
  simp

theorem Leaf.visStart_of_skip (h : l.JobWaits e j c) (hc : l.visCheck c = .skip) : l.visStart e j = l.visSkip e j c := by
  rw [Leaf.visStart_of_waits h, hc]

theorem Leaf.visStart_of_notYet (h : l.JobWaits e j c) (hc : l.visCheck c = .notYet) : l.visStart e j = l := by
  rw [Leaf.visStart_of_waits h, hc]

theorem Leaf.busy_jobRuns (l : Leaf) (e j : Nat) (c : JobCfg) : (l.jobRuns e j c).bit (Fld.VIS_ENG_STAT_BUSY (e - 1)) = true := by
  unfold Leaf.jobRuns
  rw [Leaf.bit_put_disjoint _ (Fld.VIS_ENG_STAT_JOB (e - 1)) (Fld.VIS_ENG_STAT_BUSY (e - 1)) _ rfl (by simp) (by simp) (by simp),
    Leaf.bit_putB_same _ _ _ (by simp) (by simp)]

theorem Leaf.statJob_jobRuns (l : Leaf) (c : JobCfg) (hj : j < 16) : (l.jobRuns e j c).get (Fld.VIS_ENG_STAT_JOB (e - 1)) = j :=
  (Leaf.get_put_same _ _ _ (by simp) (by simp)).trans (Nat.mod_eq_of_lt hj)

theorem Leaf.vqueue_jobRuns (l : Leaf) (e j : Nat) (c : JobCfg) : (l.jobRuns e j c).vqueue e = (l.vqueue e).tail := by
  unfold Leaf.jobRuns
  rw [Leaf.vqueue_congr (Leaf.put_vis ..), Leaf.vqueue_congr (Leaf.putB_vis ..), Leaf.vqueue_setVqueue_same]

theorem Leaf.vjob_jobRuns (l : Leaf) (e j : Nat) (c : JobCfg) : (l.jobRuns e j c).vjob e j
    = some { st := .running, oldest := (l.visCarry c).oldest, desync := (l.visCarry c).desync } := by
  unfold Leaf.jobRuns
  rw [Leaf.vjob_congr (Leaf.put_vis ..), Leaf.vjob_congr (Leaf.putB_vis ..), Leaf.vjob_setVqueue, Leaf.vjob_setVjob_same]

theorem Leaf.vjob_visSkip (l : Leaf) (e j : Nat) (c : JobCfg) : (l.visSkip e j c).vjob e j = some { st := .skipped } := by
  unfold Leaf.visSkip
  refine (Leaf.vjob_congr (Leaf.vis_visSend ..) e j).trans ?_
  rw [Leaf.vjob_setVqueue, Leaf.vjob_setVjob_same]

/-! ## Engine errors -/

/-- A running job ends with an engine error: the job failed, the error shown with its event, and last the engine free. -/
theorem Leaf.visError_of_running (h : l.vjob e j = some v) (hv : v.st = .running) (code : Nat) (c : JobCfg) :
    ∃ m : Leaf, m.vjob e j = some { st := .failed }
      ∧ l.visError e j code c = (m.flagEvent (Fld.VIS_ENG_STAT_ERR (e - 1)) (0x067 + e)).putB (Fld.VIS_ENG_STAT_BUSY (e - 1)) false := by
  refine ⟨_, ?_, by unfold Leaf.visError; rw [h]; simp only [hv, beq_self_eq_true, if_true]; rfl⟩
  refine (Leaf.vjob_congr (Leaf.vis_visSend ..) e j).trans ?_
  rw [Leaf.vjob_setVqueue, Leaf.vjob_setVjob_same]

/-- What a job that met an engine error leaves. -/
structure Leaf.JobFailed (e j : Nat) (l : Leaf) : Prop where
  job : l.vjob e j = some { st := .failed }
  busy : l.bit (Fld.VIS_ENG_STAT_BUSY (e - 1)) = false
  err : l.bit (Fld.VIS_ENG_STAT_ERR (e - 1)) = true

theorem Leaf.jobFailed_visError (h : l.vjob e j = some v) (hv : v.st = .running) (h1 : 1 ≤ e) (h7 : e ≤ 7) (code : Nat) (c : JobCfg) :
    (l.visError e j code c).JobFailed e j := by
  obtain ⟨m, hm, eq⟩ := Leaf.visError_of_running h hv code c
  have hx : 0x067 + e < 512 := by omega
  rw [eq]
  refine ⟨?_, Leaf.bit_putB_same _ _ _ (by simp) (by simp), ?_⟩
  · exact (Leaf.vjob_congr (m.irq_flagEvent _ hx).vis e j).trans hm
  · rw [Leaf.bit_putB_disjoint _ (Fld.VIS_ENG_STAT_BUSY (e - 1)) (Fld.VIS_ENG_STAT_ERR (e - 1)) _ rfl (by simp) (by simp) (by simp),
      Leaf.bit_flagEvent_same _ hx (visStat_not_irq (by omega)) (by simp) (by simp)]

/-! ## Completions -/

/-- The end of a completion, once the outputs are sent and the surface is written: the job done, its bit of JOBS set, the engine free,
n pixels or candidates counted, and the jobs that are now ready queued. -/
def Leaf.jobEnds (e j n : Nat) (v : VJob) (m : Leaf) : Leaf :=
  (((((m.setVjob e j { v with st := .done }).put (Fld.VIS_ENG_DONE_JOBS (e - 1)) (m.get (Fld.VIS_ENG_DONE_JOBS (e - 1)) ||| 2 ^ j)).putB
    (Fld.VIS_ENG_STAT_BUSY (e - 1)) false).countBy 10 (e - 1) n).putFree (Fld.VIS_ENG_LASTJ_NS (e - 1))).visQueueReady

theorem Leaf.visDone_eq (h : l.vjob e j = some v) (c : JobCfg) (o : VOut) : ∃ m : Leaf, l.visDone e j c o = m.jobEnds e j o.count v :=
  ⟨_, by unfold Leaf.visDone; rw [h]; rfl⟩

theorem Leaf.vjob_jobEnds (m : Leaf) (e j n : Nat) (v : VJob) : (m.jobEnds e j n v).vjob e j = some { v with st := .done } := by
  refine Leaf.vjob_visQueueReady ?_ (by simp)
  rw [Leaf.vjob_congr (Leaf.vis_putFree ..), Leaf.vjob_congr (Leaf.vis_countBy ..), Leaf.vjob_congr (Leaf.putB_vis ..),
    Leaf.vjob_congr (Leaf.put_vis ..), Leaf.vjob_setVjob_same]

/-- Of the registers of an engine, what follows a completion's writes changes LASTJ alone. -/
theorem Leaf.rd_jobEnds (m : Leaf) (v : VJob) {a : Nat} (ha : Reg.VIS_ENG_LASTJ (e - 1) ≠ a) : (m.jobEnds e j n v).rd a
    = ((m.put (Fld.VIS_ENG_DONE_JOBS (e - 1)) (m.get (Fld.VIS_ENG_DONE_JOBS (e - 1)) ||| 2 ^ j)).putB
      (Fld.VIS_ENG_STAT_BUSY (e - 1)) false).rd a :=
  (Leaf.rd_visQueueReady ..).trans (Leaf.rd_put_other _ _ _ ha)

theorem Leaf.busy_jobEnds (m : Leaf) (e j n : Nat) (v : VJob) : (m.jobEnds e j n v).bit (Fld.VIS_ENG_STAT_BUSY (e - 1)) = false :=
  (Leaf.bit_congr (m.rd_jobEnds v (by simp))).trans (Leaf.bit_putB_same _ _ _ (by simp) (by simp))

theorem Leaf.doneBit_jobEnds (m : Leaf) (n : Nat) (v : VJob) (hj : j < 16) :
    bitOf ((m.jobEnds e j n v).get (Fld.VIS_ENG_DONE_JOBS (e - 1))) j = true := by
  rw [Leaf.get_congr (m.rd_jobEnds v (by simp)), Leaf.get_congr (Leaf.rd_putB_other _ _ _ (by simp)),
    Leaf.get_put_same _ _ _ (by simp) (by simp)]
  unfold bitOf
  rw [Nat.testBit_mod_two_pow, Nat.testBit_or, Nat.testBit_two_pow_self]
  simp [hj]

theorem Leaf.visComplete_of_ue (hc : l.visJob e j = some c) (h : l.vjob e j = some v) (hv : v.st = .running) :
    l.visComplete e j true = l.visError e j 0x03 c := by
  unfold Leaf.visComplete
  simp only [hc, h, hv, bne_self_eq_false, Bool.true_or, Bool.false_eq_true, if_false, if_true]

/-- A job of a stereo, flow or feature engine with all its reads correct completes. -/
theorem Leaf.visComplete_of_good (hc : l.visJob e j = some c) (h : l.vjob e j = some v) (hv : v.st = .running) (he : e ≤ 5)
    (h0 : l.refBad c.in0 = false) (h1 : l.refBad c.in1 = false) : l.visComplete e j false = l.visDone e j c (l.visCompute e c) := by
  unfold Leaf.visComplete
  simp only [hc, h, hv, h0, h1, he, bne_self_eq_false, Bool.or_self, Bool.false_eq_true, if_false, if_true]

theorem Leaf.visComplete_of_not_running (hc : l.visJob e j = some c) (h : l.vjob e j = some v) (hv : v.st ≠ .running) (ue : Bool) :
    l.visComplete e j ue = l := by
  unfold Leaf.visComplete
  simp only [hc, h, bne_iff_ne.mpr hv, if_true]

/-! ## Single-engine resets (R298) -/

theorem Leaf.visReset_of_busy (h : l.bit (Fld.VIS_ENG_STAT_RST_BUSY (e - 1)) = true) : l.visReset e = l :=
  if_pos (by rw [h, Bool.or_true])

/-- A reset, once the engine's jobs have ended with their error, holds the engine and sets RST_BUSY. -/
theorem Leaf.visReset_of_free (h1 : 1 ≤ e) (h7 : e ≤ 7) (h : l.bit (Fld.VIS_ENG_STAT_RST_BUSY (e - 1)) = false) :
    ∃ m : Leaf, l.visReset e
      = (m.setVis { m.vis with held := e :: m.vis.held.filter (· != e) }).putB (Fld.VIS_ENG_STAT_RST_BUSY (e - 1)) true :=
  ⟨_, if_neg (by simp [h, Nat.ne_of_gt h1, h7])⟩

theorem Leaf.visResetDone_of_engine (l : Leaf) (h1 : 1 ≤ e) (h7 : e ≤ 7) :
    l.visResetDone e = l.putB (Fld.VIS_ENG_STAT_RST_BUSY (e - 1)) false := if_neg (by omega)

/-- A write of VIS_ENGe_CTRL. -/
theorem Leaf.writeReg_visCtrl (l : Leaf) (w : Nat) (hn : n < 7) : l.writeReg (Reg.VIS_ENG_CTRL n) w = l.writeVisCtrl (n + 1) w := by
  have hblk : (0xA01000 + 0x100 * n) / 2 ^ 20 = 0x0A := by omega
  have hix : arrIx 0xA01000 0x100 7 (0xA01000 + 0x100 * n) = some n := by
    have hdiv : (0xA01000 + 0x100 * n - 0xA01000) / 0x100 = n := by omega
    unfold arrIx
    rw [if_pos (by omega), hdiv]
  unfold Leaf.writeReg
  rw [hblk]
  show l.writeVisBlk (0xA01000 + 0x100 * n) w = _
  unfold Leaf.writeVisBlk
  rw [hix]

end Sys2Proof.Machine
end

section
/-!
PROOFS. The statement about the vision engines, a lemma for each of their commands.
-/
namespace Sys2Proof.Machine

variable {s : State} {i : LeafId} {c : JobCfg} {v : VJob} {e j : Nat}

theorem exec_visionJobStart (h : s.ready i = true) (e j : Nat) :
    exec (.visionJobStart i e j) s = .next (s.setLeaf i ((s.leaf i).visStart e j)).settle :=
  congrArg State.done (State.eventNow_of_ready h _)

theorem exec_visionJobComplete (h : s.ready i = true) (e j : Nat) (ue : Bool) :
    exec (.visionJobComplete i e j ue) s = .next (s.setLeaf i ((s.leaf i).visComplete e j ue)).settle :=
  congrArg State.done (State.eventNow_of_ready h _)

theorem exec_visionResetDone (h : s.ready i = true) (e : Nat) :
    exec (.visionResetDone i e) s = .next (s.setLeaf i ((s.leaf i).visResetDone e)).settle :=
  congrArg State.done (State.eventNow_of_ready h _)

theorem exec_visionEngineReset (h : s.ready i = true) (h1 : 1 ≤ e) (h7 : e ≤ 7) (w : Word) :
    exec (.visionEngineReset i e w) s = .next (s.setLeaf i ((s.leaf i).visReset e)).settle := by
  have hset : bitOf (wordWith w (Fld.VIS_ENG_CTRL_RESET (e - 1)) 1) 31 = true := bitOf_setBits_same ..
  refine congrArg State.done ?_
  rw [if_neg (by omega), State.indexed_of_lt _ (by omega)]
  unfold State.fieldWrite
  rw [State.regWrite_above_tick h _ (show (0xA01000 + 0x100 * (e - 1)) % 4 = 0 by omega) (by omega),
    Leaf.writeReg_visCtrl _ _ (by omega), Nat.sub_add_cancel h1, Leaf.writeVisCtrl, if_pos hset]

/-- A job at the head of its queue that is ready runs and the engine is BUSY with it (R274, R282). -/
theorem answersWith_visionJobStart_ready (hr : s.ready i = true) (h1 : 1 ≤ e) (h7 : e ≤ 7) (hj : j < 16)
    (hw : (s.leaf i).JobWaits e j c) (hc : (s.leaf i).visCheck c = .run)
    (hfree : (s.leaf i).bit (Fld.VIS_ENG_STAT_BUSY (e - 1)) = false) (hhead : ((s.leaf i).vqueue e).head? = some j)
    (hsize : (s.leaf i).visSizeOk e c = true) : AnswersWith (.visionJobStart i e j) s fun t =>
      (t.leaf i).bit (Fld.VIS_ENG_STAT_BUSY (e - 1)) = true ∧ (t.leaf i).get (Fld.VIS_ENG_STAT_JOB (e - 1)) = j
      ∧ (t.leaf i).vqueue e = ((s.leaf i).vqueue e).tail ∧ ∃ v', (t.leaf i).vjob e j = some v' ∧ v'.st = .running := by
  have eq := exec_visionJobStart hr e j
  rw [Leaf.visStart_of_ready hw hc hfree hhead hsize] at eq
  refine answersWith_of_setLeaf eq fun t kept _ => ?_
  have hrd := kept.rd_of_between (visStat_between (n := e - 1) (by omega))
  refine ⟨?_, ?_, ?_, _, (Leaf.vjob_congr kept.vis e j).trans (Leaf.vjob_jobRuns ..), rfl⟩
  · rw [Leaf.bit_congr hrd, Leaf.busy_jobRuns]
  · rw [Leaf.get_congr hrd, Leaf.statJob_jobRuns _ _ hj]
  · rw [Leaf.vqueue_congr kept.vis, Leaf.vqueue_jobRuns]

/-- A job one of whose inputs does not come is skipped (R273). -/
theorem answersWith_visionJobStart_skip (hr : s.ready i = true) (hw : (s.leaf i).JobWaits e j c) (hc : (s.leaf i).visCheck c = .skip) :
    AnswersWith (.visionJobStart i e j) s fun t => (t.leaf i).vjob e j = some { st := .skipped } := by
  have eq := exec_visionJobStart hr e j
  rw [Leaf.visStart_of_skip hw hc] at eq
  exact answersWith_of_setLeaf eq fun t kept _ => (Leaf.vjob_congr kept.vis e j).trans (Leaf.vjob_visSkip ..)

/-- A running job with an uncorrectable read fails and frees its engine (R297). -/
theorem answersWith_visionJobComplete_ue (hr : s.ready i = true) (h1 : 1 ≤ e) (h7 : e ≤ 7) (hc : (s.leaf i).visJob e j = some c)
    (hv : (s.leaf i).vjob e j = some v) (hrun : v.st = .running) : AnswersWith (.visionJobComplete i e j true) s fun t =>
      (t.leaf i).vjob e j = some { st := .failed } ∧ (t.leaf i).bit (Fld.VIS_ENG_STAT_BUSY (e - 1)) = false
      ∧ (t.leaf i).bit (Fld.VIS_ENG_STAT_ERR (e - 1)) = true := by
  have hbet := visStat_between (n := e - 1) (by omega)
  have eq := exec_visionJobComplete hr e j true
  rw [Leaf.visComplete_of_ue hc hv hrun] at eq
  obtain ⟨hjob, hbusy, herr⟩ := Leaf.jobFailed_visError hv hrun h1 h7 0x03 c
  exact answersWith_of_setLeaf eq fun t kept _ => ⟨(Leaf.vjob_congr kept.vis e j).trans hjob, (kept.bit_of_between hbet).trans hbusy,
    (kept.bit_of_between hbet).trans herr⟩

/-- A running job of a stereo, flow or feature engine is done: its bit of JOBS set and the engine free (R274). -/
theorem answersWith_visionJobComplete_good (hr : s.ready i = true) (hj : j < 16) (hc : (s.leaf i).visJob e j = some c)
    (hv : (s.leaf i).vjob e j = some v) (hrun : v.st = .running) (h5 : e ≤ 5) (hin0 : (s.leaf i).refBad c.in0 = false)
    (hin1 : (s.leaf i).refBad c.in1 = false) : AnswersWith (.visionJobComplete i e j false) s fun t =>
      (t.leaf i).vjob e j = some { v with st := .done } ∧ (t.leaf i).bit (Fld.VIS_ENG_STAT_BUSY (e - 1)) = false
      ∧ bitOf ((t.leaf i).get (Fld.VIS_ENG_DONE_JOBS (e - 1))) j = true := by
  have eq := exec_visionJobComplete hr e j false
  obtain ⟨m, hm⟩ := Leaf.visDone_eq hv c ((s.leaf i).visCompute e c)
  rw [Leaf.visComplete_of_good hc hv hrun h5 hin0 hin1, hm] at eq
  refine answersWith_of_setLeaf eq fun t kept _ => ⟨?_, ?_, ?_⟩
  · rw [Leaf.vjob_congr kept.vis, Leaf.vjob_jobEnds]
  · rw [kept.bit_of_between (visStat_between (by omega)), Leaf.busy_jobEnds]
  · rw [Leaf.get_congr (kept.rd_of_between (visDone_between (by omega))), Leaf.doneBit_jobEnds _ _ _ hj]

/-- RESET holds the engine until the next arming and sets RST_BUSY, whatever else is written with it (R298). -/
theorem answersWith_visionEngineReset_free (hr : s.ready i = true) (h1 : 1 ≤ e) (h7 : e ≤ 7) (w : Word)
    (hfree : (s.leaf i).bit (Fld.VIS_ENG_STAT_RST_BUSY (e - 1)) = false) : AnswersWith (.visionEngineReset i e w) s fun t =>
      (t.leaf i).bit (Fld.VIS_ENG_STAT_RST_BUSY (e - 1)) = true ∧ (t.leaf i).vis.held.contains e = true := by
  have eq := exec_visionEngineReset hr h1 h7 w
  obtain ⟨m, hm⟩ := Leaf.visReset_of_free h1 h7 hfree
  rw [hm] at eq
  refine answersWith_of_setLeaf eq fun t kept _ => ⟨?_, ?_⟩
  · rw [kept.bit_of_between (visStat_between (by omega)), Leaf.bit_putB_same _ _ _ (by simp) (by simp)]
  · rw [kept.vis]
    exact List.contains_cons.trans (by simp)

/-- Settles O39: each command by its own lemma, with each answer to a start that the statement names. -/
theorem visionCommands : Obligations.VisionCommands := by
  intro s i e hr h1 h7
  refine ⟨fun j c v hj hc hv => ⟨fun hst hheld => ?_, answersWith_visionJobComplete_ue hr h1 h7 hc hv,
      answersWith_visionJobComplete_good hr hj hc hv, fun hst ue => ?_⟩,
    fun w => ⟨answersWith_visionEngineReset_free hr h1 h7 w, fun hbusy => ?_⟩, ?_⟩
  · have hw : (s.leaf i).JobWaits e j c := ⟨hc, ⟨v, hv, hst⟩, hheld⟩
    exact ⟨answersWith_visionJobStart_ready hr h1 h7 hj hw, answersWith_visionJobStart_skip hr hw,
      fun hwait => answers_self_of_setLeaf (exec_visionJobStart hr e j) (Leaf.visStart_of_notYet hw hwait)⟩
  · exact answers_self_of_setLeaf (exec_visionJobComplete hr e j ue) (Leaf.visComplete_of_not_running hc hv hst ue)
  · exact answers_self_of_setLeaf (exec_visionEngineReset hr h1 h7 w) (Leaf.visReset_of_busy hbusy)
  · have eq := exec_visionResetDone hr e
    rw [Leaf.visResetDone_of_engine _ h1 h7] at eq
    exact answers_of_exec eq

end Sys2Proof.Machine
end

section
/-!
PROOFS. The fusion unit's parts: what a projection leaves of the fabric's ports and of its own run (R304), that what makes the tracks keeps
the grid (R303), what a write of FUS_DEMOTE leaves in each bit (R316), and how a write reaches the registers of the block.
-/
namespace Sys2Proof.Machine

variable {l m : Leaf} {c : FusCfg} {j n : Nat}

/-! ## Projection jobs (R304) -/

/-- A send offers tokens to routes, and leaves what the engines have taken alone. -/
theorem Leaf.ports_engineSend (code port : Nat) (ts : List Token) (l : Leaf) : (l.engineSend code port ts).fab.ports = l.fab.ports :=
  Leaf.foldl_congr (fun m : Leaf => m.fab.ports) _ _ l fun _ _ _ => rfl

theorem Leaf.fab_projField (v : Option Nat) (l : Leaf) : (l.projField v).2.fab = l.fab := by cases v <;> rfl

theorem Leaf.fab_projRecord (j c : Nat) (pt : List Byte) (l : Leaf) : (l.projRecord j c pt).2.fab = l.fab :=
  (Leaf.fab_projField _ _).trans ((Leaf.fab_projField _ _).trans (Leaf.fab_projField _ _))

theorem Leaf.fab_projPoints (j mask : Nat) (ps : List (List Byte)) (l : Leaf) : (Leaf.projPoints j mask ps l).2.fab = l.fab := by
  induction ps generalizing l with
  | nil => rfl
  | cons p t ih =>
    refine (ih _).trans ?_
    exact List.foldlRecOn (motive := fun a : List Byte × Leaf => a.2.fab = l.fab) _ _ rfl fun a ha c _ =>
      (a.2.fab_projRecord j c p).trans ha

theorem Leaf.pjRun_of_alSet {x : PjRun} {ps : List (Nat × PjRun)} (h : l.fus.pj = alSet j x ps) : l.pjRun j = x := by
  unfold Leaf.pjRun
  rw [h, alGet_alSet_same]
  rfl

/-- A job that has not ended, with an input that is not poisoned: its records are made and counted, sent, and what it took is noted. -/
theorem Leaf.project_of_arrived {p : Nat × Nat} (hc : l.fusCfg = some c) (hp : c.pj[j]? = some p) (hrun : (l.pjRun j).ended = false)
    (hin : (l.engPort 8 (20 + j)).poison = false) : ∃ (m : Leaf) (ts : List Token) (left : List Byte), m.fab = l.fab
      ∧ l.project false j = (m.engineSend 8 j ts).setFus { m.fus with
        pj := alSet j { taken := (l.engPort 8 (20 + j)).toks.length, left := left, ended := (l.engPort 8 (20 + j)).ended } m.fus.pj } := by
  have hcfg : (l.fusCfg.bind fun c => c.pj[j]?) = some p := by rw [hc]; exact hp
  unfold Leaf.project
  rw [hcfg]
  exact ⟨_, _, _, Leaf.fab_projPoints p.1 p.2 _ l, (if_neg (ne_true_of_eq_false hrun)).trans (if_neg (ne_true_of_eq_false hin))⟩

/-- The work of the tick alone, where no blind tokens have come. -/
theorem Leaf.projectJob_of_tick (ht : l.ticking = true) (hin : (alGet l.fab.ports (8 * 64 + 20 + j)).isSome = true)
    (hports : (l.project false j).fab.ports = l.fab.ports) (hblind : alGet l.fab.ports (72 * 64 + 20 + j) = none) :
    l.projectJob j = l.project false j := by
  have hnone : (alGet (l.project false j).fab.ports (72 * 64 + 20 + j)).isSome = false := by rw [hports, hblind, Option.isSome_none]
  unfold Leaf.projectJob
  simp only [ht, hin, hnone, Bool.false_eq_true, if_false, if_true]

/-! ## The grid and the tracks (R303) -/

theorem Leaf.IrqOnly.fus (h : l.IrqOnly m) : m.fus = l.fus := by rw [h.eq]

theorem Leaf.fus_countBy (l : Leaf) (cls idx n : Nat) : (l.countBy cls idx n).fus = l.fus := rfl

theorem Leaf.fus_drawTrackId (l : Leaf) : l.drawTrackId.2.fus = l.fus := by
  unfold Leaf.drawTrackId
  split
  · exact (Leaf.irq_raise _ 0x076 (by decide)).fus.trans (Leaf.putB_fus ..)
  · rfl

theorem Leaf.fus_birth (c : FusCfg) (x : TrkCand) (s : Nat) (w : TrkWork) (l : Leaf) : (l.birth c x s w).2.fus = l.fus := by
  have hd := l.fus_drawTrackId
  unfold Leaf.birth
  split
  · next h => rwa [h] at hd
  · next h => rwa [h] at hd

theorem Leaf.fus_slotStep (c : FusCfg) (cs : List (Nat × TrkCand)) (a : TrkWork × Leaf) (s : Nat) :
    (Leaf.slotStep c cs a s).2.fus = a.2.fus := by
  unfold Leaf.slotStep
  split
  · rfl
  · dsimp only
    split
    · exact Leaf.fus_birth ..
    · rfl
  · rfl
  · rfl

theorem Leaf.fus_foldl_slotStep (c : FusCfg) (cs : List (Nat × TrkCand)) (xs : List Nat) (a : TrkWork × Leaf) :
    (xs.foldl (Leaf.slotStep c cs) a).2.fus = a.2.fus :=
  List.foldlRecOn (motive := fun b : TrkWork × Leaf => b.2.fus = a.2.fus) _ _ rfl fun b hb s _ => (Leaf.fus_slotStep c cs b s).trans hb

theorem Leaf.fus_trkNetwork (c : FusCfg) (l : Leaf) : (l.trkNetwork c).2.fus = l.fus := by
  simp only [Leaf.trkNetwork, Leaf.fus_foldl_slotStep, Leaf.fus_countBy]

theorem Leaf.fus_trkAssoc (c : FusCfg) (l : Leaf) : (l.trkAssoc c).2.fus = l.fus := by
  refine List.foldlRecOn (motive := fun a : TrkWork × Leaf => a.2.fus = l.fus) _ _ rfl fun a ha e _ => ?_
  split
  · exact ha
  · split
    · exact (Leaf.fus_birth ..).trans ha
    · exact ha

/-- The tracks are made beside the grid. -/
theorem Leaf.grid_trkUpdate (c : FusCfg) (l : Leaf) : (l.trkUpdate c).fus.grid = l.fus.grid := by
  have hr : (if c.method = 1 then l.trkAssoc c else l.trkNetwork c).2.fus = l.fus := by
    split
    · exact l.fus_trkAssoc c
    · exact l.fus_trkNetwork c
  have hgrid := congrArg FusState.grid hr
  unfold Leaf.trkUpdate
  dsimp only
  split
  · rfl
  · exact hgrid

theorem Leaf.grid_gridUpdate (c : FusCfg) (l : Leaf) : (l.gridUpdate c).fus.grid.isSome = true := rfl

/-- Every declared evidence input and the track input have had END. -/
def Leaf.evidenceEnded (c : FusCfg) (l : Leaf) : Bool :=
  (List.range c.nev).all (fun e => (l.engPort 8 e).ended) && (l.engPort 8 16).ended

theorem Leaf.grid_fusUpdate_of_ended (ht : l.ticking = true) (hc : l.fusCfg = some c) (hg : l.fus.grid = none)
    (he : l.evidenceEnded c = true) : l.fusUpdate.fus.grid.isSome = true := by
  have hmake : ((List.range c.nev).all (fun e => (l.engPort 8 e).ended) && (l.engPort 8 16).ended && l.fus.grid.isNone) = true := by
    rw [hg]; exact (Bool.and_true _).trans he
  unfold Leaf.fusUpdate
  rw [hc]
  simp only [ht, hmake, Bool.not_true, Bool.false_eq_true, if_false, if_true]
  split
  · rw [Leaf.grid_trkUpdate, Leaf.grid_gridUpdate]
  · exact Leaf.grid_gridUpdate ..

/-- Without all of them the unit waits. -/
theorem Leaf.fusUpdate_of_not_ended (ht : l.ticking = true) (hc : l.fusCfg = some c) (hg : l.fus.grid = none)
    (he : l.evidenceEnded c = false) : l.fusUpdate = l := by
  unfold Leaf.evidenceEnded at he
  unfold Leaf.fusUpdate
  rw [hc]
  simp only [ht, he, hg, Bool.not_true, Bool.false_eq_true, if_false, Bool.false_and, Option.isSome_none]

/-! ## Demotion cleared (R316) -/

/-- A word with bit b cleared. -/
theorem bitOf_and_not_two_pow (v : Nat) {b x : Nat} (hb : b < 32) (hx : x < 32) :
    bitOf (v &&& (2 ^ 32 - 1 - 2 ^ b)) x = (bitOf v x && decide (b ≠ x)) := by
  unfold bitOf
  rw [Nat.testBit_and, Nat.sub_sub, Nat.add_comm 1, Nat.testBit_two_pow_sub_succ (Nat.pow_lt_pow_right (by decide) hb), Nat.testBit_two_pow]
  simp [hx]

theorem Leaf.bitOf_andNotReg_same (l : Leaf) (a : Nat) {b x : Nat} (hb : b < 32) (hx : x < 32) :
    bitOf ((l.andNotReg a (2 ^ b)).rd a) x = (bitOf (l.rd a) x && decide (b ≠ x)) := by
  rw [← bitOf_and_not_two_pow _ hb hx, Leaf.andNotReg, Leaf.rd_wr_same]
  unfold bitOf
  rw [Nat.testBit_mod_two_pow]
  simp [hx]

/-- A source restored: its DEM bit and its run lengths cleared, and the event. -/
def Leaf.restore (s : Nat) (l : Leaf) : Leaf :=
  ((l.putDemoted s false).setFus { l.fus with agree := alDel s l.fus.agree, dis := alDel s l.fus.dis }).flagEvent
    Fld.FUS_DS_STAT_RESTORE_EV 0x072

/-- A write of FUS_DEMOTE word n restores the demoted sources that it names with ones. -/
theorem Leaf.writeDemote_of_lt (hn : n < 4) (w : Nat) (l : Leaf) : l.writeDemote n w =
    ((List.range 32).filter fun b => bitOf w b && bitOf (l.rd (Reg.FUS_DEMOTE n)) b).foldl (fun m b => m.restore (32 * n + b)) l :=
  if_neg (by omega)

theorem demote_between (hn : n < 4) : 0xB00040 ≤ Reg.FUS_DEMOTE n ∧ Reg.FUS_DEMOTE n < 0xB00050 :=
  show 0xB00040 ≤ 0xB00040 + 0x4 * n ∧ 0xB00040 + 0x4 * n < 0xB00050 by omega

/-- Restoring a source clears its bit of the word alone. -/
theorem Leaf.bitOf_restore (l : Leaf) {b x : Nat} (hn : n < 4) (hb : b < 32) (hx : x < 32) :
    bitOf ((l.restore (32 * n + b)).rd (Reg.FUS_DEMOTE n)) x = (bitOf (l.rd (Reg.FUS_DEMOTE n)) x && decide (b ≠ x)) := by
  have hbet := demote_between hn
  have hword : (32 * n + b) / 32 = n := by omega
  have hbit : (32 * n + b) % 32 = b := by omega
  have hput : l.putDemoted (32 * n + b) false = l.andNotReg (Reg.FUS_DEMOTE n) (2 ^ b) := by
    unfold Leaf.putDemoted
    rw [hword, hbit]
    rfl
  have hstat : Reg.FUS_DS_STAT ≠ Reg.FUS_DEMOTE n := show 0xB0000C ≠ Reg.FUS_DEMOTE n by omega
  have hrd : (l.restore (32 * n + b)).rd (Reg.FUS_DEMOTE n) = (l.andNotReg (Reg.FUS_DEMOTE n) (2 ^ b)).rd (Reg.FUS_DEMOTE n) := by
    unfold Leaf.restore
    rw [hput]
    exact Leaf.rd_flagEvent_other _ (by decide) hstat (by omega)
  rw [hrd, Leaf.bitOf_andNotReg_same l _ hb hx]

theorem Leaf.bitOf_foldl_restore (bs : List Nat) (hbs : ∀ b ∈ bs, b < 32) (hn : n < 4) {x : Nat} (hx : x < 32) (l : Leaf) :
    bitOf ((bs.foldl (fun m b => m.restore (32 * n + b)) l).rd (Reg.FUS_DEMOTE n)) x
      = (bitOf (l.rd (Reg.FUS_DEMOTE n)) x && decide (x ∉ bs)) := by
  induction bs generalizing l with
  | nil => simp
  | cons b t ih =>
    rw [List.foldl_cons, ih (fun y hy => hbs y (by simp [hy])), Leaf.bitOf_restore l hn (hbs b (by simp)) hx, Bool.and_assoc]
    simp [eq_comm]

/-- Writing ones clears those bits. -/
theorem Leaf.bitOf_writeDemote (l : Leaf) (w : Nat) (hn : n < 4) {x : Nat} (hx : x < 32) :
    bitOf ((l.writeDemote n w).rd (Reg.FUS_DEMOTE n)) x = (bitOf (l.rd (Reg.FUS_DEMOTE n)) x && !bitOf w x) := by
  rw [Leaf.writeDemote_of_lt hn, Leaf.bitOf_foldl_restore _ (fun b hb => List.mem_range.mp (List.mem_filter.mp hb).1) hn hx]
  cases hd : bitOf (l.rd (Reg.FUS_DEMOTE n)) x
  · rfl
  · simp [hx, hd]

/-! ## The registers of the block -/

theorem Leaf.fus_adv (l : Leaf) (n : Nat) : (l.adv n).fus = l.fus := Leaf.adv_congr Leaf.fus n fun _ => rfl

theorem Leaf.writeReg_tblCmd (l : Leaf) (w : Nat) : l.writeReg Reg.FUS_TBL_CMD w = l.writeTblCmd w := rfl

theorem Leaf.writeReg_trkNext (l : Leaf) (w : Nat) : l.writeReg Reg.FUS_TRK_NEXT w = l.writeTrkNext w := rfl

/-- A write of a word of FUS_DEMOTE. -/
theorem Leaf.writeReg_demote (l : Leaf) (w : Nat) (hn : n < 4) : l.writeReg (Reg.FUS_DEMOTE n) w = l.writeDemote n w := by
  interval_cases n <;> rfl

end Sys2Proof.Machine
end

section
/-!
PROOFS. The statement about the fusion unit, a lemma for each of its commands.
-/
namespace Sys2Proof.Machine

variable {s : State} {i : LeafId} {c : FusCfg} {j n : Nat}

theorem exec_projectionJob (h : s.ready i = true) (hj : j < 8) :
    exec (.projectionJob i j) s = .next (s.setLeaf i ((s.leaf i).projectJob j)).settle := by
  refine congrArg State.done ?_
  rw [State.indexed_of_lt _ hj, State.eventNow_of_ready h]

theorem exec_fusionGridUpdate (h : s.ready i = true) :
    exec (.fusionGridUpdate i) s = .next (s.setLeaf i (s.leaf i).fusUpdate).settle := congrArg State.done (State.eventNow_of_ready h _)

theorem exec_drTimerExpiry (h : s.ready i = true) (k : Nat) :
    exec (.drTimerExpiry i k) s = .next (s.setLeaf i ((s.leaf i).adv k).drExpire).settle :=
  congrArg State.done (State.event_of_ok ((Leaf.runs_adv k).trans (Leaf.runs_of_ready h)))

theorem exec_fusTblCommit (h : s.ready i = true) (w : Word) :
    exec (.fusTblCommit i w) s = .next (s.setLeaf i (s.leaf i).tblCommit).settle := by
  have hset : bitOf (wordWith w Fld.FUS_TBL_CMD_COMMIT 1) 31 = true := bitOf_setBits_same ..
  refine congrArg State.done ?_
  unfold State.fieldWrite
  rw [State.regWrite_above_tick h _ rfl (by decide), Leaf.writeReg_tblCmd, Leaf.writeTblCmd, if_pos hset]

theorem exec_fusDemoteClear (h : s.ready i = true) (hn : n < 4) (w : Word) :
    exec (.fusDemoteClear i n w) s = .next (s.setLeaf i ((s.leaf i).writeDemote n w.toNat)).settle := by
  have hbet := demote_between hn
  refine congrArg State.done ?_
  rw [State.indexed_of_lt _ hn,
    State.regWrite_above_tick h _ (show (0xB00040 + 0x4 * n) % 4 = 0 by omega) (by omega), Leaf.writeReg_demote _ _ hn]

theorem exec_fusTrkNextWrite (h : s.ready i = true) (w : Word) :
    exec (.fusTrkNextWrite i w) s = .next (s.setLeaf i ((s.leaf i).writeTrkNext w.toNat)).settle := by
  refine congrArg State.done ?_
  rw [State.regWrite_above_tick h _ rfl (by decide), Leaf.writeReg_trkNext]

/-- A projection job takes what its input has, and ends with it (R304). -/
theorem answersWith_projectionJob {p : Nat × Nat} (hr : s.ready i = true) (hj : j < 8) (ht : (s.leaf i).ticking = true)
    (hc : (s.leaf i).fusCfg = some c) (hp : c.pj[j]? = some p) (hin : (alGet (s.leaf i).fab.ports (8 * 64 + 20 + j)).isSome = true)
    (hblind : alGet (s.leaf i).fab.ports (72 * 64 + 20 + j) = none) (hrun : ((s.leaf i).pjRun j).ended = false)
    (hpoison : ((s.leaf i).engPort 8 (20 + j)).poison = false) : AnswersWith (.projectionJob i j) s fun t =>
      ((t.leaf i).pjRun j).taken = ((s.leaf i).engPort 8 (20 + j)).toks.length
      ∧ ((t.leaf i).pjRun j).ended = ((s.leaf i).engPort 8 (20 + j)).ended := by
  obtain ⟨m, ts, left, hfab, hproj⟩ := Leaf.project_of_arrived hc hp hrun hpoison
  have hports : ((s.leaf i).project false j).fab.ports = (s.leaf i).fab.ports := by
    rw [hproj, ← hfab]; exact Leaf.ports_engineSend ..
  have eq := exec_projectionJob hr hj
  rw [Leaf.projectJob_of_tick ht hin hports hblind, hproj] at eq
  refine answersWith_of_setLeaf eq fun t kept _ => ?_
  rw [Leaf.pjRun_of_alSet (congrArg FusState.pj kept.fus)]
  exact ⟨rfl, rfl⟩

/-- The grid is made once every evidence input has had END, whatever becomes of the tracks (R303). -/
theorem answersWith_fusionGridUpdate_ended (hr : s.ready i = true) (ht : (s.leaf i).ticking = true) (hc : (s.leaf i).fusCfg = some c)
    (hg : (s.leaf i).fus.grid = none) (he : (s.leaf i).evidenceEnded c = true) :
    AnswersWith (.fusionGridUpdate i) s fun t => (t.leaf i).fus.grid.isSome = true :=
  answersWith_of_setLeaf (exec_fusionGridUpdate hr) fun t kept _ => by
    rw [kept.fus]; exact Leaf.grid_fusUpdate_of_ended ht hc hg he

/-- Writing ones to a word of FUS_DEMOTE clears those bits alone (R316). -/
theorem answersWith_fusDemoteClear (hr : s.ready i = true) (hn : n < 4) (w : Word) : AnswersWith (.fusDemoteClear i n w) s fun t =>
    ∀ b < 32, bitOf ((t.leaf i).rd (Reg.FUS_DEMOTE n)) b = (bitOf ((s.leaf i).rd (Reg.FUS_DEMOTE n)) b && !bitOf w.toNat b) := by
  have hbet := demote_between hn
  refine answersWith_of_setLeaf (exec_fusDemoteClear hr hn w) fun t kept _ b hb => ?_
  rw [kept.rd_of_between (by omega), Leaf.bitOf_writeDemote _ _ hn hb]

/-- A dead-reckoning time that is out by the count of the event is noted (R324). -/
theorem answers_drTimerExpiry (hr : s.ready i = true) (k : Nat) :
    Answers (.drTimerExpiry i k) s (s.onLeaf i fun x => if (x.adv k).drOut (x.adv k).nowNs
      then { x.adv k with fus := { x.fus with expired := true } } else x.adv k) := by
  have eq := exec_drTimerExpiry hr k
  rw [Leaf.drExpire, Leaf.fus_adv] at eq
  exact answers_of_exec eq

/-- Settles O40: each command by its own lemma; COMMIT and the track number by what their register write makes of the leaf. -/
theorem fusionCommands : Obligations.FusionCommands := by
  intro s i hr
  refine ⟨fun _ _ _ => answersWith_projectionJob hr, fun c ht hc hg => ⟨answersWith_fusionGridUpdate_ended hr ht hc hg, fun he => ?_⟩,
    answers_drTimerExpiry hr, fun w => answers_of_exec (exec_fusTblCommit hr w), fun n w hn => answersWith_fusDemoteClear hr hn w,
    fun w => answers_of_exec (exec_fusTrkNextWrite hr w)⟩
  exact answers_self_of_setLeaf (exec_fusionGridUpdate hr) (Leaf.fusUpdate_of_not_ended ht hc hg he)

end Sys2Proof.Machine
end

section
/-!
PROOFS. The decision on blind work through SPEC_STAT (R338 to R341): confirming and squashing stages, and what follows a decision, write
other registers; and which of the three a decision shows.
-/
namespace Sys2Proof.Machine

variable {l m : Leaf} {w : WorkPose} {a k : Nat}

/-! ## Registers that the parts of a confirmation or a squash leave alone -/

theorem Leaf.rd_wr64_other (l : Leaf) (v : Nat) {lo hi : Nat} (hlo : lo ≠ a) (hhi : hi ≠ a) : (l.wr64 lo hi v).rd a = l.rd a :=
  (Leaf.rd_wr_other _ _ hhi).trans (Leaf.rd_wr_other _ _ hlo)

theorem Leaf.rd_putSlots (l : Leaf) (ix : Nat) {f : Nat → Nat → FieldRef} (v : Nat) (h : ∀ p j, (f p j).addr ≠ a) :
    (l.putSlots ix f v).rd a = l.rd a :=
  Leaf.foldl_congr (·.rd a) _ _ l fun e _ k => Leaf.rd_put_other k _ _ (h e.1 e.2)

theorem Leaf.rd_onRoutes (rs : List Nat) (f : RouteRun → RouteRun) (l : Leaf) : (l.onRoutes rs f).rd a = l.rd a :=
  Leaf.foldl_congr (·.rd a) _ _ l fun _ _ _ => rfl

theorem Leaf.rd_projConfirm (l : Leaf) (j : Nat) : (l.projConfirm j).rd a = l.rd a := Leaf.rd_onRoutes ..

theorem Leaf.rd_projSquash (l : Leaf) (j : Nat) : (l.projSquash j).rd a = l.rd a := Leaf.rd_onRoutes ..

theorem Leaf.rd_sendAgain (dead : List Nat) (s : StageDesc) (x : StageRun) (l : Leaf) : (l.sendAgain dead s x).rd a = l.rd a := by
  refine Leaf.foldl_congr (·.rd a) _ _ l fun p _ k => ?_
  split
  · rfl
  · exact (apply_ite (fun m : Leaf => m.rd a) _ _ _).trans (ite_self _)

theorem Leaf.rd_confirmRows (id : Nat) (l : Leaf) : (l.confirmRows id).rd a = l.rd a := rfl

/-- Contexts are shown in the search block. -/
theorem Leaf.rd_showCtx (l : Leaf) (ha : a < 0xE00000) : l.showCtx.rd a = l.rd a := by
  have hidx (x : Nat) : Reg.SRCH_IDX_ACTIVE x ≠ a := show 0xE01034 + 0x100 * x ≠ a by omega
  have heng (e : Nat) : Reg.SRCH_ENG e ≠ a := show 0xE00100 + 0x4 * e ≠ a by omega
  have hfree : Reg.SRCH_CTX_FREE ≠ a := show 0xE00004 ≠ a by omega
  unfold Leaf.showCtx
  dsimp only
  rw [Leaf.foldl_congr (·.rd a) _ _ _ fun x _ k => Leaf.rd_put_other k _ _ (hidx x), Leaf.rd_put_other _ _ _ hfree]
  exact Leaf.foldl_congr (·.rd a) _ _ l fun e _ k => Leaf.rd_put_other k _ _ (heng e)

/-- So are slots. -/
theorem Leaf.rd_showSlot (l : Leaf) (x : Nat) (ha : a < 0xE00000) : (l.showSlot x).rd a = l.rd a := by
  have hcnt : Reg.SRCH_IDX_SIDE_CNT x ≠ a := show 0xE01030 + 0x100 * x ≠ a by omega
  have hstat : Reg.SRCH_IDX_STAT x ≠ a := show 0xE01014 + 0x100 * x ≠ a by omega
  have hpair {lo hi : Nat} (hlo : 0xE01000 ≤ lo) (hhi : 0xE01000 ≤ hi) (k : Leaf) (v : Nat) : (k.wr64 lo hi v).rd a = k.rd a :=
    Leaf.rd_wr64_other _ _ (by omega) (by omega)
  unfold Leaf.showSlot
  split
  all_goals
    rw [Leaf.rd_put_other _ _ _ hcnt, hpair (Nat.le_add_right_of_le (by decide)) (Nat.le_add_right_of_le (by decide)),
      hpair (Nat.le_add_right_of_le (by decide)) (Nat.le_add_right_of_le (by decide)),
      hpair (Nat.le_add_right_of_le (by decide)) (Nat.le_add_right_of_le (by decide)),
      Leaf.rd_putB_other _ _ _ hstat, Leaf.rd_putB_other _ _ _ hstat, Leaf.rd_putB_other _ _ _ hstat]

theorem Leaf.rd_finishDetach (l : Leaf) (ha : a < 0xE00000) : l.finishDetach.rd a = l.rd a := by
  refine Leaf.foldl_congr (·.rd a) _ _ l fun x _ k => ?_
  split
  · split
    · exact Leaf.rd_showSlot _ x ha
    · rfl
  · rfl

theorem Leaf.rd_releaseCtx (l : Leaf) (ctx : Nat) (ha : a < 0xE00000) : (l.releaseCtx ctx).rd a = l.rd a :=
  (Leaf.rd_finishDetach _ ha).trans (Leaf.rd_showCtx _ ha)

theorem Leaf.rd_bump (l : Leaf) (cls idx : Nat) : (l.bump cls idx).rd a = l.rd a := rfl

theorem Leaf.rd_releaseRows (id : Nat) (l : Leaf) (ha : a < 0xE00000) : (l.releaseRows id).rd a = l.rd a := by
  have hstep (k : Leaf) (ctx : Nat) : (((k.releaseCtx ctx).bump 12 17).bump 14 19).rd a = k.rd a := by
    rw [Leaf.rd_bump, Leaf.rd_bump, Leaf.rd_releaseCtx _ _ ha]
  exact Leaf.foldl_congr (·.rd a) (fun (m : Leaf) (c : Nat × Query) => ((m.releaseCtx c.1).bump 12 17).bump 14 19) _ _
    fun c _ k => hstep k c.1

/-! ## SPEC_STAT through the stages' ends (R340, R341) -/

/-- The slots' registers lie above it. -/
theorem paneSstat_ne_specStat (p j : Nat) : Reg.PANE_SSTAT p j ≠ Reg.SPEC_STAT :=
  show 0x1000100 + 0x10000 * p + 0x10 * j ≠ 0xC00010 by omega

theorem Leaf.specStat_confirmStage (l : Leaf) (ix : Nat) : (l.confirmStage ix).rd Reg.SPEC_STAT = l.rd Reg.SPEC_STAT := by
  unfold Leaf.confirmStage
  split
  · dsimp only
    rw [Leaf.inc, Leaf.rd_put_other _ _ _ (by decide), Leaf.rd_confirmRows, Leaf.rd_putSlots _ _ _ paneSstat_ne_specStat,
      Leaf.rd_putSlots _ _ _ paneSstat_ne_specStat, Leaf.foldl_congr (·.rd _) _ _ _ fun j _ k => k.rd_projConfirm j, Leaf.rd_onRoutes]
    rfl
  · rfl

/-- A stage armed afresh. -/
theorem Leaf.specStat_rearm (l : Leaf) (ix : Nat) (s : StageDesc) :
    ((l.setRun false ix s.fresh).putSlots ix Fld.PANE_SSTAT_ARMED 1).rd Reg.SPEC_STAT = l.rd Reg.SPEC_STAT :=
  Leaf.rd_putSlots _ _ _ paneSstat_ne_specStat

theorem Leaf.specStat_squashStage (dead : List Nat) (rerun : Bool) (l : Leaf) (c : Nat × Nat) :
    (l.squashStage dead rerun c).rd Reg.SPEC_STAT = l.rd Reg.SPEC_STAT := by
  have hcount (k : Leaf) (id n : Nat) :
      (((k.releaseRows id).bump 12 n).inc Fld.SPEC_SQUASH_CNT_COUNT).rd Reg.SPEC_STAT = k.rd Reg.SPEC_STAT :=
    (Leaf.rd_put_other _ _ _ (by decide)).trans (Leaf.rd_releaseRows _ _ (by decide))
  have hslots (k : Leaf) : (k.putSlots c.1 Fld.PANE_SSTAT_BLIND 0).rd Reg.SPEC_STAT = k.rd Reg.SPEC_STAT :=
    Leaf.rd_putSlots _ _ _ paneSstat_ne_specStat
  have hdraw (k : Leaf) : (k.freeDraw.2.countBy 12 18 k.freeDraw.1).rd Reg.SPEC_STAT = k.rd Reg.SPEC_STAT := rfl
  unfold Leaf.squashStage
  split
  · dsimp only
    split
    · rw [Leaf.specStat_rearm, hcount, hdraw, hslots, Leaf.rd_sendAgain, Leaf.foldl_congr (·.rd _) _ _ _ fun j _ k => k.rd_projSquash j,
        Leaf.rd_onRoutes]
      rfl
    · rw [hcount, hdraw, hslots, Leaf.rd_sendAgain, Leaf.foldl_congr (·.rd _) _ _ _ fun j _ k => k.rd_projSquash j, Leaf.rd_onRoutes]
      rfl
  · rfl

/-- Settling the blind stages clears BLIND_RUN and leaves the code of the decision. -/
theorem Leaf.dec_settleBlind (rerun : Bool) (cs : List (Nat × Option Nat)) (l : Leaf) :
    (l.settleBlind rerun cs).get Fld.SPEC_STAT_DEC = l.get Fld.SPEC_STAT_DEC := by
  refine (Leaf.get_putB_disjoint _ Fld.SPEC_STAT_BLIND_RUN Fld.SPEC_STAT_DEC _ rfl (by decide) (by decide) (by decide)).trans
    (Leaf.get_congr ?_)
  exact (Leaf.foldl_congr (·.rd Reg.SPEC_STAT) _ _ _ fun c _ k => k.specStat_confirmStage c.1).trans
    (Leaf.foldl_congr (·.rd Reg.SPEC_STAT) _ _ l fun c _ k => k.specStat_squashStage _ rerun c)

/-! ## The decision (R338, R339) -/

/-- The code that DEC shows for a working pose: 3 without a prediction, 1 inside the gate, 2 outside (Table 12.4). -/
def WorkPose.dec (w : WorkPose) : Nat := if !w.pred then 3 else if w.source != 0 then 2 else 1

theorem WorkPose.dec_eq (w : WorkPose) : w.dec = if w.pred = false then 3 else if w.source = 0 then 1 else 2 := by
  unfold WorkPose.dec
  cases w.pred with
  | false => rfl
  | true => by_cases hs : w.source = 0 <;> simp [hs]

theorem WorkPose.dec_lt (w : WorkPose) : w.dec < 4 := by
  unfold WorkPose.dec
  split
  · decide
  · split
    · decide
    · decide

/-- The registers of a decision, and the event of one outside the gate. -/
def Leaf.decisionShown (w : WorkPose) (l : Leaf) : Leaf :=
  let m := (((l.put Fld.SPEC_STAT_DEC w.dec).wr64 Reg.SPEC_DEC_TICK_LO Reg.SPEC_DEC_TICK_HI w.tick).wr Reg.SPEC_LAST_DPOS w.dpos).wr
    Reg.SPEC_LAST_DYAW w.dyaw
  if w.dec = 2 then m.flagEvent Fld.SPEC_STAT_GATE_EV 0x078 else m

theorem Leaf.dec_decisionShown (l : Leaf) (w : WorkPose) : (l.decisionShown w).get Fld.SPEC_STAT_DEC = w.dec := by
  have hput : ((((l.put Fld.SPEC_STAT_DEC w.dec).wr64 Reg.SPEC_DEC_TICK_LO Reg.SPEC_DEC_TICK_HI w.tick).wr Reg.SPEC_LAST_DPOS w.dpos).wr
      Reg.SPEC_LAST_DYAW w.dyaw).get Fld.SPEC_STAT_DEC = w.dec := by
    rw [Leaf.get_congr (Leaf.rd_wr_other _ _ (by decide)), Leaf.get_congr (Leaf.rd_wr_other _ _ (by decide)),
      Leaf.get_congr (Leaf.rd_wr64_other _ _ (by decide) (by decide)), Leaf.get_put_same _ _ _ (by decide) (by decide)]
    exact Nat.mod_eq_of_lt w.dec_lt
  unfold Leaf.decisionShown
  dsimp only
  split
  · rw [(Leaf.irq_flagEvent _ _ (by decide)).get _ (by decide),
      Leaf.get_putB_disjoint _ Fld.SPEC_STAT_GATE_EV Fld.SPEC_STAT_DEC _ rfl (by decide) (by decide) (by decide), hput]
  · exact hput

/-- A decision for the tick whose working pose is there: shown, the blind stages settled by their causes, and none pending. -/
theorem Leaf.specDecide_of_work (rerun : Bool) (hw : l.spec.work = some w) (ht : w.tick = k) : ∃ cs, ∃ x : SpecState,
    l.specDecide rerun k = ({ (l.decisionShown w).settleBlind rerun cs with
      spec := { x with pending := none, decided := some k } }).putB Fld.SPEC_STAT_PENDING false := by
  subst ht
  unfold Leaf.specDecide
  rw [hw]
  exact ⟨_, _, if_neg (by simp)⟩

/-- What the leaf shows and holds once the decision of tick k is made. -/
structure Leaf.Decided (k : Nat) (w : WorkPose) (l : Leaf) : Prop where
  dec : l.get Fld.SPEC_STAT_DEC = w.dec
  cleared : l.bit Fld.SPEC_STAT_PENDING = false
  pending : l.spec.pending = none
  decided : l.spec.decided = some k

/-- It speaks of SPEC_STAT and of the state of speculation alone. -/
theorem Leaf.Decided.congr (h : l.Decided k w) (hrd : m.rd Reg.SPEC_STAT = l.rd Reg.SPEC_STAT) (hspec : m.spec = l.spec) :
    m.Decided k w where
  dec := (Leaf.get_congr hrd).trans h.dec
  cleared := (Leaf.bit_congr hrd).trans h.cleared
  pending := hspec ▸ h.pending
  decided := hspec ▸ h.decided

theorem Leaf.specDecision_of_pending (hp : l.spec.pending = some k) : l.specDecision = l.specDecide true k := by
  unfold Leaf.specDecision
  rw [hp]

theorem Leaf.decided_specDecision (hp : l.spec.pending = some k) (hw : l.spec.work = some w) (ht : w.tick = k) :
    l.specDecision.Decided k w := by
  obtain ⟨cs, x, e⟩ := Leaf.specDecide_of_work true hw ht
  rw [Leaf.specDecision_of_pending hp, e]
  refine ⟨?_, Leaf.bit_putB_same _ _ _ (by decide) (by decide), rfl, rfl⟩
  rw [Leaf.get_putB_disjoint _ Fld.SPEC_STAT_PENDING Fld.SPEC_STAT_DEC _ rfl (by decide) (by decide) (by decide), ← l.dec_decisionShown w]
  exact Leaf.dec_settleBlind true cs _

/-! ## What follows a decision -/

/-- Rows that join the sources' queues change the search state alone. -/
theorem Leaf.feedSources_congr {β : Type} (g : Leaf → β) (h : ∀ (k : Leaf) x, g (k.setSrch x) = g k) (l : Leaf) :
    g l.feedSources = g l := by
  have hfeed (q tick : Nat) (blind : Bool) (o : Option StageRun) (k : Leaf) : g (k.feedFinished q tick blind o) = g k := by
    unfold Leaf.feedFinished
    split
    · split
      · exact h k _
      · rfl
    · rfl
  refine Leaf.foldl_congr g _ _ l fun q _ k => ?_
  split
  · rename_i ix _ _
    split
    · rfl
    · exact (hfeed q _ true _ (k.feedFinished q k.tickNum false (k.runOf false ix))).trans (hfeed ..)
  · rfl

theorem Leaf.specStat_showClk (l : Leaf) : l.showClk.rd Reg.SPEC_STAT = l.rd Reg.SPEC_STAT :=
  Leaf.foldl_congr (·.rd _) _ _ l fun p _ k =>
    Leaf.rd_putB_other k (Fld.PANE_STATE_CLK_STOP p) _ (show 0x1000004 + 0x10000 * p ≠ 0xC00010 by omega)

theorem Leaf.spec_showClk (l : Leaf) : l.showClk.spec = l.spec := Leaf.foldl_congr Leaf.spec _ _ l fun _ _ _ => rfl

theorem Leaf.Decided.feedSources_showClk (h : l.Decided k w) : l.feedSources.showClk.Decided k w :=
  h.congr ((Leaf.specStat_showClk _).trans (l.feedSources_congr (·.rd _) fun _ _ => rfl))
    ((Leaf.spec_showClk _).trans (l.feedSources_congr Leaf.spec fun _ _ => rfl))

end Sys2Proof.Machine
end

section
/-!
PROOFS. The map's loop verification (R360) and its indirect read of a landmark (R364).
-/
namespace Sys2Proof.Machine

variable {l : Leaf} {a c : Nat}

/-! ## Verification -/

theorem Leaf.verifyDone_of_first {v : Verify} {x : Cand} {rest : List (Nat × Cand)} (hv : l.map.verify = some v)
    (hc : v.cands = (c, x) :: rest) : l.verifyDone c
      = l.setMap { l.map with verify := some { v with cands := rest, done := v.done ++ [(x, l.verifyCand v.tick c x)] } } := by
  unfold Leaf.verifyDone
  simp only [hv, hc, if_true]

/-! ## The index register -/

theorem Leaf.writeReg_lmkIdx (l : Leaf) (w : Nat) : l.writeReg Reg.MAP_LMK_RD_IDX w = l.writeLmkIdx w := rfl

/-- SLOT is the one field of MAP_LMK_RD_IDX that is kept. -/
theorem Leaf.swWrite_lmkIdx (l : Leaf) (w : Nat) :
    l.swWrite Reg.MAP_LMK_RD_IDX w = l.wr Reg.MAP_LMK_RD_IDX (setBits (l.rd Reg.MAP_LMK_RD_IDX) 15 0 (bitsOf w 15 0)) := rfl

theorem Leaf.slot_swWrite_lmkIdx (l : Leaf) (w : Nat) : (l.swWrite Reg.MAP_LMK_RD_IDX w).get Fld.MAP_LMK_RD_IDX_SLOT = bitsOf w 15 0 := by
  unfold Leaf.get
  rw [Leaf.swWrite_lmkIdx, Leaf.rd_wr_same, bitsOf_mod _ _ _ (by decide), bitsOf_setBits_same _ _ _ _ (by decide)]
  exact Nat.mod_eq_of_lt (bitsOf_lt w 15 0)

theorem Leaf.map_swWrite (l : Leaf) (a w : Nat) : (l.swWrite a w).map = l.map := by unfold Leaf.swWrite; split <;> rfl

/-- GO starts the copy. -/
theorem Leaf.writeLmkIdx_go (l : Leaf) {w : Nat} (hw : bitOf w 31 = true) :
    l.writeLmkIdx w = (l.swWrite Reg.MAP_LMK_RD_IDX w).putB Fld.MAP_LMK_RD_IDX_BUSY true := if_pos hw

/-! ## The copy -/

theorem leNat_lt (bs : List Byte) : leNat bs < 256 ^ bs.length := by
  induction bs with
  | nil => decide
  | cons b t ih =>
    have hb : b.toNat < 256 := b.isLt
    rw [leNat, List.length_cons, Nat.pow_succ]
    omega

theorem length_sliceBytes (bs : List Byte) (ofs n : Nat) : (sliceBytes bs ofs n).length = n := by
  unfold sliceBytes
  simp only [List.length_append, List.length_replicate, List.length_take]
  omega

theorem leAt_lt (bs : List Byte) (ofs n : Nat) : leAt bs ofs n < 256 ^ n := by
  have h := leNat_lt (sliceBytes bs ofs n)
  rwa [length_sliceBytes] at h

/-- The data registers filled with an entry's 64 bytes. -/
def Leaf.lmkShown (bs : List Byte) (l : Leaf) : Leaf :=
  (List.range 16).foldl (fun m i => m.wr (Reg.MAP_LMK_RD_DATA i) (leAt bs (4 * i) 4)) l

theorem Leaf.rd_foldl_data_other (bs : List Byte) (xs : List Nat) (l : Leaf) (h : ∀ i ∈ xs, Reg.MAP_LMK_RD_DATA i ≠ a) :
    (xs.foldl (fun m i => m.wr (Reg.MAP_LMK_RD_DATA i) (leAt bs (4 * i) 4)) l).rd a = l.rd a :=
  Leaf.foldl_congr (·.rd a) _ xs l fun i hi _ => Leaf.rd_wr_other _ _ (h i hi)

theorem Leaf.rd_lmkShown_idx (l : Leaf) (bs : List Byte) : (l.lmkShown bs).rd Reg.MAP_LMK_RD_IDX = l.rd Reg.MAP_LMK_RD_IDX :=
  Leaf.rd_foldl_data_other bs _ l fun i _ => show 0xD00084 + 0x4 * i ≠ 0xD00080 by omega

theorem Leaf.map_lmkShown (l : Leaf) (bs : List Byte) : (l.lmkShown bs).map = l.map := Leaf.foldl_congr Leaf.map _ _ l fun _ _ _ => rfl

/-- Each data register holds its four bytes. -/
theorem Leaf.rd_lmkShown_data (l : Leaf) (bs : List Byte) {i : Nat} (hi : i < 16) :
    (l.lmkShown bs).rd (Reg.MAP_LMK_RD_DATA i) = leAt bs (4 * i) 4 := by
  have hfold (xs : List Nat) (hn : xs.Nodup) (hx : i ∈ xs) (m : Leaf) :
      (xs.foldl (fun m j => m.wr (Reg.MAP_LMK_RD_DATA j) (leAt bs (4 * j) 4)) m).rd (Reg.MAP_LMK_RD_DATA i) = leAt bs (4 * i) 4 := by
    induction xs generalizing m with
    | nil => cases hx
    | cons y t ih =>
      obtain ⟨hy, ht⟩ := List.nodup_cons.mp hn
      rcases List.mem_cons.mp hx with rfl | hmem
      · have hother : ∀ j ∈ t, Reg.MAP_LMK_RD_DATA j ≠ Reg.MAP_LMK_RD_DATA i := fun j hj => by
          have hne : j ≠ i := fun h => hy (h ▸ hj)
          exact show 0xD00084 + 0x4 * j ≠ 0xD00084 + 0x4 * i by omega
        rw [List.foldl_cons, Leaf.rd_foldl_data_other bs t _ hother, Leaf.rd_wr_same]
        exact Nat.mod_eq_of_lt (leAt_lt bs (4 * i) 4)
      · exact ih ht hmem _
  exact hfold _ List.nodup_range (List.mem_range.mpr hi) l

theorem Leaf.lmkReadDone_of_idle (h : l.bit Fld.MAP_LMK_RD_IDX_BUSY = false) (ue : Bool) : l.lmkReadDone ue = l := by
  unfold Leaf.lmkReadDone
  rw [h]
  rfl

/-- A copy that read no uncorrectable word. -/
theorem Leaf.lmkReadDone_of_busy (h : l.bit Fld.MAP_LMK_RD_IDX_BUSY = true) : l.lmkReadDone false
    = ((l.lmkShown (l.map.lmk (l.get Fld.MAP_LMK_RD_IDX_SLOT)).bytes).putB Fld.MAP_LMK_RD_IDX_UE
        (l.map.ue.contains (l.get Fld.MAP_LMK_RD_IDX_SLOT))).putB Fld.MAP_LMK_RD_IDX_BUSY false := by
  unfold Leaf.lmkReadDone
  rw [h]
  rfl

end Sys2Proof.Machine
end

section
/-!
PROOFS. The statement about the decision on blind work and the map's commands, a lemma for each command.
-/
namespace Sys2Proof.Machine

variable {s : State} {i : LeafId}

theorem exec_specDecision (h : s.ready i = true) (c : Nat) : exec (.specDecision i c) s
    = .next (s.setLeaf i ((s.leaf i).adv c).specDecision.feedSources.showClk).settle :=
  congrArg State.done (State.runsEvent_of_ready h _ fun x => x.specDecision.feedSources.showClk)

theorem exec_loopVerificationDone (h : s.ready i = true) (k : Nat) :
    exec (.loopVerificationDone i k) s = .next (s.setLeaf i ((s.leaf i).verifyDone k)).settle :=
  congrArg State.done (State.eventNow_of_ready h _)

theorem exec_lmkGo (h : s.ready i = true) (w : Word) :
    exec (.lmkGo i w) s = .next (s.setLeaf i ((s.leaf i).writeLmkIdx (setBits w.toNat 31 31 1))).settle := by
  refine congrArg State.done ?_
  unfold State.fieldWrite
  rw [State.regWrite_above_tick h _ rfl (by decide), Leaf.writeReg_lmkIdx]
  rfl

theorem exec_lmkReadDone (h : s.ready i = true) (ue : Bool) :
    exec (.lmkReadDone i ue) s = .next (s.setLeaf i ((s.leaf i).lmkReadDone ue)).settle :=
  congrArg State.done (State.eventNow_of_ready h _)

/-- A pending decision whose pose is there is made, and shows which it is (R338, R339). -/
theorem answersWith_specDecision (hr : s.ready i = true) (c : Nat) {k : Nat} {w : WorkPose} (hp : (s.leaf i).spec.pending = some k)
    (hw : (s.leaf i).spec.work = some w) (ht : w.tick = k) : AnswersWith (.specDecision i c) s fun t =>
      (t.leaf i).get Fld.SPEC_STAT_DEC = (if w.pred = false then 3 else if w.source = 0 then 1 else 2)
      ∧ (t.leaf i).bit Fld.SPEC_STAT_PENDING = false ∧ (t.leaf i).spec.pending = none ∧ (t.leaf i).spec.decided = some k := by
  rw [← Leaf.spec_adv _ c] at hp hw
  refine answersWith_of_setLeaf (exec_specDecision hr c) fun t kept _ => ?_
  obtain ⟨hdec, hbit, hpend, hdone⟩ :=
    (Leaf.decided_specDecision hp hw ht).feedSources_showClk.congr (kept.rd_of_between (by decide)) kept.spec
  exact ⟨hdec.trans w.dec_eq, hbit, hpend, hdone⟩

/-- GO takes SLOT and holds BUSY (R364). -/
theorem answersWith_lmkGo (hr : s.ready i = true) (w : Word) : AnswersWith (.lmkGo i w) s fun t =>
    (t.leaf i).bit Fld.MAP_LMK_RD_IDX_BUSY = true ∧ (t.leaf i).get Fld.MAP_LMK_RD_IDX_SLOT = bitsOf w.toNat 15 0
      ∧ (t.leaf i).map = (s.leaf i).map := by
  have e := exec_lmkGo hr w
  rw [Leaf.writeLmkIdx_go _ (bitOf_setBits_same ..)] at e
  refine answersWith_of_setLeaf e fun t kept _ => ⟨?_, ?_, ?_⟩
  · rw [kept.bit_of_between (by decide), Leaf.bit_putB_same _ _ _ (by decide) (by decide)]
  · rw [Leaf.get_congr (kept.rd_of_between (by decide)),
      Leaf.get_putB_disjoint _ Fld.MAP_LMK_RD_IDX_BUSY Fld.MAP_LMK_RD_IDX_SLOT _ rfl (by decide) (by decide) (by decide),
      Leaf.slot_swWrite_lmkIdx, bitsOf_setBits_disjoint _ _ _ _ _ _ le_rfl (by decide)]
  · rw [kept.map, Leaf.putB_map, Leaf.map_swWrite]

/-- The end of a copy shows the entry's bytes, whether it is marked uncorrectable, and BUSY 0 (R364). -/
theorem answersWith_lmkReadDone (hr : s.ready i = true) (hb : (s.leaf i).bit Fld.MAP_LMK_RD_IDX_BUSY = true) :
    AnswersWith (.lmkReadDone i false) s fun t =>
      (t.leaf i).bit Fld.MAP_LMK_RD_IDX_BUSY = false ∧ (t.leaf i).map = (s.leaf i).map
      ∧ (t.leaf i).bit Fld.MAP_LMK_RD_IDX_UE = (s.leaf i).map.ue.contains ((s.leaf i).get Fld.MAP_LMK_RD_IDX_SLOT)
      ∧ ∀ j < 16, (t.leaf i).rd (Reg.MAP_LMK_RD_DATA j) =
          leAt ((s.leaf i).map.lmk ((s.leaf i).get Fld.MAP_LMK_RD_IDX_SLOT)).bytes (4 * j) 4 := by
  have e := exec_lmkReadDone hr false
  rw [Leaf.lmkReadDone_of_busy hb] at e
  refine answersWith_of_setLeaf e fun t kept _ => ⟨?_, ?_, ?_, fun j hj => ?_⟩
  · rw [kept.bit_of_between (by decide), Leaf.bit_putB_same _ _ _ (by decide) (by decide)]
  · rw [kept.map, Leaf.putB_map, Leaf.putB_map, Leaf.map_lmkShown]
  · rw [kept.bit_of_between (by decide),
      Leaf.bit_putB_disjoint _ Fld.MAP_LMK_RD_IDX_BUSY Fld.MAP_LMK_RD_IDX_UE _ rfl (by decide) (by decide) (by decide),
      Leaf.bit_putB_same _ _ _ (by decide) (by decide)]
  · have hdata : Reg.MAP_LMK_RD_IDX ≠ Reg.MAP_LMK_RD_DATA j := show 0xD00080 ≠ 0xD00084 + 0x4 * j by omega
    have hbetween : 0x500000 ≤ Reg.MAP_LMK_RD_DATA j ∧ Reg.MAP_LMK_RD_DATA j < 0x1C00000 :=
      show 0x500000 ≤ 0xD00084 + 0x4 * j ∧ 0xD00084 + 0x4 * j < 0x1C00000 by omega
    rw [kept.rd_of_between hbetween, Leaf.rd_putB_other _ _ _ hdata, Leaf.rd_putB_other _ _ _ hdata, Leaf.rd_lmkShown_data _ _ hj]

/-- Settles O41: each command by its own lemma; a verified candidate by the one case of verifyDone that takes the first of the list. -/
theorem speculationAndMapCommands : Obligations.SpeculationAndMapCommands := by
  intro s i hr
  refine ⟨fun c k w => answersWith_specDecision hr c, fun v k x rest hv hc => answers_of_exec ?_, answersWith_lmkGo hr,
    answersWith_lmkReadDone hr,
    fun hidle ue => answers_self_of_setLeaf (exec_lmkReadDone hr ue) (Leaf.lmkReadDone_of_idle hidle ue)⟩
  rw [exec_loopVerificationDone hr, Leaf.verifyDone_of_first hv hc]
  rfl

end Sys2Proof.Machine
end

section
/-!
PROOFS. The queue of waiting commands: no operation of the machine changes it.
-/
namespace Sys2Proof.Machine

/-! ## Shared forms -/

variable (s : State) (i : LeafId)

theorem State.pending_ite (c : Prop) [Decidable c] (a b : State) : (if c then a else b).pending = if c then a.pending else b.pending :=
  apply_ite State.pending c a b

/-- A choice between two states of the same queue. -/
theorem State.pending_ite_of {c : Prop} [Decidable c] {a b : State} (ha : a.pending = s.pending) (hb : b.pending = s.pending) :
    (if c then a else b).pending = s.pending := by
  split <;> assumption

@[simp] theorem State.pending_event (c : Nat) (ok : Leaf → Bool) (f : Leaf → Leaf) : (s.event i c ok f).pending = s.pending :=
  State.pending_onLeaf ..

@[simp] theorem State.pending_eventNow (ok : Leaf → Bool) (f : Leaf → Leaf) : (s.eventNow i ok f).pending = s.pending :=
  State.pending_onLeaf ..

@[simp] theorem State.pending_complete (data : List Byte) (ep abort : Bool) : (s.complete data ep abort).pending = s.pending := rfl

/-! ## Agreement and resets -/

@[simp] theorem State.pending_agreeFault (x : AgreeInfo) : (s.agreeFault x).pending = s.pending := rfl

@[simp] theorem State.pending_partnerDown : (s.partnerDown i).pending = s.pending := by
  unfold State.partnerDown; split <;> rfl

@[simp] theorem State.pending_leafReset (c : Nat) (fault : Option (Nat × Nat)) : (s.leafReset i c fault).pending = s.pending := by
  unfold State.leafReset
  split
  · rfl
  · rw [State.pending_partnerDown, State.pending_setLeaf]

@[simp] theorem State.pending_resetLeaf (c : Nat) (fault : Option (Nat × Nat)) : (s.resetLeaf i c fault).pending = s.pending := by
  unfold State.resetLeaf
  dsimp only
  split <;> simp -implicitDefEqProofs

@[simp] theorem State.pending_hingeCause (c : Nat) : (s.hingeCause c).pending = s.pending := by unfold State.hingeCause; split <;> rfl

@[simp] theorem State.pending_hingeRelease : s.hingeRelease.pending = s.pending := by unfold State.hingeRelease; split <;> rfl

@[simp] theorem State.pending_stampPair (m p : StampMsg) : (s.stampPair i m p).pending = s.pending := by
  unfold State.stampPair
  dsimp only
  split <;> rfl

@[simp] theorem State.pending_stampToHinge : (s.stampToHinge i).pending = s.pending := by
  unfold State.stampToHinge
  split
  · rfl
  · dsimp only
    split
    · simp -implicitDefEqProofs
    · split <;> simp -implicitDefEqProofs

@[simp] theorem State.pending_stampUnpaired (src seq : Nat) : (s.stampUnpaired i src seq).pending = s.pending := by
  unfold State.stampUnpaired
  split <;> simp -implicitDefEqProofs

@[simp] theorem State.pending_digestArrives (m : DigestMsg) : (s.digestArrives i m).pending = s.pending := by
  unfold State.digestArrives
  dsimp only
  split
  · rfl
  · split
    · rfl
    · split
      · split <;> rfl
      · split <;> rfl

@[simp] theorem State.pending_digestToHinge : (s.digestToHinge i).pending = s.pending := by
  unfold State.digestToHinge
  split <;> simp -implicitDefEqProofs

@[simp] theorem State.pending_digestMissing (tick : Nat) (id : Option Nat) : (s.digestMissing i tick id).pending = s.pending := by
  unfold State.digestMissing
  dsimp only
  split <;> rfl

/-! ## Boot -/

@[simp] theorem State.pending_bootPhase5 : (s.bootPhase5 i).pending = s.pending := by
  unfold State.bootPhase5
  have hset (m : Leaf) (f : Hinge → Hinge) : ((s.setLeaf i m).onHinge f).pending = s.pending :=
    (State.pending_onHinge ..).trans (State.pending_setLeaf ..)
  refine s.pending_ite_of (State.pending_onHinge ..) ?_
  dsimp only
  split
  · exact hset _ _
  · exact s.pending_ite_of (hset _ _) (hset _ _)

@[simp] theorem State.pending_bootPhase6 (us : Nat) : (s.bootPhase6 i us).pending = s.pending := by
  unfold State.bootPhase6
  dsimp only
  split <;> simp -implicitDefEqProofs

@[simp] theorem State.pending_bootNext (p us : Nat) : (s.bootNext i p us).pending = s.pending := by
  unfold State.bootNext
  split <;> simp -implicitDefEqProofs

@[simp] theorem State.pending_bootPhaseDone (c us : Nat) (out : BootOutcome) : (s.bootPhaseDone i c us out).pending = s.pending := by
  unfold State.bootPhaseDone
  dsimp only
  split
  · rfl
  · split <;> simp -implicitDefEqProofs

@[simp] theorem State.pending_hostBootGo : (s.hostBootGo i).pending = s.pending := by unfold State.hostBootGo; split <;> simp -implicitDefEqProofs

@[simp] theorem State.pending_hostBootDone (err : Bool) (image : List Byte) : (s.hostBootDone i err image).pending = s.pending := by
  unfold State.hostBootDone
  simp -implicitDefEqProofs [State.pending_ite]

/-! ## Barrier and ticks -/

@[simp] theorem State.pending_barFire : s.barFire.pending = s.pending := by
  unfold State.barFire
  simp -implicitDefEqProofs [State.pending_ite]

@[simp] theorem State.pending_writeBarCtrl (w : Nat) : (s.writeBarCtrl w).pending = s.pending := by
  unfold State.writeBarCtrl
  simp -implicitDefEqProofs [State.pending_ite]

@[simp] theorem State.pending_barPulse : s.barPulse.pending = s.pending := by
  unfold State.barPulse
  dsimp only
  split
  · rfl
  · split <;> rfl

@[simp] theorem State.pending_barPulseEnd : s.barPulseEnd.pending = s.pending := by
  unfold State.barPulseEnd
  dsimp only
  split
  · rfl
  · split <;> rfl

@[simp] theorem State.pending_barrierIn : s.barrierIn.pending = s.pending := rfl

@[simp] theorem State.pending_agreeStart (n : Nat) : (s.agreeStart n).pending = s.pending := by
  unfold State.agreeStart
  dsimp only
  split <;> rfl

@[simp] theorem State.pending_tickBoundary (late : Bool) : (s.tickBoundary i late).pending = s.pending := by
  unfold State.tickBoundary
  simp -implicitDefEqProofs [State.pending_ite]

@[simp] theorem State.pending_boundaryAt (c : Nat) (late : Bool) : (s.boundaryAt i c late).pending = s.pending := by
  unfold State.boundaryAt
  simp -implicitDefEqProofs [State.pending_ite]

/-! ## Queue pairs -/

@[simp] theorem State.pending_sqDoorbell (q w : Nat) (v : Via) : (s.sqDoorbell i q w v).pending = s.pending := by
  unfold State.sqDoorbell State.doorbellBad
  simp -implicitDefEqProofs [State.pending_ite]

@[simp] theorem State.pending_cqDoorbell (q w : Nat) (v : Via) : (s.cqDoorbell i q w v).pending = s.pending := by
  unfold State.cqDoorbell State.doorbellBad
  simp -implicitDefEqProofs [State.pending_ite]

@[simp] theorem State.pending_commandFetch (q : Nat) (entry : List Byte) : (s.commandFetch i q entry).pending = s.pending := by
  unfold State.commandFetch
  simp -implicitDefEqProofs [State.pending_ite]

@[simp] theorem State.pending_cmdAccess (c : HostCmd) (addr : Nat) (write : Bool) : (s.cmdAccess i c addr write).pending = s.pending :=
  State.pending_onLeaf ..

@[simp] theorem State.pending_cmdNop (q tag : Nat) : (s.cmdNop i q tag).pending = s.pending := by
  unfold State.cmdNop
  split <;> simp -implicitDefEqProofs

@[simp] theorem State.pending_cmdSearch (q tag : Nat) : (s.cmdSearch i q tag).pending = s.pending := by
  unfold State.cmdSearch
  dsimp only
  split
  · rfl
  · split
    · simp -implicitDefEqProofs
    · split
      · simp -implicitDefEqProofs
      · split <;> simp -implicitDefEqProofs

@[simp] theorem State.pending_cmdCopy (op q tag : Nat) : (s.cmdCopy i op q tag).pending = s.pending := by
  unfold State.cmdCopy
  split
  · rfl
  · split <;> simp -implicitDefEqProofs

@[simp] theorem State.pending_copyDone (q tag : Nat) (data : List Byte) (err poison : Bool) :
    (s.copyDone i q tag data err poison).pending = s.pending := by
  unfold State.copyDone
  dsimp only
  split
  · rfl
  · simp -implicitDefEqProofs [State.pending_ite]

@[simp] theorem State.pending_cmdAbort (q tag : Nat) : (s.cmdAbort i q tag).pending = s.pending := by
  unfold State.cmdAbort
  dsimp only
  split
  · rfl
  · split
    · simp -implicitDefEqProofs
    · split <;> simp -implicitDefEqProofs

@[simp] theorem State.pending_queueCmd {f : State → State} (hf : (f s).pending = s.pending) (q : Nat) :
    (s.queueCmd i q f).pending = s.pending := by
  unfold State.queueCmd
  split
  · exact hf
  · rfl

@[simp] theorem State.pending_holdDrain : (s.holdDrain i).pending = s.pending := State.pending_setLeaf ..

@[simp] theorem State.pending_groupTimeout (g : Nat) : (s.groupTimeout g).pending = s.pending := by
  unfold State.groupTimeout
  simp -implicitDefEqProofs [State.pending_ite]

/-! ## Accesses -/

@[simp] theorem State.pending_noAnswer : (s.noAnswer i).pending = s.pending := by
  unfold State.noAnswer
  simp -implicitDefEqProofs [State.pending_ite]

@[simp] theorem State.pending_apRefused (addr cause : Nat) (write : Bool) : (s.apRefused addr cause write).pending = s.pending := by
  unfold State.apRefused
  simp -implicitDefEqProofs [State.pending_ite]

@[simp] theorem State.pending_aperture (o : Nat) (acc : HostAccess) (out : WordOutcome) : (s.aperture o acc out).pending = s.pending := by
  unfold State.aperture
  cases acc <;> simp -implicitDefEqProofs [State.pending_ite]

@[simp] theorem State.pending_pf1Access (o : Nat) (acc : HostAccess) : (s.pf1Access o acc).pending = s.pending := by
  unfold State.pf1Access
  cases acc <;> simp -implicitDefEqProofs [State.pending_ite]

@[simp] theorem State.pending_leafWrite (a w : Nat) : (s.leafWrite i a w).pending = s.pending := by
  unfold State.leafWrite
  dsimp only
  split
  · simp -implicitDefEqProofs
  · split <;> simp -implicitDefEqProofs [State.pending_ite]

@[simp] theorem State.pending_writeMode (w : Nat) : (s.writeMode w).pending = s.pending := by
  unfold State.writeMode
  simp -implicitDefEqProofs [State.pending_ite]

@[simp] theorem State.pending_writeLeafCtrl (w : Nat) : (s.writeLeafCtrl w).pending = s.pending := by
  unfold State.writeLeafCtrl
  simp -implicitDefEqProofs [State.pending_ite]

@[simp] theorem State.pending_writeHboot (w : Nat) : (s.writeHboot w).pending = s.pending := by
  unfold State.writeHboot
  simp -implicitDefEqProofs [State.pending_ite]

@[simp] theorem State.pending_writeAgreeStat (w : Nat) : (s.writeAgreeStat w).pending = s.pending := by
  unfold State.writeAgreeStat
  simp -implicitDefEqProofs [State.pending_ite]

@[simp] theorem State.pending_hingeWrite (a w : Nat) : (s.hingeWrite a w).pending = s.pending := by
  unfold State.hingeWrite
  refine s.pending_ite_of rfl (s.pending_ite_of (by simp) (s.pending_ite_of (by simp) (s.pending_ite_of (by simp)
    (s.pending_ite_of (by simp) (s.pending_ite_of rfl (s.pending_ite_of rfl (s.pending_ite_of (by simp) ?_)))))))
  split
  · exact State.pending_groupTimeout ..
  · rfl

@[simp] theorem State.pending_pf0Write (a w : Nat) : (s.pf0Write a w).pending = s.pending := by
  unfold State.pf0Write
  split
  · rfl
  · split <;> simp -implicitDefEqProofs

@[simp] theorem State.pending_pf0Read (a : Nat) : (s.pf0Read a).pending = s.pending := by
  unfold State.pf0Read
  split
  · rfl
  · split <;> simp -implicitDefEqProofs [State.pending_ite]

@[simp] theorem State.pending_regWrite (a w : Nat) : (s.regWrite i a w).pending = s.pending := State.pending_pf0Write ..

@[simp] theorem State.pending_fieldWrite (f : FieldRef) (v : Nat) (w : Word) : (s.fieldWrite i f v w).pending = s.pending :=
  State.pending_regWrite ..

@[simp] theorem State.pending_hingeField (f : FieldRef) (v : Nat) (w : Word) : (s.hingeField f v w).pending = s.pending :=
  State.pending_pf0Write ..

theorem State.pending_indexed {f : State → State} (hf : (f s).pending = s.pending) (n x : Nat) : (s.indexed n x f).pending = s.pending :=
  s.pending_ite_of hf rfl

theorem State.pending_sourceNamed {f : State → State} (hf : (f s).pending = s.pending) (src : Nat) :
    (sourceNamed src f s).pending = s.pending := s.pending_ite_of hf rfl

end Sys2Proof.Machine
end

section
/-!
PROOFS. Every command answers a next state and leaves the queue of waiting commands; what a step runs; and that every step keeps shown what
SAFE_N, SAFE_WHY and MIRROR stand for.
-/
namespace Sys2Proof.Machine

variable {s : State}

/-! ## Every command leaves the queue -/

/-- A command that ends in the settling of a state with the same queue. -/
theorem State.command_pending {s s1 : State} {c : Instr} (h : s1.pending = s.pending) (e : exec c s = .next s1.settle) :
    ∃ t, exec c s = .next t ∧ t.pending = s.pending := ⟨_, e, (settle_kept s1).pending.trans h⟩

theorem exec_pending (c : Instr) (s : State) : ∃ t, exec c s = .next t ∧ t.pending = s.pending := by
  cases c
  case bridgeSlewEnd | vtAutoSwitch | syncReceived | followUpReceived | pdelayMessageReceived | pdelayInitiate | ppsEdge |
    frameReceived | frameTransmit | fdbAgeOut | subTickBoundary | uartMessage | uartByteSent | filtSyncEdge | filtSyncTickReset |
    egoPropagation | drTimerExpiry | specDecision | queryDeadline | opEvaluation | vrail | peakEvaluation | tempSample | coolStale |
    regionSkew | sleepEntryDone | wakeAlarm | wakeEventTimer | canBusWake | wkupEdge | wakeComplete | snapshotDone | clockFault |
    cfgParityScan | dramChan | hingeHeartbeat | hingeLost | lifetimeRecordWrite | voltageCheck =>
    exact State.command_pending (s.pending_event ..) rfl
  case glazeChecksDone | updateVerified | fuseOperationDone | stageFire | tokenArrival | creditReturn | granuleFetchDone |
    flashReadDone | dramScrubPass | dramRepairDone | memRwDone | flashRefresh | lidarDatagram | visionJobStart | visionJobComplete |
    visionResetDone | fusionGridUpdate | blindStart | loopVerificationDone | lmkReadDone | queryAdmit | walkReadDone | queryComplete |
    sideCmdDone | mergeDone | srchFwDone | solverJobStart | solverJobComplete | assignStart | assignComplete | solverResetDone |
    railSettled | fwuDone | dramReadDone =>
    exact State.command_pending (s.pending_eventNow ..) rfl
  case start | halt | load | update | cancel | prog1 | revoke0 | revoke1 | rewrite | writeback | filtSyncArm | filtSyncCancel |
    egoReset | fusTblCommit | lmkGo | mergeGo | mergeAbort | srchFwGo | graphReq | solverReset | clutchRead | clutchWrite |
    tripClear | sleepReq | wake | snap | fwuGo | faultClear =>
    exact State.command_pending (s.pending_fieldWrite ..) rfl
  case vtSelWrite | cap | keyUnlock | uartTx | fusTrkNextWrite | irqEoi | fltInjKeyWrite | fdbRead | fdbWriteStatic | fdbDelete |
    fdbFlushLearned | sideInsert | sideDelete | injectCreditSum | injectSramError | injectDigestBit | injectLinkCrc |
    injectCfgParity | coolantWrite =>
    exact State.command_pending (s.pending_regWrite ..) rfl
  case rearm | agreeFaultClear | barFire | barrierCancel | violLogClear | goA | goB | rstA | rstB =>
    exact State.command_pending (s.pending_hingeField ..) rfl
  case registerWrite | hingeModeWrite => exact State.command_pending (s.pending_pf0Write ..) rfl
  case syncTimeout | triggerPulse | qbvGateEvent | qbvConfigTakeEffect | cameraPacket | cameraFrameDue | exposureTrigger |
    imuDataReady | canFrameReceived | canBusRecovery | irqCoalesceTimeout =>
    refine State.command_pending (s.pending_indexed ?_ _ _) rfl
    exact s.pending_event ..
  case i2cDone | spiTransactionDone | projectionJob | attachDone =>
    exact State.command_pending (s.pending_indexed (s.pending_eventNow ..) ..) rfl
  case domRate | domStep | domSet | fusDemoteClear | irqPendWrite | irqMaskWrite | irqTgtWrite | triggerReprogram | sqDoorbell |
    cqDoorbell =>
    exact State.command_pending (s.pending_indexed (s.pending_regWrite ..) ..) rfl
  case pathSuspectClear | triggerArm | triggerDisarm | qbvChange | i2cGo | filtChannelEnable | swap | attach | detach |
    queueEnable | queueDisable =>
    exact State.command_pending (s.pending_indexed (s.pending_fieldWrite ..) ..) rfl
  case visionEngineReset => exact State.command_pending (s.pending_ite_of rfl (s.pending_indexed (s.pending_fieldWrite ..) ..)) rfl
  case sourceEnable | sourceDisable => exact State.command_pending (s.pending_sourceNamed (s.pending_fieldWrite ..) _) rfl
  case sourceLinkLost | sourceItemTimeout => exact State.command_pending (s.pending_sourceNamed (s.pending_event ..) _) rfl
  case perstNAssert | perstNRelease | flr | pcieConfigWrite | linkStateChange => exact State.command_pending (s.pending_onHinge _) rfl
  case powerOn => exact State.command_pending (s1 := s.powerOn) rfl rfl
  case resetNLow => exact State.command_pending (s.pending_hingeCause 1) rfl
  case railUndervoltage rail =>
    cases rail
    case vddCore l => exact State.command_pending (s.pending_resetLeaf ..) rfl
    all_goals exact State.command_pending (s.pending_hingeCause 2) rfl
  case resetNRelease => exact State.command_pending s.pending_hingeRelease rfl
  case lockstep => exact State.command_pending (s.pending_ite_of (s.pending_resetLeaf ..) rfl) rfl
  case watchdog l c =>
    have hadv := s.pending_onLeaf l fun x => x.adv c
    exact State.command_pending (s.pending_ite_of ((State.pending_resetLeaf ..).trans hadv) hadv) rfl
  case stampToHinge => exact State.command_pending (s.pending_stampToHinge _) rfl
  case stampUnpaired => exact State.command_pending (s.pending_stampUnpaired ..) rfl
  case digestToHinge => exact State.command_pending (s.pending_digestToHinge _) rfl
  case digestMissing => exact State.command_pending (s.pending_digestMissing ..) rfl
  case barrierInEdge ca cb =>
    have hadv : ((s.onLeaf .A fun x => x.adv ca).onLeaf .B fun x => x.adv cb).pending = s.pending :=
      (State.pending_onLeaf ..).trans (State.pending_onLeaf ..)
    exact State.command_pending (s.pending_ite_of hadv ((State.pending_barrierIn _).trans hadv)) rfl
  case barrierOutPulse c => exact State.command_pending ((State.pending_barPulse _).trans (s.pending_onLeaf ..)) rfl
  case tickBoundary | boundLate => exact State.command_pending (s.pending_boundaryAt ..) rfl
  case commandFetch => exact State.command_pending (s.pending_queueCmd _ (s.pending_commandFetch ..) _) rfl
  case nop => exact State.command_pending (s.pending_queueCmd _ (s.pending_cmdNop ..) _) rfl
  case search => exact State.command_pending (s.pending_queueCmd _ (s.pending_cmdSearch ..) _) rfl
  case copyIn | copyOut => exact State.command_pending (s.pending_queueCmd _ (s.pending_cmdCopy ..) _) rfl
  case abort => exact State.command_pending (s.pending_queueCmd _ (s.pending_cmdAbort ..) _) rfl
  case copyDone => exact State.command_pending (s.pending_queueCmd _ (s.pending_copyDone ..) _) rfl
  case holdDrain => exact State.command_pending (s.pending_ite_of (s.pending_holdDrain _) rfl) rfl
  case cqCoalesceTimeout g c =>
    refine State.command_pending (s.pending_indexed ?_ _ _) rfl
    exact (State.pending_groupTimeout _ g).trans (s.pending_onLeaf ..)
  case apertureAccess => exact State.command_pending (s.pending_aperture ..) rfl
  case pf1WindowAccess => exact State.command_pending (s.pending_pf1Access ..) rfl
  case registerRead => exact State.command_pending (s.pending_pf0Read _) rfl
  case bootPhaseDone =>
    exact State.command_pending ((State.pending_eventNow ..).trans (s.pending_bootPhaseDone ..)) rfl
  case hostBootFetchDone => exact State.command_pending (s.pending_hostBootDone ..) rfl
  case pulseEnd pin c =>
    cases pin
    case barrierOut => exact State.command_pending ((State.pending_barPulseEnd _).trans (s.pending_onLeaf ..)) rfl
    all_goals exact State.command_pending (s.pending_event ..) rfl
  case linkUp link =>
    cases link
    all_goals exact State.command_pending (s.pending_eventNow ..) rfl

/-- Settles O2: each command's own part of the state leaves the queue, and so does settling. -/
theorem everyCommandCompletesAndLeavesQueue : Obligations.EveryCommandCompletesAndLeavesQueue := exec_pending

/-! ## What a step runs -/

theorem idle_eq (s : State) : idle s = { s with
    leafA := if s.leafA.boot.pll then { s.leafA with count := s.leafA.count + 1 } else s.leafA
    leafB := if s.leafB.boot.pll then { s.leafB with count := s.leafB.count + 1 } else s.leafB } := by
  have hadv (l : Leaf) : l.adv (l.count + 1) = if l.boot.pll then { l with count := l.count + 1 } else l := by
    unfold Leaf.adv
    rw [Nat.max_eq_right (Nat.le_succ _)]
  unfold idle
  rw [hadv, hadv]

/-- Settles O1. -/
theorem stepRunsFrontCommand : Obligations.StepRunsFrontCommand :=
  ⟨step_cons, fun s h => (step_nil s h).trans (congrArg Host.Outcome.next (idle_eq s))⟩

/-! ## What a step shows -/

/-- The local count is no condition of SAFE_N, nor shown by LEAF_STATUS. -/
theorem Leaf.safeShown_adv {l : Leaf} (h : l.safeShown) (n : Nat) : (l.adv n).safeShown :=
  (Leaf.adv_congr Leaf.safeShown n fun _ => rfl).mpr h

theorem State.leaf_idle (s : State) (i : LeafId) : (idle s).leaf i = (s.leaf i).adv ((s.leaf i).count + 1) := by cases i <;> rfl

theorem idle_shown (h : s.Shown) : (idle s).Shown := fun i => by
  refine ⟨State.leaf_idle s i ▸ Leaf.safeShown_adv (h i).1 _, ?_⟩
  unfold State.mirrorShown
  rw [State.leaf_idle, Leaf.boot_adv, Leaf.bit_congr (Leaf.rd_adv ..)]
  exact (h i).2

/-- A command ends by settling, and a settled state shows what its pins and status bits stand for. -/
theorem exec_shown {c : Instr} {t : State} (e : exec c s = .next t) : t.Shown := by
  obtain ⟨s1, e1⟩ := exec_settles c s
  obtain rfl := Host.Outcome.next.inj (e1.symm.trans e)
  exact settle_shown s1

/-- Settles O3: a command ends in a settled state; the idle step changes the local counts alone. -/
theorem everyStepShowsSafeAndMirror : Obligations.EveryStepShowsSafeAndMirror := by
  intro s t e h
  unfold step at e
  split at e
  · obtain rfl := Host.Outcome.next.inj e
    exact idle_shown h
  · exact exec_shown e

/-- Settles O4: both leaves are in reset, where SAFE_N is asserted and neither part of the invariant asks for more. -/
theorem resetShowsSafeAndMirror : Obligations.ResetShowsSafeAndMirror := by
  have hheld (i : LeafId) : (State.reset.leaf i).boot.held ≠ false := by cases i <;> decide
  refine ⟨fun i => ⟨fun h => absurd h (hheld i), fun h => absurd h (hheld i)⟩, fun i => ?_⟩
  cases i <;> rfl

end Sys2Proof.Machine
end

section
/-!
PROOFS. Queries of the Mullion engines (R371 to R388): what their reads and their ends leave alone, and the statement about their commands.
-/
namespace Sys2Proof.Machine

variable {s : State} {i : LeafId} {l m : Leaf} {ctx : Nat} {q : Query}

/-! ## What the reads of a query leave alone (R372 to R374, R390) -/

/-- The state of the engines but for the table of bad codewords. -/
def Leaf.engines (l : Leaf) : SrchState := { l.srch with bad := [], badLog := [] }

theorem Leaf.rows_of_engines (h : m.engines = l.engines) : m.srch.rows = l.srch.rows := by simpa [Leaf.engines] using congrArg SrchState.rows h

theorem Leaf.host_of_engines (h : m.engines = l.engines) : m.srch.host = l.srch.host := by simpa [Leaf.engines] using congrArg SrchState.host h

theorem Leaf.ctxs_of_engines (h : m.engines = l.engines) : m.srch.ctxs = l.srch.ctxs := by simpa [Leaf.engines] using congrArg SrchState.ctxs h

theorem Leaf.slots_of_engines (h : m.engines = l.engines) : m.srch.slots = l.srch.slots := by simpa [Leaf.engines] using congrArg SrchState.slots h

theorem Leaf.IrqOnly.srch (h : l.IrqOnly m) : m.srch = l.srch := by rw [h.eq]

@[simp] theorem Leaf.srch_put (l : Leaf) (f : FieldRef) (v : Nat) : (l.put f v).srch = l.srch := (rfl)

@[simp] theorem Leaf.srch_putB (l : Leaf) (f : FieldRef) (b : Bool) : (l.putB f b).srch = l.srch := (rfl)

@[simp] theorem Leaf.srch_wr (l : Leaf) (a v : Nat) : (l.wr a v).srch = l.srch := (rfl)

@[simp] theorem Leaf.srch_wr64 (l : Leaf) (lo hi v : Nat) : (l.wr64 lo hi v).srch = l.srch := (rfl)

@[simp] theorem Leaf.srch_bump (l : Leaf) (cls idx : Nat) : (l.bump cls idx).srch = l.srch := (rfl)

@[simp] theorem Leaf.srch_setSrch (l : Leaf) (x : SrchState) : (l.setSrch x).srch = x := (rfl)

theorem Leaf.srch_raise (l : Leaf) {x : Nat} (hx : x < 512) : (l.raise x).srch = l.srch := (l.irq_raise x hx).srch

theorem Leaf.srch_flagEvent (l : Leaf) (f : FieldRef) {x : Nat} (hx : x < 512) : (l.flagEvent f x).srch = l.srch := (l.irq_flagEvent f hx).srch

@[simp] theorem Leaf.engines_bump (l : Leaf) (cls idx : Nat) : (l.bump cls idx).engines = l.engines := (rfl)

/-- A new bad codeword is logged, and raises its event. -/
@[simp] theorem Leaf.engines_raise (l : Leaf) : (l.raise 0x08F).engines = l.engines :=
  congrArg (fun x : SrchState => { x with bad := [], badLog := [] }) (l.srch_raise (by decide))

/-- A bad codeword put into the table, or the table found full. -/
theorem Leaf.engines_badPut (l : Leaf) (a : Nat) :
    (if l.srch.bad.length < 64 then (l.setSrch { l.srch with bad := l.srch.bad ++ [a] }).showBadcw
      else l.putB Fld.SRCH_STAT_BADCW_FULL true).engines = l.engines :=
  Leaf.ite_both Leaf.engines rfl rfl

@[simp] theorem Leaf.engines_srchRead (l : Leaf) (addr : Nat) (blind : Bool) (r : ReadOutcome) :
    (l.srchRead addr blind r).2.engines = l.engines := by
  unfold Leaf.srchRead
  dsimp only
  split
  · exact Leaf.ite_both Leaf.engines rfl rfl
  · split
    · split
      · rfl
      · split
        · exact Leaf.ite_both Leaf.engines rfl rfl
        · exact Leaf.ite_both Leaf.engines rfl rfl
    · split
      · rfl
      · rw [Leaf.engines_raise, Leaf.engines_badPut]
        exact Leaf.ite_both Leaf.engines rfl rfl

@[simp] theorem Leaf.engines_rankOne (l : Leaf) (q : Query) (id : Nat) (d : List Byte) : (l.rankOne q id d).2.engines = l.engines := by
  unfold Leaf.rankOne
  split
  · exact Leaf.ite_both Leaf.engines rfl rfl
  · rfl

@[simp] theorem Leaf.engines_rankSide (n : Nat) (q : Query) (l : Leaf) : (Leaf.rankSide n q l).2.engines = l.engines := by
  induction n generalizing q l with
  | zero => rfl
  | succ n ih =>
    unfold Leaf.rankSide
    repeat' split
    all_goals simp [ih]

@[simp] theorem Leaf.engines_settleQuery (l : Leaf) (q : Query) : (l.settleQuery q).2.engines = l.engines := Leaf.engines_rankSide ..

theorem Leaf.engines_queryRead (l : Leaf) (q : Query) (r : ReadOutcome) : (l.queryRead q r).2.engines = l.engines := by
  unfold Leaf.queryRead
  dsimp only
  repeat' split
  all_goals simp

/-! ## The owner of a query -/

theorem Leaf.owner_consider (l : Leaf) (q : Query) (h id : Nat) : (l.consider q h id).owner = q.owner := by
  unfold Leaf.consider
  split <;> rfl

theorem Query.owner_walkEnd (q : Query) : q.walkEnd.owner = q.owner := by
  unfold Query.walkEnd
  split <;> rfl

theorem Leaf.owner_walkSeed (l : Leaf) (q : Query) : (l.walkSeed q).owner = q.owner := by
  have hfold (es : List SideEntry) (a : Query) :
      (es.foldl (fun a e => l.consider a (sketchDist q.sketch e.sketch) e.id) a).owner = a.owner := by
    induction es generalizing a with
    | nil => rfl
    | cons e es ih => exact (ih _).trans (l.owner_consider ..)
  exact (Query.owner_walkEnd _).trans (hfold _ _)

theorem Leaf.owner_newQuery (l : Leaf) (o : QOwner) (r : List Byte) (kmax n : Nat) : (l.newQuery o r kmax n).owner = o := by
  unfold Leaf.newQuery
  dsimp only
  split
  · rfl
  · rename_i sl _
    rw [apply_ite Query.owner, apply_ite Query.owner, Leaf.owner_walkSeed, ite_self, ite_self]

theorem Leaf.owner_rankOne (l : Leaf) (q : Query) (id : Nat) (d : List Byte) : (l.rankOne q id d).1.owner = q.owner := by
  unfold Leaf.rankOne
  split <;> rfl

theorem Leaf.owner_rankSide (n : Nat) (q : Query) (l : Leaf) : (Leaf.rankSide n q l).1.owner = q.owner := by
  induction n generalizing q l with
  | zero => rfl
  | succ n ih =>
    unfold Leaf.rankSide
    split
    · rfl
    · split
      · exact (ih ..).trans (l.owner_rankOne ..)
      · rfl
    · rfl

theorem Leaf.owner_scanSide (l : Leaf) (q : Query) : (l.scanSide q).owner = q.owner := by
  unfold Leaf.scanSide
  split <;> rfl

theorem Leaf.owner_settleQuery (l : Leaf) (q : Query) : (l.settleQuery q).1.owner = q.owner :=
  (Leaf.owner_rankSide ..).trans ((l.owner_scanSide _).trans q.owner_walkEnd)

/-! ## Admission (R388) -/

theorem Leaf.srch_showCtx (l : Leaf) : l.showCtx.srch = l.srch := by
  unfold Leaf.showCtx
  dsimp only
  rw [Leaf.foldl_congr Leaf.srch _ _ _ fun _ _ k => k.srch_put _ _, Leaf.srch_put]
  exact Leaf.foldl_congr Leaf.srch _ _ _ fun _ _ k => k.srch_put _ _

/-- A query takes its context, as far as its work has gone. -/
theorem Leaf.srch_placeQuery (l : Leaf) (ctx : Nat) (q : Query) : (l.placeQuery ctx q).srch =
    { (l.settleQuery q).2.srch with ctxs := alSet ctx (l.settleQuery q).1 (l.settleQuery q).2.srch.ctxs } := by
  unfold Leaf.placeQuery
  dsimp only
  rw [apply_ite Leaf.srch, Leaf.srch_bump, Leaf.srch_bump, ite_self, Leaf.srch_showCtx, Leaf.srch_setSrch]

theorem Leaf.srch_noteSide (l : Leaf) (q x n : Nat) : (l.noteSide q x n).srch = l.srch := by
  unfold Leaf.noteSide
  split
  · split
    · rfl
    · rfl
  · rfl

/-- What the admission of a query leaves: the waiting rows and host queries as they stood, the query in its context. -/
structure Leaf.Admitted (ctx : Nat) (o : QOwner) (rows : List WaitRow) (host : List HostCmd) (x : SrchState) : Prop where
  rows : x.rows = rows
  host : x.host = host
  placed : ∃ q, alGet x.ctxs ctx = some q ∧ q.owner = o

theorem Leaf.admitted_placeQuery (l : Leaf) (ctx : Nat) (q : Query) :
    Leaf.Admitted ctx q.owner l.srch.rows l.srch.host (l.placeQuery ctx q).srch := by
  have heng := l.engines_settleQuery q
  rw [Leaf.srch_placeQuery]
  exact { rows := Leaf.rows_of_engines heng
          host := Leaf.host_of_engines heng
          placed := ⟨_, alGet_alSet_same .., l.owner_settleQuery q⟩ }

/-- The first row of each source, with one row waiting. -/
theorem heads_single {r : WaitRow} (hq : r.q < 4) : ((List.range 4).filterMap fun q => [r].find? fun r => r.q == q) = [r] := by
  obtain h | h | h | h : r.q = 0 ∨ r.q = 1 ∨ r.q = 2 ∨ r.q = 3 := by omega
  all_goals simp [h, List.range_succ]

/-- The row that waits takes the context that the rules choose. -/
theorem Leaf.admitted_queryAdmit_row {r : WaitRow} (hctx : ctx < 2048) (hfree : alGet l.srch.ctxs ctx = none) (hrows : l.srch.rows = [r])
    (hq : r.q < 4) (hbest : l.bestEngine (l.recChans r.rec') = some (ctx / 256)) :
    Leaf.Admitted ctx (.row r.q r.tick r.row r.blind) [] l.srch.host (l.queryAdmit ctx).srch := by
  have hfound : ([r].find? fun r => l.bestEngine (l.recChans r.rec') == some (ctx / 256)) = some r := by simp [hbest]
  have hdrop : dropOne r [r] = [] := by simp [dropOne, dropFirst]
  unfold Leaf.queryAdmit
  rw [if_neg (by simp [hctx, hfree]), hrows, heads_single hq]
  dsimp only
  rw [hfound]
  dsimp only
  rw [hdrop, apply_ite Leaf.srch, Leaf.srch_noteSide, ite_self]
  have h := ((l.setSrch { l.srch with rows := [] }).admitted_placeQuery ctx
    (l.newQuery (.row r.q r.tick r.row r.blind) r.rec' (l.kmax r.q) (if r.blind then l.idxSeq (leAt r.rec' 0 1 % 4) else r.s)))
  rwa [Leaf.owner_newQuery] at h

/-- With no row waiting the first host query takes it. -/
theorem Leaf.admitted_queryAdmit_host {c : HostCmd} {rest : List HostCmd} (hctx : ctx < 2048) (hfree : alGet l.srch.ctxs ctx = none)
    (hrows : l.srch.rows = []) (hhost : l.srch.host = c :: rest)
    (hbest : l.bestEngine (l.recChans (l.dramRead c.addr0 352)) = some (ctx / 256)) :
    Leaf.Admitted ctx (.host c) [] rest (l.queryAdmit ctx).srch := by
  have h : Leaf.Admitted ctx _ l.srch.rows rest _ := ((l.setSrch { l.srch with host := rest }).admitted_placeQuery ctx
    (l.newQuery (.host c) (l.dramRead c.addr0 352) 256 (l.idxSeq (leAt (l.dramRead c.addr0 352) 0 1 % 4))))
  rw [Leaf.owner_newQuery] at h
  unfold Leaf.queryAdmit
  rw [if_neg (by simp [hctx, hfree]), hrows, hhost]
  dsimp only
  rw [if_pos (by simp), if_pos (by simp [hbest])]
  rwa [hrows] at h

/-- With nothing waiting nothing is admitted. -/
theorem Leaf.queryAdmit_of_empty (hrows : l.srch.rows = []) (hhost : l.srch.host = []) : l.queryAdmit ctx = l := by
  unfold Leaf.queryAdmit
  rw [hrows, hhost]
  exact ite_self _

theorem Leaf.queryAdmit_of_taken (h : (alGet l.srch.ctxs ctx).isSome = true) : l.queryAdmit ctx = l := by
  unfold Leaf.queryAdmit
  exact if_pos (by simp [h])

/-- A read carries the query of its context on, and changes no other context and no slot. -/
theorem Leaf.srch_walkRead (h : alGet l.srch.ctxs ctx = some q) (rd : ReadOutcome) :
    (l.walkRead ctx rd).srch.ctxs = alSet ctx (l.queryRead q rd).1 l.srch.ctxs ∧ (l.walkRead ctx rd).srch.slots = l.srch.slots := by
  have heng := l.engines_queryRead q rd
  unfold Leaf.walkRead
  rw [h]
  dsimp only
  rw [Leaf.srch_setSrch]
  exact ⟨congrArg (alSet ctx _) (Leaf.ctxs_of_engines heng), Leaf.slots_of_engines heng⟩

/-! ## The end of a query (R379, R380, R383) -/

/-- The engines' state but for the slots, and the host commands: what the freeing of slots leaves alone. -/
def Leaf.queues (l : Leaf) : SrchState × List HostCmd := ({ l.srch with slots := [], swap := [] }, l.host.cmds)

@[simp] theorem Leaf.queues_put (l : Leaf) (f : FieldRef) (v : Nat) : (l.put f v).queues = l.queues := (rfl)

@[simp] theorem Leaf.queues_putB (l : Leaf) (f : FieldRef) (b : Bool) : (l.putB f b).queues = l.queues := (rfl)

@[simp] theorem Leaf.queues_wr64 (l : Leaf) (lo hi v : Nat) : (l.wr64 lo hi v).queues = l.queues := (rfl)

theorem Leaf.queues_showCtx (l : Leaf) : l.showCtx.queues = l.queues := by
  unfold Leaf.showCtx
  dsimp only
  rw [Leaf.foldl_congr Leaf.queues _ _ _ fun _ _ k => k.queues_put _ _, Leaf.queues_put]
  exact Leaf.foldl_congr Leaf.queues _ _ _ fun _ _ k => k.queues_put _ _

theorem Leaf.queues_showSlot (l : Leaf) (x : Nat) : (l.showSlot x).queues = l.queues := by
  unfold Leaf.showSlot
  split
  all_goals
    rw [Leaf.queues_put, Leaf.queues_wr64, Leaf.queues_wr64, Leaf.queues_wr64, Leaf.queues_putB, Leaf.queues_putB, Leaf.queues_putB]

theorem Leaf.queues_finishDetach (l : Leaf) : l.finishDetach.queues = l.queues := by
  refine Leaf.foldl_congr Leaf.queues _ _ l fun x _ k => ?_
  split
  · exact Leaf.ite_keeps Leaf.queues _ (Leaf.queues_showSlot _ _)
  · rfl

theorem Leaf.queues_releaseCtx (l : Leaf) (ctx : Nat) :
    (l.releaseCtx ctx).queues = (l.setSrch { l.srch with ctxs := alDel ctx l.srch.ctxs }).queues :=
  (Leaf.queues_finishDetach _).trans (Leaf.queues_showCtx _)

theorem Leaf.ctxs_releaseCtx (l : Leaf) (ctx : Nat) : (l.releaseCtx ctx).srch.ctxs = alDel ctx l.srch.ctxs :=
  congrArg (fun x => x.1.ctxs) (l.queues_releaseCtx ctx)

theorem Leaf.deliv_releaseCtx (l : Leaf) (ctx : Nat) : (l.releaseCtx ctx).srch.deliv = l.srch.deliv :=
  congrArg (fun x => x.1.deliv) (l.queues_releaseCtx ctx)

theorem Leaf.cmds_releaseCtx (l : Leaf) (ctx : Nat) : (l.releaseCtx ctx).host.cmds = l.host.cmds :=
  congrArg Prod.snd (l.queues_releaseCtx ctx)

theorem Leaf.srch_store (l : Leaf) (a : Nat) (bs : List Byte) : (l.store a bs).srch = l.srch := rfl

theorem Leaf.host_store (l : Leaf) (a : Nat) (bs : List Byte) : (l.store a bs).host = l.host := rfl

theorem Leaf.srch_cmdRecord (l : Leaf) (c : HostCmd) (status unit tOldest digest : Nat) :
    (l.cmdRecord c status unit tOldest digest).srch = l.srch := rfl

theorem Leaf.cmds_cmdRecord (l : Leaf) (c : HostCmd) (status unit tOldest digest : Nat) :
    (l.cmdRecord c status unit tOldest digest).host.cmds = l.host.cmds := rfl

theorem Leaf.srch_setCmds (l : Leaf) (cs : List HostCmd) : (l.setCmds cs).srch = l.srch := rfl

theorem Leaf.cmds_setCmds (l : Leaf) (cs : List HostCmd) : (l.setCmds cs).host.cmds = cs := rfl

theorem Leaf.host_bump (l : Leaf) (cls idx : Nat) : (l.bump cls idx).host = l.host := rfl

theorem Leaf.srch_hostQueryEnd (l : Leaf) (c : HostCmd) (q : Query) (st : Nat) (b : List Byte) : (l.hostQueryEnd c q st b).srch = l.srch := by
  unfold Leaf.hostQueryEnd
  dsimp only
  rw [Leaf.srch_bump, Leaf.srch_cmdRecord, Leaf.srch_setCmds, apply_ite Leaf.srch, Leaf.srch_store, ite_self]

theorem Leaf.cmds_hostQueryEnd (l : Leaf) (c : HostCmd) (q : Query) (st : Nat) (b : List Byte) :
    (l.hostQueryEnd c q st b).host.cmds = dropOne c l.host.cmds := by
  unfold Leaf.hostQueryEnd
  dsimp only
  rw [Leaf.host_bump, Leaf.cmds_cmdRecord, Leaf.cmds_setCmds, apply_ite Leaf.host, Leaf.host_store, ite_self]

/-- A host query that ends leaves its context, and its command the queue's list. -/
theorem Leaf.released_hostQueryEnd (l : Leaf) (ctx : Nat) (c : HostCmd) (q : Query) (st : Nat) (b : List Byte) :
    ((l.hostQueryEnd c q st b).releaseCtx ctx).srch.ctxs = alDel ctx l.srch.ctxs
    ∧ ((l.hostQueryEnd c q st b).releaseCtx ctx).host.cmds = dropOne c l.host.cmds := by
  rw [Leaf.ctxs_releaseCtx, Leaf.cmds_releaseCtx, Leaf.srch_hostQueryEnd, Leaf.cmds_hostQueryEnd]
  exact ⟨rfl, rfl⟩

theorem Leaf.queryComplete_of_unfinished (h : alGet l.srch.ctxs ctx = some q) (hd : q.phase ≠ .done) (hi : q.phase ≠ .invalid) :
    l.queryComplete ctx = l := by
  unfold Leaf.queryComplete
  rw [h]
  exact if_neg (by simp [hd, hi])

/-- A finished row's block goes to its delivery. -/
theorem Leaf.srch_queryComplete_row {n tick row : Nat} {b : Bool} (h : alGet l.srch.ctxs ctx = some q) (hd : q.phase = .done ∨ q.phase = .invalid)
    (ho : q.owner = .row n tick row b) : (l.queryComplete ctx).srch.ctxs = alDel ctx l.srch.ctxs
      ∧ (l.queryComplete ctx).srch.deliv =
        (l.fillRow n tick row b (l.queryBlock (l.kmax n) q).1 (l.queryBlock (l.kmax n) q).2).srch.deliv := by
  unfold Leaf.queryComplete
  rw [h]
  dsimp only
  rw [if_pos hd, ho]
  dsimp only
  rw [apply_ite Leaf.srch, Leaf.srch_bump, ite_self]
  exact ⟨Leaf.ctxs_releaseCtx .., Leaf.deliv_releaseCtx ..⟩

theorem Leaf.released_queryComplete_host {c : HostCmd} (h : alGet l.srch.ctxs ctx = some q) (hd : q.phase = .done ∨ q.phase = .invalid)
    (ho : q.owner = .host c) : (l.queryComplete ctx).srch.ctxs = alDel ctx l.srch.ctxs
      ∧ (l.queryComplete ctx).host.cmds = dropOne c l.host.cmds := by
  unfold Leaf.queryComplete
  rw [h]
  dsimp only
  rw [if_pos hd, ho]
  exact l.released_hostQueryEnd ..

/-- A host query at or past its deadline is abandoned. -/
theorem Leaf.released_queryDeadline {c : HostCmd} (h : alGet l.srch.ctxs ctx = some q) (ho : q.owner = .host c) (hd : q.phase ≠ .done)
    (hi : q.phase ≠ .invalid) (hus : q.fld 12 4 ≠ 0) (hlate : q.start + countsOfUs (q.fld 12 4) ≤ l.count) :
    (l.queryDeadline ctx).srch.ctxs = alDel ctx l.srch.ctxs ∧ (l.queryDeadline ctx).host.cmds = dropOne c l.host.cmds := by
  unfold Leaf.queryDeadline
  rw [h]
  dsimp only
  rw [ho]
  dsimp only
  rw [if_pos ⟨hus, hlate, hd, hi⟩]
  exact l.released_hostQueryEnd ..

theorem Leaf.queryDeadline_of_early {c : HostCmd} (h : alGet l.srch.ctxs ctx = some q) (ho : q.owner = .host c)
    (hearly : l.count < q.start + countsOfUs (q.fld 12 4)) : l.queryDeadline ctx = l := by
  unfold Leaf.queryDeadline
  rw [h]
  dsimp only
  rw [ho]
  exact if_neg fun hc => absurd hc.2.1 (by omega)

/-! ## The commands -/

theorem exec_queryAdmit (h : s.ready i = true) (ctx : Nat) :
    exec (.queryAdmit i ctx) s = .next (s.setLeaf i ((s.leaf i).queryAdmit ctx)).settle :=
  congrArg State.done (State.eventNow_of_ready h _)

theorem exec_walkReadDone (h : s.ready i = true) (ctx : Nat) (rd : ReadOutcome) :
    exec (.walkReadDone i ctx rd) s = .next (s.setLeaf i ((s.leaf i).walkRead ctx rd)).settle :=
  congrArg State.done (State.eventNow_of_ready h _)

theorem exec_queryComplete (h : s.ready i = true) (ctx : Nat) :
    exec (.queryComplete i ctx) s = .next (s.setLeaf i ((s.leaf i).queryComplete ctx)).settle :=
  congrArg State.done (State.eventNow_of_ready h _)

theorem exec_queryDeadline (h : s.ready i = true) (ctx k : Nat) :
    exec (.queryDeadline i ctx k) s = .next (s.setLeaf i (((s.leaf i).adv k).queryDeadline ctx)).settle :=
  congrArg State.done (State.event_of_ok ((Leaf.runs_adv k).trans (Leaf.runs_of_ready h)))

theorem Leaf.srch_adv (l : Leaf) (n : Nat) : (l.adv n).srch = l.srch := Leaf.adv_congr Leaf.srch n fun _ => rfl

theorem Leaf.host_adv (l : Leaf) (n : Nat) : (l.adv n).host = l.host := Leaf.adv_congr Leaf.host n fun _ => rfl

/-- Settles O42: each command by what it makes of the waiting lists, the contexts and the deliveries. -/
theorem queryCommands : Obligations.QueryCommands := by
  intro s i ctx hr
  refine ⟨fun hctx hfree => ⟨fun r hrows hq hbest => ?_, fun c rest hrows hhost hbest => ?_, fun hrows hhost => ?_⟩, fun htaken => ?_,
    fun q rd hq => ?_, fun q hq hd hi => ?_, fun q n tick row b hq hd ho => ?_, fun q c hq hd ho => ?_, fun q c k hq ho hd hi hus => ?_⟩
  · refine answersWith_of_setLeaf (exec_queryAdmit hr ctx) fun t kept _ => ?_
    rw [kept.srch]
    obtain ⟨hrows', -, hplaced⟩ := Leaf.admitted_queryAdmit_row hctx hfree hrows hq hbest
    exact ⟨hrows', hplaced⟩
  · refine answersWith_of_setLeaf (exec_queryAdmit hr ctx) fun t kept _ => ?_
    rw [kept.srch]
    obtain ⟨-, hhost', hplaced⟩ := Leaf.admitted_queryAdmit_host hctx hfree hrows hhost hbest
    exact ⟨hhost', hplaced⟩
  · exact answers_self_of_setLeaf (exec_queryAdmit hr ctx) (Leaf.queryAdmit_of_empty hrows hhost)
  · exact answers_self_of_setLeaf (exec_queryAdmit hr ctx) (Leaf.queryAdmit_of_taken htaken)
  · refine answersWith_of_setLeaf (exec_walkReadDone hr ctx rd) fun t kept _ => ?_
    rw [kept.srch]
    exact Leaf.srch_walkRead hq rd
  · exact answers_self_of_setLeaf (exec_queryComplete hr ctx) (Leaf.queryComplete_of_unfinished hq hd hi)
  · refine answersWith_of_setLeaf (exec_queryComplete hr ctx) fun t kept _ => ?_
    rw [kept.srch]
    exact Leaf.srch_queryComplete_row hq hd ho
  · refine answersWith_of_setLeaf (exec_queryComplete hr ctx) fun t kept _ => ?_
    rw [kept.srch, kept.cmds]
    exact Leaf.released_queryComplete_host hq hd ho
  · have hq' : alGet ((s.leaf i).adv k).srch.ctxs ctx = some q := by rw [Leaf.srch_adv, hq]
    refine ⟨fun hlate => ?_, fun hearly => ?_⟩
    · refine answersWith_of_setLeaf (exec_queryDeadline hr ctx k) fun t kept _ => ?_
      have h := Leaf.released_queryDeadline hq' ho hd hi hus hlate
      rw [kept.srch, kept.cmds]
      rwa [Leaf.srch_adv, Leaf.host_adv] at h
    · have e := exec_queryDeadline hr ctx k
      rw [Leaf.queryDeadline_of_early hq' ho hearly] at e
      exact answers_of_exec e

end Sys2Proof.Machine
end

section
/-!
PROOFS. The side list of an index (R384, R385): how the engines' commands show their ends, what SRCH_SIDE_CMD makes of a leaf, and the
statement about its commands.
-/
namespace Sys2Proof.Machine

variable {s : State} {i : LeafId} {l m : Leaf} {a x y v : Nat}

/-! ## A status register of the engines: BUSY, DONE and STATUS -/

/-- The register at address a shows DONE and the status v. -/
structure Leaf.ShowsDone (a v : Nat) (l : Leaf) : Prop where
  done : l.bit ⟨a, 30, 30⟩ = true
  status : l.get ⟨a, 23, 16⟩ = v

/-- It shows that, and no longer BUSY. -/
structure Leaf.ShowsEnd (a v : Nat) (l : Leaf) : Prop extends Leaf.ShowsDone a v l where
  busy : l.bit ⟨a, 31, 31⟩ = false

theorem Leaf.ShowsDone.congr (h : l.ShowsDone a v) (hrd : m.rd a = l.rd a) : m.ShowsDone a v where
  done := (Leaf.bit_congr hrd).trans h.done
  status := (Leaf.get_congr hrd).trans h.status

theorem Leaf.ShowsEnd.congr (h : l.ShowsEnd a v) (hrd : m.rd a = l.rd a) : m.ShowsEnd a v where
  toShowsDone := h.toShowsDone.congr hrd
  busy := (Leaf.bit_congr hrd).trans h.busy

/-- STATUS given, DONE set and its event raised. -/
theorem Leaf.showsDone_flagEvent (l : Leaf) (ha : a / 2 ^ 20 ≠ 4) (hv : v < 256) (hx : x < 512) :
    ((l.put ⟨a, 23, 16⟩ v).flagEvent ⟨a, 30, 30⟩ x).ShowsDone a v where
  done := Leaf.bit_flagEvent_same _ hx ha (by simp) (by simp)
  status := by
    rw [(Leaf.irq_flagEvent _ _ hx).get _ ha, Leaf.get_putB_disjoint _ ⟨a, 30, 30⟩ ⟨a, 23, 16⟩ _ rfl (by simp) (by simp) (by simp),
      Leaf.get_put_same _ _ _ (by simp) (by simp)]
    exact Nat.mod_eq_of_lt hv

/-- BUSY cleared before that. -/
theorem Leaf.showsEnd_flagEvent (l : Leaf) (ha : a / 2 ^ 20 ≠ 4) (hv : v < 256) (hx : x < 512) :
    (((l.putB ⟨a, 31, 31⟩ false).put ⟨a, 23, 16⟩ v).flagEvent ⟨a, 30, 30⟩ x).ShowsEnd a v where
  toShowsDone := Leaf.showsDone_flagEvent _ ha hv hx
  busy := by
    rw [(Leaf.irq_flagEvent _ _ hx).bit _ ha, Leaf.bit_putB_disjoint _ ⟨a, 30, 30⟩ ⟨a, 31, 31⟩ _ rfl (by simp) (by simp) (by simp),
      Leaf.bit_put_disjoint _ ⟨a, 23, 16⟩ ⟨a, 31, 31⟩ _ rfl (by simp) (by simp) (by simp), Leaf.bit_putB_same _ _ _ (by simp) (by simp)]

/-! ## SRCH_SIDE_CMD -/

theorem Leaf.srch_swWrite (l : Leaf) (a w : Nat) : (l.swWrite a w).srch = l.srch := by unfold Leaf.swWrite; split <;> rfl

theorem Leaf.rd64_swWrite (l : Leaf) (w : Nat) {lo hi : Nat} (hlo : a ≠ lo) (hhi : a ≠ hi) : (l.swWrite a w).rd64 lo hi = l.rd64 lo hi :=
  Leaf.rd64_congr (Leaf.rd_swWrite_other _ _ hlo) (Leaf.rd_swWrite_other _ _ hhi)

/-- OP and INDEX are the fields of SRCH_SIDE_CMD that are kept. -/
theorem Leaf.swWrite_sideCmd (l : Leaf) (w : Nat) : l.swWrite Reg.SRCH_SIDE_CMD w =
    l.wr Reg.SRCH_SIDE_CMD (setBits (setBits (l.rd Reg.SRCH_SIDE_CMD) 30 29 (bitsOf w 30 29)) 1 0 (bitsOf w 1 0)) := rfl

theorem Leaf.op_swWrite_sideCmd (l : Leaf) (w : Nat) : (l.swWrite Reg.SRCH_SIDE_CMD w).get Fld.SRCH_SIDE_CMD_OP = bitsOf w 30 29 := by
  unfold Leaf.get
  rw [Leaf.swWrite_sideCmd, Leaf.rd_wr_same, bitsOf_mod _ _ _ (by decide), bitsOf_setBits_disjoint _ _ _ _ _ _ (by decide) (by decide),
    bitsOf_setBits_same _ _ _ _ (by decide)]
  exact Nat.mod_eq_of_lt (bitsOf_lt w 30 29)

theorem Leaf.index_swWrite_sideCmd (l : Leaf) (w : Nat) : (l.swWrite Reg.SRCH_SIDE_CMD w).get Fld.SRCH_SIDE_CMD_INDEX = bitsOf w 1 0 := by
  unfold Leaf.get
  rw [Leaf.swWrite_sideCmd, Leaf.rd_wr_same, bitsOf_mod _ _ _ (by decide), bitsOf_setBits_same _ _ _ _ (by decide)]
  exact Nat.mod_eq_of_lt (bitsOf_lt w 1 0)

/-- GO while no side-list command runs. -/
theorem Leaf.sideGo_of_idle (h : l.bit Fld.SRCH_SIDE_STAT_BUSY = false) :
    l.sideGo = (l.setSrch { l.srch with side := some (l.get Fld.SRCH_SIDE_CMD_OP, l.get Fld.SRCH_SIDE_CMD_INDEX,
      l.rd64 Reg.SRCH_SIDE_SRC_LO Reg.SRCH_SIDE_SRC_HI / 64 * 64, l.rd64 Reg.SRCH_SIDE_ID_LO Reg.SRCH_SIDE_ID_HI % 2 ^ 40) }).putB
      Fld.SRCH_SIDE_STAT_BUSY true := by
  unfold Leaf.sideGo
  rw [h]
  exact if_neg (by decide)

theorem Leaf.sideGo_of_busy (h : l.bit Fld.SRCH_SIDE_STAT_BUSY = true) : l.sideGo = l := if_pos h

theorem Leaf.sideBusy_swWrite (l : Leaf) (w : Nat) :
    (l.swWrite Reg.SRCH_SIDE_CMD w).bit Fld.SRCH_SIDE_STAT_BUSY = l.bit Fld.SRCH_SIDE_STAT_BUSY :=
  Leaf.bit_congr (Leaf.rd_swWrite_other _ _ (by decide))

theorem Leaf.writeReg_sideCmd (l : Leaf) (w : Nat) : l.writeReg Reg.SRCH_SIDE_CMD w = l.writeSideCmd w := rfl

/-- The word that a side-list command writes. -/
def sideWord (op : Nat) (w : Word) : Nat := setBits (wordWith w Fld.SRCH_SIDE_CMD_GO 1) 30 29 op

theorem go_sideWord (op : Nat) (w : Word) : bitOf (sideWord op w) 31 = true := by
  unfold bitOf sideWord
  rw [testBit_setBits _ _ _ _ _ (by decide), if_neg (by decide)]
  exact bitOf_setBits_same ..

theorem op_sideWord {op : Nat} (h : op < 4) (w : Word) : bitsOf (sideWord op w) 30 29 = op :=
  (bitsOf_setBits_same _ _ _ _ (by decide)).trans (Nat.mod_eq_of_lt h)

theorem index_sideWord (op : Nat) (w : Word) : bitsOf (sideWord op w) 1 0 = bitsOf w.toNat 1 0 :=
  (bitsOf_setBits_disjoint _ _ _ _ _ _ (by decide) (by decide)).trans (bitsOf_setBits_disjoint _ _ _ _ _ _ (by decide) (by decide))

/-- A side-list command is a GO of its operation. -/
theorem exec_sideCmd (h : s.ready i = true) (op : Nat) (w : Word) : (s.sideCmd i op w).done =
    .next (s.setLeaf i ((s.leaf i).swWrite Reg.SRCH_SIDE_CMD (sideWord op w)).sideGo).settle := by
  refine congrArg State.done ?_
  unfold State.sideCmd
  rw [State.regWrite_above_tick h _ rfl (by decide), Leaf.writeReg_sideCmd]
  unfold Leaf.writeSideCmd
  exact congrArg (s.setLeaf i) (if_pos (go_sideWord op w))

/-- With BUSY 0 the command's operands are held. -/
theorem Leaf.side_sideGo {op : Nat} (h : l.bit Fld.SRCH_SIDE_STAT_BUSY = false) (hop : op < 4) (w : Word) :
    (l.swWrite Reg.SRCH_SIDE_CMD (sideWord op w)).sideGo.srch.side = some (op, bitsOf w.toNat 1 0,
      l.rd64 Reg.SRCH_SIDE_SRC_LO Reg.SRCH_SIDE_SRC_HI / 64 * 64, l.rd64 Reg.SRCH_SIDE_ID_LO Reg.SRCH_SIDE_ID_HI % 2 ^ 40) := by
  rw [Leaf.sideGo_of_idle ((Leaf.sideBusy_swWrite ..).trans h), Leaf.op_swWrite_sideCmd, Leaf.index_swWrite_sideCmd, op_sideWord hop,
    index_sideWord, Leaf.rd64_swWrite _ _ (by decide) (by decide), Leaf.rd64_swWrite _ _ (by decide) (by decide)]
  rfl

theorem Leaf.busy_sideGo (h : l.bit Fld.SRCH_SIDE_STAT_BUSY = false) : l.sideGo.bit Fld.SRCH_SIDE_STAT_BUSY = true := by
  rw [Leaf.sideGo_of_idle h]
  exact Leaf.bit_putB_same _ _ _ (by decide) (by decide)

/-- What a side-list command with BUSY 0 leaves. -/
theorem answersWith_sideCmd_idle {c : Instr} {op : Nat} {w : Word} (hr : s.ready i = true) (hc : exec c s = (s.sideCmd i op w).done)
    (hop : op < 4) (hb : (s.leaf i).bit Fld.SRCH_SIDE_STAT_BUSY = false) : AnswersWith c s fun t =>
      (t.leaf i).bit Fld.SRCH_SIDE_STAT_BUSY = true ∧ (t.leaf i).srch.side = some (op, bitsOf w.toNat 1 0,
        (s.leaf i).rd64 Reg.SRCH_SIDE_SRC_LO Reg.SRCH_SIDE_SRC_HI / 64 * 64,
        (s.leaf i).rd64 Reg.SRCH_SIDE_ID_LO Reg.SRCH_SIDE_ID_HI % 2 ^ 40) := by
  refine answersWith_of_setLeaf (hc.trans (exec_sideCmd hr op w)) fun t kept _ => ?_
  rw [kept.bit_of_between (by decide), kept.srch]
  exact ⟨Leaf.busy_sideGo ((Leaf.sideBusy_swWrite ..).trans hb), Leaf.side_sideGo hb hop w⟩

/-- And one written while BUSY. -/
theorem answersWith_sideCmd_busy {c : Instr} {op : Nat} {w : Word} (hr : s.ready i = true) (hc : exec c s = (s.sideCmd i op w).done)
    (hb : (s.leaf i).bit Fld.SRCH_SIDE_STAT_BUSY = true) : AnswersWith c s fun t =>
      (t.leaf i).srch = (s.leaf i).srch ∧ (t.leaf i).bit Fld.SRCH_SIDE_STAT_BUSY = true := by
  refine answersWith_of_setLeaf (hc.trans (exec_sideCmd hr op w)) fun t kept _ => ?_
  have hbusy := (Leaf.sideBusy_swWrite _ (sideWord op w)).trans hb
  rw [kept.bit_of_between (by decide), kept.srch, Leaf.sideGo_of_busy hbusy]
  exact ⟨Leaf.srch_swWrite .., hbusy⟩

/-! ## A side-list command done (R384) -/

theorem Leaf.idxSlot_of_idxOpen {sl : IdxSlot} (h : l.idxOpen x = some sl) : l.idxSlot x = some sl := (Option.filter_eq_some_iff.mp h).1

theorem Leaf.idxSlot_congr (h : m.srch.slots = l.srch.slots) (x : Nat) : m.idxSlot x = l.idxSlot x := by unfold Leaf.idxSlot; rw [h]

theorem Leaf.idxSlot_setIdx (x : Nat) (sl : IdxSlot) (l : Leaf) : (l.setIdx x sl).idxSlot x = some sl := alGet_alSet_same ..

@[simp] theorem Leaf.srch_showSlot (l : Leaf) (x : Nat) : (l.showSlot x).srch = l.srch := by
  unfold Leaf.showSlot
  split
  all_goals
    rw [Leaf.srch_put, Leaf.srch_wr64, Leaf.srch_wr64, Leaf.srch_wr64, Leaf.srch_putB, Leaf.srch_putB, Leaf.srch_putB]

/-- A command ends OK or INVALID. -/
theorem Leaf.status_sideApply (l : Leaf) (op x src id : Nat) : (l.sideApply op x src id).1 = 0 ∨ (l.sideApply op x src id).1 = 0x0B := by
  unfold Leaf.sideApply
  split
  · exact .inr rfl
  · split
    · exact .inr rfl
    · split
      · dsimp only
        split
        · exact .inr rfl
        · exact .inl rfl
      · split
        · split
          · exact .inl rfl
          · exact .inr rfl
        · exact .inr rfl

theorem Leaf.sideDone_of_none (h : l.srch.side = none) : l.sideDone = l := by unfold Leaf.sideDone; rw [h]

/-- The end of a command: what it did to its slot stays, and SRCH_SIDE_STAT shows how it ended. -/
theorem Leaf.sideDone_of_some {op x src id : Nat} (h : l.srch.side = some (op, x, src, id)) :
    l.sideDone.ShowsEnd Reg.SRCH_SIDE_STAT (l.sideApply op x src id).1
    ∧ l.sideDone.srch = { (l.sideApply op x src id).2.srch with side := none } := by
  have hst := l.status_sideApply op x src id
  unfold Leaf.sideDone
  rw [h]
  exact ⟨Leaf.showsEnd_flagEvent _ (by decide) (by omega) (by decide), Leaf.srch_flagEvent _ _ (by decide)⟩

/-- An insertion into a list with room. -/
theorem Leaf.sideApply_insert {src id : Nat} {sl : IdxSlot} (ho : l.idxOpen x = some sl) (hlen : sl.side.length < 16384)
    (hnan : descNan (sliceBytes (l.dramRead src 320) 32 256) = false) : l.sideApply 1 x src id =
      (0, l.sideAdd x sl { seq := sl.seq + 1, insert := true, id := sl.next, tag := leAt (l.dramRead src 320) 288 8,
                           sketch := leAt (l.dramRead src 320) 0 32, desc := sliceBytes (l.dramRead src 320) 32 256 } (sl.next + 1)) := by
  unfold Leaf.sideApply
  rw [ho]
  dsimp only
  rw [if_neg (by omega), if_pos rfl, if_neg (by simp [hnan])]

/-- A deletion of an item that is not visible. -/
theorem Leaf.sideApply_delete_absent {src id : Nat} {sl : IdxSlot} (ho : l.idxOpen x = some sl) (hlen : sl.side.length < 16384)
    (hvis : l.visibleNow sl id = false) : l.sideApply 2 x src id = (0x0B, l) := by
  unfold Leaf.sideApply
  rw [ho]
  dsimp only
  rw [if_neg (by omega), if_neg (by decide), if_pos rfl, if_neg (by simp [hvis])]

theorem Leaf.idxSlot_sideAdd (l : Leaf) (x : Nat) (sl : IdxSlot) (e : SideEntry) (next : Nat) :
    (l.sideAdd x sl e next).idxSlot x = some { sl with side := sl.side ++ [e], seq := e.seq, next := next } := by
  unfold Leaf.sideAdd
  dsimp only
  rw [Leaf.idxSlot_congr (congrArg SrchState.slots ((Leaf.srch_wr64 ..).trans (Leaf.srch_showSlot ..))), Leaf.idxSlot_setIdx]

theorem exec_sideCmdDone (h : s.ready i = true) : exec (.sideCmdDone i) s = .next (s.setLeaf i (s.leaf i).sideDone).settle :=
  congrArg State.done (State.eventNow_of_ready h _)

/-- What a command that is done leaves, by what it did to its slot. -/
theorem answersWith_sideCmdDone {op x src id : Nat} (hr : s.ready i = true) (h : (s.leaf i).srch.side = some (op, x, src, id)) :
    AnswersWith (.sideCmdDone i) s fun t => (t.leaf i).srch.side = none
      ∧ (t.leaf i).srch.slots = ((s.leaf i).sideApply op x src id).2.srch.slots
      ∧ (t.leaf i).ShowsEnd Reg.SRCH_SIDE_STAT ((s.leaf i).sideApply op x src id).1 := by
  obtain ⟨hend, hsrch⟩ := Leaf.sideDone_of_some h
  exact answersWith_of_setLeaf (exec_sideCmdDone hr) fun t kept _ =>
    ⟨by rw [kept.srch, hsrch], by rw [kept.srch, hsrch], hend.congr (kept.rd_of_between (by decide))⟩

theorem AnswersWith.imp {c : Instr} {P Q : State → Prop} (h : AnswersWith c s P) (hpq : ∀ t, P t → Q t) : AnswersWith c s Q := by
  obtain ⟨t, he, hp⟩ := h
  exact ⟨t, he, hpq t hp⟩

/-- Settles O43: a command by the GO it is, its end by what it did to its slot. -/
theorem sideListCommands : Obligations.SideListCommands := by
  intro s i hr
  refine ⟨fun w c op hc => ?_, fun hnone => answers_self_of_setLeaf (exec_sideCmdDone hr) (Leaf.sideDone_of_none hnone),
    fun op x src id _ h => (answersWith_sideCmdDone hr h).imp fun t ⟨hside, _, hend⟩ => ⟨hside, hend.busy, hend.done, hend.status⟩,
    fun x src id sl _ h ho hlen hnan => (answersWith_sideCmdDone hr h).imp fun t ⟨_, hslots, hend⟩ => ?_,
    fun x src id sl _ h ho hlen hvis => (answersWith_sideCmdDone hr h).imp fun t ⟨_, hslots, hend⟩ => ?_⟩
  · have hform : exec c s = (s.sideCmd i op w).done ∧ op < 4 := by
      simp only [List.mem_cons, Prod.mk.injEq, List.not_mem_nil, or_false] at hc
      obtain ⟨rfl, rfl⟩ | ⟨rfl, rfl⟩ := hc
      · exact ⟨rfl, by decide⟩
      · exact ⟨rfl, by decide⟩
    exact ⟨answersWith_sideCmd_idle hr hform.1 hform.2, answersWith_sideCmd_busy hr hform.1⟩
  · rw [Leaf.sideApply_insert ho hlen hnan] at hslots hend
    refine ⟨hend.status, ?_⟩
    rw [Leaf.idxSlot_congr hslots]
    exact Leaf.idxSlot_sideAdd ..
  · rw [Leaf.sideApply_delete_absent ho hlen hvis] at hslots hend
    refine ⟨hend.status, ?_⟩
    rw [Leaf.idxSlot_congr hslots]
    exact Leaf.idxSlot_of_idxOpen ho

end Sys2Proof.Machine
end

section
/-!
PROOFS. Merges (R386, R387): what SRCH_MRG_CTRL makes of a leaf, how a merge ends, the swap to the merged index, and the statement about
their commands.
-/
namespace Sys2Proof.Machine

variable {s : State} {i : LeafId} {l : Leaf} {x : Nat} {sl : IdxSlot} {r : MergeRun}

/-! ## SRCH_MRG_CTRL -/

/-- PIPE and INDEX are the fields of SRCH_MRG_CTRL that are kept. -/
theorem Leaf.swWrite_mrgCtrl (l : Leaf) (w : Nat) : l.swWrite Reg.SRCH_MRG_CTRL w =
    l.wr Reg.SRCH_MRG_CTRL (setBits (setBits (l.rd Reg.SRCH_MRG_CTRL) 13 8 (bitsOf w 13 8)) 1 0 (bitsOf w 1 0)) := rfl

theorem Leaf.index_swWrite_mrgCtrl (l : Leaf) (w : Nat) : (l.swWrite Reg.SRCH_MRG_CTRL w).get Fld.SRCH_MRG_CTRL_INDEX = bitsOf w 1 0 := by
  unfold Leaf.get
  rw [Leaf.swWrite_mrgCtrl, Leaf.rd_wr_same, bitsOf_mod _ _ _ (by decide), bitsOf_setBits_same _ _ _ _ (by decide)]
  exact Nat.mod_eq_of_lt (bitsOf_lt w 1 0)

theorem Leaf.glz_swWrite (l : Leaf) (a w : Nat) : (l.swWrite a w).glz = l.glz := by unfold Leaf.swWrite; split <;> rfl

theorem Leaf.idxOpen_swWrite (l : Leaf) (a w x : Nat) : (l.swWrite a w).idxOpen x = l.idxOpen x := by
  unfold Leaf.idxOpen Leaf.idxSlot
  rw [Leaf.srch_swWrite]

theorem Leaf.takenExtents_swWrite (l : Leaf) (a w : Nat) (e : Option Nat) : (l.swWrite a w).takenExtents e = l.takenExtents e := by
  unfold Leaf.takenExtents Leaf.objects
  rw [Leaf.srch_swWrite, Leaf.glz_swWrite]

theorem Leaf.writeReg_mrgCtrl (l : Leaf) (w : Nat) : l.writeReg Reg.SRCH_MRG_CTRL w = l.writeMrgCtrl w := rfl

/-- GO without ABORT. -/
theorem exec_mergeGo (h : s.ready i = true) {w : Word} (hw : bitOf w.toNat 30 = false) : exec (.mergeGo i w) s =
    .next (s.setLeaf i ((s.leaf i).swWrite Reg.SRCH_MRG_CTRL (wordWith w Fld.SRCH_MRG_CTRL_GO 1)).mergeGo).settle := by
  have hgo : bitOf (wordWith w Fld.SRCH_MRG_CTRL_GO 1) 31 = true := bitOf_setBits_same ..
  have habort : bitOf (wordWith w Fld.SRCH_MRG_CTRL_GO 1) 30 = false := (bitOf_setBits_other _ _ (by decide)).trans hw
  refine congrArg State.done ?_
  unfold State.fieldWrite
  rw [State.regWrite_above_tick h _ rfl (by decide), Leaf.writeReg_mrgCtrl]
  unfold Leaf.writeMrgCtrl
  dsimp only
  rw [if_pos hgo, if_neg (by simp [habort])]

/-- ABORT without GO. -/
theorem exec_mergeAbort (h : s.ready i = true) {w : Word} (hw : bitOf w.toNat 31 = false) : exec (.mergeAbort i w) s =
    .next (s.setLeaf i ((s.leaf i).swWrite Reg.SRCH_MRG_CTRL (wordWith w Fld.SRCH_MRG_CTRL_ABORT 1)).mergeAbort).settle := by
  have hgo : bitOf (wordWith w Fld.SRCH_MRG_CTRL_ABORT 1) 31 = false := (bitOf_setBits_other _ _ (by decide)).trans hw
  have habort : bitOf (wordWith w Fld.SRCH_MRG_CTRL_ABORT 1) 30 = true := bitOf_setBits_same ..
  refine congrArg State.done ?_
  unfold State.fieldWrite
  rw [State.regWrite_above_tick h _ rfl (by decide), Leaf.writeReg_mrgCtrl]
  unfold Leaf.writeMrgCtrl
  dsimp only
  rw [if_neg (by simp [hgo]), if_pos habort]

theorem index_wordGo (w : Word) : bitsOf (wordWith w Fld.SRCH_MRG_CTRL_GO 1) 1 0 = bitsOf w.toNat 1 0 :=
  bitsOf_setBits_disjoint _ _ _ _ _ _ (by decide) (by decide)

/-! ## GO and ABORT -/

/-- A merge of a slot that takes no queries. -/
theorem Leaf.mergeGo_of_unattached (hb : l.bit Fld.SRCH_MRG_STAT_BUSY = false) (ho : l.idxOpen (l.get Fld.SRCH_MRG_CTRL_INDEX) = none) :
    l.mergeGo = (l.put Fld.SRCH_MRG_STAT_STATUS 0x0B).flagEvent Fld.SRCH_MRG_STAT_DONE 0x08A := by
  unfold Leaf.mergeGo
  dsimp only
  rw [if_neg (by simp [hb]), ho]

/-- The merge of a fit slot starts with the operands of the registers. -/
theorem Leaf.mergeGo_of_fit {hdr node desc : Nat} {ix : IxHdr} (hb : l.bit Fld.SRCH_MRG_STAT_BUSY = false)
    (ho : l.idxOpen (l.get Fld.SRCH_MRG_CTRL_INDEX) = some sl) (hh : l.rd64 Reg.SRCH_MRG_HDR_LO Reg.SRCH_MRG_HDR_HI = hdr)
    (hn : l.rd64 Reg.SRCH_MRG_NODE_LO Reg.SRCH_MRG_NODE_HI = node) (hd : l.rd64 Reg.SRCH_MRG_DESC_LO Reg.SRCH_MRG_DESC_HI = desc)
    (hix : ix = { sl.hdr with at' := hdr, n := sl.next, nodeOfs := node, descOfs := desc }) (hh0 : hdr % 16384 = 0) (hh1 : hdr < 2 ^ 40)
    (hn0 : node % 16384 = 0) (hd0 : desc % 16384 = 0) (hn1 : node + ix.nodeLen ≤ 2 ^ 37) (hd1 : desc + ix.descLen ≤ 2 ^ 37)
    (hnext : sl.next ≤ 2 ^ 31) (hfree : anyOverlap ix.extents (l.takenExtents none) = false) :
    l.mergeGo.bit Fld.SRCH_MRG_STAT_BUSY = true ∧ ∃ m, l.mergeGo.srch.merge = some m ∧ m.x = l.get Fld.SRCH_MRG_CTRL_INDEX ∧ m.m = sl.seq
      ∧ m.n = sl.next ∧ m.hdr = hdr ∧ m.node = node ∧ m.desc = desc := by
  have hfit : (decide (hdr % 2 ^ 37 % 16384 ≠ 0) || decide (2 ^ 40 ≤ hdr) || decide (node % 16384 ≠ 0) || decide (desc % 16384 ≠ 0)
      || decide (2 ^ 37 < node + ix.nodeLen) || decide (2 ^ 37 < desc + ix.descLen) || decide (2 ^ 31 < sl.next)
      || anyOverlap ix.extents (l.takenExtents none)) = false := by
    simp only [hfree, Bool.or_eq_false_iff, decide_eq_false_iff_not, and_true]
    omega
  unfold Leaf.mergeGo
  dsimp only at hix ⊢
  rw [if_neg (by simp [hb]), ho, hh, hn, hd]
  dsimp only
  rw [← hix, hfit, if_neg (by decide)]
  refine ⟨?_, _, rfl, rfl, rfl, rfl, rfl, rfl, rfl⟩
  rw [Leaf.bit_congr (Leaf.rd_wr64_other _ _ (by decide) (by decide)), Leaf.bit_congr (Leaf.rd_wr_other _ _ (by decide)),
    Leaf.bit_putB_same _ _ _ (by decide) (by decide)]

theorem Leaf.mergeAbort_of_some (h : l.srch.merge.isSome = true) : l.mergeAbort = l.dropMerge := if_pos h

theorem Leaf.srch_dropMerge (l : Leaf) : l.dropMerge.srch = { l.srch with merge := none } := (Leaf.srch_putB ..).trans (Leaf.srch_setSrch ..)

theorem Leaf.busy_dropMerge (l : Leaf) : l.dropMerge.bit Fld.SRCH_MRG_STAT_BUSY = false := Leaf.bit_putB_same _ _ _ (by decide) (by decide)

/-! ## The end of a merge -/

/-- A merge ended with a status. -/
theorem Leaf.showsEnd_mergeEnd (l : Leaf) (y : SrchState) {v : Nat} (hv : v < 256) :
    ((((l.setSrch y).putB Fld.SRCH_MRG_STAT_BUSY false).put Fld.SRCH_MRG_STAT_STATUS v).flagEvent Fld.SRCH_MRG_STAT_DONE 0x08A).ShowsEnd
      Reg.SRCH_MRG_STAT v
    ∧ ((((l.setSrch y).putB Fld.SRCH_MRG_STAT_BUSY false).put Fld.SRCH_MRG_STAT_STATUS v).flagEvent Fld.SRCH_MRG_STAT_DONE 0x08A).srch = y :=
  ⟨Leaf.showsEnd_flagEvent _ (by decide) hv (by decide), Leaf.srch_flagEvent _ _ (by decide)⟩

theorem Leaf.mergeDone_of_still (hm : l.srch.merge = some r) (hmoves : l.mergeMoves r.pipe = false) (rd : Bool) : l.mergeDone rd = l := by
  unfold Leaf.mergeDone
  rw [hm]
  exact if_pos (by simp [hmoves])

/-- An old index that cannot be read. -/
theorem Leaf.mergeDone_unreadable (hm : l.srch.merge = some r) (hmoves : l.mergeMoves r.pipe = true) (hs : l.idxSlot r.x = some sl) :
    (l.mergeDone false).ShowsEnd Reg.SRCH_MRG_STAT 0x09 ∧ (l.mergeDone false).srch = { l.srch with merge := none } := by
  unfold Leaf.mergeDone
  rw [hm]
  dsimp only
  rw [if_neg (by simp [hmoves]), hs]
  exact l.showsEnd_mergeEnd _ (by decide)

/-- The merged index is ready. -/
theorem Leaf.mergeDone_readable (hm : l.srch.merge = some r) (hmoves : l.mergeMoves r.pipe = true) (hs : l.idxSlot r.x = some sl) :
    (l.mergeDone true).ShowsEnd Reg.SRCH_MRG_STAT 0 ∧ (l.mergeDone true).srch.merge = none
    ∧ (l.mergeDone true).srch.merged = some (r.x, r.m, { sl.hdr with at' := r.hdr, n := r.n, nodeOfs := r.node, descOfs := r.desc }) := by
  unfold Leaf.mergeDone
  rw [hm]
  dsimp only
  rw [if_neg (by simp [hmoves]), hs]
  obtain ⟨hend, hsrch⟩ := Leaf.showsEnd_mergeEnd
    (((l.writeMerged sl r).2.setSrch { (l.writeMerged sl r).2.srch with merged := some (r.x, r.m, (l.writeMerged sl r).1) }).wr
      Reg.SRCH_MRG_PROG (sl.side.filter fun e => e.insert && decide (e.seq ≤ r.m)).length)
    { (l.writeMerged sl r).2.srch with merge := none, merged := some (r.x, r.m, (l.writeMerged sl r).1) } (v := 0) (by decide)
  exact ⟨hend, congrArg SrchState.merge hsrch, congrArg SrchState.merged hsrch⟩

theorem exec_mergeDone (h : s.ready i = true) (rd : Bool) : exec (.mergeDone i rd) s = .next (s.setLeaf i ((s.leaf i).mergeDone rd)).settle :=
  congrArg State.done (State.eventNow_of_ready h _)

/-! ## SRCH_IDXx_CTRL and the swap (R387) -/

theorem Leaf.writeReg_idxCtrl (l : Leaf) (w : Nat) (hx : x < 4) : l.writeReg (Reg.SRCH_IDX_CTRL x) w = l.writeIdxCtrl x w := by
  interval_cases x <;> rfl

/-- A field write of SRCH_IDXx_CTRL. -/
theorem State.fieldWrite_idxCtrl (h : s.ready i = true) (hx : x < 4) {f : FieldRef} (hf : f.addr = Reg.SRCH_IDX_CTRL x) (w : Word) :
    (s.indexed 4 x fun t => t.fieldWrite i f 1 w) = s.setLeaf i ((s.leaf i).writeIdxCtrl x (wordWith w f 1)) := by
  have ha : Reg.SRCH_IDX_CTRL x % 4 = 0 := show (0xE01010 + 0x100 * x) % 4 = 0 by omega
  have hin : 0x200000 ≤ Reg.SRCH_IDX_CTRL x ∧ Reg.SRCH_IDX_CTRL x < 0x4000000 :=
    show 0x200000 ≤ 0xE01010 + 0x100 * x ∧ 0xE01010 + 0x100 * x < 0x4000000 by omega
  rw [State.indexed_of_lt _ hx]
  unfold State.fieldWrite
  rw [hf, State.regWrite_above_tick h _ ha hin, Leaf.writeReg_idxCtrl _ _ hx]

/-- SWAP without ATTACH and DETACH. -/
theorem exec_swap (h : s.ready i = true) (hx : x < 4) {w : Word} (h31 : bitOf w.toNat 31 = false) (h30 : bitOf w.toNat 30 = false) :
    exec (.swap i x w) s = .next (s.setLeaf i ((s.leaf i).swapIdx x)).settle := by
  have e31 : bitOf (wordWith w (Fld.SRCH_IDX_CTRL_SWAP x) 1) 31 = false := (bitOf_setBits_other _ _ (by simp)).trans h31
  have e30 : bitOf (wordWith w (Fld.SRCH_IDX_CTRL_SWAP x) 1) 30 = false := (bitOf_setBits_other _ _ (by simp)).trans h30
  have e29 : bitOf (wordWith w (Fld.SRCH_IDX_CTRL_SWAP x) 1) 29 = true := bitOf_setBits_same ..
  refine congrArg State.done ((State.fieldWrite_idxCtrl h hx rfl w).trans ?_)
  unfold Leaf.writeIdxCtrl
  dsimp only
  rw [if_pos e29, if_neg (by simp [e30]), if_neg (by simp [e31])]

theorem Leaf.swapIdx_of_ticking {n : Nat} {h : IxHdr} (hm : l.srch.merged = some (x, n, h)) (ho : l.idxOpen x = some sl)
    (ht : l.ticking = true) : l.swapIdx x =
      (l.setSrch { l.srch with swap := x :: l.srch.swap.filter (· != x) }).putB (Fld.SRCH_IDX_STAT_SWAP_PEND x) true := by
  unfold Leaf.swapIdx
  rw [hm, ho]
  dsimp only
  rw [if_neg (by simp), if_pos ht]

theorem Leaf.srch_setIdx (x : Nat) (sl : IdxSlot) (l : Leaf) : (l.setIdx x sl).srch = { l.srch with slots := alSet x sl l.srch.slots } := rfl

/-- A swap that waits for the boundary is noted and shown; the slots stay. -/
theorem Leaf.srch_swapIdx_of_ticking {n : Nat} {h : IxHdr} (hm : l.srch.merged = some (x, n, h)) (ho : l.idxOpen x = some sl)
    (ht : l.ticking = true) : (l.swapIdx x).srch = { l.srch with swap := x :: l.srch.swap.filter (· != x) } := by
  rw [Leaf.swapIdx_of_ticking hm ho ht, Leaf.srch_putB, Leaf.srch_setSrch]

theorem Leaf.swapPend_swapIdx_of_ticking {n : Nat} {h : IxHdr} (hm : l.srch.merged = some (x, n, h)) (ho : l.idxOpen x = some sl)
    (ht : l.ticking = true) : (l.swapIdx x).bit (Fld.SRCH_IDX_STAT_SWAP_PEND x) = true := by
  rw [Leaf.swapIdx_of_ticking hm ho ht]
  exact Leaf.bit_putB_same _ _ _ (by simp) (by simp)

/-- The slot's index and side list after the swap. -/
theorem Leaf.srch_doSwap {n : Nat} {h : IxHdr} (hm : l.srch.merged = some (x, n, h)) (hs : l.idxSlot x = some sl) : (l.doSwap x).srch =
    { l.srch with merged := none, swap := l.srch.swap.filter (· != x),
                  slots := alSet x { sl with hdr := h, side := sl.side.filter fun e => decide (n < e.seq) } l.srch.slots } := by
  unfold Leaf.doSwap
  rw [hm, hs]
  dsimp only
  rw [if_pos rfl, Leaf.srch_showSlot, Leaf.srch_setIdx, Leaf.srch_setSrch]

theorem Leaf.swapIdx_of_not_ticking {n : Nat} {h : IxHdr} (hm : l.srch.merged = some (x, n, h)) (ho : l.idxOpen x = some sl)
    (ht : l.ticking = false) : l.swapIdx x = l.doSwap x := by
  unfold Leaf.swapIdx
  rw [hm, ho]
  dsimp only
  rw [if_neg (by simp), if_neg (by simp [ht])]

/-! ## The commands -/

theorem exec_mergeGo_unattached {w : Word} (hr : s.ready i = true) (hw : bitOf w.toNat 30 = false)
    (hb : (s.leaf i).bit Fld.SRCH_MRG_STAT_BUSY = false) (ho : (s.leaf i).idxOpen (bitsOf w.toNat 1 0) = none) :
    exec (.mergeGo i w) s = .next (s.setLeaf i ((((s.leaf i).swWrite Reg.SRCH_MRG_CTRL (wordWith w Fld.SRCH_MRG_CTRL_GO 1)).put
      Fld.SRCH_MRG_STAT_STATUS 0x0B).flagEvent Fld.SRCH_MRG_STAT_DONE 0x08A)).settle := by
  rw [exec_mergeGo hr hw, Leaf.mergeGo_of_unattached ((Leaf.bit_congr (Leaf.rd_swWrite_other _ _ (by decide))).trans hb)]
  rw [Leaf.index_swWrite_mrgCtrl, index_wordGo, Leaf.idxOpen_swWrite, ho]

theorem answersWith_mergeGo_unattached {w : Word} (hr : s.ready i = true) (hw : bitOf w.toNat 30 = false)
    (hb : (s.leaf i).bit Fld.SRCH_MRG_STAT_BUSY = false) (ho : (s.leaf i).idxOpen (bitsOf w.toNat 1 0) = none) :
    AnswersWith (.mergeGo i w) s fun t => (t.leaf i).get Fld.SRCH_MRG_STAT_STATUS = 0x0B
      ∧ (t.leaf i).bit Fld.SRCH_MRG_STAT_DONE = true ∧ (t.leaf i).srch = (s.leaf i).srch := by
  refine answersWith_of_setLeaf (exec_mergeGo_unattached hr hw hb ho) fun t kept _ => ?_
  have hend : (t.leaf i).ShowsDone Reg.SRCH_MRG_STAT 0x0B :=
    (Leaf.showsDone_flagEvent _ (by decide) (by decide) (by decide)).congr (kept.rd_of_between (by decide))
  refine ⟨hend.status, hend.done, ?_⟩
  rw [kept.srch, Leaf.srch_flagEvent _ _ (by decide), Leaf.srch_put, Leaf.srch_swWrite]

theorem exec_mergeAbort_running {w : Word} (hr : s.ready i = true) (hw : bitOf w.toNat 31 = false) (hm : (s.leaf i).srch.merge.isSome = true) :
    exec (.mergeAbort i w) s =
      .next (s.setLeaf i ((s.leaf i).swWrite Reg.SRCH_MRG_CTRL (wordWith w Fld.SRCH_MRG_CTRL_ABORT 1)).dropMerge).settle := by
  rw [exec_mergeAbort hr hw, Leaf.mergeAbort_of_some (by rw [Leaf.srch_swWrite, hm])]

theorem answersWith_mergeAbort {w : Word} (hr : s.ready i = true) (hw : bitOf w.toNat 31 = false) (hm : (s.leaf i).srch.merge.isSome = true) :
    AnswersWith (.mergeAbort i w) s fun t => (t.leaf i).srch.merge = none ∧ (t.leaf i).bit Fld.SRCH_MRG_STAT_BUSY = false := by
  refine answersWith_of_setLeaf (exec_mergeAbort_running hr hw hm) fun t kept _ => ⟨?_, ?_⟩
  · rw [kept.srch, Leaf.srch_dropMerge]
  · exact (kept.bit_of_between (by decide)).trans (Leaf.busy_dropMerge _)

theorem answersWith_swap_ticking {n : Nat} {h : IxHdr} {w : Word} (hr : s.ready i = true) (hx : x < 4) (h31 : bitOf w.toNat 31 = false)
    (h30 : bitOf w.toNat 30 = false) (hm : (s.leaf i).srch.merged = some (x, n, h)) (ho : (s.leaf i).idxOpen x = some sl)
    (ht : (s.leaf i).ticking = true) : AnswersWith (.swap i x w) s fun t => (t.leaf i).srch.swap.contains x = true
      ∧ (t.leaf i).bit (Fld.SRCH_IDX_STAT_SWAP_PEND x) = true ∧ (t.leaf i).idxSlot x = some sl := by
  have hbet : 0x500000 ≤ Reg.SRCH_IDX_STAT x ∧ Reg.SRCH_IDX_STAT x < 0x1C00000 :=
    show 0x500000 ≤ 0xE01014 + 0x100 * x ∧ 0xE01014 + 0x100 * x < 0x1C00000 by omega
  refine answersWith_of_setLeaf (exec_swap hr hx h31 h30) fun t kept _ => ?_
  have hsrch := kept.srch.trans (Leaf.srch_swapIdx_of_ticking hm ho ht)
  have hslots : (t.leaf i).srch.slots = (s.leaf i).srch.slots := by rw [hsrch]
  refine ⟨by simp [hsrch], (kept.bit_of_between hbet).trans (Leaf.swapPend_swapIdx_of_ticking hm ho ht), ?_⟩
  rw [Leaf.idxSlot_congr hslots]
  exact Leaf.idxSlot_of_idxOpen ho

/-- Settles O44: GO and ABORT by what the register write makes of the leaf, the end of a merge and the swap by their operations. -/
theorem mergeCommands : Obligations.MergeCommands := by
  intro s i hr
  refine ⟨fun w hw hb => ⟨answersWith_mergeGo_unattached hr hw hb, fun sl hdr node desc ix ho hh hn hd hix hh0 hh1 hn0 hd0 hn1 hd1 hnext hfree => ?_⟩,
    fun w hw hm => answersWith_mergeAbort hr hw hm,
    fun m hm hmoves rd => answers_self_of_setLeaf (exec_mergeDone hr rd) (Leaf.mergeDone_of_still hm hmoves rd),
    fun m sl hm hmoves hs => ⟨?_, ?_⟩,
    fun x w n h sl hx h31 h30 hm ho => ⟨answersWith_swap_ticking hr hx h31 h30 hm ho, fun ht => ?_⟩⟩
  · refine answersWith_of_setLeaf (exec_mergeGo hr hw) fun t kept _ => ?_
    have hindex := (Leaf.index_swWrite_mrgCtrl (s.leaf i) (wordWith w Fld.SRCH_MRG_CTRL_GO 1)).trans (index_wordGo w)
    have h := Leaf.mergeGo_of_fit (l := (s.leaf i).swWrite Reg.SRCH_MRG_CTRL (wordWith w Fld.SRCH_MRG_CTRL_GO 1))
      ((Leaf.bit_congr (Leaf.rd_swWrite_other _ _ (by decide))).trans hb) (by rw [hindex, Leaf.idxOpen_swWrite, ho])
      ((Leaf.rd64_swWrite _ _ (by decide) (by decide)).trans hh.symm) ((Leaf.rd64_swWrite _ _ (by decide) (by decide)).trans hn.symm)
      ((Leaf.rd64_swWrite _ _ (by decide) (by decide)).trans hd.symm) hix hh0 hh1 hn0 hd0 hn1 hd1 hnext
      (by rw [Leaf.takenExtents_swWrite, hfree])
    rw [hindex] at h
    rw [kept.bit_of_between (by decide), kept.srch]
    exact h
  · refine answersWith_of_setLeaf (exec_mergeDone hr false) fun t kept _ => ?_
    obtain ⟨hend, hsrch⟩ := Leaf.mergeDone_unreadable hm hmoves hs
    have hend := hend.congr (kept.rd_of_between (by decide))
    exact ⟨kept.srch.trans hsrch, hend.busy, hend.status, hend.done⟩
  · refine answersWith_of_setLeaf (exec_mergeDone hr true) fun t kept _ => ?_
    obtain ⟨hend, hmerge, hmerged⟩ := Leaf.mergeDone_readable hm hmoves hs
    have hend := hend.congr (kept.rd_of_between (by decide))
    rw [kept.srch]
    exact ⟨hmerge, hend.busy, hend.status, hmerged⟩
  · have e := exec_swap hr hx h31 h30
    rw [Leaf.swapIdx_of_not_ticking hm ho ht] at e
    refine answersWith_of_setLeaf e fun t kept _ => ?_
    have hsrch := kept.srch.trans (Leaf.srch_doSwap hm (Leaf.idxSlot_of_idxOpen ho))
    unfold Leaf.idxSlot
    rw [hsrch]
    exact ⟨rfl, alGet_alSet_same ..⟩

end Sys2Proof.Machine
end

section
/-!
PROOFS. Tables with rising keys, with one key removed.
-/
namespace Sys2Proof

variable {α : Type} {a b : Nat} {v : α} {xs : List (Nat × α)}

theorem alGet_alDel_other (h : a ≠ b) (xs : List (Nat × α)) : alGet (alDel a xs) b = alGet xs b := by
  induction xs with
  | nil => rfl
  | cons e t ih =>
    obtain ⟨k, w⟩ := e
    by_cases hk : k = a
    · subst hk; simp [alDel, alGet, h]
    · simp [alDel, alGet, hk, ih]

theorem alDel_sublist (a : Nat) (xs : List (Nat × α)) : (alDel a xs).Sublist xs := by
  induction xs with
  | nil => exact List.Sublist.refl _
  | cons e t ih =>
    obtain ⟨k, w⟩ := e
    by_cases hk : k = a
    · simp [alDel, hk]
    · simp [alDel, hk, ih]

theorem alGet_eq_none (h : ∀ e ∈ xs, e.1 ≠ a) : alGet xs a = none := by
  induction xs with
  | nil => rfl
  | cons e t ih =>
    obtain ⟨k, w⟩ := e
    have hk : k ≠ a := h (k, w) (by simp)
    simp only [alGet, if_neg hk]
    exact ih fun e he => h e (by simp [he])

/-- With rising keys the key is gone. -/
theorem alGet_alDel_same (h : xs.Pairwise fun x y => x.1 < y.1) : alGet (alDel a xs) a = none := by
  induction xs with
  | nil => rfl
  | cons e t ih =>
    obtain ⟨k, w⟩ := e
    obtain ⟨hlt, ht⟩ := List.pairwise_cons.mp h
    by_cases hk : k = a
    · subst hk
      simp only [alDel, if_pos]
      exact alGet_eq_none fun e he => Nat.ne_of_gt (hlt e he)
    · simp only [alDel, if_neg hk, alGet]
      exact ih ht

theorem mem_keys_alSet {e : Nat × α} (h : e ∈ alSet a v xs) : e.1 = a ∨ e ∈ xs := by
  induction xs with
  | nil => simp only [alSet, List.mem_singleton] at h; exact .inl (by rw [h])
  | cons x t ih =>
    obtain ⟨k, w⟩ := x
    unfold alSet at h
    split at h
    · obtain rfl | h := List.mem_cons.mp h
      · exact .inr (by simp)
      · exact (ih h).imp_right fun hm => by simp [hm]
    · split at h
      · obtain rfl | h := List.mem_cons.mp h
        · exact .inl rfl
        · exact .inr (by simp [h])
      · obtain rfl | h := List.mem_cons.mp h
        · exact .inl rfl
        · exact .inr h

/-- An entry given a value keeps the keys rising. -/
theorem pairwise_alSet (h : xs.Pairwise fun x y => x.1 < y.1) (a : Nat) (v : α) : (alSet a v xs).Pairwise fun x y => x.1 < y.1 := by
  induction xs with
  | nil => exact List.pairwise_singleton ..
  | cons e t ih =>
    obtain ⟨k, w⟩ := e
    obtain ⟨hlt, ht⟩ := List.pairwise_cons.mp h
    unfold alSet
    split
    · refine List.pairwise_cons.mpr ⟨fun e he => ?_, ih ht⟩
      obtain hea | he := mem_keys_alSet he
      · rw [hea]; assumption
      · exact hlt e he
    · split
      · subst_vars
        exact List.pairwise_cons.mpr ⟨hlt, ht⟩
      · refine List.pairwise_cons.mpr ⟨fun e he => ?_, h⟩
        have hak : a < k := by omega
        obtain rfl | he := List.mem_cons.mp he
        · exact hak
        · exact hak.trans (hlt e he)

/-- A fold over a list with x in it: what holds until x comes, what x's step makes of it, and what holds from then on. -/
theorem foldl_through {β γ : Type} [DecidableEq γ] {P Q : β → Prop} {f : β → γ → β} {x : γ} {ys : List γ} {s : β} (hx : x ∈ ys) (hs : P s)
    (before : ∀ s, P s → ∀ y, y ≠ x → P (f s y)) (here : ∀ s, P s → Q (f s x)) (after : ∀ s, Q s → ∀ y, Q (f s y)) :
    Q (ys.foldl f s) := by
  induction ys generalizing s with
  | nil => cases hx
  | cons y t ih =>
    by_cases hy : y = x
    · subst hy
      exact List.foldlRecOn t f (here s hs) fun s hq z _ => after s hq z
    · exact ih ((List.mem_cons.mp hx).resolve_left (Ne.symm hy)) (before s hs y hy)

end Sys2Proof
end

section
/-!
PROOFS. Attaching and detaching an index (R392) and writing one to flash (R391): what a slot's registers show, the freeing of detaching
slots, and the statement about these commands.
-/
namespace Sys2Proof.Machine

variable {s : State} {i : LeafId} {l m : Leaf} {x y : Nat} {sl : IdxSlot}

/-! ## What SRCH_IDXx_STAT shows -/

theorem Leaf.rd_showSlot_other (l : Leaf) (h : y ≠ x) : (l.showSlot y).rd (Reg.SRCH_IDX_STAT x) = l.rd (Reg.SRCH_IDX_STAT x) := by
  have hstat : Reg.SRCH_IDX_STAT y ≠ Reg.SRCH_IDX_STAT x := show 0xE01014 + 0x100 * y ≠ 0xE01014 + 0x100 * x by omega
  have hword {b : Nat} (hb : 0xE01018 ≤ b ∧ b < 0xE01034) (k : Leaf) : b + 0x100 * y ≠ Reg.SRCH_IDX_STAT x :=
    show b + 0x100 * y ≠ 0xE01014 + 0x100 * x by omega
  unfold Leaf.showSlot
  split
  all_goals
    rw [Leaf.rd_put_other _ _ _ (hword (by decide) l), Leaf.rd_wr64_other _ _ (hword (by decide) l) (hword (by decide) l),
      Leaf.rd_wr64_other _ _ (hword (by decide) l) (hword (by decide) l), Leaf.rd_wr64_other _ _ (hword (by decide) l) (hword (by decide) l),
      Leaf.rd_putB_other _ _ _ hstat, Leaf.rd_putB_other _ _ _ hstat, Leaf.rd_putB_other _ _ _ hstat]

/-- The register of a slot shows its three flags. -/
theorem Leaf.rd_showSlot_same (l : Leaf) (x : Nat) : (l.showSlot x).rd (Reg.SRCH_IDX_STAT x) =
    (((l.putB (Fld.SRCH_IDX_STAT_ATTACHED x) (l.idxSlot x).isSome).putB (Fld.SRCH_IDX_STAT_DETACHING x)
      ((l.idxSlot x).any (·.detaching))).putB (Fld.SRCH_IDX_STAT_SWAP_PEND x) ((l.idxSlot x).isSome && l.srch.swap.contains x)).rd
      (Reg.SRCH_IDX_STAT x) := by
  have hword {b : Nat} (hb : 0xE01018 ≤ b ∧ b < 0xE01034) (k : Leaf) : b + 0x100 * x ≠ Reg.SRCH_IDX_STAT x :=
    show b + 0x100 * x ≠ 0xE01014 + 0x100 * x by omega
  unfold Leaf.showSlot
  cases l.idxSlot x
  all_goals
    dsimp only
    rw [Leaf.rd_put_other _ _ _ (hword (by decide) l), Leaf.rd_wr64_other _ _ (hword (by decide) l) (hword (by decide) l),
      Leaf.rd_wr64_other _ _ (hword (by decide) l) (hword (by decide) l), Leaf.rd_wr64_other _ _ (hword (by decide) l) (hword (by decide) l)]
    simp

theorem Leaf.attached_showSlot (l : Leaf) (x : Nat) : (l.showSlot x).bit (Fld.SRCH_IDX_STAT_ATTACHED x) = (l.idxSlot x).isSome := by
  rw [Leaf.bit_congr (l.rd_showSlot_same x),
    Leaf.bit_putB_disjoint _ (Fld.SRCH_IDX_STAT_SWAP_PEND x) (Fld.SRCH_IDX_STAT_ATTACHED x) _ rfl (by simp) (by simp) (by simp),
    Leaf.bit_putB_disjoint _ (Fld.SRCH_IDX_STAT_DETACHING x) (Fld.SRCH_IDX_STAT_ATTACHED x) _ rfl (by simp) (by simp) (by simp),
    Leaf.bit_putB_same _ _ _ (by simp) (by simp)]

theorem Leaf.detaching_showSlot (l : Leaf) (x : Nat) :
    (l.showSlot x).bit (Fld.SRCH_IDX_STAT_DETACHING x) = (l.idxSlot x).any (·.detaching) := by
  rw [Leaf.bit_congr (l.rd_showSlot_same x),
    Leaf.bit_putB_disjoint _ (Fld.SRCH_IDX_STAT_SWAP_PEND x) (Fld.SRCH_IDX_STAT_DETACHING x) _ rfl (by simp) (by simp) (by simp),
    Leaf.bit_putB_same _ _ _ (by simp) (by simp)]

theorem Leaf.idxSlot_showSlot (l : Leaf) (y x : Nat) : (l.showSlot y).idxSlot x = l.idxSlot x :=
  Leaf.idxSlot_congr (congrArg SrchState.slots (Leaf.srch_showSlot ..)) x

/-! ## The freeing of detaching slots -/

/-- A query is in a context for slot x. -/
def Leaf.slotBusy (l : Leaf) (x : Nat) : Bool := l.srch.ctxs.any fun c => c.2.x == x && c.2.phase != .invalid

/-- Slot x freed if it detaches and no query uses it. -/
def Leaf.releaseSlot (l : Leaf) (x : Nat) : Leaf :=
  match l.idxSlot x with
  | some s => if s.detaching && !l.slotBusy x then
      (l.setSrch { l.srch with slots := alDel x l.srch.slots, swap := l.srch.swap.filter (· != x) }).showSlot x else l
  | none => l

theorem Leaf.finishDetach_eq (l : Leaf) : l.finishDetach = (List.range 4).foldl Leaf.releaseSlot l := rfl

theorem Leaf.releaseSlot_of_busy (h : l.slotBusy x = true) : l.releaseSlot x = l := by
  unfold Leaf.releaseSlot
  split
  · exact if_neg (by simp [h])
  · rfl

theorem Leaf.releaseSlot_of_none (h : l.idxSlot x = none) : l.releaseSlot x = l := by
  unfold Leaf.releaseSlot
  rw [h]

theorem Leaf.releaseSlot_of_free (h : l.idxSlot x = some sl) (hd : sl.detaching = true) (hb : l.slotBusy x = false) : l.releaseSlot x =
    (l.setSrch { l.srch with slots := alDel x l.srch.slots, swap := l.srch.swap.filter (· != x) }).showSlot x := by
  unfold Leaf.releaseSlot
  rw [h]
  exact if_pos (by simp [hd, hb])

/-- Freeing slot y leaves the contexts, slot x and its register alone, and the slots in order. -/
theorem Leaf.releaseSlot_other (l : Leaf) (h : y ≠ x) : (l.releaseSlot y).srch.ctxs = l.srch.ctxs ∧ (l.releaseSlot y).idxSlot x = l.idxSlot x
    ∧ (l.releaseSlot y).rd (Reg.SRCH_IDX_STAT x) = l.rd (Reg.SRCH_IDX_STAT x)
    ∧ (l.releaseSlot y).srch.slots.Sublist l.srch.slots := by
  unfold Leaf.releaseSlot
  split
  · split
    · rw [Leaf.idxSlot_showSlot, Leaf.rd_showSlot_other _ h, Leaf.srch_showSlot]
      exact ⟨rfl, alGet_alDel_other h _, rfl, alDel_sublist y _⟩
    · exact ⟨rfl, rfl, rfl, List.Sublist.refl _⟩
  · exact ⟨rfl, rfl, rfl, List.Sublist.refl _⟩

theorem Leaf.slotBusy_congr (h : m.srch.ctxs = l.srch.ctxs) (x : Nat) : m.slotBusy x = l.slotBusy x := by unfold Leaf.slotBusy; rw [h]

/-- A slot that a query uses stays as it is. -/
theorem Leaf.finishDetach_of_busy (hb : l.slotBusy x = true) : l.finishDetach.idxSlot x = l.idxSlot x
    ∧ l.finishDetach.rd (Reg.SRCH_IDX_STAT x) = l.rd (Reg.SRCH_IDX_STAT x) := by
  have hstay : l.finishDetach.slotBusy x = true ∧ l.finishDetach.idxSlot x = l.idxSlot x
      ∧ l.finishDetach.rd (Reg.SRCH_IDX_STAT x) = l.rd (Reg.SRCH_IDX_STAT x) := by
    rw [Leaf.finishDetach_eq]
    refine List.foldlRecOn (motive := fun k : Leaf => k.slotBusy x = true ∧ k.idxSlot x = l.idxSlot x
      ∧ k.rd (Reg.SRCH_IDX_STAT x) = l.rd (Reg.SRCH_IDX_STAT x)) (List.range 4) Leaf.releaseSlot ⟨hb, rfl, rfl⟩ fun k ⟨hkb, hks, hkr⟩ y _ => ?_
    by_cases hy : y = x
    · rw [hy, Leaf.releaseSlot_of_busy hkb]
      exact ⟨hkb, hks, hkr⟩
    · obtain ⟨hctx, hslot, hrd, -⟩ := k.releaseSlot_other hy
      exact ⟨(Leaf.slotBusy_congr hctx x).trans hkb, hslot.trans hks, hrd.trans hkr⟩
  exact hstay.2

/-- One that none uses is free again. -/
theorem Leaf.finishDetach_of_free (hx : x < 4) (hs : l.idxSlot x = some sl) (hd : sl.detaching = true) (hb : l.slotBusy x = false)
    (hsorted : l.srch.slots.Pairwise fun a b => a.1 < b.1) :
    l.finishDetach.idxSlot x = none ∧ l.finishDetach.bit (Fld.SRCH_IDX_STAT_ATTACHED x) = false := by
  rw [Leaf.finishDetach_eq]
  refine foldl_through (P := fun k : Leaf => k.idxSlot x = some sl ∧ k.slotBusy x = false ∧ k.srch.slots.Pairwise fun a b => a.1 < b.1)
    (Q := fun k : Leaf => k.idxSlot x = none ∧ k.bit (Fld.SRCH_IDX_STAT_ATTACHED x) = false) (List.mem_range.mpr hx) ⟨hs, hb, hsorted⟩
    (fun k ⟨hks, hkb, hkp⟩ y hy => ?_) (fun k ⟨hks, hkb, hkp⟩ => ?_) fun k ⟨hks, hka⟩ y => ?_
  · obtain ⟨hctx, hslot, -, hsub⟩ := k.releaseSlot_other hy
    exact ⟨hslot.trans hks, (Leaf.slotBusy_congr hctx x).trans hkb, hkp.sublist hsub⟩
  · have hgone : (k.setSrch { k.srch with slots := alDel x k.srch.slots, swap := k.srch.swap.filter (· != x) }).idxSlot x = none :=
      alGet_alDel_same hkp
    rw [Leaf.releaseSlot_of_free hks hd hkb, Leaf.idxSlot_showSlot, Leaf.attached_showSlot, hgone]
    exact ⟨rfl, rfl⟩
  · by_cases hy : y = x
    · rw [hy, Leaf.releaseSlot_of_none hks]
      exact ⟨hks, hka⟩
    · obtain ⟨-, hslot, hrd, -⟩ := k.releaseSlot_other hy
      exact ⟨hslot.trans hks, (Leaf.bit_congr hrd).trans hka⟩

/-! ## DETACH -/

/-- A slot detaching, its side list empty. -/
def IdxSlot.detached (sl : IdxSlot) : IdxSlot := { sl with detaching := true, side := [] }

/-- DETACH of an attached slot: a merge and a swap of it are dropped, the slot detaches and is freed if no query uses it. -/
theorem Leaf.detach_of_attached (h : l.idxSlot x = some sl) : ∃ m : Leaf, m.srch.slots = l.srch.slots ∧ m.srch.ctxs = l.srch.ctxs
    ∧ l.detach x = ((m.setIdx x sl.detached).showSlot x).finishDetach := by
  unfold Leaf.detach
  rw [h]
  dsimp only
  split
  · split
    · exact ⟨l.dropMerge.setSrch { l.dropMerge.srch with merged := l.dropMerge.srch.merged.filter fun m => m.1 != x,
                                                         swap := l.dropMerge.srch.swap.filter (· != x) }, rfl, rfl, rfl⟩
    · exact ⟨l.setSrch { l.srch with merged := l.srch.merged.filter fun m => m.1 != x, swap := l.srch.swap.filter (· != x) }, rfl, rfl, rfl⟩
  · exact ⟨l.setSrch { l.srch with merged := l.srch.merged.filter fun m => m.1 != x, swap := l.srch.swap.filter (· != x) }, rfl, rfl, rfl⟩

theorem Leaf.idxSlot_detaching (l : Leaf) (x : Nat) (sl : IdxSlot) : ((l.setIdx x sl).showSlot x).idxSlot x = some sl :=
  (Leaf.idxSlot_showSlot ..).trans (Leaf.idxSlot_setIdx ..)

theorem Leaf.slotBusy_setIdx (l : Leaf) (x y : Nat) (sl : IdxSlot) : ((l.setIdx y sl).showSlot y).slotBusy x = l.slotBusy x :=
  Leaf.slotBusy_congr (by rw [Leaf.srch_showSlot, Leaf.srch_setIdx]) x

/-- While a query uses the slot it is shown detaching. -/
theorem Leaf.detach_of_busy (h : l.idxSlot x = some sl) (hb : l.slotBusy x = true) : (l.detach x).idxSlot x = some sl.detached
    ∧ (l.detach x).bit (Fld.SRCH_IDX_STAT_DETACHING x) = true := by
  obtain ⟨m, -, hctx, e⟩ := Leaf.detach_of_attached h
  obtain ⟨hslot, hrd⟩ := Leaf.finishDetach_of_busy (l := (m.setIdx x sl.detached).showSlot x) (x := x)
    ((m.slotBusy_setIdx ..).trans ((Leaf.slotBusy_congr hctx x).trans hb))
  rw [e, hslot, Leaf.bit_congr hrd, Leaf.detaching_showSlot, Leaf.idxSlot_detaching, Leaf.idxSlot_setIdx]
  exact ⟨rfl, rfl⟩

theorem Leaf.detach_of_free (hx : x < 4) (h : l.idxSlot x = some sl) (hb : l.slotBusy x = false)
    (hsorted : l.srch.slots.Pairwise fun a b => a.1 < b.1) :
    (l.detach x).idxSlot x = none ∧ (l.detach x).bit (Fld.SRCH_IDX_STAT_ATTACHED x) = false := by
  obtain ⟨m, hslots, hctx, e⟩ := Leaf.detach_of_attached h
  have hsorted' : ((m.setIdx x sl.detached).showSlot x).srch.slots.Pairwise fun a b => a.1 < b.1 := by
    rw [Leaf.srch_showSlot, Leaf.srch_setIdx]
    exact pairwise_alSet (hslots ▸ hsorted) x _
  rw [e]
  exact Leaf.finishDetach_of_free hx (Leaf.idxSlot_detaching ..) rfl ((m.slotBusy_setIdx ..).trans ((Leaf.slotBusy_congr hctx x).trans hb))
    hsorted'

/-- DETACH without ATTACH and SWAP. -/
theorem exec_detach (h : s.ready i = true) (hx : x < 4) {w : Word} (h31 : bitOf w.toNat 31 = false) (h29 : bitOf w.toNat 29 = false) :
    exec (.detach i x w) s = .next (s.setLeaf i ((s.leaf i).detach x)).settle := by
  have e31 : bitOf (wordWith w (Fld.SRCH_IDX_CTRL_DETACH x) 1) 31 = false := (bitOf_setBits_other _ _ (by simp)).trans h31
  have e29 : bitOf (wordWith w (Fld.SRCH_IDX_CTRL_DETACH x) 1) 29 = false := (bitOf_setBits_other _ _ (by simp)).trans h29
  have e30 : bitOf (wordWith w (Fld.SRCH_IDX_CTRL_DETACH x) 1) 30 = true := bitOf_setBits_same ..
  refine congrArg State.done ((State.fieldWrite_idxCtrl h hx rfl w).trans ?_)
  unfold Leaf.writeIdxCtrl
  dsimp only
  rw [if_neg (by simp [e29]), if_pos e30, if_neg (by simp [e31])]

/-! ## ATTACH -/

/-- ATTACH without DETACH and SWAP. -/
theorem exec_attach (h : s.ready i = true) (hx : x < 4) {w : Word} (h30 : bitOf w.toNat 30 = false) (h29 : bitOf w.toNat 29 = false) :
    exec (.attach i x w) s = .next (s.setLeaf i ((s.leaf i).attach x)).settle := by
  have e30 : bitOf (wordWith w (Fld.SRCH_IDX_CTRL_ATTACH x) 1) 30 = false := (bitOf_setBits_other _ _ (by simp)).trans h30
  have e29 : bitOf (wordWith w (Fld.SRCH_IDX_CTRL_ATTACH x) 1) 29 = false := (bitOf_setBits_other _ _ (by simp)).trans h29
  have e31 : bitOf (wordWith w (Fld.SRCH_IDX_CTRL_ATTACH x) 1) 31 = true := bitOf_setBits_same ..
  refine congrArg State.done ((State.fieldWrite_idxCtrl h hx rfl w).trans ?_)
  unfold Leaf.writeIdxCtrl
  dsimp only
  rw [if_neg (by simp [e29]), if_neg (by simp [e30]), if_pos e31]

theorem Leaf.attach_of_free (hx : x < 4) (h : l.idxSlot x = none) (hw : l.srch.attach.contains x = false) :
    l.attach x = l.setSrch { l.srch with attach := l.srch.attach ++ [x] } := by
  unfold Leaf.attach
  rw [if_neg (by omega), h, hw]
  rfl

theorem Leaf.attach_of_attached (hx : x < 4) (h : l.idxSlot x ≠ none) : l.attach x = l.put (Fld.SRCH_IDX_STAT_STATUS x) 0x0B := by
  unfold Leaf.attach
  rw [if_neg (by omega), if_pos (Option.isSome_iff_ne_none.mpr h)]

theorem exec_attachDone (h : s.ready i = true) (hx : x < 4) (r : ReadOutcome) :
    exec (.attachDone i x r) s = .next (s.setLeaf i ((s.leaf i).attachDone x r)).settle :=
  congrArg State.done ((State.indexed_of_lt _ hx).trans (State.eventNow_of_ready h _))

/-- The slots that wait for their header without slot x. -/
def Leaf.attachTaken (l : Leaf) (x : Nat) : Leaf := l.setSrch { l.srch with attach := l.srch.attach.filter (· != x) }

/-- An attachment ended with a status: with 0 the slot holds the index of header h. -/
def Leaf.attachWith (x v : Nat) (h : IxHdr) (l : Leaf) : Leaf :=
  ((if v = 0 then (l.setIdx x { hdr := h, next := h.n }).showSlot x else l).put (Fld.SRCH_IDX_STAT_STATUS x) v).raise (0x08B + x)

/-- A header that cannot be read. -/
theorem Leaf.attachDone_unreadable (hw : l.srch.attach.contains x = true) (r : Option Nat) :
    ∃ h, l.attachDone x ⟨none, r⟩ = (l.attachTaken x).attachWith x 0x09 h := by
  refine ⟨{}, ?_⟩
  unfold Leaf.attachDone Leaf.attachWith
  rw [if_neg (by rw [hw]; decide), ← Leaf.attachTaken]
  simp only [Option.isSome_none, Bool.and_false, Bool.not_false, if_true, OfNat.ofNat_ne_zero, if_false]

/-- A header that is read and within the rules. -/
theorem Leaf.attachDone_accepted {a : Nat} (hw : l.srch.attach.contains x = true) (ha : l.rd64 (Reg.SRCH_IDX_HDR_LO x) (Reg.SRCH_IDX_HDR_HI x) = a)
    (hbad : l.srch.bad.contains a = false) (hlost : l.mem.lost.contains a = false) (hst : l.attachStatus a (l.flashRead a 4096) = 0)
    (r : Option Nat) : l.attachDone x ⟨some 0, r⟩ = (l.attachTaken x).attachWith x 0 (ixHdrOf a (l.flashRead a 4096)) := by
  have hbad' : (l.attachTaken x).srch.bad.contains a = false := hbad
  have hlost' : (l.attachTaken x).mem.lost.contains a = false := hlost
  have hflash : (l.attachTaken x).flashRead a 4096 = l.flashRead a 4096 := rfl
  have hst' : (l.attachTaken x).attachStatus a (l.flashRead a 4096) = 0 := hst
  unfold Leaf.attachDone Leaf.attachWith
  rw [if_neg (by rw [hw]; decide), ← Leaf.attachTaken, ha]
  simp only [hbad', hlost', hflash, hst', Option.isSome_some, Bool.not_false, Bool.and_self, Bool.not_true, Bool.false_eq_true, if_false, if_true]

theorem Leaf.status_attachWith (l : Leaf) {v : Nat} (h : IxHdr) (hx : x < 4) (hv : v < 256) :
    (l.attachWith x v h).get (Fld.SRCH_IDX_STAT_STATUS x) = v := by
  have hblk : Reg.SRCH_IDX_STAT x / 2 ^ 20 ≠ 4 := show (0xE01014 + 0x100 * x) / 2 ^ 20 ≠ 4 by omega
  unfold Leaf.attachWith
  rw [(Leaf.irq_raise _ _ (by omega)).get _ hblk, Leaf.get_put_same _ _ _ (by simp) (by simp)]
  exact Nat.mod_eq_of_lt hv

theorem Leaf.srch_attachWith_failed (l : Leaf) {v : Nat} (h : IxHdr) (hx : x < 4) (hv : v ≠ 0) : (l.attachWith x v h).srch = l.srch := by
  unfold Leaf.attachWith
  rw [Leaf.srch_raise _ (by omega), Leaf.srch_put, if_neg hv]

/-- After an attachment that succeeds the slot is attached and shown. -/
theorem Leaf.attached_attachWith (l : Leaf) (h : IxHdr) (hx : x < 4) : (l.attachWith x 0 h).bit (Fld.SRCH_IDX_STAT_ATTACHED x) = true
    ∧ (l.attachWith x 0 h).idxSlot x = some { hdr := h, next := h.n } := by
  have hblk : Reg.SRCH_IDX_STAT x / 2 ^ 20 ≠ 4 := show (0xE01014 + 0x100 * x) / 2 ^ 20 ≠ 4 by omega
  unfold Leaf.attachWith
  rw [(Leaf.irq_raise _ _ (by omega)).bit _ hblk, if_pos rfl,
    Leaf.bit_put_disjoint _ (Fld.SRCH_IDX_STAT_STATUS x) (Fld.SRCH_IDX_STAT_ATTACHED x) _ rfl (by simp) (by simp) (by simp),
    Leaf.attached_showSlot, Leaf.idxSlot_setIdx,
    Leaf.idxSlot_congr (congrArg SrchState.slots ((Leaf.srch_raise _ (by omega)).trans (Leaf.srch_put ..))), Leaf.idxSlot_detaching]
  exact ⟨rfl, rfl⟩

/-! ## Writing an index to flash (R391) -/

theorem Leaf.writeReg_fwCtrl (l : Leaf) (w : Nat) : l.writeReg Reg.SRCH_FW_CTRL w = if bitOf w 31 then l.fwGo else l := rfl

theorem exec_srchFwGo (h : s.ready i = true) (w : Word) : exec (.srchFwGo i w) s = .next (s.setLeaf i (s.leaf i).fwGo).settle := by
  refine congrArg State.done ?_
  unfold State.fieldWrite
  rw [State.regWrite_above_tick h _ rfl (by decide), Leaf.writeReg_fwCtrl]
  exact congrArg (s.setLeaf i) (if_pos (bitOf_setBits_same ..))

variable {src dst len : Nat}

/-- A write whose extent is not legal. -/
theorem Leaf.fwGo_of_bad (hb : l.bit Fld.SRCH_FW_STAT_BUSY = false) (hs : l.rd64 Reg.SRCH_FW_SRC_LO Reg.SRCH_FW_SRC_HI = src)
    (hd : l.rd64 Reg.SRCH_FW_DST_LO Reg.SRCH_FW_DST_HI = dst) (hl : l.rd Reg.SRCH_FW_LEN = len) (hbad : l.fwBad src dst len = true) :
    l.fwGo = (l.put Fld.SRCH_FW_STAT_STATUS 0x0B).flagEvent Fld.SRCH_FW_STAT_DONE 0x089 := by
  unfold Leaf.fwGo
  dsimp only
  rw [if_neg (by simp [hb]), hs, hd, hl, if_pos (by simp [hbad])]

theorem Leaf.fwGo_of_legal (hb : l.bit Fld.SRCH_FW_STAT_BUSY = false) (hs : l.rd64 Reg.SRCH_FW_SRC_LO Reg.SRCH_FW_SRC_HI = src)
    (hd : l.rd64 Reg.SRCH_FW_DST_LO Reg.SRCH_FW_DST_HI = dst) (hl : l.rd Reg.SRCH_FW_LEN = len) (hok : l.fwBad src dst len = false)
    (hro : l.bit (Fld.MEM_FLASH_WEAR_RO (dst / 2 ^ 37 % 8)) = false) :
    l.fwGo = (l.setSrch { l.srch with fw := some { src := src, dst := dst, len := len } }).putB Fld.SRCH_FW_STAT_BUSY true := by
  unfold Leaf.fwGo
  dsimp only
  rw [if_neg (by simp [hb]), hs, hd, hl, if_neg (by rw [hok, hro]; decide)]

/-- A flash write ended with a status. -/
def Leaf.fwEnd (v : Nat) (l : Leaf) : Leaf :=
  ((l.putB Fld.SRCH_FW_STAT_BUSY false).put Fld.SRCH_FW_STAT_STATUS v).flagEvent Fld.SRCH_FW_STAT_DONE 0x089

theorem Leaf.showsEnd_fwEnd (l : Leaf) {v : Nat} (hv : v < 256) : (l.fwEnd v).ShowsEnd Reg.SRCH_FW_STAT v :=
  Leaf.showsEnd_flagEvent _ (by decide) hv (by decide)

theorem Leaf.srch_fwEnd (l : Leaf) (v : Nat) : (l.fwEnd v).srch = l.srch := Leaf.srch_flagEvent _ _ (by decide)

theorem Leaf.mems_fwEnd (l : Leaf) (v : Nat) : (l.fwEnd v).mems = l.mems := (Leaf.mems_flagEvent ..).trans rfl

/-- An uncorrectable source: nothing is written. -/
theorem Leaf.fwDone_of_badRange {c : FwCmd} (hf : l.srch.fw = some c) (hbad : l.badRange c.src c.len = true) (outs : List WriteOutcome) :
    l.fwDone outs = (l.setSrch { l.srch with fw := none }).fwEnd 0x09 := by
  unfold Leaf.fwDone
  rw [hf]
  exact if_pos hbad

/-- The source is written. -/
theorem Leaf.fwDone_of_good {c : FwCmd} (hf : l.srch.fw = some c) (hbad : l.badRange c.src c.len = false) : l.fwDone [] =
    (((l.setSrch { l.srch with fw := none }).flashWrite c.dst (l.dramRead c.src c.len)).coverFlash
      [(c.dst / 2 ^ 37, c.dst % 2 ^ 37, c.len)]).fwEnd 0 := by
  unfold Leaf.fwDone
  rw [hf]
  exact if_neg (show ¬l.badRange c.src c.len = true by simp [hbad])

theorem Leaf.flashRead_congr (h : m.flash = l.flash) (a n : Nat) : m.flashRead a n = l.flashRead a n := by unfold Leaf.flashRead; rw [h]

/-- A read of the extent written returns the bytes. -/
theorem Leaf.flashRead_flashWrite (l : Leaf) (a : Nat) (bs : List Byte) : (l.flashWrite a bs).flashRead a bs.length = bs := by
  refine List.ext_getElem (by simp [Leaf.flashRead]) fun k hk hk' => ?_
  simp only [Leaf.flashRead, List.getElem_map, List.getElem_range]
  exact memPutList_same _ _ _ _ hk'

theorem Leaf.length_dramRead (l : Leaf) (a n : Nat) : (l.dramRead a n).length = n := by simp [Leaf.dramRead]

theorem exec_srchFwDone (h : s.ready i = true) (outs : List WriteOutcome) :
    exec (.srchFwDone i outs) s = .next (s.setLeaf i ((s.leaf i).fwDone outs)).settle :=
  congrArg State.done (State.eventNow_of_ready h _)

/-! ## The commands -/

theorem idxStat_between (hx : x < 4) : 0x500000 ≤ Reg.SRCH_IDX_STAT x ∧ Reg.SRCH_IDX_STAT x < 0x1C00000 :=
  show 0x500000 ≤ 0xE01014 + 0x100 * x ∧ 0xE01014 + 0x100 * x < 0x1C00000 by omega

theorem Leaf.Kept.idxSlot (h : l.Kept m) (x : Nat) : m.idxSlot x = l.idxSlot x := Leaf.idxSlot_congr (congrArg SrchState.slots h.srch) x

theorem answersWith_srchFwGo_bad (hr : s.ready i = true) (w : Word) (hb : (s.leaf i).bit Fld.SRCH_FW_STAT_BUSY = false)
    (hs : src = (s.leaf i).rd64 Reg.SRCH_FW_SRC_LO Reg.SRCH_FW_SRC_HI) (hd : dst = (s.leaf i).rd64 Reg.SRCH_FW_DST_LO Reg.SRCH_FW_DST_HI)
    (hl : len = (s.leaf i).rd Reg.SRCH_FW_LEN) (hbad : (s.leaf i).fwBad src dst len = true) : AnswersWith (.srchFwGo i w) s fun t =>
      (t.leaf i).get Fld.SRCH_FW_STAT_STATUS = 0x0B ∧ (t.leaf i).bit Fld.SRCH_FW_STAT_DONE = true ∧ (t.leaf i).srch = (s.leaf i).srch := by
  have e := exec_srchFwGo hr w
  rw [Leaf.fwGo_of_bad hb hs.symm hd.symm hl.symm hbad] at e
  refine answersWith_of_setLeaf e fun t kept _ => ?_
  have hend : (t.leaf i).ShowsDone Reg.SRCH_FW_STAT 0x0B :=
    (Leaf.showsDone_flagEvent _ (by decide) (by decide) (by decide)).congr (kept.rd_of_between (by decide))
  refine ⟨hend.status, hend.done, ?_⟩
  rw [kept.srch, Leaf.srch_flagEvent _ _ (by decide), Leaf.srch_put]

theorem answersWith_srchFwGo_legal (hr : s.ready i = true) (w : Word) (hb : (s.leaf i).bit Fld.SRCH_FW_STAT_BUSY = false)
    (hs : src = (s.leaf i).rd64 Reg.SRCH_FW_SRC_LO Reg.SRCH_FW_SRC_HI) (hd : dst = (s.leaf i).rd64 Reg.SRCH_FW_DST_LO Reg.SRCH_FW_DST_HI)
    (hl : len = (s.leaf i).rd Reg.SRCH_FW_LEN) (hok : (s.leaf i).fwBad src dst len = false)
    (hro : (s.leaf i).bit (Fld.MEM_FLASH_WEAR_RO (dst / 2 ^ 37 % 8)) = false) : AnswersWith (.srchFwGo i w) s fun t =>
      (t.leaf i).bit Fld.SRCH_FW_STAT_BUSY = true ∧ (t.leaf i).srch.fw = some { src := src, dst := dst, len := len } := by
  have e := exec_srchFwGo hr w
  rw [Leaf.fwGo_of_legal hb hs.symm hd.symm hl.symm hok hro] at e
  refine answersWith_of_setLeaf e fun t kept _ => ⟨?_, ?_⟩
  · exact (kept.bit_of_between (by decide)).trans (Leaf.bit_putB_same _ _ _ (by decide) (by decide))
  · rw [kept.srch, Leaf.srch_putB, Leaf.srch_setSrch]

theorem answersWith_srchFwDone_poison {c : FwCmd} (hr : s.ready i = true) (hf : (s.leaf i).srch.fw = some c)
    (hbad : (s.leaf i).badRange c.src c.len = true) (outs : List WriteOutcome) : AnswersWith (.srchFwDone i outs) s fun t =>
      (t.leaf i).srch.fw = none ∧ (t.leaf i).get Fld.SRCH_FW_STAT_STATUS = 0x09 ∧ (t.leaf i).bit Fld.SRCH_FW_STAT_BUSY = false
      ∧ (t.leaf i).flash = (s.leaf i).flash := by
  have e := exec_srchFwDone hr outs
  rw [Leaf.fwDone_of_badRange hf hbad] at e
  refine answersWith_of_setLeaf e fun t kept _ => ?_
  have hend := (Leaf.showsEnd_fwEnd _ (v := 0x09) (by decide)).congr (kept.rd_of_between (by decide))
  refine ⟨?_, hend.status, hend.busy, ?_⟩
  · rw [kept.srch, Leaf.srch_fwEnd, Leaf.srch_setSrch]
  · exact kept.flash.trans (Leaf.flash_of_mems ((Leaf.mems_fwEnd ..).trans (Leaf.mems_setSrch ..)))

theorem answersWith_srchFwDone_good {c : FwCmd} (hr : s.ready i = true) (hf : (s.leaf i).srch.fw = some c)
    (hok : (s.leaf i).badRange c.src c.len = false) : AnswersWith (.srchFwDone i []) s fun t => (t.leaf i).srch.fw = none
      ∧ (t.leaf i).get Fld.SRCH_FW_STAT_STATUS = 0 ∧ (t.leaf i).bit Fld.SRCH_FW_STAT_BUSY = false
      ∧ (t.leaf i).flashRead c.dst c.len = (s.leaf i).dramRead c.src c.len
      ∧ ∀ a, a < c.dst ∨ c.dst + c.len ≤ a → sparseGet memDefault (t.leaf i).flash a = sparseGet memDefault (s.leaf i).flash a := by
  have e := exec_srchFwDone hr []
  rw [Leaf.fwDone_of_good hf hok] at e
  refine answersWith_of_setLeaf e fun t kept _ => ?_
  have hend := (Leaf.showsEnd_fwEnd _ (v := 0) (by decide)).congr (kept.rd_of_between (by decide))
  have hlen := (s.leaf i).length_dramRead c.src c.len
  have hflash : (t.leaf i).flash = ((s.leaf i).flashWrite c.dst ((s.leaf i).dramRead c.src c.len)).flash :=
    kept.flash.trans (Leaf.flash_of_mems ((Leaf.mems_fwEnd ..).trans (Leaf.mems_coverFlash ..)))
  refine ⟨?_, hend.status, hend.busy, ?_, fun a ha => ?_⟩
  · rw [kept.srch, Leaf.srch_fwEnd]
    rfl
  · have hread := (s.leaf i).flashRead_flashWrite c.dst ((s.leaf i).dramRead c.src c.len)
    rw [hlen] at hread
    rw [Leaf.flashRead_congr hflash, hread]
  · rw [hflash]
    exact memPutList_other _ _ _ _ (by rwa [hlen])

theorem answersWith_attach_attached {w : Word} (hr : s.ready i = true) (hx : x < 4) (h30 : bitOf w.toNat 30 = false)
    (h29 : bitOf w.toNat 29 = false) (h : (s.leaf i).idxSlot x ≠ none) : AnswersWith (.attach i x w) s fun t =>
      (t.leaf i).get (Fld.SRCH_IDX_STAT_STATUS x) = 0x0B ∧ (t.leaf i).srch = (s.leaf i).srch := by
  have e := exec_attach hr hx h30 h29
  rw [Leaf.attach_of_attached hx h] at e
  refine answersWith_of_setLeaf e fun t kept _ => ⟨?_, kept.srch.trans (Leaf.srch_put ..)⟩
  exact (Leaf.get_congr (kept.rd_of_between (idxStat_between hx))).trans (Leaf.get_put_same _ _ _ (by simp) (by simp))

theorem answersWith_attachDone_unreadable {r : Option Nat} (hr : s.ready i = true) (hx : x < 4)
    (hw : (s.leaf i).srch.attach.contains x = true) : AnswersWith (.attachDone i x ⟨none, r⟩) s fun t =>
      (t.leaf i).get (Fld.SRCH_IDX_STAT_STATUS x) = 0x09 ∧ (t.leaf i).srch.slots = (s.leaf i).srch.slots := by
  obtain ⟨h, hdone⟩ := Leaf.attachDone_unreadable hw r
  have e := exec_attachDone hr hx ⟨none, r⟩
  rw [hdone] at e
  refine answersWith_of_setLeaf e fun t kept _ => ⟨?_, ?_⟩
  · exact (Leaf.get_congr (kept.rd_of_between (idxStat_between hx))).trans (Leaf.status_attachWith _ _ hx (by decide))
  · rw [kept.srch, Leaf.srch_attachWith_failed _ _ hx (by decide)]
    rfl

theorem answersWith_attachDone_accepted {a : Nat} {r : Option Nat} (hr : s.ready i = true) (hx : x < 4)
    (hw : (s.leaf i).srch.attach.contains x = true) (ha : a = (s.leaf i).rd64 (Reg.SRCH_IDX_HDR_LO x) (Reg.SRCH_IDX_HDR_HI x))
    (hbad : (s.leaf i).srch.bad.contains a = false) (hlost : (s.leaf i).mem.lost.contains a = false)
    (hst : (s.leaf i).attachStatus a ((s.leaf i).flashRead a 4096) = 0) : AnswersWith (.attachDone i x ⟨some 0, r⟩) s fun t =>
      (t.leaf i).get (Fld.SRCH_IDX_STAT_STATUS x) = 0 ∧ (t.leaf i).bit (Fld.SRCH_IDX_STAT_ATTACHED x) = true
      ∧ (t.leaf i).idxSlot x = some { hdr := ixHdrOf a ((s.leaf i).flashRead a 4096),
                                      next := (ixHdrOf a ((s.leaf i).flashRead a 4096)).n } := by
  have e := exec_attachDone hr hx ⟨some 0, r⟩
  rw [Leaf.attachDone_accepted hw ha.symm hbad hlost hst] at e
  refine answersWith_of_setLeaf e fun t kept _ => ?_
  obtain ⟨hshown, hslot⟩ := Leaf.attached_attachWith ((s.leaf i).attachTaken x) (ixHdrOf a ((s.leaf i).flashRead a 4096)) hx
  have hrd := kept.rd_of_between (idxStat_between hx)
  exact ⟨(Leaf.get_congr hrd).trans (Leaf.status_attachWith _ _ hx (by decide)), (Leaf.bit_congr hrd).trans hshown,
    (kept.idxSlot x).trans hslot⟩

/-- Settles O45: flash writes, attachments and detachments, each by what its operation makes of the leaf. -/
theorem attachAndFlashWriteCommands : Obligations.AttachAndFlashWriteCommands := by
  intro s i hr
  refine ⟨fun w src dst len hb hs hd hl => ⟨answersWith_srchFwGo_bad hr w hb hs hd hl, answersWith_srchFwGo_legal hr w hb hs hd hl⟩,
    fun c hf => ⟨answersWith_srchFwDone_poison hr hf, answersWith_srchFwDone_good hr hf⟩,
    fun x w hx h30 h29 => ⟨fun hnone hw => ?_, answersWith_attach_attached hr hx h30 h29⟩,
    fun x a r hx hw ha => ⟨answersWith_attachDone_unreadable hr hx hw, answersWith_attachDone_accepted hr hx hw ha⟩,
    fun x w sl hx h31 h29 hslot => ⟨fun hb => ?_, fun hb hsorted => ?_⟩⟩
  · have e := exec_attach hr hx h30 h29
    rw [Leaf.attach_of_free hx hnone hw] at e
    exact answersWith_of_setLeaf e fun t kept _ => kept.srch
  · refine answersWith_of_setLeaf (exec_detach hr hx h31 h29) fun t kept _ => ?_
    rw [kept.idxSlot, kept.bit_of_between (idxStat_between hx)]
    exact Leaf.detach_of_busy hslot hb
  · refine answersWith_of_setLeaf (exec_detach hr hx h31 h29) fun t kept _ => ?_
    rw [kept.idxSlot, kept.bit_of_between (idxStat_between hx)]
    exact Leaf.detach_of_free hx hslot hb hsorted

end Sys2Proof.Machine
end

section
/-!
PROOFS. The solver and the assignment unit (R401 to R424): the job a lane runs, its end, the assignment's, a reset, and the statement about
their commands.
-/
namespace Sys2Proof.Machine

variable {s : State} {i : LeafId} {l m : Leaf} {d : SolvDesc} {j : Nat}

/-! ## Jobs -/

theorem jobStat_ne (j : Nat) {a : Nat} (ha : a < 0xF00100) : a ≠ Reg.SOLV_JOB_STAT j := show a ≠ 0xF00100 + 0x20 * j by omega

theorem jobStat_between (hj : j < 8) : 0x500000 ≤ Reg.SOLV_JOB_STAT j ∧ Reg.SOLV_JOB_STAT j < 0x1C00000 :=
  show 0x500000 ≤ 0xF00100 + 0x20 * j ∧ 0xF00100 + 0x20 * j < 0x1C00000 by omega

theorem jobStat_block (hj : j < 8) : Reg.SOLV_JOB_STAT j / 2 ^ 20 ≠ 4 := show (0xF00100 + 0x20 * j) / 2 ^ 20 ≠ 4 by omega

theorem Leaf.sjob_congr (h : m.solv.jobs = l.solv.jobs) (j : Nat) : m.sjob j = l.sjob j := by unfold Leaf.sjob; rw [h]

theorem Leaf.sjob_of_alSet {x : SolvJob} {xs : List (Nat × SolvJob)} (h : l.solv.jobs = alSet j x xs) : l.sjob j = x := by
  unfold Leaf.sjob
  rw [h, alGet_alSet_same]
  rfl

theorem Leaf.sjob_setSjob_other (l : Leaf) {j k : Nat} (h : j ≠ k) (x : SolvJob) : (l.setSjob j x).sjob k = l.sjob k := by
  unfold Leaf.sjob
  exact congrArg (fun o : Option SolvJob => o.getD {}) (alGet_alSet_other h ..)

theorem Leaf.solv_put (l : Leaf) (f : FieldRef) (v : Nat) : (l.put f v).solv = l.solv := rfl

theorem Leaf.solv_putB (l : Leaf) (f : FieldRef) (b : Bool) : (l.putB f b).solv = l.solv := rfl

theorem Leaf.solv_putFree (l : Leaf) (f : FieldRef) : (l.putFree f).solv = l.solv := rfl

theorem Leaf.solv_setSolv (l : Leaf) (x : SolvState) : (l.setSolv x).solv = x := rfl

theorem Leaf.jobs_setSjob (l : Leaf) (j : Nat) (x : SolvJob) : (l.setSjob j x).solv.jobs = alSet j x l.solv.jobs := rfl

theorem Leaf.rd_putFree_other (l : Leaf) {f : FieldRef} {a : Nat} (h : f.addr ≠ a) : (l.putFree f).rd a = l.rd a :=
  (Leaf.rd_put_other _ _ _ h).trans rfl

theorem Leaf.IrqOnly.solv (h : l.IrqOnly m) : m.solv = l.solv := by rw [h.eq]

theorem job_of_find {ds : List SolvDesc} (h : ds.find? (fun e => e.job == j) = some d) : d.job = j := by
  simpa using List.find?_some h

/-! ## Starting (R401) -/

/-- A ready job that goes first takes idle lanes. -/
theorem Leaf.solvStart_of_first (hf : l.solvJobs.find? (fun e => e.job == j) = some d) (ht : l.ticking = true) (hr : l.solvReady d = true)
    (hb : l.bit Fld.SOLV_STAT_RST_BUSY = false) (hfirst : (l.solvJobs.all fun e => !(l.solvReady e) || decide (d.rank ≤ e.rank)) = true)
    (hidle : l.solvRunning = none) : l.solvStart j = l.solvRun d := by
  unfold Leaf.solvStart
  rw [hf]
  dsimp only
  rw [if_neg (by rw [ht, hr, hb, hfirst]; decide), hidle]

theorem Leaf.solvStart_of_not_ready (hf : l.solvJobs.find? (fun e => e.job == j) = some d) (hr : l.solvReady d = false) : l.solvStart j = l := by
  unfold Leaf.solvStart
  rw [hf]
  exact if_pos (by simp [hr])

/-- The lanes are shown busy with the job. -/
theorem Leaf.shown_solvRun (l : Leaf) (hj : d.job < 8) : (l.solvRun d).bit Fld.SOLV_STAT_BUSY = true ∧ (l.solvRun d).get Fld.SOLV_STAT_JOB = d.job := by
  unfold Leaf.solvRun
  dsimp only
  rw [Leaf.bit_put_disjoint _ Fld.SOLV_STAT_JOB Fld.SOLV_STAT_BUSY _ rfl (by decide) (by decide) (by decide),
    Leaf.bit_putB_same _ _ _ (by decide) (by decide), Leaf.get_put_same _ _ _ (by decide) (by decide)]
  exact ⟨rfl, Nat.mod_eq_of_lt hj⟩

theorem Leaf.st_solvRun (l : Leaf) : ((l.solvRun d).sjob d.job).st = .running := by
  have hjobs : ∃ x, x.st = .running ∧ (l.solvRun d).solv.jobs = alSet d.job x l.solv.jobs := by
    refine ⟨{ l.sjob d.job with st := .running, eps := if (d.kind == 4 && match l.solv.graph with
        | some g => g.started | none => false) then (l.sjob d.job).eps else l.epsExp }, rfl, ?_⟩
    unfold Leaf.solvRun
    dsimp only
    rw [Leaf.solv_put, Leaf.solv_putB]
    split
    · rw [Leaf.solv_setSolv]
      exact Leaf.jobs_setSjob ..
    · exact Leaf.jobs_setSjob ..
  obtain ⟨x, hx, h⟩ := hjobs
  rw [Leaf.sjob_of_alSet h, hx]

/-! ## The end of a job (R405) -/

theorem Leaf.solv_solvEvents (l : Leaf) (r : SolvRes) : (l.solvEvents r).solv = l.solv := by
  have hflag (k : Leaf) (f : FieldRef) {x : Nat} (hx : x < 512) : (k.flagEvent f x).solv = k.solv := (k.irq_flagEvent f hx).solv
  unfold Leaf.solvEvents
  dsimp only
  rw [apply_ite Leaf.solv, hflag _ _ (by decide), ite_self, apply_ite Leaf.solv, hflag _ _ (by decide), ite_self, apply_ite Leaf.solv,
    hflag _ _ (by decide), ite_self]

/-- The job is done with its result. -/
theorem Leaf.sjob_solvFinish (l : Leaf) (r : SolvRes) :
    ((l.solvFinish d r).sjob d.job).st = .done ∧ ((l.solvFinish d r).sjob d.job).res = some r := by
  have hjobs : (l.solvFinish d r).solv.jobs = alSet d.job { l.sjob d.job with st := .done, res := some r } l.solv.jobs := by
    unfold Leaf.solvFinish
    dsimp only
    rw [Leaf.solv_putFree, Leaf.solv_putB, Leaf.solv_putB, Leaf.solv_solvEvents]
    split
    · rw [Leaf.solv_setSolv]
      exact Leaf.jobs_setSjob ..
    · exact Leaf.jobs_setSjob ..
  rw [Leaf.sjob_of_alSet hjobs]
  exact ⟨rfl, rfl⟩

/-- The lanes are free, and the job shown done. -/
theorem Leaf.shown_solvFinish (l : Leaf) (r : SolvRes) : (l.solvFinish d r).bit Fld.SOLV_STAT_BUSY = false
    ∧ (l.solvFinish d r).bit (Fld.SOLV_JOB_STAT_DONE d.job) = true := by
  have hlast : Reg.SOLV_JOB_LAST d.job ≠ Reg.SOLV_STAT := show 0xF00108 + 0x20 * d.job ≠ 0xF00008 by omega
  have hlastJob : Reg.SOLV_JOB_LAST d.job ≠ Reg.SOLV_JOB_STAT d.job := show 0xF00108 + 0x20 * d.job ≠ 0xF00100 + 0x20 * d.job by omega
  have hstat : Reg.SOLV_STAT ≠ Reg.SOLV_JOB_STAT d.job := jobStat_ne _ (by decide)
  unfold Leaf.solvFinish
  dsimp only
  constructor
  · rw [Leaf.bit_congr (Leaf.rd_putFree_other _ hlast), Leaf.bit_putB_same _ _ _ (by decide) (by decide)]
  · rw [Leaf.bit_congr (Leaf.rd_putFree_other _ hlastJob), Leaf.bit_congr (Leaf.rd_putB_other _ _ _ hstat),
      Leaf.bit_putB_same _ _ _ (by simp) (by simp)]

/-- A job of the first three kinds that runs is finished with some result; an EGO_UPDATE with the one that its solve gives. -/
theorem Leaf.solvComplete_of_running (hf : l.solvJobs.find? (fun e => e.job == j) = some d) (hst : (l.sjob j).st = .running)
    (hk : d.kind = 1 ∨ d.kind = 2 ∨ d.kind = 3) (ue : Bool) : ∃ r, ∃ m : Leaf, l.solvComplete j ue = m.solvFinish d r
      ∧ (d.kind = 1 → r = (l.solveEgo d ue).1) := by
  unfold Leaf.solvComplete
  rw [hf]
  dsimp only
  rw [if_neg (by simp [hst])]
  obtain h | h | h := hk
  · rw [h]
    exact ⟨_, _, rfl, fun _ => rfl⟩
  · rw [h]
    exact ⟨_, _, rfl, fun h => absurd h (by decide)⟩
  · rw [h]
    exact ⟨_, _, rfl, fun h => absurd h (by decide)⟩

/-! ## The assignment unit (R419, R420) -/

/-- What an assignment that is complete leaves. -/
structure Leaf.AsgDone (j : Nat) (l : Leaf) : Prop where
  asg : l.solv.asg = 2
  st : (l.sjob j).st = .done
  busy : l.bit Fld.SOLV_ASG_STAT_BUSY = false
  shown : l.bit (Fld.SOLV_JOB_STAT_DONE j) = true

theorem Leaf.AsgDone.congr (h : l.AsgDone j) (hsolv : m.solv = l.solv) (hbusy : m.bit Fld.SOLV_ASG_STAT_BUSY = l.bit Fld.SOLV_ASG_STAT_BUSY)
    (hrd : m.rd (Reg.SOLV_JOB_STAT j) = l.rd (Reg.SOLV_JOB_STAT j)) : m.AsgDone j where
  asg := hsolv ▸ h.asg
  st := (congrArg SolvJob.st (Leaf.sjob_congr (congrArg SolvState.jobs hsolv) j)).trans h.st
  busy := hbusy.trans h.busy
  shown := (Leaf.bit_congr hrd).trans h.shown

theorem Leaf.solv_engineSend (code port : Nat) (ts : List Token) (l : Leaf) : (l.engineSend code port ts).solv = l.solv :=
  Leaf.foldl_congr Leaf.solv _ _ l fun _ _ _ => rfl

theorem Leaf.rd_engineSend (code port : Nat) (ts : List Token) (l : Leaf) (a : Nat) : (l.engineSend code port ts).rd a = l.rd a :=
  Leaf.foldl_congr (·.rd a) _ _ l fun _ _ _ => rfl

theorem Leaf.AsgDone.engineSend (h : l.AsgDone j) (code port : Nat) (ts : List Token) : (l.engineSend code port ts).AsgDone j :=
  h.congr (Leaf.solv_engineSend ..) (Leaf.bit_congr (Leaf.rd_engineSend ..)) (Leaf.rd_engineSend ..)

theorem Leaf.AsgDone.countBy (h : l.AsgDone j) (cls idx n : Nat) : (l.countBy cls idx n).AsgDone j := h.congr rfl rfl rfl

/-- The counts of the assignment stand beside its BUSY. -/
theorem Leaf.AsgDone.putCount (h : l.AsgDone j) {f : FieldRef} (ha : f.addr = Reg.SOLV_ASG_STAT) (hlo : f.lo ≤ f.hi) (hhi : f.hi < 31)
    (v : Nat) : (l.put f v).AsgDone j :=
  h.congr rfl (Leaf.bit_put_disjoint _ f Fld.SOLV_ASG_STAT_BUSY _ ha hlo (by simp) (.inl hhi))
    (Leaf.rd_put_other _ _ _ (ha ▸ jobStat_ne j (by decide)))

theorem Leaf.AsgDone.flagEvent (h : l.AsgDone j) (hj : j < 8) {x : Nat} (hx : x < 512) : (l.flagEvent Fld.SOLV_STAT_ASG_BAD x).AsgDone j :=
  h.congr (l.irq_flagEvent _ hx).solv (Leaf.bit_congr (Leaf.rd_flagEvent_other _ hx (by decide) (by decide)))
    (Leaf.rd_flagEvent_other _ hx (jobStat_ne j (by decide)) (jobStat_block hj))

theorem Leaf.AsgDone.bump (h : l.AsgDone j) (cls idx : Nat) : (l.bump cls idx).AsgDone j := h.countBy ..

/-- The job ended, before its result is sent. -/
def Leaf.asgEnd (j : Nat) (l : Leaf) : Leaf :=
  (((((l.setSjob j { l.sjob j with st := .done }).setSolv { (l.setSjob j { l.sjob j with st := .done }).solv with asg := 2 }).putB
    Fld.SOLV_ASG_STAT_BUSY false).putB (Fld.SOLV_JOB_STAT_DONE j) true).putFree Fld.SOLV_ASG_LAST_NS)

theorem Leaf.asgDone_asgEnd (l : Leaf) (j : Nat) : (l.asgEnd j).AsgDone j := by
  have hlast : Reg.SOLV_ASG_LAST ≠ Reg.SOLV_JOB_STAT j := jobStat_ne j (by decide)
  have hasg : Reg.SOLV_JOB_STAT j ≠ Reg.SOLV_ASG_STAT := Ne.symm (jobStat_ne j (by decide))
  have hsolv : (l.asgEnd j).solv = { l.solv with jobs := alSet j { l.sjob j with st := .done } l.solv.jobs, asg := 2 } := by
    unfold Leaf.asgEnd
    rw [Leaf.solv_putFree, Leaf.solv_putB, Leaf.solv_putB, Leaf.solv_setSolv]
    rfl
  have hjob := Leaf.sjob_of_alSet (congrArg SolvState.jobs hsolv)
  refine ⟨by rw [hsolv], by rw [hjob], ?_, ?_⟩
  · unfold Leaf.asgEnd
    rw [Leaf.bit_congr (Leaf.rd_putFree_other _ (by decide)), Leaf.bit_congr (Leaf.rd_putB_other _ _ _ hasg),
      Leaf.bit_putB_same _ _ _ (by decide) (by decide)]
  · unfold Leaf.asgEnd
    rw [Leaf.bit_congr (Leaf.rd_putFree_other _ hlast), Leaf.bit_putB_same _ _ _ (by simp) (by simp)]

/-- An assignment that runs completes. -/
theorem Leaf.asgDone_asgComplete (ha : l.asgJob = some d) (hj : d.job < 8) (hrun : l.solv.asg = 1) : l.asgComplete.AsgDone d.job := by
  have hend := l.asgDone_asgEnd d.job
  unfold Leaf.asgComplete
  rw [ha]
  dsimp only
  rw [if_neg (by simp [hrun]), ← Leaf.asgEnd]
  split
  · exact hend.engineSend ..
  · have hcounts (p q : Nat) (ts : List Token) (n : Nat) : ((((l.asgEnd d.job).engineSend 9 8 ts).countBy 15 1 n |>.put
        Fld.SOLV_ASG_STAT_ROWS p).put Fld.SOLV_ASG_STAT_UNASSIGNED q).AsgDone d.job :=
      (((hend.engineSend ..).countBy ..).putCount rfl (by decide) (by decide) _).putCount rfl (by decide) (by decide) _
    split
    · exact ((hcounts ..).flagEvent hj (by decide)).bump ..
    · exact hcounts ..

theorem Leaf.asgStart_of_ended (ha : l.asgJob = some d) (ht : l.ticking = true) (he : l.solvEnded 8 = true) (hidle : l.solv.asg = 0)
    (hb : l.bit Fld.SOLV_STAT_RST_BUSY = false) : l.asgStart = (l.setSolv { l.solv with asg := 1 }).putB Fld.SOLV_ASG_STAT_BUSY true := by
  unfold Leaf.asgStart
  rw [ha]
  exact if_pos (by rw [ht, he, hidle, hb]; rfl)

/-! ## Reset (R422) -/

/-- A job that a reset stops. -/
def Leaf.stopJob (l : Leaf) (d : SolvDesc) : Leaf :=
  if (l.sjob d.job).st == .armed || (l.sjob d.job).st == .running then l.setSjob d.job { l.sjob d.job with st := .gone } else l

theorem Leaf.stopJob_of_running (h : (l.sjob d.job).st = .running ∨ (l.sjob d.job).st = .gone) :
    ((l.stopJob d).sjob d.job).st = .gone := by
  unfold Leaf.stopJob
  obtain h | h := h
  · rw [if_pos (by simp [h]), Leaf.sjob_of_alSet (Leaf.jobs_setSjob ..)]
  · rw [if_neg (by simp [h]), h]

theorem Leaf.sjob_stopJob_other (l : Leaf) (h : d.job ≠ j) : (l.stopJob d).sjob j = l.sjob j := by
  unfold Leaf.stopJob
  split
  · exact Leaf.sjob_setSjob_other _ h _
  · rfl

/-- What a job that runs is from its stop on. -/
theorem Leaf.st_foldl_stopJob {ds : List SolvDesc} (hd : d ∈ ds) (h : (l.sjob d.job).st = .running) :
    ((ds.foldl Leaf.stopJob l).sjob d.job).st = .gone := by
  refine foldl_through (P := fun m : Leaf => (m.sjob d.job).st = .running ∨ (m.sjob d.job).st = .gone)
    (Q := fun m : Leaf => (m.sjob d.job).st = .gone) hd (.inl h) (fun m hm e _ => ?_) (fun m hm => Leaf.stopJob_of_running hm)
    fun m hm e => ?_
  · by_cases he : e.job = d.job
    · rw [← he] at hm ⊢
      exact .inr (Leaf.stopJob_of_running hm)
    · rwa [Leaf.sjob_stopJob_other _ he]
  · by_cases he : e.job = d.job
    · rw [← he] at hm ⊢
      exact Leaf.stopJob_of_running (.inr hm)
    · rwa [Leaf.sjob_stopJob_other _ he]

theorem Leaf.solv_showGraph (l : Leaf) : l.showGraph.solv = l.solv := rfl

theorem Leaf.solv_setEngPort (l : Leaf) (code port : Nat) (e : EngPort) : (l.setEngPort code port e).solv = l.solv := rfl

/-- The jobs after a reset. -/
theorem Leaf.jobs_solvReset (h : l.bit Fld.SOLV_STAT_RST_BUSY = false) :
    l.solvReset.solv.jobs = (l.solvJobs.foldl Leaf.stopJob l).solv.jobs := by
  unfold Leaf.solvReset
  rw [if_neg (by simp [h])]
  dsimp only
  rw [Leaf.solv_showGraph, Leaf.solv_putB, Leaf.solv_putB, Leaf.solv_putB,
    Leaf.foldl_congr Leaf.solv _ _ _ fun p _ k => k.solv_setEngPort ..]
  have hgraph (m : Leaf) (b : Bool) : (if b then m.setSolv { m.solv with graph := none, held := true } else m).solv.jobs = m.solv.jobs :=
    Leaf.ite_keeps (fun k => k.solv.jobs) _ rfl
  have hasg (m : Leaf) (b : Bool) : (if b then (m.engineSend 9 8 [poisonEnd false]).setSolv
      { (m.engineSend 9 8 [poisonEnd false]).solv with asg := 2 } else m).solv.jobs = m.solv.jobs := by
    refine Leaf.ite_keeps (fun k => k.solv.jobs) _ ?_
    dsimp only
    rw [Leaf.solv_setSolv, Leaf.solv_engineSend]
  exact (hasg _ _).trans (hgraph _ _)

theorem Leaf.bit_showGraph (l : Leaf) {f : FieldRef} (ha : f.addr = Reg.SOLV_STAT) (hlo : 29 < f.lo) (hhi : f.hi < 32) :
    l.showGraph.bit f = l.bit f := by
  unfold Leaf.showGraph
  rw [Leaf.bit_putB_disjoint _ Fld.SOLV_STAT_GRAPH_HELD f _ ha.symm (by decide) hhi (.inl (by dsimp only; omega)),
    Leaf.bit_putB_disjoint _ Fld.SOLV_STAT_GRAPH_RUN f _ ha.symm (by decide) hhi (.inl hlo)]

/-- A reset that starts is shown, and frees the lanes. -/
theorem Leaf.shown_solvReset (h : l.bit Fld.SOLV_STAT_RST_BUSY = false) :
    l.solvReset.bit Fld.SOLV_STAT_RST_BUSY = true ∧ l.solvReset.bit Fld.SOLV_STAT_BUSY = false := by
  unfold Leaf.solvReset
  rw [if_neg (by simp [h])]
  dsimp only
  rw [Leaf.bit_showGraph _ rfl (by decide) (by decide), Leaf.bit_showGraph _ rfl (by decide) (by decide),
    Leaf.bit_putB_same _ _ _ (by decide) (by decide),
    Leaf.bit_putB_disjoint _ Fld.SOLV_STAT_RST_BUSY Fld.SOLV_STAT_BUSY _ rfl (by decide) (by decide) (by decide),
    Leaf.bit_putB_other _ Fld.SOLV_ASG_STAT_BUSY Fld.SOLV_STAT_BUSY _ (by decide), Leaf.bit_putB_same _ _ _ (by decide) (by decide)]
  exact ⟨rfl, rfl⟩

/-! ## The commands -/

theorem exec_solverJobStart (h : s.ready i = true) (j : Nat) :
    exec (.solverJobStart i j) s = .next (s.setLeaf i ((s.leaf i).solvStart j)).settle := congrArg State.done (State.eventNow_of_ready h _)

theorem exec_solverJobComplete (h : s.ready i = true) (j : Nat) (ue : Bool) :
    exec (.solverJobComplete i j ue) s = .next (s.setLeaf i ((s.leaf i).solvComplete j ue)).settle :=
  congrArg State.done (State.eventNow_of_ready h _)

theorem exec_assignStart (h : s.ready i = true) : exec (.assignStart i) s = .next (s.setLeaf i (s.leaf i).asgStart).settle :=
  congrArg State.done (State.eventNow_of_ready h _)

theorem exec_assignComplete (h : s.ready i = true) : exec (.assignComplete i) s = .next (s.setLeaf i (s.leaf i).asgComplete).settle :=
  congrArg State.done (State.eventNow_of_ready h _)

theorem exec_solverResetDone (h : s.ready i = true) : exec (.solverResetDone i) s = .next (s.setLeaf i (s.leaf i).solvResetDone).settle :=
  congrArg State.done (State.eventNow_of_ready h _)

theorem Leaf.writeReg_solvCtrl (l : Leaf) (w : Nat) : l.writeReg Reg.SOLV_CTRL w = l.writeSolvCtrl w := rfl

/-- GRAPH_REQ without RESET. -/
theorem exec_graphReq (h : s.ready i = true) {w : Word} (hw : bitOf w.toNat 31 = false) :
    exec (.graphReq i w) s = .next (s.setLeaf i (s.leaf i).graphReq).settle := by
  have hreset : bitOf (wordWith w Fld.SOLV_CTRL_GRAPH_REQ 1) 31 = false := (bitOf_setBits_other _ _ (by decide)).trans hw
  have hreq : bitOf (wordWith w Fld.SOLV_CTRL_GRAPH_REQ 1) 30 = true := bitOf_setBits_same ..
  refine congrArg State.done ?_
  unfold State.fieldWrite
  rw [State.regWrite_above_tick h _ rfl (by decide), Leaf.writeReg_solvCtrl]
  unfold Leaf.writeSolvCtrl
  dsimp only
  rw [if_pos hreq, if_neg (by simp [hreset])]

/-- RESET without GRAPH_REQ. -/
theorem exec_solverReset (h : s.ready i = true) {w : Word} (hw : bitOf w.toNat 30 = false) :
    exec (.solverReset i w) s = .next (s.setLeaf i (s.leaf i).solvReset).settle := by
  have hreset : bitOf (wordWith w Fld.SOLV_CTRL_RESET 1) 31 = true := bitOf_setBits_same ..
  have hreq : bitOf (wordWith w Fld.SOLV_CTRL_RESET 1) 30 = false := (bitOf_setBits_other _ _ (by decide)).trans hw
  refine congrArg State.done ?_
  unfold State.fieldWrite
  rw [State.regWrite_above_tick h _ rfl (by decide), Leaf.writeReg_solvCtrl]
  unfold Leaf.writeSolvCtrl
  dsimp only
  rw [if_neg (by simp [hreq]), if_pos hreset]

theorem Leaf.Kept.sjob (h : l.Kept m) (j : Nat) : m.sjob j = l.sjob j := Leaf.sjob_congr (congrArg SolvState.jobs h.solv) j

theorem answersWith_solverJobStart (hr : s.ready i = true) (hj : j < 8) (hf : (s.leaf i).solvJobs.find? (fun e => e.job == j) = some d)
    (ht : (s.leaf i).ticking = true) (hready : (s.leaf i).solvReady d = true) (hb : (s.leaf i).bit Fld.SOLV_STAT_RST_BUSY = false)
    (hfirst : ((s.leaf i).solvJobs.all fun e => !((s.leaf i).solvReady e) || decide (d.rank ≤ e.rank)) = true)
    (hidle : (s.leaf i).solvRunning = none) : AnswersWith (.solverJobStart i j) s fun t =>
      ((t.leaf i).sjob j).st = .running ∧ (t.leaf i).bit Fld.SOLV_STAT_BUSY = true ∧ (t.leaf i).get Fld.SOLV_STAT_JOB = j := by
  have hjob := job_of_find hf
  subst hjob
  have e := exec_solverJobStart hr d.job
  rw [Leaf.solvStart_of_first hf ht hready hb hfirst hidle] at e
  refine answersWith_of_setLeaf e fun t kept _ => ?_
  obtain ⟨hbusy, hshown⟩ := (s.leaf i).shown_solvRun hj
  rw [kept.sjob]
  exact ⟨Leaf.st_solvRun _, (kept.bit_of_between (by decide)).trans hbusy, (Leaf.get_congr (kept.rd_of_between (by decide))).trans hshown⟩

theorem answersWith_solverJobComplete (hr : s.ready i = true) (hj : j < 8) (hf : (s.leaf i).solvJobs.find? (fun e => e.job == j) = some d)
    (hst : ((s.leaf i).sjob j).st = .running) (hk : d.kind = 1 ∨ d.kind = 2 ∨ d.kind = 3) (ue : Bool) :
    AnswersWith (.solverJobComplete i j ue) s fun t => (((t.leaf i).sjob j).st = .done ∧ ((t.leaf i).sjob j).res.isSome = true
      ∧ (t.leaf i).bit Fld.SOLV_STAT_BUSY = false ∧ (t.leaf i).bit (Fld.SOLV_JOB_STAT_DONE j) = true)
      ∧ (d.kind = 1 → ((t.leaf i).sjob j).res = some ((s.leaf i).solveEgo d ue).1) := by
  have hjob := job_of_find hf
  subst hjob
  obtain ⟨r, m, hm, hego⟩ := Leaf.solvComplete_of_running hf hst hk ue
  have e := exec_solverJobComplete hr d.job ue
  rw [hm] at e
  refine answersWith_of_setLeaf e fun t kept _ => ?_
  obtain ⟨hdone, hres⟩ := m.sjob_solvFinish r
  obtain ⟨hbusy, hshown⟩ := m.shown_solvFinish (d := d) r
  rw [kept.sjob, hdone, hres]
  exact ⟨⟨rfl, rfl, (kept.bit_of_between (by decide)).trans hbusy, (kept.bit_of_between (jobStat_between hj)).trans hshown⟩,
    fun h => congrArg some (hego h)⟩

/-- Settles O46: each command by what its operation makes of the jobs and of the registers that show them. -/
theorem solverCommands : Obligations.SolverCommands := by
  intro s i hr
  refine ⟨fun j d hj hf => ⟨fun ht hready hb hfirst hidle => answersWith_solverJobStart hr hj hf ht hready hb hfirst hidle,
      fun hready => answers_self_of_setLeaf (exec_solverJobStart hr j) (Leaf.solvStart_of_not_ready hf hready),
      fun hst hk ue => (answersWith_solverJobComplete hr hj hf hst hk ue).imp fun _ h => h.1,
      fun hst hk ue => (answersWith_solverJobComplete hr hj hf hst (.inl hk) ue).imp fun _ h => h.2 hk⟩,
    fun w hw => answers_of_exec (exec_graphReq hr hw), fun d ha hj => ⟨fun ht he hidle hb => ?_, fun hrun => ?_⟩,
    fun w hw => ⟨fun hb => answers_self_of_setLeaf (exec_solverReset hr hw) (if_pos hb), fun hb => ?_⟩,
    answers_of_exec (exec_solverResetDone hr)⟩
  · have e := exec_assignStart hr
    rw [Leaf.asgStart_of_ended ha ht he hidle hb] at e
    exact answers_of_exec e
  · refine answersWith_of_setLeaf (exec_assignComplete hr) fun t kept _ => ?_
    obtain ⟨hasg, hst, hbusy, hshown⟩ := (Leaf.asgDone_asgComplete ha hj hrun).congr kept.solv (kept.bit_of_between (by decide))
      (kept.rd_of_between (jobStat_between hj))
    exact ⟨hasg, hst, hbusy, hshown⟩
  · refine answersWith_of_setLeaf (exec_solverReset hr hw) fun t kept _ => ?_
    obtain ⟨hrst, hbusy⟩ := Leaf.shown_solvReset hb
    refine ⟨(kept.bit_of_between (by decide)).trans hrst, (kept.bit_of_between (by decide)).trans hbusy, fun d hd hst => ?_⟩
    rw [kept.sjob, Leaf.sjob_congr (Leaf.jobs_solvReset hb)]
    exact Leaf.st_foldl_stopJob hd hst

end Sys2Proof.Machine
end

section
/-!
PROOFS. The committed random counters and the lifetime record (R431, R539): what LEAF_RNG_CIDX and an hourly record make of a leaf, and the
statement about the three commands.
-/
namespace Sys2Proof.Machine

variable {s : State} {i : LeafId} {l m : Leaf} {a w x : Nat}

/-! ## Writes that reach a block below the tick controller's -/

/-- A write of any register that is no doorbell and not TICK_CTRL, of a leaf that runs. -/
theorem State.regWrite_of_no_doorbell (h : s.ready i = true) (w : Nat) (h4 : a % 4 = 0) (ha : a < 0x4000000)
    (hd : noDoorbell a = true) (htick : a ≠ Reg.TICK_CTRL) : s.regWrite i a w = s.setLeaf i ((s.leaf i).writeReg a w) := by
  obtain ⟨hsq, hcq⟩ := (noDoorbell_iff a).mp hd
  have hopen := State.opens_of_ready a h
  unfold State.regWrite State.pf0Write
  rw [if_neg (not_not.mpr (leafBase_add_mod i h4)), leafOf_leafBase i ha]
  simp only [State.leafWrite, hopen, hsq, hcq, htick, Bool.not_true, Bool.false_eq_true, if_false]
  rfl

/-! ## LEAF_RNG_CIDX -/

/-- STAGE is the field of LEAF_RNG_CIDX that is kept. -/
theorem Leaf.swWrite_rngIdx (l : Leaf) (w : Nat) :
    l.swWrite Reg.LEAF_RNG_CIDX w = l.wr Reg.LEAF_RNG_CIDX (setBits (l.rd Reg.LEAF_RNG_CIDX) 15 0 (bitsOf w 15 0)) := rfl

theorem Leaf.stage_swWrite_rngIdx (l : Leaf) (w : Nat) : (l.swWrite Reg.LEAF_RNG_CIDX w).get Fld.LEAF_RNG_CIDX_STAGE = bitsOf w 15 0 := by
  unfold Leaf.get
  rw [Leaf.swWrite_rngIdx, Leaf.rd_wr_same, bitsOf_mod _ _ _ (by decide), bitsOf_setBits_same _ _ _ _ (by decide)]
  exact Nat.mod_eq_of_lt (bitsOf_lt w 15 0)

theorem Leaf.fab_swWrite (l : Leaf) (a w : Nat) : (l.swWrite a w).fab = l.fab := by unfold Leaf.swWrite; split <;> rfl

theorem Leaf.rngCtr_congr (h : m.fab = l.fab) (id : Nat) : m.rngCtr id = l.rngCtr id := by unfold Leaf.rngCtr; rw [h]

theorem bitsOf_wordWith_low (w : Word) (n v : Nat) (h : 16 ≤ n) : bitsOf (setBits w.toNat n n v) 15 0 = bitsOf w.toNat 15 0 :=
  bitsOf_setBits_disjoint _ _ _ _ _ _ le_rfl (.inr (by omega))

theorem Leaf.writeReg_rngIdx (l : Leaf) (w : Nat) : l.writeReg Reg.LEAF_RNG_CIDX w = l.writeRngIdx w := rfl

theorem exec_clutchRead (h : s.ready i = true) {w : Word} (hw : bitOf w.toNat 30 = false) : exec (.clutchRead i w) s =
    .next (s.setLeaf i ((s.leaf i).swWrite Reg.LEAF_RNG_CIDX (wordWith w Fld.LEAF_RNG_CIDX_GO_RD 1)).rngRead).settle := by
  have hrd : bitOf (wordWith w Fld.LEAF_RNG_CIDX_GO_RD 1) 31 = true := bitOf_setBits_same ..
  have hwr : bitOf (wordWith w Fld.LEAF_RNG_CIDX_GO_RD 1) 30 = false := (bitOf_setBits_other _ _ (by decide)).trans hw
  refine congrArg State.done ?_
  unfold State.fieldWrite
  rw [State.regWrite_of_no_doorbell h _ rfl (by decide) (by decide) (by decide), Leaf.writeReg_rngIdx]
  unfold Leaf.writeRngIdx
  dsimp only
  rw [if_neg (by simp [hwr]), if_pos hrd]

theorem exec_clutchWrite (h : s.ready i = true) {w : Word} (hw : bitOf w.toNat 31 = false) : exec (.clutchWrite i w) s =
    .next (s.setLeaf i ((s.leaf i).swWrite Reg.LEAF_RNG_CIDX (wordWith w Fld.LEAF_RNG_CIDX_GO_WR 1)).rngWrite).settle := by
  have hrd : bitOf (wordWith w Fld.LEAF_RNG_CIDX_GO_WR 1) 31 = false := (bitOf_setBits_other _ _ (by decide)).trans hw
  have hwr : bitOf (wordWith w Fld.LEAF_RNG_CIDX_GO_WR 1) 30 = true := bitOf_setBits_same ..
  refine congrArg State.done ?_
  unfold State.fieldWrite
  rw [State.regWrite_of_no_doorbell h _ rfl (by decide) (by decide) (by decide), Leaf.writeReg_rngIdx]
  unfold Leaf.writeRngIdx
  dsimp only
  rw [if_pos hwr, if_neg (by simp [hrd])]

theorem Leaf.fab_wr64 (l : Leaf) (lo hi v : Nat) : (l.wr64 lo hi v).fab = l.fab := rfl

theorem Leaf.rd_wr64_lo (l : Leaf) {lo hi : Nat} (v : Nat) (h : hi ≠ lo) : (l.wr64 lo hi v).rd lo = v % 2 ^ 32 := by
  unfold Leaf.wr64
  rw [Leaf.rd_wr_other _ _ h, Leaf.rd_wr_same]

theorem Leaf.rd_wr64_hi (l : Leaf) (lo hi v : Nat) : (l.wr64 lo hi v).rd hi = v / 2 ^ 32 % 2 ^ 32 := Leaf.rd_wr_same ..

theorem Leaf.rngWrite_of_idle (h : l.ticking = false) : (l.rngWrite).rngCtr (l.get Fld.LEAF_RNG_CIDX_STAGE)
    = l.rd64 Reg.LEAF_RNG_CVAL_LO Reg.LEAF_RNG_CVAL_HI := by
  unfold Leaf.rngWrite
  rw [if_neg (by simp [h])]
  exact congrArg (fun o : Option Nat => o.getD 0) (alGet_alSet_same ..)

theorem Leaf.rngWrite_of_ticking (h : l.ticking = true) : l.rngWrite = l.detRefused := if_pos h

theorem Leaf.fab_put (l : Leaf) (f : FieldRef) (v : Nat) : (l.put f v).fab = l.fab := rfl

theorem Leaf.IrqOnly.fab (h : l.IrqOnly m) : m.fab = l.fab := by rw [h.eq]

theorem Leaf.fab_detRefused (l : Leaf) : l.detRefused.fab = l.fab :=
  (l.irq_flagEvent Fld.LEAF_DET_STAT_CFG_REFUSED (by decide)).fab.trans (Leaf.fab_put ..)

theorem Leaf.refused_detRefused (l : Leaf) : l.detRefused.bit Fld.LEAF_DET_STAT_CFG_REFUSED = true :=
  Leaf.bit_flagEvent_same _ (by decide) (by decide) (by decide) (by decide)

theorem Leaf.ticking_swWrite_rngIdx (l : Leaf) (w : Nat) : (l.swWrite Reg.LEAF_RNG_CIDX w).ticking = l.ticking :=
  congrArg (· == 4) (Leaf.get_congr (f := Fld.LEAF_STATUS_STATE) (Leaf.rd_swWrite_other _ _ (by decide)))

/-- No register of the determinism settings settles. -/
theorem Leaf.Kept.rd_rng (h : m.Kept l) (ha : 0x400 ≤ a ∧ a < 0x500) : l.rd a = m.rd a := by
  refine h.rd a fun x => ?_
  rw [settles_def, if_neg (by omega), if_neg (by omega), if_neg (by omega), if_neg (by omega), if_neg (by omega)]
  simp only [Bool.or_eq_false_iff, Bool.and_eq_false_iff, beq_eq_false_iff_ne, decide_eq_false_iff_not]
  omega

/-! ## The lifetime record -/

theorem Leaf.aon_flagEvent (l : Leaf) (f : FieldRef) (hx : x < 512) : (l.flagEvent f x).aon = l.aon := by rw [(l.irq_flagEvent f hx).eq]; rfl

theorem Leaf.rd_orReg_other (l : Leaf) (m : Nat) {a b : Nat} (h : a ≠ b) : (l.orReg a m).rd b = l.rd b := Leaf.rd_wr_other _ _ h

/-- What no counter's limit changes is as it was after the check of all of them. -/
theorem Leaf.checkLife_congr {β : Type} (g : Leaf → β)
    (h : ∀ k n, g ((k.orReg Reg.FLT_LIFE_OVER (2 ^ n)).flagEvent Fld.FLT_STAT_LIFE_EV 0x01C) = g k) (l : Leaf) : g l.checkLife = g l := by
  refine Leaf.foldl_congr g _ _ _ fun n _ k => ?_
  split
  · exact h k n
  · rfl

theorem Leaf.aon_checkLife (l : Leaf) : l.checkLife.aon = l.aon :=
  Leaf.checkLife_congr (·.aon) (fun _ _ => Leaf.aon_flagEvent _ _ (by decide)) l

/-- A leaf runs by its boot state, its first IDLE and PWR_SLEEP_STAT. -/
theorem Leaf.runs_congr (hb : m.boot = l.boot) (hf : m.flt.firstIdle = l.flt.firstIdle)
    (hr : m.rd Reg.PWR_SLEEP_STAT = l.rd Reg.PWR_SLEEP_STAT) : m.runs = l.runs := by
  unfold Leaf.runs Leaf.booted Leaf.sleep Leaf.get
  rw [hb, hf, hr]

theorem Leaf.runs_checkLife (l : Leaf) : l.checkLife.runs = l.runs := by
  refine Leaf.checkLife_congr Leaf.runs (fun k n => ?_) l
  have hirq := (k.orReg Reg.FLT_LIFE_OVER (2 ^ n)).irq_flagEvent Fld.FLT_STAT_LIFE_EV (x := 0x01C) (by decide)
  exact Leaf.runs_congr (by rw [hirq.eq]; rfl) (congrArg (·.firstIdle) hirq.flt)
    ((Leaf.rd_flagEvent_other _ (by decide) (by decide) (by decide)).trans (Leaf.rd_orReg_other _ _ (by decide)))

theorem Leaf.runs_lifeTime (l : Leaf) : l.lifeTime.runs = l.runs := by
  unfold Leaf.lifeTime
  rw [Leaf.runs_checkLife]
  split <;> rfl

theorem Leaf.lifeSeq_lifeTime (l : Leaf) : l.lifeTime.aon.lifeSeq = l.aon.lifeSeq := by
  unfold Leaf.lifeTime
  rw [Leaf.aon_checkLife]
  split <;> rfl

theorem Leaf.lifeChan_lifeTime (l : Leaf) : l.lifeTime.aon.lifeChan = l.aon.lifeChan := by
  unfold Leaf.lifeTime
  rw [Leaf.aon_checkLife]
  split <;> rfl

theorem Leaf.lifeChan_flashWrite (l : Leaf) (a : Nat) (bs : List Byte) : (l.flashWrite a bs).aon.lifeChan = l.aon.lifeChan := rfl

theorem Leaf.lifeSeq_writeLife (l : Leaf) : l.writeLife.aon.lifeSeq = l.aon.lifeSeq + 1 := by
  unfold Leaf.writeLife
  dsimp only
  rw [Leaf.aon_checkLife]
  dsimp only
  rw [Leaf.lifeSeq_lifeTime]

theorem Leaf.lifeChan_writeLife (l : Leaf) : l.writeLife.aon.lifeChan = 1 - l.aon.lifeChan := by
  unfold Leaf.writeLife
  dsimp only
  rw [Leaf.aon_checkLife]
  dsimp only
  rw [Leaf.lifeChan_flashWrite, Leaf.lifeChan_lifeTime]

/-- A leaf in S0 that has booted writes its record. -/
theorem Leaf.hourlyLife_of_runs (h : l.runs = true) : l.hourlyLife = l.writeLife := by
  unfold Leaf.runs Leaf.booted at h
  simp only [Bool.and_eq_true, beq_iff_eq] at h
  obtain ⟨⟨hheld, hidle⟩, hsleep⟩ := h
  refine if_pos ?_
  unfold Leaf.monitors
  simp [hheld, hidle, hsleep]

theorem exec_lifetimeRecordWrite (h : s.ready i = true) (c : Nat) : exec (.lifetimeRecordWrite i c) s =
    .next (s.setLeaf i ((s.leaf i).adv c).lifeTime.writeLife).settle := by
  have hrun : ((s.leaf i).adv c).lifeTime.runs = true := (Leaf.runs_lifeTime _).trans ((Leaf.runs_adv c).trans (Leaf.runs_of_ready h))
  rw [← Leaf.hourlyLife_of_runs hrun]
  exact congrArg State.done (State.event_of_ready h c)

/-- Settles O34: the stage is the field that the write names, and a leaf that runs writes its record. -/
theorem countersAndLifetime : Obligations.CountersAndLifetime := by
  intro s i w hr
  refine ⟨fun hw => answersWith_of_setLeaf (exec_clutchRead hr hw) fun t kept _ => ?_,
    fun hw htick => answersWith_of_setLeaf (exec_clutchWrite hr hw) fun t kept _ => ?_,
    fun hw htick => answersWith_of_setLeaf (exec_clutchWrite hr hw) fun t kept _ => ?_,
    fun c => answersWith_of_setLeaf (exec_lifetimeRecordWrite hr c) fun t kept _ => ?_⟩
  · have hctr := ((s.leaf i).stage_swWrite_rngIdx (wordWith w Fld.LEAF_RNG_CIDX_GO_RD 1)).trans (bitsOf_wordWith_low w 31 1 (by decide))
    have hfab := (s.leaf i).fab_swWrite Reg.LEAF_RNG_CIDX (wordWith w Fld.LEAF_RNG_CIDX_GO_RD 1)
    rw [kept.rd_rng (by decide), kept.rd_rng (by decide), kept.fab]
    unfold Leaf.rngRead
    rw [hctr, Leaf.rngCtr_congr hfab, Leaf.rd_wr64_lo _ _ (by decide), Leaf.rd_wr64_hi, Leaf.fab_wr64, hfab]
    exact ⟨rfl, rfl, rfl⟩
  · have hctr := ((s.leaf i).stage_swWrite_rngIdx (wordWith w Fld.LEAF_RNG_CIDX_GO_WR 1)).trans (bitsOf_wordWith_low w 30 1 (by decide))
    rw [Leaf.rngCtr_congr kept.fab, ← hctr, Leaf.rngWrite_of_idle ((Leaf.ticking_swWrite_rngIdx ..).trans htick),
      Leaf.rd64_swWrite _ _ (by decide) (by decide)]
  · have hrefused := Leaf.rngWrite_of_ticking (((s.leaf i).ticking_swWrite_rngIdx (wordWith w Fld.LEAF_RNG_CIDX_GO_WR 1)).trans htick)
    rw [hrefused] at kept
    refine ⟨kept.fab.trans ((Leaf.fab_detRefused _).trans (Leaf.fab_swWrite ..)), ?_⟩
    exact (Leaf.bit_congr (kept.rd_rng (by decide))).trans (Leaf.refused_detRefused _)
  · rw [kept.aon]
    have haon : ((s.leaf i).adv c).aon = (s.leaf i).aon := Leaf.adv_congr Leaf.aon c fun _ => rfl
    rw [Leaf.lifeSeq_writeLife, Leaf.lifeChan_writeLife, Leaf.lifeSeq_lifeTime, Leaf.lifeChan_lifeTime, haon]
    exact ⟨rfl, rfl⟩

end Sys2Proof.Machine
end

section
/-!
PROOFS. The operating point and its evaluations (R444, R445, R450, R453): what the throttle reasons and an evaluation leave as it was, the
bounds that an evaluation keeps, and the statement about the four events.
-/
namespace Sys2Proof.Machine

variable {s : State} {i : LeafId} {l m n : Leaf} {a x : Nat}

/-! ## The throttle reasons -/

/-- m is l but for PWR_STAT's other fields than STRETCH, the throttle reasons' events and times, and the interrupts. -/
structure Leaf.ReasonsOnly (l m : Leaf) : Prop where
  regs : ∀ a, a ≠ Reg.PWR_STAT → a ≠ Reg.PWR_THR_EV → a / 2 ^ 20 ≠ 4 → m.rd a = l.rd a
  stretch : m.get Fld.PWR_STAT_STRETCH = l.get Fld.PWR_STAT_STRETCH
  pwr : m.pwr = { l.pwr with thr := m.pwr.thr }
  free : m.free = l.free

theorem Leaf.ReasonsOnly.refl (l : Leaf) : l.ReasonsOnly l := ⟨fun _ _ _ _ => rfl, rfl, rfl, rfl⟩

theorem Leaf.ReasonsOnly.trans (h1 : l.ReasonsOnly m) (h2 : m.ReasonsOnly n) : l.ReasonsOnly n where
  regs a hs he h4 := (h2.regs a hs he h4).trans (h1.regs a hs he h4)
  stretch := h2.stretch.trans h1.stretch
  pwr := by have h := h2.pwr; rw [h1.pwr] at h; exact h
  free := h2.free.trans h1.free

theorem Leaf.IrqOnly.pwr (h : l.IrqOnly m) : m.pwr = l.pwr := by rw [h.eq]

theorem Leaf.IrqOnly.free (h : l.IrqOnly m) : m.free = l.free := by rw [h.eq]

theorem Leaf.IrqOnly.reasonsOnly (h : l.IrqOnly m) : l.ReasonsOnly m where
  regs a _ _ h4 := h.regs a h4
  stretch := h.get _ (by decide)
  pwr := by rw [h.pwr]
  free := h.free

/-- The active times replaced. -/
theorem Leaf.reasonsOnly_thr (l : Leaf) (t : List ThrTime) : l.ReasonsOnly (l.setPwr { l.pwr with thr := t }) :=
  ⟨fun _ _ _ _ => rfl, rfl, rfl, rfl⟩

theorem Leaf.reasonsOnly_thrEv (l : Leaf) (x : Nat) : l.ReasonsOnly (l.orReg Reg.PWR_THR_EV x) where
  regs _ _ he _ := Leaf.rd_orReg_other _ _ he.symm
  stretch := Leaf.get_congr (Leaf.rd_orReg_other _ _ (by decide))
  pwr := rfl
  free := rfl

/-- A field of PWR_STAT beside STRETCH. -/
theorem Leaf.reasonsOnly_put (l : Leaf) (f : FieldRef) (v : Nat) (ha : f.addr = Reg.PWR_STAT) (hle : f.lo ≤ f.hi)
    (hd : f.hi < 12 ∨ 14 < f.lo) : l.ReasonsOnly (l.put f v) where
  regs a hs _ _ := Leaf.rd_put_other _ _ _ (by rw [ha]; exact hs.symm)
  stretch := Leaf.get_put_disjoint _ _ _ _ ha hle (by decide) hd
  pwr := rfl
  free := rfl

theorem Leaf.reasonsOnly_foldl {α : Type} (f : Leaf → α → Leaf) (xs : List α) (l : Leaf)
    (h : ∀ x ∈ xs, ∀ k : Leaf, k.ReasonsOnly (f k x)) : l.ReasonsOnly (xs.foldl f l) := by
  induction xs generalizing l with
  | nil => exact Leaf.ReasonsOnly.refl l
  | cons x t ih => exact (h x (by simp) l).trans (ih (f l x) fun y hy => h y (by simp [hy]))

theorem Leaf.reasonsOnly_reasonEdge (old new : Nat) {r : Nat} (hr : r < 7) (l : Leaf) : l.ReasonsOnly (l.reasonEdge old new r) := by
  unfold Leaf.reasonEdge
  dsimp only
  split
  · exact ((Leaf.reasonsOnly_thr ..).trans (Leaf.reasonsOnly_thrEv ..)).trans (Leaf.irq_raise _ _ (by omega)).reasonsOnly
  · split
    · exact Leaf.reasonsOnly_thr ..
    · exact Leaf.ReasonsOnly.refl l

theorem Leaf.reasonsOnly_setReasons (avg cap : Bool) (l : Leaf) : l.ReasonsOnly (l.setReasons avg cap) := by
  unfold Leaf.setReasons
  dsimp only
  refine Leaf.ReasonsOnly.trans ?_
    (Leaf.reasonsOnly_foldl _ _ _ fun r hr k => Leaf.reasonsOnly_reasonEdge _ _ (List.mem_range.mp hr) k)
  refine Leaf.ReasonsOnly.trans ?_ (Leaf.reasonsOnly_put _ _ _ rfl (by decide) (by decide))
  refine Leaf.ReasonsOnly.trans ?_ (Leaf.reasonsOnly_put _ _ _ rfl (by decide) (by decide))
  exact Leaf.reasonsOnly_put _ _ _ rfl (by decide) (by decide)

theorem Leaf.reasonsOnly_refreshPwr (l : Leaf) : l.ReasonsOnly l.refreshPwr := Leaf.reasonsOnly_setReasons ..

/-! ## A step of the operating point -/

/-- The point that an evaluation aims at (R444). -/
def Leaf.opTarget (l : Leaf) : Nat :=
  min (min (l.get Fld.PWR_OP_REQ) (l.get Fld.PWR_OP_CEIL_HOST)) (min l.pwr.ceilAvg (min l.pwr.ceilTj l.pwr.ceilCool))

/-- EFF given, and STRETCH no more than it allows. -/
def Leaf.setEff (n : Nat) (l : Leaf) : Leaf :=
  (l.put Fld.PWR_OP_EFF n).put Fld.PWR_STAT_STRETCH (min ((l.put Fld.PWR_OP_EFF n).get Fld.PWR_STAT_STRETCH) (stretchMax n))

/-- The request of a rail replaced. -/
def Leaf.setWant (w : Option (Nat × Nat)) (b : Bool) (l : Leaf) : Leaf := l.setPwr { l.pwr with want := w, settled := b }

theorem Leaf.put_setWant (w : Option (Nat × Nat)) (b : Bool) (l : Leaf) (f : FieldRef) (v : Nat) :
    (l.setWant w b).put f v = (l.put f v).setWant w b := rfl

theorem Leaf.get_setWant (w : Option (Nat × Nat)) (b : Bool) (l : Leaf) (f : FieldRef) : (l.setWant w b).get f = l.get f := rfl

theorem Leaf.setEff_setWant (w : Option (Nat × Nat)) (b : Bool) (n : Nat) (l : Leaf) : (l.setWant w b).setEff n = (l.setEff n).setWant w b := by
  unfold Leaf.setEff
  simp only [Leaf.put_setWant, Leaf.get_setWant]

theorem Leaf.setWant_self (l : Leaf) : l.setWant l.pwr.want l.pwr.settled = l := rfl

/-- A step gives EFF a point not above the target, or leaves one that is not above it; beside that it replaces the request of a rail. -/
theorem Leaf.stepOp_cases (l : Leaf) : ∃ w b, (∃ n ≤ l.opTarget, l.stepOp = (l.setWant w b).setEff n)
    ∨ (l.get Fld.PWR_OP_EFF ≤ l.opTarget ∧ l.stepOp = l.setWant w b) := by
  have hstep : l.stepOp = if l.opTarget ≤ l.get Fld.PWR_OP_EFF then (l.setWant none false).setEff l.opTarget else
      match l.pwr.want with
      | none => l.setWant (some (l.opTarget, l.count)) false
      | some (w, _) => if l.pwr.settled then
          (l.setEff (min w l.opTarget)).setWant (if w < l.opTarget then some (l.opTarget, l.count) else none) false else l := rfl
  rw [hstep]
  split
  · exact ⟨_, _, .inl ⟨_, le_rfl, rfl⟩⟩
  · next h =>
    have heff : l.get Fld.PWR_OP_EFF ≤ l.opTarget := (not_le.mp h).le
    split
    · exact ⟨_, _, .inr ⟨heff, rfl⟩⟩
    · split
      · exact ⟨_, _, .inl ⟨_, min_le_right .., (Leaf.setEff_setWant ..).symm⟩⟩
      · exact ⟨_, _, .inr ⟨heff, l.setWant_self.symm⟩⟩

theorem Leaf.eff_setEff (n : Nat) (l : Leaf) : (l.setEff n).get Fld.PWR_OP_EFF = n % 2 ^ 3 := by
  unfold Leaf.setEff
  rw [Leaf.get_congr (f := Fld.PWR_OP_EFF) (Leaf.rd_put_other _ _ _ (by decide)), Leaf.get_put_same _ _ _ (by decide) (by decide)]
  rfl

/-- A field of PWR_OP beside EFF. -/
theorem Leaf.get_setEff (n : Nat) (l : Leaf) (f : FieldRef) (ha : f.addr = Reg.PWR_OP) (h32 : f.hi < 32) (hd : 10 < f.lo ∨ f.hi < 8) :
    (l.setEff n).get f = l.get f := by
  unfold Leaf.setEff
  rw [Leaf.get_congr (Leaf.rd_put_other _ _ _ (by rw [ha]; decide)), Leaf.get_put_disjoint _ Fld.PWR_OP_EFF f _ ha.symm (by decide) h32 hd]

theorem Leaf.rd_setEff (n : Nat) (l : Leaf) (ho : a ≠ Reg.PWR_OP) (hs : a ≠ Reg.PWR_STAT) : (l.setEff n).rd a = l.rd a := by
  unfold Leaf.setEff
  rw [Leaf.rd_put_other _ _ _ hs.symm, Leaf.rd_put_other _ _ _ ho.symm]

/-! ## What an evaluation keeps -/

/-- m is l but for the operating point's registers and the energy window's, the ceilings and requests, the throttle reasons, the panes'
clocks and the interrupts; REQ and the host's ceiling stay. -/
structure Leaf.EvalOnly (l m : Leaf) : Prop where
  regs : ∀ a, a ∉ [Reg.PWR_OP, Reg.PWR_STAT, Reg.PWR_THR_EV, Reg.PWR_EWIN_LO, Reg.PWR_EWIN_HI] → a / 2 ^ 20 ≠ 4 → a < 0x1000000 →
    m.rd a = l.rd a
  req : m.get Fld.PWR_OP_REQ = l.get Fld.PWR_OP_REQ
  ceil : m.get Fld.PWR_OP_CEIL_HOST = l.get Fld.PWR_OP_CEIL_HOST
  waking : m.pwr.waking = l.pwr.waking

theorem Leaf.EvalOnly.trans (h1 : l.EvalOnly m) (h2 : m.EvalOnly n) : l.EvalOnly n where
  regs a ha h4 hp := (h2.regs a ha h4 hp).trans (h1.regs a ha h4 hp)
  req := h2.req.trans h1.req
  ceil := h2.ceil.trans h1.ceil
  waking := h2.waking.trans h1.waking

theorem Leaf.ReasonsOnly.evalOnly (h : l.ReasonsOnly m) : l.EvalOnly m where
  regs a ha h4 _ := h.regs a (fun e => ha (by simp [e])) (fun e => ha (by simp [e])) h4
  req := Leaf.get_congr (h.regs _ (by decide) (by decide) (by decide))
  ceil := Leaf.get_congr (h.regs _ (by decide) (by decide) (by decide))
  waking := by rw [h.pwr]

/-- A power state with the same wake put in. -/
theorem Leaf.evalOnly_setPwr (l : Leaf) {p : PwrState} (h : p.waking = l.pwr.waking) : l.EvalOnly (l.setPwr p) :=
  ⟨fun _ _ _ _ => rfl, rfl, rfl, h⟩

theorem Leaf.evalOnly_setWant (w : Option (Nat × Nat)) (b : Bool) (l : Leaf) : l.EvalOnly (l.setWant w b) := l.evalOnly_setPwr rfl

theorem Leaf.evalOnly_setEff (n : Nat) (l : Leaf) : l.EvalOnly (l.setEff n) where
  regs a ha _ _ := Leaf.rd_setEff _ _ (fun e => ha (by simp [e])) (fun e => ha (by simp [e]))
  req := Leaf.get_setEff _ _ _ rfl (by decide) (by decide)
  ceil := Leaf.get_setEff _ _ _ rfl (by decide) (by decide)
  waking := rfl

theorem Leaf.evalOnly_stepOp (l : Leaf) : l.EvalOnly l.stepOp := by
  obtain ⟨w, b, ⟨n, -, h⟩ | ⟨-, h⟩⟩ := l.stepOp_cases
  · rw [h]
    exact (Leaf.evalOnly_setWant w b l).trans (Leaf.evalOnly_setEff ..)
  · rw [h]
    exact l.evalOnly_setPwr rfl

theorem Leaf.evalOnly_drawEwin (l : Leaf) : l.EvalOnly l.drawEwin.2 where
  regs a ha _ _ := Leaf.rd_wr64_other _ _ (fun e => ha (by simp [← e])) (fun e => ha (by simp [← e]))
  req := Leaf.get_congr (Leaf.rd_wr64_other _ _ (by decide) (by decide))
  ceil := Leaf.get_congr (Leaf.rd_wr64_other _ _ (by decide) (by decide))
  waking := rfl

theorem Leaf.rd_showClk (l : Leaf) (ha : a < 0x1000000) : l.showClk.rd a = l.rd a :=
  Leaf.foldl_congr (·.rd a) _ _ l fun p _ _ => Leaf.rd_putB_other _ _ _ (show 0x1000004 + 0x10000 * p ≠ a by omega)

theorem Leaf.evalOnly_showClk (l : Leaf) : l.EvalOnly l.showClk where
  regs _ _ _ hp := l.rd_showClk hp
  req := Leaf.get_congr (l.rd_showClk (by decide))
  ceil := Leaf.get_congr (l.rd_showClk (by decide))
  waking := Leaf.foldl_congr (·.pwr.waking) _ _ l fun _ _ _ => rfl

theorem Leaf.evalOnly_ceilings (l : Leaf) : l.EvalOnly l.ceilings := l.evalOnly_setPwr rfl

theorem Leaf.evalOnly_evalOp (l : Leaf) : l.EvalOnly l.evalOp := by
  unfold Leaf.evalOp
  dsimp only
  refine Leaf.EvalOnly.trans ?_ (Leaf.reasonsOnly_refreshPwr _).evalOnly
  refine Leaf.EvalOnly.trans ?_ (Leaf.evalOnly_setPwr _ rfl)
  exact l.evalOnly_ceilings.trans (Leaf.evalOnly_stepOp _)

/-- PANE_GATE, which the end of the cap clears. -/
theorem Leaf.evalOnly_gate (l : Leaf) (b : Bool) : l.EvalOnly (l.putB Fld.PWR_STAT_PANE_GATE b) :=
  (l.reasonsOnly_put Fld.PWR_STAT_PANE_GATE (b2n b) rfl (by decide) (by decide)).evalOnly

/-- An idle evaluation draws one free value, the energy of the window, and then evaluates the operating point. -/
theorem Leaf.idleEval_eq (l : Leaf) : ∃ m, l.idleEval = m.evalOp.showClk ∧ l.EvalOnly m ∧ m.free = l.free + 1 := by
  unfold Leaf.idleEval
  refine ⟨_, rfl, ?_, ?_⟩
  · split
    · refine Leaf.EvalOnly.trans ?_ (Leaf.reasonsOnly_setReasons ..).evalOnly
      exact l.evalOnly_drawEwin.trans (Leaf.evalOnly_setPwr _ rfl)
    · refine Leaf.EvalOnly.trans ?_ (Leaf.reasonsOnly_setReasons ..).evalOnly
      refine Leaf.EvalOnly.trans ?_ (Leaf.evalOnly_gate ..)
      exact l.evalOnly_drawEwin.trans (Leaf.evalOnly_setPwr _ rfl)
  · split
    · rw [(Leaf.reasonsOnly_setReasons ..).free]
      rfl
    · rw [(Leaf.reasonsOnly_setReasons ..).free]
      rfl

theorem Leaf.evalOnly_idleEval (l : Leaf) : l.EvalOnly l.idleEval := by
  obtain ⟨m, h, hm, -⟩ := l.idleEval_eq
  rw [h]
  exact (hm.trans m.evalOnly_evalOp).trans (Leaf.evalOnly_showClk _)

/-! ## What an evaluation gives -/

/-- EFF is no higher than the requested point and the host's ceiling. -/
def Leaf.EffBounded (l : Leaf) : Prop :=
  l.get Fld.PWR_OP_EFF ≤ l.get Fld.PWR_OP_REQ ∧ l.get Fld.PWR_OP_EFF ≤ l.get Fld.PWR_OP_CEIL_HOST

theorem Leaf.EffBounded.congr (h : l.EffBounded) (hr : m.rd Reg.PWR_OP = l.rd Reg.PWR_OP) : m.EffBounded := by
  unfold Leaf.EffBounded
  rw [Leaf.get_congr (f := Fld.PWR_OP_EFF) hr, Leaf.get_congr (f := Fld.PWR_OP_REQ) hr, Leaf.get_congr (f := Fld.PWR_OP_CEIL_HOST) hr]
  exact h

theorem Leaf.opTarget_le (l : Leaf) : l.opTarget ≤ l.get Fld.PWR_OP_REQ ∧ l.opTarget ≤ l.get Fld.PWR_OP_CEIL_HOST :=
  ⟨(min_le_left _ _).trans (min_le_left _ _), (min_le_left _ _).trans (min_le_right _ _)⟩

theorem Leaf.effBounded_stepOp (l : Leaf) : l.stepOp.EffBounded := by
  obtain ⟨hreq, hceil⟩ := l.opTarget_le
  have hle : l.stepOp.get Fld.PWR_OP_EFF ≤ l.opTarget := by
    obtain ⟨w, b, ⟨n, hn, h⟩ | ⟨heff, h⟩⟩ := l.stepOp_cases
    · rw [h, Leaf.eff_setEff]
      exact (Nat.mod_le _ _).trans hn
    · rw [h, Leaf.get_setWant]
      exact heff
  have hkept := l.evalOnly_stepOp
  exact ⟨(hle.trans hreq).trans hkept.req.ge, (hle.trans hceil).trans hkept.ceil.ge⟩

theorem Leaf.effBounded_evalOp (l : Leaf) : l.evalOp.EffBounded := by
  unfold Leaf.evalOp
  dsimp only
  refine Leaf.EffBounded.congr ?_ ((Leaf.reasonsOnly_refreshPwr _).regs _ (by decide) (by decide) (by decide))
  exact l.ceilings.effBounded_stepOp.congr rfl

theorem Leaf.evaluated_evalOp (l : Leaf) : l.evalOp.pwr.evaluated = true := by
  unfold Leaf.evalOp
  dsimp only
  rw [(Leaf.reasonsOnly_refreshPwr _).pwr]
  rfl

theorem Leaf.free_stepOp (l : Leaf) : l.stepOp.free = l.free := by
  obtain ⟨w, b, ⟨n, -, h⟩ | ⟨-, h⟩⟩ := l.stepOp_cases <;> rw [h] <;> rfl

theorem Leaf.free_evalOp (l : Leaf) : l.evalOp.free = l.free := by
  unfold Leaf.evalOp
  dsimp only
  rw [(Leaf.reasonsOnly_refreshPwr _).free]
  exact l.ceilings.free_stepOp

theorem Leaf.pwr_showClk (l : Leaf) : l.showClk.pwr = l.pwr := Leaf.foldl_congr (·.pwr) _ _ l fun _ _ _ => rfl

theorem Leaf.free_showClk (l : Leaf) : l.showClk.free = l.free := Leaf.foldl_congr (·.free) _ _ l fun _ _ _ => rfl

/-- What an idle evaluation gives. -/
theorem Leaf.evaluated_idleEval (l : Leaf) : l.idleEval.EffBounded ∧ l.idleEval.pwr.evaluated = true ∧ l.idleEval.free = l.free + 1 := by
  obtain ⟨m, h, -, hfree⟩ := l.idleEval_eq
  rw [h, Leaf.pwr_showClk, Leaf.free_showClk, Leaf.free_evalOp]
  exact ⟨m.effBounded_evalOp.congr (Leaf.rd_showClk _ (by decide)), m.evaluated_evalOp, hfree⟩

/-! ## The stretch level -/

/-- The level after a peak evaluation whose projected energy is e. -/
def Leaf.nextStretch (e : Nat) (l : Leaf) : Nat :=
  let lv := l.get Fld.PWR_STAT_STRETCH
  if 108500 < e then min (stretchMax (l.get Fld.PWR_OP_EFF)) (lv + 1) else if e < 97650 then lv - 1 else lv

theorem stretchMax_le (op : Nat) : stretchMax op ≤ 6 := min_le_left ..

/-- A level in its range moves by at most one, and stays in the field's width. -/
theorem Leaf.nextStretch_near (h : l.get Fld.PWR_STAT_STRETCH ≤ stretchMax (l.get Fld.PWR_OP_EFF)) (e : Nat) :
    l.nextStretch e ≤ l.get Fld.PWR_STAT_STRETCH + 1 ∧ l.get Fld.PWR_STAT_STRETCH ≤ l.nextStretch e + 1 ∧ l.nextStretch e < 8 := by
  have h6 := stretchMax_le (l.get Fld.PWR_OP_EFF)
  unfold Leaf.nextStretch
  dsimp only
  split
  · omega
  · split <;> omega

theorem Leaf.peakEvaluation_def (l : Leaf) : l.peakEvaluation =
    if l.count < l.pwr.lastStretch + countsOfUs 2 || l.nextStretch l.freeDraw.1 = l.get Fld.PWR_STAT_STRETCH then l.freeDraw.2
    else ((l.freeDraw.2.put Fld.PWR_STAT_STRETCH (l.nextStretch l.freeDraw.1)).setPwr
      { l.freeDraw.2.pwr with lastStretch := l.count }).refreshPwr := rfl

theorem Leaf.free_peakEvaluation (l : Leaf) : l.peakEvaluation.free = l.free + 1 := by
  rw [Leaf.peakEvaluation_def]
  split
  · rfl
  · rw [(Leaf.reasonsOnly_refreshPwr _).free]
    rfl

/-- The level stays, or becomes the next one. -/
theorem Leaf.stretch_peakEvaluation (h : l.get Fld.PWR_STAT_STRETCH ≤ stretchMax (l.get Fld.PWR_OP_EFF)) :
    l.peakEvaluation.get Fld.PWR_STAT_STRETCH = l.get Fld.PWR_STAT_STRETCH
    ∨ (¬ l.count < l.pwr.lastStretch + countsOfUs 2 ∧ l.peakEvaluation.get Fld.PWR_STAT_STRETCH = l.nextStretch l.freeDraw.1) := by
  rw [Leaf.peakEvaluation_def]
  split
  · exact .inl rfl
  · next hmove =>
    simp only [Bool.or_eq_true, decide_eq_true_eq, not_or] at hmove
    obtain ⟨-, -, hlt⟩ := Leaf.nextStretch_near h l.freeDraw.1
    refine .inr ⟨hmove.1, (Leaf.reasonsOnly_refreshPwr _).stretch.trans ?_⟩
    exact (Leaf.get_put_same l.freeDraw.2 _ _ (by decide) (by decide)).trans (Nat.mod_eq_of_lt hlt)

/-! ## The four events -/

theorem Leaf.pwr_adv (l : Leaf) (c : Nat) : (l.adv c).pwr = l.pwr := Leaf.adv_congr (·.pwr) c fun _ => rfl

theorem Leaf.free_adv (l : Leaf) (c : Nat) : (l.adv c).free = l.free := Leaf.adv_congr (·.free) c fun _ => rfl

theorem Leaf.get_adv (l : Leaf) (c : Nat) (f : FieldRef) : (l.adv c).get f = l.get f := Leaf.adv_congr (·.get f) c fun _ => rfl

/-- An event of the power manager at its count, of a leaf that runs. -/
theorem State.event_runs (h : s.ready i = true) (c : Nat) (f : Leaf → Leaf) :
    s.event i c Leaf.runs f = s.setLeaf i (f ((s.leaf i).adv c)) :=
  State.event_of_ok ((Leaf.runs_adv c).trans (Leaf.runs_of_ready h))

theorem exec_opEvaluation (h : s.ready i = true) (c : Nat) :
    exec (.opEvaluation i c) s = .next (s.setLeaf i ((s.leaf i).adv c).opEvaluation).settle := congrArg State.done (State.event_runs h c _)

theorem exec_railSettled (h : s.ready i = true) :
    exec (.railSettled i) s = .next (s.setLeaf i (s.leaf i).railSettled).settle :=
  congrArg State.done (State.eventNow_of_ready h _)

theorem exec_vrail (h : s.ready i = true) (c : Nat) :
    exec (.vrail i c) s = .next (s.setLeaf i ((s.leaf i).adv c).vrail).settle := congrArg State.done (State.event_runs h c _)

theorem exec_peakEvaluation (h : s.ready i = true) (c : Nat) :
    exec (.peakEvaluation i c) s = .next (s.setLeaf i ((s.leaf i).adv c).peakEvaluation).settle :=
  congrArg State.done (State.event_runs h c _)

/-- A leaf in S0 that is neither TICKING nor in state 1 evaluates. -/
theorem Leaf.opEvaluation_of_idle (ht : l.ticking = false) (h1 : l.state ≠ 1) (hs : l.sleep = 0) : l.opEvaluation = l.idleEval :=
  if_neg (by simp [ht, h1, hs])

theorem Leaf.opEvaluation_of_ticking (ht : l.ticking = true) : l.opEvaluation = l := if_pos (by simp [ht])

theorem Leaf.vrail_of_due {r : Nat} (hw : l.pwr.want = some (r, x)) (hs : l.pwr.settled = false) (h : x + countsOfMs 1 ≤ l.count) :
    l.vrail = (l.setPwr { l.pwr with want := none }).notify 0x05 { block := 0x05 } := by
  unfold Leaf.vrail
  rw [hw]
  exact if_neg (by simp [hs, h])

theorem Leaf.vrail_of_not_due {r : Nat} (hw : l.pwr.want = some (r, x)) (h : l.count < x + countsOfMs 1) : l.vrail = l := by
  unfold Leaf.vrail
  rw [hw]
  exact if_pos (by simp [h])

theorem Leaf.ticking_adv (l : Leaf) (c : Nat) : (l.adv c).ticking = l.ticking := Leaf.adv_congr (·.ticking) c fun _ => rfl

theorem answersWith_opEvaluation (h : s.ready i = true) (ht : (s.leaf i).ticking = false) (h1 : (s.leaf i).state ≠ 1) (c : Nat) :
    AnswersWith (.opEvaluation i c) s fun t =>
      (t.leaf i).EffBounded ∧ (t.leaf i).get Fld.PWR_OP_REQ = (s.leaf i).get Fld.PWR_OP_REQ
      ∧ (t.leaf i).get Fld.PWR_OP_CEIL_HOST = (s.leaf i).get Fld.PWR_OP_CEIL_HOST
      ∧ (t.leaf i).pwr.evaluated = true ∧ (t.leaf i).free = (s.leaf i).free + 1 := by
  have e := exec_opEvaluation h c
  rw [Leaf.opEvaluation_of_idle ((Leaf.ticking_adv ..).trans ht) ((Leaf.get_adv ..).trans_ne h1)
    ((Leaf.get_adv ..).trans (Leaf.sleep_of_runs (Leaf.runs_of_ready h)))] at e
  refine answersWith_of_setLeaf e fun t kept _ => ?_
  have hop := kept.rd_of_between (a := Reg.PWR_OP) (by decide)
  obtain ⟨hbound, heval, hfree⟩ := ((s.leaf i).adv c).evaluated_idleEval
  have hkept := ((s.leaf i).adv c).evalOnly_idleEval
  refine ⟨hbound.congr hop, ?_, ?_, ?_, ?_⟩
  · rw [Leaf.get_congr (f := Fld.PWR_OP_REQ) hop, hkept.req, Leaf.get_adv]
  · rw [Leaf.get_congr (f := Fld.PWR_OP_CEIL_HOST) hop, hkept.ceil, Leaf.get_adv]
  · rw [kept.pwr, heval]
  · rw [kept.free, hfree, Leaf.free_adv]

theorem answersWith_peakEvaluation (h : s.ready i = true)
    (hle : (s.leaf i).get Fld.PWR_STAT_STRETCH ≤ stretchMax ((s.leaf i).get Fld.PWR_OP_EFF)) (c : Nat) :
    AnswersWith (.peakEvaluation i c) s fun t =>
      (t.leaf i).get Fld.PWR_STAT_STRETCH ≤ (s.leaf i).get Fld.PWR_STAT_STRETCH + 1
      ∧ (s.leaf i).get Fld.PWR_STAT_STRETCH ≤ (t.leaf i).get Fld.PWR_STAT_STRETCH + 1 ∧ (t.leaf i).free = (s.leaf i).free + 1
      ∧ (((s.leaf i).adv c).count < (s.leaf i).pwr.lastStretch + countsOfUs 2 →
          (t.leaf i).get Fld.PWR_STAT_STRETCH = (s.leaf i).get Fld.PWR_STAT_STRETCH) := by
  refine answersWith_of_setLeaf (exec_peakEvaluation h c) fun t kept _ => ?_
  rw [kept.free, Leaf.free_peakEvaluation, Leaf.free_adv,
    Leaf.get_congr (f := Fld.PWR_STAT_STRETCH) (kept.rd_of_between (a := Reg.PWR_STAT) (by decide))]
  have hle' : ((s.leaf i).adv c).get Fld.PWR_STAT_STRETCH ≤ stretchMax (((s.leaf i).adv c).get Fld.PWR_OP_EFF) := by
    rw [Leaf.get_adv, Leaf.get_adv]
    exact hle
  have hstep := Leaf.stretch_peakEvaluation hle'
  obtain ⟨hup, hdown, -⟩ := Leaf.nextStretch_near hle' ((s.leaf i).adv c).freeDraw.1
  rw [Leaf.get_adv] at hup hdown hstep
  rw [Leaf.pwr_adv] at hstep
  obtain hsame | ⟨hdue, hnext⟩ := hstep
  · rw [hsame]
    exact ⟨Nat.le_succ _, Nat.le_succ _, rfl, fun _ => rfl⟩
  · rw [hnext]
    exact ⟨hup, hdown, rfl, fun hnot => absurd hnot hdue⟩

/-- Settles O47: what the evaluations keep and give, and the request of a rail by its time. -/
theorem operatingPoint : Obligations.OperatingPoint := by
  intro s i hr
  refine ⟨fun c ht h1 => (answersWith_opEvaluation hr ht h1 c).imp fun t h => ?_, fun c ht => ?_, fun hw => ?_,
    fun c n x hw hs => ⟨fun hdue => ?_, fun hnot => ?_⟩, fun c hle => answersWith_peakEvaluation hr hle c⟩
  · obtain ⟨⟨hreq, hceil⟩, hrest⟩ := h
    exact ⟨hreq, hceil, hrest⟩
  · have e := exec_opEvaluation hr c
    rw [Leaf.opEvaluation_of_ticking ((Leaf.ticking_adv ..).trans ht)] at e
    exact answers_of_exec e
  · have e := exec_railSettled hr
    rw [show (s.leaf i).railSettled = _ from if_pos hw] at e
    exact answers_of_exec e
  · have e := exec_vrail hr c
    rw [Leaf.vrail_of_due ((congrArg PwrState.want (Leaf.pwr_adv ..)).trans hw) ((congrArg PwrState.settled (Leaf.pwr_adv ..)).trans hs) hdue,
      Leaf.pwr_adv] at e
    exact answers_of_exec e
  · have e := exec_vrail hr c
    rw [Leaf.vrail_of_not_due ((congrArg PwrState.want (Leaf.pwr_adv ..)).trans hw) hnot] at e
    exact answers_of_exec e

end Sys2Proof.Machine
end

section
/-!
PROOFS. The sleep states (R463 to R467, R479): a state of the model at which the end of an entry to S3 does not leave the leaf in S3.
-/
namespace Sys2Proof.Machine

/-- The end of an entry to S3, for which the leaf has no wake of its own. -/
def deepEntry : SleepEntry := { state := 3, wake := none }

/-- A booted leaf in S0 on its way to S3 whose register table lists PWR_SLEEP_STAT twice. Such a table is not canonical: a write changes the
first of the two entries, and the one behind it is never read. -/
def twiceListedLeaf : Leaf :=
  { State.reset.leafA with
    regs := [(Reg.PWR_SLEEP_STAT, 0), (Reg.PWR_SLEEP_STAT, 0)]
    boot := { State.reset.leafA.boot with held := false }
    flt := { firstIdle := true }
    pwr := { entry := some deepEntry } }

/-- The device with that leaf as Leaf A. -/
def twiceListedState : State :=
  { State.reset with leafA := twiceListedLeaf, hinge := { State.reset.hinge with regs := [(Reg.HINGE_LEAF_STAT, 3)], held := false } }

theorem twiceListedState_ready : twiceListedState.ready .A = true := by decide +kernel

theorem twiceListedLeaf_not_canonical : sparseWf regReset twiceListedLeaf.regs = false := by decide +kernel

/-- The entry behind the first one is what S3 keeps: PWR_SLEEP_STAT reads 0 again. -/
theorem sleep_sleepEntryDone_twiceListed : (twiceListedLeaf.adv 0).sleepEntryDone.sleep = 0 := by decide +kernel

variable {s : State} {i : LeafId}

theorem exec_sleepEntryDone (h : s.ready i = true) (c : Nat) :
    exec (.sleepEntryDone i c) s = .next (s.setLeaf i ((s.leaf i).adv c).sleepEntryDone).settle := congrArg State.done (State.event_runs h c _)

theorem Leaf.Kept.sleep {l m : Leaf} (h : l.Kept m) : m.sleep = l.sleep := Leaf.get_congr (h.rd_of_between (by decide))

/-- Refutes O49: its second clause takes any register table. In twiceListedState S3 keeps both entries of PWR_SLEEP_STAT in their order, the
one that was never written last, and the leaf that was to be in S3 shows S0. -/
theorem not_sleepAndWake : ¬ Obligations.SleepAndWake := by
  intro h
  obtain ⟨-, hdone, -⟩ := h twiceListedState .A
  obtain ⟨t, hexec, hsleep, -⟩ := hdone twiceListedState_ready 0 deepEntry rfl le_rfl
  have hzero : AnswersWith (.sleepEntryDone .A 0) twiceListedState fun t => (t.leaf .A).sleep = 0 :=
    answersWith_of_setLeaf (exec_sleepEntryDone twiceListedState_ready 0) fun t kept _ => kept.sleep.trans sleep_sleepEntryDone_twiceListed
  obtain ⟨u, hexec', hu⟩ := hzero
  rw [hexec] at hexec'
  injection hexec' with htu
  rw [htu, hu] at hsleep
  exact absurd hsleep (by decide)

end Sys2Proof.Machine
end

section
/-!
PROOFS. The interrupt controller and the counters (R472 to R476, R483): how a write reaches the controller's words, what a completion and a
mask leave as they were, and the statement about the seven commands.
-/
namespace Sys2Proof.Machine

variable {s : State} {i : LeafId} {l m : Leaf} {a n v w x : Nat}

/-! ## Index of an array register -/

theorem arrIx_self {base stride k : Nat} (hs : 0 < stride) (hn : n < k) : arrIx base stride k (base + stride * n) = some n := by
  have hsub : base + stride * n - base = stride * n := Nat.add_sub_cancel_left ..
  unfold arrIx
  rw [hsub, Nat.mul_mod_right, Nat.mul_div_cancel_left _ hs]
  exact if_pos ⟨Nat.le_add_right .., rfl, hn⟩

theorem arrIx_of_ge {base stride k : Nat} (hs : 0 < stride) (h : base + stride * k ≤ a) : arrIx base stride k a = none := by
  have hk : k ≤ (a - base) / stride := (Nat.le_div_iff_mul_le hs).mpr (by rw [Nat.mul_comm]; omega)
  exact if_neg fun hc => absurd hc.2.2 (not_lt.mpr hk)

/-! ## Writes of the controller's words -/

theorem Leaf.writeReg_irqBlk (l : Leaf) (w : Nat) (h : a / 2 ^ 20 = 4) : l.writeReg a w = l.writeIrqBlk a w := by
  unfold Leaf.writeReg
  rw [h]
  rfl

/-- A write of a register of the controller, of a leaf that runs. -/
theorem State.regWrite_irq (h : s.ready i = true) (w : Nat) (h4 : a % 4 = 0) (ha : a / 2 ^ 20 = 4) :
    s.regWrite i a w = s.setLeaf i ((s.leaf i).writeIrqBlk a w) := by
  rw [State.regWrite_above_tick h w h4 (by omega), Leaf.writeReg_irqBlk _ _ ha]

theorem Leaf.writeIrqBlk_pend (l : Leaf) (w : Nat) (hn : n < 16) : l.writeIrqBlk (Reg.IRQ_PEND n) w = l.writePend n w := by
  have hix : arrIx 0x400000 4 16 (Reg.IRQ_PEND n) = some n := arrIx_self (by decide) hn
  unfold Leaf.writeIrqBlk
  rw [hix]

theorem Leaf.writeIrqBlk_mask (l : Leaf) (w : Nat) (hn : n < 16) : l.writeIrqBlk (Reg.IRQ_MASK n) w = l.writeMask n w := by
  have hpend : arrIx 0x400000 4 16 (Reg.IRQ_MASK n) = none := arrIx_of_ge (by decide) (show 0x400000 + 4 * 16 ≤ 0x400080 + 0x4 * n by omega)
  have hraw : arrIx 0x400040 4 16 (Reg.IRQ_MASK n) = none := arrIx_of_ge (by decide) (show 0x400040 + 4 * 16 ≤ 0x400080 + 0x4 * n by omega)
  have hix : arrIx 0x400080 4 16 (Reg.IRQ_MASK n) = some n := arrIx_self (by decide) hn
  unfold Leaf.writeIrqBlk
  rw [hpend, hraw, hix]

theorem Leaf.writeIrqBlk_tgt (l : Leaf) (w : Nat) (hn : n < 512) : l.writeIrqBlk (Reg.IRQ_TGT n) w = l.writeTgt n w := by
  have hpend : arrIx 0x400000 4 16 (Reg.IRQ_TGT n) = none := arrIx_of_ge (by decide) (show 0x400000 + 4 * 16 ≤ 0x400800 + 0x4 * n by omega)
  have hraw : arrIx 0x400040 4 16 (Reg.IRQ_TGT n) = none := arrIx_of_ge (by decide) (show 0x400040 + 4 * 16 ≤ 0x400800 + 0x4 * n by omega)
  have hmask : arrIx 0x400080 4 16 (Reg.IRQ_TGT n) = none := arrIx_of_ge (by decide) (show 0x400080 + 4 * 16 ≤ 0x400800 + 0x4 * n by omega)
  have hix : arrIx 0x400800 4 512 (Reg.IRQ_TGT n) = some n := arrIx_self (by decide) hn
  unfold Leaf.writeIrqBlk
  rw [hpend, hraw, hmask, hix]

theorem Leaf.writeIrqBlk_eoi (l : Leaf) (w : Nat) : l.writeIrqBlk Reg.IRQ_EOI w = (l.swWrite Reg.IRQ_EOI w).eoi (w % 512) := rfl

/-! ## What the accumulators and the stack leave as they were -/

/-- The accumulators lie above every other register of a source. -/
theorem Leaf.rd_accEvent (l : Leaf) (x : Nat) (ha : a < 0x401000) : (l.accEvent x).rd a = l.rd a := by
  have hinc : (l.incSat (Fld.IRQ_VEC_STAT_ACC (l.get (Fld.IRQ_TGT_TARGET x)))).rd a = l.rd a :=
    Leaf.rd_put_other _ _ _ (show 0x401004 + 0x8 * l.get (Fld.IRQ_TGT_TARGET x) ≠ a by omega)
  unfold Leaf.accEvent
  split
  · rfl
  · dsimp only
    split <;> exact hinc

theorem Leaf.rd_foldl_accEvent (xs : List Nat) (l : Leaf) (ha : a < 0x401000) : (xs.foldl (fun m x => m.accEvent x) l).rd a = l.rd a :=
  Leaf.foldl_congr (·.rd a) _ xs l fun _ _ k => k.rd_accEvent _ ha

theorem Leaf.rd_setPend (l : Leaf) (x : Nat) (ha : Reg.IRQ_PEND (x / 32) ≠ a) : (l.setPend x).rd a = l.rd a := Leaf.rd_orReg_other _ _ ha

theorem Leaf.regs_popN (k : Nat) (l : Leaf) : (Leaf.popN k l).regs = l.regs := by
  induction k generalizing l with
  | zero => rfl
  | succ k ih =>
    unfold Leaf.popN
    split
    · rfl
    · split
      · rfl
      · exact ih _

theorem Leaf.rd_showStack (l : Leaf) (hr : a ≠ Reg.IRQ_RPRI) (hs : a ≠ Reg.IRQ_STAT) : l.showStack.rd a = l.rd a := by
  unfold Leaf.showStack
  dsimp only
  rw [Leaf.rd_putB_other _ _ _ hs.symm]
  split <;>
    rw [Leaf.rd_put_other _ _ _ hr.symm, Leaf.rd_put_other _ _ _ hr.symm, Leaf.rd_put_other _ _ _ hr.symm, Leaf.rd_putB_other _ _ _ hr.symm]

/-! ## A completion -/

theorem Leaf.rd_popN (k : Nat) (l : Leaf) (a : Nat) : (Leaf.popN k l).rd a = l.rd a := by
  unfold Leaf.rd
  rw [Leaf.regs_popN]

/-- A completion of an active source clears its ACT. -/
theorem Leaf.actBit_eoi (hx : x < 512) (h : l.actBit x = true) : (l.eoi x).actBit x = false := by
  have hr : Reg.IRQ_ACT (x / 32) ≠ Reg.IRQ_RPRI := show 0x4000C0 + 0x4 * (x / 32) ≠ 0x400104 by omega
  have hs : Reg.IRQ_ACT (x / 32) ≠ Reg.IRQ_STAT := show 0x4000C0 + 0x4 * (x / 32) ≠ 0x400114 by omega
  have hp : Reg.IRQ_PEND (x / 32) ≠ Reg.IRQ_ACT (x / 32) := show 0x400000 + 0x4 * (x / 32) ≠ 0x4000C0 + 0x4 * (x / 32) by omega
  have hlow : Reg.IRQ_ACT (x / 32) < 0x401000 := show 0x4000C0 + 0x4 * (x / 32) < 0x401000 by omega
  have hb : x % 32 < 32 := Nat.mod_lt _ (by decide)
  have hclear : bitOf ((l.andNotReg (Reg.IRQ_ACT (x / 32)) (srcBit x)).rd (Reg.IRQ_ACT (x / 32))) (x % 32) = false := by
    unfold srcBit
    rw [Leaf.bitOf_andNotReg_same _ _ hb hb]
    simp
  unfold Leaf.eoi
  rw [if_pos h]
  unfold Leaf.actBit
  dsimp only
  rw [Leaf.rd_showStack _ hr hs, Leaf.rd_popN]
  split <;> split
  · rw [Leaf.rd_accEvent _ _ hlow, Leaf.rd_setPend _ _ hp, hclear]
  · rw [Leaf.rd_setPend _ _ hp, hclear]
  · rw [Leaf.rd_accEvent _ _ hlow, hclear]
  · exact hclear

/-- A completion of another source counts as a bad one. -/
theorem Leaf.badEoi_eoi (h : l.actBit x = false) : (l.eoi x).get Fld.IRQ_BAD_EOI_COUNT = (l.get Fld.IRQ_BAD_EOI_COUNT + 1) % 2 ^ 32 := by
  unfold Leaf.eoi
  rw [if_neg (by simp [h])]
  exact Leaf.get_put_same _ _ _ (by decide) (by decide)

/-! ## PEND, MASK and the snapshot -/

theorem Leaf.pend_writePend (l : Leaf) (n : Nat) (w : Word) (hn : n < 16) : (l.writePend n w.toNat).rd (Reg.IRQ_PEND n) = w.toNat := by
  have hlost : Reg.IRQ_LOST_SET ≠ Reg.IRQ_PEND n := show 0x400108 ≠ 0x400000 + 0x4 * n by omega
  have hrd : ∀ k, ((l.wr (Reg.IRQ_PEND n) w.toNat).incBy Fld.IRQ_LOST_SET_COUNT k).rd (Reg.IRQ_PEND n) = w.toNat := fun k => by
    unfold Leaf.incBy
    rw [Leaf.rd_put_other _ _ _ hlost, Leaf.rd_wr_same]
    exact Nat.mod_eq_of_lt w.isLt
  exact hrd _

theorem Leaf.rd_writePend_other (l : Leaf) (n v : Nat) (hn : Reg.IRQ_PEND n ≠ a) (hl : Reg.IRQ_LOST_SET ≠ a) :
    (l.writePend n v).rd a = l.rd a := by
  have hrd : ∀ k, ((l.wr (Reg.IRQ_PEND n) v).incBy Fld.IRQ_LOST_SET_COUNT k).rd a = l.rd a := fun k => by
    unfold Leaf.incBy
    rw [Leaf.rd_put_other _ _ _ hl, Leaf.rd_wr_other _ _ hn]
  exact hrd _

theorem Leaf.mask_writeMask (l : Leaf) (n : Nat) (w : Word) (hn : n < 16) : (l.writeMask n w.toNat).rd (Reg.IRQ_MASK n) = w.toNat := by
  unfold Leaf.writeMask
  dsimp only
  rw [Leaf.rd_foldl_accEvent _ _ (show 0x400080 + 0x4 * n < 0x401000 by omega), Leaf.rd_wr_same]
  exact Nat.mod_eq_of_lt w.isLt

theorem Leaf.rd_writeMask_other (l : Leaf) (n v : Nat) (hn : Reg.IRQ_MASK n ≠ a) (ha : a < 0x401000) : (l.writeMask n v).rd a = l.rd a := by
  unfold Leaf.writeMask
  dsimp only
  rw [Leaf.rd_foldl_accEvent _ _ ha, Leaf.rd_wr_other _ _ hn]

/-- What a snapshot makes of the counters. -/
theorem Leaf.shown_takeSnapshot (l : Leaf) : l.takeSnapshot.ctr.shadow = l.ctr.cnt ∧ l.takeSnapshot.ctr.cnt = l.ctr.cnt
    ∧ l.takeSnapshot.bit Fld.CNT_STAT_BUSY = true ∧ l.takeSnapshot.get Fld.CNT_EPOCH_EPOCH = (l.get Fld.CNT_EPOCH_EPOCH + 1) % 2 ^ 32 := by
  refine ⟨rfl, rfl, Leaf.bit_putB_same _ _ _ (by decide) (by decide), ?_⟩
  unfold Leaf.takeSnapshot
  rw [Leaf.get_congr (f := Fld.CNT_EPOCH_EPOCH) (Leaf.rd_putB_other _ _ _ (by decide))]
  exact Leaf.get_put_same _ _ _ (by decide) (by decide)

/-! ## The commands -/

theorem exec_irqEoi (h : s.ready i = true) (w : Word) :
    exec (.irqEoi i w) s = .next (s.setLeaf i (((s.leaf i).swWrite Reg.IRQ_EOI w.toNat).eoi (w.toNat % 512))).settle := by
  refine congrArg State.done ?_
  rw [State.regWrite_irq h _ rfl rfl, Leaf.writeIrqBlk_eoi]

theorem irqWord_aligned (b n : Nat) (h4 : b % 4 = 0) : (b + 0x4 * n) % 4 = 0 := by omega

theorem exec_irqPendWrite (h : s.ready i = true) (hn : n < 16) (w : Word) :
    exec (.irqPendWrite i n w) s = .next (s.setLeaf i ((s.leaf i).writePend n w.toNat)).settle := by
  refine congrArg State.done ?_
  rw [State.indexed_of_lt _ hn, State.regWrite_irq h _ (irqWord_aligned 0x400000 n rfl) (show (0x400000 + 0x4 * n) / 2 ^ 20 = 4 by omega),
    Leaf.writeIrqBlk_pend _ _ hn]

theorem exec_irqMaskWrite (h : s.ready i = true) (hn : n < 16) (w : Word) :
    exec (.irqMaskWrite i n w) s = .next (s.setLeaf i ((s.leaf i).writeMask n w.toNat)).settle := by
  refine congrArg State.done ?_
  rw [State.indexed_of_lt _ hn, State.regWrite_irq h _ (irqWord_aligned 0x400080 n rfl) (show (0x400080 + 0x4 * n) / 2 ^ 20 = 4 by omega),
    Leaf.writeIrqBlk_mask _ _ hn]

theorem exec_irqTgtWrite (h : s.ready i = true) (hn : n < 512) (w : Word) :
    exec (.irqTgtWrite i n w) s = .next (s.setLeaf i ((s.leaf i).writeTgt n w.toNat)).settle := by
  refine congrArg State.done ?_
  rw [State.indexed_of_lt _ hn, State.regWrite_irq h _ (irqWord_aligned 0x400800 n rfl) (show (0x400800 + 0x4 * n) / 2 ^ 20 = 4 by omega),
    Leaf.writeIrqBlk_tgt _ _ hn]

theorem Leaf.writeReg_cntCtrl (l : Leaf) (w : Nat) : l.writeReg Reg.CNT_CTRL w = if bitOf w 31 then l.snapCmd else l := rfl

theorem exec_snap (h : s.ready i = true) (w : Word) : exec (.snap i w) s = .next (s.setLeaf i (s.leaf i).snapCmd).settle := by
  have hsnap : bitOf (wordWith w Fld.CNT_CTRL_SNAP 1) 31 = true := bitOf_setBits_same ..
  refine congrArg State.done ?_
  unfold State.fieldWrite
  rw [State.regWrite_above_tick h _ rfl (by decide), Leaf.writeReg_cntCtrl, if_pos hsnap]

theorem exec_snapshotDone (h : s.ready i = true) (c : Nat) :
    exec (.snapshotDone i c) s = .next (s.setLeaf i (((s.leaf i).adv c).putB Fld.CNT_STAT_BUSY false)).settle :=
  congrArg State.done (State.event_runs h c _)

theorem Leaf.actBit_swWrite_eoi (l : Leaf) (w x : Nat) (hx : x < 512) : (l.swWrite Reg.IRQ_EOI w).actBit x = l.actBit x := by
  unfold Leaf.actBit
  rw [Leaf.rd_swWrite_other _ _ (show 0x400100 ≠ 0x4000C0 + 0x4 * (x / 32) by omega)]

/-- Settles O50: each command by the leaf it leaves before the messages that are due. -/
theorem interruptCommands : Obligations.InterruptCommands := by
  intro s i hr
  refine ⟨fun w => ⟨_, exec_irqEoi hr w, ?_⟩,
    fun n w hn => ⟨_, exec_irqPendWrite hr hn w, Leaf.pend_writePend _ _ _ hn, fun k hk hkn => Leaf.rd_writePend_other _ _ _ ?_ ?_⟩,
    fun n w hn => ⟨_, exec_irqMaskWrite hr hn w, Leaf.mask_writeMask _ _ _ hn, fun k hk =>
      ⟨Leaf.rd_writeMask_other _ _ _ ?_ ?_, Leaf.rd_writeMask_other _ _ _ ?_ ?_⟩⟩,
    fun n w hn => exec_irqTgtWrite hr hn w, fun v c hv => congrArg State.done (State.indexed_of_lt _ hv), fun w hb => ?_, fun w hb => ?_,
    fun c => answers_of_exec (exec_snapshotDone hr c)⟩
  · have hx : w.toNat % 512 < 512 := Nat.mod_lt _ (by decide)
    have hact := (s.leaf i).actBit_swWrite_eoi w.toNat _ hx
    split
    · next h => exact Leaf.actBit_eoi hx (hact.trans h)
    · next h =>
      rw [Leaf.badEoi_eoi (hact.trans (Bool.eq_false_iff.mpr h)), Leaf.get_congr (f := Fld.IRQ_BAD_EOI_COUNT) (Leaf.rd_swWrite_other _ _ (by decide))]
  · exact show 0x400000 + 0x4 * n ≠ 0x400000 + 0x4 * k by omega
  · exact show 0x400108 ≠ 0x400000 + 0x4 * k by omega
  · exact show 0x400080 + 0x4 * n ≠ 0x400000 + 0x4 * k by omega
  · exact show 0x400000 + 0x4 * k < 0x401000 by omega
  · exact show 0x400080 + 0x4 * n ≠ 0x4000C0 + 0x4 * k by omega
  · exact show 0x4000C0 + 0x4 * k < 0x401000 by omega
  · have e := exec_snap hr w
    rw [show (s.leaf i).snapCmd = (s.leaf i).takeSnapshot from if_neg (by simp [hb])] at e
    exact ⟨_, e, Leaf.shown_takeSnapshot _⟩
  · have e := exec_snap hr w
    rw [show (s.leaf i).snapCmd = _ from if_pos hb] at e
    exact answers_of_exec e

end Sys2Proof.Machine
end

section
/-!
PROOFS. The link and the functions (R489, R504, R505): what settling makes of the held messages, what a release leaves, and the statement
about the five commands.
-/
namespace Sys2Proof.Machine

variable {s : State} {h k j : Hinge} {a g v : Nat}

/-! ## Messages while a state settles -/

/-- k is h with messages sent and held: the link carries messages as before, no function changed, a message that is newly held could not be
sent, and WAKE_N changes only while the link carries none. -/
structure Hinge.Messages (h k : Hinge) : Prop where
  linkOk : k.linkOk = h.linkOk
  fn : ∀ x, k.fn x = h.fn x
  held : ∀ m ∈ k.heldMsgs, m ∈ h.heldMsgs ∨ (h.linkOk = true → (h.fn m.1).canSend m.2 = false)
  wakeN : h.linkOk = true → k.wakeN = h.wakeN

theorem Hinge.Messages.refl (h : Hinge) : h.Messages h := ⟨rfl, fun _ => rfl, fun _ hm => .inl hm, fun _ => rfl⟩

theorem Hinge.Messages.trans (h1 : h.Messages k) (h2 : k.Messages j) : h.Messages j where
  linkOk := h2.linkOk.trans h1.linkOk
  fn x := (h2.fn x).trans (h1.fn x)
  held m hm := by
    obtain hk | hnew := h2.held m hm
    · exact h1.held m hk
    · rw [h1.linkOk, h1.fn] at hnew
      exact .inr hnew
  wakeN hl := (h2.wakeN (h1.linkOk.trans hl)).trans (h1.wakeN hl)

theorem Hinge.linkOk_put (h : Hinge) (f : FieldRef) (v : Nat) (hf : f.addr ≠ Reg.HINGE_PCIE_LINK) : (h.put f v).linkOk = h.linkOk := by
  unfold Hinge.linkOk
  rw [Hinge.get_put_other _ f Fld.HINGE_PCIE_LINK_LSTATE _ hf]
  rfl

/-- A field of another register than HINGE_PCIE_LINK. -/
theorem Hinge.messages_put (h : Hinge) (f : FieldRef) (v : Nat) (hf : f.addr ≠ Reg.HINGE_PCIE_LINK) : h.Messages (h.put f v) :=
  ⟨h.linkOk_put f v hf, fun _ => rfl, fun _ hm => .inl hm, fun _ => rfl⟩

/-- What is sent, and the counts of the groups. -/
theorem Hinge.messages_sent (h : Hinge) (x : List HostOut) (z : List (Nat × Nat)) : h.Messages { h with sent := x, cqFirst := z } :=
  ⟨rfl, fun _ => rfl, fun _ hm => .inl hm, fun _ => rfl⟩

/-- A link that carries messages goes to L0. -/
theorem Hinge.messages_l0 (hl : h.linkOk = true) : h.Messages (h.put Fld.HINGE_PCIE_LINK_LSTATE 0) where
  linkOk := by
    rw [hl]
    unfold Hinge.linkOk at hl ⊢
    rw [Hinge.get_put_same _ _ _ (by decide) (by decide)]
    simp only [Bool.and_eq_true] at hl ⊢
    exact ⟨hl.1, rfl⟩
  fn _ := rfl
  held _ hm := .inl hm
  wakeN _ := rfl

theorem Hinge.messages_foldl {α : Type} (f : Hinge → α → Hinge) (xs : List α) (h : Hinge)
    (hf : ∀ x ∈ xs, ∀ k : Hinge, k.Messages (f k x)) : h.Messages (xs.foldl f h) := by
  induction xs generalizing h with
  | nil => exact Hinge.Messages.refl h
  | cons x t ih => exact (hf x (by simp) h).trans (ih (f h x) fun y hy => hf y (by simp [hy]))

theorem cqgStat_ne_link (g : Nat) : Reg.HINGE_PCIE_CQG_STAT g ≠ Reg.HINGE_PCIE_LINK := show 0x8300204 + 0x8 * g ≠ 0x8300000 by omega

theorem Hinge.messages_showHeld (h : Hinge) : h.Messages h.showHeld := by
  unfold Hinge.showHeld
  exact (h.messages_put _ _ (by decide)).trans (Hinge.messages_foldl _ _ _ fun g _ k => k.messages_put _ _ (cqgStat_ne_link g))

theorem Hinge.messages_sendNow (hl : h.linkOk = true) (fn vec : Nat) : h.Messages (h.sendNow fn vec) := by
  unfold Hinge.sendNow
  exact (h.messages_sent (h.sent ++ [HostOut.msix fn vec]) h.cqFirst).trans (Hinge.messages_l0 hl)

/-- A message that cannot be sent joins those that are held. -/
theorem Hinge.messages_hold (fn vec : Nat) (hno : h.linkOk = true → (h.fn fn).canSend vec = false) :
    h.Messages { h with heldMsgs := h.heldMsgs ++ [(fn, vec)] } where
  linkOk := rfl
  fn _ := rfl
  held m hm := by
    obtain hm | hm := List.mem_append.mp hm
    · exact .inl hm
    · obtain rfl := List.mem_singleton.mp hm
      exact .inr hno
  wakeN _ := rfl

theorem Hinge.messages_inc (h : Hinge) (f : FieldRef) (hf : f.addr ≠ Reg.HINGE_PCIE_LINK) : h.Messages (h.inc f) := h.messages_put f _ hf

/-- WAKE_N follows while the link carries no message. -/
theorem Hinge.Messages.wake (hk : h.Messages k) (hl : h.linkOk = false) (w : Bool) : h.Messages { k with wakeN := w } where
  linkOk := hk.linkOk
  fn := hk.fn
  held := hk.held
  wakeN hup := by simp [hl] at hup

/-- PM_PME is sent on a link that carries messages. -/
theorem Hinge.Messages.pme (hk : h.Messages k) (hl : h.linkOk = true) (x : List HostOut) :
    h.Messages (({ k with sent := x } : Hinge).put Fld.HINGE_PCIE_LINK_LSTATE 0) := by
  have hsent : k.Messages { k with sent := x } := k.messages_sent x k.cqFirst
  exact (hk.trans hsent).trans (Hinge.messages_l0 ((hsent.linkOk.trans hk.linkOk).trans hl))

theorem Hinge.messages_holdMsg (fn vec : Nat) (hno : h.heldMsgs.contains (fn, vec) = false → h.linkOk = true → (h.fn fn).canSend vec = false) :
    h.Messages (h.holdMsg fn vec) := by
  unfold Hinge.holdMsg
  split
  · exact Hinge.Messages.refl h
  · next hnew =>
    have hheld := ((Hinge.messages_hold fn vec (hno (Bool.eq_false_iff.mpr hnew))).trans
      (Hinge.messages_inc _ Fld.HINGE_PCIE_HELD_CNT_COUNT (by decide))).trans (Hinge.messages_showHeld _)
    dsimp only
    split
    · next hdown => exact hheld.wake (by simpa using hdown) _
    · next hup =>
      split
      · exact hheld.pme (by simpa using hup) _
      · exact hheld

theorem Hinge.messages_message (h : Hinge) (fn vec : Nat) : h.Messages (h.message fn vec) := by
  unfold Hinge.message
  split
  · next hsend =>
    simp only [Bool.and_eq_true] at hsend
    exact Hinge.messages_sendNow hsend.1.1 fn vec
  · next hsend =>
    refine Hinge.messages_holdMsg fn vec fun hnew hl => ?_
    rw [hl, hnew] at hsend
    simpa using hsend

theorem Hinge.messages_takeMsgs (h : Hinge) (l : Leaf) : h.Messages (h.takeMsgs l) :=
  Hinge.messages_foldl _ _ _ fun _ _ k => k.messages_message _ _

theorem Hinge.messages_groupPump (h : Hinge) (g now : Nat) : h.Messages (h.groupPump g now) := by
  unfold Hinge.groupPump Hinge.groupSend
  split
  · have hput := (h.messages_sent h.sent (alDel g h.cqFirst)).trans
      (Hinge.messages_put _ (Fld.HINGE_PCIE_CQG_STAT_ACC g) 0 (cqgStat_ne_link g))
    dsimp only
    split
    · exact hput.trans (Hinge.messages_message _ _ _)
    · exact hput.trans (Hinge.messages_message _ _ _)
  · exact Hinge.Messages.refl h

theorem Hinge.messages_groupCount (h : Hinge) (g now : Nat) : h.Messages (h.groupCount g now) := by
  unfold Hinge.groupCount
  dsimp only
  refine Hinge.Messages.trans ?_ (Hinge.messages_groupPump _ _ _)
  have hput := h.messages_put (Fld.HINGE_PCIE_CQG_STAT_ACC g) (satInc 255 (h.get (Fld.HINGE_PCIE_CQG_STAT_ACC g))) (cqgStat_ne_link g)
  split
  · exact hput.trans (Hinge.messages_sent _ _ _)
  · exact hput

theorem messages_writeRecord (h : Hinge) (l : Leaf) (r : OutRec) (held : Bool) : h.Messages (writeRecord h l r held).1 := by
  unfold writeRecord
  dsimp only
  split <;> split
  · exact Hinge.messages_groupCount _ _ _
  · exact (h.messages_sent _ h.cqFirst).trans (Hinge.messages_groupCount _ _ _)
  · exact Hinge.Messages.refl h
  · exact h.messages_sent _ h.cqFirst

theorem messages_placeRecord (hl : Hinge × Leaf) (r : OutRec) : hl.1.Messages (placeRecord hl r).1 := by
  unfold placeRecord
  split
  · exact messages_writeRecord _ _ _ _
  · exact Hinge.Messages.refl _

theorem messages_placeRecords (rs : List OutRec) (hl : Hinge × Leaf) : hl.1.Messages (rs.foldl placeRecord hl).1 := by
  induction rs generalizing hl with
  | nil => exact Hinge.Messages.refl _
  | cons r t ih => exact (messages_placeRecord hl r).trans (ih (placeRecord hl r))

theorem messages_settleLeaf (i : LeafId) (s : State) : s.hinge.Messages (settleLeaf i s).hinge := by
  have hplace : s.hinge.Messages (placeAll s.hinge (s.leaf i)).1 :=
    messages_placeRecords _ (s.hinge, { s.leaf i with host := { (s.leaf i).host with toPlace := [] } })
  unfold settleLeaf
  dsimp only
  rw [State.hinge_setLeaf]
  exact hplace.trans (Hinge.messages_takeMsgs _ _)

theorem messages_settle (s : State) : s.hinge.Messages s.settle.hinge := (messages_settleLeaf .A s).trans (messages_settleLeaf .B _)

/-! ## No held message is left that could be sent -/

/-- No held message could be sent. -/
def Hinge.HeldWait (h : Hinge) : Prop := h.linkOk = true → ∀ m ∈ h.heldMsgs, (h.fn m.1).canSend m.2 = false

theorem Hinge.HeldWait.messages (hw : h.HeldWait) (hk : h.Messages k) : k.HeldWait := by
  intro hl m hm
  rw [hk.linkOk] at hl
  rw [hk.fn]
  obtain hm | hm := hk.held m hm
  · exact hw hl m hm
  · exact hm hl

theorem Hinge.messages_foldl_sendNow (xs : List (Nat × Nat)) (hl : h.linkOk = true) :
    h.Messages (xs.foldl (fun k m => k.sendNow m.1 m.2) h) := by
  induction xs generalizing h with
  | nil => exact Hinge.Messages.refl h
  | cons x t ih =>
    have hsend := Hinge.messages_sendNow hl x.1 x.2
    exact hsend.trans (ih (hsend.linkOk.trans hl))

/-- The hinge without the held messages that can be sent. -/
def Hinge.waiting (h : Hinge) : Hinge := { h with heldMsgs := h.heldMsgs.filter fun m => !(h.fn m.1).canSend m.2 }

theorem Hinge.messages_waiting (h : Hinge) : h.Messages h.waiting :=
  ⟨rfl, fun _ => rfl, fun _ hm => .inl (List.mem_of_mem_filter hm), fun _ => rfl⟩

theorem Hinge.heldWait_waiting (h : Hinge) : h.waiting.HeldWait := fun _ m hm => by
  have hno := (List.mem_filter.mp hm).2
  rw [Bool.not_eq_true'] at hno
  exact hno

theorem Hinge.release_of_linkOk (hl : h.linkOk = true) : h.release =
    ((h.heldMsgs.filter fun m => (h.fn m.1).canSend m.2).foldl (fun k m => k.sendNow m.1 m.2) h.waiting).showHeld := if_pos hl

theorem Hinge.release_of_not_linkOk (hl : h.linkOk = false) : h.release = h := if_neg (by simp [hl])

theorem Hinge.waiting_messages_release (hl : h.linkOk = true) : h.waiting.Messages h.release := by
  rw [Hinge.release_of_linkOk hl]
  have hwait : h.waiting.linkOk = true := hl
  exact (Hinge.messages_foldl_sendNow _ hwait).trans (Hinge.messages_showHeld _)

theorem Hinge.messages_release (h : Hinge) : h.Messages h.release := by
  by_cases hl : h.linkOk = true
  · exact h.messages_waiting.trans (Hinge.waiting_messages_release hl)
  · rw [Hinge.release_of_not_linkOk (Bool.eq_false_iff.mpr hl)]
    exact Hinge.Messages.refl h

/-- A release leaves no held message that could be sent. -/
theorem Hinge.heldWait_release (h : Hinge) : h.release.HeldWait := by
  by_cases hl : h.linkOk = true
  · exact h.heldWait_waiting.messages (Hinge.waiting_messages_release hl)
  · rw [Hinge.release_of_not_linkOk (Bool.eq_false_iff.mpr hl)]
    exact fun hup => absurd hup hl

theorem Hinge.kept_release (h : Hinge) : h.Kept h.release := by
  by_cases hl : h.linkOk = true
  · rw [Hinge.release_of_linkOk hl]
    have hwait : h.Kept h.waiting := Hinge.kept_msgs h _ _ _ _
    exact (hwait.trans (Hinge.kept_foldl _ _ _ fun m _ k => Hinge.kept_sendNow k m.1 m.2)).trans (Hinge.kept_showHeld _)
  · rw [Hinge.release_of_not_linkOk (Bool.eq_false_iff.mpr hl)]
    exact Hinge.Kept.refl h

/-! ## The functions and the link -/

theorem Hinge.Kept.fn (hk : h.Kept k) (x : Nat) : k.fn x = h.fn x := by unfold Hinge.fn; rw [hk.fn0, hk.fn1]

theorem Hinge.fn_setFn_same (h : Hinge) (f : FnState) (ha : a < 2) : (h.setFn a f).fn a = f := by
  interval_cases a <;> rfl

theorem Hinge.fn_setFn_other (h : Hinge) (f : FnState) (ha : a < 2) : (h.setFn a f).fn (1 - a) = h.fn (1 - a) := by
  interval_cases a <;> rfl

theorem Hinge.fn_configSide (h : Hinge) (a : Nat) (op : PcieCfg) (x : Nat) : (h.configSide a op).fn x = h.fn x := by
  unfold Hinge.configSide
  split
  · split <;> rfl
  · split <;> rfl
  · rfl

theorem Hinge.fn_showFn (h : Hinge) (x : Nat) : h.showFn.fn x = h.fn x := rfl

/-- A field of HINGE_PCIE_LINK above LSTATE. -/
theorem Hinge.Kept.link (hk : h.Kept k) (f : FieldRef) (ha : f.addr = Reg.HINGE_PCIE_LINK) (hlo : 18 ≤ f.lo) : k.get f = h.get f := by
  refine hk.get f fun x hx _ => ?_
  rw [ha, hingeSettles_def, if_pos rfl]
  simp only [Bool.or_eq_false_iff, beq_eq_false_iff_ne]
  omega

/-- What a command that changes the hinge alone answers. -/
theorem answersWith_of_onHinge {c : Instr} {f : Hinge → Hinge} {P : State → Prop} (e : exec c s = .next (s.onHinge f).settle)
    (hP : ∀ t : State, (f s.hinge).Kept t.hinge → (f s.hinge).Messages t.hinge → (∀ i, (s.leaf i).Kept (t.leaf i)) → P t) :
    AnswersWith c s P := by
  have kept := settle_kept (s.onHinge f)
  refine ⟨_, e, hP _ kept.hinge (messages_settle (s.onHinge f)) fun i => ?_⟩
  have hleaf := kept.leaf i
  rw [State.leaf_onHinge] at hleaf
  exact hleaf

/-- The link's three fields given. -/
def Hinge.setLink (speed width lstate : Nat) (h : Hinge) : Hinge :=
  ((h.put Fld.HINGE_PCIE_LINK_SPEED speed).put Fld.HINGE_PCIE_LINK_WIDTH width).put Fld.HINGE_PCIE_LINK_LSTATE lstate

/-- WAKE_N ended at L0, with PME_Status set in the functions that hold messages. -/
def Hinge.endWake (lstate : Nat) (h : Hinge) : Hinge := if h.wakeN && lstate == 0 then ({ h with wakeN := false }).markPme else h

theorem Hinge.linkChange_eq {speed width lstate : Nat} (hh : h.held = false) (hp : h.perst = false) (hs : speed ≤ 5) (hw : width ≤ 8)
    (hl : lstate ≤ 3) : h.linkChange speed width lstate = ((h.setLink speed width lstate).endWake lstate).release :=
  if_neg (by simp [hh, hp, hs, hw, hl])

theorem Hinge.get_endWake (n : Nat) (h : Hinge) (f : FieldRef) : (h.endWake n).get f = h.get f := by
  unfold Hinge.endWake
  split <;> rfl

theorem Hinge.wakeN_endWake (h : Hinge) : (h.endWake 0).wakeN = false := by
  unfold Hinge.endWake
  split
  · rfl
  · next hw => simpa using hw

theorem Hinge.shown_setLink (h : Hinge) {speed width lstate : Nat} (hs : speed ≤ 5) (hw : width ≤ 8) (hl : lstate ≤ 3) :
    (h.setLink speed width lstate).get Fld.HINGE_PCIE_LINK_SPEED = speed
    ∧ (h.setLink speed width lstate).get Fld.HINGE_PCIE_LINK_WIDTH = width
    ∧ (h.setLink speed width lstate).get Fld.HINGE_PCIE_LINK_LSTATE = lstate := by
  unfold Hinge.setLink
  refine ⟨?_, ?_, ?_⟩
  · rw [Hinge.get_put_disjoint _ Fld.HINGE_PCIE_LINK_LSTATE Fld.HINGE_PCIE_LINK_SPEED _ rfl (by decide) (by decide) (by decide),
      Hinge.get_put_disjoint _ Fld.HINGE_PCIE_LINK_WIDTH Fld.HINGE_PCIE_LINK_SPEED _ rfl (by decide) (by decide) (by decide),
      Hinge.get_put_same _ _ _ (by decide) (by decide)]
    exact Nat.mod_eq_of_lt (show speed < 16 by omega)
  · rw [Hinge.get_put_disjoint _ Fld.HINGE_PCIE_LINK_LSTATE Fld.HINGE_PCIE_LINK_WIDTH _ rfl (by decide) (by decide) (by decide),
      Hinge.get_put_same _ _ _ (by decide) (by decide)]
    exact Nat.mod_eq_of_lt (show width < 16 by omega)
  · rw [Hinge.get_put_same _ _ _ (by decide) (by decide)]
    exact Nat.mod_eq_of_lt (show lstate < 4 by omega)

theorem Hinge.rd_setLink (h : Hinge) (speed width lstate : Nat) (ha : Reg.HINGE_PCIE_LINK ≠ a) :
    (h.setLink speed width lstate).rd a = h.rd a := by
  unfold Hinge.setLink
  rw [Hinge.rd_put_other _ _ _ ha, Hinge.rd_put_other _ _ _ ha, Hinge.rd_put_other _ _ _ ha]

/-- A field of HINGE_PCIE_LINK above the functions' power states. -/
theorem Hinge.get_showFn (h : Hinge) (f : FieldRef) (ha : f.addr = Reg.HINGE_PCIE_LINK) (hlo : 10 ≤ f.lo) (h32 : f.hi < 32) :
    h.showFn.get f = h.get f := by
  unfold Hinge.showFn
  rw [Hinge.get_put_disjoint _ Fld.HINGE_PCIE_LINK_D_PF1 f _ ha.symm (by decide) h32 (.inl (show 9 < f.lo by omega)),
    Hinge.get_put_disjoint _ Fld.HINGE_PCIE_LINK_D_PF0 f _ ha.symm (by decide) h32 (.inl (show 1 < f.lo by omega))]

theorem Hinge.rd_showFn (h : Hinge) (ha : Reg.HINGE_PCIE_LINK ≠ a) : h.showFn.rd a = h.rd a := by
  unfold Hinge.showFn
  rw [Hinge.rd_put_other _ _ _ ha, Hinge.rd_put_other _ _ _ ha]

/-- Both functions in reset and PERST_N asserted. -/
def Hinge.resetFns (h : Hinge) : Hinge := { h with fn0 := {}, fn1 := {}, perst := true, apLog2 := 30, rid0 := 0, rid1 := 1 }

theorem Hinge.perstAssert_eq (h : Hinge) : h.perstAssert = (h.resetFns.setLink 0 0 3).showFn := rfl

/-- The registers of a link in reset. -/
theorem Hinge.shown_perstAssert (h : Hinge) : h.perstAssert.get Fld.HINGE_PCIE_LINK_SPEED = 0
    ∧ h.perstAssert.get Fld.HINGE_PCIE_LINK_WIDTH = 0 ∧ h.perstAssert.rd Reg.HINGE_MODE = h.rd Reg.HINGE_MODE := by
  obtain ⟨hspeed, hwidth, -⟩ := h.resetFns.shown_setLink (speed := 0) (width := 0) (lstate := 3) (by decide) (by decide) (by decide)
  rw [Hinge.perstAssert_eq, Hinge.get_showFn _ _ rfl (by decide) (by decide), Hinge.get_showFn _ _ rfl (by decide) (by decide),
    Hinge.rd_showFn _ (by decide), Hinge.rd_setLink _ _ _ _ (by decide)]
  exact ⟨hspeed, hwidth, rfl⟩

/-- In L0, with neither reset in force, the link carries messages. -/
theorem Hinge.linkOk_of_l0 (hh : h.held = false) (hp : h.perst = false) (hl : h.get Fld.HINGE_PCIE_LINK_LSTATE = 0) : h.linkOk = true := by
  unfold Hinge.linkOk
  simp [hh, hp, hl]

theorem Hinge.resets_endWake (n speed width lstate : Nat) (h : Hinge) :
    ((h.setLink speed width lstate).endWake n).held = h.held ∧ ((h.setLink speed width lstate).endWake n).perst = h.perst := by
  unfold Hinge.endWake
  split <;> exact ⟨rfl, rfl⟩

/-! ## The commands -/

theorem answersWith_flr (hh : s.hinge.held = false) (hp : s.hinge.perst = false) (ha : a < 2) :
    AnswersWith (.flr a) s fun t => t.hinge.fn a = {} ∧ t.hinge.fn (1 - a) = s.hinge.fn (1 - a)
      ∧ (a = 0 → t.hinge.apLog2 = 30) ∧ ∀ i, (s.leaf i).Kept (t.leaf i) := by
  have hflr : s.hinge.flr a = if a = 0 then { (s.hinge.setFn a {}).showFn with apLog2 := 30 } else (s.hinge.setFn a {}).showFn :=
    if_neg (by simp [hh, hp]; omega)
  have hfn : ∀ x, (s.hinge.flr a).fn x = (s.hinge.setFn a {}).fn x := fun x => by rw [hflr]; split <;> rfl
  refine answersWith_of_onHinge rfl fun t kept _ hleaf => ?_
  rw [kept.fn, kept.fn, hfn, hfn, Hinge.fn_setFn_same _ _ ha, Hinge.fn_setFn_other _ _ ha]
  refine ⟨rfl, rfl, fun h0 => ?_, hleaf⟩
  rw [kept.apLog2, hflr, if_pos h0]

theorem answersWith_pcieConfigWrite (hh : s.hinge.held = false) (hp : s.hinge.perst = false) (ha : a < 2) (op : PcieCfg) :
    AnswersWith (.pcieConfigWrite a op) s fun t => t.hinge.fn a = (s.hinge.fn a).config op ∧ t.hinge.fn (1 - a) = s.hinge.fn (1 - a)
      ∧ t.hinge.HeldWait ∧ ∀ i, (s.leaf i).Kept (t.leaf i) := by
  have hconf : s.hinge.configWrite a op = (((s.hinge.setFn a ((s.hinge.fn a).config op)).configSide a op).showFn).release :=
    if_neg (by simp [hh, hp]; omega)
  refine answersWith_of_onHinge rfl fun t kept hmsg hleaf => ?_
  rw [hconf] at kept hmsg
  rw [kept.fn, kept.fn, (Hinge.kept_release _).fn, (Hinge.kept_release _).fn, Hinge.fn_showFn, Hinge.fn_showFn, Hinge.fn_configSide,
    Hinge.fn_configSide, Hinge.fn_setFn_same _ _ ha, Hinge.fn_setFn_other _ _ ha]
  exact ⟨rfl, rfl, (Hinge.heldWait_release _).messages hmsg, hleaf⟩

theorem answersWith_linkStateChange {speed width lstate : Nat} (hh : s.hinge.held = false) (hp : s.hinge.perst = false) (hs : speed ≤ 5)
    (hw : width ≤ 8) (hl : lstate ≤ 3) : AnswersWith (.linkStateChange speed width lstate) s fun t =>
      t.hinge.get Fld.HINGE_PCIE_LINK_SPEED = speed ∧ t.hinge.get Fld.HINGE_PCIE_LINK_WIDTH = width
      ∧ (lstate = 0 → t.hinge.wakeN = false) ∧ t.hinge.HeldWait ∧ ∀ i, (s.leaf i).Kept (t.leaf i) := by
  obtain ⟨hspeed, hwidth, hlst⟩ := s.hinge.shown_setLink hs hw hl
  refine answersWith_of_onHinge rfl fun t kept hmsg hleaf => ?_
  rw [Hinge.linkChange_eq hh hp hs hw hl] at kept hmsg
  have hkept := (Hinge.kept_release _).trans kept
  refine ⟨?_, ?_, fun h0 => ?_, (Hinge.heldWait_release _).messages hmsg, hleaf⟩
  · rw [hkept.link _ rfl (by decide), Hinge.get_endWake, hspeed]
  · rw [hkept.link _ rfl (by decide), Hinge.get_endWake, hwidth]
  · subst h0
    obtain ⟨hh0, hp0⟩ := s.hinge.resets_endWake 0 speed width 0
    have hup := Hinge.linkOk_of_l0 (hh0.trans hh) (hp0.trans hp) ((Hinge.get_endWake ..).trans hlst)
    exact (((Hinge.messages_release _).trans hmsg).wakeN hup).trans (Hinge.wakeN_endWake _)

/-- Settles O12: what each command makes of the hinge, and that settling holds only messages that cannot be sent. -/
theorem linkAndFunctionCommands : Obligations.LinkAndFunctionCommands := by
  refine ⟨fun s => answersWith_of_onHinge rfl fun t kept _ hleaf => ?_, fun s => answers_of_exec rfl,
    fun s a hh hp ha => ⟨answersWith_flr hh hp ha, answersWith_pcieConfigWrite hh hp ha⟩,
    fun s speed width lstate hh hp hs hw hl => answersWith_linkStateChange hh hp hs hw hl⟩
  obtain ⟨hspeed, hwidth, hmode⟩ := s.hinge.shown_perstAssert
  exact ⟨kept.perst, kept.fn0, kept.fn1, (kept.link _ rfl (by decide)).trans hspeed, (kept.link _ rfl (by decide)).trans hwidth,
    (kept.rd _ fun _ => rfl).trans hmode, hleaf⟩

end Sys2Proof.Machine
end

section
/-!
PROOFS. The DRAM aperture and the windows of PF1 (R491 to R493, R506): what a store leaves in DRAM, the count of a refused access, and the
statement about the two accesses.
-/
namespace Sys2Proof.Machine

variable {s : State} {i : LeafId} {l m : Leaf} {h : Hinge} {a g k n o x : Nat} {bs : List Byte}

/-! ## Bytes of DRAM -/

theorem Leaf.dramRead_congr (hd : m.dram = l.dram) (a n : Nat) : m.dramRead a n = l.dramRead a n := by
  unfold Leaf.dramRead Leaf.dramByte
  rw [hd]

theorem Leaf.dramByte_congr (hd : m.dram = l.dram) (a : Nat) : m.dramByte a = l.dramByte a := by
  unfold Leaf.dramByte
  rw [hd]

/-- A read of the bytes stored returns them. -/
theorem Leaf.dramRead_dramWrite (l : Leaf) (a : Nat) (bs : List Byte) : (l.dramWrite a bs).dramRead a bs.length = bs := by
  refine List.ext_getElem (Leaf.length_dramRead ..) fun j _ hj => ?_
  simp only [Leaf.dramRead, List.getElem_map, List.getElem_range]
  exact dramByte_dramWrite_same l a j bs hj

theorem Leaf.dram_store (l : Leaf) (a : Nat) (bs : List Byte) : (l.store a bs).dram = (l.dramWrite a bs).dram := rfl

theorem Leaf.toPlace_store (l : Leaf) (a : Nat) (bs : List Byte) : (l.store a bs).host.toPlace = l.host.toPlace := rfl

/-! ## A refused access -/

theorem Hinge.count_inc_viol (h : Hinge) : (h.inc Fld.HINGE_VIOL_CNT_COUNT).get Fld.HINGE_VIOL_CNT_COUNT
    = (h.get Fld.HINGE_VIOL_CNT_COUNT + 1) % 2 ^ 32 := Hinge.get_put_same _ _ _ (by decide) (by decide)

/-- A refused access counts, whether it is logged or not. -/
theorem Hinge.count_violation (h : Hinge) (addr cause fn : Nat) (write : Bool) (win : Nat) :
    (h.violation addr cause fn write win).get Fld.HINGE_VIOL_CNT_COUNT = (h.get Fld.HINGE_VIOL_CNT_COUNT + 1) % 2 ^ 32 := by
  rw [← h.count_inc_viol]
  unfold Hinge.violation
  dsimp only
  split
  · rfl
  · refine Hinge.get_congr (((Hinge.kept_message _ 0 128).rd _ fun _ => rfl).trans ?_)
    unfold Hinge.putB
    rw [Hinge.rd_put_other _ _ _ (by decide), Hinge.rd_put_other _ _ _ (by decide), Hinge.rd_put_other _ _ _ (by decide),
      Hinge.rd_put_other _ _ _ (by decide), Hinge.rd_put_other _ _ _ (by decide), Hinge.rd_put_other _ _ _ (by decide),
      Hinge.rd_wr_other _ _ (by decide), Hinge.rd_wr_other _ _ (by decide)]

theorem Hinge.Kept.violCount {h k : Hinge} (hk : h.Kept k) : k.get Fld.HINGE_VIOL_CNT_COUNT = h.get Fld.HINGE_VIOL_CNT_COUNT :=
  Hinge.get_congr (hk.rd _ fun _ => rfl)

/-! ## The aperture -/

theorem State.answers_of_ready (hr : s.ready i = true) : s.answers i = true := by
  have hsleep := Leaf.sleep_of_runs (Leaf.runs_of_ready hr)
  unfold State.ready at hr
  rw [Bool.and_eq_true] at hr
  unfold State.answers
  rw [hr.1, hsleep]
  rfl

/-- A write inside software's range and outside the cache partition. -/
theorem State.aperture_write (ho : o < 2 ^ s.hinge.apLog2) (hend : (s.hinge.apTarget o).2 + bs.length ≤ softEnd)
    (hr : s.ready (s.hinge.apTarget o).1 = true)
    (hc : (s.leaf (s.hinge.apTarget o).1).touchesCache (s.hinge.apTarget o).2 bs.length = false) (out : WordOutcome) :
    s.aperture o (.write bs) out
      = s.setLeaf (s.hinge.apTarget o).1 ((s.leaf (s.hinge.apTarget o).1).store (s.hinge.apTarget o).2 bs) := by
  have hans := State.answers_of_ready hr
  unfold State.aperture
  dsimp only
  rw [if_neg (not_le.mpr ho), if_neg (not_lt.mpr hend), if_neg (by simp [hans]), if_neg (by simp [hc])]

/-- A read that passes the end of software's range. -/
theorem State.aperture_read_past (ho : o < 2 ^ s.hinge.apLog2) (hend : softEnd < (s.hinge.apTarget o).2 + n) :
    s.aperture o (.read n) .clean
      = (s.onHinge (Hinge.violation (s.hinge.apTarget o).2 1 0 false 0)).complete [] false true := by
  unfold State.aperture
  dsimp only
  rw [if_neg (not_le.mpr ho), if_pos hend]
  rfl

/-- A read inside software's range. -/
theorem State.aperture_read (ho : o < 2 ^ s.hinge.apLog2) (hend : (s.hinge.apTarget o).2 + n ≤ softEnd)
    (hr : s.ready (s.hinge.apTarget o).1 = true) : s.aperture o (.read n) .clean
      = s.complete ((s.leaf (s.hinge.apTarget o).1).dramRead (s.hinge.apTarget o).2 n)
          ((s.leaf (s.hinge.apTarget o).1).badRange (s.hinge.apTarget o).2 n) false := by
  have hans := State.answers_of_ready hr
  unfold State.aperture
  dsimp only
  rw [if_neg (not_le.mpr ho), if_neg (not_lt.mpr hend), if_neg (by simp [hans])]
  unfold Leaf.dramOutcome
  rw [State.setLeaf_self]

theorem answersWith_apertureWrite (ho : o < 2 ^ s.hinge.apLog2) (hend : (s.hinge.apTarget o).2 + bs.length ≤ softEnd)
    (hr : s.ready (s.hinge.apTarget o).1 = true)
    (hc : (s.leaf (s.hinge.apTarget o).1).touchesCache (s.hinge.apTarget o).2 bs.length = false)
    (hp : (s.leaf (s.hinge.apTarget o).1).host.toPlace = []) (out : WordOutcome) :
    AnswersWith (.apertureAccess o (.write bs) out) s fun t =>
      (t.leaf (s.hinge.apTarget o).1).dramRead (s.hinge.apTarget o).2 bs.length = bs
      ∧ ∀ x, x < (s.hinge.apTarget o).2 ∨ (s.hinge.apTarget o).2 + bs.length ≤ x →
          (t.leaf (s.hinge.apTarget o).1).dramByte x = (s.leaf (s.hinge.apTarget o).1).dramByte x := by
  refine answersWith_of_setLeaf (congrArg State.done (State.aperture_write ho hend hr hc out)) fun t kept _ => ?_
  have hd := (kept.dram ((Leaf.toPlace_store ..).trans hp)).trans (Leaf.dram_store ..)
  refine ⟨(Leaf.dramRead_congr hd _ _).trans (Leaf.dramRead_dramWrite ..), fun x hx => ?_⟩
  rw [Leaf.dramByte_congr hd, dramByte_dramWrite_other _ _ _ _ hx]

/-! ## The windows -/

theorem windowOf_lt_sixteen (i : LeafId) (hg : g < 8) : windowOf i g < 16 :=
  Nat.mul_div_cancel_left g (show 0 < 8 by decide) ▸ windowOf_lt i (8 * g) (by omega)

theorem windowOf_group (i : LeafId) (hg : g < 8) : windowOf i g % 8 = g := by
  cases i
  · exact show (8 * 0 + g) % 8 = g by omega
  · exact show (8 * 1 + g) % 8 = g by omega

/-- An aligned word of a window is an access of that window. -/
theorem State.pf1Access_write (hg : g < 8) (hx : x < 65536) (h4 : x % 4 = 0) (hl : bs.length = 4) :
    s.pf1Access (65536 * windowOf i g + x) (.write bs) =
      if !s.hinge.winOn (windowOf i g) then s.onHinge (Hinge.violation (65536 * windowOf i g + x) 4 1 true (windowOf i g))
      else if (statusCopy g x).isSome then s.onHinge (Hinge.violation (65536 * windowOf i g + x) 3 1 true (windowOf i g))
      else if !s.answers i then s.noAnswer i
      else if x < 0x100 ∧ x % 0x20 = 0 then
        s.sqDoorbell i (8 * g + x / 0x20) (leAt bs 0 4) { ofs := 65536 * windowOf i g + x, fn := 1, win := windowOf i g }
      else if x < 0x100 ∧ x % 0x20 = 4 then
        s.cqDoorbell i (8 * g + x / 0x20) (leAt bs 0 4) { ofs := 65536 * windowOf i g + x, fn := 1, win := windowOf i g }
      else s := by
  have hlt := windowOf_lt_sixteen i hg
  have hd : (65536 * windowOf i g + x) / 65536 = windowOf i g := by omega
  have hm : (65536 * windowOf i g + x) % 65536 = x := by omega
  have hin : ¬ (decide (2 ^ 20 ≤ 65536 * windowOf i g + x) || (65536 * windowOf i g + x) % 4 != 0) = true := by
    rw [Bool.or_eq_true, decide_eq_true_eq, bne_iff_ne]
    omega
  unfold State.pf1Access
  dsimp only
  rw [hd, hm, leaf_of_windowOf i hg, windowOf_group i hg, if_neg hin, if_neg (not_not.mpr hl)]

theorem leAt_word (hl : bs.length = 4) : leAt bs 0 4 = leNat bs := by
  unfold leAt sliceBytes
  simp [List.take_of_length_le hl.le, hl]

/-- The tail doorbell of a pair, written through its enabled window. -/
theorem State.pf1Access_tail (hg : g < 8) (hk : k < 8) (hl : bs.length = 4) (hr : s.ready i = true)
    (hw : s.hinge.winOn (windowOf i g) = true) (hq : (s.leaf i).sqBad (8 * g + k) (leNat bs % 4096) = false) :
    s.pf1Access (65536 * windowOf i g + 0x20 * k) (.write bs)
      = s.onLeaf i fun x => x.put (Fld.LEAF_Q_SQDB_TAIL (8 * g + k)) (leNat bs % 4096) := by
  have hans := State.answers_of_ready hr
  have hdb : 0x20 * k < 0x100 := by omega
  rw [State.pf1Access_write hg (by omega) (by omega) hl, if_neg (by simp [hw]), statusCopy_of_doorbell _ hdb, if_neg (by simp),
    if_neg (by simp [hans]), if_pos ⟨hdb, Nat.mul_mod_right ..⟩, Nat.mul_div_cancel_left _ (by decide), leAt_word hl]
  exact if_neg (by simp [hq])

/-- Settles O16: what each access reaches, by the range, the leaf and the window it names. -/
theorem apertureAndWindows : Obligations.ApertureAndWindows := by
  refine ⟨fun s o bs out ho hend hr hc hp => answersWith_apertureWrite ho hend hr hc hp out,
    fun s o n ho => ⟨fun hend => ?_, fun hend hr => ?_⟩,
    fun s i g k bs hg hk hl hr hw hq => answers_of_exec (congrArg State.done (State.pf1Access_tail hg hk hl hr hw hq)),
    fun s i g x bs hg hx h4 hl hw => ?_⟩
  · refine answersWith_of_exec (congrArg State.done (State.aperture_read_past ho hend)) fun t kept => ?_
    rw [kept.hinge.completion, kept.hinge.violCount]
    exact ⟨rfl, Hinge.count_violation ..⟩
  · refine answersWith_of_exec (congrArg State.done (State.aperture_read ho hend hr)) fun t kept => ?_
    rw [kept.hinge.completion]
    exact ⟨rfl, rfl⟩
  · have e : s.pf1Access (65536 * windowOf i g + x) (.write bs)
        = s.onHinge (Hinge.violation (65536 * windowOf i g + x) 4 1 true (windowOf i g)) := by
      rw [State.pf1Access_write hg hx h4 hl, if_pos (by simp [hw])]
    refine answersWith_of_onHinge (congrArg State.done e) fun t kept _ hleaf => ?_
    rw [kept.violCount]
    exact ⟨Hinge.count_violation .., hleaf⟩

end Sys2Proof.Machine
end
